-- ==== Sys2Proof/Word.lean ====
section
/-! DEFINITION. The plain word types of the CX6408: the 32-bit register word, the byte, and the names
for the fixed sets of lanes, ports, quads, masters and consumers (spec/00, spec/01). -/

namespace Sys2Proof

/-- A management register is 32 bits wide (spec/00, "Registers"). -/
abbrev Word := BitVec 32

/-- One byte of the management space. -/
abbrev Byte := BitVec 8

/-- Host lanes H0–H15. -/
abbrev HLane := Fin 16

/-- Line lanes L0–L8; L8 is the Ply lane. -/
abbrev LLane := Fin 9

/-- Logical ports P0–P15. -/
abbrev PortNo := Fin 16

/-- Quads HQ0–HQ3. -/
abbrev Quad := Fin 4

/-- The four masters of the management fabric, R14. -/
inductive Master where
  | host | spindleA | spindleB | dma
  deriving DecidableEq, Repr

/-- Spindle A or Spindle B. -/
inductive Spindle where
  | a | b
  deriving DecidableEq, Repr

/-- The other spindle. -/
def Spindle.other : Spindle → Spindle
  | .a => .b
  | .b => .a

/-- The fabric master of a spindle. -/
def Spindle.master : Spindle → Master
  | .a => .spindleA
  | .b => .spindleB

/-- Where a Krelin command comes from: a request slot of the mailbox (R293), or a place in the worker's Fleyth
request queue, the oldest at 0 (R366); an executing Fleyth request has left that queue. -/
inductive CmdSrc where
  | slot (s : Fin 16)
  | fleyth (k : Fin 8)
  deriving DecidableEq, Repr

end Sys2Proof
end

