-- ==== Sys2Proof/Inputs.lean ====
section
/-! DEFINITION. What the outside world brings with a command: the operands of the commands of Syntax.lean that carry
more than a number. They are plain data; the meaning of each field is the rule that its docstring names. -/

namespace Sys2Proof

/-- What else happens at the distaff in the CLK_PER cycle of a command (R281): watchdog resets of the spindles, a
write of the spindles to `GRD_DISTAFF_CTRL` (master and word), and claims of either spindle. Log 32 (DEDUCED). -/
structure DistCycle where
  resetA : Bool := false
  resetB : Bool := false
  ctrl : Option (Master × Word) := none
  claimA : Option Word := none
  claimB : Option Word := none
  deriving DecidableEq, Repr

/-- An access of a master to the management fabric: whether it comes over I3C/I2C, its address, its width in bits, and the word of a
write (none: a read). Log 32 (DEDUCED). -/
structure BusAccess where
  m : Master
  i3c : Bool
  a : BitVec 24
  width : Nat
  v : Option Word
  deriving DecidableEq, Repr

/-- A tap request that the equaliser of a line receiver wants made of the far transmitter (R157, R158): a tap (c₋₃ first) up or down
by a step of 1 to 4, less one, or a preset T0 to T3. -/
inductive TapAsk where
  | inc (tap : Fin 9) (step : Fin 4)
  | dec (tap : Fin 9) (step : Fin 4)
  | preset (p : Fin 4)
  deriving DecidableEq, Repr

/-- What a line receiver's loops have measured and adapted at the end of a window of 2^16 line symbols (spec/05
"Adaptation"): the frequency estimate in 0.01 ppm and the rotator position; the FFE, Volterra coefficients, MLSE targets,
noise predictor and amplifier gain code as the loops have moved them; and the far-end tap request that the equaliser wants
made, if any (R158). Log 124 (DESIGN CHOICE). -/
structure AdaptIn where
  freq : Int
  phase : Nat
  ffe : List Int
  volt : List Int
  targets : List Int
  np : Int
  gain : Int
  ask : Option TapAsk
  deriving DecidableEq, Repr

/-- A bit's reliability before it is scaled (spec/05 "Sequence detection and soft output"): L = ln(P(b = 0) / P(b = 1)) in units of
2^-16 nat, and the bit on the MLSE's best path, which decides the sign of a value that rounds to 0 (R117).
Log 139 (DESIGN CHOICE). -/
structure LlrIn where
  l : Int
  one : Bool
  deriving DecidableEq, Repr

/-- The loss criteria, in the order of their cause codes 1 to 4 (R124). -/
inductive LossCause where
  | los | cdr | snr | frame
  deriving DecidableEq, Repr

/-- What a receiver's taps gave a capture (R137): the raw ADC codes in time order, the words of the equaliser's output, and the
symbols' reliabilities, in groups of four, none for a group that came while the lane was in HOLD (R119). -/
structure TapData where
  codes : List (BitVec 7)
  words : List (BitVec 40)
  llrs : List (Option (List (LlrIn × LlrIn)))
  deriving DecidableEq, Repr

/-- The three corrections of a sub-ADC, R112. -/
inductive AdcLoop where
  | offset | gain | skew
  deriving DecidableEq, Repr

/-- One background calibration update of a sub-ADC: the correction, the step that the loop asks for (-1, 0 or 1) and the
largest residual estimates over all sub-ADCs as they now stand (R112, R113, R141). Log 124 (DESIGN CHOICE). -/
structure AdcIn where
  sub : Fin 64
  loop : AdcLoop
  step : Int
  offsetRes : Nat
  gainRes : Nat
  skewRes : Nat
  deriving DecidableEq, Repr

/-- What a host receiver's equaliser shows at the end of a frame: its SNR in 0.25 dB units, gain code and CTLE peaking (R106, R108)
and the 24 taps of its FFE. Log 124 (DESIGN CHOICE). -/
structure HostEqIn where
  snr : Nat
  agc : Nat
  ctle : Nat
  ffe : List Int
  deriving DecidableEq, Repr

/-- What a host receiver asks of the far transmitter (R82): a tap one step up or down (pre3 to post2 in order), a preset (0 for P1 to
3 for P4), or the training pattern (PRBS31Q, else PRBS13Q). -/
inductive HostAsk where
  | inc (tap : Fin 6)
  | dec (tap : Fin 6)
  | preset (p : Fin 4)
  | pattern (prbs31 : Bool)
  deriving DecidableEq, Repr

/-- A Twist-H training frame's time at a host receiver (R77 to R83): the decisions on its symbols 0 to 32 before the polarity is
corrected, as bit pairs of the Gray code (0b10 is +3, 0b00 is -3), the 64 message bits as decided, whether the receiver has finished
its own adaptation, and the next request that it wants made of the far transmitter. Log 74 (DEDUCED). -/
structure HFrameIn where
  marks : List (Fin 4)
  word : BitVec 64
  ready : Bool
  ask : Option HostAsk
  eq : HostEqIn
  deriving DecidableEq, Repr

/-- A new request that the far end's IEEE 802.3 training makes of the transmitter (R74): initialise, preset, a coefficient up or
down (pre3 to post2 in order), precoding on or off. -/
inductive IeeeAsk where
  | init
  | preset
  | inc (tap : Fin 6)
  | dec (tap : Fin 6)
  | precode (on : Bool)
  deriving DecidableEq, Repr

/-- An IEEE 802.3 training frame at a host receiver, as the clause of R74 handles it: whether its frame lock holds, whether it came
inverted, the far lane position that its seed tells, whether both receivers have finished, and the far end's request where the
frame brings a new one. Log 74 (DEDUCED). -/
structure IeeeIn where
  valid : Bool
  inverted : Bool
  pos : Option (Fin 4)
  done : Bool
  ask : Option IeeeAsk
  eq : HostEqIn
  deriving DecidableEq, Repr

/-- What a lane that runs without training has found (R76, R96, R97): polarity, the lane position, and its equaliser. -/
structure FixedIn where
  inverted : Bool
  pos : Fin 4
  eq : HostEqIn
  deriving DecidableEq, Repr

/-- A 400 Gb/s data frame's time at a host receiver (R91): the 32 decisions on its marker before the polarity is corrected (1 for
+3), and after the correction its count word and the 10-bit contents of its slots. Log 74 (DEDUCED). -/
structure DataFrameIn where
  marker : BitVec 32
  word : BitVec 32
  slots : List (Fin 1024)
  eq : HostEqIn
  deriving DecidableEq, Repr

/-- What a frame time brings a lane that sends Twist frames: the RS symbols that the host has delivered since the last one for the
lane's whole-lane port or tributary 0 and for tributary 1 (R206, R208), and by physical lane the measured errors that the tap reports
would carry (R157). Log 92 (DEDUCED), 124 (DESIGN CHOICE). -/
structure FrameOut where
  arrived0 : Nat
  arrived1 : Nat
  errs : List Int
  deriving DecidableEq, Repr

/-- Where the RS codeword of a port comes in (R60, R203, R247). From the host: how many symbols of each 400 Gb/s lane's stream precede
it, as the alignment markers show, and the symbols of the other physical lanes. From a Twist line: how many symbols of the released
stream precede it. From an IEEE line: the symbols that the inner decoder gives. Log 97 (DEDUCED). -/
inductive RsIn where
  | fromHost (skip : Fin 544) (lanes : List (HLane × List (Fin 1024)))
  | fromTwist (skip : Fin 540)
  | fromIeee (syms : List (Fin 1024))
  deriving DecidableEq, Repr

/-- Where a Fleyth message comes in: on a sideband port, as the code groups of one transmission from the first that the receiver
makes out (each first bit on the left), or from the in-band channel of a logical line lane, where it has been put together
(R351, R352, R354). -/
inductive FlyArrival where
  | sideband (p : Fin 2) (groups : List (BitVec 10))
  | inband (n : Fin 8)
  deriving DecidableEq, Repr

/-- An entry of a doff record, R478: a block failure or a soft repair, class, index, test, failing granule or row, failing bit. -/
structure DoffEntry where
  repair : Bool
  cls : Nat
  index : Nat
  test : Nat
  addr : Nat
  failBit : Nat
  deriving DecidableEq, Repr

/-- The sources of a reset, R32. -/
inductive ResetSource where
  | por | pin | soft | supply | whorl | watchdogA | watchdogB
  deriving DecidableEq, Repr

/-- A lane of either side. -/
inductive AnyLane where
  | host (h : HLane)
  | line (n : LLane)
  deriving DecidableEq, Repr

/-- Which command has run out of time (R308): the executing command at a place of the list of those that execute, oldest first, or
the FW_ACTIVATE that waits in a slot or the Fleyth queue. Log 119 (DEDUCED). -/
inductive Overdue where
  | running (i : Nat)
  | waiting (src : CmdSrc)
  deriving DecidableEq, Repr

/-- A common command code of I3C, R498: those that the part supports, with the address that they carry (the dynamic address to
take, the static address matched, the address asked), and any other code. -/
inductive Ccc where
  | entdaa (addr : BitVec 7)
  | setdasa (static dyn : BitVec 7)
  | rstdaa
  | getpid (addr : BitVec 7)
  | getbcr (addr : BitVec 7)
  | getdcr (addr : BitVec 7)
  | getstatus (addr : BitVec 7)
  | other (code : BitVec 8)
  deriving DecidableEq, Repr

/-- What wakes the part while the Whorl is stopped, R368. -/
inductive WakeSource where
  | address
  | port (p : Fin 10)
  deriving DecidableEq, Repr

end Sys2Proof
end

