-- ==== Sys2Proof/Syntax.lean ====
section
/-! DEFINITION. The commands of the CX6408 block: one constructor per row of spec/opcode_table.json, in its order. Each
carries what the command brings from outside; everything else the meaning reads from the state. -/

namespace Sys2Proof

/-- One command, by the rows of spec/opcode_table.json. -/
inductive Instr where
  /-- POWER_ON_RESET, R32. VDD_AON rises through its POR threshold and resets everything, including the trip
  latch, the distaff and GLB_RST_STATUS. -/
  | powerOnReset (straps : Fin 8) (supplies : Fin 32) (also : List ResetSource)
  /-- RESET_N, R32. The RESET_N pin is held low for at least 1 µs and resets every domain except the retained
  PD_AON state. -/
  | resetN (straps : Fin 8) (also : List ResetSource)
  /-- SOFTWARE_CHIP_RESET, R50. A write of KEY 0x6408 with CHIP 1 to GLB_RST_CTRL starts a chip reset with the
  reach of RESET_N. -/
  | softwareChipReset (m : Master) (v : Word) (also : List ResetSource)
  /-- CORE_SUPPLY_LOSS, R32. VDD_CORE stays below its monitor threshold for 1 µs, which resets as RESET_N does
  and restarts at step 2. -/
  | coreSupplyLoss (also : List ResetSource)
  /-- WHORL_RESTART, R29. The Whorl lock detector reports loss of lock while REFCLK is present, which restarts
  every domain except PD_AON. -/
  | whorlRestart (also : List ResetSource)
  /-- JTAG_TAP_RESET, R32. TRST, or five TCK cycles with TMS high, resets the TAP controller and the boundary-
  scan cells. -/
  | jtagTapReset
  /-- SPINDLE_WATCHDOG, R279. A spindle's watchdog period expires without service, which resets that spindle's
  domain and acts on the distaff. -/
  | spindleWatchdog (x : Spindle) (also : DistCycle)
  /-- WDT_KICK, R279. A spindle write to GRD_WDT_KICK restarts that spindle's own watchdog. -/
  | wdtKick (m : Master) (v : Word)
  /-- HOLDOVER, R27. REFCLK misses eight consecutive edges while the Whorl is locked, so the Whorl freezes its
  control word and runs on. -/
  | holdover
  /-- REFCLK_RETURN, R28. REFCLK returns during holdover; within ±200 ppm the Whorl starts slewing towards lock,
  and beyond that the return is ignored. -/
  | refclkReturn (off : Int)
  /-- WHORL_RECOVERED, R28. The slew towards lock completes, HOLDOVER clears and EVS_WHORL_RECOVERED is raised.
  -/
  | whorlRecovered
  /-- WHORL_LOCK, R24. The Whorl signals lock, all derived clocks start together and the ring oscillator stops
  (RDY_OSC). -/
  | whorlLock
  /-- RDY_REG, R32. Start-up step 2 reads OTP and brings up the regulators of the listed domains. -/
  | rdyReg
  /-- DOFF_RECORD_SELECT, R37. At start-up step 4 the boot ROM picks the doff record, applies its soft repairs
  and marks its failed blocks. -/
  | doffRecordSelect
  /-- START_UP_CHECK, R479. The start-up check of step 6 completes and writes a doff record with ORIGIN 1. -/
  | startUpCheck (found : List DoffEntry)
  /-- SELECT_IMAGE, R38. The boot ROM loads and verifies candidate images in sequence order, falling back to
  waiting for a host-pushed image. -/
  | selectImage
  /-- KRELIN_START, R40. At step 9 Krelin starts, Spindle A claims the distaff, the config shadow is kept or
  loaded and the mailbox opens. -/
  | krelinStart
  /-- CORE_VOLTAGE_CHECK, R490. At step 9 Krelin waits for VDD_CORE within TARGET ± 2 % before step 10, or after
  1 s sets OFF_TARGET and goes on. -/
  | coreVoltageCheck (microvolts : Nat) (waited : Bool)
  /-- PORT_DOMAINS_UP, R43. At step 10 the line and host domains of the configured ports power up and their
  converters calibrate. -/
  | portDomainsUp (openLegs : BitVec 16)
  /-- TRAFFIC_READY, R42. Start-up step 13 enables the ports, sets READY and raises EVS_TRAFFIC_READY. -/
  | trafficReady
  /-- ANALOG_SUPPLY_LOSS, R46. VDDA_HS or VDDA_HV stays low for 1 µs, so the dependent host and line domains are
  isolated and turned off. -/
  | analogSupplyLoss (hs : Bool) (hv : Bool)
  /-- ANALOG_SUPPLY_RESTORED, R46. The supply is good again, so Krelin powers the domains up and the lanes are
  restored from their ACTIVE hanks. -/
  | analogSupplyRestored (hs : Bool) (hv : Bool) (openLegs : BitVec 16)
  /-- HQ_UNLOCK, R26. A quad synthesiser loses lock, so the quad's ports signal local fault while it relocks
  without firmware. -/
  | hqUnlock (q : Quad)
  /-- HQ_RELOCK, R26. The quad synthesiser relocks and its lanes resume, or those still training restart
  training. -/
  | hqRelock (q : Quad) (openLegs : BitVec 16)
  /-- HOST_LOS, R100. A host receiver's input stays below 50 mV p-p for 4 µs, so LOS is set and the port goes to
  FAULT. -/
  | hostLos (h : HLane)
  /-- HOST_SIGNAL_RETURN, R101. The signal returns on a lane that had handed off, and the receiver watches it
  for 1 ms. -/
  | hostSignalReturn (h : HLane)
  /-- HOST_RELOCK, R101. The receiver locks to data with its held equaliser state and resumes without
  retraining. -/
  | hostRelock (h : HLane)
  /-- HOST_WATCH_EXPIRY, R101. The 1 ms watch ends with neither training frames nor a lock, so training
  restarts. -/
  | hostWatchExpiry (h : HLane) (openLegs : BitVec 16)
  /-- TWIST_H_FRAME, R85. A Twist-H training frame is received and its marker, CRC, request and status fields
  are acted on. -/
  | twistHFrame (h : HLane) (f : HFrameIn) (openLegs : BitVec 16)
  /-- HANDOFF, R88. The countdown reaches its end, and the next symbol is the first data symbol of that
  direction. -/
  | handoff (h : HLane) (tx : Bool)
  /-- ECHO_TIMEOUT, R86. One millisecond passes without the echo of a request, so training restarts on the lane.
  -/
  | echoTimeout (h : HLane) (openLegs : BitVec 16)
  /-- TRAINING_TIMEOUT, R92. The 500 ms training timer expires, so the lane enters FAILED and TRAIN_FAIL is set.
  -/
  | trainingTimeout (h : HLane)
  /-- TRAINING_RETRY, R92. The lane starts training again 100 ms after it failed. -/
  | trainingRetry (h : HLane) (openLegs : BitVec 16)
  /-- IEEE_TRAINING_FRAME, R74. An IEEE 802.3 training frame is received and handled by the standard handshake
  at 25 to 200 Gb/s. -/
  | ieeeTrainingFrame (h : HLane) (f : IeeeIn) (openLegs : BitVec 16)
  /-- TRAINING_FALLBACK, R75. No valid training frame arrives within 20 ms of signal detection, so the lane
  continues as if FIXED. -/
  | trainingFallback (h : HLane)
  /-- FIXED_TRAINED, R76. A FIXED lane reports TRAINED once clock recovery, equaliser convergence and alignment
  all hold. -/
  | fixedTrained (h : HLane) (f : FixedIn) (openLegs : BitVec 16)
  /-- DATA_FRAME, R91. A 400 Gb/s data frame is received, its COUNT is taken, and data-frame lock is kept or
  lost. -/
  | dataFrame (h : HLane) (f : DataFrameIn)
  /-- HOST_TX_SHORT, R103. A host transmit leg enters or leaves current limiting, and the lane retrains once the
  short is gone. -/
  | hostTxShort (h : HLane) (on : Bool) (openLegs : BitVec 16)
  /-- PAT_CHK_SYNC, R110. A pattern checker gains or loses synchronisation on its error criteria. -/
  | patChkSync (l : AnyLane) (errs : List Bool)
  /-- FOREGROUND_CALIBRATION_DONE, R121. The 2 ms foreground ADC calibration ends and the receiver moves to
  SIGNAL_WAIT. -/
  | foregroundCalibrationDone (n : LLane)
  /-- LINE_SIGNAL, R122. The line input exceeds 60 mV p-p for 4 µs, so SIGNAL becomes 1 and acquisition or a
  queued restore proceeds. -/
  | lineSignal (n : LLane)
  /-- LINE_LOS, R122. The line input stays below 30 mV p-p for 1 µs, so SIGNAL becomes 0. -/
  | lineLos (n : LLane)
  /-- SNR_WINDOW, R119. A 4096-symbol SNR window completes and updates RX_SNR and SNR_AVG and the criteria that
  use them. -/
  | snrWindow (n : LLane) (snr : Fin 256)
  /-- ADC_CAL_UPDATE, R112. A background calibration update moves one sub-ADC correction by at most one step. -/
  | adcCalUpdate (n : LLane) (a : AdcIn)
  /-- LLR_SCALE_UPDATE, R118. The LLR scale is adapted from the measured SNR every 2^20 symbols. -/
  | llrScaleUpdate (n : LLane) (t : Fin 65536)
  /-- LINE_LOCKED, R123. All lock criteria hold at once, so the lane enters LOCKED and EVS_LINE_LOCKED is
  raised. -/
  | lineLocked (n : LLane)
  /-- LOCK_LOSS, R124. A loss criterion is met on a LOCKED lane, so it enters HOLD and its ports enter FAULT. -/
  | lockLoss (l : List (LLane × LossCause))
  /-- GOOD_SET, R129. A lane has been LOCKED with margin for 100 ms, so GOOD is set and a last-good snapshot is
  taken. -/
  | goodSet (n : LLane)
  /-- VOLT_STEP, R115. The receiver steps its Volterra term set one step towards a standing thermal request or
  VOLT_MAX. -/
  | voltStep (n : LLane)
  /-- VOLT_RETURN, R116. SNR_AVG falls too low within 1 ms of a thermal drop, so the term set returns and
  further drops are refused. -/
  | voltReturn (n : LLane)
  /-- RESTORE_WINDOW_EXPIRY, R132. The 100 µs restore window ends without LOCKED, so RESTORE_FAIL is set and the
  fault logic is told. -/
  | restoreWindowExpiry (n : LLane)
  /-- RETRAIN_TIMEOUT, R130. A retrain has not reached LOCKED within 2 s of step 2, so it starts again and
  RETRAIN_FAIL is set. -/
  | retrainTimeout (n : LLane)
  /-- TAP_WORD, R156. A 32-bit tap word completes over four Twist frames and is assigned to its slot. -/
  | tapWord (n : LLane)
  /-- TAP_CHANGE, R159. At the first frame boundary after the request word, all nine transmit taps change from
  the same symbol on. -/
  | tapChange (n : LLane)
  /-- TT_SWAP, R146. At the next frame or cycle boundary the active and shadow tension-table copies swap
  atomically. -/
  | ttSwap (n : LLane)
  /-- TAP_TIMEOUT, R160. One millisecond passes without an echo of a tap request, so TAP_TIMEOUT is set and only
  HOLD is sent. -/
  | tapTimeout (n : LLane)
  /-- LINE_TX_SHORT, R165. A line output leg enters or leaves current limiting, so SHORT is set or cleared. -/
  | lineTxShort (n : LLane) (on : Bool)
  /-- SNAPSHOT, R177. GOOD rises or the snapshot period expires, so the lane's live state is captured and
  written to a slot. -/
  | snapshot (n : LLane)
  /-- SNAPSHOT_GUARD_END, R177. The snapshot guard ends, and the snapshot commits as LAST_GOOD or is discarded.
  -/
  | snapshotGuardEnd (n : LLane)
  /-- CHECKPOINT, R178. The checkpoint period expires on a LOCKED lane, or a quiesce occurs, and an ACTIVE hank
  is captured. -/
  | checkpoint (n : LLane)
  /-- CHECKPOINT_COMMIT, R178. The checkpoint's slot write completes and the ACTIVE pin moves onto it. -/
  | checkpointCommit (n : LLane)
  /-- PAGE_IN_START, R180. A queued page-in takes one of three channels and starts reading and checking its
  source slot. -/
  | pageInStart
  /-- PAGE_IN_DONE, R134. The page-in swaps the live state atomically and raises EVS_HANK_PAGE_DONE, or is
  abandoned on a bad slot. -/
  | pageInDone (n : LLane)
  /-- FRAME_SEND, R211. TWF builds and sends a Twist frame with FAW, overhead, payload, stuff and fill symbols.
  -/
  | frameSend (n : LLane) (f : FrameOut)
  /-- TWIST_FRAME, R212. A Twist frame is received, its FAW matched, stuffs removed, overhead checked and
  payload descrambled. -/
  | twistFrame (n : LLane) (l : List (LlrIn × LlrIn))
  /-- MULTIFRAME, R200. A 24-frame multiframe completes and is accepted or rejected, and its lane fields are
  acted on. -/
  | multiframe (n : LLane)
  /-- PORT_RATE_FAULT, R207. The receive buffer leaves 4 to 12 words, so it is re-centred, the port enters FAULT
  and EVS_PORT_RATE is raised. -/
  | portRateFault (p : PortNo)
  /-- RATE_FAULT_CLEAR, R207. The buffer has stayed within its limits for 1 ms, so the port leaves FAULT. -/
  | rateFaultClear (p : PortNo)
  /-- IEEE_ALIGN_LOSS, R219. The IEEE inner-FEC codeword alignment is lost, which is loss criterion 4 in the
  IEEE modes. -/
  | ieeeAlignLoss (n : LLane)
  /-- PORT_SKEW, R61. Skew beyond the deskew limit holds the port in FAULT and raises EVS_PORT_SKEW. -/
  | portSkew (p : PortNo) (beyond : Bool)
  /-- CODEWORD_ARRIVAL, R239. A Twine codeword's last bit is written and its initial unsatisfied count is known,
  so it becomes resident. -/
  | codewordArrival (n : LLane) (at_ : Fin 64)
  /-- SLOT_BOUNDARY, R235. Every 64 CLK_DSP cycles iterations end, their results are written back, and new
  grants are made. -/
  | slotBoundary (tests : List (Fin 25)) (residues : List (Fin 25 × Nat)) (parity : List (Nat × Fin 16384)) (records : List Nat)
  /-- SPARE_ROTATION, R229. The rotation period expires, and the spare role moves to the next bobbin at a slot
  boundary. -/
  | spareRotation
  /-- CODEWORD_RELEASE, R239. At its deadline a codeword's hard decisions go to the outer RS decoder, and misses
  are counted. -/
  | codewordRelease (n : LLane) (parity : List (Fin 16384))
  /-- RS_CODEWORD, R247. The outer RS decoder corrects and forwards one RS codeword, restoring punctured symbols
  and counting errors. -/
  | rsCodeword (p : PortNo) (x : RsIn)
  /-- STATS_WINDOW, R250. The 1 ms statistics window ends, updating window values, the slow unsatisfied count
  and the trend. -/
  | statsWindow (ieee : List (LLane × Nat × Nat))
  /-- SUBST_WAIT_TIMEOUT, R264. One millisecond passes in SUBST_WAIT without pairing, so the request is
  withdrawn as unavailable. -/
  | substWaitTimeout
  /-- PLY_DOWN, R272. A populated Ply receiver has been out of LOCKED for 1 s, so PLY_DOWN becomes 1. -/
  | plyDown
  /-- LANE_LOST, R272. A Twist port has been in FAULT 1 s after its lane entered HOLD with the Ply receiver
  unavailable. -/
  | laneLost (n : Fin 8)
  /-- CLAIM, R281. A spindle write of a proposed epoch to GRD_CLAIM is judged by the distaff evaluation. -/
  | claim (m : Master) (e : Word) (also : DistCycle)
  /-- RELEASE, R281. The holder writes RELEASE with the key to GRD_DISTAFF_CTRL and gives up the distaff. -/
  | release (m : Master) (v : Word) (also : DistCycle)
  /-- HANDOVER, R281. The holder writes HANDOVER, passing the distaff to a ready standby with EPOCH + 1, or is
  refused. -/
  | handover (m : Master) (v : Word) (also : DistCycle)
  /-- FENCE_CLEAR, R282. A spindle writes 1 to its own FENCED bit, which clears at the end of that cycle. -/
  | fenceClear (m : Master) (v : Word) (also : DistCycle)
  /-- SPINDLE_RESTART, R302. The holder writes RESTART_A or RESTART_B with the key, which resets the other
  spindle's domain and reboots it. -/
  | spindleRestart (m : Master) (v : Word)
  /-- SPINDLE_SYNC_DONE, R277. A spindle finishes synchronising from the config shadow and journal and becomes
  STANDBY. -/
  | spindleSyncDone (x : Spindle)
  /-- SPINDLE_DOWN, R280. A spindle has not reached STANDBY or HOLDER within 1 s, or the standby's domain leaves
  ON. -/
  | spindleDown (x : Spindle)
  /-- HOLDERLESS_CLAIM, R283. HOLDER has read none for 2 ms, so Krelin on a spindle claims with EPOCH + 1. -/
  | holderlessClaim (a b : Bool)
  /-- TAKEOVER, R286. A new holder abandons EXECUTING slots and serves waiting slots in doorbell order. -/
  | takeover
  /-- MBX_OPEN, R287. The new holder opens the mailbox within 0.5 ms and releases held Fleyth requests. -/
  | mbxOpen
  /-- PROBATION_END, R291. The 1 s probation after a hitless update ends, and the old spindle is restarted into
  the new image. -/
  | probationEnd
  /-- DOORBELL, R294. A write of a slot index to MBX_DOORBELL posts a FREE slot and fixes its privilege. -/
  | doorbell (m : Master) (v : Word)
  /-- SLOT_WRITE, R293. A host write to a request slot takes effect only while the slot is FREE, and is
  otherwise counted. -/
  | slotWrite (m : Master) (k : Fin 16) (w : Fin 64) (v : Word)
  /-- SLOT_FREE, R296. A write to MBX_SLOT_FREE returns DONE slots to FREE, and counts bits for other slots. -/
  | slotFree (m : Master) (v : Word)
  /-- HELD_COMPLETION_POST, R295. The ring gets room, and a completion held while it was full is posted. -/
  | heldCompletionPost
  /-- MODERATION_TIMEOUT, R298. TIME µs pass since the oldest pending completion, so one EVS_MBX_CPL covers all
  pending completions. -/
  | moderationTimeout
  /-- HOST_SLEEP, R299. A write to MBX_HOST_SLEEP signals every pending completion, or restores moderation. -/
  | hostSleep (m : Master) (v : Word)
  /-- SYS_INFO, R305. Returns identification, Krelin level, lifecycle state, holder and unit identity. -/
  | sysInfo (src : CmdSrc)
  /-- SYS_ECHO, R305. Returns the request payload unchanged. -/
  | sysEcho (src : CmdSrc)
  /-- SYS_TIME, R336. Returns the event timestamp. -/
  | sysTime (src : CmdSrc)
  /-- SYS_CFG_SAVE, R312. Writes the config shadow copy to the flash slot that was not written last. -/
  | sysCfgSave (src : CmdSrc)
  /-- ADD_PORT, R313. Checks a lane map, powers and locks the port's lanes by restore or retrain, and leaves the
  port READY. -/
  | addPort (src : CmdSrc) (openLegs : BitVec 16)
  /-- REMOVE_PORT, R67. Stops the port, frees its lanes and powers down lanes left unused. -/
  | removePort (src : CmdSrc)
  /-- ENABLE_PORT, R67. Moves a READY port to UP, or to UP when its fault clears. -/
  | enablePort (src : CmdSrc)
  /-- DISABLE_PORT, R314. Moves an UP port to READY with its lanes kept locked. -/
  | disablePort (src : CmdSrc)
  /-- GET_PORT_MAP, R68. Returns TWF_PORT_MAP of all 16 ports. -/
  | getPortMap (src : CmdSrc)
  /-- HOST_TRAIN_CFG, R72. Sets a quad's training mode, starting preset and Twist-H pattern, effective at the
  next training. -/
  | hostTrainCfg (src : CmdSrc)
  /-- HOST_RETRAIN, R315. Restarts training on one host lane and completes at hand-off or after 2 s with
  TIMEOUT. -/
  | hostRetrain (src : CmdSrc) (openLegs : BitVec 16)
  /-- HOST_LANE_STATUS, R106. Returns the status, training status and transmit coefficients of one host lane. -/
  | hostLaneStatus (src : CmdSrc)
  /-- HOST_TX_SET, R73. Sets the transmit coefficients or a preset of a FIXED host lane, all six together. -/
  | hostTxSet (src : CmdSrc)
  /-- LINE_RX_STATUS, R139. Returns the receiver status registers of one line lane. -/
  | lineRxStatus (src : CmdSrc)
  /-- LINE_RX_CFG, R126. Sets the thresholds, clock recovery bandwidth and Volterra limit of one line lane. -/
  | lineRxCfg (src : CmdSrc)
  /-- LINE_RETRAIN, R138. Discards a lane's live state and retrains it, completing at LOCKED or with TIMEOUT. -/
  | lineRetrain (src : CmdSrc)
  /-- LINE_CAPTURE, R137. Copies a receiver tap into capture memory, at once or at the lane's next HOLD. -/
  | lineCapture (src : CmdSrc)
  /-- CAPTURE_END, R316. A running capture completes, or its trigger wait passes without HOLD and it ends with
  TIMEOUT. -/
  | captureEnd (n : LLane) (data : TapData)
  /-- LINE_TX_STATUS, R168. Returns the transmitter status, taps, table status and tap-channel state of one
  lane. -/
  | lineTxStatus (src : CmdSrc)
  /-- LINE_TX_CFG, R317. Writes LTX_TX_CFG of one lane and optionally applies its start preset. -/
  | lineTxCfg (src : CmdSrc)
  /-- LINE_TX_TABLE, R153. Loads 256 entries into the shadow copy of the tension table and swaps at the next
  boundary. -/
  | lineTxTable (src : CmdSrc)
  /-- HANK_POLICY, R190. Writes HNK_CFG, or HNK_LANE_CFG of one lane. -/
  | hankPolicy (src : CmdSrc)
  /-- HANK_STATUS, R191. Returns the hank store status and one lane's hank status. -/
  | hankStatus (src : CmdSrc)
  /-- HANK_READ, R174. Copies one slot consistently into capture memory. -/
  | hankRead (src : CmdSrc)
  /-- HANK_WRITE, R318. Checks a hank in capture memory and writes it into a newly taken slot, optionally pinned
  KEEP. -/
  | hankWrite (src : CmdSrc)
  /-- HANK_PIN, R318. Sets a KEEP pin on a slot within the lane's KEEP_MAX. -/
  | hankPin (src : CmdSrc)
  /-- HANK_UNPIN, R175. Releases a slot's KEEP pin. -/
  | hankUnpin (src : CmdSrc)
  /-- HANK_LOAD, R189. Pages a named slot into its lane after checking the slot and the lane's port. -/
  | hankLoad (src : CmdSrc)
  /-- HANK_FLUSH, R175. Releases every pin of one lane and frees all its slots. -/
  | hankFlush (src : CmdSrc)
  /-- CREEL_CFG, R243. Writes the float and slub configuration, or sets the decode deadline of one READY port.
  -/
  | creelCfg (src : CmdSrc)
  /-- CREEL_STATUS, R254. Returns the creel status, retired bobbins and buffer status. -/
  | creelStatus (src : CmdSrc)
  /-- CREEL_STATS, R252. Returns one line lane's statistics and histogram, optionally clearing them. -/
  | creelStats (src : CmdSrc)
  /-- CREEL_RS_STATS, R319. Returns one port's RS counts, optionally clearing them. -/
  | creelRsStats (src : CmdSrc)
  /-- PLY_CFG, R274. Writes TWF_PLY_CFG and TWF_PLY_THR. -/
  | plyCfg (src : CmdSrc)
  /-- PLY_STATUS, R273. Returns Ply status, failed lanes, counts, risks and fray registers, optionally clearing
  the counts. -/
  | plyStatus (src : CmdSrc)
  /-- PLY_MIRROR, R273. Pins the mirror to one lane or returns it to automatic choice. -/
  | plyMirror (src : CmdSrc)
  /-- PLY_SUBST, R273. Mirrors a lane, waits for pairing and then commits a planned hitless substitution. -/
  | plySubst (src : CmdSrc)
  /-- PWR_SET, R321. Makes one group request of the domains in a mask towards OFF, RET or ON. -/
  | pwrSet (src : CmdSrc)
  /-- PWR_STATUS, R431. Returns the power state of every domain. -/
  | pwrStatus (src : CmdSrc)
  /-- LOW_POWER, R322. Writes the config shadow copy and completes, after which the part runs the doff test and
  enters module low power. -/
  | lowPower (src : CmdSrc)
  /-- TEL_TEMP, R305. Returns the sensor readings, the broken-sensor mask and the throttle level. -/
  | telTemp (src : CmdSrc)
  /-- TEL_PORT, R305. Returns a port's map, worst BER, uncorrectable count and lane lock and GOOD masks. -/
  | telPort (src : CmdSrc)
  /-- FLY_DISCOVER, R361. Starts a discovery epoch, clears the network and assigns addresses breadth first. -/
  | flyDiscover (src : CmdSrc)
  /-- FLY_REQUEST, R365. Sends a REQUEST to a worker and completes with its RESPONSE or a timeout. -/
  | flyRequest (src : CmdSrc)
  /-- FLY_CFG, R370. Writes the sideband and in-band Fleyth port enables. -/
  | flyCfg (src : CmdSrc)
  /-- FLY_NODES, R364. Writes the discovered node table into capture memory. -/
  | flyNodes (src : CmdSrc)
  /-- SEC_CHALLENGE, R324. Issues a 16-byte nonce for the host session, replacing any earlier one. -/
  | secChallenge (src : CmdSrc)
  /-- SEC_AUTH, R461. Checks an HMAC over the nonce and raises the session to OWNER, or counts a failure. -/
  | secAuth (src : CmdSrc)
  /-- SEC_LOGOUT, R324. Returns the host session to its base level. -/
  | secLogout (src : CmdSrc)
  /-- GUARD_SET, R467. Writes one guard table entry atomically, effective from the next CLK_PER edge. -/
  | guardSet (src : CmdSrc)
  /-- GUARD_GET, R463. Returns one guard table entry. -/
  | guardGet (src : CmdSrc)
  /-- LIFECYCLE_ADVANCE, R469. Programs OTP to move the lifecycle state one step on under its preconditions. -/
  | lifecycleAdvance (src : CmdSrc) (lasting : Bool)
  /-- RETURNED_RESET, R470. After entry to RETURNED, Krelin erases the shadow, invalidates the guard table and
  issues a chip reset. -/
  | returnedReset
  /-- OWNER_KEY_SET, R324. Programs the owner key into OTP in PROBE. -/
  | ownerKeySet (src : CmdSrc) (lasting : Bool)
  /-- FW_IMAGE_BEGIN, R326. Begins an image transfer into the slot that is not running, erasing it. -/
  | fwImageBegin (src : CmdSrc)
  /-- FW_IMAGE_DATA, R326. Writes the next bytes of an image transfer at the expected offset. -/
  | fwImageData (src : CmdSrc)
  /-- FW_IMAGE_END, R472. Checks the transferred image's header and signature and gives it a sequence number, or
  boots it. -/
  | fwImageEnd (src : CmdSrc) (sigOk : Bool)
  /-- FW_ACTIVATE, R289. Moves control onto a newly written image by restarting the standby and handing over. -/
  | fwActivate (src : CmdSrc)
  /-- FW_STATUS, R305. Returns spindle status, the sequence numbers of both images and the transfer progress. -/
  | fwStatus (src : CmdSrc)
  /-- DOFF_RUN, R327. Runs one doff test on a target and returns its outcome. -/
  | doffRun (src : CmdSrc) (result : Option (BitVec 32 × BitVec 8))
  /-- DOFF_RECORD, R478. Copies one doff record slot into capture memory and reports its completeness. -/
  | doffRecord (src : CmdSrc)
  /-- TEST_LANE, R328. Claims a lane for pattern testing, powering its domain, or releases it. -/
  | testLane (src : CmdSrc)
  /-- HK_READ, R305. Returns the latest combed output of all 22 converter channels. -/
  | hkRead (src : CmdSrc)
  /-- HK_ALARM_CFG, R329. Sets and enables a firmware-watched alarm on one converter channel. -/
  | hkAlarmCfg (src : CmdSrc)
  /-- EVENT_MESSAGE, R330. A source sends a message to EVT, which writes a record or sets pending for each
  consumer. -/
  | eventMessage (ms : List (Fin 512 × BitVec 48))
  /-- EVT_DOORBELL, R331. A write to EVT_DOORBELL sends a message of a software source, or is counted as an
  error. -/
  | evtDoorbell (m : Master) (v : Word)
  /-- EVT_CLAIM, R341. A consumer's read of EVT_CLAIM takes the oldest waiting record above the current level.
  -/
  | evtClaim (m : Master) (c : Fin 3)
  /-- EVT_EOI, R342. A write of a priority to EVT_EOI frees its held record and removes the level from the in-
  service set. -/
  | evtEoi (m : Master) (c : Fin 3) (v : Word)
  /-- EVT_MASK_CLR, R333. Clearing a mask bit while the source is pending writes a coalesced record. -/
  | evtMaskClr (m : Master) (c : Fin 3) (w : Fin 16) (v : Word)
  /-- EVT_PEND_SET, R333. Setting a pending bit of an unmasked source writes a coalesced record. -/
  | evtPendSet (m : Master) (c : Fin 3) (w : Fin 16) (v : Word)
  /-- EVT_ARM_SET, R332. Setting an arm bit while the level is asserted sends a message in the next cycle. -/
  | evtArmSet (m : Master) (c : Fin 3) (w : Fin 16) (v : Word)
  /-- EVT_TIME_LO, R336. A read of EVT_TIME_LO latches the upper 16 timestamp bits into EVT_TIME_HI. -/
  | evtTimeLo (m : Master)
  /-- FLY_MESSAGE, R358. A Fleyth message is received whole and is checked, delivered locally or forwarded by
  range. -/
  | flyMessage (a : FlyArrival)
  /-- REQUEST_EXPIRY, R366. A queued request is still unexecuted after its timeout and is discarded without a
  RESPONSE. -/
  | requestExpiry (k : Fin 8)
  /-- DISCOVERY_TIMEOUT, R361. A probe or assignment of discovery waits past its per-hop timeout without an
  answer. -/
  | discoveryTimeout
  /-- KEEPALIVE, R353. A sideband port that has sent nothing for 50 µs sends four K28.5. -/
  | keepalive (p : Fin 2)
  /-- LINK_DOWN, R353. No valid character arrives for 500 µs, so the sideband link goes down. -/
  | linkDown (p : Fin 2)
  /-- NOTIFY, R367. A worker whose port link changes state sends a NOTIFY that raises EVS_FLY_NOTIFY at the
  manager. -/
  | notify
  /-- WAKE_ACTIVITY, R368. An address match, sideband activity or line activity seen while the Whorl is stopped
  wakes the part. -/
  | wakeActivity (w : WakeSource)
  /-- BUCKET_LEAK, R377. Every LEAK milliseconds a bucket level falls by 1. -/
  | bucketLeak (b : Fin 3)
  /-- SCRUB_STEP, R380. Every INTERVAL cycles the scrubber reads the next valid granule of a strong-coded
  memory. -/
  | scrubStep
  /-- LOG_FREE, R376. A write to ECC_LOG_FREE frees address log entries. -/
  | logFree (m : Master) (v : Word)
  /-- COMMIT, R381. A write of COMMIT in the checker test mode writes a granule with masked data and check bits.
  -/
  | commit (m : Master) (v : Word)
  /-- RAW_READ, R381. A write of RAW_READ returns a granule's stored bits uncorrected into the test registers.
  -/
  | rawRead (m : Master) (v : Word)
  /-- START, R388. A write of START checks a DMA channel's active set and enters WAIT_REQ or BUSY. -/
  | start (m : Master) (n : Fin 16) (v : Word)
  /-- ABORT, R394. A write of ABORT stops a DMA channel at the next beat boundary with ERROR ABORTED. -/
  | abort (m : Master) (n : Fin 16) (v : Word)
  /-- DMA_REQUEST, R390. A request line asserts and each channel on it holds one request, merging or flagging
  overruns. -/
  | dmaRequest (line : Fin 48)
  /-- DMA_SWREQ, R389. A write to DMA_SWREQ asserts software request lines for one cycle. -/
  | dmaSwreq (m : Master) (v : Word)
  /-- DMA_BEAT, R391. At each beat the highest-priority channel with work reads or writes one granule. -/
  | dmaBeat
  /-- CONVERSION_DONE, R406. A 55-cycle conversion completes and its code joins the current entry's sum. -/
  | conversionDone (sample : Int)
  /-- HKA_SWTRIG, R409. A write to HKA_SWTRIG triggers a run of the scan or urgent list. -/
  | hkaSwtrig (m : Master) (v : Word)
  /-- LIST_TIMER, R409. The list timer expires and triggers the lists that select it. -/
  | listTimer
  /-- HK_TRIG_EDGE, R409. An edge on HK_TRIG passes the glitch filter and triggers the lists that select it. -/
  | hkTrigEdge (rising : Bool)
  /-- TRIGGER_DELAY_END, R410. A list's trigger delay ends and its run takes the converter, pre-empting a scan
  run if urgent. -/
  | triggerDelayEnd (scan urg : Bool) (left : Fin 56)
  /-- CONVERTER_DISABLE, R411. Clearing HKA_CTRL.EN stops both lists and cancels their delays. -/
  | converterDisable (m : Master) (v : Word)
  /-- PWM_PERIOD_START, R413. A PWM counter wraps to 0, applying pending PERIOD and DUTY and raising the period
  start event. -/
  | pwmPeriodStart (k : Fin 4)
  /-- PWM_COMPARE, R413. A PWM counter reaches DUTY and raises the compare event. -/
  | pwmCompare (k : Fin 4)
  /-- PWM_ENABLE, R414. A write of EN from 0 to 1 starts the PWM counter at 0 in the next cycle. -/
  | pwmEnable (m : Master) (k : Fin 4) (v : Word)
  /-- FILTER_INPUT, R418. A filter channel receives an input, updates its carded output and writes a combed
  output every D inputs. -/
  | filterInput (f : Fin 31) (x : BitVec 16)
  /-- FLT_RESTART, R421. A write to FLT_RESTART restarts the carded output of the named channels. -/
  | fltRestart (m : Master) (v : Word)
  /-- FLT_CFG_WRITE, R421. A write to FLT_CFG makes a full restart of the filter channel. -/
  | fltCfgWrite (m : Master) (f : Fin 31) (v : Word)
  /-- GROUP_REQUEST, R429. A write to PMU_GRP_REQ starts a group request that quiesces, votes and commits or
  rolls back. -/
  | groupRequest (m : Master) (v : Word)
  /-- QUIESCE_VOTE, R429. A quiesced domain votes, and no vote within 1 ms counts as no. -/
  | quiesceVote (inTime : Bool)
  /-- LADDER_RUNG, R428. All domains of a waking group reach the next rung of the wake ladder together. -/
  | ladderRung (bad : List (Fin 22 × Fin 2))
  /-- LADDER_COMPLETE, R433. The logic rung releases the group, with retention checked or the domain started
  cold. -/
  | ladderComplete (bad : List (Fin 22 × Fin 2))
  /-- LOW_POWER_ENTER, R435. The holder writes ENTER with the key to PMU_LP_CTRL, so every domain but PD_AON
  turns off and the Whorl stops. -/
  | lowPowerEnter (m : Master) (v : Word)
  /-- SHUTDOWN_LIST, R476. On entry to module low power the doff engine runs the shutdown list and writes the
  record. -/
  | shutdownList (found : List DoffEntry)
  /-- WAKE_REQ, R436. A write to PMU_WAKE_REQ with the key wakes the part from module low power. -/
  | wakeReq (m : Master) (v : Word)
  /-- LP_WAKE, R436. A wake cause in module low power runs start-up steps 2 to 13 with the shadow kept. -/
  | lpWake
  /-- THERMAL_SAMPLE, R441. THM samples every sensor, judges broken sensors, and computes region levels, WARN
  and the trip. -/
  | thermalSample (v : Vector (Option Int) 14)
  /-- FREEZE, R451. A write of FREEZE latches every counter into its shadow on the next edge. -/
  | freeze (m : Master) (v : Word)
  /-- FREEZE_RELEASE, R452. A write of RELEASE ends the freeze so reads return live counts. -/
  | freezeRelease (m : Master) (v : Word)
  /-- CNT_LO, R448. A read of CNT_LO returns the low bits, latches the high bits and clears the count. -/
  | cntLo (m : Master) (k : Fin 256)
  /-- CNT_SEL_WRITE, R448. A write to CNT_SEL selects a counter's source and clears its count. -/
  | cntSelWrite (m : Master) (k : Fin 256) (v : Word)
  /-- BW_WINDOW, R449. The meter window ends, so each meter writes its count and peak and DMA line 32 asserts.
  -/
  | bwWindow (rx tx : List Nat)
  /-- BW_CFG_WRITE, R449. A write to CNT_BW_CFG restarts every meter window and discards the partial window. -/
  | bwCfgWrite (m : Master) (v : Word)
  /-- HLN_PAT_BITS_LO, R109. A read of the bit count latches its high bits and clears the whole count. -/
  | hlnPatBitsLo (m : Master) (l : AnyLane)
  /-- PATTERN_GENERATOR_ENABLE, R18. A write of a generator's enable starts the pattern only on a lane that
  carries no active port. -/
  | patternGeneratorEnable (m : Master) (l : AnyLane) (v : Word)
  /-- ERR_INJ, R109. A write of ERR_INJ inverts one bit of the next symbol sent. -/
  | errInj (m : Master) (l : AnyLane) (v : Word)
  /-- LOCKOUT_END, R461. The 10 s authentication lockout expires and SEC_CHALLENGE is served again. -/
  | lockoutEnd
  /-- NONCE_EXPIRY, R324. A nonce expires 10 s after it was issued. -/
  | nonceExpiry
  /-- I3C_CCC, R498. A supported I3C common command code is received and executed, and others are NACKed. -/
  | i3cCcc (c : Ccc)
  /-- REGISTER_WRITE, R19. A management write to a register with no row of its own is checked in order and then
  applied. -/
  | registerWrite (m : Master) (i3c : Bool) (a : BitVec 24) (width : Nat) (v : Word) (also : List BusAccess)
  /-- BLIND_ADAPTATION_DONE, R121. Blind multi-modulus adaptation of the FFE completes and the receiver leaves
  ACQUIRE for CONVERGE with decision-directed adaptation. -/
  | blindAdaptationDone (n : LLane)
  /-- ADAPTATION_WINDOW, R123. A window of 2^16 line symbols ends, updating the frequency estimate behind
  CDR_LOCK and the amplifier, MLSE target and noise predictor loops. -/
  | adaptationWindow (n : LLane) (a : AdaptIn)
  /-- KEEPALIVE_RECEIVED, R353. A sideband port receives a keepalive of K28.5 characters, which counts towards
  bringing the link up and keeps it from going down. -/
  | keepaliveReceived (p : Fin 2)
  /-- SIDEBAND_TRANSMISSION, R352. After the pair has been idle for two character times, a sideband port with a
  queued message sends preamble, SOM, the message and EOM, yielding and retrying on port 0 after a collision. -/
  | sidebandTransmission (p : Fin 2) (collision : Bool)
  /-- COMMAND_TIME_LIMIT, R308. The time limit of an executing command runs out (ADD_PORT host hand-off 2 s,
  HOST_RETRAIN 2 s, LINE_RETRAIN 5 s in SIGNAL_WAIT, PLY_SUBST 100 ms, FW_ACTIVATE 5 s wait or 500 ms standby,
  FLY_REQUEST timeout), and the command completes with TIMEOUT or BUSY. -/
  | commandTimeLimit (o : Overdue)
  /-- CORE_SUPPLY_GOOD, R32. VDD_CORE returns above its monitor threshold after a core supply loss, and the
  start resumes at start-up step 2. -/
  | coreSupplyGood
  /-- VDDIO_LOSS, R46. VDDIO falls below its monitor threshold, and the management interfaces are isolated, with
  IO_OK and EVS_SUPPLY_LOW reflecting it. -/
  | vddioLoss
  /-- VDDIO_RESTORED, R46. VDDIO is good again, and the management interfaces return to service. -/
  | vddioRestored (v33 : Bool)
  /-- READ_TO_CLEAR, R8. A management read of an RC register (such as MBX_ERR, EVT_ERR, HLN_PAT_ERR, HKA result
  NEW, FLT_COMBED NEW or CNT_BW_PEAK) returns the value and clears it, subject to freeze, guard grants and the
  same-cycle order of R8 and R14. -/
  | readToClear (m : Master) (i3c : Bool) (a : BitVec 24) (width : Nat) (also : List BusAccess)
  deriving DecidableEq, Repr

end Sys2Proof
end

