-- ==== Sys2Proof/Decode.lean ====
section
/-! DEFINITION. The words of the opcode table. No row of spec/opcode_table.json gives bits (every row's `fields` is empty), so no
word spells a command: commands come with their operands, not as words. -/

namespace Sys2Proof

/-- The command that a word of the table spells: none, for no row of the table has an encoding. Log 2 (DESIGN CHOICE). -/
def decodeTableWord (_nbits _w : Nat) : Option Instr := none

end Sys2Proof
end

