-- ==== Sys2Proof/Machine/Bits.lean ====
section
/-! DEFINITION. Shared plain arithmetic: sparse tables in canonical form, bit fields of words, saturating
counts, signed values, and the byte order of words (spec/00 "Numbers and units", "Registers"). -/

namespace Sys2Proof.Machine

/-! ### Sparse tables. A table lists (key, value) pairs; what an unlisted key reads as is the default `d`. -/

/-- The value at key `k` of a sparse table whose unlisted keys read as `d k`. -/
def tabGet {α : Type} (d : Nat → α) : List (Nat × α) → Nat → α
  | [], k => d k
  | (k', v) :: t, k => if k' = k then v else tabGet d t k

/-- The table without key `k`. -/
def tabErase {α : Type} (t : List (Nat × α)) (k : Nat) : List (Nat × α) :=
  t.filter (fun p => p.1 != k)

/-- The table with `(k, v)` put in before the first larger key. -/
def tabIns {α : Type} (k : Nat) (v : α) : List (Nat × α) → List (Nat × α)
  | [] => [(k, v)]
  | (k', v') :: t => if k < k' then (k, v) :: (k', v') :: t else (k', v') :: tabIns k v t

/-- The table with key `k` holding `v`; a value equal to the default is not listed. -/
def tabSet {α : Type} [DecidableEq α] (d : Nat → α) (t : List (Nat × α)) (k : Nat) (v : α) :
    List (Nat × α) :=
  if v = d k then tabErase t k else tabIns k v (tabErase t k)

/-- Keys strictly rising from above `lo`, and no listed value equal to the default. -/
def tabWfFrom {α : Type} [DecidableEq α] (d : Nat → α) : Option Nat → List (Nat × α) → Bool
  | _, [] => true
  | lo, (k, v) :: t =>
    (match lo with
     | none => true
     | some l => decide (l < k)) && decide (v ≠ d k) && tabWfFrom d (some k) t

/-- The canonical form of a sparse table. -/
def tabWf {α : Type} [DecidableEq α] (d : Nat → α) (t : List (Nat × α)) : Bool := tabWfFrom d none t

/-! ### Bit fields of words -/

/-- Bits [lo + w - 1 : lo] of a word, as a number. -/
def getBits (x : Word) (lo w : Nat) : Nat := (x.toNat >>> lo) % 2 ^ w

/-- The word whose bits [lo + w - 1 : lo] are all 1. -/
def bitMask (lo w : Nat) : Word := BitVec.ofNat 32 (2 ^ w - 1) <<< lo

/-- The word `x` with bits [lo + w - 1 : lo] replaced by `v` (its low `w` bits). -/
def setBits (x : Word) (lo w v : Nat) : Word :=
  (x &&& ~~~ (bitMask lo w)) ||| (BitVec.ofNat 32 (v % 2 ^ w) <<< lo)

/-- Bit `i` of a number. -/
def bit (x i : Nat) : Bool := x.testBit i

/-- Bits [lo + w - 1 : lo] of a number. -/
def bitsOf (x lo w : Nat) : Nat := (x >>> lo) % 2 ^ w

/-- A Bool as a bit. -/
def b2n (b : Bool) : Nat := if b then 1 else 0

/-- The number whose bit `i` is 1 where `p i`, over `i < n`. -/
def maskOf (n : Nat) (p : Nat → Bool) : Nat :=
  (List.range n).foldl (fun acc i => if p i then acc + 2 ^ i else acc) 0

/-- The positions below `n` at which `m` has a 1 bit, rising. -/
def bitsSet (n m : Nat) : List Nat := (List.range n).filter (fun i => m.testBit i)

/-- A number with bit `i` set. -/
def setBitN (x i : Nat) : Nat := x ||| 2 ^ i

/-- A number with bit `i` clear. -/
def clrBitN (x i : Nat) : Nat := if x.testBit i then x - 2 ^ i else x

/-- The number of 1 bits among the low `n`. -/
def popCount (n m : Nat) : Nat := (bitsSet n m).length

/-! ### Numbers -/

/-- Counting up to a largest value where the count stays. -/
def satAdd (limit x y : Nat) : Nat := min limit (x + y)

/-- The two's complement reading of the low `w` bits. -/
def signedOf (w x : Nat) : Int :=
  let y := x % 2 ^ w
  if 2 * y < 2 ^ w then (y : Int) else (y : Int) - (2 ^ w : Nat)

/-- The low `w` bits of a number in two's complement. -/
def unsignedOf (w : Nat) (x : Int) : Nat := (x % ((2 ^ w : Nat) : Int)).toNat

/-- A number held between two limits. -/
def clampInt (lo hi x : Int) : Int := if x < lo then lo else if hi < x then hi else x

/-- A number held between two limits. -/
def clampNat (lo hi x : Nat) : Nat := if x < lo then lo else if hi < x then hi else x

/-! ### Bytes, least significant first (spec/13 R335, spec/11 R303: multi-byte fields are little-endian) -/

/-- The `n` bytes of a number, least significant first. -/
def leBytes (n x : Nat) : List Byte :=
  (List.range n).map (fun i => BitVec.ofNat 8 (x >>> (8 * i)))

/-- The number that bytes spell, least significant first. -/
def leNat : List Byte → Nat
  | [] => 0
  | b :: t => b.toNat + 256 * leNat t

/-! ### Lists -/

/-- The list with position `i` holding `v` (unchanged beyond its end). -/
def listSet {α : Type} (l : List α) (i : Nat) (v : α) : List α := l.set i v

/-- The key with the smallest measure, the first where several have it. -/
def argMin {α : Type} (f : α → Nat) : List α → Option α
  | [] => none
  | a :: t =>
    match argMin f t with
    | none => some a
    | some b => if f b < f a then some b else some a

/-- The key with the largest measure, the first where several have it. -/
def argMax {α : Type} (f : α → Nat) : List α → Option α
  | [] => none
  | a :: t =>
    match argMax f t with
    | none => some a
    | some b => if f a < f b then some b else some a

/-! ### Vectors -/

/-- A vector with position `i` changed by `f`. -/
def vmod {α : Type} {n : Nat} (v : Vector α n) (i : Fin n) (f : α → α) : Vector α n :=
  v.set i.1 (f v[i.1]) i.2

end Sys2Proof.Machine
end

