-- ==== Sys2Proof/Machine/Codes.lean ====
section
/-! DEFINITION. The check codes and hashes that the rules of spec/ use: CRC-32 (R173), CRC-16 and CRC-8 over bit
strings, and HMAC-SHA-256 (R461). -/

namespace Sys2Proof.Machine

/-! ### CRC-32 of R173 -/

/-- One bit of the reflected CRC-32. -/
def crc32Bit (c : Nat) : Nat := if c % 2 = 1 then (c / 2) ^^^ 0xEDB88320 else c / 2

/-- One byte into the CRC-32, least significant bit first. -/
def crc32Byte (c : Nat) (b : Byte) : Nat :=
  crc32Bit (crc32Bit (crc32Bit (crc32Bit (crc32Bit (crc32Bit (crc32Bit (crc32Bit (c ^^^ b.toNat))))))))

/-- The CRC-32 of R173. -/
def crc32 (l : List Byte) : Nat := (l.foldl crc32Byte 0xFFFFFFFF) ^^^ 0xFFFFFFFF

/-! ### CRCs over bits, most significant bit first -/

/-- A CRC of width `w` and polynomial `poly` over bits, from `init`. -/
def crcBits (w poly init : Nat) (l : List Bool) : Nat :=
  l.foldl (fun c b => if c.testBit (w - 1) != b then ((c * 2) % 2 ^ w) ^^^ poly else (c * 2) % 2 ^ w) init

/-- The low `n` bits of a number, most significant first. -/
def msbBits (n x : Nat) : List Bool := (List.range n).map (fun i => x.testBit (n - 1 - i))

/-- The number that bits spell, most significant first. -/
def ofMsb (l : List Bool) : Nat := l.foldl (fun acc b => 2 * acc + b2n b) 0

/-! ### SHA-256 -/

/-- The largest number below `2 ^ bits` whose `k`-th power is at most `n`, found bit by bit from the top. -/
def rootBelow (k n : Nat) : Nat → Nat → Nat
  | 0, r => r
  | bits + 1, r => rootBelow k n bits (if (r + 2 ^ bits) ^ k ≤ n then r + 2 ^ bits else r)

/-- The first 32 bits of the fraction of the `k`-th root of `p`. -/
def rootFraction (k p : Nat) : Nat := rootBelow k (p <<< (32 * k)) 37 0 % 2 ^ 32

/-- The primes below `n`. -/
def primesBelow (n : Nat) : List Nat :=
  (List.range n).filter (fun p => decide (2 ≤ p) && (List.range p).all (fun d => decide (d < 2) || decide (p % d ≠ 0)))

/-- The round constants of SHA-256, which it takes from the cube roots of the first 64 primes. -/
def shaK : List Nat := (primesBelow 312).map (rootFraction 3)

/-- The initial hash value of SHA-256, from the square roots of the first 8 primes. -/
def shaH0 : List Nat := (primesBelow 20).map (rootFraction 2)

/-- A 32-bit number rotated right. -/
def rotr32 (x n : Nat) : Nat := (x >>> n) ||| ((x <<< (32 - n)) % 2 ^ 32)

/-- The big-endian number that bytes spell. -/
def beNat (l : List Byte) : Nat := l.foldl (fun acc b => 256 * acc + b.toNat) 0

/-- The `n` bytes of a number, most significant first. -/
def beBytes (n x : Nat) : List Byte := (leBytes n x).reverse

/-- The message schedule, extended by one word; the newest word first. -/
def shaExtend (w : List Nat) : List Nat :=
  let x := fun i => w.getD i 0
  let s0 := rotr32 (x 14) 7 ^^^ rotr32 (x 14) 18 ^^^ (x 14 >>> 3)
  let s1 := rotr32 (x 1) 17 ^^^ rotr32 (x 1) 19 ^^^ (x 1 >>> 10)
  ((x 15 + s0 + x 6 + s1) % 2 ^ 32) :: w

/-- The 64 words of the message schedule of a 64-byte block, oldest first. -/
def shaSchedule (blk : List Byte) : List Nat :=
  let w0 := (List.range 16).map (fun i => beNat ((blk.drop (4 * i)).take 4))
  ((List.range 48).foldl (fun w _ => shaExtend w) w0.reverse).reverse

/-- One round of SHA-256 over the eight working variables. -/
def shaRound (v : List Nat) (kw : Nat × Nat) : List Nat :=
  let g := fun i => v.getD i 0
  let s1 := rotr32 (g 4) 6 ^^^ rotr32 (g 4) 11 ^^^ rotr32 (g 4) 25
  let ch := (g 4 &&& g 5) ^^^ ((g 4 ^^^ 0xFFFFFFFF) &&& g 6)
  let t1 := g 7 + s1 + ch + kw.1 + kw.2
  let s0 := rotr32 (g 0) 2 ^^^ rotr32 (g 0) 13 ^^^ rotr32 (g 0) 22
  let mj := (g 0 &&& g 1) ^^^ (g 0 &&& g 2) ^^^ (g 1 &&& g 2)
  [(t1 + s0 + mj) % 2 ^ 32, g 0, g 1, g 2, (g 3 + t1) % 2 ^ 32, g 4, g 5, g 6]

/-- The hash value after one 64-byte block. -/
def shaBlock (h : List Nat) (blk : List Byte) : List Nat :=
  let v := (shaK.zip (shaSchedule blk)).foldl shaRound h
  (h.zip v).map (fun p => (p.1 + p.2) % 2 ^ 32)

/-- Blocks of 64 bytes, at most `fuel` of them. -/
def shaBlocks : Nat → List Nat → List Byte → List Nat
  | 0, h, _ => h
  | fuel + 1, h, l => if l.isEmpty then h else shaBlocks fuel (shaBlock h (l.take 64)) (l.drop 64)

/-- A message padded to whole blocks. -/
def shaPad (m : List Byte) : List Byte :=
  let z := (55 + 64 - m.length % 64) % 64
  m ++ [0x80#8] ++ List.replicate z 0#8 ++ beBytes 8 (8 * m.length)

/-- SHA-256 of a message. -/
def sha256 (m : List Byte) : List Byte :=
  let p := shaPad m
  (shaBlocks (p.length / 64) shaH0 p).flatMap (beBytes 4)

/-- HMAC-SHA-256 of a message under a key of at most 64 bytes, R461. -/
def hmacSha256 (key m : List Byte) : List Byte :=
  let k := key ++ List.replicate (64 - key.length) 0#8
  sha256 (k.map (· ^^^ 0x5c#8) ++ sha256 (k.map (· ^^^ 0x36#8) ++ m))

end Sys2Proof.Machine
end

