-- ==== Sys2Proof/Config.lean ====
section
/-! DEFINITION. What the specification leaves open: every constant here is a free value. It has no body, so nothing
can be proved about which value it takes, and every claim holds whatever it is (NOTES.md, "Assumptions"). -/

namespace Sys2Proof.Config

/-- What the strong code makes of a row with four or more wrong bits: none where it reports an error that it cannot
correct, else the bits of the row (data [63:0], check [79:64]) that it takes as wrong. R372 states the code's powers
up to three wrong bits and does not give its parity-check matrix. Log 14 (DESIGN CHOICE). -/
opaque strongDecode : Nat → Option Nat

/-- The same for the standard code with three or more wrong bits, R372. Log 14 (DESIGN CHOICE). -/
opaque standardDecode : Nat → Option Nat

/-- The check bits that the strong code computes for 64 data bits (R372, R381): [14:0] BCH, [15] overall parity.
Log 14 (DESIGN CHOICE). -/
opaque strongCheck : Nat → Nat

/-- The check bits that the standard code computes for 64 data bits (R372, R381): [7:0]. Log 14 (DESIGN CHOICE). -/
opaque standardCheck : Nat → Nat

/-- The check bits shown for 64 data bits of a light-coded memory, whose parity R381 lays out in no check register.
Log 14 (DESIGN CHOICE). -/
opaque lightCheck : Nat → Nat

/-- The stored bits (data [63:0], check [79:64]) of a granule that nothing has written since its memory was powered or
cleared (R381 returns them; R374 reads zero without them); by granule key. Log 15 (DESIGN CHOICE). -/
opaque rawUnwritten : Nat → Nat

/-- LAG of an urgent result whose cycle count does not fit the field (R410 counts on for each entry, while the field
`HKA_URG_RES.LAG` holds 12 to 67), by that count. Log 16 (DESIGN CHOICE). -/
opaque lagBeyond : Nat → Nat

/-- The coefficients of the combing filter that R418 leaves open, by MINPH and tap: the symmetry, the gain at DC and the delay of
R419 fix the others. Log 17 (DESIGN CHOICE). -/
opaque firFree : Bool → Nat → Int

/-- The resolution of the combing filter's coefficients, by MINPH: they are multiples of 1 / (2 (it + 1)).
Log 17 (DESIGN CHOICE). -/
opaque firUnit : Bool → Nat

/-- The payload of EVS_HK_ALARM, R329: it holds the channel and the value, in a layout that the specification leaves open.
Log 18 (DESIGN CHOICE). -/
opaque hkAlarmPayload : Nat → Nat → Nat

/-- LOGICAL_LANE and MODE of a hank of L8 taken while L8 carries no lane, which R172 does not give; by draw.
Log 19 (DESIGN CHOICE). -/
opaque idlePlyHank : Nat → Nat × Nat

/-- The generation from which the hanks of a lane and kind count on (key 2 n + kind): R172 gives the first none.
Log 19 (DESIGN CHOICE). -/
opaque firstGen : Nat → Nat

/-- The number of the first sweep that lane n reports (R157 says only how sweep numbers go on).
Log 19 (DESIGN CHOICE). -/
opaque firstSweep : Nat → Nat

/-- Whether a mean that is not a whole number of units is shown rounded up (the sum and the count), R141: the
specification does not say how SNR_AVG is rounded. Log 19 (DESIGN CHOICE). -/
opaque meanUp : Nat → Nat → Bool

/-- Whether a reliability that lies half-way between two integers rounds up (R117 gives no rule).
Log 139 (DESIGN CHOICE). -/
opaque llrUp : Int → Bool

/-- Does the clause of R74 address tap `t` (pre3 to post2 in order) at a rate code? spec/ does not say.
Log 20 (DESIGN CHOICE). -/
opaque ieeeAddresses : Nat → Nat → Bool

/-- The coefficient at which IEEE 802.3 training starts tap `t` at a rate code, R74: the clause's own initial condition, which spec/
does not give. Log 20 (DESIGN CHOICE). -/
opaque ieeeStart : Nat → Nat → Int

/-- By how much COUNT exceeds 3040 (modulo 61), by the RS symbols that wait: R91 and R207 leave to the part how it keeps its buffer
centred. Log 133 (DESIGN CHOICE). -/
opaque countChoice : Nat → Nat

/-- The phase steering of R207 and R220 in 0.01 ppm, before it is held within 300 ppm: the loop is not given; by draw.
Log 133 (DESIGN CHOICE). -/
opaque steering : Nat → Int

/-- Symbol `i` of the local-fault sequence that a codeword carries (R63): IEEE's, by draw. Log 135 (DESIGN CHOICE). -/
opaque localFault : Nat → Nat → Nat

/-- Symbol `i` that goes out for an UP port whose buffer has run dry, by draw. Log 135 (DESIGN CHOICE). -/
opaque dryWord : Nat → Nat → Nat

/-- Symbol `i` (a bit pair) that the concatenated inner FEC with its interleaving and padding makes of an RS codeword on a lane, by fresh
count and lane: R218 has it as IEEE 802.3 defines it and prints none of it. Log 145 (DESIGN CHOICE). -/
opaque ieeeInner : Nat → Nat → List Nat → Nat → Nat

/-- Symbol `k` of SSPRQ as IEEE 802.3 defines it (R109, R454), a Gray bit pair modulo 4; spec/ does not print it.
Log 136 (DESIGN CHOICE). -/
opaque ssprq : Nat → Nat

/-- Which bit of the next symbol ERR_INJ inverts (R109): the most significant one? Log 136 (DESIGN CHOICE). -/
opaque injectMsb : Bool

/-- What a training frame of host lane `h` carries where R82 and R83 give a field no value: TARGET before a LANE_ID has been
heard, TAP beside HOLD or NONE, and SEQ answered before any request. Log 129 (DESIGN CHOICE). -/
opaque hostUnsaid : Nat → Nat × Nat × Nat

/-- CWP of a frame in which no codeword starts, R196: only CWV = 1 gives it a meaning. By lane.
Log 21 (DESIGN CHOICE). -/
opaque cwpIdle : Nat → Nat

/-- LF of a frame whose tributary has no port (R196), and of L8's frames while it carries nothing (R261): by lane.
Log 21 (DESIGN CHOICE). -/
opaque lfEmpty : Nat → Bool

/-- The soft values that one iteration of a bobbin leaves (R228 gives no decoding algorithm): by the values it reads.
Log 22 (DESIGN CHOICE). -/
opaque bobbinPass : List Int → List Int

/-- The granule of the decode buffer that holds a 10-bit unit of a codeword (R244 does not say which slot a codeword gets): by
lane, FN and unit. Log 23 (DESIGN CHOICE). -/
opaque decodeGranule : Nat → Nat → Nat → Nat

/-- The granule of the creel records that holds a codeword's record (R379 gives the records no layout): by lane and FN.
Log 23 (DESIGN CHOICE). -/
opaque recordGranule : Nat → Nat → Nat

/-- The slow unsatisfied count, in units of 1/1024, of a lane that has become active (R250 gives no first value); by draw.
Log 24 (DESIGN CHOICE). -/
opaque slowStart : Nat → Nat

/-- The mean of a statistics window in which nothing arrived or nothing was released (R249, R256); by draw.
Log 24 (DESIGN CHOICE). -/
opaque emptyMean : Nat → Nat

/-- TREND of a lane with fewer than 1000 windows behind it (R250), in 1/16 units; by draw. Log 24 (DESIGN CHOICE). -/
opaque trendEarly : Nat → Int

/-- N_ENTRY of a doff record whose entries have not been written yet (R478 gives the field no value before); by SEQ.
Log 25 (DESIGN CHOICE). -/
opaque doffCount : Nat → Nat

/-- The CRC field of a complete doff record whose CRC is wrong; by SEQ. Log 25 (DESIGN CHOICE). -/
opaque doffWrongCrc : Nat → Nat

/-- Where in the data area of a spindle's memory the boot ROM puts an image's header, in granules (R38 loads it and names no
place). Log 131 (DESIGN CHOICE). -/
opaque headerPlace : Nat

/-- The nonce of SEC_CHALLENGE (R324); by draw. Log 26 (DESIGN CHOICE). -/
opaque nonce : Nat → BitVec 128

/-- RESULT byte 0 of FW_IMAGE_BEGIN in a host-pushed boot, where no flash slot is written (R326); by draw.
Log 27 (DESIGN CHOICE). -/
opaque pushedSlot : Nat → Nat

/-- The header sequence number that FW_STATUS gives for an image slot where no flash is fitted (R305 has no value); by draw.
Log 27 (DESIGN CHOICE). -/
opaque noFlashSeq : Nat → Nat

/-- The failing address and the failing bit in the RESULT of a DOFF_RUN that passed; by draw. Log 27 (DESIGN CHOICE). -/
opaque passAddress : Nat → Nat × Nat

/-- The provisional identifier, bus and device characteristics of the I3C port (R498 names the codes that read them and gives no
value). Log 28 (DESIGN CHOICE). -/
opaque i3cPid : BitVec 48
/-- Log 28 (DESIGN CHOICE). -/
opaque i3cBcr : BitVec 8
/-- Log 28 (DESIGN CHOICE). -/
opaque i3cDcr : BitVec 8

/-- The manufacturer field of the TAP's IDCODE (R499 gives the part number and the version). Log 28 (DESIGN CHOICE). -/
opaque manufacturer : BitVec 11

/-- What GETSTATUS reads of the I3C port (R498 gives no layout); by draw. Log 28 (DESIGN CHOICE). -/
opaque i3cStatus : Nat → BitVec 16

end Sys2Proof.Config
end

