-- ==== Sys2Proof/Machine/RegMap.lean ====
section
/-! DEFINITION. The register map of the CX6408: for every register of the register tables of spec/ (chapters
01 to 21) its management address, and for every field its place, as the tables give them (the events block, the
general counters and the skein memory have their own state: Machine/State.lean). `regDescs` gives each block's
registers with their reset values and the access code of every field, spec/00 "Registers". -/

namespace Sys2Proof.Machine

/-- A field of a register: the register's management address, its lowest bit and its width. -/
structure Fld where
  addr : Nat
  lo : Nat
  w : Nat
  deriving DecidableEq, Repr

/-- The access codes of spec/00 "Registers". -/
inductive Acc where
  | ro | rw | wo | w1c | w1s | rc | fw
  deriving DecidableEq, Repr

/-- One row of a register table: its offset in the block's window, how often it repeats and at which stride,
its reset value, and the place and access code of each field. Bits that no field names are reserved (R6). -/
structure RegDesc where
  off : Nat
  stride : Nat
  count : Nat
  reset : Word
  flds : List (Nat × Nat × Acc)
  deriving DecidableEq, Repr

/-! Registers of spec/01_architecture. -/

def GLB_ID.addr : Nat := 0x0
def GLB_ID.PART : Fld := ⟨GLB_ID.addr, 16, 16⟩
def GLB_ID.FAMILY : Fld := ⟨GLB_ID.addr, 8, 8⟩
def GLB_ID.STEP : Fld := ⟨GLB_ID.addr, 0, 8⟩

/-! Registers of spec/02_clocks_reset_startup. -/

def GLB_RST_STATUS.addr : Nat := 0x4
def GLB_RST_STATUS.WDT_B : Fld := ⟨GLB_RST_STATUS.addr, 6, 1⟩
def GLB_RST_STATUS.WDT_A : Fld := ⟨GLB_RST_STATUS.addr, 5, 1⟩
def GLB_RST_STATUS.WHORL : Fld := ⟨GLB_RST_STATUS.addr, 4, 1⟩
def GLB_RST_STATUS.SUPPLY : Fld := ⟨GLB_RST_STATUS.addr, 3, 1⟩
def GLB_RST_STATUS.SOFT : Fld := ⟨GLB_RST_STATUS.addr, 2, 1⟩
def GLB_RST_STATUS.PIN : Fld := ⟨GLB_RST_STATUS.addr, 1, 1⟩
def GLB_RST_STATUS.POR : Fld := ⟨GLB_RST_STATUS.addr, 0, 1⟩

def GLB_RST_CTRL.addr : Nat := 0x8
def GLB_RST_CTRL.KEY : Fld := ⟨GLB_RST_CTRL.addr, 16, 16⟩
def GLB_RST_CTRL.CHIP : Fld := ⟨GLB_RST_CTRL.addr, 0, 1⟩

def GLB_BOOT_STATUS.addr : Nat := 0xC
def GLB_BOOT_STATUS.NO_CFG : Fld := ⟨GLB_BOOT_STATUS.addr, 14, 1⟩
def GLB_BOOT_STATUS.CFG_SRC : Fld := ⟨GLB_BOOT_STATUS.addr, 13, 1⟩
def GLB_BOOT_STATUS.READY : Fld := ⟨GLB_BOOT_STATUS.addr, 12, 1⟩
def GLB_BOOT_STATUS.FW_READY : Fld := ⟨GLB_BOOT_STATUS.addr, 11, 1⟩
def GLB_BOOT_STATUS.WAIT_HOST : Fld := ⟨GLB_BOOT_STATUS.addr, 10, 1⟩
def GLB_BOOT_STATUS.IMG_B_BAD : Fld := ⟨GLB_BOOT_STATUS.addr, 9, 1⟩
def GLB_BOOT_STATUS.IMG_A_BAD : Fld := ⟨GLB_BOOT_STATUS.addr, 8, 1⟩
def GLB_BOOT_STATUS.CHECK_RUN : Fld := ⟨GLB_BOOT_STATUS.addr, 7, 1⟩
def GLB_BOOT_STATUS.DOFF_VALID : Fld := ⟨GLB_BOOT_STATUS.addr, 6, 1⟩
def GLB_BOOT_STATUS.SRC : Fld := ⟨GLB_BOOT_STATUS.addr, 4, 2⟩
def GLB_BOOT_STATUS.STEP : Fld := ⟨GLB_BOOT_STATUS.addr, 0, 4⟩

def GLB_SUPPLY_STATUS.addr : Nat := 0x10
def GLB_SUPPLY_STATUS.IO_3V3 : Fld := ⟨GLB_SUPPLY_STATUS.addr, 5, 1⟩
def GLB_SUPPLY_STATUS.IO_OK : Fld := ⟨GLB_SUPPLY_STATUS.addr, 4, 1⟩
def GLB_SUPPLY_STATUS.HV_OK : Fld := ⟨GLB_SUPPLY_STATUS.addr, 3, 1⟩
def GLB_SUPPLY_STATUS.HS_OK : Fld := ⟨GLB_SUPPLY_STATUS.addr, 2, 1⟩
def GLB_SUPPLY_STATUS.CORE_OK : Fld := ⟨GLB_SUPPLY_STATUS.addr, 1, 1⟩
def GLB_SUPPLY_STATUS.AON_OK : Fld := ⟨GLB_SUPPLY_STATUS.addr, 0, 1⟩

def GLB_STRAPS.addr : Nat := 0x14
def GLB_STRAPS.MGR_SEL : Fld := ⟨GLB_STRAPS.addr, 0, 1⟩

def CLK_WHORL_STATUS.addr : Nat := 0x50000
def CLK_WHORL_STATUS.RING_OSC_ON : Fld := ⟨CLK_WHORL_STATUS.addr, 3, 1⟩
def CLK_WHORL_STATUS.REFCLK_OK : Fld := ⟨CLK_WHORL_STATUS.addr, 2, 1⟩
def CLK_WHORL_STATUS.HOLDOVER : Fld := ⟨CLK_WHORL_STATUS.addr, 1, 1⟩
def CLK_WHORL_STATUS.LOCK : Fld := ⟨CLK_WHORL_STATUS.addr, 0, 1⟩

def CLK_HQ_STATUS.addr : Nat := 0x50004
def CLK_HQ_STATUS.RATE_HQ3 : Fld := ⟨CLK_HQ_STATUS.addr, 17, 3⟩
def CLK_HQ_STATUS.RATE_HQ2 : Fld := ⟨CLK_HQ_STATUS.addr, 14, 3⟩
def CLK_HQ_STATUS.RATE_HQ1 : Fld := ⟨CLK_HQ_STATUS.addr, 11, 3⟩
def CLK_HQ_STATUS.RATE_HQ0 : Fld := ⟨CLK_HQ_STATUS.addr, 8, 3⟩
def CLK_HQ_STATUS.LOCK : Fld := ⟨CLK_HQ_STATUS.addr, 0, 4⟩

/-! Registers of spec/03_operating_modes. -/

def TWF_PORT_MAP.addr (i : Nat) : Nat := 0x410100 + 0x4 * i
def TWF_PORT_MAP.MODE (i : Nat) : Fld := ⟨TWF_PORT_MAP.addr i, 24, 8⟩
def TWF_PORT_MAP.STATE (i : Nat) : Fld := ⟨TWF_PORT_MAP.addr i, 21, 3⟩
def TWF_PORT_MAP.TRIB (i : Nat) : Fld := ⟨TWF_PORT_MAP.addr i, 20, 1⟩
def TWF_PORT_MAP.SUBST (i : Nat) : Fld := ⟨TWF_PORT_MAP.addr i, 19, 1⟩
def TWF_PORT_MAP.HOST_FIRST (i : Nat) : Fld := ⟨TWF_PORT_MAP.addr i, 15, 4⟩
def TWF_PORT_MAP.HOST_COUNT (i : Nat) : Fld := ⟨TWF_PORT_MAP.addr i, 11, 4⟩
def TWF_PORT_MAP.LINE_MASK (i : Nat) : Fld := ⟨TWF_PORT_MAP.addr i, 0, 8⟩

/-! Registers of spec/04_host_lanes. -/

def HLN_STATUS.addr (n : Nat) : Nat := 0x100040 + 0x10000 * n
def HLN_STATUS.RX_SNR (n : Nat) : Fld := ⟨HLN_STATUS.addr n, 24, 8⟩
def HLN_STATUS.TRAIN_STATE (n : Nat) : Fld := ⟨HLN_STATUS.addr n, 16, 3⟩
def HLN_STATUS.FAR_LANE_ID (n : Nat) : Fld := ⟨HLN_STATUS.addr n, 14, 2⟩
def HLN_STATUS.RATE (n : Nat) : Fld := ⟨HLN_STATUS.addr n, 11, 3⟩
def HLN_STATUS.TX_SHORT (n : Nat) : Fld := ⟨HLN_STATUS.addr n, 6, 1⟩
def HLN_STATUS.TX_OPEN (n : Nat) : Fld := ⟨HLN_STATUS.addr n, 5, 1⟩
def HLN_STATUS.ORDER_REV (n : Nat) : Fld := ⟨HLN_STATUS.addr n, 4, 1⟩
def HLN_STATUS.POL_INV (n : Nat) : Fld := ⟨HLN_STATUS.addr n, 3, 1⟩
def HLN_STATUS.TRAINED (n : Nat) : Fld := ⟨HLN_STATUS.addr n, 2, 1⟩
def HLN_STATUS.CDR_LOCK (n : Nat) : Fld := ⟨HLN_STATUS.addr n, 1, 1⟩
def HLN_STATUS.SIGNAL (n : Nat) : Fld := ⟨HLN_STATUS.addr n, 0, 1⟩

def HLN_TRAIN_STATUS.addr (n : Nat) : Nat := 0x100044 + 0x10000 * n
def HLN_TRAIN_STATUS.RESTART_CNT (n : Nat) : Fld := ⟨HLN_TRAIN_STATUS.addr n, 24, 8⟩
def HLN_TRAIN_STATUS.CRC_ERR_CNT (n : Nat) : Fld := ⟨HLN_TRAIN_STATUS.addr n, 16, 8⟩
def HLN_TRAIN_STATUS.LAST_REQ (n : Nat) : Fld := ⟨HLN_TRAIN_STATUS.addr n, 12, 4⟩
def HLN_TRAIN_STATUS.LAST_RESP (n : Nat) : Fld := ⟨HLN_TRAIN_STATUS.addr n, 8, 4⟩
def HLN_TRAIN_STATUS.LAST_SEQ (n : Nat) : Fld := ⟨HLN_TRAIN_STATUS.addr n, 0, 8⟩

def HLN_FAULT.addr (n : Nat) : Nat := 0x100048 + 0x10000 * n
def HLN_FAULT.CDR_UNLOCK (n : Nat) : Fld := ⟨HLN_FAULT.addr n, 5, 1⟩
def HLN_FAULT.ORDER_FAULT (n : Nat) : Fld := ⟨HLN_FAULT.addr n, 4, 1⟩
def HLN_FAULT.TRAIN_FAIL (n : Nat) : Fld := ⟨HLN_FAULT.addr n, 3, 1⟩
def HLN_FAULT.TX_SHORT (n : Nat) : Fld := ⟨HLN_FAULT.addr n, 2, 1⟩
def HLN_FAULT.TX_OPEN (n : Nat) : Fld := ⟨HLN_FAULT.addr n, 1, 1⟩
def HLN_FAULT.LOS (n : Nat) : Fld := ⟨HLN_FAULT.addr n, 0, 1⟩

def HLN_TX_TAPS0.addr (n : Nat) : Nat := 0x10004C + 0x10000 * n
def HLN_TX_TAPS0.PRE2 (n : Nat) : Fld := ⟨HLN_TX_TAPS0.addr n, 16, 9⟩
def HLN_TX_TAPS0.PRE3 (n : Nat) : Fld := ⟨HLN_TX_TAPS0.addr n, 0, 9⟩

def HLN_TX_TAPS1.addr (n : Nat) : Nat := 0x100050 + 0x10000 * n
def HLN_TX_TAPS1.MAIN (n : Nat) : Fld := ⟨HLN_TX_TAPS1.addr n, 16, 9⟩
def HLN_TX_TAPS1.PRE1 (n : Nat) : Fld := ⟨HLN_TX_TAPS1.addr n, 0, 9⟩

def HLN_TX_TAPS2.addr (n : Nat) : Nat := 0x100054 + 0x10000 * n
def HLN_TX_TAPS2.POST2 (n : Nat) : Fld := ⟨HLN_TX_TAPS2.addr n, 16, 9⟩
def HLN_TX_TAPS2.POST1 (n : Nat) : Fld := ⟨HLN_TX_TAPS2.addr n, 0, 9⟩

def HLN_RX_EQ.addr (n : Nat) : Nat := 0x100058 + 0x10000 * n
def HLN_RX_EQ.AGC (n : Nat) : Fld := ⟨HLN_RX_EQ.addr n, 8, 8⟩
def HLN_RX_EQ.CTLE (n : Nat) : Fld := ⟨HLN_RX_EQ.addr n, 0, 4⟩

def HLN_PAT_GEN.addr (n : Nat) : Nat := 0x101000 + 0x10000 * n
def HLN_PAT_GEN.ERR_INJ (n : Nat) : Fld := ⟨HLN_PAT_GEN.addr n, 4, 1⟩
def HLN_PAT_GEN.INV (n : Nat) : Fld := ⟨HLN_PAT_GEN.addr n, 3, 1⟩
def HLN_PAT_GEN.PATTERN (n : Nat) : Fld := ⟨HLN_PAT_GEN.addr n, 1, 2⟩
def HLN_PAT_GEN.EN (n : Nat) : Fld := ⟨HLN_PAT_GEN.addr n, 0, 1⟩

def HLN_PAT_CHK.addr (n : Nat) : Nat := 0x101004 + 0x10000 * n
def HLN_PAT_CHK.INV (n : Nat) : Fld := ⟨HLN_PAT_CHK.addr n, 3, 1⟩
def HLN_PAT_CHK.PATTERN (n : Nat) : Fld := ⟨HLN_PAT_CHK.addr n, 1, 2⟩
def HLN_PAT_CHK.EN (n : Nat) : Fld := ⟨HLN_PAT_CHK.addr n, 0, 1⟩

def HLN_PAT_CHK_STATUS.addr (n : Nat) : Nat := 0x101008 + 0x10000 * n
def HLN_PAT_CHK_STATUS.LOST (n : Nat) : Fld := ⟨HLN_PAT_CHK_STATUS.addr n, 1, 1⟩
def HLN_PAT_CHK_STATUS.SYNC (n : Nat) : Fld := ⟨HLN_PAT_CHK_STATUS.addr n, 0, 1⟩

def HLN_PAT_ERR.addr (n : Nat) : Nat := 0x10100C + 0x10000 * n
def HLN_PAT_ERR.COUNT (n : Nat) : Fld := ⟨HLN_PAT_ERR.addr n, 0, 32⟩

def HLN_PAT_BITS_LO.addr (n : Nat) : Nat := 0x101010 + 0x10000 * n
def HLN_PAT_BITS_LO.COUNT_LO (n : Nat) : Fld := ⟨HLN_PAT_BITS_LO.addr n, 0, 32⟩

def HLN_PAT_BITS_HI.addr (n : Nat) : Nat := 0x101014 + 0x10000 * n
def HLN_PAT_BITS_HI.COUNT_HI (n : Nat) : Fld := ⟨HLN_PAT_BITS_HI.addr n, 0, 16⟩

/-! Registers of spec/05_line_receiver. -/

def LRX_STATUS.addr (n : Nat) : Nat := 0x200040 + 0x10000 * n
def LRX_STATUS.RX_SNR (n : Nat) : Fld := ⟨LRX_STATUS.addr n, 24, 8⟩
def LRX_STATUS.STATE (n : Nat) : Fld := ⟨LRX_STATUS.addr n, 21, 3⟩
def LRX_STATUS.VOLT_SET (n : Nat) : Fld := ⟨LRX_STATUS.addr n, 19, 2⟩
def LRX_STATUS.RATE (n : Nat) : Fld := ⟨LRX_STATUS.addr n, 18, 1⟩
def LRX_STATUS.MARGIN_LOW (n : Nat) : Fld := ⟨LRX_STATUS.addr n, 17, 1⟩
def LRX_STATUS.GOOD (n : Nat) : Fld := ⟨LRX_STATUS.addr n, 16, 1⟩
def LRX_STATUS.HOLD_CAUSE (n : Nat) : Fld := ⟨LRX_STATUS.addr n, 8, 3⟩
def LRX_STATUS.FRAME_LOCK (n : Nat) : Fld := ⟨LRX_STATUS.addr n, 4, 1⟩
def LRX_STATUS.EQ_CONV (n : Nat) : Fld := ⟨LRX_STATUS.addr n, 3, 1⟩
def LRX_STATUS.CDR_LOCK (n : Nat) : Fld := ⟨LRX_STATUS.addr n, 2, 1⟩
def LRX_STATUS.CAL_DONE (n : Nat) : Fld := ⟨LRX_STATUS.addr n, 1, 1⟩
def LRX_STATUS.SIGNAL (n : Nat) : Fld := ⟨LRX_STATUS.addr n, 0, 1⟩

def LRX_FAULT.addr (n : Nat) : Nat := 0x200044 + 0x10000 * n
def LRX_FAULT.RETRAIN_FAIL (n : Nat) : Fld := ⟨LRX_FAULT.addr n, 6, 1⟩
def LRX_FAULT.RESTORE_FAIL (n : Nat) : Fld := ⟨LRX_FAULT.addr n, 5, 1⟩
def LRX_FAULT.ADC_CAL (n : Nat) : Fld := ⟨LRX_FAULT.addr n, 4, 1⟩
def LRX_FAULT.FRAME_LOSS (n : Nat) : Fld := ⟨LRX_FAULT.addr n, 3, 1⟩
def LRX_FAULT.SNR_LOSS (n : Nat) : Fld := ⟨LRX_FAULT.addr n, 2, 1⟩
def LRX_FAULT.CDR_UNLOCK (n : Nat) : Fld := ⟨LRX_FAULT.addr n, 1, 1⟩
def LRX_FAULT.LOS (n : Nat) : Fld := ⟨LRX_FAULT.addr n, 0, 1⟩

def LRX_SNR.addr (n : Nat) : Nat := 0x200048 + 0x10000 * n
def LRX_SNR.SNR_AVG (n : Nat) : Fld := ⟨LRX_SNR.addr n, 16, 16⟩
def LRX_SNR.LOCK_THR (n : Nat) : Fld := ⟨LRX_SNR.addr n, 8, 8⟩
def LRX_SNR.LOSS_THR (n : Nat) : Fld := ⟨LRX_SNR.addr n, 0, 8⟩

def LRX_CDR.addr (n : Nat) : Nat := 0x20004C + 0x10000 * n
def LRX_CDR.FREQ_OFS (n : Nat) : Fld := ⟨LRX_CDR.addr n, 16, 16⟩
def LRX_CDR.PHASE (n : Nat) : Fld := ⟨LRX_CDR.addr n, 0, 8⟩

def LRX_LOCK_CNT.addr (n : Nat) : Nat := 0x200050 + 0x10000 * n
def LRX_LOCK_CNT.LOSS_CNT (n : Nat) : Fld := ⟨LRX_LOCK_CNT.addr n, 24, 8⟩
def LRX_LOCK_CNT.RESTORE_CNT (n : Nat) : Fld := ⟨LRX_LOCK_CNT.addr n, 16, 8⟩
def LRX_LOCK_CNT.RETRAIN_CNT (n : Nat) : Fld := ⟨LRX_LOCK_CNT.addr n, 8, 8⟩

def LRX_ADC_CAL.addr (n : Nat) : Nat := 0x200054 + 0x10000 * n
def LRX_ADC_CAL.SKEW_RES (n : Nat) : Fld := ⟨LRX_ADC_CAL.addr n, 24, 8⟩
def LRX_ADC_CAL.OFFSET_RES (n : Nat) : Fld := ⟨LRX_ADC_CAL.addr n, 16, 8⟩
def LRX_ADC_CAL.GAIN_RES (n : Nat) : Fld := ⟨LRX_ADC_CAL.addr n, 8, 8⟩
def LRX_ADC_CAL.AT_LIMIT (n : Nat) : Fld := ⟨LRX_ADC_CAL.addr n, 7, 1⟩
def LRX_ADC_CAL.SUB (n : Nat) : Fld := ⟨LRX_ADC_CAL.addr n, 0, 6⟩

def LRX_PAT_CHK.addr (n : Nat) : Nat := 0x201004 + 0x10000 * n
def LRX_PAT_CHK.INV (n : Nat) : Fld := ⟨LRX_PAT_CHK.addr n, 3, 1⟩
def LRX_PAT_CHK.PATTERN (n : Nat) : Fld := ⟨LRX_PAT_CHK.addr n, 1, 2⟩
def LRX_PAT_CHK.EN (n : Nat) : Fld := ⟨LRX_PAT_CHK.addr n, 0, 1⟩

def LRX_PAT_CHK_STATUS.addr (n : Nat) : Nat := 0x201008 + 0x10000 * n
def LRX_PAT_CHK_STATUS.LOST (n : Nat) : Fld := ⟨LRX_PAT_CHK_STATUS.addr n, 1, 1⟩
def LRX_PAT_CHK_STATUS.SYNC (n : Nat) : Fld := ⟨LRX_PAT_CHK_STATUS.addr n, 0, 1⟩

def LRX_PAT_ERR.addr (n : Nat) : Nat := 0x20100C + 0x10000 * n
def LRX_PAT_ERR.COUNT (n : Nat) : Fld := ⟨LRX_PAT_ERR.addr n, 0, 32⟩

def LRX_PAT_BITS_LO.addr (n : Nat) : Nat := 0x201010 + 0x10000 * n
def LRX_PAT_BITS_LO.COUNT_LO (n : Nat) : Fld := ⟨LRX_PAT_BITS_LO.addr n, 0, 32⟩

def LRX_PAT_BITS_HI.addr (n : Nat) : Nat := 0x201014 + 0x10000 * n
def LRX_PAT_BITS_HI.COUNT_HI (n : Nat) : Fld := ⟨LRX_PAT_BITS_HI.addr n, 0, 16⟩

def LRX_RX_CFG.addr (n : Nat) : Nat := 0x202000 + 0x10000 * n
def LRX_RX_CFG.LOCK_THR (n : Nat) : Fld := ⟨LRX_RX_CFG.addr n, 24, 8⟩
def LRX_RX_CFG.LOSS_THR (n : Nat) : Fld := ⟨LRX_RX_CFG.addr n, 16, 8⟩
def LRX_RX_CFG.MARGIN_WARN (n : Nat) : Fld := ⟨LRX_RX_CFG.addr n, 12, 4⟩
def LRX_RX_CFG.CDR_BW (n : Nat) : Fld := ⟨LRX_RX_CFG.addr n, 10, 2⟩
def LRX_RX_CFG.VOLT_MAX (n : Nat) : Fld := ⟨LRX_RX_CFG.addr n, 8, 2⟩

/-! Registers of spec/06_line_transmitter. -/

def LTX_STATUS.addr (n : Nat) : Nat := 0x300040 + 0x10000 * n
def LTX_STATUS.OUT_STATE (n : Nat) : Fld := ⟨LTX_STATUS.addr n, 29, 3⟩
def LTX_STATUS.RATE (n : Nat) : Fld := ⟨LTX_STATUS.addr n, 28, 1⟩
def LTX_STATUS.SHORT (n : Nat) : Fld := ⟨LTX_STATUS.addr n, 27, 1⟩
def LTX_STATUS.TT_AT_LIMIT (n : Nat) : Fld := ⟨LTX_STATUS.addr n, 26, 1⟩

def LTX_FAULT.addr (n : Nat) : Nat := 0x300044 + 0x10000 * n
def LTX_FAULT.TAP_TIMEOUT (n : Nat) : Fld := ⟨LTX_FAULT.addr n, 2, 1⟩
def LTX_FAULT.TT_LIMIT (n : Nat) : Fld := ⟨LTX_FAULT.addr n, 1, 1⟩
def LTX_FAULT.SHORT (n : Nat) : Fld := ⟨LTX_FAULT.addr n, 0, 1⟩

def LTX_TAPS0.addr (n : Nat) : Nat := 0x300048 + 0x10000 * n
def LTX_TAPS0.CM1 (n : Nat) : Fld := ⟨LTX_TAPS0.addr n, 18, 9⟩
def LTX_TAPS0.CM2 (n : Nat) : Fld := ⟨LTX_TAPS0.addr n, 9, 9⟩
def LTX_TAPS0.CM3 (n : Nat) : Fld := ⟨LTX_TAPS0.addr n, 0, 9⟩

def LTX_TAPS1.addr (n : Nat) : Nat := 0x30004C + 0x10000 * n
def LTX_TAPS1.CP2 (n : Nat) : Fld := ⟨LTX_TAPS1.addr n, 18, 9⟩
def LTX_TAPS1.CP1 (n : Nat) : Fld := ⟨LTX_TAPS1.addr n, 9, 9⟩
def LTX_TAPS1.C0 (n : Nat) : Fld := ⟨LTX_TAPS1.addr n, 0, 9⟩

def LTX_TAPS2.addr (n : Nat) : Nat := 0x300050 + 0x10000 * n
def LTX_TAPS2.CP5 (n : Nat) : Fld := ⟨LTX_TAPS2.addr n, 18, 9⟩
def LTX_TAPS2.CP4 (n : Nat) : Fld := ⟨LTX_TAPS2.addr n, 9, 9⟩
def LTX_TAPS2.CP3 (n : Nat) : Fld := ⟨LTX_TAPS2.addr n, 0, 9⟩

def LTX_TT_STATUS.addr (n : Nat) : Nat := 0x300054 + 0x10000 * n
def LTX_TT_STATUS.SWAP_CNT (n : Nat) : Fld := ⟨LTX_TT_STATUS.addr n, 16, 16⟩
def LTX_TT_STATUS.SWEEP_POS (n : Nat) : Fld := ⟨LTX_TT_STATUS.addr n, 8, 8⟩
def LTX_TT_STATUS.SWEEP_ACTIVE (n : Nat) : Fld := ⟨LTX_TT_STATUS.addr n, 1, 1⟩
def LTX_TT_STATUS.SRC_LAST (n : Nat) : Fld := ⟨LTX_TT_STATUS.addr n, 0, 1⟩

def LTX_TAP_CHAN.addr (n : Nat) : Nat := 0x300058 + 0x10000 * n
def LTX_TAP_CHAN.OUT_SEQ (n : Nat) : Fld := ⟨LTX_TAP_CHAN.addr n, 24, 8⟩
def LTX_TAP_CHAN.OUT_REQ (n : Nat) : Fld := ⟨LTX_TAP_CHAN.addr n, 20, 4⟩
def LTX_TAP_CHAN.IN_RESP (n : Nat) : Fld := ⟨LTX_TAP_CHAN.addr n, 16, 4⟩
def LTX_TAP_CHAN.IN_SEQ (n : Nat) : Fld := ⟨LTX_TAP_CHAN.addr n, 8, 8⟩
def LTX_TAP_CHAN.IN_REQ (n : Nat) : Fld := ⟨LTX_TAP_CHAN.addr n, 4, 4⟩
def LTX_TAP_CHAN.OUT_RESP (n : Nat) : Fld := ⟨LTX_TAP_CHAN.addr n, 0, 4⟩

def LTX_PAT_GEN.addr (n : Nat) : Nat := 0x301000 + 0x10000 * n
def LTX_PAT_GEN.ERR_INJ (n : Nat) : Fld := ⟨LTX_PAT_GEN.addr n, 4, 1⟩
def LTX_PAT_GEN.INV (n : Nat) : Fld := ⟨LTX_PAT_GEN.addr n, 3, 1⟩
def LTX_PAT_GEN.PATTERN (n : Nat) : Fld := ⟨LTX_PAT_GEN.addr n, 1, 2⟩
def LTX_PAT_GEN.EN (n : Nat) : Fld := ⟨LTX_PAT_GEN.addr n, 0, 1⟩

def LTX_TX_CFG.addr (n : Nat) : Nat := 0x302000 + 0x10000 * n
def LTX_TX_CFG.SWING (n : Nat) : Fld := ⟨LTX_TX_CFG.addr n, 17, 7⟩
def LTX_TX_CFG.MUTE (n : Nat) : Fld := ⟨LTX_TX_CFG.addr n, 16, 1⟩
def LTX_TX_CFG.TT_STEP (n : Nat) : Fld := ⟨LTX_TX_CFG.addr n, 14, 2⟩
def LTX_TX_CFG.TT_FREEZE (n : Nat) : Fld := ⟨LTX_TX_CFG.addr n, 13, 1⟩
def LTX_TX_CFG.TT_SRC (n : Nat) : Fld := ⟨LTX_TX_CFG.addr n, 12, 1⟩
def LTX_TX_CFG.START_PRESET (n : Nat) : Fld := ⟨LTX_TX_CFG.addr n, 8, 4⟩
def LTX_TX_CFG.ACCEPT_REQ (n : Nat) : Fld := ⟨LTX_TX_CFG.addr n, 7, 1⟩

def LTX_TT_ACTIVE.addr (n p : Nat) : Nat := 0x302400 + 0x10000 * n + 4 * p
def LTX_TT_ACTIVE.ENTRY (n p : Nat) : Fld := ⟨LTX_TT_ACTIVE.addr n p, 0, 10⟩

def LTX_TT_SHADOW.addr (n p : Nat) : Nat := 0x302800 + 0x10000 * n + 4 * p
def LTX_TT_SHADOW.ENTRY (n p : Nat) : Fld := ⟨LTX_TT_SHADOW.addr n p, 0, 10⟩

/-! Registers of spec/07_hank_paging. -/

def HNK_STORE_STATUS.addr : Nat := 0x420000
def HNK_STORE_STATUS.BAD : Fld := ⟨HNK_STORE_STATUS.addr, 24, 8⟩
def HNK_STORE_STATUS.PINNED : Fld := ⟨HNK_STORE_STATUS.addr, 12, 12⟩
def HNK_STORE_STATUS.FREE : Fld := ⟨HNK_STORE_STATUS.addr, 0, 12⟩

def HNK_CFG.addr : Nat := 0x420004
def HNK_CFG.SNAP_PERIOD : Fld := ⟨HNK_CFG.addr, 24, 8⟩
def HNK_CFG.CKPT_PERIOD : Fld := ⟨HNK_CFG.addr, 16, 8⟩
def HNK_CFG.RESTORE_LIMIT : Fld := ⟨HNK_CFG.addr, 8, 8⟩
def HNK_CFG.GUARD : Fld := ⟨HNK_CFG.addr, 0, 8⟩

def HNK_LANE_STATUS.addr (i : Nat) : Nat := 0x420100 + 0x4 * i
def HNK_LANE_STATUS.LAST_GOOD (i : Nat) : Fld := ⟨HNK_LANE_STATUS.addr i, 21, 11⟩
def HNK_LANE_STATUS.ACTIVE (i : Nat) : Fld := ⟨HNK_LANE_STATUS.addr i, 10, 11⟩
def HNK_LANE_STATUS.ENGINE (i : Nat) : Fld := ⟨HNK_LANE_STATUS.addr i, 7, 3⟩
def HNK_LANE_STATUS.LG_VALID (i : Nat) : Fld := ⟨HNK_LANE_STATUS.addr i, 6, 1⟩
def HNK_LANE_STATUS.ACT_VALID (i : Nat) : Fld := ⟨HNK_LANE_STATUS.addr i, 5, 1⟩
def HNK_LANE_STATUS.RESTORE_EN (i : Nat) : Fld := ⟨HNK_LANE_STATUS.addr i, 4, 1⟩
def HNK_LANE_STATUS.LIMITED (i : Nat) : Fld := ⟨HNK_LANE_STATUS.addr i, 3, 1⟩
def HNK_LANE_STATUS.FAR_CHANGED (i : Nat) : Fld := ⟨HNK_LANE_STATUS.addr i, 2, 1⟩
def HNK_LANE_STATUS.OUTCOME (i : Nat) : Fld := ⟨HNK_LANE_STATUS.addr i, 0, 2⟩

def HNK_LANE_CFG.addr (i : Nat) : Nat := 0x420140 + 0x4 * i
def HNK_LANE_CFG.RESTORE_EN (i : Nat) : Fld := ⟨HNK_LANE_CFG.addr i, 4, 1⟩
def HNK_LANE_CFG.KEEP_MAX (i : Nat) : Fld := ⟨HNK_LANE_CFG.addr i, 0, 4⟩

/-! Registers of spec/08_twist_framing. -/

def TWF_UNIT_ID_LO.addr : Nat := 0x410010
def TWF_UNIT_ID_LO.ID_LO : Fld := ⟨TWF_UNIT_ID_LO.addr, 0, 32⟩

def TWF_UNIT_ID_HI.addr : Nat := 0x410014
def TWF_UNIT_ID_HI.ID_HI : Fld := ⟨TWF_UNIT_ID_HI.addr, 0, 12⟩

def TWF_LANE_STATUS.addr (i : Nat) : Nat := 0x410200 + 0x20 * i
def TWF_LANE_STATUS.FN_RX (i : Nat) : Fld := ⟨TWF_LANE_STATUS.addr i, 27, 5⟩
def TWF_LANE_STATUS.SCR_OFS_RX (i : Nat) : Fld := ⟨TWF_LANE_STATUS.addr i, 24, 3⟩
def TWF_LANE_STATUS.SCR_OFS_TX (i : Nat) : Fld := ⟨TWF_LANE_STATUS.addr i, 21, 3⟩
def TWF_LANE_STATUS.JUST_RX (i : Nat) : Fld := ⟨TWF_LANE_STATUS.addr i, 19, 2⟩
def TWF_LANE_STATUS.LF1_RX (i : Nat) : Fld := ⟨TWF_LANE_STATUS.addr i, 15, 1⟩
def TWF_LANE_STATUS.LF0_RX (i : Nat) : Fld := ⟨TWF_LANE_STATUS.addr i, 14, 1⟩
def TWF_LANE_STATUS.RUN_OVF_RX (i : Nat) : Fld := ⟨TWF_LANE_STATUS.addr i, 13, 1⟩
def TWF_LANE_STATUS.MISMATCH (i : Nat) : Fld := ⟨TWF_LANE_STATUS.addr i, 7, 1⟩
def TWF_LANE_STATUS.MF_VALID (i : Nat) : Fld := ⟨TWF_LANE_STATUS.addr i, 6, 1⟩
def TWF_LANE_STATUS.POL_INV (i : Nat) : Fld := ⟨TWF_LANE_STATUS.addr i, 5, 1⟩
def TWF_LANE_STATUS.OH_OK (i : Nat) : Fld := ⟨TWF_LANE_STATUS.addr i, 4, 1⟩
def TWF_LANE_STATUS.FRAMING (i : Nat) : Fld := ⟨TWF_LANE_STATUS.addr i, 2, 2⟩
def TWF_LANE_STATUS.SEEK (i : Nat) : Fld := ⟨TWF_LANE_STATUS.addr i, 1, 1⟩
def TWF_LANE_STATUS.FRAME_LOCK (i : Nat) : Fld := ⟨TWF_LANE_STATUS.addr i, 0, 1⟩

def TWF_FAR_ID_LO.addr (i : Nat) : Nat := 0x410204 + 0x20 * i
def TWF_FAR_ID_LO.FAR_LO (i : Nat) : Fld := ⟨TWF_FAR_ID_LO.addr i, 0, 32⟩

def TWF_FAR_ID_HI.addr (i : Nat) : Nat := 0x410208 + 0x20 * i
def TWF_FAR_ID_HI.FAR_HI (i : Nat) : Fld := ⟨TWF_FAR_ID_HI.addr i, 0, 16⟩

def TWF_FAR_INFO.addr (i : Nat) : Nat := 0x41020C + 0x20 * i
def TWF_FAR_INFO.MODE0 (i : Nat) : Fld := ⟨TWF_FAR_INFO.addr i, 24, 8⟩
def TWF_FAR_INFO.MODE1 (i : Nat) : Fld := ⟨TWF_FAR_INFO.addr i, 16, 8⟩
def TWF_FAR_INFO.LANE (i : Nat) : Fld := ⟨TWF_FAR_INFO.addr i, 8, 8⟩
def TWF_FAR_INFO.BUNDLE (i : Nat) : Fld := ⟨TWF_FAR_INFO.addr i, 0, 8⟩

def TWF_STUFF_CNT.addr (i : Nat) : Nat := 0x410210 + 0x20 * i
def TWF_STUFF_CNT.TX_STUFF (i : Nat) : Fld := ⟨TWF_STUFF_CNT.addr i, 16, 16⟩
def TWF_STUFF_CNT.RX_STUFF (i : Nat) : Fld := ⟨TWF_STUFF_CNT.addr i, 0, 16⟩

def TWF_RUN_OVF.addr (i : Nat) : Nat := 0x410214 + 0x20 * i
def TWF_RUN_OVF.TX_OVF (i : Nat) : Fld := ⟨TWF_RUN_OVF.addr i, 16, 16⟩
def TWF_RUN_OVF.RX_OVF (i : Nat) : Fld := ⟨TWF_RUN_OVF.addr i, 0, 16⟩

def TWF_OH_ERR.addr (i : Nat) : Nat := 0x410218 + 0x20 * i
def TWF_OH_ERR.OH_CRC (i : Nat) : Fld := ⟨TWF_OH_ERR.addr i, 16, 16⟩
def TWF_OH_ERR.MF_CRC (i : Nat) : Fld := ⟨TWF_OH_ERR.addr i, 0, 16⟩

def TWF_RATE.addr (i : Nat) : Nat := 0x41021C + 0x20 * i
def TWF_RATE.FOLLOW (i : Nat) : Fld := ⟨TWF_RATE.addr i, 16, 16⟩
def TWF_RATE.BUF_FILL (i : Nat) : Fld := ⟨TWF_RATE.addr i, 8, 8⟩
def TWF_RATE.JUST_TX (i : Nat) : Fld := ⟨TWF_RATE.addr i, 0, 2⟩

/-! Registers of spec/09_creel_decoding. -/

def CRL_STATUS.addr : Nat := 0x400000
def CRL_STATUS.IN_SERVICE : Fld := ⟨CRL_STATUS.addr, 27, 5⟩
def CRL_STATUS.SPARE : Fld := ⟨CRL_STATUS.addr, 22, 5⟩
def CRL_STATUS.RESERVE : Fld := ⟨CRL_STATUS.addr, 17, 5⟩
def CRL_STATUS.FLOAT_EFF : Fld := ⟨CRL_STATUS.addr, 12, 5⟩
def CRL_STATUS.THROTTLE : Fld := ⟨CRL_STATUS.addr, 10, 2⟩
def CRL_STATUS.NO_SPARE : Fld := ⟨CRL_STATUS.addr, 9, 1⟩
def CRL_STATUS.GUAR_SHORT : Fld := ⟨CRL_STATUS.addr, 8, 1⟩

def CRL_FLOAT_CFG.addr : Nat := 0x400004
def CRL_FLOAT_CFG.ROT_EN : Fld := ⟨CRL_FLOAT_CFG.addr, 24, 1⟩
def CRL_FLOAT_CFG.ROT_PERIOD : Fld := ⟨CRL_FLOAT_CFG.addr, 16, 8⟩
def CRL_FLOAT_CFG.MAX_ITER : Fld := ⟨CRL_FLOAT_CFG.addr, 12, 4⟩
def CRL_FLOAT_CFG.LANE_FLOAT_MAX : Fld := ⟨CRL_FLOAT_CFG.addr, 8, 4⟩
def CRL_FLOAT_CFG.FLOAT_MAX : Fld := ⟨CRL_FLOAT_CFG.addr, 0, 5⟩

def CRL_BOBBIN_FAIL.addr : Nat := 0x400008
def CRL_BOBBIN_FAIL.RETIRED : Fld := ⟨CRL_BOBBIN_FAIL.addr, 0, 25⟩

def CRL_SLUB_CFG.addr : Nat := 0x40000C
def CRL_SLUB_CFG.END : Fld := ⟨CRL_SLUB_CFG.addr, 16, 8⟩
def CRL_SLUB_CFG.THR : Fld := ⟨CRL_SLUB_CFG.addr, 0, 12⟩

def CRL_BUF_STATUS.addr : Nat := 0x400010
def CRL_BUF_STATUS.TOTAL : Fld := ⟨CRL_BUF_STATUS.addr, 16, 9⟩
def CRL_BUF_STATUS.ALLOC : Fld := ⟨CRL_BUF_STATUS.addr, 0, 9⟩

def CRL_LANE_CFG.addr (i : Nat) : Nat := 0x400100 + 0x20 * i
def CRL_LANE_CFG.DEADLINE (i : Nat) : Fld := ⟨CRL_LANE_CFG.addr i, 0, 6⟩

def CRL_LANE_STATUS.addr (i : Nat) : Nat := 0x400104 + 0x20 * i
def CRL_LANE_STATUS.SLOTS (i : Nat) : Fld := ⟨CRL_LANE_STATUS.addr i, 26, 6⟩
def CRL_LANE_STATUS.FLOAT_NOW (i : Nat) : Fld := ⟨CRL_LANE_STATUS.addr i, 22, 4⟩
def CRL_LANE_STATUS.SLUB (i : Nat) : Fld := ⟨CRL_LANE_STATUS.addr i, 21, 1⟩
def CRL_LANE_STATUS.PAIRED (i : Nat) : Fld := ⟨CRL_LANE_STATUS.addr i, 20, 1⟩
def CRL_LANE_STATUS.DEMAND (i : Nat) : Fld := ⟨CRL_LANE_STATUS.addr i, 0, 16⟩

def CRL_LANE_ITER.addr (i : Nat) : Nat := 0x400108 + 0x20 * i
def CRL_LANE_ITER.UNSAT_AVG (i : Nat) : Fld := ⟨CRL_LANE_ITER.addr i, 16, 16⟩
def CRL_LANE_ITER.ITER_AVG (i : Nat) : Fld := ⟨CRL_LANE_ITER.addr i, 0, 16⟩

def CRL_LANE_BER.addr (i : Nat) : Nat := 0x40010C + 0x20 * i
def CRL_LANE_BER.BER (i : Nat) : Fld := ⟨CRL_LANE_BER.addr i, 0, 32⟩

def CRL_LANE_MARGIN.addr (i : Nat) : Nat := 0x400110 + 0x20 * i
def CRL_LANE_MARGIN.UNSAT_SLOW (i : Nat) : Fld := ⟨CRL_LANE_MARGIN.addr i, 16, 16⟩
def CRL_LANE_MARGIN.TREND (i : Nat) : Fld := ⟨CRL_LANE_MARGIN.addr i, 0, 16⟩

def CRL_LANE_MISS.addr (i : Nat) : Nat := 0x400114 + 0x20 * i
def CRL_LANE_MISS.DL_MISS (i : Nat) : Fld := ⟨CRL_LANE_MISS.addr i, 16, 16⟩
def CRL_LANE_MISS.VOID (i : Nat) : Fld := ⟨CRL_LANE_MISS.addr i, 0, 16⟩

def CRL_LANE_SLUB.addr (i : Nat) : Nat := 0x400118 + 0x20 * i
def CRL_LANE_SLUB.SLUB_CNT (i : Nat) : Fld := ⟨CRL_LANE_SLUB.addr i, 16, 16⟩
def CRL_LANE_SLUB.SLUB_LONGEST (i : Nat) : Fld := ⟨CRL_LANE_SLUB.addr i, 0, 16⟩

def CRL_HIST.addr (n b : Nat) : Nat := 0x400400 + 0x40 * n + 4 * b
def CRL_HIST.COUNT (n b : Nat) : Fld := ⟨CRL_HIST.addr n b, 0, 32⟩

def CRL_RS_CW.addr (i : Nat) : Nat := 0x400800 + 0x10 * i
def CRL_RS_CW.COUNT (i : Nat) : Fld := ⟨CRL_RS_CW.addr i, 0, 32⟩

def CRL_RS_CORR.addr (i : Nat) : Nat := 0x400804 + 0x10 * i
def CRL_RS_CORR.COUNT (i : Nat) : Fld := ⟨CRL_RS_CORR.addr i, 0, 32⟩

def CRL_RS_UNCORR.addr (i : Nat) : Nat := 0x400808 + 0x10 * i
def CRL_RS_UNCORR.COUNT (i : Nat) : Fld := ⟨CRL_RS_UNCORR.addr i, 0, 32⟩

def CRL_RS_TX_ERR.addr (i : Nat) : Nat := 0x40080C + 0x10 * i
def CRL_RS_TX_ERR.COUNT (i : Nat) : Fld := ⟨CRL_RS_TX_ERR.addr i, 0, 32⟩

/-! Registers of spec/10_lane_faults_ply. -/

def TWF_PLY_CFG.addr : Nat := 0x410400
def TWF_PLY_CFG.POPULATED : Fld := ⟨TWF_PLY_CFG.addr, 8, 1⟩
def TWF_PLY_CFG.AUTO_MIRROR : Fld := ⟨TWF_PLY_CFG.addr, 7, 1⟩
def TWF_PLY_CFG.SUBST_EN : Fld := ⟨TWF_PLY_CFG.addr, 6, 1⟩
def TWF_PLY_CFG.RESTORE_FIRST : Fld := ⟨TWF_PLY_CFG.addr, 5, 1⟩
def TWF_PLY_CFG.PIN_EN : Fld := ⟨TWF_PLY_CFG.addr, 4, 1⟩
def TWF_PLY_CFG.PIN_LANE : Fld := ⟨TWF_PLY_CFG.addr, 0, 4⟩

def TWF_PLY_THR.addr : Nat := 0x410404
def TWF_PLY_THR.FRAY_THR : Fld := ⟨TWF_PLY_THR.addr, 20, 12⟩
def TWF_PLY_THR.HYST : Fld := ⟨TWF_PLY_THR.addr, 12, 8⟩
def TWF_PLY_THR.HORIZON : Fld := ⟨TWF_PLY_THR.addr, 8, 4⟩
def TWF_PLY_THR.DWELL : Fld := ⟨TWF_PLY_THR.addr, 0, 8⟩

def TWF_PLY_STATUS.addr : Nat := 0x410408
def TWF_PLY_STATUS.RX_STATE : Fld := ⟨TWF_PLY_STATUS.addr, 29, 3⟩
def TWF_PLY_STATUS.RX_LANE : Fld := ⟨TWF_PLY_STATUS.addr, 25, 4⟩
def TWF_PLY_STATUS.TX_STATE : Fld := ⟨TWF_PLY_STATUS.addr, 22, 3⟩
def TWF_PLY_STATUS.TX_LANE : Fld := ⟨TWF_PLY_STATUS.addr, 18, 4⟩
def TWF_PLY_STATUS.L8_LOCKED : Fld := ⟨TWF_PLY_STATUS.addr, 17, 1⟩

def TWF_LANE_FAILED.addr : Nat := 0x410410
def TWF_LANE_FAILED.FAILED : Fld := ⟨TWF_LANE_FAILED.addr, 0, 8⟩

def TWF_PLY_CNT.addr : Nat := 0x410414
def TWF_PLY_CNT.SUBST_CNT : Fld := ⟨TWF_PLY_CNT.addr, 24, 8⟩
def TWF_PLY_CNT.MIRROR_CNT : Fld := ⟨TWF_PLY_CNT.addr, 16, 8⟩
def TWF_PLY_CNT.UNAVAIL_CNT : Fld := ⟨TWF_PLY_CNT.addr, 8, 8⟩
def TWF_PLY_CNT.FAR_SUBST_CNT : Fld := ⟨TWF_PLY_CNT.addr, 0, 8⟩

def TWF_PLY_RISK.addr (i : Nat) : Nat := 0x410420 + 0x4 * i
def TWF_PLY_RISK.ELIGIBLE (i : Nat) : Fld := ⟨TWF_PLY_RISK.addr i, 17, 1⟩
def TWF_PLY_RISK.ABOVE_FRAY (i : Nat) : Fld := ⟨TWF_PLY_RISK.addr i, 16, 1⟩
def TWF_PLY_RISK.RISK (i : Nat) : Fld := ⟨TWF_PLY_RISK.addr i, 0, 16⟩

def GLB_FRAY_STATUS.addr : Nat := 0x20
def GLB_FRAY_STATUS.MEM_REPAIR : Fld := ⟨GLB_FRAY_STATUS.addr, 7, 1⟩
def GLB_FRAY_STATUS.SENSOR : Fld := ⟨GLB_FRAY_STATUS.addr, 6, 1⟩
def GLB_FRAY_STATUS.BOBBIN : Fld := ⟨GLB_FRAY_STATUS.addr, 5, 1⟩
def GLB_FRAY_STATUS.LANE_LOST : Fld := ⟨GLB_FRAY_STATUS.addr, 4, 1⟩
def GLB_FRAY_STATUS.MARGIN : Fld := ⟨GLB_FRAY_STATUS.addr, 3, 1⟩
def GLB_FRAY_STATUS.PLY_DOWN : Fld := ⟨GLB_FRAY_STATUS.addr, 2, 1⟩
def GLB_FRAY_STATUS.PLY_TX_USED : Fld := ⟨GLB_FRAY_STATUS.addr, 1, 1⟩
def GLB_FRAY_STATUS.PLY_RX_USED : Fld := ⟨GLB_FRAY_STATUS.addr, 0, 1⟩

def GLB_FRAY_HIST.addr : Nat := 0x24
def GLB_FRAY_HIST.MEM_REPAIR : Fld := ⟨GLB_FRAY_HIST.addr, 7, 1⟩
def GLB_FRAY_HIST.SENSOR : Fld := ⟨GLB_FRAY_HIST.addr, 6, 1⟩
def GLB_FRAY_HIST.BOBBIN : Fld := ⟨GLB_FRAY_HIST.addr, 5, 1⟩
def GLB_FRAY_HIST.LANE_LOST : Fld := ⟨GLB_FRAY_HIST.addr, 4, 1⟩
def GLB_FRAY_HIST.MARGIN : Fld := ⟨GLB_FRAY_HIST.addr, 3, 1⟩
def GLB_FRAY_HIST.PLY_DOWN : Fld := ⟨GLB_FRAY_HIST.addr, 2, 1⟩
def GLB_FRAY_HIST.PLY_TX_USED : Fld := ⟨GLB_FRAY_HIST.addr, 1, 1⟩
def GLB_FRAY_HIST.PLY_RX_USED : Fld := ⟨GLB_FRAY_HIST.addr, 0, 1⟩

/-! Registers of spec/11_spindles_mailbox. -/

def GRD_DISTAFF.addr : Nat := 0x60800
def GRD_DISTAFF.FENCED_B : Fld := ⟨GRD_DISTAFF.addr, 5, 1⟩
def GRD_DISTAFF.FENCED_A : Fld := ⟨GRD_DISTAFF.addr, 4, 1⟩
def GRD_DISTAFF.HOLDER : Fld := ⟨GRD_DISTAFF.addr, 0, 2⟩

def GRD_EPOCH.addr : Nat := 0x60804
def GRD_EPOCH.EPOCH : Fld := ⟨GRD_EPOCH.addr, 0, 32⟩

def GRD_CLAIM.addr : Nat := 0x60808
def GRD_CLAIM.E : Fld := ⟨GRD_CLAIM.addr, 0, 32⟩

def GRD_CLAIM_RESULT.addr : Nat := 0x6080C
def GRD_CLAIM_RESULT.RESULT_B : Fld := ⟨GRD_CLAIM_RESULT.addr, 3, 3⟩
def GRD_CLAIM_RESULT.RESULT_A : Fld := ⟨GRD_CLAIM_RESULT.addr, 0, 3⟩

def GRD_DISTAFF_CTRL.addr : Nat := 0x60810
def GRD_DISTAFF_CTRL.KEY : Fld := ⟨GRD_DISTAFF_CTRL.addr, 16, 16⟩
def GRD_DISTAFF_CTRL.HANDOVER : Fld := ⟨GRD_DISTAFF_CTRL.addr, 1, 1⟩
def GRD_DISTAFF_CTRL.RELEASE : Fld := ⟨GRD_DISTAFF_CTRL.addr, 0, 1⟩

def GRD_SPN_STATUS.addr : Nat := 0x60814
def GRD_SPN_STATUS.ROLE_B : Fld := ⟨GRD_SPN_STATUS.addr, 29, 3⟩
def GRD_SPN_STATUS.ROLE_A : Fld := ⟨GRD_SPN_STATUS.addr, 26, 3⟩
def GRD_SPN_STATUS.IMG_B : Fld := ⟨GRD_SPN_STATUS.addr, 25, 1⟩
def GRD_SPN_STATUS.IMG_A : Fld := ⟨GRD_SPN_STATUS.addr, 24, 1⟩
def GRD_SPN_STATUS.VER_B : Fld := ⟨GRD_SPN_STATUS.addr, 8, 8⟩
def GRD_SPN_STATUS.VER_A : Fld := ⟨GRD_SPN_STATUS.addr, 0, 8⟩

def GRD_SPN_WDT.addr : Nat := 0x60818
def GRD_SPN_WDT.PERIOD_B : Fld := ⟨GRD_SPN_WDT.addr, 8, 8⟩
def GRD_SPN_WDT.PERIOD_A : Fld := ⟨GRD_SPN_WDT.addr, 0, 8⟩

def GRD_WDT_KICK.addr : Nat := 0x6081C

def GRD_SPN_CTRL.addr : Nat := 0x60820
def GRD_SPN_CTRL.KEY : Fld := ⟨GRD_SPN_CTRL.addr, 16, 16⟩
def GRD_SPN_CTRL.SLOT_B : Fld := ⟨GRD_SPN_CTRL.addr, 3, 1⟩
def GRD_SPN_CTRL.SLOT_A : Fld := ⟨GRD_SPN_CTRL.addr, 2, 1⟩
def GRD_SPN_CTRL.RESTART_B : Fld := ⟨GRD_SPN_CTRL.addr, 1, 1⟩
def GRD_SPN_CTRL.RESTART_A : Fld := ⟨GRD_SPN_CTRL.addr, 0, 1⟩

def MBX_STATUS.addr : Nat := 0x10000
def MBX_STATUS.PENDING : Fld := ⟨MBX_STATUS.addr, 8, 7⟩
def MBX_STATUS.SLEEP : Fld := ⟨MBX_STATUS.addr, 4, 1⟩
def MBX_STATUS.RING_FULL : Fld := ⟨MBX_STATUS.addr, 3, 1⟩
def MBX_STATUS.QUIESCED : Fld := ⟨MBX_STATUS.addr, 2, 1⟩
def MBX_STATUS.OPEN : Fld := ⟨MBX_STATUS.addr, 1, 1⟩

def MBX_DOORBELL.addr : Nat := 0x10004
def MBX_DOORBELL.SLOT : Fld := ⟨MBX_DOORBELL.addr, 0, 4⟩

def MBX_SLOT_STATE0.addr : Nat := 0x10008

def MBX_SLOT_STATE1.addr : Nat := 0x1000C

def MBX_SLOT_FREE.addr : Nat := 0x10010
def MBX_SLOT_FREE.FREE : Fld := ⟨MBX_SLOT_FREE.addr, 0, 16⟩

def MBX_CPL_PROD.addr : Nat := 0x10014
def MBX_CPL_PROD.WRAP : Fld := ⟨MBX_CPL_PROD.addr, 6, 1⟩
def MBX_CPL_PROD.INDEX : Fld := ⟨MBX_CPL_PROD.addr, 0, 6⟩

def MBX_CPL_CONS.addr : Nat := 0x10018
def MBX_CPL_CONS.WRAP : Fld := ⟨MBX_CPL_CONS.addr, 6, 1⟩
def MBX_CPL_CONS.INDEX : Fld := ⟨MBX_CPL_CONS.addr, 0, 6⟩

def MBX_MOD_CFG.addr : Nat := 0x1001C
def MBX_MOD_CFG.COUNT : Fld := ⟨MBX_MOD_CFG.addr, 16, 7⟩
def MBX_MOD_CFG.TIME : Fld := ⟨MBX_MOD_CFG.addr, 0, 10⟩

def MBX_HOST_SLEEP.addr : Nat := 0x10020
def MBX_HOST_SLEEP.SLEEP : Fld := ⟨MBX_HOST_SLEEP.addr, 0, 1⟩

def MBX_ERR.addr : Nat := 0x10024
def MBX_ERR.DB_BUSY : Fld := ⟨MBX_ERR.addr, 24, 8⟩
def MBX_ERR.SLOT_WRITE : Fld := ⟨MBX_ERR.addr, 8, 8⟩
def MBX_ERR.FREE_ERR : Fld := ⟨MBX_ERR.addr, 0, 8⟩

/-! Registers of spec/14_fleyth_network. -/

def FLY_STATUS.addr : Nat := 0xC0000
def FLY_STATUS.ADDR_VALID : Fld := ⟨FLY_STATUS.addr, 31, 1⟩
def FLY_STATUS.MANAGER : Fld := ⟨FLY_STATUS.addr, 30, 1⟩
def FLY_STATUS.DISC_RUN : Fld := ⟨FLY_STATUS.addr, 29, 1⟩
def FLY_STATUS.ADDR : Fld := ⟨FLY_STATUS.addr, 0, 20⟩

def FLY_RANGE.addr : Nat := 0xC0004
def FLY_RANGE.SIZE : Fld := ⟨FLY_RANGE.addr, 0, 21⟩

def FLY_EPOCH.addr : Nat := 0xC0008
def FLY_EPOCH.EPOCH : Fld := ⟨FLY_EPOCH.addr, 0, 16⟩

def FLY_PORT_CFG.addr : Nat := 0xC000C
def FLY_PORT_CFG.PRIV_CAP : Fld := ⟨FLY_PORT_CFG.addr, 16, 2⟩
def FLY_PORT_CFG.EN : Fld := ⟨FLY_PORT_CFG.addr, 0, 10⟩

def FLY_PORT_STATUS.addr : Nat := 0xC0010
def FLY_PORT_STATUS.LINK_UP : Fld := ⟨FLY_PORT_STATUS.addr, 0, 10⟩

def FLY_PORT_ROLE.addr : Nat := 0xC0014
def FLY_PORT_ROLE.ROLE (p : Nat) : Fld := ⟨FLY_PORT_ROLE.addr, 2 * p, 2⟩

def FLY_WAKE_CFG.addr : Nat := 0xC0018
def FLY_WAKE_CFG.ADDR_WAKE : Fld := ⟨FLY_WAKE_CFG.addr, 17, 1⟩
def FLY_WAKE_CFG.FWD_WAKE : Fld := ⟨FLY_WAKE_CFG.addr, 16, 1⟩
def FLY_WAKE_CFG.ACT_WAKE : Fld := ⟨FLY_WAKE_CFG.addr, 0, 10⟩

def FLY_WAKE_CAUSE.addr : Nat := 0xC001C
def FLY_WAKE_CAUSE.ADDR : Fld := ⟨FLY_WAKE_CAUSE.addr, 16, 1⟩
def FLY_WAKE_CAUSE.PORT : Fld := ⟨FLY_WAKE_CAUSE.addr, 0, 10⟩

def FLY_CNT_FWD.addr : Nat := 0xC0020
def FLY_CNT_FWD.FWD : Fld := ⟨FLY_CNT_FWD.addr, 16, 16⟩
def FLY_CNT_FWD.LOCAL : Fld := ⟨FLY_CNT_FWD.addr, 0, 16⟩

def FLY_CNT_DROP.addr : Nat := 0xC0024
def FLY_CNT_DROP.BAD : Fld := ⟨FLY_CNT_DROP.addr, 24, 8⟩
def FLY_CNT_DROP.QUEUE : Fld := ⟨FLY_CNT_DROP.addr, 16, 8⟩
def FLY_CNT_DROP.NO_ROUTE : Fld := ⟨FLY_CNT_DROP.addr, 8, 8⟩
def FLY_CNT_DROP.NO_ADDR : Fld := ⟨FLY_CNT_DROP.addr, 0, 8⟩

def FLY_ROUTE_BASE.addr (i : Nat) : Nat := 0xC0100 + 0x8 * i
def FLY_ROUTE_BASE.VALID (i : Nat) : Fld := ⟨FLY_ROUTE_BASE.addr i, 31, 1⟩
def FLY_ROUTE_BASE.BASE (i : Nat) : Fld := ⟨FLY_ROUTE_BASE.addr i, 0, 20⟩

def FLY_ROUTE_SIZE.addr (i : Nat) : Nat := 0xC0104 + 0x8 * i
def FLY_ROUTE_SIZE.SIZE (i : Nat) : Fld := ⟨FLY_ROUTE_SIZE.addr i, 0, 21⟩

/-! Registers of spec/15_memories_ecc. -/

def ECC_STATUS.addr : Nat := 0xB0000
def ECC_STATUS.OVF : Fld := ⟨ECC_STATUS.addr, 24, 3⟩
def ECC_STATUS.LVL2 : Fld := ⟨ECC_STATUS.addr, 16, 8⟩
def ECC_STATUS.LVL1 : Fld := ⟨ECC_STATUS.addr, 8, 8⟩
def ECC_STATUS.LVL0 : Fld := ⟨ECC_STATUS.addr, 0, 8⟩

def ECC_BUCKET_CFG.addr (i : Nat) : Nat := 0xB0010 + 0x4 * i
def ECC_BUCKET_CFG.THRESH (i : Nat) : Fld := ⟨ECC_BUCKET_CFG.addr i, 16, 16⟩
def ECC_BUCKET_CFG.LEAK (i : Nat) : Fld := ⟨ECC_BUCKET_CFG.addr i, 8, 8⟩
def ECC_BUCKET_CFG.FILL (i : Nat) : Fld := ⟨ECC_BUCKET_CFG.addr i, 0, 8⟩

def ECC_SCRUB_CFG.addr : Nat := 0xB0020
def ECC_SCRUB_CFG.DIS : Fld := ⟨ECC_SCRUB_CFG.addr, 31, 1⟩
def ECC_SCRUB_CFG.INTERVAL : Fld := ⟨ECC_SCRUB_CFG.addr, 0, 16⟩

def ECC_LOG_CTRL.addr : Nat := 0xB0024
def ECC_LOG_CTRL.LOST : Fld := ⟨ECC_LOG_CTRL.addr, 16, 16⟩
def ECC_LOG_CTRL.LOG_LIGHT : Fld := ⟨ECC_LOG_CTRL.addr, 0, 1⟩

def ECC_LOG_FREE.addr : Nat := 0xB0028
def ECC_LOG_FREE.FREE : Fld := ⟨ECC_LOG_FREE.addr, 0, 32⟩

def ECC_LOG0.addr (i : Nat) : Nat := 0xB0100 + 0x8 * i
def ECC_LOG0.SRAM (i : Nat) : Fld := ⟨ECC_LOG0.addr i, 25, 7⟩
def ECC_LOG0.KIND (i : Nat) : Fld := ⟨ECC_LOG0.addr i, 23, 2⟩
def ECC_LOG0.GRANULE (i : Nat) : Fld := ⟨ECC_LOG0.addr i, 0, 21⟩

def ECC_LOG1.addr (i : Nat) : Nat := 0xB0104 + 0x8 * i
def ECC_LOG1.COUNT (i : Nat) : Fld := ⟨ECC_LOG1.addr i, 16, 16⟩
def ECC_LOG1.BIT (i : Nat) : Fld := ⟨ECC_LOG1.addr i, 8, 8⟩

def ECC_TEST_CTRL.addr : Nat := 0xB0200
def ECC_TEST_CTRL.REJ : Fld := ⟨ECC_TEST_CTRL.addr, 2, 1⟩
def ECC_TEST_CTRL.RAW_READ : Fld := ⟨ECC_TEST_CTRL.addr, 1, 1⟩
def ECC_TEST_CTRL.COMMIT : Fld := ⟨ECC_TEST_CTRL.addr, 0, 1⟩

def ECC_TEST_ADDR.addr : Nat := 0xB0204
def ECC_TEST_ADDR.SRAM : Fld := ⟨ECC_TEST_ADDR.addr, 25, 7⟩
def ECC_TEST_ADDR.GRANULE : Fld := ⟨ECC_TEST_ADDR.addr, 0, 21⟩

def ECC_TEST_DATA_LO.addr : Nat := 0xB0208
def ECC_TEST_DATA_LO.WORD : Fld := ⟨ECC_TEST_DATA_LO.addr, 0, 32⟩

def ECC_TEST_DATA_HI.addr : Nat := 0xB020C
def ECC_TEST_DATA_HI.WORD : Fld := ⟨ECC_TEST_DATA_HI.addr, 0, 32⟩

def ECC_TEST_CHECK.addr : Nat := 0xB0210
def ECC_TEST_CHECK.CHECK : Fld := ⟨ECC_TEST_CHECK.addr, 0, 16⟩

def ECC_TEST_FLIP_LO.addr : Nat := 0xB0214
def ECC_TEST_FLIP_LO.WORD : Fld := ⟨ECC_TEST_FLIP_LO.addr, 0, 32⟩

def ECC_TEST_FLIP_HI.addr : Nat := 0xB0218
def ECC_TEST_FLIP_HI.WORD : Fld := ⟨ECC_TEST_FLIP_HI.addr, 0, 32⟩

def ECC_TEST_FLIP_CHK.addr : Nat := 0xB021C
def ECC_TEST_FLIP_CHK.CHECK : Fld := ⟨ECC_TEST_FLIP_CHK.addr, 0, 16⟩

def ECC_REPAIR_STATUS.addr (i : Nat) : Nat := 0xB0300 + 0x4 * i
def ECC_REPAIR_STATUS.WORD (i : Nat) : Fld := ⟨ECC_REPAIR_STATUS.addr i, 0, 32⟩

/-! Registers of spec/16_dma. -/

def DMA_GLB_STATUS.addr : Nat := 0xA0000
def DMA_GLB_STATUS.BUSY : Fld := ⟨DMA_GLB_STATUS.addr, 0, 16⟩

def DMA_SWREQ.addr : Nat := 0xA0004
def DMA_SWREQ.REQ : Fld := ⟨DMA_SWREQ.addr, 0, 8⟩

def DMA_SRC.addr (i : Nat) : Nat := 0xA0100 + 0x40 * i
def DMA_SRC.ADDR (i : Nat) : Fld := ⟨DMA_SRC.addr i, 0, 24⟩

def DMA_DST.addr (i : Nat) : Nat := 0xA0104 + 0x40 * i
def DMA_DST.ADDR (i : Nat) : Fld := ⟨DMA_DST.addr i, 0, 24⟩

def DMA_CNT.addr (i : Nat) : Nat := 0xA0108 + 0x40 * i
def DMA_CNT.CNT (i : Nat) : Fld := ⟨DMA_CNT.addr i, 0, 19⟩

def DMA_CFG.addr (i : Nat) : Nat := 0xA010C + 0x40 * i
def DMA_CFG.BURST (i : Nat) : Fld := ⟨DMA_CFG.addr i, 24, 6⟩
def DMA_CFG.REQ (i : Nat) : Fld := ⟨DMA_CFG.addr i, 16, 6⟩
def DMA_CFG.PRIO (i : Nat) : Fld := ⟨DMA_CFG.addr i, 12, 2⟩
def DMA_CFG.XFORM (i : Nat) : Fld := ⟨DMA_CFG.addr i, 8, 3⟩
def DMA_CFG.DST_FIX (i : Nat) : Fld := ⟨DMA_CFG.addr i, 5, 1⟩
def DMA_CFG.SRC_FIX (i : Nat) : Fld := ⟨DMA_CFG.addr i, 4, 1⟩
def DMA_CFG.IRQ_HO (i : Nat) : Fld := ⟨DMA_CFG.addr i, 1, 1⟩
def DMA_CFG.IRQ_DONE (i : Nat) : Fld := ⟨DMA_CFG.addr i, 0, 1⟩

def DMA_SH_SRC.addr (i : Nat) : Nat := 0xA0110 + 0x40 * i
def DMA_SH_SRC.ADDR (i : Nat) : Fld := ⟨DMA_SH_SRC.addr i, 0, 24⟩

def DMA_SH_DST.addr (i : Nat) : Nat := 0xA0114 + 0x40 * i
def DMA_SH_DST.ADDR (i : Nat) : Fld := ⟨DMA_SH_DST.addr i, 0, 24⟩

def DMA_SH_CNT.addr (i : Nat) : Nat := 0xA0118 + 0x40 * i
def DMA_SH_CNT.CNT (i : Nat) : Fld := ⟨DMA_SH_CNT.addr i, 0, 19⟩

def DMA_SH_CFG.addr (i : Nat) : Nat := 0xA011C + 0x40 * i
def DMA_SH_CFG.BURST (i : Nat) : Fld := ⟨DMA_SH_CFG.addr i, 24, 6⟩
def DMA_SH_CFG.REQ (i : Nat) : Fld := ⟨DMA_SH_CFG.addr i, 16, 6⟩
def DMA_SH_CFG.PRIO (i : Nat) : Fld := ⟨DMA_SH_CFG.addr i, 12, 2⟩
def DMA_SH_CFG.XFORM (i : Nat) : Fld := ⟨DMA_SH_CFG.addr i, 8, 3⟩
def DMA_SH_CFG.DST_FIX (i : Nat) : Fld := ⟨DMA_SH_CFG.addr i, 5, 1⟩
def DMA_SH_CFG.SRC_FIX (i : Nat) : Fld := ⟨DMA_SH_CFG.addr i, 4, 1⟩
def DMA_SH_CFG.IRQ_HO (i : Nat) : Fld := ⟨DMA_SH_CFG.addr i, 1, 1⟩
def DMA_SH_CFG.IRQ_DONE (i : Nat) : Fld := ⟨DMA_SH_CFG.addr i, 0, 1⟩

def DMA_CTRL.addr (i : Nat) : Nat := 0xA0120 + 0x40 * i
def DMA_CTRL.COMMIT (i : Nat) : Fld := ⟨DMA_CTRL.addr i, 2, 1⟩
def DMA_CTRL.ABORT (i : Nat) : Fld := ⟨DMA_CTRL.addr i, 1, 1⟩
def DMA_CTRL.START (i : Nat) : Fld := ⟨DMA_CTRL.addr i, 0, 1⟩

def DMA_STATUS.addr (i : Nat) : Nat := 0xA0124 + 0x40 * i
def DMA_STATUS.STATE (i : Nat) : Fld := ⟨DMA_STATUS.addr i, 29, 3⟩
def DMA_STATUS.ERR (i : Nat) : Fld := ⟨DMA_STATUS.addr i, 25, 4⟩
def DMA_STATUS.WR_IGN (i : Nat) : Fld := ⟨DMA_STATUS.addr i, 22, 1⟩
def DMA_STATUS.REQ_OVR (i : Nat) : Fld := ⟨DMA_STATUS.addr i, 21, 1⟩
def DMA_STATUS.REMAIN (i : Nat) : Fld := ⟨DMA_STATUS.addr i, 0, 19⟩

def DMA_ERR_ADDR.addr (i : Nat) : Nat := 0xA0128 + 0x40 * i
def DMA_ERR_ADDR.ADDR (i : Nat) : Fld := ⟨DMA_ERR_ADDR.addr i, 0, 24⟩

/-! Registers of spec/17_housekeeping. -/

def HKA_CTRL.addr : Nat := 0x80000
def HKA_CTRL.EN : Fld := ⟨HKA_CTRL.addr, 0, 1⟩

def HKA_STATUS.addr : Nat := 0x80004
def HKA_STATUS.CFG_ERR : Fld := ⟨HKA_STATUS.addr, 10, 1⟩
def HKA_STATUS.URG_OVR : Fld := ⟨HKA_STATUS.addr, 9, 1⟩
def HKA_STATUS.SCAN_OVR : Fld := ⟨HKA_STATUS.addr, 8, 1⟩
def HKA_STATUS.CONV : Fld := ⟨HKA_STATUS.addr, 2, 1⟩
def HKA_STATUS.URG_BUSY : Fld := ⟨HKA_STATUS.addr, 1, 1⟩
def HKA_STATUS.SCAN_BUSY : Fld := ⟨HKA_STATUS.addr, 0, 1⟩

def HKA_SWTRIG.addr : Nat := 0x80008
def HKA_SWTRIG.URG : Fld := ⟨HKA_SWTRIG.addr, 1, 1⟩
def HKA_SWTRIG.SCAN : Fld := ⟨HKA_SWTRIG.addr, 0, 1⟩

def HKA_LIST_LEN.addr : Nat := 0x8000C
def HKA_LIST_LEN.URG_LAST : Fld := ⟨HKA_LIST_LEN.addr, 8, 2⟩
def HKA_LIST_LEN.SCAN_LAST : Fld := ⟨HKA_LIST_LEN.addr, 0, 4⟩

def HKA_TIMER.addr : Nat := 0x80010
def HKA_TIMER.PERIOD : Fld := ⟨HKA_TIMER.addr, 0, 24⟩

def HKA_SCAN_TRIG.addr : Nat := 0x80014
def HKA_SCAN_TRIG.DELAY : Fld := ⟨HKA_SCAN_TRIG.addr, 16, 16⟩
def HKA_SCAN_TRIG.EDGE : Fld := ⟨HKA_SCAN_TRIG.addr, 8, 2⟩
def HKA_SCAN_TRIG.PWM_EVT : Fld := ⟨HKA_SCAN_TRIG.addr, 6, 1⟩
def HKA_SCAN_TRIG.PWM_CH : Fld := ⟨HKA_SCAN_TRIG.addr, 4, 2⟩
def HKA_SCAN_TRIG.SRC : Fld := ⟨HKA_SCAN_TRIG.addr, 0, 3⟩

def HKA_URG_TRIG.addr : Nat := 0x80018
def HKA_URG_TRIG.DELAY : Fld := ⟨HKA_URG_TRIG.addr, 16, 16⟩
def HKA_URG_TRIG.EDGE : Fld := ⟨HKA_URG_TRIG.addr, 8, 2⟩
def HKA_URG_TRIG.PWM_EVT : Fld := ⟨HKA_URG_TRIG.addr, 6, 1⟩
def HKA_URG_TRIG.PWM_CH : Fld := ⟨HKA_URG_TRIG.addr, 4, 2⟩
def HKA_URG_TRIG.SRC : Fld := ⟨HKA_URG_TRIG.addr, 0, 3⟩

def HKA_SCAN_ENTRY.addr (i : Nat) : Nat := 0x80040 + 0x4 * i
def HKA_SCAN_ENTRY.FLT (i : Nat) : Fld := ⟨HKA_SCAN_ENTRY.addr i, 16, 1⟩
def HKA_SCAN_ENTRY.SHIFT (i : Nat) : Fld := ⟨HKA_SCAN_ENTRY.addr i, 12, 4⟩
def HKA_SCAN_ENTRY.AVG (i : Nat) : Fld := ⟨HKA_SCAN_ENTRY.addr i, 8, 4⟩
def HKA_SCAN_ENTRY.CH (i : Nat) : Fld := ⟨HKA_SCAN_ENTRY.addr i, 0, 5⟩

def HKA_URG_ENTRY.addr (i : Nat) : Nat := 0x80080 + 0x4 * i
def HKA_URG_ENTRY.FLT (i : Nat) : Fld := ⟨HKA_URG_ENTRY.addr i, 16, 1⟩
def HKA_URG_ENTRY.SHIFT (i : Nat) : Fld := ⟨HKA_URG_ENTRY.addr i, 12, 4⟩
def HKA_URG_ENTRY.AVG (i : Nat) : Fld := ⟨HKA_URG_ENTRY.addr i, 8, 4⟩
def HKA_URG_ENTRY.CH (i : Nat) : Fld := ⟨HKA_URG_ENTRY.addr i, 0, 5⟩

def HKA_SCAN_RES.addr (i : Nat) : Nat := 0x800C0 + 0x4 * i
def HKA_SCAN_RES.NEW (i : Nat) : Fld := ⟨HKA_SCAN_RES.addr i, 31, 1⟩
def HKA_SCAN_RES.LAG (i : Nat) : Fld := ⟨HKA_SCAN_RES.addr i, 21, 7⟩
def HKA_SCAN_RES.CH (i : Nat) : Fld := ⟨HKA_SCAN_RES.addr i, 16, 5⟩
def HKA_SCAN_RES.VALUE (i : Nat) : Fld := ⟨HKA_SCAN_RES.addr i, 0, 16⟩

def HKA_URG_RES.addr (i : Nat) : Nat := 0x80100 + 0x4 * i
def HKA_URG_RES.NEW (i : Nat) : Fld := ⟨HKA_URG_RES.addr i, 31, 1⟩
def HKA_URG_RES.LAG (i : Nat) : Fld := ⟨HKA_URG_RES.addr i, 21, 7⟩
def HKA_URG_RES.CH (i : Nat) : Fld := ⟨HKA_URG_RES.addr i, 16, 5⟩
def HKA_URG_RES.VALUE (i : Nat) : Fld := ⟨HKA_URG_RES.addr i, 0, 16⟩

def HKA_PWM_CFG.addr (i : Nat) : Nat := 0x80200 + 0x10 * i
def HKA_PWM_CFG.DEAD (i : Nat) : Fld := ⟨HKA_PWM_CFG.addr i, 8, 8⟩
def HKA_PWM_CFG.PAIR (i : Nat) : Fld := ⟨HKA_PWM_CFG.addr i, 2, 1⟩
def HKA_PWM_CFG.POL (i : Nat) : Fld := ⟨HKA_PWM_CFG.addr i, 1, 1⟩
def HKA_PWM_CFG.EN (i : Nat) : Fld := ⟨HKA_PWM_CFG.addr i, 0, 1⟩

def HKA_PWM_PERIOD.addr (i : Nat) : Nat := 0x80204 + 0x10 * i
def HKA_PWM_PERIOD.PERIOD (i : Nat) : Fld := ⟨HKA_PWM_PERIOD.addr i, 0, 16⟩

def HKA_PWM_DUTY.addr (i : Nat) : Nat := 0x80208 + 0x10 * i
def HKA_PWM_DUTY.DUTY (i : Nat) : Fld := ⟨HKA_PWM_DUTY.addr i, 0, 17⟩

def HKA_PWM_CNT.addr (i : Nat) : Nat := 0x8020C + 0x10 * i
def HKA_PWM_CNT.CNT (i : Nat) : Fld := ⟨HKA_PWM_CNT.addr i, 0, 16⟩

def FLT_RESTART.addr : Nat := 0x90000
def FLT_RESTART.CH : Fld := ⟨FLT_RESTART.addr, 0, 31⟩

def FLT_DMA_MAP.addr (i : Nat) : Nat := 0x90010 + 0x4 * i
def FLT_DMA_MAP.EN (i j : Nat) : Fld := ⟨FLT_DMA_MAP.addr i, 8 * j + 7, 1⟩
def FLT_DMA_MAP.CH (i j : Nat) : Fld := ⟨FLT_DMA_MAP.addr i, 8 * j, 5⟩

def FLT_CFG.addr (i : Nat) : Nat := 0x90100 + 0x10 * i
def FLT_CFG.STEP_THR (i : Nat) : Fld := ⟨FLT_CFG.addr i, 16, 12⟩
def FLT_CFG.DEC (i : Nat) : Fld := ⟨FLT_CFG.addr i, 2, 4⟩
def FLT_CFG.MINPH (i : Nat) : Fld := ⟨FLT_CFG.addr i, 1, 1⟩
def FLT_CFG.EN (i : Nat) : Fld := ⟨FLT_CFG.addr i, 0, 1⟩

def FLT_CARDED.addr (i : Nat) : Nat := 0x90104 + 0x10 * i
def FLT_CARDED.VALID (i : Nat) : Fld := ⟨FLT_CARDED.addr i, 31, 1⟩
def FLT_CARDED.VALUE (i : Nat) : Fld := ⟨FLT_CARDED.addr i, 0, 16⟩

def FLT_COMBED.addr (i : Nat) : Nat := 0x90108 + 0x10 * i
def FLT_COMBED.VALID (i : Nat) : Fld := ⟨FLT_COMBED.addr i, 31, 1⟩
def FLT_COMBED.NEW (i : Nat) : Fld := ⟨FLT_COMBED.addr i, 30, 1⟩
def FLT_COMBED.SAT (i : Nat) : Fld := ⟨FLT_COMBED.addr i, 29, 1⟩
def FLT_COMBED.VALUE (i : Nat) : Fld := ⟨FLT_COMBED.addr i, 0, 16⟩

/-! Registers of spec/18_power_thermal. -/

def PMU_PD_STATE0.addr : Nat := 0x30000

def PMU_PD_STATE1.addr : Nat := 0x30004

def PMU_GRP_REQ.addr : Nat := 0x30008
def PMU_GRP_REQ.TARGET : Fld := ⟨PMU_GRP_REQ.addr, 24, 2⟩
def PMU_GRP_REQ.MASK : Fld := ⟨PMU_GRP_REQ.addr, 0, 22⟩

def PMU_GRP_STATUS.addr : Nat := 0x3000C
def PMU_GRP_STATUS.BUSY : Fld := ⟨PMU_GRP_STATUS.addr, 31, 1⟩
def PMU_GRP_STATUS.PHASE : Fld := ⟨PMU_GRP_STATUS.addr, 28, 3⟩
def PMU_GRP_STATUS.RUNG : Fld := ⟨PMU_GRP_STATUS.addr, 25, 3⟩
def PMU_GRP_STATUS.RESULT : Fld := ⟨PMU_GRP_STATUS.addr, 23, 2⟩
def PMU_GRP_STATUS.REFUSER : Fld := ⟨PMU_GRP_STATUS.addr, 18, 5⟩
def PMU_GRP_STATUS.REQUESTER : Fld := ⟨PMU_GRP_STATUS.addr, 16, 2⟩

def PMU_LADDER.addr : Nat := 0x30010
def PMU_LADDER.RDY_LOG : Fld := ⟨PMU_LADDER.addr, 3, 1⟩
def PMU_LADDER.RDY_MEM : Fld := ⟨PMU_LADDER.addr, 2, 1⟩
def PMU_LADDER.RDY_OSC : Fld := ⟨PMU_LADDER.addr, 1, 1⟩
def PMU_LADDER.RDY_REG : Fld := ⟨PMU_LADDER.addr, 0, 1⟩

def PMU_RETN_LOST.addr : Nat := 0x30014
def PMU_RETN_LOST.LOST : Fld := ⟨PMU_RETN_LOST.addr, 0, 22⟩

def PMU_LP_CTRL.addr : Nat := 0x30018
def PMU_LP_CTRL.KEY : Fld := ⟨PMU_LP_CTRL.addr, 16, 16⟩
def PMU_LP_CTRL.ENTER : Fld := ⟨PMU_LP_CTRL.addr, 0, 1⟩

def PMU_WAKE_REQ.addr : Nat := 0x3001C
def PMU_WAKE_REQ.KEY : Fld := ⟨PMU_WAKE_REQ.addr, 16, 16⟩
def PMU_WAKE_REQ.WAKE : Fld := ⟨PMU_WAKE_REQ.addr, 0, 1⟩

def PMU_WAKE_CAUSE.addr : Nat := 0x30020
def PMU_WAKE_CAUSE.SPI : Fld := ⟨PMU_WAKE_CAUSE.addr, 1, 1⟩
def PMU_WAKE_CAUSE.FLY : Fld := ⟨PMU_WAKE_CAUSE.addr, 0, 1⟩

def THM_STATUS.addr : Nat := 0x40000
def THM_STATUS.TRIP : Fld := ⟨THM_STATUS.addr, 31, 1⟩
def THM_STATUS.FAST : Fld := ⟨THM_STATUS.addr, 30, 1⟩
def THM_STATUS.WARN : Fld := ⟨THM_STATUS.addr, 29, 1⟩
def THM_STATUS.LEVEL : Fld := ⟨THM_STATUS.addr, 27, 2⟩
def THM_STATUS.BROKEN : Fld := ⟨THM_STATUS.addr, 0, 14⟩

def THM_REGION.addr : Nat := 0x40004
def THM_REGION.CTRL : Fld := ⟨THM_REGION.addr, 8, 2⟩
def THM_REGION.HOST : Fld := ⟨THM_REGION.addr, 6, 2⟩
def THM_REGION.CORE : Fld := ⟨THM_REGION.addr, 4, 2⟩
def THM_REGION.LINE_B : Fld := ⟨THM_REGION.addr, 2, 2⟩
def THM_REGION.LINE_A : Fld := ⟨THM_REGION.addr, 0, 2⟩

def THM_THRESH.addr : Nat := 0x40008
def THM_THRESH.CRIT : Fld := ⟨THM_THRESH.addr, 16, 8⟩
def THM_THRESH.THROT : Fld := ⟨THM_THRESH.addr, 8, 8⟩
def THM_THRESH.WARN : Fld := ⟨THM_THRESH.addr, 0, 8⟩

def THM_TRIP_INFO.addr : Nat := 0x4000C
def THM_TRIP_INFO.VALID : Fld := ⟨THM_TRIP_INFO.addr, 31, 1⟩
def THM_TRIP_INFO.BY_BROKEN : Fld := ⟨THM_TRIP_INFO.addr, 30, 1⟩
def THM_TRIP_INFO.REGION : Fld := ⟨THM_TRIP_INFO.addr, 27, 3⟩
def THM_TRIP_INFO.SENSOR : Fld := ⟨THM_TRIP_INFO.addr, 16, 4⟩
def THM_TRIP_INFO.TEMP : Fld := ⟨THM_TRIP_INFO.addr, 0, 16⟩

def THM_SENSOR.addr (i : Nat) : Nat := 0x40040 + 0x4 * i
def THM_SENSOR.VALID (i : Nat) : Fld := ⟨THM_SENSOR.addr i, 31, 1⟩
def THM_SENSOR.BROKEN (i : Nat) : Fld := ⟨THM_SENSOR.addr i, 30, 1⟩
def THM_SENSOR.CAUSE (i : Nat) : Fld := ⟨THM_SENSOR.addr i, 28, 2⟩
def THM_SENSOR.TEMP (i : Nat) : Fld := ⟨THM_SENSOR.addr i, 0, 16⟩

/-! Registers of spec/19_counters_patterns. -/

def CNT_FREEZE.addr : Nat := 0x70000
def CNT_FREEZE.FROZEN : Fld := ⟨CNT_FREEZE.addr, 2, 1⟩
def CNT_FREEZE.RELEASE : Fld := ⟨CNT_FREEZE.addr, 1, 1⟩
def CNT_FREEZE.FREEZE : Fld := ⟨CNT_FREEZE.addr, 0, 1⟩

def CNT_FREEZE_TIME_LO.addr : Nat := 0x70004
def CNT_FREEZE_TIME_LO.TIME_LO : Fld := ⟨CNT_FREEZE_TIME_LO.addr, 0, 32⟩

def CNT_FREEZE_TIME_HI.addr : Nat := 0x70008
def CNT_FREEZE_TIME_HI.TIME_HI : Fld := ⟨CNT_FREEZE_TIME_HI.addr, 0, 16⟩

def CNT_FREEZE_LATE.addr : Nat := 0x7000C
def CNT_FREEZE_LATE.LATE : Fld := ⟨CNT_FREEZE_LATE.addr, 0, 22⟩

def CNT_BW_CFG.addr : Nat := 0x70040
def CNT_BW_CFG.EN : Fld := ⟨CNT_BW_CFG.addr, 31, 1⟩
def CNT_BW_CFG.IRQ : Fld := ⟨CNT_BW_CFG.addr, 30, 1⟩
def CNT_BW_CFG.WINDOW : Fld := ⟨CNT_BW_CFG.addr, 0, 27⟩

def CNT_BW_SEQ.addr : Nat := 0x70044
def CNT_BW_SEQ.SEQ : Fld := ⟨CNT_BW_SEQ.addr, 0, 32⟩

def CNT_BW_RX.addr (i : Nat) : Nat := 0x70100 + 0x8 * i
def CNT_BW_RX.BLK16 (i : Nat) : Fld := ⟨CNT_BW_RX.addr i, 0, 32⟩

def CNT_BW_TX.addr (i : Nat) : Nat := 0x70104 + 0x8 * i
def CNT_BW_TX.BLK16 (i : Nat) : Fld := ⟨CNT_BW_TX.addr i, 0, 32⟩

def CNT_BW_PEAK_RX.addr (i : Nat) : Nat := 0x70200 + 0x8 * i
def CNT_BW_PEAK_RX.BLK16 (i : Nat) : Fld := ⟨CNT_BW_PEAK_RX.addr i, 0, 32⟩

def CNT_BW_PEAK_TX.addr (i : Nat) : Nat := 0x70204 + 0x8 * i
def CNT_BW_PEAK_TX.BLK16 (i : Nat) : Fld := ⟨CNT_BW_PEAK_TX.addr i, 0, 32⟩

/-! Registers of spec/20_protection_lifecycle_doff. -/

def GRD_ENTRY0.addr (i : Nat) : Nat := 0x60000 + 0x10 * i
def GRD_ENTRY0.WORD (i : Nat) : Fld := ⟨GRD_ENTRY0.addr i, 0, 32⟩

def GRD_ENTRY1.addr (i : Nat) : Nat := 0x60004 + 0x10 * i
def GRD_ENTRY1.WORD (i : Nat) : Fld := ⟨GRD_ENTRY1.addr i, 0, 32⟩

def GRD_ENTRY2.addr (i : Nat) : Nat := 0x60008 + 0x10 * i
def GRD_ENTRY2.WORD (i : Nat) : Fld := ⟨GRD_ENTRY2.addr i, 0, 32⟩

def GRD_LC.addr : Nat := 0x60400
def GRD_LC.KEY_OK : Fld := ⟨GRD_LC.addr, 31, 1⟩
def GRD_LC.DBG_ALLOW : Fld := ⟨GRD_LC.addr, 30, 1⟩
def GRD_LC.DEBUG_IMAGE : Fld := ⟨GRD_LC.addr, 29, 1⟩
def GRD_LC.STATE : Fld := ⟨GRD_LC.addr, 0, 3⟩

def GRD_SESSION.addr : Nat := 0x60404
def GRD_SESSION.NONCE_VALID : Fld := ⟨GRD_SESSION.addr, 17, 1⟩
def GRD_SESSION.LOCKOUT : Fld := ⟨GRD_SESSION.addr, 16, 1⟩
def GRD_SESSION.FAIL_CNT : Fld := ⟨GRD_SESSION.addr, 8, 8⟩
def GRD_SESSION.BASE : Fld := ⟨GRD_SESSION.addr, 2, 2⟩
def GRD_SESSION.LEVEL : Fld := ⟨GRD_SESSION.addr, 0, 2⟩

def GRD_DOFF_STATUS.addr : Nat := 0x60408
def GRD_DOFF_STATUS.RUNNING : Fld := ⟨GRD_DOFF_STATUS.addr, 31, 1⟩
def GRD_DOFF_STATUS.REC_VALID : Fld := ⟨GRD_DOFF_STATUS.addr, 30, 1⟩
def GRD_DOFF_STATUS.REC_SLOT : Fld := ⟨GRD_DOFF_STATUS.addr, 29, 1⟩
def GRD_DOFF_STATUS.FAILURES : Fld := ⟨GRD_DOFF_STATUS.addr, 8, 8⟩
def GRD_DOFF_STATUS.REPAIRS : Fld := ⟨GRD_DOFF_STATUS.addr, 0, 8⟩

def GRD_DOFF_MARK.addr : Nat := 0x6040C
def GRD_DOFF_MARK.LINE : Fld := ⟨GRD_DOFF_MARK.addr, 16, 9⟩
def GRD_DOFF_MARK.HOST : Fld := ⟨GRD_DOFF_MARK.addr, 0, 16⟩

/-! Registers of spec/21_pins_electrical. -/

def GLB_AVS.addr : Nat := 0x30
def GLB_AVS.OFF_TARGET : Fld := ⟨GLB_AVS.addr, 17, 1⟩
def GLB_AVS.FUSED : Fld := ⟨GLB_AVS.addr, 16, 1⟩
def GLB_AVS.TARGET : Fld := ⟨GLB_AVS.addr, 0, 10⟩

/-- The register table of GLB. -/
def regDescsGlb : List RegDesc :=
  [ /- GLB_ID -/ ⟨0x0, 0x0, 1, 0x640843B0, [(0, 8, .ro), (8, 8, .ro), (16, 16, .ro)]⟩,
    /- GLB_RST_STATUS -/ ⟨0x4, 0x0, 1, 0x1, [(0, 1, .w1c), (1, 1, .w1c), (2, 1, .w1c), (3, 1, .w1c), (4, 1, .w1c), (5, 1, .w1c), (6, 1, .w1c)]⟩,
    /- GLB_RST_CTRL -/ ⟨0x8, 0x0, 1, 0x0, [(0, 1, .wo), (16, 16, .wo)]⟩,
    /- GLB_BOOT_STATUS -/ ⟨0xC, 0x0, 1, 0x0, [(0, 4, .fw), (4, 2, .fw), (6, 1, .fw), (7, 1, .fw), (8, 1, .fw), (9, 1, .fw), (10, 1, .fw), (11, 1, .fw), (12, 1, .fw), (13, 1, .fw), (14, 1, .fw)]⟩,
    /- GLB_SUPPLY_STATUS -/ ⟨0x10, 0x0, 1, 0x0, [(0, 1, .ro), (1, 1, .ro), (2, 1, .ro), (3, 1, .ro), (4, 1, .ro), (5, 1, .ro)]⟩,
    /- GLB_STRAPS -/ ⟨0x14, 0x0, 1, 0x0, [(0, 1, .ro)]⟩,
    /- GLB_FRAY_STATUS -/ ⟨0x20, 0x0, 1, 0x0, [(0, 1, .ro), (1, 1, .ro), (2, 1, .ro), (3, 1, .ro), (4, 1, .ro), (5, 1, .ro), (6, 1, .ro), (7, 1, .ro)]⟩,
    /- GLB_FRAY_HIST -/ ⟨0x24, 0x0, 1, 0x0, [(0, 1, .w1c), (1, 1, .w1c), (2, 1, .w1c), (3, 1, .w1c), (4, 1, .w1c), (5, 1, .w1c), (6, 1, .w1c), (7, 1, .w1c)]⟩,
    /- GLB_AVS -/ ⟨0x30, 0x0, 1, 0x0, [(0, 10, .ro), (16, 1, .ro), (17, 1, .fw)]⟩ ]

/-- The register table of MBX. -/
def regDescsMbx : List RegDesc :=
  [ /- MBX_STATUS -/ ⟨0x0, 0x0, 1, 0x0, [(1, 1, .ro), (2, 1, .ro), (3, 1, .ro), (4, 1, .ro), (8, 7, .ro)]⟩,
    /- MBX_DOORBELL -/ ⟨0x4, 0x0, 1, 0x0, [(0, 4, .wo)]⟩,
    /- MBX_SLOT_STATE0 -/ ⟨0x8, 0x0, 1, 0x0, [(0, 32, .ro)]⟩,
    /- MBX_SLOT_STATE1 -/ ⟨0xC, 0x0, 1, 0x0, [(0, 32, .ro)]⟩,
    /- MBX_SLOT_FREE -/ ⟨0x10, 0x0, 1, 0x0, [(0, 16, .wo)]⟩,
    /- MBX_CPL_PROD -/ ⟨0x14, 0x0, 1, 0x0, [(0, 6, .ro), (6, 1, .ro)]⟩,
    /- MBX_CPL_CONS -/ ⟨0x18, 0x0, 1, 0x0, [(0, 6, .rw), (6, 1, .rw)]⟩,
    /- MBX_MOD_CFG -/ ⟨0x1C, 0x0, 1, 0x10000, [(0, 10, .rw), (16, 7, .rw)]⟩,
    /- MBX_HOST_SLEEP -/ ⟨0x20, 0x0, 1, 0x0, [(0, 1, .rw)]⟩,
    /- MBX_ERR -/ ⟨0x24, 0x0, 1, 0x0, [(0, 8, .rc), (8, 8, .rc), (24, 8, .rc)]⟩ ]

/-- The register table of PMU. -/
def regDescsPmu : List RegDesc :=
  [ /- PMU_PD_STATE0 -/ ⟨0x0, 0x0, 1, 0x0, [(0, 32, .ro)]⟩,
    /- PMU_PD_STATE1 -/ ⟨0x4, 0x0, 1, 0x0, [(0, 32, .ro)]⟩,
    /- PMU_GRP_REQ -/ ⟨0x8, 0x0, 1, 0x0, [(0, 22, .wo), (24, 2, .wo)]⟩,
    /- PMU_GRP_STATUS -/ ⟨0xC, 0x0, 1, 0x0, [(16, 2, .ro), (18, 5, .ro), (23, 2, .ro), (25, 3, .ro), (28, 3, .ro), (31, 1, .ro)]⟩,
    /- PMU_LADDER -/ ⟨0x10, 0x0, 1, 0x0, [(0, 1, .ro), (1, 1, .ro), (2, 1, .ro), (3, 1, .ro)]⟩,
    /- PMU_RETN_LOST -/ ⟨0x14, 0x0, 1, 0x0, [(0, 22, .w1c)]⟩,
    /- PMU_LP_CTRL -/ ⟨0x18, 0x0, 1, 0x0, [(0, 1, .fw), (16, 16, .fw)]⟩,
    /- PMU_WAKE_REQ -/ ⟨0x1C, 0x0, 1, 0x0, [(0, 1, .wo), (16, 16, .wo)]⟩,
    /- PMU_WAKE_CAUSE -/ ⟨0x20, 0x0, 1, 0x0, [(0, 1, .ro), (1, 1, .ro)]⟩ ]

/-- The register table of THM. -/
def regDescsThm : List RegDesc :=
  [ /- THM_STATUS -/ ⟨0x0, 0x0, 1, 0x0, [(0, 14, .ro), (27, 2, .ro), (29, 1, .ro), (30, 1, .ro), (31, 1, .ro)]⟩,
    /- THM_REGION -/ ⟨0x4, 0x0, 1, 0x0, [(0, 2, .ro), (2, 2, .ro), (4, 2, .ro), (6, 2, .ro), (8, 2, .ro)]⟩,
    /- THM_THRESH -/ ⟨0x8, 0x0, 1, 0x7D6E69, [(0, 8, .ro), (8, 8, .ro), (16, 8, .ro)]⟩,
    /- THM_TRIP_INFO -/ ⟨0xC, 0x0, 1, 0x0, [(0, 16, .ro), (16, 4, .ro), (27, 3, .ro), (30, 1, .ro), (31, 1, .ro)]⟩,
    /- THM_SENSOR -/ ⟨0x40, 0x4, 14, 0x0, [(0, 16, .ro), (28, 2, .ro), (30, 1, .ro), (31, 1, .ro)]⟩ ]

/-- The register table of CLK. -/
def regDescsClk : List RegDesc :=
  [ /- CLK_WHORL_STATUS -/ ⟨0x0, 0x0, 1, 0x8, [(0, 1, .ro), (1, 1, .ro), (2, 1, .ro), (3, 1, .ro)]⟩,
    /- CLK_HQ_STATUS -/ ⟨0x4, 0x0, 1, 0x0, [(0, 4, .ro), (8, 3, .ro), (11, 3, .ro), (14, 3, .ro), (17, 3, .ro)]⟩ ]

/-- The register table of GRD. -/
def regDescsGrd : List RegDesc :=
  [ /- GRD_DISTAFF -/ ⟨0x800, 0x0, 1, 0x0, [(0, 2, .ro), (4, 1, .w1c), (5, 1, .w1c)]⟩,
    /- GRD_EPOCH -/ ⟨0x804, 0x0, 1, 0x0, [(0, 32, .ro)]⟩,
    /- GRD_CLAIM -/ ⟨0x808, 0x0, 1, 0x0, [(0, 32, .wo)]⟩,
    /- GRD_CLAIM_RESULT -/ ⟨0x80C, 0x0, 1, 0x0, [(0, 3, .ro), (3, 3, .ro)]⟩,
    /- GRD_DISTAFF_CTRL -/ ⟨0x810, 0x0, 1, 0x0, [(0, 1, .wo), (1, 1, .wo), (16, 16, .wo)]⟩,
    /- GRD_SPN_STATUS -/ ⟨0x814, 0x0, 1, 0x0, [(0, 8, .ro), (8, 8, .ro), (24, 1, .ro), (25, 1, .ro), (26, 3, .ro), (29, 3, .ro)]⟩,
    /- GRD_SPN_WDT -/ ⟨0x818, 0x0, 1, 0x1919, [(0, 8, .fw), (8, 8, .fw)]⟩,
    /- GRD_WDT_KICK -/ ⟨0x81C, 0x0, 1, 0x0, []⟩,
    /- GRD_SPN_CTRL -/ ⟨0x820, 0x0, 1, 0x0, [(0, 1, .wo), (1, 1, .wo), (2, 1, .wo), (3, 1, .wo), (16, 16, .wo)]⟩,
    /- GRD_ENTRY0 -/ ⟨0x0, 0x10, 64, 0x0, [(0, 32, .fw)]⟩,
    /- GRD_ENTRY1 -/ ⟨0x4, 0x10, 64, 0x0, [(0, 32, .fw)]⟩,
    /- GRD_ENTRY2 -/ ⟨0x8, 0x10, 64, 0x0, [(0, 32, .fw)]⟩ ]
   ++ [ /- GRD_LC -/ ⟨0x400, 0x0, 1, 0x0, [(0, 3, .ro), (29, 1, .ro), (30, 1, .rw), (31, 1, .ro)]⟩,
    /- GRD_SESSION -/ ⟨0x404, 0x0, 1, 0x5, [(0, 2, .ro), (2, 2, .rw), (8, 8, .ro), (16, 1, .ro), (17, 1, .ro)]⟩,
    /- GRD_DOFF_STATUS -/ ⟨0x408, 0x0, 1, 0x0, [(0, 8, .ro), (8, 8, .ro), (29, 1, .ro), (30, 1, .ro), (31, 1, .ro)]⟩,
    /- GRD_DOFF_MARK -/ ⟨0x40C, 0x0, 1, 0x0, [(0, 16, .ro), (16, 9, .ro)]⟩ ]

/-- The register table of CNT. -/
def regDescsCnt : List RegDesc :=
  [ /- CNT_FREEZE -/ ⟨0x0, 0x0, 1, 0x0, [(0, 1, .w1s), (1, 1, .w1s), (2, 1, .ro)]⟩,
    /- CNT_FREEZE_TIME_LO -/ ⟨0x4, 0x0, 1, 0x0, [(0, 32, .ro)]⟩,
    /- CNT_FREEZE_TIME_HI -/ ⟨0x8, 0x0, 1, 0x0, [(0, 16, .ro)]⟩,
    /- CNT_FREEZE_LATE -/ ⟨0xC, 0x0, 1, 0x0, [(0, 22, .w1c)]⟩,
    /- CNT_BW_CFG -/ ⟨0x40, 0x0, 1, 0x1B0BB, [(0, 27, .rw), (30, 1, .rw), (31, 1, .rw)]⟩,
    /- CNT_BW_SEQ -/ ⟨0x44, 0x0, 1, 0x0, [(0, 32, .ro)]⟩,
    /- CNT_BW_RX -/ ⟨0x100, 0x8, 16, 0x0, [(0, 32, .ro)]⟩,
    /- CNT_BW_TX -/ ⟨0x104, 0x8, 16, 0x0, [(0, 32, .ro)]⟩,
    /- CNT_BW_PEAK_RX -/ ⟨0x200, 0x8, 16, 0x0, [(0, 32, .rc)]⟩,
    /- CNT_BW_PEAK_TX -/ ⟨0x204, 0x8, 16, 0x0, [(0, 32, .rc)]⟩ ]

/-- The register table of HKA. -/
def regDescsHka : List RegDesc :=
  [ /- HKA_CTRL -/ ⟨0x0, 0x0, 1, 0x0, [(0, 1, .rw)]⟩,
    /- HKA_STATUS -/ ⟨0x4, 0x0, 1, 0x0, [(0, 1, .ro), (1, 1, .ro), (2, 1, .ro), (8, 1, .w1c), (9, 1, .w1c), (10, 1, .w1c)]⟩,
    /- HKA_SWTRIG -/ ⟨0x8, 0x0, 1, 0x0, [(0, 1, .w1s), (1, 1, .w1s)]⟩,
    /- HKA_LIST_LEN -/ ⟨0xC, 0x0, 1, 0x0, [(0, 4, .rw), (8, 2, .rw)]⟩,
    /- HKA_TIMER -/ ⟨0x10, 0x0, 1, 0x0, [(0, 24, .rw)]⟩,
    /- HKA_SCAN_TRIG -/ ⟨0x14, 0x0, 1, 0x0, [(0, 3, .rw), (4, 2, .rw), (6, 1, .rw), (8, 2, .rw), (16, 16, .rw)]⟩,
    /- HKA_URG_TRIG -/ ⟨0x18, 0x0, 1, 0x0, [(0, 3, .rw), (4, 2, .rw), (6, 1, .rw), (8, 2, .rw), (16, 16, .rw)]⟩,
    /- HKA_SCAN_ENTRY -/ ⟨0x40, 0x4, 16, 0x0, [(0, 5, .rw), (8, 4, .rw), (12, 4, .rw), (16, 1, .rw)]⟩,
    /- HKA_URG_ENTRY -/ ⟨0x80, 0x4, 4, 0x0, [(0, 5, .rw), (8, 4, .rw), (12, 4, .rw), (16, 1, .rw)]⟩,
    /- HKA_SCAN_RES -/ ⟨0xC0, 0x4, 16, 0x0, [(0, 16, .ro), (16, 5, .ro), (21, 7, .ro), (31, 1, .rc)]⟩,
    /- HKA_URG_RES -/ ⟨0x100, 0x4, 4, 0x0, [(0, 16, .ro), (16, 5, .ro), (21, 7, .ro), (31, 1, .rc)]⟩,
    /- HKA_PWM_CFG -/ ⟨0x200, 0x10, 4, 0x0, [(0, 1, .rw), (1, 1, .rw), (2, 1, .rw), (8, 8, .rw)]⟩ ]
   ++ [ /- HKA_PWM_PERIOD -/ ⟨0x204, 0x10, 4, 0xFFFF, [(0, 16, .rw)]⟩,
    /- HKA_PWM_DUTY -/ ⟨0x208, 0x10, 4, 0x0, [(0, 17, .rw)]⟩,
    /- HKA_PWM_CNT -/ ⟨0x20C, 0x10, 4, 0x0, [(0, 16, .ro)]⟩ ]

/-- The register table of FLT. -/
def regDescsFlt : List RegDesc :=
  [ /- FLT_RESTART -/ ⟨0x0, 0x0, 1, 0x0, [(0, 31, .w1s)]⟩,
    /- FLT_DMA_MAP -/ ⟨0x10, 0x4, 4, 0x0, [(0, 5, .rw), (7, 1, .rw), (8, 5, .rw), (15, 1, .rw), (16, 5, .rw), (23, 1, .rw), (24, 5, .rw), (31, 1, .rw)]⟩,
    /- FLT_CFG -/ ⟨0x100, 0x10, 31, 0x4, [(0, 1, .rw), (1, 1, .rw), (2, 4, .rw), (16, 12, .rw)]⟩,
    /- FLT_CARDED -/ ⟨0x104, 0x10, 31, 0x0, [(0, 16, .ro), (31, 1, .ro)]⟩,
    /- FLT_COMBED -/ ⟨0x108, 0x10, 31, 0x0, [(0, 16, .ro), (29, 1, .w1c), (30, 1, .rc), (31, 1, .ro)]⟩ ]

/-- The register table of DMA. -/
def regDescsDma : List RegDesc :=
  [ /- DMA_GLB_STATUS -/ ⟨0x0, 0x0, 1, 0x0, [(0, 16, .ro)]⟩,
    /- DMA_SWREQ -/ ⟨0x4, 0x0, 1, 0x0, [(0, 8, .wo)]⟩,
    /- DMA_SRC -/ ⟨0x100, 0x40, 16, 0x0, [(0, 24, .rw)]⟩,
    /- DMA_DST -/ ⟨0x104, 0x40, 16, 0x0, [(0, 24, .rw)]⟩,
    /- DMA_CNT -/ ⟨0x108, 0x40, 16, 0x0, [(0, 19, .rw)]⟩,
    /- DMA_CFG -/ ⟨0x10C, 0x40, 16, 0x3F0000, [(0, 1, .rw), (1, 1, .rw), (4, 1, .rw), (5, 1, .rw), (8, 3, .rw), (12, 2, .rw), (16, 6, .rw), (24, 6, .rw)]⟩,
    /- DMA_SH_SRC -/ ⟨0x110, 0x40, 16, 0x0, [(0, 24, .rw)]⟩,
    /- DMA_SH_DST -/ ⟨0x114, 0x40, 16, 0x0, [(0, 24, .rw)]⟩,
    /- DMA_SH_CNT -/ ⟨0x118, 0x40, 16, 0x0, [(0, 19, .rw)]⟩,
    /- DMA_SH_CFG -/ ⟨0x11C, 0x40, 16, 0x0, [(0, 1, .rw), (1, 1, .rw), (4, 1, .rw), (5, 1, .rw), (8, 3, .rw), (12, 2, .rw), (16, 6, .rw), (24, 6, .rw)]⟩,
    /- DMA_CTRL -/ ⟨0x120, 0x40, 16, 0x0, [(0, 1, .w1s), (1, 1, .w1s), (2, 1, .w1s)]⟩,
    /- DMA_STATUS -/ ⟨0x124, 0x40, 16, 0x0, [(0, 19, .ro), (21, 1, .w1c), (22, 1, .w1c), (25, 4, .ro), (29, 3, .ro)]⟩ ]
   ++ [ /- DMA_ERR_ADDR -/ ⟨0x128, 0x40, 16, 0x0, [(0, 24, .ro)]⟩ ]

/-- The register table of ECC. -/
def regDescsEcc : List RegDesc :=
  [ /- ECC_STATUS -/ ⟨0x0, 0x0, 1, 0x0, [(0, 8, .ro), (8, 8, .ro), (16, 8, .ro), (24, 3, .w1c)]⟩,
    /- ECC_BUCKET_CFG -/ ⟨0x10, 0x4, 3, 0x1000110, [(0, 8, .rw), (8, 8, .rw), (16, 16, .rw)]⟩,
    /- ECC_SCRUB_CFG -/ ⟨0x20, 0x0, 1, 0x100, [(0, 16, .rw), (31, 1, .rw)]⟩,
    /- ECC_LOG_CTRL -/ ⟨0x24, 0x0, 1, 0x0, [(0, 1, .rw), (16, 16, .rc)]⟩,
    /- ECC_LOG_FREE -/ ⟨0x28, 0x0, 1, 0x0, [(0, 32, .w1c)]⟩,
    /- ECC_LOG0 -/ ⟨0x100, 0x8, 32, 0x0, [(0, 21, .ro), (23, 2, .ro), (25, 7, .ro)]⟩,
    /- ECC_LOG1 -/ ⟨0x104, 0x8, 32, 0xFF00, [(8, 8, .ro), (16, 16, .ro)]⟩,
    /- ECC_TEST_CTRL -/ ⟨0x200, 0x0, 1, 0x0, [(0, 1, .w1s), (1, 1, .w1s), (2, 1, .ro)]⟩,
    /- ECC_TEST_ADDR -/ ⟨0x204, 0x0, 1, 0x0, [(0, 21, .rw), (25, 7, .rw)]⟩,
    /- ECC_TEST_DATA_LO -/ ⟨0x208, 0x0, 1, 0x0, [(0, 32, .rw)]⟩,
    /- ECC_TEST_DATA_HI -/ ⟨0x20C, 0x0, 1, 0x0, [(0, 32, .rw)]⟩,
    /- ECC_TEST_CHECK -/ ⟨0x210, 0x0, 1, 0x0, [(0, 16, .ro)]⟩ ]
   ++ [ /- ECC_TEST_FLIP_LO -/ ⟨0x214, 0x0, 1, 0x0, [(0, 32, .rw)]⟩,
    /- ECC_TEST_FLIP_HI -/ ⟨0x218, 0x0, 1, 0x0, [(0, 32, .rw)]⟩,
    /- ECC_TEST_FLIP_CHK -/ ⟨0x21C, 0x0, 1, 0x0, [(0, 16, .rw)]⟩,
    /- ECC_REPAIR_STATUS -/ ⟨0x300, 0x4, 4, 0x0, [(0, 32, .ro)]⟩ ]

/-- The register table of FLY. -/
def regDescsFly : List RegDesc :=
  [ /- FLY_STATUS -/ ⟨0x0, 0x0, 1, 0x0, [(0, 20, .ro), (29, 1, .ro), (30, 1, .ro), (31, 1, .ro)]⟩,
    /- FLY_RANGE -/ ⟨0x4, 0x0, 1, 0x0, [(0, 21, .ro)]⟩,
    /- FLY_EPOCH -/ ⟨0x8, 0x0, 1, 0x0, [(0, 16, .ro)]⟩,
    /- FLY_PORT_CFG -/ ⟨0xC, 0x0, 1, 0x103FF, [(0, 10, .fw), (16, 2, .fw)]⟩,
    /- FLY_PORT_STATUS -/ ⟨0x10, 0x0, 1, 0x0, [(0, 10, .ro)]⟩,
    /- FLY_PORT_ROLE -/ ⟨0x14, 0x0, 1, 0x0, [(0, 20, .ro)]⟩,
    /- FLY_WAKE_CFG -/ ⟨0x18, 0x0, 1, 0x303FF, [(0, 10, .fw), (16, 1, .fw), (17, 1, .fw)]⟩,
    /- FLY_WAKE_CAUSE -/ ⟨0x1C, 0x0, 1, 0x0, [(0, 10, .ro), (16, 1, .ro)]⟩,
    /- FLY_CNT_FWD -/ ⟨0x20, 0x0, 1, 0x0, [(0, 16, .ro), (16, 16, .ro)]⟩,
    /- FLY_CNT_DROP -/ ⟨0x24, 0x0, 1, 0x0, [(0, 8, .ro), (8, 8, .ro), (16, 8, .ro), (24, 8, .ro)]⟩,
    /- FLY_ROUTE_BASE -/ ⟨0x100, 0x8, 10, 0x0, [(0, 20, .ro), (31, 1, .ro)]⟩,
    /- FLY_ROUTE_SIZE -/ ⟨0x104, 0x8, 10, 0x0, [(0, 21, .ro)]⟩ ]

/-- The register table of HLN. -/
def regDescsHln : List RegDesc :=
  [ /- HLN_STATUS -/ ⟨0x40, 0x0, 1, 0x0, [(0, 1, .ro), (1, 1, .ro), (2, 1, .ro), (3, 1, .ro), (4, 1, .ro), (5, 1, .ro), (6, 1, .ro), (11, 3, .ro), (14, 2, .ro), (16, 3, .ro), (24, 8, .ro)]⟩,
    /- HLN_TRAIN_STATUS -/ ⟨0x44, 0x0, 1, 0x0, [(0, 8, .ro), (8, 4, .ro), (12, 4, .ro), (16, 8, .ro), (24, 8, .ro)]⟩,
    /- HLN_FAULT -/ ⟨0x48, 0x0, 1, 0x0, [(0, 1, .w1c), (1, 1, .w1c), (2, 1, .w1c), (3, 1, .w1c), (4, 1, .w1c), (5, 1, .w1c)]⟩,
    /- HLN_TX_TAPS0 -/ ⟨0x4C, 0x0, 1, 0x0, [(0, 9, .ro), (16, 9, .ro)]⟩,
    /- HLN_TX_TAPS1 -/ ⟨0x50, 0x0, 1, 0x6C01F4, [(0, 9, .ro), (16, 9, .ro)]⟩,
    /- HLN_TX_TAPS2 -/ ⟨0x54, 0x0, 1, 0x1F8, [(0, 9, .ro), (16, 9, .ro)]⟩,
    /- HLN_RX_EQ -/ ⟨0x58, 0x0, 1, 0x0, [(0, 4, .ro), (8, 8, .ro)]⟩,
    /- HLN_PAT_GEN -/ ⟨0x1000, 0x0, 1, 0x0, [(0, 1, .rw), (1, 2, .rw), (3, 1, .rw), (4, 1, .w1s)]⟩,
    /- HLN_PAT_CHK -/ ⟨0x1004, 0x0, 1, 0x0, [(0, 1, .rw), (1, 2, .rw), (3, 1, .rw)]⟩,
    /- HLN_PAT_CHK_STATUS -/ ⟨0x1008, 0x0, 1, 0x0, [(0, 1, .ro), (1, 1, .ro)]⟩,
    /- HLN_PAT_ERR -/ ⟨0x100C, 0x0, 1, 0x0, [(0, 32, .rc)]⟩,
    /- HLN_PAT_BITS_LO -/ ⟨0x1010, 0x0, 1, 0x0, [(0, 32, .rc)]⟩ ]
   ++ [ /- HLN_PAT_BITS_HI -/ ⟨0x1014, 0x0, 1, 0x0, [(0, 16, .ro)]⟩ ]

/-- The register table of LRX. -/
def regDescsLrx : List RegDesc :=
  [ /- LRX_STATUS -/ ⟨0x40, 0x0, 1, 0x0, [(0, 1, .ro), (1, 1, .ro), (2, 1, .ro), (3, 1, .ro), (4, 1, .ro), (8, 3, .ro), (16, 1, .ro), (17, 1, .ro), (18, 1, .ro), (19, 2, .ro), (21, 3, .ro), (24, 8, .ro)]⟩,
    /- LRX_FAULT -/ ⟨0x44, 0x0, 1, 0x0, [(0, 1, .w1c), (1, 1, .w1c), (2, 1, .w1c), (3, 1, .w1c), (4, 1, .w1c), (5, 1, .w1c), (6, 1, .w1c)]⟩,
    /- LRX_SNR -/ ⟨0x48, 0x0, 1, 0x2C28, [(0, 8, .ro), (8, 8, .ro), (16, 16, .ro)]⟩,
    /- LRX_CDR -/ ⟨0x4C, 0x0, 1, 0x0, [(0, 8, .ro), (16, 16, .ro)]⟩,
    /- LRX_LOCK_CNT -/ ⟨0x50, 0x0, 1, 0x0, [(8, 8, .ro), (16, 8, .ro), (24, 8, .ro)]⟩,
    /- LRX_ADC_CAL -/ ⟨0x54, 0x0, 1, 0x0, [(0, 6, .ro), (7, 1, .ro), (8, 8, .ro), (16, 8, .ro), (24, 8, .ro)]⟩,
    /- LRX_PAT_CHK -/ ⟨0x1004, 0x0, 1, 0x0, [(0, 1, .rw), (1, 2, .rw), (3, 1, .rw)]⟩,
    /- LRX_PAT_CHK_STATUS -/ ⟨0x1008, 0x0, 1, 0x0, [(0, 1, .ro), (1, 1, .ro)]⟩,
    /- LRX_PAT_ERR -/ ⟨0x100C, 0x0, 1, 0x0, [(0, 32, .rc)]⟩,
    /- LRX_PAT_BITS_LO -/ ⟨0x1010, 0x0, 1, 0x0, [(0, 32, .rc)]⟩,
    /- LRX_PAT_BITS_HI -/ ⟨0x1014, 0x0, 1, 0x0, [(0, 16, .ro)]⟩,
    /- LRX_RX_CFG -/ ⟨0x2000, 0x0, 1, 0x2C284A00, [(8, 2, .fw), (10, 2, .fw), (12, 4, .fw), (16, 8, .fw), (24, 8, .fw)]⟩ ]

/-- The register table of LTX. -/
def regDescsLtx : List RegDesc :=
  [ /- LTX_STATUS -/ ⟨0x40, 0x0, 1, 0x0, [(26, 1, .ro), (27, 1, .ro), (28, 1, .ro), (29, 3, .ro)]⟩,
    /- LTX_FAULT -/ ⟨0x44, 0x0, 1, 0x0, [(0, 1, .w1c), (1, 1, .w1c), (2, 1, .w1c)]⟩,
    /- LTX_TAPS0 -/ ⟨0x48, 0x0, 1, 0x7E00000, [(0, 9, .ro), (9, 9, .ro), (18, 9, .ro)]⟩,
    /- LTX_TAPS1 -/ ⟨0x4C, 0x0, 1, 0x3F070, [(0, 9, .ro), (9, 9, .ro), (18, 9, .ro)]⟩,
    /- LTX_TAPS2 -/ ⟨0x50, 0x0, 1, 0x0, [(0, 9, .ro), (9, 9, .ro), (18, 9, .ro)]⟩,
    /- LTX_TT_STATUS -/ ⟨0x54, 0x0, 1, 0x0, [(0, 1, .ro), (1, 1, .ro), (8, 8, .ro), (16, 16, .ro)]⟩,
    /- LTX_TAP_CHAN -/ ⟨0x58, 0x0, 1, 0x0, [(0, 4, .ro), (4, 4, .ro), (8, 8, .ro), (16, 4, .ro), (20, 4, .ro), (24, 8, .ro)]⟩,
    /- LTX_PAT_GEN -/ ⟨0x1000, 0x0, 1, 0x0, [(0, 1, .rw), (1, 2, .rw), (3, 1, .rw), (4, 1, .w1s)]⟩,
    /- LTX_TX_CFG -/ ⟨0x2000, 0x0, 1, 0x784180, [(7, 1, .fw), (8, 4, .fw), (12, 1, .fw), (13, 1, .fw), (14, 2, .fw), (16, 1, .fw), (17, 7, .fw)]⟩,
    /- LTX_TT_ACTIVE -/ ⟨0x2400, 0x4, 256, 0x0, [(0, 10, .ro)]⟩,
    /- LTX_TT_SHADOW -/ ⟨0x2800, 0x4, 256, 0x0, [(0, 10, .fw)]⟩ ]

/-- The register table of CRL. -/
def regDescsCrl : List RegDesc :=
  [ /- CRL_STATUS -/ ⟨0x0, 0x0, 1, 0xC6008000, [(8, 1, .ro), (9, 1, .ro), (10, 2, .ro), (12, 5, .ro), (17, 5, .ro), (22, 5, .ro), (27, 5, .ro)]⟩,
    /- CRL_FLOAT_CFG -/ ⟨0x4, 0x0, 1, 0x1018608, [(0, 5, .fw), (8, 4, .fw), (12, 4, .fw), (16, 8, .fw), (24, 1, .fw)]⟩,
    /- CRL_BOBBIN_FAIL -/ ⟨0x8, 0x0, 1, 0x0, [(0, 25, .ro)]⟩,
    /- CRL_SLUB_CFG -/ ⟨0xC, 0x0, 1, 0x100080, [(0, 12, .fw), (16, 8, .fw)]⟩,
    /- CRL_BUF_STATUS -/ ⟨0x10, 0x0, 1, 0x1330000, [(0, 9, .ro), (16, 9, .ro)]⟩,
    /- CRL_LANE_CFG -/ ⟨0x100, 0x20, 9, 0xC, [(0, 6, .fw)]⟩,
    /- CRL_LANE_STATUS -/ ⟨0x104, 0x20, 9, 0x0, [(0, 16, .ro), (20, 1, .ro), (21, 1, .ro), (22, 4, .ro), (26, 6, .ro)]⟩,
    /- CRL_LANE_ITER -/ ⟨0x108, 0x20, 9, 0x0, [(0, 16, .ro), (16, 16, .ro)]⟩,
    /- CRL_LANE_BER -/ ⟨0x10C, 0x20, 9, 0x0, [(0, 32, .ro)]⟩,
    /- CRL_LANE_MARGIN -/ ⟨0x110, 0x20, 9, 0x0, [(0, 16, .ro), (16, 16, .ro)]⟩,
    /- CRL_LANE_MISS -/ ⟨0x114, 0x20, 9, 0x0, [(0, 16, .ro), (16, 16, .ro)]⟩,
    /- CRL_LANE_SLUB -/ ⟨0x118, 0x20, 9, 0x0, [(0, 16, .ro), (16, 16, .ro)]⟩ ]
   ++ [ /- CRL_HIST -/ ⟨0x400, 4, 11, 0x0, [(0, 32, .ro)]⟩,
    /- CRL_HIST -/ ⟨0x440, 4, 11, 0x0, [(0, 32, .ro)]⟩,
    /- CRL_HIST -/ ⟨0x480, 4, 11, 0x0, [(0, 32, .ro)]⟩,
    /- CRL_HIST -/ ⟨0x4C0, 4, 11, 0x0, [(0, 32, .ro)]⟩,
    /- CRL_HIST -/ ⟨0x500, 4, 11, 0x0, [(0, 32, .ro)]⟩,
    /- CRL_HIST -/ ⟨0x540, 4, 11, 0x0, [(0, 32, .ro)]⟩,
    /- CRL_HIST -/ ⟨0x580, 4, 11, 0x0, [(0, 32, .ro)]⟩,
    /- CRL_HIST -/ ⟨0x5C0, 4, 11, 0x0, [(0, 32, .ro)]⟩,
    /- CRL_HIST -/ ⟨0x600, 4, 11, 0x0, [(0, 32, .ro)]⟩,
    /- CRL_RS_CW -/ ⟨0x800, 0x10, 16, 0x0, [(0, 32, .ro)]⟩,
    /- CRL_RS_CORR -/ ⟨0x804, 0x10, 16, 0x0, [(0, 32, .ro)]⟩,
    /- CRL_RS_UNCORR -/ ⟨0x808, 0x10, 16, 0x0, [(0, 32, .ro)]⟩ ]
   ++ [ /- CRL_RS_TX_ERR -/ ⟨0x80C, 0x10, 16, 0x0, [(0, 32, .ro)]⟩ ]

/-- The register table of TWF. TWF_RATE has after reset what R224's table of its fields gives. Log 144 (DEDUCED). -/
def regDescsTwf : List RegDesc :=
  [ /- TWF_PORT_MAP -/ ⟨0x100, 0x4, 16, 0x0, [(0, 8, .fw), (11, 4, .fw), (15, 4, .fw), (19, 1, .fw), (20, 1, .fw), (21, 3, .fw), (24, 8, .fw)]⟩,
    /- TWF_UNIT_ID_LO -/ ⟨0x10, 0x0, 1, 0x0, [(0, 32, .ro)]⟩,
    /- TWF_UNIT_ID_HI -/ ⟨0x14, 0x0, 1, 0x0, [(0, 12, .ro)]⟩,
    /- TWF_LANE_STATUS -/ ⟨0x200, 0x20, 9, 0x0, [(0, 1, .ro), (1, 1, .ro), (2, 2, .ro), (4, 1, .ro), (5, 1, .ro), (6, 1, .ro), (7, 1, .ro), (13, 1, .ro), (14, 1, .ro), (15, 1, .ro), (19, 2, .ro), (21, 3, .ro), (24, 3, .ro), (27, 5, .ro)]⟩,
    /- TWF_FAR_ID_LO -/ ⟨0x204, 0x20, 9, 0x0, [(0, 32, .ro)]⟩,
    /- TWF_FAR_ID_HI -/ ⟨0x208, 0x20, 9, 0x0, [(0, 16, .ro)]⟩,
    /- TWF_FAR_INFO -/ ⟨0x20C, 0x20, 9, 0x0, [(0, 8, .ro), (8, 8, .ro), (16, 8, .ro), (24, 8, .ro)]⟩,
    /- TWF_STUFF_CNT -/ ⟨0x210, 0x20, 9, 0x0, [(0, 16, .ro), (16, 16, .ro)]⟩,
    /- TWF_RUN_OVF -/ ⟨0x214, 0x20, 9, 0x0, [(0, 16, .ro), (16, 16, .ro)]⟩,
    /- TWF_OH_ERR -/ ⟨0x218, 0x20, 9, 0x0, [(0, 16, .ro), (16, 16, .ro)]⟩,
    /- TWF_RATE -/ ⟨0x21C, 0x20, 9, 0x1, [(0, 2, .ro), (8, 8, .ro), (16, 16, .ro)]⟩,
    /- TWF_PLY_CFG -/ ⟨0x400, 0x0, 1, 0xE0, [(0, 4, .fw), (4, 1, .fw), (5, 1, .fw), (6, 1, .fw), (7, 1, .fw), (8, 1, .fw)]⟩ ]
   ++ [ /- TWF_PLY_THR -/ ⟨0x404, 0x0, 1, 0x3C04060A, [(0, 8, .fw), (8, 4, .fw), (12, 8, .fw), (20, 12, .fw)]⟩,
    /- TWF_PLY_STATUS -/ ⟨0x408, 0x0, 1, 0x0, [(17, 1, .ro), (18, 4, .ro), (22, 3, .ro), (25, 4, .ro), (29, 3, .ro)]⟩,
    /- TWF_LANE_FAILED -/ ⟨0x410, 0x0, 1, 0x0, [(0, 8, .ro)]⟩,
    /- TWF_PLY_CNT -/ ⟨0x414, 0x0, 1, 0x0, [(0, 8, .ro), (8, 8, .ro), (16, 8, .ro), (24, 8, .ro)]⟩,
    /- TWF_PLY_RISK -/ ⟨0x420, 0x4, 8, 0x0, [(0, 16, .ro), (16, 1, .ro), (17, 1, .ro)]⟩ ]

/-- The register table of HNK. -/
def regDescsHnk : List RegDesc :=
  [ /- HNK_STORE_STATUS -/ ⟨0x0, 0x0, 1, 0x800, [(0, 12, .ro), (12, 12, .ro), (24, 8, .ro)]⟩,
    /- HNK_CFG -/ ⟨0x4, 0x0, 1, 0x640A0814, [(0, 8, .fw), (8, 8, .fw), (16, 8, .fw), (24, 8, .fw)]⟩,
    /- HNK_LANE_STATUS -/ ⟨0x100, 0x4, 9, 0x10, [(0, 2, .ro), (2, 1, .ro), (3, 1, .ro), (4, 1, .ro), (5, 1, .ro), (6, 1, .ro), (7, 3, .ro), (10, 11, .ro), (21, 11, .ro)]⟩,
    /- HNK_LANE_CFG -/ ⟨0x140, 0x4, 9, 0x12, [(0, 4, .fw), (4, 1, .fw)]⟩ ]

end Sys2Proof.Machine
end

