-- ==== Sys2Proof/Machine/Chip.lean ====
section
/-! DEFINITION. What the CX6408 holds, as plain data: the registers of the management space, the memories, and the
hidden state that the rules of spec/ give each block. `Chip` is all of it but the OTP, the distaff and the queue of
commands, which Machine/State.lean adds. -/

namespace Sys2Proof.Machine

/-! ### Events (spec/13) -/

/-- One skein, R337 to R343: the slot of its oldest waiting record, how many records wait, the slot of its held
record (a consumer claims only above its current level, so a skein holds at most one) and its overflow flag. -/
structure Skein where
  head : Nat := 0
  waiting : Nat := 0
  held : Option Nat := none
  ovf : Bool := false
  deriving DecidableEq, Repr

/-- One consumer of EVT: mask, pending and arm bits per source (R332, R333), its 16 skeins, the next record
sequence number (R335), the interrupt enable (R340), and the timestamps that the wake sensor latched for sources
pending since the Whorl stopped (R347). -/
structure Consumer where
  mask : BitVec 512
  pend : BitVec 512
  arm : BitVec 512
  skeins : Vector Skein 16
  seq : Nat
  en : Bool
  stamps : List (Nat × Nat)
  deriving DecidableEq, Repr

/-- The event block: its consumers (0 host, 1 Spindle A, 2 Spindle B), the live levels (R330), the priorities of
`EVT_SRC_CFG` ([11:0] per source, R349), the 48-bit timestamp and the latched upper bits (R336), the doorbell
errors (R331), the records of the skein memory by skein and slot (R335; none while the slot's granules are not
valid, R374), the payload of each level source (R332 sends it again at a re-arm), whether the record writer
stands still because the Whorl is stopped (R347), and whether `INT_N` follows the host's interrupt (R340). -/
structure EvtBlk where
  cons : Vector Consumer 3
  live : BitVec 512
  prio : List (Nat × Nat)
  time : Nat
  timeHi : Nat
  dbErr : Nat
  recs : List (Nat × Option (BitVec 128))
  levelPay : List (Nat × Nat)
  halted : Bool
  driven : Bool
  deriving DecidableEq, Repr

/-- The general counters (spec/19 R447, R448): the 48-bit counts, the latched upper bits, the selections, the wrap
bits of `CNT_OVF`, and the shadows of a freeze (R451). -/
structure CntBlk where
  count : List (Nat × Nat) := []
  hi : List (Nat × Nat) := []
  sel : List (Nat × Word) := []
  ovf : BitVec 256 := 0
  shadow : List (Nat × Nat) := []
  deriving DecidableEq, Repr

/-! ### Memories and error correction (spec/15) -/

/-- The hidden state of the ECC block: the true bucket levels (R377; the register fields saturate at 0xFF), the
granule last read by the scrubber and the corrections of the running pass (R380), and the spare rows used by each
SRAM with the rows they replace (R383). -/
structure EccBlk where
  lvl : Vector Nat 3 := Vector.replicate 3 0
  scrubAt : Nat := 0
  passFixed : Nat := 0
  repaired : List (Nat × Nat) := []
  deriving DecidableEq, Repr

/-! ### Power and thermal (spec/18) -/

/-- The settled state of a power domain, spec/18 "Domains and states". -/
inductive Power where
  | off | ret | on
  deriving DecidableEq, Repr

/-- Where a running group request stands, `PMU_GRP_STATUS.PHASE`. -/
inductive GrpPhase where
  | quiesce | ladder
  deriving DecidableEq, Repr

/-- A running group request, R429: its mask and target (0 OFF, 1 RET, 2 ON), who asked (R444 REQUESTER), the
PWR_SET command it serves, the domains that have quiesced and voted yes, the domains still to be asked, the domains
that climb the ladder together and the rung they have reached (R428), and the retention banks found lost (R433). -/
structure GrpReq where
  mask : Nat
  target : Nat
  requester : Nat
  src : Option CmdSrc
  phase : GrpPhase
  voted : List Nat
  rest : List Nat
  climbing : List Nat
  rung : Nat
  lost : List (Nat × Nat)
  deriving DecidableEq, Repr

/-- The power management unit: the 22 domains (R320), the running group request, the retention signatures taken
(domain and bank, R433), whether the part is in module low power (R435), whether the entry to it is running (R322,
R476: after LOW_POWER has completed and until `PMU_LP_CTRL` is written), the wake causes latched (R436, R480: bit 0 Fleyth,
bit 1 `PMU_WAKE_REQ`) with the detail of the Fleyth ones as `FLY_WAKE_CAUSE` numbers it, the wake enables that `PD_AON`
watches by while `PD_FLY` is off (R368), and the bobbins retired (R233) and lanes marked failed (R266) since the last start, which
outlast their domains. -/
structure Pmu where
  pd : Vector Power 22 := Vector.replicate 22 .off
  grp : Option GrpReq := none
  sigs : List (Nat × Nat) := []
  lowPower : Bool := false
  entering : Bool := false
  wakeLatched : Nat := 0
  wakeDetail : Nat := 0
  wakeCfg : Nat := 0x303FF
  retired : Nat := 0
  failed : Nat := 0
  deriving DecidableEq, Repr

/-- The hidden state of THM: for each sensor its last readings, newest first (at most 64; none for a failed
conversion, R440), and how many samples in a row every valid reading has stayed below 99 °C (R439). -/
structure Thm where
  hist : Vector (List (Option Int)) 14 := Vector.replicate 14 []
  cool : Nat := 0
  deriving DecidableEq, Repr

/-! ### OTP and external flash (spec/02 R37 to R47, spec/20) -/

/-- OTP: how many lifecycle bit groups are programmed (R47, R468), the unit identity, the owner key (none while not
programmed) and whether its digest matches (R462), the key-kill group (R470), the core voltage target (R503), and the
repairs fused at manufacture: how many spare rows of an SRAM they use (spec/15 "Soft repair"). Log 6 (DESIGN CHOICE). -/
structure Otp where
  lifecycle : Nat := 0
  unitId : Nat := 0
  ownerKey : Option (List Byte) := none
  digestOk : Bool := false
  keyKilled : Bool := false
  coreTarget : Nat := 0
  coreFused : Bool := false
  rowsFused : List (Nat × Nat) := []
  deriving DecidableEq, Repr

/-- A Krelin image: its bytes, header first (R471), and whether its signature verifies (R472; whether a given image's does
is the world's, so it is data). -/
structure Image where
  bytes : List Byte
  sigOk : Bool
  deriving DecidableEq, Repr

/-- A doff record sector, R478: its sequence number, origin and entries, and whether STATE and CRC were written. -/
structure DoffRec where
  seq : Nat
  origin : Nat
  entries : List DoffEntry
  complete : Bool
  crcOk : Bool
  deriving DecidableEq, Repr

/-- What the config shadow keeps of a port, so that a start can set it up again (R40, spec/02 step 10). -/
structure PortCfg where
  mode : Nat
  trib : Nat
  hostFirst : Nat
  lineMask : Nat
  enabled : Bool
  deriving DecidableEq, Repr

/-- The config shadow's contents other than the hank records of its window (R179): the ports, the FW registers as
last written by command (R434), the quads' training settings (R72), the guard table (spec/20), the session's BASE
(R459) and the owner's debug consent (R473). Its byte layout is not in spec/. -/
structure ShadowCfg where
  ports : Vector (Option PortCfg) 16
  fwRegs : List (Nat × Word)
  quads : Vector (Nat × Nat × Nat) 4
  guard : List (Nat × Word)
  base : Nat
  dbgAllow : Bool
  deriving DecidableEq, Repr

/-- A flash copy of the config shadow with its sequence number (R47) and the hank records beside it. -/
structure ConfigCopy where
  seq : Nat
  cfg : ShadowCfg
  recs : List Host.Cell
  deriving DecidableEq, Repr

/-- External flash: whether one is fitted (R500), the image slots A and B, the two doff record sectors and the two
config shadow copies. Log 7 (DESIGN CHOICE). -/
structure Flash where
  present : Bool := false
  imgA : Option Image := none
  imgB : Option Image := none
  doff : Vector (Option DoffRec) 2 := Vector.replicate 2 none
  cfg : Vector (Option ConfigCopy) 2 := Vector.replicate 2 none
  deriving DecidableEq, Repr

/-! ### Mailbox, commands, spindles (spec/11, spec/12) -/

/-- The states of a request slot, R293. -/
inductive SlotState where
  | free | posted | waiting | executing | done
  deriving DecidableEq, Repr

/-- A completion, R297, without what the ring adds when it is posted (PHASE and TIME). -/
structure Completion where
  opcode : Nat
  tag : Nat
  status : Nat
  slot : Nat
  hasData : Bool
  abandoned : Bool
  respLen : Nat
  result : List Byte
  deriving DecidableEq, Repr

/-- What an executing command waits for before it completes. -/
inductive Wait where
  /-- ADD_PORT of a port: the line lanes restored and the line lanes retrained (R313). -/
  | addPort (port restored retrained : Nat)
  /-- REMOVE_PORT of a port: a running restore or substitution (R67). -/
  | removePort (port : Nat)
  /-- HOST_RETRAIN: hand-off of a host lane (R315). -/
  | hostRetrain (lane : Nat)
  /-- LINE_RETRAIN: LOCKED of a line lane (R316). -/
  | lineRetrain (lane : Nat)
  /-- LINE_CAPTURE: the end of the capture of a line lane (R316). -/
  | capture (lane : Nat)
  /-- HANK_LOAD: the page-in of a lane (R189). -/
  | hankLoad (lane : Nat)
  /-- HANK_FLUSH: the end of the restore of a lane (R187). -/
  | hankFlush (lane : Nat)
  /-- PLY_SUBST: pairing and commit of a lane (R273). -/
  | plySubst (lane : Nat)
  /-- PWR_SET: the running group request (R321). -/
  | pwrSet
  /-- FW_ACTIVATE: the standby on the new image (R289); `old` is the old holder's spindle (1 A, 2 B). -/
  | fwActivate (old : Nat)
  /-- FLY_DISCOVER: the running discovery epoch (R361). -/
  | flyDiscover
  /-- FLY_REQUEST: the RESPONSE to a request sequence number (R365). -/
  | flyRequest (seq : Nat)
  /-- FW_IMAGE_END in a host-pushed boot: the holder that opens the mailbox (R326). -/
  | imageBoot
  /-- TEST_LANE: the lane's domain coming to ON (R328). -/
  | testLane (kind lane : Nat)
  deriving DecidableEq, Repr

/-- A command that the holder is executing: where it came from, its opcode and TAG (at a worker the TAG and the source
address of its REQUEST), and what it waits for. -/
structure ExecCmd where
  src : CmdSrc
  opcode : Nat
  tag : Nat
  flySrc : Nat
  wait : Wait
  deriving DecidableEq, Repr

/-- A pending completion's moderation, fixed at its posting (R298): the COUNT in force. Log 106 (DEDUCED). -/
structure PendingCpl where
  count : Nat
  timed : Bool
  deriving DecidableEq, Repr

/-- An entry of the doorbell queue: a slot, or the next request of the Fleyth queue (R366). -/
inductive Bell where
  | slot (s : Fin 16)
  | fleyth
  deriving DecidableEq, Repr

/-- The hidden state of the mailbox: slot states and the privilege fixed at each doorbell (R293, R294), the doorbell
queue (POSTED and WAITING slots and the Fleyth requests of R366, oldest first; the requests stand in the same order in
`Fly.reqs`), completions held while the ring is full (R295), the completions
pending under moderation (R298), and the commands that are executing. -/
structure Mailbox where
  slots : Vector SlotState 16 := Vector.replicate 16 .free
  priv : Vector Nat 16 := Vector.replicate 16 0
  queue : List Bell := []
  held : List Completion := []
  pend : List PendingCpl := []
  exec : List ExecCmd := []
  deriving DecidableEq, Repr

/-- The roles of a spindle, R277, beside HOLDER and FENCED, which the distaff decides. -/
inductive Role where
  | off | boot | sync | standby
  deriving DecidableEq, Repr

/-- Where a hitless update stands (spec/11 "Hitless firmware update"): the standby boots and synchronises (steps 2 to
4), the holder has quiesced (step 5) and hands over, probation runs (after step 7), the old spindle restarts (step 8). -/
inductive UpdPhase where
  | syncing | quiesced | probation | finishing
  deriving DecidableEq, Repr

/-- A hitless update in progress, R289 to R291: the new image's slot and the old one's, the old holder (1 A, 2 B), and
where it stands. -/
structure Update where
  newSlot : Nat
  oldSlot : Nat
  old : Nat
  phase : UpdPhase
  deriving DecidableEq, Repr

/-- An image transfer, R326: the announced length and the bytes received so far, and the flash slot being written (2: memory,
in a host-pushed boot). -/
structure Transfer where
  length : Nat
  bytes : List Byte
  slot : Nat
  deriving DecidableEq, Repr

/-- The spindles: their roles (R277; whether each is fenced is in the distaff), whether the image that each runs is a debug
image (R473), the header sequence number of a host-pushed image that each runs (R326), whether the image in each one's memory
has passed its checks (R38, R302), the update in progress, the image transfer, and whether a new holder still has to take the
mailbox over (R286). -/
structure Spindles where
  role : Vector Role 2 := Vector.replicate 2 .off
  debugs : Vector Bool 2 := Vector.replicate 2 false
  pushed : Vector (Option Nat) 2 := Vector.replicate 2 none
  fit : Vector Bool 2 := Vector.replicate 2 false
  update : Option Update := none
  xfer : Option Transfer := none
  takeover : Bool := false
  deriving DecidableEq, Repr

/-- The distaff, R281: HOLDER (0 none, 1 Spindle A, 2 Spindle B), EPOCH, and the FENCED flags. -/
structure Distaff where
  holder : Nat := 0
  epoch : Nat := 0
  fencedA : Bool := false
  fencedB : Bool := false
  deriving DecidableEq, Repr

/-- The secret part of the host session (R459, R461): the nonce that SEC_CHALLENGE issued, if one is held. -/
structure Session where
  nonce : Option (List Byte) := none
  deriving DecidableEq, Repr

/-- A firmware-watched alarm of one converter channel, R329: enabled, its limits, and whether it may fire. -/
structure HkAlarm where
  en : Bool := false
  lo : Nat := 0
  hi : Nat := 0
  armed : Bool := false
  deriving DecidableEq, Repr

/-- The answer of the fabric to the last access of a master: a bus error, or the data of a read (R4, R19).
Log 5 (DESIGN CHOICE). -/
structure BusAnswer where
  err : Bool := false
  data : Word := 0
  deriving DecidableEq, Repr

/-! ### Ports (spec/03) -/

/-- The states of a port, R63. -/
inductive PortSt where
  | absent | configuring | ready | up | fault
  deriving DecidableEq, Repr

/-- A port: what `TWF_PORT_MAP` reports (R68), whether it returns to UP or READY when its faults clear (R63, R314),
whether skew or a rate fault holds it in FAULT (R61, R207), whether it was found with another mode code at the
far end (R62), whether its first RS codeword over a new line path is still to come (R265), the word that Krelin has written over
the register's own fields since the port was set up (R68); the host lane (0 the lowest) that the next RS symbol from the host comes
from and that the next one to the host goes to (R60), the RS symbols that wait for the line and those released by the creel (R202,
R239), and the released codewords of a bundle's rounds not yet complete: position, FN and symbols (R205).
Log 11 (DESIGN CHOICE). -/
structure Port where
  mode : Nat := 0
  st : PortSt := .absent
  trib : Nat := 0
  hostFirst : Nat := 0
  hostCount : Nat := 0
  lineMask : Nat := 0
  wantUp : Bool := false
  skew : Bool := false
  rateFault : Bool := false
  mismatch : Bool := false
  realign : Bool := false
  shown : Option Word := none
  muxPhase : Nat := 0
  hostPhase : Nat := 0
  toLine : List Nat := []
  fromLine : List Nat := []
  rounds : List (Nat × Nat × List Nat) := []
  deriving DecidableEq, Repr


/-! ### Host lanes (spec/04) -/

/-- Twist-H messages as the lane keeps them: the request it last sent (REQ, TAP, ARG, R82), R84; REQ 0 before the first. -/
structure HostReq where
  req : Nat := 0
  tap : Nat := 0
  arg : Nat := 0
  deriving DecidableEq, Repr

/-- A pattern generator (R109, R454): the register of its sequence, or the symbols sent of SSPRQ; and whether the next symbol takes
an injected error. -/
structure PatGen where
  reg : Nat := 0
  inj : Bool := false
  deriving DecidableEq, Repr

/-- A pattern checker (R110): consecutive error-free bits while it searches, and the bits compared since it synchronised, newest
first, at most 1024 (true for an error). -/
structure PatChk where
  good : Nat := 0
  window : List Bool := []
  deriving DecidableEq, Repr

/-- The hidden state of a host lane: consecutive training markers found and missed (R79) and data markers found and
missed (R91) with their locks, and whether data-frame lock stands lost; the SEQ of the last request sent, the request, whether its
echo is awaited (R84), and whether only HOLD may be sent until training restarts (R87); the last far SEQ acted on and the outcome
reported for it (R85); RX_READY of its own receiver and whether a frame with it has been sent, the far end's consecutive ready
frames, HO_COUNT of the last frame sent (R88), the training frames still to come from the far end once its countdown was seen
(R89), and the directions that have handed off; the pattern being sent and how many of its symbols have been sent since its
generator was loaded (R80); the last COUNT taken (R91), the RS symbols of data frames that wait for their codewords and those waiting to be
sent to the host, and the fill slots sent since the first data frame; whether the far end asked for precoding (R74); the far lane
position heard and whether the far TARGET disagrees (R97, R99); whether a lost signal's return is being watched
(R101); the receive FFE (24 taps); whether TEST_LANE claims it; whether the unused lane is powered down (R98);
whether its coefficients were last set by HOST_TX_SET (R76); and its pattern generator and checker.
Log 11 (DESIGN CHOICE). -/
structure HostLane where
  markers : Nat := 0
  misses : Nat := 0
  frameLock : Bool := false
  dataMarkers : Nat := 0
  dataMisses : Nat := 0
  dataLock : Bool := false
  dataLost : Bool := false
  seqOut : Nat := 0
  reqOut : HostReq := {}
  echoWait : Bool := false
  holdOnly : Bool := false
  seqIn : Option Nat := none
  respOut : Nat := 0
  respTap : Nat := 0
  rxReady : Bool := false
  readySent : Bool := false
  farReady : Nat := 0
  countdown : Option Nat := none
  farLeft : Option Nat := none
  txDone : Bool := false
  rxDone : Bool := false
  ieeeMode : Bool := false
  fallback : Bool := false
  pattern : Nat := 0
  sent : Nat := 0
  count : Nat := 0
  got : List Nat := []
  out : List Nat := []
  filled : Nat := 0
  precode : Bool := false
  farId : Option Nat := none
  targetBad : Bool := false
  watch : Bool := false
  lostAfterData : Bool := false
  ffe : List Int := []
  claimed : Bool := false
  down : Bool := false
  manual : Bool := false
  gen : PatGen := {}
  chk : PatChk := {}
  deriving DecidableEq, Repr

/-- The settings of a quad that HOST_TRAIN_CFG keeps (R72, R75, R76): the training mode (0 AUTO, 1 FIXED), the
starting preset 1 to 4 and the Twist-H pattern; and whether the quad's lane order is known, unresolved, and
trained anew since it was found so (R99), and whether a synthesiser unlock is being relocked (R26, R95).
Log 10 (DESIGN CHOICE). -/
structure QuadSt where
  fixed : Bool := false
  preset : Nat := 0
  pattern : Nat := 0
  orderKnown : Bool := false
  orderFault : Bool := false
  laterTraining : Bool := false
  relocking : Bool := false
  deriving DecidableEq, Repr

/-- Why a page-in was asked for: a restore of R182, a page-in of R185 at ADD_PORT or start-up, one of R186, or a
HANK_LOAD of R189. -/
inductive PageWhy where
  | restore | record | domainOn | load
  deriving DecidableEq, Repr

/-! ### Line receivers (spec/05) -/

/-- The live state of a receiver that a hank holds (R171): FFE, Volterra coefficients, MLSE targets, the scalars,
clock recovery and ADC corrections (offset, gain, skew of each sub-ADC). Log 11 (DESIGN CHOICE). -/
structure Live where
  ffe : List Int := []
  volt : List Int := []
  targets : List Int := []
  np : Int := 0
  llrScale : Nat := 0
  gain : Int := 0
  freq : Int := 0
  phase : Nat := 0
  adc : List (Int × Int × Int) := []
  deriving DecidableEq, Repr

/-- A capture of a receiver tap, R137, R316. -/
structure Capture where
  tap : Nat
  trigger : Nat
  addr : Nat
  len : Nat
  src : CmdSrc
  triggered : Bool
  deriving DecidableEq, Repr

/-- The hidden state of a line receiver: its live state, the SNR windows since the restart of SNR_AVG (newest first,
at most 256, R141), consecutive windows at or above LOCK_THR and below LOSS_THR (R123, R124), the frequency
estimates of the last 16 windows, newest first (R123), whether CDR_LOCK has been 1 since OFF (R139), the thermal request (term set) and the
refusal of thermal drops (R115, R116), the term set before a thermal drop made within the last 1 ms (R116) and whether the
term set stands lowered for one, whether a retrain runs (R130), the reason for the page-in whose restore window runs (R132), whether the
lane has ever been LOCKED since OFF (R345, EVS_LINE_LOS), the cause of its last HOLD (R125), its capture engine (R316),
whether TEST_LANE claims it, the page-in that its foreground calibration holds up (R185, R186), its pattern checker (R136), the
thresholds LOCK_THR, LOSS_THR and MARGIN_WARN in use (R127), and whether a step of the term set is less than 1 ms old (R115).
Log 11 (DESIGN CHOICE). -/
structure LineRx where
  live : Live := {}
  snrs : List Nat := []
  snrAbove : Nat := 0
  snrBelow : Nat := 0
  freqs : List Int := []
  everCdr : Bool := false
  thermal : Option Nat := none
  refuse : Bool := false
  dropFrom : Option Nat := none
  thermLow : Bool := false
  retrain : Bool := false
  window : Option PageWhy := none
  wasLocked : Bool := false
  cause : Nat := 0
  capture : Option Capture := none
  claimed : Bool := false
  afterCal : Option PageWhy := none
  recCheck : Bool := false
  chk : PatChk := {}
  lockUse : Nat := 44
  lossUse : Nat := 40
  warnUse : Nat := 4
  stepped : Bool := false
  deriving DecidableEq, Repr

/-! ### Hank engine (spec/07) -/

/-- Free, held or bad, spec/07 "The hank store". -/
inductive HankSt where
  | free | held | bad
  deriving DecidableEq, Repr

/-- A hank slot: its state, the lane of its hank, the pins it carries (R175; BUSY is a count of users), its use stamp
(R176), and the hank's own bytes where a spindle has written over them through the window, which the engine does not
use (R174). Log 84 (DEDUCED). -/
structure HankSlot where
  st : HankSt := .free
  lane : Nat := 0
  lastGood : Bool := false
  active : Bool := false
  keep : Bool := false
  busy : Nat := 0
  stamp : Nat := 0
  own : Option (List Byte) := none
  deriving DecidableEq, Repr

/-- A page-in request, R180. -/
structure PageReq where
  lane : Nat
  slot : Nat
  why : PageWhy
  deriving DecidableEq, Repr

/-- A snapshot (KIND 0) or checkpoint (KIND 1) between capture and commit, R177, R178. -/
structure Snap where
  lane : Nat
  slot : Nat
  kind : Nat
  written : Bool
  deriving DecidableEq, Repr

/-- The hank engine: slots, the free-running use-stamp count (R176), the page-in queue and its channels (R180),
snapshots and checkpoints in progress, the generation counts by lane and kind (key 2 n + kind, R172), the times of
the restores started (lane, event time; R183), the lanes whose HOLD the engine is handling (R182: a restore is waited
for), the lanes whose restore failed in this loss, and the lanes to be flushed when their restore window ends (R187). -/
structure Hnk where
  slots : List (Nat × HankSlot) := []
  stampCnt : Nat := 0
  queue : List PageReq := []
  chans : List PageReq := []
  snaps : List Snap := []
  gen : List (Nat × Nat) := []
  starts : List (Nat × Nat) := []
  hold : List Nat := []
  spent : List Nat := []
  flushWait : List Nat := []
  deriving DecidableEq, Repr

/-! ### Fault logic (spec/10) -/

/-- The hidden state of the fault logic: the lead count of R263, the lanes in HOLD whose restore it waits for
(R264), the lane of an executing PLY_SUBST (R273), lanes that found the Ply receiver unavailable (for LANE_LOST,
R272), lanes counted lost, whether PLY_DOWN's 1 s has passed, L8 marked failed (R272, R477), the LANE byte that L8's
multiframes carry and the one decided for the next multiframe (R260), the lane the far end asked for and whether in
substitution, to be carried from the next boundary (R261), and the lane the last accepted L8 multiframe reported (R262). -/
structure Ply where
  lead : Nat := 0
  waitRestore : List Nat := []
  planned : Option Nat := none
  unavail : List Nat := []
  lost : List Nat := []
  downTimed : Bool := false
  l8Failed : Bool := false
  reqNow : Nat := 0
  reqNext : Nat := 0
  txNext : Nat := 0
  txPly : Bool := false
  farLane : Option Nat := none
  deriving DecidableEq, Repr

/-! ### Line transmitters (spec/06) -/

/-- The changes of a line transmitter that wait for the next boundary: a swap of the tables, whether a host load asked for
it and whether an entry of the rebuilt table was clamped (R146, R152, R154), a far-end request (REQ, TAP, ARG, SEQ; R159)
and a preset (R167). -/
structure TxPending where
  swap : Bool := false
  hostLoad : Bool := false
  clamped : Bool := false
  req : Option (Nat × Nat × Nat × Nat) := none
  preset : Option Nat := none
  deriving DecidableEq, Repr

/-- The hidden state of a line transmitter: the active and shadow copies (entry values, unlisted = nominal, R145), the
sweep being collected (its number, its errors so far; none while no sweep, R151), the frames since the last change
(counted up to 128, R151), the changes pending for the next boundary, the SEQ of the request last acted on (R159) with
the outcome and TAP reported for it, the local receiver's own request (R158): its SEQ and fields, whether its echo is
awaited, and whether only HOLD may be sent after a timeout (R160); the bytes of the tap word being received and whether
one failed, and whole tap words not yet acted on (slot, word, failed; R156); the tap word being sent (R156), the next
pattern and the sweep number of its own reports (R161); and whether the active copy lies in the odd-numbered SRAM of the
lane (R372). -/
structure LineTx where
  active : List (Nat × Int) := []
  shadow : List (Nat × Int) := []
  sweepNo : Nat := 0
  sweep : Option (List Int) := none
  since : Nat := 0
  pend : TxPending := {}
  seqIn : Option Nat := none
  respOut : Nat := 0
  respTap : Nat := 0
  seqOut : Nat := 0
  reqOut : Nat := 0
  reqTap : Nat := 0
  reqArg : Nat := 0
  echoWait : Bool := false
  onlyHold : Bool := false
  rxWord : List Nat := []
  rxFn : Nat := 0
  rxFailed : Bool := false
  rxWords : List (Nat × Nat × Bool) := []
  txWord : Nat := 0
  reportPos : Nat := 0
  reportNo : Nat := 0
  swapped : Bool := false
  gen : PatGen := {}
  deriving DecidableEq, Repr

/-! ### Framing (spec/08) -/

/-- A codeword as TWF hands it to the creel: the FN of the frame it starts in (R246) and its soft values in coded-bit order,
an erasure being 0 (R241). -/
structure CwIn where
  fn : Nat
  soft : List Int
  deriving DecidableEq, Repr

/-- The hidden state of TWF for one line lane. Transmit: the run level and length (R211), SCR_OFS and RUN_OVF of the
next frame (R210, R213), the next FN, the bytes of the multiframe being sent, the coded bits that wait to be sent, and the
symbols of the last frame sent. Receive: FAW matches and misses (R214, R215), overhead CRC failures in a row, the run
level and length (R212), the data bits until the next codeword starts (none while no alignment is known, R197), the FN
that the codeword in progress started in and its soft values, the multiframe nibbles collected and whether one failed, the
whole multiframe not yet judged, multiframes failed in a row (R200), the codewords complete but not yet taken by the
creel, whether the last frame had more than 8 stuffs, whether a multiframe was accepted since the lane was set up (R62)
and whether one was since frame lock (R184). The rate buffers of the lane's two streams, in sixtieths of a native word, and the
sixteenths of an RS symbol that the frame being sent draws (R206, R208). Log 125 (DESIGN CHOICE). -/
structure Framer where
  runLevel : Nat := 0
  runLen : Nat := 0
  scrOfs : Nat := 0
  runOvf : Bool := false
  fn : Nat := 0
  mfTx : List Nat := []
  coded : List Bool := []
  sent : List Nat := []
  matches_ : Nat := 0
  invMatches : Nat := 0
  misses : Nat := 0
  crcFails : Nat := 0
  rxRunLevel : Nat := 0
  rxRunLen : Nat := 0
  cwLeft : Option Nat := none
  cwFn : Nat := 0
  soft : List Int := []
  mfRx : List Nat := []
  mfBad : Bool := false
  mfDone : Option (List Nat × Bool) := none
  mfFails : Nat := 0
  words : List CwIn := []
  overStuffed : Bool := false
  farSeen : Bool := false
  farChecked : Bool := false
  fill0 : Nat := 480
  fill1 : Nat := 480
  drawn : Nat := 0
  deriving DecidableEq, Repr

/-! ### Creel (spec/09) -/

/-- A codeword in the creel: its lane and the FN it starts in, the physical lane whose copy it is, whether the other copy of a
mirrored pair is still awaited (R246), received and current soft values, how many coded bits were received as erasures,
unsatisfied count (initial, then of the latest iteration), iterations run, converged, void, arrival and release cycle, whether
an iteration is granted in this slot, the discarded copy of its pair: its lane and whether it was void, and the units lost to parity
errors (R241, R245). -/
structure Codeword where
  lane : Nat
  fn : Nat
  src : Nat
  wait : Bool
  recv : List Int
  soft : List Int
  erased : Nat
  unsat : Nat
  iters : Nat
  conv : Bool
  void : Bool
  arrive : Nat
  release : Nat
  granted : Bool
  other : Option (Nat × Bool)
  lost : List Nat
  deriving DecidableEq, Repr

/-- The sums of one lane over the running statistics window (spec/09 "Statistics"): codewords arrived and the sum of
their initial unsatisfied counts, codewords released and the sum of their iterations, converged codewords and the
bits corrected in them (R249). -/
structure CrlWin where
  arrived : Nat := 0
  unsat : Nat := 0
  released : Nat := 0
  iters : Nat := 0
  conv : Nat := 0
  bits : Nat := 0
  deriving DecidableEq, Repr

/-- One lane in the creel: the window sums, the slow unsatisfied count in units of 1/1024 (R250), its values at the
last 1000 window boundaries (newest first), the slub in progress: codewords since it began, those up to its last one
above the level, and consecutive codewords at or below it (R251); and whether this window's first deadline miss was
raised (R240). -/
structure CrlLane where
  win : CrlWin := {}
  slow : Nat := 0
  slowHist : List Nat := []
  slubLen : Nat := 0
  slubLast : Nat := 0
  slubBelow : Nat := 0
  missSeen : Bool := false
  deriving DecidableEq, Repr

/-- The creel: the CLK_DSP cycle of the last slot boundary, the codewords in order of arrival, the lanes, the lane that L8 is
paired with, the ports whose first uncorrectable codeword of the window was raised (R247), whether the spare role moves at
the next slot boundary (R229), and the lanes that were active when the creel last looked (R244). -/
structure Creel where
  cyc : Nat := 0
  cws : List Codeword := []
  lanes : Vector CrlLane 9 := Vector.replicate 9 {}
  paired : Option Nat := none
  uncorrSeen : Nat := 0
  rotate : Bool := false
  active : Nat := 0
  deriving DecidableEq, Repr

/-! ### Fleyth (spec/14) -/

/-- A queued REQUEST of a worker, R366: source address, TAG, PRIV, timeout in µs, inner opcode and payload, and whether its
inner LEN agrees with its body (R292, R357), and whether the holder has taken it and it waits (R64, R289, R309). -/
structure FlyReq where
  src : Nat
  tag : Nat
  priv : Nat
  timeout : Nat
  opcode : Nat
  payload : List Byte
  ok : Bool
  waits : Bool := false
  deriving DecidableEq, Repr

/-- A node of the discovered tree, R361 and R364; `upPort` is the node's own port towards its parent. -/
structure FlyNode where
  addr : Nat
  size : Nat
  ident : Nat
  hops : Nat
  port : Nat
  upPort : Nat
  boundary : Bool
  unreachable : Bool
  deriving DecidableEq, Repr

/-- A neighbour that a node's port leads to, found by a probe: the port, the neighbour's identity, its arrival port. -/
structure FlyFound where
  port : Nat
  ident : Nat
  upPort : Nat
  deriving DecidableEq, Repr

/-- What discovery waits for: the end of the clear time, a PROBE_REPLY for a port, or the ASSIGN_ACK of an assignment
made to the neighbour at a port, with its range (R361). -/
inductive DiscWait where
  | clear
  | probe (port : Nat)
  | assign (f : FlyFound) (base size : Nat)
  deriving DecidableEq, Repr

/-- A running discovery, R361: its timeout T, the addresses of the nodes still to be expanded, the node in hand, its
ports still to be probed, the neighbours found there, those still to be assigned a range, the next base and the share,
and what it waits for. -/
structure Disc where
  timeout : Nat
  queue : List Nat
  node : Nat
  ports : List Nat
  found : List FlyFound
  toAssign : List FlyFound
  base : Nat
  share : Nat
  wait : DiscWait
  deriving DecidableEq, Repr

/-- A Fleyth port: its output queue of messages, each with whether it was found bad on its way through (R359, R360), the running
disparity of a sideband port's transmitter (R351), the times of the keepalives and valid messages that count towards
the link coming up (R353), the in-band bytes of the message being sent, the message being received (none while hunting
for a flag) and its escape, good overhead words in a row and those since the last flag (R355), whole in-band
messages not yet handled, the wake pattern to be sent (R369), and the address of the neighbour the port leads to, as
far as it is known (R358). -/
structure FlyPort where
  outq : List (List Byte × Bool) := []
  rd : Bool := false
  hears : List Nat := []
  sending : List Byte := []
  rx : Option (List Byte) := none
  rxEsc : Bool := false
  goodOh : Nat := 0
  sinceFlag : Nat := 16
  inbox : List (List Byte) := []
  sendWake : Bool := false
  nbr : Option Nat := none
  deriving DecidableEq, Repr

/-- The hidden state of FLY: ports, the worker's request queue (R366), the nodes found and the running discovery, the
next request sequence number and the requests in flight (TAG, address; R365), the probes to be relayed
(port, TAG) and the assignments to be confirmed (port, base, size; R362), and whether this 1 ms window's first drop was
raised (R371); and the link changes and received NOTIFYs not yet passed on: address, code, port (R367). -/
structure Fly where
  ports : Vector FlyPort 10 := Vector.replicate 10 {}
  reqs : List FlyReq := []
  nodes : List FlyNode := []
  disc : Option Disc := none
  seq : Nat := 0
  flight : List (Nat × Nat) := []
  probes : List (Nat × Nat) := []
  assigns : List (Nat × Nat × Nat) := []
  dropSeen : Bool := false
  notes : List (Nat × Nat × Nat) := []
  deriving DecidableEq, Repr

/-! ### DMA (spec/16) -/

/-- The hidden state of a DMA channel: a request held (R390), the granules the current burst still allows (R389),
granules read and granules written of the active set, the granules staged (the transform block, R391, R396), whether
the set runs downwards (R399), and the master and level latched at START (R392). -/
structure DmaCh where
  held : Bool := false
  burst : Nat := 0
  rd : Nat := 0
  wr : Nat := 0
  staged : List (BitVec 64) := []
  down : Bool := false
  master : Master := .host
  level : Nat := 0
  deriving DecidableEq, Repr

/-- The DMA engine: its channels, and the channel served last at each priority (R391). -/
structure Dma where
  ch : Vector DmaCh 16 := Vector.replicate 16 {}
  last : Vector Nat 4 := Vector.replicate 4 0
  deriving DecidableEq, Repr

/-! ### Housekeeping (spec/17) -/

/-- A conversion list, R407 to R411: whether a trigger's delay is counting, whether a run waits for the converter or
runs, the latched entries and last entry (R408), the entry in hand, conversions made for it and their sum, and the
LAG of the entry. -/
structure HkaList where
  delaying : Bool := false
  waiting : Bool := false
  running : Bool := false
  ents : List Word := []
  trig : Word := 0
  last : Nat := 0
  idx : Nat := 0
  done : Nat := 0
  sum : Nat := 0
  lag : Nat := 0
  deriving DecidableEq, Repr

/-- A PWM channel: the PERIOD and DUTY in force (R414), and whether EN has been set since the last reset (R416). -/
structure Pwm where
  period : Nat := 0
  duty : Nat := 0
  freed : Bool := false
  deriving DecidableEq, Repr

/-- The converter: the two lists, whether the urgent list owns the conversion now running, and the PWM channels. -/
structure Hka where
  scan : HkaList := {}
  urg : HkaList := {}
  convUrg : Bool := false
  pwm : Vector Pwm 4 := Vector.replicate 4 {}
  deriving DecidableEq, Repr

/-- A filter channel, R418 to R421: the CIC's integrators and combs, inputs since the last CIC output, the FIR's last
32 CIC outputs (newest first), CIC outputs since the last FIR output, inputs since the full restart, the carded
output's sums and counts over the previous and the current block of D inputs, the inputs of the current block, and
whether this 1 ms window's SAT event was raised. -/
structure FltCh where
  integ : List Int := []
  comb : List Int := []
  phase : Nat := 0
  fir : List Int := []
  firPhase : Nat := 0
  seen : Nat := 0
  prevSum : Nat := 0
  prevCnt : Nat := 0
  curSum : Nat := 0
  curCnt : Nat := 0
  blk : Nat := 0
  satSeen : Bool := false
  deriving DecidableEq, Repr

/-! ### Test access and management pins (spec/21) -/

/-- The TAP's instructions, R499. -/
inductive TapIr where
  | bypass | idcode | sample | extest | extestPulse | extestTrain | highz | clamp
  deriving DecidableEq, Repr

/-- JTAG: the TAP's instruction and the boundary-scan cells that drive (R32, R499). Log 8 (PRESUMED). -/
structure Jtag where
  ir : TapIr := .idcode
  driving : Bool := false
  deriving DecidableEq, Repr

/-- The I3C/I2C port: the dynamic address, WR_ERR of R498 and WR_ERR as the last status byte showed it, and for the last common
command code whether the part acknowledged it and what it answered. Log 5 (DESIGN CHOICE). -/
structure I3c where
  dyn : Option Nat := none
  wrErr : Bool := false
  shown : Bool := false
  ack : Bool := false
  answer : Nat := 0
  deriving DecidableEq, Repr

/-! ### Start-up (spec/02) -/

/-- What a start remembers: whether the config shadow was kept (R40: every start but one after POR), the lifecycle read at step
2 (R469: the base level follows it from the next start on), whether the check of R490 has ended, whether the Whorl slews
back to `REFCLK` (R28), the domains that R46 has turned off until their supply is good again, and whether the reset of
R470 is to come. -/
structure Start where
  kept : Bool := false
  lifecycle : Nat := 0
  checked : Bool := false
  slew : Bool := false
  isolated : Nat := 0
  returning : Bool := false
  deriving DecidableEq, Repr

/-! ### The whole part -/

/-- The part without its OTP and its distaff. `regs`: the register words by management address, as changes from the
reset words of the register tables (`resetWord`); `frz`: the shadows of the counts frozen by R451, by address; `mem`
and `valid`: the memories' bytes and the granules that are valid (R374); `flips`: the stored bits that differ from
the code's, by granule (R381); `cfg`: the config shadow in its SRAM, none while it is not valid (R40); `answers`: the
fabric's answer to the last access of host, Spindle A, Spindle B and DMA (R4); `limited`: only the reads of R31 are
answered (until RDY_OSC, in module low power, after a trip); `straps`: `ADDR_SEL1`, `ADDR_SEL0` and
`MGR_SEL` as latched (R52, R487); `fwReadySeen`: FW_READY has been 1 since reset (R42, R271, R300);
`fresh`: the model's own counter that tells free values apart. -/
structure Chip where
  regs : List (Nat × Word) := []
  frz : List (Nat × Word) := []
  evt : EvtBlk
  cnt : CntBlk := {}
  mem : List Host.Cell := []
  valid : List (Nat × Bool) := []
  flips : List (Nat × Nat) := []
  ecc : EccBlk := {}
  pmu : Pmu := {}
  thm : Thm := {}
  flash : Flash := {}
  cfg : Option ShadowCfg := none
  mbx : Mailbox := {}
  spn : Spindles := {}
  sess : Session := {}
  alarms : Vector HkAlarm 22 := Vector.replicate 22 {}
  ports : Vector Port 16 := Vector.replicate 16 {}
  answers : Vector BusAnswer 4 := Vector.replicate 4 {}
  host : Vector HostLane 16 := Vector.replicate 16 {}
  quads : Vector QuadSt 4 := Vector.replicate 4 {}
  rx : Vector LineRx 9 := Vector.replicate 9 {}
  tx : Vector LineTx 9 := Vector.replicate 9 {}
  framer : Vector Framer 9 := Vector.replicate 9 {}
  hnk : Hnk := {}
  ply : Ply := {}
  crl : Creel := {}
  fly : Fly := {}
  dma : Dma := {}
  hka : Hka := {}
  flt : Vector FltCh 31 := Vector.replicate 31 {}
  jtag : Jtag := {}
  i3c : I3c := {}
  start : Start := {}
  straps : Nat := 0
  fwReadySeen : Bool := false
  limited : Bool := false
  fresh : Nat := 0
  deriving DecidableEq, Repr

end Sys2Proof.Machine
end

