-- ==== Sys2Proof/Machine/Flags.lean ====
section
/-! DEFINITION. The flags that tell software what happened: event sources, records, skeins and interrupts
(spec/13 R330 to R347), and the general counters that count them (spec/19 R447, R448). -/

namespace Sys2Proof.Machine

/-- The kinds of an event source, R330. -/
inductive SrcKind where
  | pulse | level | reserved
  deriving DecidableEq, Repr

/-- Is `n` in `lo` to `lo + c - 1`? -/
def inRange (n lo c : Nat) : Bool := decide (lo ≤ n) && decide (n < lo + c)

/-- The level sources of the source table, R345, R385, R446. -/
def isLevelSrc (n : Nat) : Bool :=
  inRange n 0x000 16 || inRange n 0x060 9 || inRange n 0x070 9 || inRange n 0x090 9 || inRange n 0x0A0 9 ||
  n == 0x0C1 || inRange n 0x0D0 9 || inRange n 0x160 9 || n == 0x181 || n == 0x182 || n == 0x1D0 || n == 0x1D3 ||
  n == 0x052 || n == 0x055 || n == 0x1C1 || n == 0x1C3

/-- The pulse sources of the source tables, R345, R371, R385, R403, R423, R446, R450, R451, R455, R483. -/
def isPulseSrc (n : Nat) : Bool :=
  inRange n 0x010 16 || inRange n 0x020 16 || inRange n 0x030 7 || inRange n 0x040 4 || inRange n 0x044 4 ||
  inRange n 0x050 2 || inRange n 0x053 2 || n == 0x056 || inRange n 0x058 4 || inRange n 0x080 9 ||
  inRange n 0x0B0 9 || inRange n 0x0C2 2 || inRange n 0x0E0 9 || inRange n 0x0F0 9 || inRange n 0x100 9 ||
  inRange n 0x110 9 || inRange n 0x120 9 || n == 0x130 || inRange n 0x140 10 || inRange n 0x150 9 ||
  inRange n 0x170 9 || n == 0x180 || n == 0x183 || inRange n 0x190 16 || inRange n 0x1A0 8 || inRange n 0x1A8 5 ||
  inRange n 0x1B0 6 || n == 0x1B8 || n == 0x1B9 || inRange n 0x1BC 3 || n == 0x1C0 || n == 0x1C2 ||
  inRange n 0x1C4 4 || n == 0x1D1 || n == 0x1D2 || n == 0x1D4 || n == 0x1D5 || inRange n 0x1D8 7 ||
  inRange n 0x1E0 32

/-- The kind of a source, R345. -/
def srcKind (n : Nat) : SrcKind :=
  if isLevelSrc n then .level else if isPulseSrc n then .pulse else .reserved

/-- A bit of a 512-bit array. -/
def bit512 (v : BitVec 512) (n : Nat) : Bool := v.getLsbD n

/-- A 512-bit array with bit `n` set or cleared. -/
def put512 (v : BitVec 512) (n : Nat) (b : Bool) : BitVec 512 :=
  if b then v ||| (1#512 <<< n) else v &&& ~~~ (1#512 <<< n)

/-- The priority of a source for consumer `c`, R337: bits [3:0] host, [7:4] Spindle A, [11:8] Spindle B. -/
def EvtBlk.prioOf (e : EvtBlk) (c src : Nat) : Nat := bitsOf (tabGet (fun _ => 0) e.prio src) (4 * c) 4

/-- The records of a skein that are not free: the waiting ones and the held one. -/
def Skein.used (k : Skein) : Nat := k.waiting + (if k.held.isSome then 1 else 0)

/-- The layout of an event record, R335. -/
def recordBits (time seq src level kind coal prio payload : Nat) : BitVec 128 :=
  BitVec.ofNat 128 (time % 2 ^ 48 + 2 ^ 48 * (seq % 2 ^ 16)
    + 2 ^ 64 * (src % 2 ^ 9 + 2 ^ 9 * level + 2 ^ 10 * kind + 2 ^ 11 * coal + 2 ^ 12 * prio)
    + 2 ^ 80 * (payload % 2 ^ 48))

/-- The key of a record in the skein memory: consumer, skein, slot (R337). -/
def recKey (c k i : Nat) : Nat := 512 * c + 32 * k + i

/-- A message on its way to EVT: its source and payload, whether its record is coalesced, the consumers it goes to
(R330, R332), and how many occurrences it stands for that a KIND 1 counter counts (R447). -/
structure Msg where
  src : Nat
  pay : Nat
  coal : Bool
  dest : List (Fin 3)
  occ : Nat
  deriving DecidableEq, Repr

/-- The record writer of consumer `c` writes one record, R338; when the skein is full it writes none, the source
becomes pending and the skein's OVF is set (R343). The second part tells the skein that overflowed. -/
def writeRecord (e : EvtBlk) (c : Fin 3) (src pay : Nat) (coal : Bool) (time : Nat) : EvtBlk × Option Nat :=
  let co := e.cons[c.1]
  let k := e.prioOf c.1 src
  let sk := co.skeins[k % 16]'(Nat.mod_lt _ (by decide))
  if sk.used < 32 then
    let slot := (sk.head + sk.waiting) % 32
    let lvl := srcKind src = .level
    let r := recordBits time co.seq src (b2n (lvl && bit512 e.live src)) (b2n lvl) (b2n coal) k pay
    let sk' := { sk with waiting := sk.waiting + 1 }
    let co' := { co with
      skeins := co.skeins.set (k % 16) sk' (Nat.mod_lt _ (by decide))
      seq := (co.seq + 1) % 65536 }
    ({ e with cons := e.cons.set c.1 co' c.2,
              recs := tabSet (fun _ => none) e.recs (recKey c.1 k slot) (some r) }, none)
  else
    let sk' := { sk with ovf := true }
    let co' := { co with
      skeins := co.skeins.set (k % 16) sk' (Nat.mod_lt _ (by decide))
      pend := put512 co.pend src true }
    ({ e with cons := e.cons.set c.1 co' c.2 }, some k)

/-- A message reaches one consumer: it becomes pending where the source is masked (R333) or the record writer is
halted (R347, with its timestamp), else a record is written. -/
def deliver (e : EvtBlk) (c : Fin 3) (m : Msg) : EvtBlk × Option Nat :=
  let co := e.cons[c.1]
  if e.halted then
    let co' := { co with
      pend := put512 co.pend m.src true
      stamps := if co.stamps.any (fun p => p.1 == m.src) then co.stamps else co.stamps ++ [(m.src, e.time)] }
    ({ e with cons := e.cons.set c.1 co' c.2 }, none)
  else if bit512 co.mask m.src then
    ({ e with cons := e.cons.set c.1 { co with pend := put512 co.pend m.src true } c.2 }, none)
  else writeRecord e c m.src m.pay m.coal e.time

/-- A message reaches every consumer it goes to; the second part lists the (consumer, skein) overflows. -/
def deliverAll (e : EvtBlk) (m : Msg) : List (Fin 3) → EvtBlk × List (Nat × Nat)
  | [] => (e, [])
  | c :: t =>
    let (e1, o) := deliver e c m
    let (e2, os) := deliverAll e1 m t
    (e2, (match o with | none => [] | some k => [(c.1, k)]) ++ os)

/-- The count of general counter `i`. -/
def CntBlk.get (c : CntBlk) (i : Nat) : Nat := tabGet (fun _ => 0) c.count i

/-- Counter `i` with `n` more occurrences, R448: it stops at the top while SAT is 1; otherwise it wraps, which sets
its `CNT_OVF` bit. The second part tells whether it wrapped. -/
def CntBlk.bump (c : CntBlk) (i n : Nat) (sat : Bool) : CntBlk × Bool :=
  let x := c.get i + n
  if x < 2 ^ 48 then ({ c with count := tabSet (fun _ => 0) c.count i x }, false)
  else if sat then ({ c with count := tabSet (fun _ => 0) c.count i (2 ^ 48 - 1) }, false)
  else ({ c with count := tabSet (fun _ => 0) c.count i (x % 2 ^ 48), ovf := c.ovf ||| (1#256 <<< i) }, true)

/-- Every running counter whose selection passes `sel` (of KIND and ARG) counts `n` occurrences, R447. The second
part lists the counters that wrapped. -/
def CntBlk.bumpAll (sel : Nat → Nat → Bool) (n : Nat) : List (Nat × Word) → CntBlk → CntBlk × List Nat
  | [], c => (c, [])
  | (i, w) :: t, c =>
    if getBits w 31 1 = 1 ∧ sel (getBits w 24 4) (getBits w 0 9) = true then
      let (c1, o) := c.bump i n (getBits w 30 1 == 1)
      let (c2, os) := CntBlk.bumpAll sel n t c1
      (c2, (if o then [i] else []) ++ os)
    else CntBlk.bumpAll sel n t c

/-- All three consumers. -/
def allConsumers : List (Fin 3) := [0, 1, 2]

/-- A message of a pulse source, R330. -/
def pulseMsg (src pay : Nat) : Msg := ⟨src, pay, false, allConsumers, 1⟩

/-- A further message of a source whose first is not yet written: the record carries COAL = 1 and the later payload (R338). -/
def Msg.merge (m later : Msg) : Msg := { later with coal := true, occ := m.occ + later.occ }

/-- A message joins those not yet written: behind them, or merged into the one of its source for the same consumers (R338).
Log 30 (DESIGN CHOICE). -/
def queueMsg : List Msg → Msg → List Msg
  | [], m => [m]
  | x :: t, m => if x.src = m.src ∧ x.dest = m.dest then x.merge m :: t else x :: queueMsg t m

/-- The messages waiting at EVT are sensed one after another, with what they bring about: an occurrence is counted
where a counter selects it (a wrap raises EVS_CNT_OVF, R448), and a message that meets a full skein raises
EVS_SKEIN_OVERFLOW unless it is one itself (R343). What they bring about joins the messages not yet written (R338).
Log 30 (DESIGN CHOICE). -/
def sense (capOn : Bool) : Nat → List Msg → EvtBlk → CntBlk → EvtBlk × CntBlk
  | 0, _, e, c => (e, c)
  | _ + 1, [], e, c => (e, c)
  | fuel + 1, m :: rest, e, c =>
    let (c1, wraps) :=
      if 0 < m.occ ∧ capOn = true then CntBlk.bumpAll (fun k a => k == 1 && a == m.src) m.occ c.sel c else (c, [])
    let (e1, ovs) := deliverAll e m m.dest
    let more := wraps.map (fun i => pulseMsg 0x044 i)
      ++ (if m.src = 0x1BD then [] else ovs.map (fun p => pulseMsg 0x1BD (p.1 + 16 * p.2)))
    sense capOn fuel (more.foldl queueMsg rest) e1 c1

/-- How many messages one step can bring about: one per source and the wraps of 256 counters, several times over. -/
def senseFuel : Nat := 4096

/-- The source's level asserts: its live bit, its payload, and the message to every consumer whose arm bit is 1,
which clears it (R332). Nothing happens where the level stands already. -/
def assertLevel (e : EvtBlk) (src pay : Nat) : EvtBlk × List Msg :=
  if bit512 e.live src then (e, [])
  else
    let dest := allConsumers.filter (fun c => bit512 e.cons[c.1].arm src)
    let e1 := { e with
      live := put512 e.live src true
      levelPay := tabSet (fun _ => 0) e.levelPay src pay
      cons := e.cons.map (fun co => { co with arm := put512 co.arm src false }) }
    (e1, [⟨src, pay, false, dest, 1⟩])

/-- The source's level falls; records stay (R344). -/
def dropLevel (e : EvtBlk) (src : Nat) : EvtBlk := { e with live := put512 e.live src false }

/-- A coalesced record for a source that is pending and unmasked at consumer `c`, and the pending bit clears (R333);
a full skein keeps it pending. Reserved sources have no effect (R349). -/
def flushPend (e : EvtBlk) (c : Fin 3) (src : Nat) (time : Nat) : EvtBlk × List Msg :=
  let co := e.cons[c.1]
  if bit512 co.pend src && !(bit512 co.mask src) && !e.halted && decide (srcKind src ≠ .reserved) then
    let e1 := { e with cons := e.cons.set c.1 { co with pend := put512 co.pend src false } c.2 }
    match writeRecord e1 c src 0 true time with
    | (e2, none) => (e2, [])
    | (e2, some k) => (e2, if src = 0x1BD then [] else [pulseMsg 0x1BD (c.1 + 16 * k)])
  else (e, [])

/-- `flushPend` over a list of sources, in its order. -/
def flushList (c : Fin 3) (time : Nat) : List Nat → EvtBlk → EvtBlk × List Msg
  | [], e => (e, [])
  | src :: t, e =>
    let (e1, ms) := flushPend e c src time
    let (e2, ms') := flushList c time t e1
    (e2, ms ++ ms')

/-- The 32 sources of word `w` whose bit is 1 in `v`. -/
def wordSources (w : Nat) (v : Word) : List Nat := (bitsSet 32 v.toNat).map (fun b => 32 * w + b)

/-- A word's bits put into word `w` of a 512-bit array. -/
def word512 (w : Nat) (v : Word) : BitVec 512 := BitVec.ofNat 512 (v.toNat <<< (32 * w))

/-- Word `w` of a 512-bit array. -/
def getWord512 (v : BitVec 512) (w : Nat) : Word := BitVec.ofNat 32 (v.toNat >>> (32 * w))

/-- The in-service set of a consumer as a bit mask: the levels whose record is held (R342). -/
def Consumer.inService (co : Consumer) : Nat :=
  maskOf 16 (fun k => match co.skeins[k]? with | some sk => sk.held.isSome | none => false)

/-- The current level of a consumer: the highest in service, or none (R340). -/
def Consumer.current (co : Consumer) : Option Nat := (bitsSet 16 co.inService).getLast?

/-- The skeins that hold a waiting record. -/
def Consumer.nonEmpty (co : Consumer) : Nat :=
  maskOf 16 (fun k => match co.skeins[k]? with | some sk => decide (0 < sk.waiting) | none => false)

/-- The skein that a claim would take from: the highest above the current level that holds a waiting record. -/
def Consumer.claimable (co : Consumer) : Option Nat :=
  ((bitsSet 16 co.nonEmpty).filter (fun k => match co.current with | none => true | some l => decide (l < k))).getLast?

/-- A consumer's interrupt, R340. Log 126 (DESIGN CHOICE). -/
def Consumer.interrupt (co : Consumer) : Bool := co.en && co.claimable.isSome

/-- The sources the consumer has pending, rising. -/
def Consumer.pendingList (co : Consumer) : List Nat := bitsSet 512 co.pend.toNat

/-- A claim at consumer `c`, R341: the oldest waiting record of the highest claimable skein becomes held. The answer
is the `EVT_CLAIM` word. -/
def claim (e : EvtBlk) (c : Fin 3) : EvtBlk × Word :=
  let co := e.cons[c.1]
  match co.claimable with
  | none => (e, 0)
  | some k =>
    let sk := co.skeins[k % 16]'(Nat.mod_lt _ (by decide))
    let slot := sk.head
    let sk' := { sk with head := (sk.head + 1) % 32, waiting := sk.waiting - 1, held := some slot }
    let co' := { co with skeins := co.skeins.set (k % 16) sk' (Nat.mod_lt _ (by decide)) }
    let r := ((tabGet (fun _ => none) e.recs (recKey c.1 k slot)).getD 0).toNat
    ({ e with cons := e.cons.set c.1 co' c.2 },
     BitVec.ofNat 32 (2 ^ 31 + 2 ^ 24 * k + 2 ^ 16 * slot + bitsOf r 64 12))

/-- The record writer writes records for the pending and unmasked sources of a skein in the list's order while slots
of the skein remain free, R343. -/
def refill (c : Fin 3) (k : Fin 16) : List Nat → EvtBlk → EvtBlk
  | [], e => e
  | src :: t, e => refill c k t (if (e.cons[c.1].skeins[k.1]).used < 32 then (flushPend e c src e.time).1 else e)

/-- An end of interrupt of level `l` at consumer `c`, R342, with the records that a freed slot lets the writer write
(R343). The second part lists the messages it raises. -/
def endOfInterrupt (e : EvtBlk) (c : Fin 3) (l : Nat) : EvtBlk × List Msg :=
  let co := e.cons[c.1]
  let cur := co.current
  let fault := pulseMsg 0x1BC (c.1 + 2 ^ 8 * l + 2 ^ 16 * (cur.getD 0xF))
  let sk := co.skeins[l % 16]'(Nat.mod_lt _ (by decide))
  if sk.held.isSome then
    let sk' := { sk with held := none }
    let e1 := { e with
      cons := e.cons.set c.1 { co with skeins := co.skeins.set (l % 16) sk' (Nat.mod_lt _ (by decide)) } c.2 }
    let e2 := refill c ⟨l % 16, Nat.mod_lt _ (by decide)⟩ (co.pendingList.filter (fun src => e.prioOf c.1 src == l)) e1
    (e2, if cur = some l then [] else [fault])
  else (e, [fault])

end Sys2Proof.Machine
end

