-- ==== Sys2Proof/Machine/Ops.lean ====
section
/-! DEFINITION. The named operations on the part: registers and fields, power domains, event sources, the blocks of
the management address map, privilege levels and the order in which an access is checked (spec/00, spec/01,
spec/20). -/

namespace Sys2Proof.Machine

/-! ### The management address map (spec/01) -/

/-- The windows of the management address map; a lane block carries its lane. -/
inductive Blk where
  | glb | mbx | evt | pmu | thm | clk | grd | cnt | hka | flt | dma | ecc | fly
  | hln (n : Nat) | lrx (n : Nat) | ltx (n : Nat)
  | crl | twf | hnk
  | hankWin | capWin | shadowWin | spWin (b : Nat)
  deriving DecidableEq, Repr

/-- The window that holds an address, spec/01 "Management address map"; none outside every window (R5). -/
def blkOf (a : Nat) : Option Blk :=
  if a < 0x10000 then some .glb
  else if a < 0x20000 then some .mbx
  else if a < 0x30000 then some .evt
  else if a < 0x40000 then some .pmu
  else if a < 0x50000 then some .thm
  else if a < 0x60000 then some .clk
  else if a < 0x70000 then some .grd
  else if a < 0x80000 then some .cnt
  else if a < 0x90000 then some .hka
  else if a < 0xA0000 then some .flt
  else if a < 0xB0000 then some .dma
  else if a < 0xC0000 then some .ecc
  else if a < 0xD0000 then some .fly
  else if a < 0x100000 then none
  else if a < 0x200000 then some (.hln ((a - 0x100000) / 0x10000))
  else if a < 0x290000 then some (.lrx ((a - 0x200000) / 0x10000))
  else if a < 0x300000 then none
  else if a < 0x390000 then some (.ltx ((a - 0x300000) / 0x10000))
  else if a < 0x400000 then none
  else if a < 0x410000 then some .crl
  else if a < 0x420000 then some .twf
  else if a < 0x430000 then some .hnk
  else if a < 0x800000 then none
  else if a < 0xC00000 then some .hankWin
  else if a < 0xE00000 then some .capWin
  else if a < 0xE40000 then some .shadowWin
  else if a < 0xF00000 then none
  else if a < 0xF80000 then some (.spWin 0)
  else if a < 0x1000000 then some (.spWin 1)
  else none

/-- The base address of a window. -/
def Blk.base : Blk → Nat
  | .glb => 0x000000 | .mbx => 0x010000 | .evt => 0x020000 | .pmu => 0x030000 | .thm => 0x040000
  | .clk => 0x050000 | .grd => 0x060000 | .cnt => 0x070000 | .hka => 0x080000 | .flt => 0x090000
  | .dma => 0x0A0000 | .ecc => 0x0B0000 | .fly => 0x0C0000
  | .hln n => 0x100000 + 0x10000 * n | .lrx n => 0x200000 + 0x10000 * n | .ltx n => 0x300000 + 0x10000 * n
  | .crl => 0x400000 | .twf => 0x410000 | .hnk => 0x420000
  | .hankWin => 0x800000 | .capWin => 0xC00000 | .shadowWin => 0xE00000 | .spWin b => 0xF00000 + 0x80000 * b

/-- The number (R320) of the power domain of a window, spec/01. -/
def Blk.pd : Blk → Nat
  | .cnt | .dma | .capWin => 19
  | .hka | .flt => 20
  | .fly => 21
  | .hln n => 3 + n / 4
  | .lrx n | .ltx n => 7 + n
  | .crl => 16
  | .twf => 17
  | .hnk | .hankWin => 18
  | .spWin b => 1 + b
  | _ => 0

/-- The register table of a window. -/
def Blk.descs : Blk → List RegDesc
  | .glb => regDescsGlb | .mbx => regDescsMbx | .pmu => regDescsPmu | .thm => regDescsThm | .clk => regDescsClk
  | .grd => regDescsGrd | .cnt => regDescsCnt | .hka => regDescsHka | .flt => regDescsFlt | .dma => regDescsDma
  | .ecc => regDescsEcc | .fly => regDescsFly | .hln _ => regDescsHln | .lrx _ => regDescsLrx
  | .ltx _ => regDescsLtx | .crl => regDescsCrl | .twf => regDescsTwf | .hnk => regDescsHnk
  | .evt | .hankWin | .capWin | .shadowWin | .spWin _ => []

/-- Does the row of a register table cover an offset? -/
def RegDesc.covers (d : RegDesc) (off : Nat) : Bool :=
  if d.stride = 0 then off == d.off
  else decide (d.off ≤ off) && (off - d.off) % d.stride == 0 && decide ((off - d.off) / d.stride < d.count)

/-- The row of the register table that an address falls on. -/
def regDescOf (a : Nat) : Option RegDesc :=
  match blkOf a with
  | none => none
  | some b => b.descs.find? (fun d => d.covers (a - b.base))

/-- The reset value of the register at an address, zero where there is none. -/
def resetWord (a : Nat) : Word :=
  match regDescOf a with
  | none => 0
  | some d => d.reset

/-! ### Registers -/

/-- The word that the register at an address holds. -/
def Chip.reg (s : Chip) (a : Nat) : Word := tabGet resetWord s.regs a

/-- The register at an address holding a word. -/
def Chip.setReg (s : Chip) (a : Nat) (v : Word) : Chip := { s with regs := tabSet resetWord s.regs a v }

/-- The value of a field. -/
def Chip.fld (s : Chip) (f : Fld) : Nat := getBits (s.reg f.addr) f.lo f.w

/-- A field holding a value (its low bits). -/
def Chip.setFld (s : Chip) (f : Fld) (v : Nat) : Chip := s.setReg f.addr (setBits (s.reg f.addr) f.lo f.w v)

/-- Is a one-bit field 1? -/
def Chip.flag (s : Chip) (f : Fld) : Bool := s.fld f == 1

/-- A one-bit field at a truth value. -/
def Chip.setFlag (s : Chip) (f : Fld) (b : Bool) : Chip := s.setFld f (b2n b)

/-- A count field with `n` added; it stops at its largest value. -/
def Chip.satInc (s : Chip) (f : Fld) (n : Nat) : Chip := s.setFld f (satAdd (2 ^ f.w - 1) (s.fld f) n)

/-- A count field with `n` added, wrapping. -/
def Chip.wrapInc (s : Chip) (f : Fld) (n : Nat) : Chip := s.setFld f (s.fld f + n)

/-- Bit `i` of a field set or cleared. -/
def Chip.setFldBit (s : Chip) (f : Fld) (i : Nat) (b : Bool) : Chip :=
  s.setFld f (if b then setBitN (s.fld f) i else clrBitN (s.fld f) i)

/-- The register at an address back at its reset value. -/
def Chip.resetReg (s : Chip) (a : Nat) : Chip := { s with regs := tabErase s.regs a }

/-- Every register whose address passes `p` back at its reset value. -/
def Chip.resetRegs (s : Chip) (p : Nat → Bool) : Chip := { s with regs := s.regs.filter (fun x => !(p x.1)) }

/-- A fresh number that tells free values apart, and the part with the next one ready. Log 3 (DESIGN CHOICE). -/
def Chip.draw (s : Chip) : Nat × Chip := (s.fresh, { s with fresh := s.fresh + 1 })

/-! ### Folding over lists of changes -/

/-- The part after `f` for every element of a list, in order. -/
def Chip.forAll {α : Type} (s : Chip) (l : List α) (f : Chip → α → Chip) : Chip := l.foldl f s

/-- The part after `f` where `b` holds. Log 4 (DESIGN CHOICE). -/
def Chip.when (s : Chip) (b : Bool) (f : Chip → Chip) : Chip := if b then f s else s

/-! ### Power domains -/

/-- The settled state of domain `d` (R320). `PD_AON` is always ON (R426). -/
def Chip.pdOf (s : Chip) (d : Nat) : Power := if d = 0 then .on else (s.pmu.pd.toList[d]?).getD .off

/-- Is domain `d` ON and not changing? -/
def Chip.pdOn (s : Chip) (d : Nat) : Bool := decide (s.pdOf d = .on)

/-- Domain `d` in a state. -/
def Chip.setPd (s : Chip) (d : Nat) (p : Power) : Chip :=
  if h : d < 22 then { s with pmu := { s.pmu with pd := s.pmu.pd.set d p h } } else s

/-- The domains of a 22-bit mask, rising. -/
def domainsOf (m : Nat) : List Nat := bitsSet 22 m

/-! ### Event sources -/

/-- Messages reach EVT in a cycle and are sensed in their order (R330, R338, R447). Log 30 (DESIGN CHOICE). -/
def Chip.emit (s : Chip) (ms : List Msg) : Chip :=
  let r := sense (s.pdOn 19) senseFuel (ms.foldl queueMsg []) s.evt s.cnt
  { s with evt := r.1, cnt := r.2 }

/-- A pulse source raises its event with a payload. -/
def Chip.raise (s : Chip) (src pay : Nat) : Chip := s.emit [pulseMsg src pay]

/-- A level source asserts with a payload or falls (R330, R332). -/
def Chip.setLevel (s : Chip) (src : Nat) (b : Bool) (pay : Nat) : Chip :=
  if b then
    let r := assertLevel s.evt src pay
    Chip.emit { s with evt := r.1 } r.2
  else { s with evt := dropLevel s.evt src }

/-- A general counter of another KIND than events counts `n` (R447); CNT lies in `PD_CAP`. -/
def Chip.count (s : Chip) (sel : Nat → Nat → Bool) (n : Nat) : Chip :=
  if s.pdOn 19 then
    let r := CntBlk.bumpAll sel n s.cnt.sel s.cnt
    Chip.emit { s with cnt := r.1 } (r.2.map (fun i => pulseMsg 0x044 i))
  else s

/-! ### Masters and privilege (spec/20 R458 to R460) -/

/-- The place of a master in the order of R14. -/
def masterIdx : Master → Fin 4
  | .host => 0 | .spindleA => 1 | .spindleB => 2 | .dma => 3

/-- The number of a spindle in `GRD_DISTAFF.HOLDER`. -/
def spNum : Spindle → Nat
  | .a => 1 | .b => 2

/-- The number of the master in `GRD_DISTAFF.HOLDER`, 0 for the others. -/
def masterSpindle : Master → Nat
  | .spindleA => 1 | .spindleB => 2 | _ => 0

/-- The level of the host session. -/
def Chip.sessionLevel (s : Chip) : Nat := s.fld GRD_SESSION.LEVEL

/-- Is the lifecycle one of BLANK, PROBE, RETURNED (R459)? -/
def openLifecycle (lc : Nat) : Bool := lc == 0 || lc == 1 || lc == 4

/-- The base level of the host session, R459; it goes by the lifecycle read at the last start (R469). -/
def Chip.baseLevel (s : Chip) : Nat :=
  if openLifecycle s.start.lifecycle || s.flag GRD_LC.DEBUG_IMAGE then 3
  else if s.fld GRD_SESSION.BASE = 0 then 0 else 1

/-- The host session at a level, with EVS_SESSION where the level changes (R483). -/
def Chip.setSession (s : Chip) (l : Nat) : Chip :=
  if s.sessionLevel = l then s else (s.setFld GRD_SESSION.LEVEL l).raise 0x1DA l

/-- The level of a master's access (R458, R460); a DMA channel brings its own. -/
def Chip.masterLevel (s : Chip) (m : Master) : Nat :=
  match m with
  | .spindleA | .spindleB => 3
  | .host | .dma => s.sessionLevel

/-! ### The guard table (spec/20 R463 to R465) -/

/-- The three words of guard table entry `i`. -/
def Chip.guardEntry (s : Chip) (i : Nat) : Word × Word × Word :=
  (s.reg (GRD_ENTRY0.addr i), s.reg (GRD_ENTRY1.addr i), s.reg (GRD_ENTRY2.addr i))

/-- Is entry `i` valid, of this KIND, and does its range contain `x`? -/
def Chip.guardHit (s : Chip) (kind x i : Nat) : Bool :=
  let e := s.guardEntry i
  getBits e.1 31 1 == 1 && getBits e.1 24 4 == kind && decide (getBits e.1 0 24 ≤ x) && decide (x ≤ getBits e.2.1 0 24)

/-- The PERM of the lowest-numbered valid entry of this KIND whose range contains `x`; until FW_READY every entry is
invalid (spec/20 "The guard table"). -/
def Chip.guardPerm (s : Chip) (kind x : Nat) : Option Nat :=
  if !(s.flag GLB_BOOT_STATUS.FW_READY) then none
  else ((List.range 64).find? (fun i => s.guardHit kind x i)).map (fun i => getBits (s.guardEntry i).2.2 0 8)

/-- An address-range PERM grants read (`w` false) or write (`w` true) to level `l`, R464. -/
def permAddr (perm l : Nat) (w : Bool) : Bool :=
  (List.range (l + 1)).any (fun k => bit perm (2 * k + b2n w))

/-- A command-range PERM grants execution to level `l`, R464. -/
def permCmd (perm l : Nat) : Bool := (List.range (l + 1)).any (fun k => bit perm k)

/-- The base grant of R464 and R456 for an address: the lowest level that reads and that writes. A resource that only
the holder writes grants every level, and R7 then ignores the write. -/
def baseGrant (b : Blk) (off : Nat) (w : Bool) : Nat :=
  match b with
  | .glb => if off = 0x8 then (if w then 2 else 0) else (if w then 1 else 0)
  | .mbx => 0
  | .evt => if w then (if 0x2000 ≤ off ∧ off < 0x4000 then 0 else 1) else 0
  | .pmu | .hka | .flt => if w then 1 else 0
  | .thm | .clk | .fly | .crl | .twf | .hnk => 0
  | .grd => if w then 2 else 0
  | .cnt => if off < 0x10 ∨ (0x40 ≤ off ∧ off < 0x300) then (if w then 1 else 0) else 1
  | .dma => 1
  | .ecc => if 0x200 ≤ off ∧ off < 0x220 then 2 else (if w then 1 else 0)
  | .hln _ | .lrx _ | .ltx _ =>
    if off < 0x1000 then (if w then 1 else 0)
    else if off < 0x2000 then 1
    else if off < 0x8000 then 0
    else 3
  | .hankWin | .capWin => 1
  | .shadowWin => if w then 0 else 2
  | .spWin _ => 3

/-- Is the grant of an address fixed (R465)? -/
def grantFixed (b : Blk) (off : Nat) (w : Bool) : Bool :=
  match b with
  | .grd => w
  | .ecc => decide (0x200 ≤ off) && decide (off < 0x220)
  | .hln _ | .lrx _ | .ltx _ => decide (0x8000 ≤ off)
  | .shadowWin => !w
  | .spWin _ => true
  | _ => false

/-- Is the register or window at an address firmware-owned: every field of it FW (R7)? Log 33 (DEDUCED). -/
def fwOwned (b : Blk) (off : Nat) : Bool :=
  match b with
  | .thm | .clk | .fly | .crl | .twf | .hnk => true
  | .hln _ | .lrx _ | .ltx _ => decide (0x2000 ≤ off) && decide (off < 0x8000)
  | .shadowWin => true
  | .evt => decide (0x2000 ≤ off) && decide (off < 0x4000)
  | _ => false

/-- Does the guard table grant an access, R464 and R465? An entry that grants write to a level below VENDOR has no effect on a write
to a firmware-owned address; one that grants it to VENDOR alone, or to none, denies the others (R19). -/
def Chip.granted (s : Chip) (b : Blk) (a : Nat) (l : Nat) (w : Bool) : Bool :=
  let off := a - b.base
  let base := decide (baseGrant b off w ≤ l)
  if grantFixed b off w then base
  else
    match s.guardPerm 0 a with
    | none => base
    | some perm => if w && fwOwned b off && permAddr perm 2 true then base else permAddr perm l w

/-- Does a valid entry grant write at VENDOR level, which enables the debug write of R7? Log 35 (DEDUCED). -/
def Chip.debugWrite (s : Chip) (a l : Nat) : Bool :=
  l == 3 &&
  match s.guardPerm 0 a with
  | none => false
  | some perm => bit perm 7

/-! ### The order of the checks of an access (spec/01 R19) -/

/-- Is this one of the five registers that R31 lets be read before RDY_OSC? -/
def r31Readable (a : Nat) : Bool := a == 0x0 || a == 0x4 || a == 0xC || a == 0x10 || a == 0x14

/-- What is answered while `limited`: the reads of R31; in module low power also writes to `PMU_WAKE_REQ` (R435); after a trip
also reads of `THM_STATUS` and `THM_TRIP_INFO` (R443). -/
def Chip.answersLimited (s : Chip) (a : Nat) (w : Bool) : Bool :=
  if w then s.pmu.lowPower && a == PMU_WAKE_REQ.addr
  else r31Readable a || (s.flag THM_STATUS.TRIP && (a == THM_STATUS.addr || a == THM_TRIP_INFO.addr))

/-- The outcome of the checks of R19: the window of an access that passes them, or none for a bus error. `width` is
the access's width in bits (R4); while `limited`, only what `answersLimited` names passes. -/
def Chip.checkAccess (s : Chip) (l a width : Nat) (w : Bool) : Option Blk :=
  if width ≠ 32 ∨ a % 4 ≠ 0 then none
  else
    match blkOf a with
    | none => none
    | some b =>
      if s.limited && !(s.answersLimited a w) then none
      else if !(s.granted b a l w) then none
      else if !(s.pdOn b.pd) then none
      else some b

/-- Is a master cut off: the host while VDDIO is low, which isolates the management interfaces (R46)?
Log 60 (DEDUCED). -/
def Chip.cutOff (s : Chip) (m : Master) : Bool :=
  match m with
  | .host => !(s.flag GLB_SUPPLY_STATUS.IO_OK)
  | _ => false

/-- The fabric's answer to a master's access. Log 5 (DESIGN CHOICE). -/
def Chip.answer (s : Chip) (m : Master) (err : Bool) (data : Word) : Chip :=
  { s with answers := s.answers.set (masterIdx m).1 ⟨err, data⟩ (masterIdx m).2 }

/-! ### Power-on values -/

/-- A consumer of EVT at its reset values (R349): everything masked and armed, the interrupt enabled. -/
def Consumer.atReset : Consumer :=
  ⟨BitVec.allOnes 512, 0, BitVec.allOnes 512, Vector.replicate 16 {}, 0, true, []⟩

/-- The event block at its reset values (R346). -/
def EvtBlk.atReset : EvtBlk := ⟨Vector.replicate 3 Consumer.atReset, 0, [], 0, 0, 0, [], [], false, false⟩

/-- The registers that show OTP (R222, R462, R468, R503), and the lifecycle that the base level goes by.
Log 6 (DESIGN CHOICE). -/
def Chip.showOtp (s : Chip) (o : Otp) : Chip :=
  let keyOk := o.ownerKey.isSome && o.digestOk && !o.keyKilled
  let s := (s.setFld GRD_LC.STATE o.lifecycle).setFlag GRD_LC.KEY_OK keyOk
  let s := (s.setFld TWF_UNIT_ID_LO.ID_LO o.unitId).setFld TWF_UNIT_ID_HI.ID_HI (o.unitId >>> 32)
  let s := (s.setFlag GLB_AVS.FUSED o.coreFused).setFld GLB_AVS.TARGET (if o.coreFused then o.coreTarget else 750)
  { s with start := { s.start with lifecycle := o.lifecycle } }

/-- The host session at its base level (R459). -/
def Chip.startSession (s : Chip) : Chip := s.setFld GRD_SESSION.LEVEL s.baseLevel

/-- The part right after POR (R32, R49, R52, R487): every register at its reset value, the straps latched, the supply
monitors as the supplies stand, and only the reads of R31 answered. Log 9 (DESIGN CHOICE), 12 (DESIGN CHOICE). -/
def Chip.atPor (o : Otp) (fl : Flash) (straps supplies : Nat) : Chip :=
  let s : Chip := { evt := EvtBlk.atReset, flash := fl, straps := straps, limited := true }
  ((s.setReg GLB_SUPPLY_STATUS.addr (BitVec.ofNat 32 (supplies % 64))).setFld GLB_STRAPS.MGR_SEL (straps % 2)).showOtp o |>.startSession

/-! ### Lists of lanes -/

/-- The lanes of an 8-bit mask (L0 to L7) or 9-bit mask (with L8). -/
def lanesOf (m : Nat) : List Nat := bitsSet 9 m

/-- The quad of a host lane. -/
def quadOf (h : Nat) : Nat := h / 4

end Sys2Proof.Machine
end

