-- ==== Sys2Proof/Machine/Memory.lean ====
section
/-! DEFINITION. The memories of the part and their error correction (spec/15): bytes, granules and valid bits, reads
that correct or fail, the address log, the leaky buckets and the 32-bit writes that merge. -/

namespace Sys2Proof.Machine

/-- The memories of R372; a tension table is the active (`false`) or shadow (`true`) copy of a lane. -/
inductive MemId where
  | spindle (b : Nat) | hankStore | shadow | mailbox | skein | tension (n : Nat) (sh : Bool) | capture | decode | creel
  deriving DecidableEq, Repr

/-- The codes of R372. -/
inductive Code where
  | strong | standard | light
  deriving DecidableEq, Repr

/-- The code of a memory, R372. -/
def MemId.code : MemId → Code
  | .capture | .creel => .standard
  | .decode => .light
  | _ => .strong

/-- The power domain of a memory, R372. -/
def MemId.pd : MemId → Nat
  | .spindle b => 1 + b
  | .hankStore => 18
  | .shadow | .mailbox | .skein => 0
  | .tension n _ => 7 + n
  | .capture => 19
  | .decode | .creel => 16

/-- How many granules a memory holds, R372 and R373 (a tension table entry counts as one, R380). -/
def MemId.size : MemId → Nat
  | .spindle _ => 65536
  | .hankStore => 524288
  | .shadow => 32768
  | .mailbox => 768
  | .skein => 3072
  | .tension _ _ => 256
  | .capture => 262144
  | .decode => 785920
  | .creel => 512

/-- A number of its own for each memory. -/
def MemId.no : MemId → Nat
  | .spindle b => b
  | .hankStore => 2
  | .shadow => 3
  | .mailbox => 4
  | .skein => 5
  | .capture => 6
  | .decode => 7
  | .creel => 8
  | .tension n sh => 16 + 2 * n + b2n sh

/-- The key of a granule in the tables of valid bits and of flipped bits. -/
def MemId.key (m : MemId) (i : Nat) : Nat := 2097152 * m.no + i

/-- The first management address of a memory that lies in the management space byte by byte; the memories that are not
addressable have numbers beyond that space. -/
def MemId.base : MemId → Nat
  | .spindle b => 0xF00000 + 0x80000 * b
  | .hankStore => 0x800000
  | .shadow => 0xE00000
  | .mailbox => 0x011000
  | .capture => 0xC00000
  | .decode => 0x2000000
  | .creel => 0x3000000
  | _ => 0x4000000

/-- The memory behind a management address and the byte's offset in it, R372; none where no memory lies behind. -/
def memOf (a : Nat) : Option (MemId × Nat) :=
  match blkOf a with
  | some (.spWin b) => some (.spindle b, a - (0xF00000 + 0x80000 * b))
  | some .hankWin => some (.hankStore, a - 0x800000)
  | some .shadowWin => some (.shadow, a - 0xE00000)
  | some .capWin => if a < 0xE00000 then some (.capture, a - 0xC00000) else none
  | some .mbx => if 0x011000 ≤ a ∧ a < 0x012800 then some (.mailbox, a - 0x011000) else none
  | _ => none

/-- The SRAM number (R372) of a granule of a memory; `swapped` tells for a tension table whether the lane's active copy
lies in its odd-numbered SRAM. -/
def sramOf (m : MemId) (i : Nat) (swapped : Bool) : Nat :=
  match m with
  | .spindle b => 4 * b + i / 16384
  | .hankStore => 8 + i / 16384
  | .shadow => 40 + i / 16384
  | .mailbox => 42
  | .skein => 43
  | .tension n sh => 44 + 2 * n + b2n (sh != swapped)
  | .capture => 62 + i / 16384
  | .decode => 78 + i / 16384
  | .creel => 125

/-- The memory that an SRAM belongs to, R372. -/
def memOfSram (q : Nat) (swapped : Nat → Bool) : Option MemId :=
  if q < 8 then some (.spindle (q / 4))
  else if q < 40 then some .hankStore
  else if q < 42 then some .shadow
  else if q = 42 then some .mailbox
  else if q = 43 then some .skein
  else if q < 62 then
    let n := (q - 44) / 2
    some (.tension n (((q - 44) % 2 == 1) != swapped n))
  else if q < 78 then some .capture
  else if q < 126 then some .decode
  else none

/-- Whether a lane's active tension table lies in its odd-numbered SRAM. -/
def Chip.ttSwapped (s : Chip) (n : Nat) : Bool := (s.tx.toList[n]?).elim false (fun t => t.swapped)

/-- The SRAM number of a granule. -/
def Chip.sram (s : Chip) (m : MemId) (i : Nat) : Nat :=
  sramOf m i (match m with | .tension n _ => s.ttSwapped n | _ => false)

/-! ### Bytes -/

/-- What an unlisted byte reads as: zero, since the granule is not valid (R374). Log 13 (DEDUCED). -/
def Memory.unlisted (_ : Nat) : Byte := 0

/-- The canonical form of the memory: addresses strictly rising, no byte listed that equals an unlisted one.
Log 13 (DEDUCED). -/
def Memory.wf (m : List Host.Cell) : Bool := tabWf Memory.unlisted m

/-- The byte at a management address. Log 13 (DEDUCED). -/
def Chip.byte (s : Chip) (a : Nat) : Byte := tabGet Memory.unlisted s.mem a

/-- The byte at an address replaced. Log 13 (DEDUCED). -/
def Chip.setByte (s : Chip) (a : Nat) (v : Byte) : Chip := { s with mem := tabSet Memory.unlisted s.mem a v }

/-- `n` bytes from an address. -/
def Chip.bytesAt (s : Chip) (a n : Nat) : List Byte := (List.range n).map (fun i => s.byte (a + i))

/-- A memory with bytes stored from an address on. -/
def storeBytes : Nat → List Byte → List Host.Cell → List Host.Cell
  | _, [], m => m
  | a, b :: t, m => storeBytes (a + 1) t (tabSet Memory.unlisted m a b)

/-- Bytes stored from an address on. -/
def Chip.setBytes (s : Chip) (a : Nat) (l : List Byte) : Chip := { s with mem := storeBytes a l s.mem }

/-! ### Tension tables (spec/06 R145): entries as changes from the nominal table -/

/-- The nominal entry of pattern `p`, R145: 256 s - 384, with s = p div 64 the level index of the symbol (R144). -/
def ttNominal (p : Nat) : Int := 256 * (p / 64 : Nat) - 384

/-- An entry of a copy of a lane's tension table. -/
def ttGet (t : List (Nat × Int)) (p : Nat) : Int := tabGet ttNominal t p

/-! ### Granules -/

/-- Is the granule valid (R374)? The tension tables start at the nominal table, so their granules are valid. -/
def Chip.granValid (s : Chip) (m : MemId) (i : Nat) : Bool :=
  match m with
  | .tension _ _ => true
  | .skein => (tabGet (fun _ => none) s.evt.recs (i / 2)).isSome
  | _ => tabGet (fun _ => false) s.valid (m.key i)

/-- The 64 data bits of a granule as its code holds them. -/
def Chip.granData (s : Chip) (m : MemId) (i : Nat) : Nat :=
  match m with
  | .tension n sh =>
    match s.tx.toList[n]? with
    | none => 0
    | some t => unsignedOf 10 (ttGet (if sh then t.shadow else t.active) i)
  | .skein => bitsOf ((tabGet (fun _ => none) s.evt.recs (i / 2)).getD 0).toNat (64 * (i % 2)) 64
  | _ => leNat (s.bytesAt (m.base + 8 * i) 8)

/-- A record with one of its two granules replaced. -/
def mergeRec (r : Option (BitVec 128)) (half v : Nat) : BitVec 128 :=
  let x := (r.getD 0).toNat
  BitVec.ofNat 128 (if half = 0 then bitsOf x 64 64 * 2 ^ 64 + v % 2 ^ 64 else bitsOf x 0 64 + 2 ^ 64 * (v % 2 ^ 64))

/-- A granule written with 64 data bits: its code is made anew and its valid bit set (R374). -/
def Chip.putGran (s : Chip) (m : MemId) (i v : Nat) : Chip :=
  let s := { s with flips := tabErase s.flips (m.key i) }
  match m with
  | .tension n sh =>
    if h : n < 9 then
      let e := signedOf 10 v
      let t := s.tx[n]
      { s with tx := s.tx.set n (if sh then { t with shadow := tabSet ttNominal t.shadow i e }
                                  else { t with active := tabSet ttNominal t.active i e }) h }
    else s
  | .skein =>
    { s with evt := { s.evt with
        recs := tabSet (fun _ => none) s.evt.recs (i / 2)
          (some (mergeRec (tabGet (fun _ => none) s.evt.recs (i / 2)) (i % 2) v)) } }
  | _ => { s.setBytes (m.base + 8 * i) (leBytes 8 v) with valid := tabSet (fun _ => false) s.valid (m.key i) true }

/-- A memory whose domain goes OFF, or that R374 clears: no granule valid, so that it reads as zero. -/
def Chip.clearMemory (s : Chip) (m : MemId) : Chip :=
  let k := m.no
  let s := { s with
    valid := s.valid.filter (fun p => p.1 / 2097152 != k)
    flips := s.flips.filter (fun p => p.1 / 2097152 != k) }
  match m with
  | .tension n sh =>
    if h : n < 9 then
      let t := s.tx[n]
      { s with tx := s.tx.set n (if sh then { t with shadow := [] } else { t with active := [] }) h }
    else s
  | .skein => { s with evt := { s.evt with recs := [] } }
  | _ => { s with mem := s.mem.filter (fun c => decide (c.1 < m.base) || decide (m.base + 8 * m.size ≤ c.1)) }

/-- Every memory of R372 that lies in a domain. -/
def memoriesOf (d : Nat) : List MemId :=
  if d = 1 then [.spindle 0]
  else if d = 2 then [.spindle 1]
  else if 7 ≤ d ∧ d ≤ 15 then [.tension (d - 7) false, .tension (d - 7) true]
  else if d = 16 then [.decode, .creel]
  else if d = 18 then [.hankStore]
  else if d = 19 then [.capture]
  else []

/-! ### The address log and the buckets (R376, R377) -/

/-- The kinds of `ECC_LOG0.KIND`. -/
inductive EccKind where
  | corrected | uncorrectable | lightParity
  deriving DecidableEq, Repr

/-- The code of a kind in `ECC_LOG0.KIND`. -/
def EccKind.no : EccKind → Nat
  | .corrected => 0 | .uncorrectable => 1 | .lightParity => 2

/-- EVS_ECC_LOG_FULL follows whether all 32 entries are in use, R385. -/
def Chip.logFullLevel (s : Chip) : Chip := s.setLevel 0x052 (s.fld ECC_LOG_FREE.FREE == 0xFFFFFFFF) 0

/-- An error enters the address log, R376: it adds to an entry of the same granule and kind, else takes the lowest
free entry, else is counted as lost. -/
def Chip.logEcc (s : Chip) (sram gran : Nat) (k : EccKind) (bitNo : Nat) : Chip :=
  let used := fun i => bit (s.fld ECC_LOG_FREE.FREE) i
  let same := (List.range 32).find? (fun i =>
    used i && s.fld (ECC_LOG0.SRAM i) == sram && s.fld (ECC_LOG0.GRANULE i) == gran && s.fld (ECC_LOG0.KIND i) == k.no)
  match same with
  | some i => s.satInc (ECC_LOG1.COUNT i) 1
  | none =>
    match (List.range 32).find? (fun i => !(used i)) with
    | some i =>
      ((((((s.setFld (ECC_LOG0.SRAM i) sram).setFld (ECC_LOG0.KIND i) k.no).setFld (ECC_LOG0.GRANULE i) gran).setFld
        (ECC_LOG1.COUNT i) 1).setFld (ECC_LOG1.BIT i) bitNo).setFldBit ECC_LOG_FREE.FREE i true).logFullLevel
    | none => (s.satInc ECC_LOG_CTRL.LOST 1).logFullLevel

/-- The level fields of `ECC_STATUS`. -/
def lvlFld : Nat → Fld
  | 0 => ECC_STATUS.LVL0
  | 1 => ECC_STATUS.LVL1
  | _ => ECC_STATUS.LVL2

/-- Bucket `b` at a level. -/
def Chip.setBucket (s : Chip) (b : Fin 3) (v : Nat) : Chip :=
  ({ s with ecc := { s.ecc with lvl := s.ecc.lvl.set b.1 v b.2 } }).setFld (lvlFld b.1) (min v 0xFF)

/-- One error fills its bucket, R377; at THRESH the bucket overflows and starts again at 0. -/
def Chip.fillBucket (s : Chip) (b : Fin 3) : Chip :=
  let v := s.ecc.lvl[b.1] + s.fld (ECC_BUCKET_CFG.FILL b.1)
  if max 1 (s.fld (ECC_BUCKET_CFG.THRESH b.1)) ≤ v then
    ((s.setBucket b 0).setFldBit ECC_STATUS.OVF b.1 true).raise 0x050 b.1
  else s.setBucket b v

/-- The bucket of a code, R377. -/
def Code.bucket : Code → Fin 3
  | .strong => 0 | .standard => 1 | .light => 2

/-! ### Reading with correction (R375, R378) -/

/-- What a code makes of the wrong bits of a row: the row is sound, or these bits are taken as wrong and put right, or
the error is reported as uncorrectable (R372). Beyond the powers that R372 states the answer is open.
Log 14 (DESIGN CHOICE). -/
def decodeRow (c : Code) (flips : Nat) : Option Nat :=
  let n := popCount 80 flips
  match c with
  | .strong => if n ≤ 2 then some flips else if n = 3 then none else Config.strongDecode flips
  | .standard => if n ≤ 1 then some flips else if n = 2 then none else Config.standardDecode flips
  | .light => some 0

/-- A read of a granule: zero where it is not valid (R374), the data where the row is sound, the corrected data with
the write-back, log and bucket of R375 to R377, or nothing with the log and event of R378. -/
def Chip.readGran (s : Chip) (m : MemId) (i : Nat) : Chip × Option Nat :=
  if !(s.granValid m i) then (s, some 0)
  else
    let f := tabGet (fun _ => 0) s.flips (m.key i)
    let d := s.granData m i
    if f = 0 then (s, some d)
    else
      match decodeRow m.code f with
      | some g =>
        if g = 0 then (s, some (d ^^^ (f % 2 ^ 64)))
        else
          let v := d ^^^ ((f ^^^ g) % 2 ^ 64)
          let first := ((bitsSet 80 g).head?).getD 0xFF
          (((s.putGran m i v).logEcc (s.sram m i) i .corrected first).fillBucket m.code.bucket, some v)
      | none => ((s.logEcc (s.sram m i) i .uncorrectable 0xFF).raise 0x051 (s.sram m i + 256 * i), none)

/-- A 32-bit read of a coded memory at a byte offset: the half of its granule, or nothing for a bus error (R378). -/
def Chip.readMem32 (s : Chip) (m : MemId) (off : Nat) : Chip × Option Word :=
  let r := s.readGran m (off / 8)
  (r.1, r.2.map (fun v => BitVec.ofNat 32 (bitsOf v (32 * ((off / 4) % 2)) 32)))

/-- A 32-bit write, R373: the granule is read, the half merged (with zero where it was not valid, R374) and the whole
written back; over an uncorrectable error nothing changes and the access ends in a bus error (R378). The second part
tells whether the write was done. -/
def Chip.writeMem32 (s : Chip) (m : MemId) (off : Nat) (v : Word) : Chip × Bool :=
  let r := s.readGran m (off / 8)
  match r.2 with
  | none => (r.1, false)
  | some d =>
    let h := (off / 4) % 2
    let d' := if h = 0 then bitsOf d 32 32 * 2 ^ 32 + v.toNat else bitsOf d 0 32 + 2 ^ 32 * v.toNat
    (r.1.putGran m (off / 8) d', true)

/-- Bytes written by the part itself into a memory, whole granules of them, from granule `i` on. -/
def Chip.putBytes : Nat → MemId → List Nat → Chip → Chip
  | _, _, [], s => s
  | i, m, v :: t, s => Chip.putBytes (i + 1) m t (s.putGran m i v)

/-- The 64-bit granules that bytes fill, the last one padded with zeros. -/
def granulesOf : Nat → List Byte → List Nat
  | 0, _ => []
  | fuel + 1, l => if l.isEmpty then [] else leNat (l.take 8) :: granulesOf fuel (l.drop 8)

/-- Bytes written into a memory from a byte offset that is a multiple of 8. -/
def Chip.writeBytes (s : Chip) (m : MemId) (off : Nat) (l : List Byte) : Chip :=
  Chip.putBytes (off / 8) m (granulesOf l.length l) s

/-- `n` granules read from granule `i` on: the data, nothing for those that cannot be corrected. -/
def Chip.readGrans : Nat → MemId → Nat → Chip → Chip × List (Option Nat)
  | 0, _, _, s => (s, [])
  | n + 1, m, i, s =>
    let r := s.readGran m i
    let t := Chip.readGrans n m (i + 1) r.1
    (t.1, r.2 :: t.2)

/-- Bytes read from a byte offset that is a multiple of 8, for an engine of the part: nothing where a granule cannot be
corrected. -/
def Chip.readBytes (s : Chip) (m : MemId) (off n : Nat) : Chip × Option (List Byte) :=
  let r := Chip.readGrans ((n + 7) / 8) m (off / 8) s
  (r.1, if r.2.all Option.isSome then some (((r.2.filterMap id).flatMap (leBytes 8)).take n) else none)

/-- Does a bit pattern of the ten bits of a light unit fail its even parity (R372)? -/
def lightParityBad (flips : Nat) : Bool := popCount 11 flips % 2 == 1

end Sys2Proof.Machine
end

