-- ==== Sys2Proof/Machine/Flash.lean ====
section
/-! DEFINITION. External flash (spec/02 R47, spec/20 R471 to R478): Krelin images and their headers, and doff records. -/

namespace Sys2Proof.Machine

/-! ### Images (R471 to R473) -/

/-- A little-endian field of an image. -/
def Image.le (i : Image) (off n : Nat) : Nat := leNat ((i.bytes.drop off).take n)

/-- The header sequence number. -/
def Image.seq (i : Image) : Nat := i.le 8 4

/-- LENGTH. -/
def Image.length (i : Image) : Nat := i.le 12 4

/-- PROG_LEN. -/
def Image.progLen (i : Image) : Nat := i.le 22 4

/-- Is it a debug image, R473? -/
def Image.debug (i : Image) : Bool := bit (i.le 7 1) 0

/-- Is the sequence number one of an image at all (R471)? -/
def Image.seqOk (i : Image) : Bool := i.seq != 0 && i.seq != 0xFFFFFFFF

/-- Is the header right in MAGIC, HDR_VER, LENGTH, PROG_LEN and DEBUG_ID (R471 to R473); `consent` tells whether a debug image
of this unit may run? -/
def Image.headerOk (i : Image) (unitId : Nat) (consent : Bool) : Bool :=
  i.le 0 4 == 0x4B524C4E && i.le 4 2 == 1 &&
    decide (4096 ≤ i.length) && decide (i.length ≤ 2097152) &&
    decide (4096 ≤ i.progLen) && decide (i.progLen ≤ 458752) && decide (256 + i.progLen ≤ i.length) &&
    (if i.debug then i.le 16 6 % 2 ^ 44 == unitId && consent else i.le 16 6 == 0)

/-- The image with another sequence number. -/
def Image.withSeq (i : Image) (q : Nat) : Image :=
  { i with bytes := i.bytes.take 8 ++ leBytes 4 q ++ i.bytes.drop 12 }

/-- The header, the program section and the table section (R471). -/
def Image.header (i : Image) : List Byte := i.bytes.take 256
def Image.program (i : Image) : List Byte := (i.bytes.drop 256).take i.progLen
def Image.tables (i : Image) : List Byte := (i.bytes.take i.length).drop (256 + i.progLen)

/-- The image in a flash slot (0 A, 1 B). -/
def Flash.image (f : Flash) (slot : Nat) : Option Image := if slot = 0 then f.imgA else f.imgB

/-- A flash slot holding an image, or erased. -/
def Flash.setImage (f : Flash) (slot : Nat) (i : Option Image) : Flash :=
  if slot = 0 then { f with imgA := i } else { f with imgB := i }

/-- The sequence number of a slot, invalid ones as 0 (R472). -/
def Flash.seqOf (f : Flash) (slot : Nat) : Nat :=
  match f.image slot with
  | none => 0
  | some i => if i.seqOk then i.seq else 0

/-- An image slot of flash with its header sequence number cleared to zero (R291). -/
def Flash.clearSeq (f : Flash) (slot : Nat) : Flash := f.setImage slot ((f.image slot).map (fun i => i.withSeq 0))

/-- Is the image in a slot a debug image? -/
def Flash.debugIn (f : Flash) (slot : Nat) : Bool := (f.image slot).elim false Image.debug

/-! ### Doff records (R37, R477, R478) -/

/-- The record in a slot. -/
def Flash.record (f : Flash) (slot : Nat) : Option DoffRec := (f.doff.toList[slot]?).getD none

/-- Is a record complete: STATE is 0x00 and its CRC is correct? -/
def DoffRec.ok (r : DoffRec) : Bool := r.complete && r.crcOk

/-- The sequence number of a record slot; none counts below every record. -/
def Flash.recSeq (f : Flash) (slot : Nat) : Nat := (f.record slot).elim 0 (fun r => r.seq + 1)

/-- The slot with the higher sequence number, if any holds a record (R37). -/
def Flash.newestRec (f : Flash) : Option Nat :=
  if (f.record 0).isNone && (f.record 1).isNone then none
  else if f.recSeq 1 < f.recSeq 0 then some 0 else some 1

/-- The slot that was not written last. -/
def Flash.nextRec (f : Flash) : Nat := match f.newestRec with | some 0 => 1 | _ => 0

/-- The newest complete record (R477, R479). -/
def Flash.newestComplete (f : Flash) : Option DoffRec :=
  match (f.record 0).filter DoffRec.ok, (f.record 1).filter DoffRec.ok with
  | some a, some b => if b.seq < a.seq then some a else some b
  | some a, none => some a
  | none, b => b

/-- A record slot written. -/
def Flash.putRec (f : Flash) (slot : Nat) (r : DoffRec) : Flash :=
  { f with doff := if slot = 0 then f.doff.set 0 (some r) else f.doff.set 1 (some r) }

/-- Step 1 of R476: the slot not written last gets a header with STATE 0xFF, its SEQ one more than the other slot's (R478). -/
def Flash.beginRec (f : Flash) (origin : Nat) : Flash :=
  if f.present then
    let slot := f.nextRec
    f.putRec slot ⟨((f.record (1 - slot)).elim 0 (fun r => r.seq)) + 1, origin, [], false, false⟩
  else f

/-- The record begun last completed with its entries (R476 step 7). -/
def Flash.endRec (f : Flash) (entries : List DoffEntry) : Flash :=
  match f.newestRec with
  | none => f
  | some slot =>
    match f.record slot with
    | none => f
    | some r => if f.present then f.putRec slot { r with entries := entries.take 509, complete := true, crcOk := true } else f

/-- The 8 bytes of an entry. -/
def DoffEntry.bytes (e : DoffEntry) : List Byte :=
  [if e.repair then 2#8 else 1#8, BitVec.ofNat 8 e.cls, BitVec.ofNat 8 e.index, BitVec.ofNat 8 e.test]
    ++ leBytes 3 e.addr ++ [BitVec.ofNat 8 e.failBit]

/-- The 4096 bytes of a record's sector, R478: erased without a record. Log 25 (DESIGN CHOICE). -/
def sectorBytes : Option DoffRec → List Byte
  | none => List.replicate 4096 0xFF#8
  | some r =>
    let es := r.entries.take 509
    let count := if r.complete then es.length else Config.doffCount r.seq
    let body := leBytes 4 0x46464F44 ++ leBytes 4 r.seq ++ [if r.complete then 0x00#8 else 0xFF#8, BitVec.ofNat 8 r.origin]
      ++ leBytes 2 count ++ leBytes 4 0 ++ es.flatMap DoffEntry.bytes
    let l := body ++ List.replicate (4092 - body.length) (if r.complete then 0x00#8 else 0xFF#8)
    let crc := crc32 (l.set 8 0x00#8)
    l ++ leBytes 4 (if r.crcOk then crc else if r.complete then Config.doffWrongCrc r.seq else 0xFFFFFFFF)

/-- The block entries and the soft-repair entries of a record. -/
def DoffRec.blocks (r : DoffRec) : List DoffEntry := r.entries.filter (fun e => !e.repair)
def DoffRec.repairs (r : DoffRec) : List DoffEntry := r.entries.filter (fun e => e.repair)

/-- At most 4 soft-repair entries for each SRAM (R477). -/
def limitRepairs : List DoffEntry → List DoffEntry → List DoffEntry
  | got, [] => got
  | got, e :: t =>
    if e.repair && decide (4 ≤ (got.filter (fun x => x.repair && x.index == e.index)).length) then limitRepairs got t
    else limitRepairs (got ++ [e]) t

/-- Does a test stand in the list of R474: class, index and test number are known? -/
def doffKnown (cls index test : Nat) : Bool :=
  match cls with
  | 0 => decide (index ≤ 8) && decide (test ≤ 2)
  | 1 => decide (index ≤ 15) && test == 0
  | 2 => decide (index ≤ 125) && decide (test ≤ 1)
  | 3 => decide (index ≤ 24) && test == 0
  | 4 => decide (index ≤ 5) && test == 0
  | _ => false

/-- Is the test on the shutdown list (R474)? -/
def onShutdownList (test : Nat) : Bool := test == 0

/-- May the shutdown list have made this entry: a failure of one of its tests, or a failing row of an SRAM?
Log 105 (DEDUCED). -/
def shutdownEntry (e : DoffEntry) : Bool :=
  if e.repair then e.cls == 2 && decide (e.index ≤ 125) else doffKnown e.cls e.index e.test && onShutdownList e.test

/-- May the start-up check have made this entry (R479)? -/
def checkEntry (e : DoffEntry) : Bool :=
  if e.repair then e.cls == 2 && decide (e.index ≤ 125)
  else doffKnown e.cls e.index e.test && e.test == 0 && (e.cls == 2 || e.cls == 3 || (e.cls == 4 && decide (e.index ≤ 1)))

end Sys2Proof.Machine
end

