-- ==== Sys2Proof/Machine/Reset.lean ====
section
/-! DEFINITION. What resets and lost power do to the part: the state of each power domain, the clamps of R427, and the
reach of the reset sources of R32, R284, R301 and R346. -/

namespace Sys2Proof.Machine

/-! ### One domain -/

/-- Does an address lie in a window of power domain `d`? -/
def inDomain (d a : Nat) : Bool :=
  match blkOf a with
  | none => false
  | some b => b.pd == d

/-- Is the register's reset value "per OTP": it shows OTP's unit identity whenever its domain comes up (R222)? -/
def perOtp (a : Nat) : Bool := a == TWF_UNIT_ID_LO.addr || a == TWF_UNIT_ID_HI.addr

/-- Does the register go to a reset value of its own when the logic of domain `d` is reset? -/
def lostWith (d a : Nat) : Bool := inDomain d a && !perOtp a

/-- The level sources of domain `d`, which R427 clamps to 0 while it is not ON (R345). -/
def levelsOf (d : Nat) : List Nat :=
  if 3 ≤ d ∧ d ≤ 6 then (List.range 4).map (fun k => 4 * (d - 3) + k)
  else if 7 ≤ d ∧ d ≤ 15 then [0x060, 0x070, 0x090, 0x0A0, 0x0D0].map (fun b => b + (d - 7))
  else if d = 16 then (List.range 9).map (fun n => 0x160 + n) ++ [0x181, 0x182]
  else if d = 17 then [0x0C1]
  else []

/-- The level sources of a domain clamped to 0. -/
def Chip.clampLevels (s : Chip) (d : Nat) : Chip :=
  { s with evt := (levelsOf d).foldl dropLevel s.evt }

/-- A consumer's held records are freed and its in-service set cleared; its waiting records stay (R346). -/
def Chip.freeHeld (s : Chip) (c : Fin 3) : Chip :=
  let co := s.evt.cons[c.1]
  let co' := { co with skeins := Vector.ofFn (fun (k : Fin 16) => { co.skeins[k.1] with held := none }) }
  { s with evt := { s.evt with cons := s.evt.cons.set c.1 co' c.2 } }

/-- A spindle's role. -/
def Chip.setRole (s : Chip) (b : Nat) (r : Role) : Chip :=
  if h : b < 2 then { s with spn := { s.spn with role := s.spn.role.set b r h } } else s

/-- The role Krelin or the boot ROM has given a spindle. -/
def Chip.roleOf (s : Chip) (b : Nat) : Role := (s.spn.role.toList[b]?).getD .off

/-- A vector with the elements of the listed positions replaced. -/
def vfill {α : Type} {n : Nat} (v : Vector α n) (p : Nat → Bool) (x : α) : Vector α n :=
  Vector.ofFn (fun (i : Fin n) => if p i.1 then x else v[i.1])

/-- The registers and the hidden state of domain `d`'s blocks at their reset values: its registers and its hidden state (spec/01 "Blocks"); the unit identity
stands as OTP gives it (R222). -/
def Chip.resetBlocks (s : Chip) (d : Nat) : Chip :=
  let s := (s.resetRegs (lostWith d)).clampLevels d
  let s := { s with frz := s.frz.filter (fun p => !(inDomain d p.1)) }
  if 3 ≤ d ∧ d ≤ 6 then { s with host := vfill s.host (fun h => h / 4 == d - 3) {} }
  else if 7 ≤ d ∧ d ≤ 15 then
    { s with
      rx := vfill s.rx (fun n => n == d - 7) {}
      tx := vfill s.tx (fun n => n == d - 7) {} }
  else if d = 16 then { s with crl := {} }
  else if d = 17 then { s with framer := Vector.replicate 9 {}, ply := {} }
  else if d = 18 then { s with hnk := {} }
  else if d = 19 then { s with cnt := {}, dma := {} }
  else if d = 20 then { s with hka := {}, flt := Vector.replicate 31 {} }
  else if d = 21 then { s with fly := {}, mbx := { s.mbx with queue := s.mbx.queue.filter (fun q => q != .fleyth) } }
  else s

/-- The logic of domain `d` is reset: its blocks, and the records that its spindle holds are freed (R346). -/
def Chip.resetLogic (s : Chip) (d : Nat) : Chip :=
  let s := s.resetBlocks d
  if d = 1 ∨ d = 2 then s.freeHeld (if d = 1 then 1 else 2) else s

/-- The memories of domain `d` with no valid granule (R374). -/
def Chip.clearMemories (s : Chip) (d : Nat) : Chip := s.forAll (memoriesOf d) Chip.clearMemory

/-- Domain `d` loses its power: its state is lost, its memories' valid bits are cleared, its outputs are clamped.
Log 118 (DEDUCED). -/
def Chip.powerOff (s : Chip) (d : Nat) : Chip :=
  let s := ((s.resetLogic d).clearMemories d).setPd d .off
  if d = 1 ∨ d = 2 then s.setRole (d - 1) .off else s

/-- Every domain except `PD_AON` turned off, in descending number (R431, R435, R443). Log 61 (DEDUCED). -/
def Chip.allOff (s : Chip) : Chip := s.forAll ((List.range 21).map (fun k => 21 - k)) Chip.powerOff

/-- A running group request is cut short: its result is REFUSED with REFUSER 0x1F (R431). -/
def Chip.cutGroup (s : Chip) : Chip :=
  match s.pmu.grp with
  | none => s
  | some g =>
    let s := { s with pmu := { s.pmu with grp := none } }
    ((((s.setFlag PMU_GRP_STATUS.BUSY false).setFld PMU_GRP_STATUS.PHASE 0).setFld PMU_GRP_STATUS.RESULT 2).setFld
      PMU_GRP_STATUS.REFUSER 0x1F).setFld PMU_GRP_STATUS.REQUESTER g.requester

/-! ### The reach of the chip resets (R32) -/

/-- EVS_SUPPLY_LOW stands while HS_OK, HV_OK or IO_OK is 0 (R345). -/
def Chip.supplyLevel (s : Chip) : Chip :=
  s.setLevel 0x1D3 (!(s.flag GLB_SUPPLY_STATUS.HS_OK && s.flag GLB_SUPPLY_STATUS.HV_OK && s.flag GLB_SUPPLY_STATUS.IO_OK)) 0

/-- Is the register kept by `RESET_N`, a software chip reset and a core supply loss: `GLB_RST_STATUS`, the supply
monitors, the straps, the trip latch with its information, and the ECC address log (R32, R33, R376)? -/
def keptByPin (a : Nat) : Bool :=
  a == GLB_RST_STATUS.addr || a == GLB_SUPPLY_STATUS.addr || a == GLB_STRAPS.addr || a == THM_TRIP_INFO.addr ||
  (decide (0xB0100 ≤ a) && decide (a < 0xB0200)) || a == ECC_LOG_FREE.addr

/-- The config shadow's part of a table keyed by address. -/
def shadowCells (m : List Host.Cell) : List Host.Cell :=
  m.filter (fun c => decide (0xE00000 ≤ c.1) && decide (c.1 < 0xE40000))

/-- The resets with the reach of `RESET_N`: every domain is reset but for what R32 lists as kept. `o` is OTP, which every
reset keeps; `bitF` is the source's field of `GLB_RST_STATUS`. The TAP keeps its state. Log 8 (PRESUMED). -/
def Chip.pinReset (s : Chip) (o : Otp) (bitF : Fld) : Chip :=
  let trip := s.flag THM_STATUS.TRIP
  let n := Chip.atPor o s.flash s.straps 0
  let ran := s.pmu.grp.isSome
  let n : Chip := { n with
    regs := s.regs.filter (fun p => keptByPin p.1)
    mem := shadowCells s.mem
    valid := s.valid.filter (fun p => p.1 / 2097152 == MemId.shadow.no)
    flips := s.flips.filter (fun p => p.1 / 2097152 == MemId.shadow.no)
    cfg := s.cfg
    answers := s.answers
    jtag := s.jtag
    start := { n.start with kept := true }
    fresh := s.fresh }
  let n := ((n.showOtp o).startSession).setFlag bitF true
  let n := if trip then n.setFlag THM_STATUS.TRIP true else n
  let n := (n.logFullLevel).supplyLevel
  if ran then (n.setFld PMU_GRP_STATUS.RESULT 2).setFld PMU_GRP_STATUS.REFUSER 0x1F else n

/-- A Whorl restart: every domain except `PD_AON` is reset and the start goes on from step 3; skeins and mailbox are
kept (R32, R301, R346), and an entry to module low power under way is abandoned with its doff record (R36). The domains of step 2 stay powered, the host and line domains are OFF until step 10 (R43). -/
def Chip.whorlReset (s : Chip) : Chip :=
  let s := s.cutGroup
  let s := s.forAll ((List.range 13).map (fun k => 3 + k)) Chip.powerOff
  let s := s.forAll [1, 2, 16, 17, 18, 19, 20, 21] Chip.resetBlocks
  let s := (s.setRole 0 .off).setRole 1 .off
  let s := { s with
    ports := Vector.replicate 16 {}
    quads := Vector.replicate 4 {}
    mbx := { s.mbx with exec := [] }
    spn := { s.spn with update := none, xfer := none, takeover := true }
    start := { kept := true, lifecycle := s.start.lifecycle }
    pmu := { s.pmu with entering := false }
    limited := true }
  let s := s.setFlag GRD_DOFF_STATUS.RUNNING false
  let s := (s.resetReg GLB_BOOT_STATUS.addr).setFld GLB_BOOT_STATUS.STEP 2
  let s := (s.setLevel 0x1D0 false 0).setFld CRL_STATUS.THROTTLE (s.fld THM_STATUS.LEVEL)
  let s := ((s.resetReg CLK_WHORL_STATUS.addr).resetReg CLK_HQ_STATUS.addr).resetReg GRD_SPN_STATUS.addr
  let s := (s.setFlag MBX_STATUS.OPEN false).setFlag MBX_STATUS.QUIESCED false
  let s := (s.resetReg PMU_LADDER.addr).setFlag PMU_LADDER.RDY_REG true
  s.setFlag GLB_RST_STATUS.WHORL true

/-- The host session back at its base level, without its nonce (R459). -/
def Chip.resetSession (s : Chip) : Chip :=
  { (s.setFlag GRD_SESSION.NONCE_VALID false).setSession s.baseLevel with sess := {} }

/-! ### The distaff across resets (R284) -/

/-- No holder, the epoch kept, no fence. -/
def Distaff.released (d : Distaff) : Distaff := { d with holder := 0, fencedA := false, fencedB := false }

/-- The distaff after POR. -/
def Distaff.atPor : Distaff := {}

end Sys2Proof.Machine
end

