-- ==== Sys2Proof/Machine/State.lean ====
section
/-! DEFINITION. The whole state of the model: the part (Machine/Chip.lean), its OTP, the distaff and the queue of the
commands that wait; the outcomes that a step may have beside a next state; and the state right after reset. -/

namespace Sys2Proof.Machine

/-- Reasons for which a step stops with a fault. No rule of spec/ stops the part: a refused access is a bus-error
answer (R4, R19), a wrong command completes with a status (R306), and a trip or a reset is a state. The type has
therefore no constructor, and no meaning can fault. Log 4 (DESIGN CHOICE). -/
inductive Fault where
  deriving DecidableEq, Repr

/-- Reasons for which the model refuses a command. Log 4 (DESIGN CHOICE). -/
inductive Refusal where
  /-- Raised by `exec`'s arm of a command that the model does not cover yet; safe (no next state is claimed). -/
  | notModelled (mnemonic : String)
  deriving DecidableEq, Repr

/-- The state of the model: the commands that wait, first in, first out; OTP (R32: kept by every reset); the distaff
(R281); and everything else that the part holds. -/
structure State where
  pending : List Instr
  fuse : Otp
  dist : Distaff
  chip : Chip
  deriving DecidableEq, Repr

/-- OTP of the reset state: nothing programmed (BLANK), a DESIGN CHOICE (notes/assumptions): no rule gives its contents.
Log 6 (DESIGN CHOICE). -/
def State.resetOtp : Otp := {}

/-- Flash of the reset state: fitted, with no image, no record and no copy in it, a DESIGN CHOICE.
Log 7 (DESIGN CHOICE). -/
def State.resetFlash : Flash := { present := true }

/-- The state right after POR with every supply good (`GLB_SUPPLY_STATUS` 0x1F, VDDIO at 1.8 V) and the straps low. -/
def State.reset : State := ⟨[], State.resetOtp, {}, Chip.atPor State.resetOtp State.resetFlash 0 0x1F⟩

end Sys2Proof.Machine
end

