-- ==== Sys2Proof/Machine/Distaff.lean ====
section
/-! DEFINITION. The distaff, the spindles' watchdogs and roles (spec/11 R277 to R285). -/

namespace Sys2Proof.Machine

/-! ### Images in memory (R38) -/

/-- Bytes put into a memory of a domain that is ON, from an offset. -/
def Chip.loadMem (s : Chip) (m : MemId) (off : Nat) (l : List Byte) : Chip := if s.pdOn m.pd then s.writeBytes m off l else s

/-- The size of the program area of a spindle's memory, R378. -/
def programArea : Nat := 458752

/-- Where the boot ROM puts an image's header: behind the program area, which the longest program fills. -/
def headerOffset : Nat := programArea + 8 * (Config.headerPlace % 8161)

/-- The header and the program section of an image loaded into the memory of Spindle `b` (0 A, 1 B).
Log 55 (DEDUCED), 131 (DESIGN CHOICE). -/
def Chip.loadSpindle (s : Chip) (b : Nat) (i : Image) : Chip :=
  (s.loadMem (.spindle b) 0 (i.program.take programArea)).loadMem (.spindle b) headerOffset i.header

/-- Where the image of a spindle's memory lies, in granules: the program area, and the header. -/
def imageGranule (i : Nat) : Bool :=
  decide (i < programArea / 8) || (decide (headerOffset / 8 ≤ i) && decide (i < headerOffset / 8 + 32))

/-- The valid granules of an image that a memory holds. -/
def Chip.imageGranules (s : Chip) (m : MemId) : List Nat :=
  ((s.valid.filter (fun p => p.2 && decide (p.1 / 2097152 = m.no))).map (fun p => p.1 % 2097152)).filter imageGranule

/-- The image in the other spindle's memory copied into that of spindle `b` (R302, R379). -/
def Chip.copyImage (s : Chip) (b : Nat) : Chip :=
  if s.pdOn (1 + b) then
    s.forAll (s.imageGranules (.spindle (1 - b))) (fun s i =>
      match s.readGran (.spindle (1 - b)) i with
      | (s, none) => s
      | (s, some v) => s.putGran (.spindle b) i v)
  else s

/-! ### Accesses to one register -/

/-- A master's write to a register with a command of its own: the checks of R19 first, then the register's effect. The host
reaches nothing while VDDIO is low (R46). -/
def State.rowWrite (s : State) (m : Master) (a : Nat) (f : State → State) : State :=
  if s.chip.cutOff m then s else
  match s.chip.checkAccess (s.chip.masterLevel m) a 32 true with
  | none => { s with chip := s.chip.answer m true 0 }
  | some _ => f { s with chip := s.chip.answer m false 0 }

/-- The part changed by `f`. -/
def State.onChip (s : State) (f : Chip → Chip) : State := { s with chip := f s.chip }

/-- A command whose effect lies in the part alone. -/
def chipNext (s : State) (f : Chip → Chip) : Host.Outcome State Fault Refusal := .next (s.onChip f)

/-! ### The evaluation of one cycle (R281) -/

/-- The KEY of `GRD_DISTAFF_CTRL` and `GRD_SPN_CTRL`, R302. -/
def distaffKey : Nat := 0xD157

/-- The top of EPOCH, which it never passes (R281). -/
def epochMax : Nat := 0xFFFFFFFF

/-- The codes of `GRD_CLAIM_RESULT`, R302. -/
inductive ClaimResult where
  | won | lost | stale | refused
  deriving DecidableEq, Repr

/-- The code of a result. -/
def ClaimResult.no : ClaimResult → Nat
  | .won => 1 | .lost => 2 | .stale => 3 | .refused => 4

/-- What one evaluation gives: the distaff, each spindle's result if it has one, whether a conflict is raised, and
whether the holder gained by handover (R286). -/
structure DistOut where
  dist : Distaff
  resA : Option ClaimResult := none
  resB : Option ClaimResult := none
  conflict : Bool := false
  handed : Bool := false
  deriving DecidableEq, Repr

/-- Is spindle `x` (1 A, 2 B) fenced? -/
def Distaff.fenced (d : Distaff) (x : Nat) : Bool := if x = 1 then d.fencedA else d.fencedB

/-- The fence of spindle `x` set or cleared. -/
def Distaff.setFence (d : Distaff) (x : Nat) (b : Bool) : Distaff :=
  if x = 1 then { d with fencedA := b } else { d with fencedB := b }

/-- Step 1 of R281 for the one spindle `x` that resets; `ready` tells whether the other is in STANDBY. -/
def Distaff.resetOne (d : Distaff) (x : Nat) (ready : Bool) : Distaff :=
  let d := d.setFence x false
  if d.holder = x then
    if ready && !(d.fenced (3 - x)) && decide (d.epoch < epochMax) then
      { d with holder := 3 - x, epoch := d.epoch + 1 }
    else { d with holder := 0 }
  else d

/-- Step 1 of R281. -/
def Distaff.resets (d : Distaff) (a b standbyA standbyB : Bool) : Distaff :=
  if a && b then d.released
  else if a then d.resetOne 1 standbyB
  else if b then d.resetOne 2 standbyA
  else d

/-- Step 2 of R281: the control write of a spindle `x`; only the holder's counts, and only with the KEY (R302).
HANDOVER goes before RELEASE (R302). -/
def DistOut.control (o : DistOut) (x : Nat) (v : Word) (ready : Bool) : DistOut :=
  if x = 0 ∨ o.dist.holder ≠ x ∨ getBits v 16 16 ≠ distaffKey then o
  else if getBits v 1 1 = 1 then
    if ready && !(o.dist.fenced (3 - x)) && decide (o.dist.epoch < epochMax) then
      { o with dist := { o.dist with holder := 3 - x, epoch := o.dist.epoch + 1 }, handed := true }
    else if x = 1 then { o with resA := some .refused }
    else { o with resB := some .refused }
  else if getBits v 0 1 = 1 then { o with dist := { o.dist with holder := 0 } }
  else o

/-- A spindle's result. -/
def DistOut.result (o : DistOut) (x : Nat) (r : ClaimResult) : DistOut :=
  if x = 1 then { o with resA := some r } else { o with resB := some r }

/-- A claim by an unfenced spindle that proposes an epoch above EPOCH, R281. -/
def Distaff.validClaim (d : Distaff) (x : Nat) (e : Option Word) : Bool :=
  match e with
  | none => false
  | some e => !(d.fenced x) && decide (d.epoch < e.toNat)

/-- Step 3 of R281 for a winner `x` with epoch `e`; `both` tells whether two claims were valid. -/
def DistOut.win (o : DistOut) (x : Nat) (e : Word) (both : Bool) : DistOut :=
  let conflict := (o.dist.holder != 0 && o.dist.holder != x) || both
  let o := if conflict then { (o.result (3 - x) .lost) with dist := o.dist.setFence (3 - x) true } else o
  { o.result x .won with
    dist := { (o.dist) with holder := x, epoch := e.toNat }
    conflict := conflict
    handed := o.handed && o.dist.holder == x }

/-- Step 3 of R281. -/
def DistOut.claims (o : DistOut) (a b : Option Word) : DistOut :=
  let va := o.dist.validClaim 1 a
  let vb := o.dist.validClaim 2 b
  let o := if a.isSome && !va then o.result 1 .stale else o
  let o := if b.isSome && !vb then o.result 2 .stale else o
  let ea := a.getD 0
  let eb := b.getD 0
  if va && vb then (if eb.toNat ≤ ea.toNat then o.win 1 ea true else o.win 2 eb true)
  else if va then o.win 1 ea false
  else if vb then o.win 2 eb false
  else o

/-- The evaluation of R281 of one CLK_PER cycle; `standbyA` and `standbyB` tell the roles before it. Log 32 (DEDUCED). -/
def evalDistaff (d : Distaff) (standbyA standbyB : Bool) (c : DistCycle) : DistOut :=
  let d1 := d.resets c.resetA c.resetB (standbyA && !c.resetA) (standbyB && !c.resetB)
  let o : DistOut := { dist := d1 }
  let o := match c.ctrl with
    | none => o
    | some (m, v) =>
      let x := masterSpindle m
      o.control x v (if x = 1 then standbyB && !c.resetB else standbyA && !c.resetA)
  o.claims c.claimA c.claimB

/-! ### What follows an evaluation -/

/-- Is spindle `b` (0 A, 1 B) in STANDBY: synchronised and neither holder nor fenced (R277)? -/
def State.standby (s : State) (b : Nat) : Bool :=
  decide (s.chip.roleOf b = .standby) && s.dist.holder != b + 1 && !(s.dist.fenced (b + 1))

/-- The role code of a spindle in `GRD_SPN_STATUS`, R277: OFF with its domain, HOLDER and FENCED from the distaff. -/
def roleCode (d : Distaff) (s : Chip) (b : Nat) : Nat :=
  if !(s.pdOn (1 + b)) then 0
  else if d.holder = b + 1 then 4
  else if d.fenced (b + 1) then 5
  else match s.roleOf b with
    | .off => 0 | .boot => 1 | .sync => 2 | .standby => 3

/-- The payload of the distaff events, R281. -/
def distPayload (d : Distaff) : Nat := d.epoch + 2 ^ 32 * d.holder

/-- A claim result into `GRD_CLAIM_RESULT`. -/
def Chip.claimResult (s : Chip) (f : Fld) (r : Option ClaimResult) : Chip :=
  match r with
  | none => s
  | some r => s.setFld f r.no

/-- Does spindle `b` run a debug image? -/
def Chip.runsDebug (s : Chip) (b : Nat) : Bool := (s.spn.debugs.toList[b]?).getD false

/-- Spindle `b` runs a debug image, or another. -/
def Chip.setDebug (s : Chip) (b : Nat) (d : Bool) : Chip :=
  if h : b < 2 then { s with spn := { s.spn with debugs := s.spn.debugs.set b d h } } else s

/-- The header sequence number of the host-pushed image that spindle `b` runs, or none. -/
def Chip.setPushed (s : Chip) (b : Nat) (q : Option Nat) : Chip :=
  if h : b < 2 then { s with spn := { s.spn with pushed := s.spn.pushed.set b q h } } else s

/-- The header sequence number of the image that spindle `b` runs. -/
def Chip.runningSeq (s : Chip) (b : Nat) : Nat :=
  ((s.spn.pushed.toList[b]?).getD none).getD
    (s.flash.seqOf (s.fld (if b = 0 then GRD_SPN_STATUS.IMG_A else GRD_SPN_STATUS.IMG_B)))

/-- The field of `GRD_SPN_STATUS` that shows the image slot of spindle `b`. -/
def imgFld (b : Nat) : Fld := if b = 0 then GRD_SPN_STATUS.IMG_A else GRD_SPN_STATUS.IMG_B

/-- The image slot that a spindle boots, shown in `GRD_SPN_STATUS`. -/
def Chip.setImgSlot (s : Chip) (b slot : Nat) : Chip :=
  ((s.setFld (imgFld b) slot).setDebug b (s.flash.debugIn slot)).setPushed b none

/-- Has the image in the memory of spindle `b` passed its checks? -/
def Chip.fitOf (s : Chip) (b : Nat) : Bool := (s.spn.fit.toList[b]?).getD false

/-- The image in the memory of spindle `b` has passed its checks, or not. -/
def Chip.setFit (s : Chip) (b : Nat) (f : Bool) : Chip :=
  if h : b < 2 then { s with spn := { s.spn with fit := s.spn.fit.set b f h } } else s

/-- The header sequence number of the host-pushed image that spindle `b` runs, or none. -/
def Chip.pushedOf (s : Chip) (b : Nat) : Option Nat := (s.spn.pushed.toList[b]?).getD none

/-- Is the consent to a debug image given while Krelin runs (R473)? -/
def Chip.debugConsent (s : Chip) : Bool :=
  if s.fld GRD_LC.STATE = 2 ∨ s.fld GRD_LC.STATE = 3 then s.flag GRD_LC.DBG_ALLOW else true

/-- Spindle `b` boots the image that the other one runs, copied from its memory (R302, R379). -/
def Chip.copyBoot (s : Chip) (b : Nat) : Chip :=
  let o := 1 - b
  let s := (s.copyImage b).setFld (imgFld b) (s.fld (imgFld o))
  ((s.setDebug b (s.runsDebug o)).setPushed b (s.pushedOf o)).setFit b (s.pdOn (1 + o) && s.fitOf o)

/-- Spindle `b` boots from an image slot: its boot ROM fetches the program from flash and checks it; without flash it copies the
other spindle's (R289, R302). An image that fails leaves it in BOOT. Log 132 (DESIGN CHOICE). -/
def Chip.bootSlot (s : Chip) (o : Otp) (b slot : Nat) : Chip :=
  if !s.flash.present then s.copyBoot b
  else
    let s := s.setImgSlot b slot
    match s.flash.image slot with
    | none => s.setFit b false
    | some i => (s.loadSpindle b i).setFit b (i.seqOk && i.sigOk && i.headerOk o.unitId s.debugConsent)

/-- Spindle `b` boots the image that the other one runs: from its flash slot, or from the other's memory where the host pushed it or
there is no flash (R291). Log 132 (DESIGN CHOICE). -/
def Chip.bootLike (s : Chip) (o : Otp) (b : Nat) : Chip :=
  if (s.pushedOf (1 - b)).isSome then s.copyBoot b else s.bootSlot o b (s.fld (imgFld (1 - b)))

/-- Do both spindles run one image? -/
def Chip.sameImage (s : Chip) : Bool :=
  s.fld GRD_SPN_STATUS.IMG_A == s.fld GRD_SPN_STATUS.IMG_B && decide (s.pushedOf 0 = s.pushedOf 1)

/-- The program of spindle `b` put back by the boot ROM: from the flash slot in `GRD_SPN_STATUS`, else from the other spindle's
memory where both run one image; otherwise it stays in BOOT (R379). Log 132 (DESIGN CHOICE). -/
def Chip.reloadSpindle (s : Chip) (o : Otp) (b : Nat) : Chip :=
  if s.flash.present && (s.pushedOf b).isNone then s.bootSlot o b (s.fld (imgFld b))
  else if s.sameImage then s.copyBoot b
  else s.setFit b false

/-- The image of spindle `b` starts to run and synchronises (R277). -/
def Chip.startImage (s : Chip) (b : Nat) : Chip :=
  (s.setRole b .sync).setFld (if b = 0 then GRD_SPN_STATUS.VER_A else GRD_SPN_STATUS.VER_B) 0x41

/-- May the image of spindle `b` start: the boot ROM has loaded it and found it sound, in a start that has passed step 9?
Log 132 (DESIGN CHOICE). -/
def Chip.mayStart (s : Chip) (b : Nat) : Bool :=
  decide (s.roleOf b = .boot) && s.pdOn (1 + b) && s.fitOf b && s.flag GLB_BOOT_STATUS.FW_READY

/-- The host session after a change of what its base level rests on: a session at its base level follows it, and none stays
below it (R459, R482). -/
def Chip.rebase (s : Chip) (f : Chip → Chip) : Chip :=
  let t := f s
  t.setSession (if s.sessionLevel = s.baseLevel then t.baseLevel else max s.sessionLevel t.baseLevel)

/-- `GRD_LC.DEBUG_IMAGE` as the holder's image has it (R473). -/
def State.showDebug (s : State) : State :=
  let d := decide (s.dist.holder ≠ 0) && s.chip.runsDebug (s.dist.holder - 1)
  if s.chip.flag GRD_LC.DEBUG_IMAGE = d then s
  else { s with chip := s.chip.rebase (fun c => c.setFlag GRD_LC.DEBUG_IMAGE d) }

/-- What a change of holder does to the part: the mailbox is closed until the new holder opens it (R287); where the distaff was not
handed over there is a takeover to do, and what the old holder was executing goes on no more, an update included (R286). -/
def Chip.newHolder (s : Chip) (holder : Nat) (handed : Bool) : Chip :=
  let s := (s.setFlag MBX_STATUS.OPEN false).setFlag MBX_STATUS.QUIESCED false
  let s := if handed then s
    else { s with spn := { s.spn with takeover := true, update := none }, mbx := { s.mbx with exec := [] } }
  if holder = 0 then s else s.setRole (holder - 1) .standby

/-- Krelin on a spindle that has been fenced synchronises again, R282. -/
def Chip.resync (s : Chip) (old new : Distaff) : Chip :=
  s.forAll [0, 1] (fun s b => if new.fenced (b + 1) && !(old.fenced (b + 1)) then s.setRole b .sync else s)

/-- The outcome of an evaluation takes effect: results, the conflict and change events, and what a new holder and a fence bring. -/
def State.applyDist (s : State) (o : DistOut) : State :=
  let old := s.dist
  let c := (s.chip.claimResult GRD_CLAIM_RESULT.RESULT_A o.resA).claimResult GRD_CLAIM_RESULT.RESULT_B o.resB
  let c := if o.conflict then c.raise 0x1B1 (distPayload o.dist) else c
  let c := if old.holder ≠ o.dist.holder ∨ old.epoch ≠ o.dist.epoch then c.raise 0x1B0 (distPayload o.dist) else c
  let c := if old.holder ≠ o.dist.holder then c.newHolder o.dist.holder o.handed else c
  State.showDebug { s with dist := o.dist, chip := c.resync old o.dist }

/-- One CLK_PER cycle at the distaff. -/
def State.distCycle (s : State) (c : DistCycle) : State :=
  s.applyDist (evalDistaff s.dist (s.standby 0) (s.standby 1) c)

/-! ### Watchdogs and restarts -/

/-- The reset of a spindle's domain (R32 "Spindle watchdog", R346): it reboots from its image, its held records are
freed. -/
def Chip.rebootSpindle (s : Chip) (b : Nat) : Chip :=
  (s.freeHeld (if b = 0 then 1 else 2)).setRole b .boot

/-- The cycle in which the domain of spindle `b` alone is reset. -/
def resetCycle (b : Nat) : DistCycle := if b = 0 then { resetA := true } else { resetB := true }

/-- The domain of spindle `b` is reset by the holder or the part and reboots as `boot` says, with the evaluation of R281. -/
def State.rebootBy (s : State) (b : Nat) (boot : Chip → Chip) : State :=
  (s.onChip (fun c => boot (c.rebootSpindle b))).applyDist (evalDistaff s.dist (s.standby 0) (s.standby 1) (resetCycle b))

/-- The domain of spindle `b` is reset and reboots from an image slot (R302). -/
def State.restart (s : State) (b slot : Nat) : State := s.rebootBy b (fun c => c.bootSlot s.fuse b slot)

/-- The domain of spindle `b` is reset and reboots into the image that the other one runs (R291). -/
def State.restartLike (s : State) (b : Nat) : State := s.rebootBy b (fun c => c.bootLike s.fuse b)

/-- The domain of a spindle leaves ON, or is turned off: its reset counts at the distaff (R281), and the loss of the standby is
raised (R280). Any other domain only goes. Log 138 (DEDUCED). -/
def State.leave (s : State) (d : Nat) (go : Chip → Chip) : State :=
  if d = 1 ∨ d = 2 then
    let t := (s.onChip go).applyDist (evalDistaff s.dist (s.standby 0) (s.standby 1) (resetCycle (d - 1)))
    if s.standby (d - 1) then t.onChip (fun c => c.raise 0x1B3 0) else t
  else s.onChip go

/-- The new holder's watchdog fired during probation, R291: the old spindle, which has the distaff again, clears the
new image's sequence number, reports the failure and restarts the other spindle into the old image. -/
def State.updateFailed (s : State) (u : Update) : State :=
  (s.onChip (fun c =>
    Chip.raise { c with flash := c.flash.clearSeq u.newSlot, spn := { c.spn with update := none } } 0x1B5 0)).restartLike (2 - u.old)

/-- A spindle's watchdog expires: its reset status bit, EVS_SPINDLE_RESET, the reset of its domain, and the distaff. -/
def State.watchdog (s : State) (x : Spindle) (also : DistCycle) : State :=
  let b := spNum x - 1
  let s1 := s.onChip (fun c =>
    ((c.setFlag (if b = 0 then GLB_RST_STATUS.WDT_A else GLB_RST_STATUS.WDT_B) true).rebootSpindle b).raise 0x1B2 b)
  let o := evalDistaff s.dist (s.standby 0) (s.standby 1)
    (if b = 0 then { also with resetA := true } else { also with resetB := true })
  let s2 := s1.applyDist o
  match s.chip.spn.update with
  | none => s2
  | some u =>
    if u.phase = .probation ∧ s.dist.holder = b + 1 ∧ s2.dist.holder = u.old then s2.updateFailed u else s2

/-- SPINDLE_WATCHDOG (R32, R34, R281, R284): a spindle whose domain is ON misses its watchdog service; with `also` the
other happenings of that cycle. -/
def execSpindleWatchdog (x : Spindle) (also : DistCycle) (s : State) : Host.Outcome State Fault Refusal :=
  .next (if s.chip.pdOn (spNum x) then
      let s := s.watchdog x also
      if x = .a ∧ also.resetB then s.onChip (fun c => ((c.setFlag GLB_RST_STATUS.WDT_B true).rebootSpindle 1).raise 0x1B2 1)
      else if x = .b ∧ also.resetA then
        s.onChip (fun c => ((c.setFlag GLB_RST_STATUS.WDT_A true).rebootSpindle 0).raise 0x1B2 0)
      else s
    else s)

/-- WDT_KICK (R279, R302): any write by a spindle restarts its own watchdog, whose expiry is then not due; the host's
write is ignored. The state holds no running time, so only the access's answer changes. -/
def execWdtKick (m : Master) (_v : Word) (s : State) : Host.Outcome State Fault Refusal :=
  .next (s.rowWrite m GRD_WDT_KICK.addr id)

/-! ### Claims, release, handover (R281, R302) -/

/-- A cycle with a claim of a master put in; the host's and DMA's writes to `GRD_CLAIM` are no claims (R302). -/
def withClaim (m : Master) (e : Word) (c : DistCycle) : DistCycle :=
  match m with
  | .spindleA => { c with claimA := some e }
  | .spindleB => { c with claimB := some e }
  | _ => c

/-- CLAIM (R281): a write of a proposed epoch to `GRD_CLAIM`, with the other happenings of its cycle. -/
def execClaim (m : Master) (e : Word) (also : DistCycle) (s : State) : Host.Outcome State Fault Refusal :=
  .next (s.rowWrite m GRD_CLAIM.addr (fun s => s.distCycle (withClaim m e also)))

/-- RELEASE (R281, R302): the holder's write of RELEASE with the KEY to `GRD_DISTAFF_CTRL`. -/
def execRelease (m : Master) (v : Word) (also : DistCycle) (s : State) : Host.Outcome State Fault Refusal :=
  .next (s.rowWrite m GRD_DISTAFF_CTRL.addr (fun s => s.distCycle { also with ctrl := some (m, v) }))

/-- HANDOVER (R281, R302): the holder's write of HANDOVER with the KEY; a hitless update then waits for the mailbox to
open (R289). -/
def execHandover (m : Master) (v : Word) (also : DistCycle) (s : State) : Host.Outcome State Fault Refusal :=
  .next (s.rowWrite m GRD_DISTAFF_CTRL.addr (fun s => s.distCycle { also with ctrl := some (m, v) }))

/-- The fence bits of a word that master `m` may clear: its own only (R282, R302). -/
def clearFence (d : Distaff) (m : Master) (v : Word) : Distaff :=
  match m with
  | .spindleA => if getBits v 4 1 = 1 then { d with fencedA := false } else d
  | .spindleB => if getBits v 5 1 = 1 then { d with fencedB := false } else d
  | _ => d

/-- FENCE_CLEAR (R282): a spindle's write of 1 to its own FENCED bit, which takes effect after the evaluation of its
cycle. -/
def execFenceClear (m : Master) (v : Word) (also : DistCycle) (s : State) : Host.Outcome State Fault Refusal :=
  .next (s.rowWrite m GRD_DISTAFF.addr (fun s =>
    let s := s.distCycle also
    { s with dist := clearFence s.dist m v }))

/-- SPINDLE_RESTART (R302): the holder's write of RESTART_A or RESTART_B with the KEY resets the other spindle's domain
and reboots it from the image slot that the word names; a write that names the holder itself is ignored. -/
def State.spnCtrl (s : State) (m : Master) (v : Word) : State :=
  let x := masterSpindle m
  let own := if x = 1 then getBits v 0 1 else getBits v 1 1
  let other := 2 - x
  let hit := if x = 1 then getBits v 1 1 else getBits v 0 1
  let slot := if other = 0 then getBits v 2 1 else getBits v 3 1
  if x ≠ 0 ∧ s.dist.holder = x ∧ getBits v 16 16 = distaffKey ∧ own = 0 ∧ hit = 1 ∧ s.chip.pdOn (1 + other) = true then
    s.restart other slot
  else s

/-- SPINDLE_RESTART: a write to `GRD_SPN_CTRL`. -/
def execSpindleRestart (m : Master) (v : Word) (s : State) : Host.Outcome State Fault Refusal :=
  .next (s.rowWrite m GRD_SPN_CTRL.addr (fun s => s.spnCtrl m v))

/-- HOLDERLESS_CLAIM (R283): HOLDER has read none for 2 ms, so Krelin on the named running spindles claims with
E = EPOCH + 1. -/
def execHolderlessClaim (a b : Bool) (s : State) : Host.Outcome State Fault Refusal :=
  let e := BitVec.ofNat 32 (s.dist.epoch + 1)
  let runs := fun i => decide (s.chip.roleOf i ≠ .off) && s.chip.pdOn (1 + i)
  .next (if s.dist.holder = 0 ∧ s.chip.flag GLB_BOOT_STATUS.FW_READY = true then
      s.distCycle { claimA := if a && runs 0 then some e else none, claimB := if b && runs 1 then some e else none }
    else s)

/-- What a spindle's STANDBY means to a hitless update: the new standby makes the holder quiesce (step 5), and the old spindle's
return ends the update (step 9), R289. -/
def Chip.updateStandby (s : Chip) (b : Nat) : Chip :=
  match s.spn.update with
  | none => s
  | some u =>
    if u.phase = .syncing ∧ u.old ≠ b + 1 then
      { s.setFlag MBX_STATUS.QUIESCED true with spn := { s.spn with update := some { u with phase := .quiesced } } }
    else if u.phase = .finishing ∧ u.old = b + 1 then Chip.raise { s with spn := { s.spn with update := none } } 0x1B4 0
    else s

/-- SPINDLE_SYNC_DONE (R277, R282, R289, R291): a spindle that synchronises becomes STANDBY; one whose image may start passes
through SYNC. Log 127 (DESIGN CHOICE), 132 (DESIGN CHOICE). -/
def execSpindleSyncDone (x : Spindle) (s : State) : Host.Outcome State Fault Refusal :=
  let b := spNum x - 1
  chipNext s (fun c =>
    if c.pdOn (1 + b) = true ∧ (c.roleOf b = .sync ∨ c.mayStart b = true) then
      ((c.startImage b).setRole b .standby).updateStandby b
    else c)

/-- SPINDLE_DOWN (R280): a spindle whose domain is ON has not reached STANDBY or HOLDER in time. That the standby's domain leaves ON
is raised where it leaves. Log 138 (DEDUCED). -/
def execSpindleDown (x : Spindle) (s : State) : Host.Outcome State Fault Refusal :=
  let b := spNum x - 1
  chipNext s (fun c => if s.standby b || s.dist.holder == b + 1 || !(c.pdOn (1 + b)) then c else c.raise 0x1B3 0)

end Sys2Proof.Machine
end

