-- ==== Sys2Proof/Machine/Sideband.lean ====
section
/-! DEFINITION. The characters of a Fleyth sideband link (spec/14 R351, R352, R359): the 8b/10b code, the characters of a transmission and
what a receiver makes out of them. The specification names the code of IEEE 802.3 Clause 36 and does not print its tables: they
are taken from that standard. Log 140 (PRESUMED). -/

namespace Sys2Proof.Machine

/-- The characters of a sideband link, R351: K28.5, K27.7, K29.7, a message byte, and a character that is none (R359). -/
inductive SbChar where
  | comma | som | eom
  | data (b : Byte)
  | bad
  deriving DecidableEq, Repr

/-! ### The 8b/10b code -/

/-- The number of ones among the first `n` bits. -/
def onesIn (n v : Nat) : Nat := (bitsSet n v).length

/-- The six-bit blocks at negative running disparity, first bit first, and that of K28. Log 140 (PRESUMED). -/
def sixTable : List Nat :=
  [0b100111, 0b011101, 0b101101, 0b110001, 0b110101, 0b101001, 0b011001, 0b111000] ++
  [0b111001, 0b100101, 0b010101, 0b110100, 0b001101, 0b101100, 0b011100, 0b010111] ++
  [0b011011, 0b100011, 0b010011, 0b110010, 0b001011, 0b101010, 0b011010, 0b111010] ++
  [0b110011, 0b100110, 0b010110, 0b110110, 0b001110, 0b101110, 0b011110, 0b101011] ++ [0b001111]

/-- The four-bit blocks at negative running disparity, first bit first, and the other block of 7. Log 140 (PRESUMED). -/
def fourTable : List Nat := [0b1011, 0b1001, 0b0101, 0b1100, 0b1101, 0b1010, 0b0110, 0b1110, 0b0111]

/-- The six-bit block of place `x` at a running disparity. -/
def sixBits (rd : Bool) (x : Nat) : Nat :=
  let v := sixTable.getD x 0
  if rd = true ∧ (onesIn 6 v ≠ 3 ∨ x = 7) then 63 - v else v

/-- The four-bit block of place `y` at a running disparity. -/
def fourBits (rd : Bool) (y : Nat) : Nat :=
  let v := fourTable.getD y 0
  if rd = true ∧ (onesIn 4 v ≠ 2 ∨ y = 3) then 15 - v else v

/-- Does the byte with low part `x` take the other block of 7 at a running disparity? -/
def otherSeven (rd : Bool) (x : Nat) : Bool :=
  if rd then x == 11 || x == 13 || x == 14 else x == 17 || x == 18 || x == 20

/-- The running disparity after a group of `n` bits. -/
def afterGroup (n : Nat) (rd : Bool) (v : Nat) : Bool := if 2 * onesIn n v = n then rd else !rd

/-- A six-bit and a four-bit block put together, with the running disparity after them. -/
def joinGroup (rd : Bool) (x : Nat) (four : Bool → Nat) : BitVec 10 × Bool :=
  let six := sixBits rd x
  let mid := afterGroup 6 rd six
  let v := four mid
  (BitVec.ofNat 10 (16 * six + v), afterGroup 4 mid v)

/-- The code group of a character at a running disparity, first bit on the left, and the running disparity after it (R351). A
character that is none is sent as ten zeros. Log 140 (PRESUMED), 141 (DESIGN CHOICE). -/
def encGroup (rd : Bool) : SbChar → BitVec 10 × Bool
  | .comma => joinGroup rd 32 (fun mid => if mid then 0b1010 else 0b0101)
  | .som => joinGroup rd 27 (fun mid => fourBits mid 8)
  | .eom => joinGroup rd 29 (fun mid => fourBits mid 8)
  | .data b =>
    let x := b.toNat % 32
    let y := b.toNat / 32
    joinGroup rd x (fun mid => fourBits mid (if y = 7 ∧ otherSeven mid x = true then 8 else y))
  | .bad => (0, false)

/-- The code groups of characters sent one after another, and the running disparity after them. -/
def encGroups : Bool → List SbChar → List (BitVec 10) × Bool
  | rd, [] => ([], rd)
  | rd, c :: t =>
    let g := encGroup rd c
    let r := encGroups g.2 t
    (g.1 :: r.1, r.2)

/-- The character that a code group stands for at a running disparity, `bad` where it stands for none. -/
def decGroup (rd : Bool) (g : BitVec 10) : SbChar :=
  let six := g.toNat / 16
  let bytes := ((List.range 32).filter (fun x => sixBits rd x == six)).flatMap
    (fun x => (List.range 8).map (fun y => SbChar.data (BitVec.ofNat 8 (x + 32 * y))))
  (([SbChar.comma, .som, .eom] ++ bytes).find? (fun c => (encGroup rd c).1 == g)).getD .bad

/-- The running disparity after a received group, by its ones. -/
def heardAfter (rd : Bool) (g : BitVec 10) : Bool :=
  let n := onesIn 10 g.toNat
  if n = 5 then rd else decide (5 < n)

/-- The characters of received code groups. -/
def decGroups : Bool → List (BitVec 10) → List SbChar
  | _, [] => []
  | rd, g :: t => decGroup rd g :: decGroups (heardAfter rd g) t

/-- The characters a receiver makes out: its first group sets the running disparity. Log 140 (PRESUMED). -/
def heardChars (l : List (BitVec 10)) : List SbChar :=
  match l with
  | [] => []
  | g :: _ => decGroups (decide (decGroup false g = .bad)) l

/-! ### Transmissions (R352, R359, R369) -/

/-- The characters of a message's transmission, R352: two K28.5, SOM, the bytes and EOM; a bad one that was already on its way has
a character that is none before EOM (R359). -/
def messageChars (m : List Byte × Bool) : List SbChar :=
  [.comma, .comma, .som] ++ m.1.map .data ++ (if m.2 then [.bad] else []) ++ [.eom]

/-- The characters of a keepalive, R353. -/
def keepaliveChars : List SbChar := List.replicate 4 .comma

/-- The characters of the wake pattern, R369: K28.5 for 20 µs of characters of 90.27 ns. Log 141 (DESIGN CHOICE). -/
def wakeChars : List SbChar := List.replicate 222 .comma

/-- The bytes up to EOM and whether all of them were sound; a message that lacks its EOM is not (R367). -/
def bodyHeard : List SbChar → List Byte × Bool
  | [] => ([], false)
  | .eom :: _ => ([], true)
  | .data b :: t => let r := bodyHeard t; (b :: r.1, r.2)
  | _ :: t => let r := bodyHeard t; (r.1, false)

/-- The message a receiver takes from characters, R352: a SOM counts where a clean K28.5 stands before it. -/
def messageHeard : Bool → List SbChar → Option (List Byte × Bool)
  | _, [] => none
  | true, .som :: t => some (bodyHeard t)
  | _, c :: t => messageHeard (decide (c = .comma)) t

end Sys2Proof.Machine
end

