-- ==== Sys2Proof/Machine/FlyNet.lean ====
section
/-! DEFINITION. Fleyth messages, the output queues and forwarding by range (spec/14 R356 to R360). -/

namespace Sys2Proof.Machine

/-- A Fleyth message, R356. -/
structure FlyMsg where
  ver : Nat := 1
  typ : Nat
  hops : Nat := 0
  dst : Nat
  src : Nat
  tag : Nat := 0
  priv : Nat := 0
  body : List Byte
  deriving DecidableEq, Repr

/-! ### Layout (R356) -/

/-- The bytes of a message, with its CRC-32. -/
def FlyMsg.bytes (m : FlyMsg) : List Byte :=
  let l := [BitVec.ofNat 8 (16 * m.ver + m.typ), BitVec.ofNat 8 m.hops] ++ leBytes 3 m.dst ++ leBytes 3 m.src
    ++ leBytes 2 m.tag ++ [BitVec.ofNat 8 m.priv, BitVec.ofNat 8 m.body.length] ++ m.body
  l ++ leBytes 4 (crc32 l)

/-- A byte of a list as a number, zero beyond its end. -/
def byteAt (l : List Byte) (i : Nat) : Nat := (l.getD i 0).toNat

/-- The little-endian number of `n` bytes of a list from position `i`. -/
def leAt (l : List Byte) (i n : Nat) : Nat := leNat ((l.drop i).take n)

/-- Types 7 and 12 to 15 are reserved (R357). -/
def flyTypeReserved (t : Nat) : Bool := t == 7 || decide (12 ≤ t)

/-- The message that bytes spell; none for a message that R356 drops as bad. -/
def parseFly (l : List Byte) : Option FlyMsg :=
  let n := byteAt l 11
  if l.length < 16 ∨ n > 244 ∨ l.length ≠ 16 + n then none
  else if crc32 (l.take (12 + n)) ≠ leAt l (12 + n) 4 then none
  else if byteAt l 0 / 16 ≠ 1 ∨ flyTypeReserved (byteAt l 0 % 16) = true then none
  else some ⟨1, byteAt l 0 % 16, byteAt l 1, leAt l 2 3 % 0x100000, leAt l 5 3 % 0x100000, leAt l 8 2,
    byteAt l 10 % 4, (l.drop 12).take n⟩

/-- The 44-bit unit identity as six bytes. -/
def identBytes (x : Nat) : List Byte := leBytes 6 (x % 2 ^ 44)

/-- The unit identity as `TWF_UNIT_ID` shows it; OTP gives it (R222). -/
def Otp.ident (o : Otp) : Nat := o.unitId % 2 ^ 44

/-! ### Ports -/

/-- Port `p` changed by `f`. -/
def Chip.flyMod (s : Chip) (p : Nat) (f : FlyPort → FlyPort) : Chip :=
  if h : p < 10 then { s with fly := { s.fly with ports := vmod s.fly.ports ⟨p, h⟩ f } } else s

/-- Port `p`. -/
def Chip.flyPort (s : Chip) (p : Nat) : FlyPort := (s.fly.ports.toList[p]?).getD {}

/-- Is port `p` enabled? -/
def Chip.flyEn (s : Chip) (p : Nat) : Bool := bit (s.fld FLY_PORT_CFG.EN) p

/-- Is the link of port `p` up? -/
def Chip.flyUp (s : Chip) (p : Nat) : Bool := bit (s.fld FLY_PORT_STATUS.LINK_UP) p

/-- The role of port `p`: 0 none, 1 parent, 2 child, 3 standby (R370). -/
def Chip.flyRole (s : Chip) (p : Nat) : Nat := s.fld (FLY_PORT_ROLE.ROLE p)

/-- The node's address if it has one. -/
def Chip.flyAddr (s : Chip) : Option Nat :=
  if s.flag FLY_STATUS.ADDR_VALID then some (s.fld FLY_STATUS.ADDR) else none

/-- Is the device the manager (R350)? -/
def Chip.isManager (s : Chip) : Bool := s.flag GLB_STRAPS.MGR_SEL

/-! ### Drops (R356, R358, R360, R371) -/

/-- The reasons of EVS_FLY_DROP. -/
inductive FlyDrop where
  | bad | queue | noRoute | noAddr
  deriving DecidableEq, Repr

/-- The code of a drop reason. -/
def FlyDrop.no : FlyDrop → Nat
  | .bad => 0 | .queue => 1 | .noRoute => 2 | .noAddr => 3

/-- The count field of a drop reason. -/
def FlyDrop.fld : FlyDrop → Fld
  | .bad => FLY_CNT_DROP.BAD | .queue => FLY_CNT_DROP.QUEUE
  | .noRoute => FLY_CNT_DROP.NO_ROUTE | .noAddr => FLY_CNT_DROP.NO_ADDR

/-- A message is dropped and counted; the first drop of a 1 ms window raises EVS_FLY_DROP. -/
def Chip.flyDrop (s : Chip) (r : FlyDrop) : Chip :=
  let s := s.satInc r.fld 1
  if s.fly.dropSeen then s
  else ({ s with fly := { s.fly with dropSeen := true } }).raise 0x147 r.no

/-! ### Sending -/

/-- The bytes in an output queue. -/
def queueBytes (q : List (List Byte × Bool)) : Nat := (q.map (fun m => m.1.length)).foldl (· + ·) 0

/-- Bytes enter the 4 KiB output queue of a port, or are dropped where the queue is full (R360). -/
def Chip.flyQueue (s : Chip) (p : Nat) (m : List Byte × Bool) : Chip :=
  if queueBytes (s.flyPort p).outq + m.1.length ≤ 4096 then s.flyMod p (fun x => { x with outq := x.outq ++ [m] })
  else s.flyDrop .queue

/-- A message enters the output queue of a port. -/
def Chip.flySend (s : Chip) (p : Nat) (m : FlyMsg) : Chip := s.flyQueue p (m.bytes, false)

/-- The port for a message towards port `p`: the port itself while its link is up, else the lowest-numbered standby port
that is up and leads to the same neighbour (R358). -/
def Chip.flyVia (s : Chip) (p : Nat) : Option Nat :=
  if s.flyUp p then some p
  else (List.range 10).find? (fun q =>
    s.flyRole q == 3 && s.flyUp q && (s.flyPort q).nbr.isSome && decide ((s.flyPort q).nbr = (s.flyPort p).nbr))

/-- The child port whose route entry holds an address. -/
def Chip.flyChild (s : Chip) (a : Nat) : Option Nat :=
  (List.range 10).find? (fun p =>
    s.flyRole p == 2 && s.flag (FLY_ROUTE_BASE.VALID p) && decide (s.fld (FLY_ROUTE_BASE.BASE p) ≤ a) &&
      decide (a < s.fld (FLY_ROUTE_BASE.BASE p) + s.fld (FLY_ROUTE_SIZE.SIZE p)))

/-- The parent port. -/
def Chip.flyParent (s : Chip) : Option Nat := (List.range 10).find? (fun p => s.flyRole p == 1)

/-- The port that R358 gives a message for an address, at a node that has one. -/
def Chip.flyOut (s : Chip) (dst : Nat) : Option Nat :=
  match s.flyChild dst with
  | some p => s.flyVia p
  | none => (s.flyParent).bind s.flyVia

/-- A message sent on the way that R358 gives it, from a node that has an address; `from_` is the port it arrived on,
which it never leaves by. Log 109 (DEDUCED). -/
def Chip.flyForward (s : Chip) (m : FlyMsg) (from_ : Option Nat) : Chip :=
  match s.flyOut m.dst with
  | none => s.flyDrop .noRoute
  | some p => if from_ = some p then s.flyDrop .noRoute else s.flySend p m

/-- A message that comes in on sideband port `p` is found bad at its EOM, R359: where bytes 0 to 4 had already sent it on its way out of
the other sideband port, it goes out there too, with its HOPS counted and a character that is none before its EOM.
Log 141 (DESIGN CHOICE). -/
def Chip.flyCutThrough (s : Chip) (p : Nat) (l : List Byte) : Chip :=
  let typ := byteAt l 0 % 16
  let dst := leAt l 2 3 % 0x100000
  if p < 2 ∧ 5 ≤ l.length ∧ byteAt l 0 / 16 = 1 ∧ typ < 7 ∧ s.flyAddr.isSome = true ∧ s.flyAddr ≠ some dst then
    match s.flyOut dst with
    | some q => if q < 2 ∧ q ≠ p then s.flyQueue q (l.take 1 ++ leBytes 1 (min 255 (byteAt l 1 + 1)) ++ l.drop 2, true) else s
    | none => s
  else s

/-- A message that this node originates. -/
def Chip.flyOriginate (s : Chip) (m : FlyMsg) : Chip :=
  match s.flyAddr with
  | none => s.flyDrop .noAddr
  | some a => s.flyForward { m with src := a } none

/-- A link-local message on one port: DST and SRC are ignored (R357). -/
def Chip.flyLinkLocal (s : Chip) (p typ : Nat) (body : List Byte) : Chip :=
  s.flySend p { typ := typ, dst := 0, src := 0, body := body }

/-- The RESPONSE of a worker to a request: status, DATA, RESP_LEN and the data or the RESULT bytes (R357). -/
def Chip.flyRespond (s : Chip) (dst tag status : Nat) (hasData : Bool) (respLen : Nat) (l : List Byte) : Chip :=
  s.flyOriginate { typ := 1, dst := dst, src := 0, tag := tag
                   body := [BitVec.ofNat 8 status, BitVec.ofNat 8 (b2n hasData)] ++ leBytes 2 respLen ++ l }

/-! ### Links (R353, R355, R367) -/

/-- The link of port `p` comes up or goes down, with its event; a worker that holds an address has a NOTIFY to send (R367). -/
def Chip.flySetLink (s : Chip) (p : Nat) (up : Bool) : Chip :=
  if s.flyUp p = up then s
  else
    let s := s.setFldBit FLY_PORT_STATUS.LINK_UP p up
    let s := if up then s else s.flyMod p (fun x => { x with hears := [] })
    let s := s.raise (if up then 0x140 else 0x141) p
    if s.isManager || s.flyAddr.isNone then s
    else { s with fly := { s.fly with notes := s.fly.notes ++ [(0, if up then 1 else 2, p)] } }

/-! ### The in-band channel (R354, R355) -/

/-- A message's bytes between flags. -/
def stuffBytes (l : List Byte) : List Byte :=
  [0x7E#8] ++ l.flatMap (fun b => if b = 0x7E#8 ∨ b = 0x7D#8 then [0x7D#8, b ^^^ 0x20#8] else [b]) ++ [0x7E#8]

/-- A message is sent on port `p` (R447). -/
def Chip.flyCount (s : Chip) (p : Nat) : Chip := s.count (fun k a => k == 7 && a % 16 == p) 1

/-- The next byte that port `p` sends in band: of the message being sent, of the next one in its queue, or a flag.
Log 88 (DEDUCED). -/
def Chip.inbandByte (s : Chip) (p : Nat) : Chip × Byte :=
  let x := s.flyPort p
  if s.flyEn p && s.pdOn 21 then
    match x.sending, x.outq with
    | b :: t, _ => (s.flyMod p (fun x => { x with sending := t }), b)
    | [], m :: q => ((s.flyMod p (fun x => { x with outq := q, sending := (stuffBytes m.1).drop 1 })).flyCount p, 0x7E#8)
    | [], [] => (s, 0x7E#8)
  else (s, 0x7E#8)

/-- A byte received in band: a flag ends and starts a message, an escape changes the next byte. -/
def FlyPort.takeByte (x : FlyPort) (b : Byte) : FlyPort :=
  if b = 0x7E#8 then
    match x.rx with
    | some (c :: t) => { x with inbox := x.inbox ++ [c :: t], rx := some [], rxEsc := false }
    | _ => { x with rx := some [], rxEsc := false }
  else match x.rx with
    | none => x
    | some l =>
      if x.rxEsc then { x with rx := some (l ++ [b ^^^ 0x20#8]), rxEsc := false }
      else if b = 0x7D#8 then { x with rxEsc := true }
      else { x with rx := some (l ++ [b]) }

/-- An in-band port that hunts for a flag, with no overhead word heard. Log 88 (DEDUCED). -/
def FlyPort.hunt (x : FlyPort) : FlyPort := { x with rx := none, rxEsc := false, goodOh := 0, sinceFlag := 16 }

/-- The FLEYTH bytes of a received frame reach port `p`, good or marked errored (R355): an errored frame drops the message
in progress, and the link follows the last 16 overhead words; frames without a flag leave the message in progress alone.
Log 88 (DEDUCED). -/
def Chip.inbandFrame (s : Chip) (p : Nat) (ok : Bool) (a b : Byte) : Chip :=
  if !(s.flyEn p && s.pdOn 21) then s.flyMod p FlyPort.hunt
  else if ok then
    let flag := decide (a = 0x7E#8 ∨ b = 0x7E#8)
    let s := s.flyMod p (fun x => { (x.takeByte a).takeByte b with
      goodOh := min 16 (x.goodOh + 1), sinceFlag := if flag then 0 else min 16 (x.sinceFlag + 1) })
    let x := s.flyPort p
    s.flySetLink p (decide (16 ≤ x.goodOh) && decide (x.sinceFlag < 16))
  else
    let lost := match (s.flyPort p).rx with | some (_ :: _) => true | _ => false
    let s := s.flyMod p (fun x => { x.hunt with sinceFlag := min 16 (x.sinceFlag + 1) })
    (s.when lost (fun s => s.flyDrop .bad)).flySetLink p false

/-- The lane of port `p` has lost frame lock (R355). Log 88 (DEDUCED). -/
def Chip.inbandLost (s : Chip) (p : Nat) : Chip :=
  (s.flyMod p FlyPort.hunt).flySetLink p false

end Sys2Proof.Machine
end

