-- ==== Sys2Proof/Machine/Mailbox.lean ====
section
/-! DEFINITION. The mailbox as the holder serves it: completions and their ring, moderation, the order in which commands
are taken and the checks of R306 (spec/11 R292 to R301, spec/12 R304 to R311). -/

namespace Sys2Proof.Machine

/-! ### Statuses and replies -/

/-- The completion status codes of spec/00. -/
inductive Status where
  | ok | busy | denied | badArg | badState | timeout | notPopulated | refusedTraffic | partly | unknownOp
  deriving DecidableEq, Repr

/-- The code of a status. -/
def Status.no : Status → Nat
  | .ok => 0 | .busy => 1 | .denied => 2 | .badArg => 3 | .badState => 4 | .timeout => 5 | .notPopulated => 6
  | .refusedTraffic => 7 | .partly => 8 | .unknownOp => 9

/-- How a command completes: its status, its RESULT bytes (R) or its response data (D), R305. -/
structure Reply where
  status : Status
  result : List Byte := []
  data : Option (List Byte) := none
  deriving DecidableEq, Repr

/-- A completion with a status alone. -/
def Reply.fail (st : Status) : Reply := { status := st }

/-- A completion with OK and RESULT bytes. -/
def Reply.okR (l : List Byte) : Reply := { status := .ok, result := l }

/-- A completion with OK and response data. -/
def Reply.okD (l : List Byte) : Reply := { status := .ok, data := some l }

/-- The register words as response bytes. -/
def wordBytes (l : List Word) : List Byte := l.flatMap (fun w => leBytes 4 w.toNat)

/-- A list filled with zeros to `n` bytes. -/
def padTo (n : Nat) (l : List Byte) : List Byte := l.take n ++ List.replicate (n - l.length) 0#8

/-! ### The completion ring (R295, R297) -/

/-- The producer's index with its WRAP bit. -/
def Chip.prod (s : Chip) : Nat := getBits (s.reg MBX_CPL_PROD.addr) 0 7

/-- The consumer's index with its WRAP bit. -/
def Chip.cons (s : Chip) : Nat := getBits (s.reg MBX_CPL_CONS.addr) 0 7

/-- Is the ring full: the indexes are equal and the WRAP bits differ? -/
def Chip.ringFull (s : Chip) : Bool := s.prod % 64 == s.cons % 64 && s.prod != s.cons

/-- A slot in a state. -/
def Chip.setSlot (s : Chip) (i : Nat) (st : SlotState) : Chip :=
  if h : i < 16 then { s with mbx := { s.mbx with slots := s.mbx.slots.set i st h } } else s

/-- The state of a slot. -/
def Chip.slot (s : Chip) (i : Nat) : SlotState := (s.mbx.slots.toList[i]?).getD .free

/-- The 32 bytes of a completion, R297. -/
def Completion.bytes (c : Completion) (phase time : Nat) : List Byte :=
  leBytes 2 c.opcode ++ leBytes 2 c.tag
    ++ [BitVec.ofNat 8 c.status, BitVec.ofNat 8 c.slot, BitVec.ofNat 8 (phase + 2 * b2n c.hasData + 4 * b2n c.abandoned), 0#8]
    ++ leBytes 2 c.respLen ++ leBytes 6 time ++ padTo 16 c.result

/-- Every pending completion is covered by one EVS_MBX_CPL (R298). -/
def Chip.signalCpl (s : Chip) : Chip :=
  if s.mbx.pend.isEmpty then s
  else
    Chip.raise { s with mbx := { s.mbx with pend := [] } } 0x1B8 (s.prod + 2 ^ 8 * s.mbx.pend.length)

/-- COUNT of `MBX_MOD_CFG` as it acts: 0 as 1, above 64 as 64 (R303). -/
def Chip.modCount (s : Chip) : Nat := clampNat 1 64 (s.fld MBX_MOD_CFG.COUNT)

/-- A completion is posted: its ring entry, PROD, the slot's DONE, and what R298 and R299 signal at once.
Log 106 (DEDUCED). -/
def Chip.postCpl (s : Chip) (c : Completion) : Chip :=
  let p := s.prod
  let s := s.writeBytes .mailbox (0x1000 + 0x20 * (p % 64)) (c.bytes (1 - p / 64) s.evt.time)
  let s := s.setReg MBX_CPL_PROD.addr (BitVec.ofNat 32 ((p + 1) % 128))
  let s := s.setSlot c.slot .done
  let cnt := s.modCount
  let timed := s.fld MBX_MOD_CFG.TIME != 0
  let s := { s with mbx := { s.mbx with pend := s.mbx.pend ++ [⟨cnt, timed⟩] } }
  if c.status ≠ 0 ∨ timed = false ∨ s.flag MBX_HOST_SLEEP.SLEEP = true ∨
      s.mbx.pend.any (fun q => decide (q.count ≤ s.mbx.pend.length)) = true then s.signalCpl
  else s

/-- Does a completion end a LOW_POWER that was carried out (R322)? -/
def Completion.lowPower (c : Completion) : Bool := c.opcode == 0x0803 && c.status == 0 && !c.abandoned

/-- A completion is posted, or held while the ring is full (R295). -/
def Chip.complete (s : Chip) (c : Completion) : Chip :=
  if s.ringFull || !(s.mbx.held.isEmpty) then { s with mbx := { s.mbx with held := s.mbx.held ++ [c] } }
  else s.postCpl c

/-- Response data written into a slot from byte 16 on (R305); bytes after it stay. -/
def Chip.writeResp (s : Chip) (i : Nat) (l : List Byte) : Chip :=
  let off := 0x100 * i + 16
  s.writeBytes .mailbox off (l ++ s.bytesAt (MemId.mailbox.base + off + l.length) ((8 - l.length % 8) % 8))

/-- A command ends: its completion in the ring for a slot, a RESPONSE for a Fleyth request (R305, R357, R365). -/
def Chip.finish (s : Chip) (src : CmdSrc) (opcode tag flySrc : Nat) (r : Reply) : Chip :=
  match src with
  | .slot i =>
    let c : Completion := ⟨opcode, tag, r.status.no, i.1, r.data.isSome, false, (r.data.getD []).length,
      r.result⟩
    match r.data with
    | none => s.complete c
    | some l => (s.writeResp i.1 l).complete c
  | .fleyth _ =>
    match r.data with
    | none => s.flyRespond flySrc tag r.status.no false 0 (padTo 16 r.result)
    | some l => s.flyRespond flySrc tag r.status.no true l.length l

/-! ### The commands of Krelin 4.1 (spec/12) -/

/-- What R304 and R307 fix for a command: opcode, lowest level (0 OBSERVER to 3 VENDOR) and whether it is fixed, the
LEN range, the bytes that the layout names with the bits it names (start, count, mask), and from where on every byte
is named. -/
structure CmdRow where
  op : Nat
  level : Nat
  fixed : Bool
  lo : Nat
  hi : Nat
  named : List (Nat × Nat × Nat)
  rest : Option Nat := none
  deriving DecidableEq, Repr

/-- A row with an exact LEN and a level that is not fixed. -/
def row (op level len : Nat) (named : List (Nat × Nat × Nat)) : CmdRow := ⟨op, level, false, len, len, named, none⟩

/-- System, mode and port, and host lane commands. -/
def cmdRows1 : List CmdRow :=
  [row 0x0101 0 0 [], ⟨0x0102, 0, false, 0, 240, [], some 0⟩, row 0x0103 0 0 [], row 0x0104 1 0 [],
   row 0x0201 1 8 [(0, 5, 255), (5, 1, 1)], row 0x0202 1 4 [(0, 1, 255)], row 0x0203 1 4 [(0, 1, 255)],
   row 0x0204 1 4 [(0, 1, 255)], row 0x0205 0 0 [],
   row 0x0301 1 4 [(0, 4, 255)], row 0x0302 1 4 [(0, 1, 255)], row 0x0303 0 4 [(0, 1, 255)],
   row 0x0304 1 16 [(0, 2, 255), (4, 12, 255)]]

/-- Line lane and hank commands. -/
def cmdRows2 : List CmdRow :=
  [row 0x0401 0 4 [(0, 1, 255)], row 0x0402 1 8 [(0, 6, 255)], row 0x0403 1 4 [(0, 1, 255)],
   row 0x0404 1 16 [(0, 3, 255), (4, 10, 255)], row 0x0405 0 4 [(0, 1, 255)],
   row 0x0406 1 8 [(0, 1, 255), (1, 1, 1), (4, 4, 255)], row 0x0407 1 8 [(0, 1, 255), (4, 4, 255)],
   row 0x0501 1 8 [(0, 1, 255), (4, 4, 255)], row 0x0502 0 4 [(0, 1, 255)], row 0x0503 1 8 [(0, 2, 255), (4, 4, 255)],
   row 0x0504 1 8 [(0, 1, 1), (4, 4, 255)], row 0x0505 1 4 [(0, 2, 255)], row 0x0506 1 4 [(0, 2, 255)],
   row 0x0507 1 4 [(0, 1, 255), (1, 1, 1), (2, 2, 255)], row 0x0508 1 4 [(0, 1, 255)]]

/-- Creel, Ply, power and telemetry commands. -/
def cmdRows3 : List CmdRow :=
  [row 0x0601 1 12 [(0, 3, 255), (4, 8, 255)], row 0x0602 0 0 [], row 0x0603 0 4 [(0, 1, 255), (1, 1, 1)],
   row 0x0604 0 4 [(0, 1, 255), (1, 1, 1)],
   row 0x0701 2 8 [(0, 8, 255)], row 0x0702 0 4 [(0, 1, 1)], row 0x0703 1 4 [(0, 1, 255)], row 0x0704 1 4 [(0, 1, 255)],
   row 0x0801 1 8 [(0, 5, 255)], row 0x0802 0 0 [], row 0x0803 1 4 [(0, 1, 1)],
   row 0x0901 0 0 [], row 0x0902 0 4 [(0, 1, 255)]]

/-- Fleyth, security, firmware, test and housekeeping commands. -/
def cmdRows4 : List CmdRow :=
  [row 0x0A01 2 4 [(0, 4, 255)], ⟨0x0A02, 1, false, 12, 240, [], some 0⟩, row 0x0A03 2 4 [(0, 1, 3), (1, 1, 255)],
   row 0x0A04 1 8 [(0, 8, 255)],
   ⟨0x0B01, 0, true, 0, 0, [], none⟩, ⟨0x0B02, 0, true, 32, 32, [], some 0⟩, ⟨0x0B03, 0, true, 0, 0, [], none⟩,
   ⟨0x0B04, 2, true, 16, 16, [(0, 1, 255), (4, 12, 255)], none⟩, row 0x0B05 1 4 [(0, 1, 255)],
   ⟨0x0B06, 2, true, 8, 8, [(0, 1, 255), (4, 4, 255)], none⟩, ⟨0x0B07, 3, true, 32, 32, [], some 0⟩,
   row 0x0C01 2 4 [(0, 4, 255)], ⟨0x0C02, 2, false, 5, 240, [], some 0⟩, row 0x0C03 2 0 [], row 0x0C04 2 0 [],
   row 0x0C05 0 0 [],
   row 0x0D01 2 4 [(0, 3, 255)], row 0x0D02 1 8 [(0, 1, 255), (4, 4, 255)], row 0x0D03 1 4 [(0, 3, 255)],
   row 0x0E01 0 0 [], row 0x0E02 1 8 [(0, 1, 255), (1, 1, 1), (4, 4, 255)]]

/-- Every command that Krelin 4.1 defines. -/
def cmdRows : List CmdRow := cmdRows1 ++ cmdRows2 ++ cmdRows3 ++ cmdRows4

/-- The row of an opcode. -/
def cmdRow (op : Nat) : Option CmdRow := cmdRows.find? (fun r => r.op == op)

/-- The bits of payload byte `i` that the layout names. Log 31 (DEDUCED). -/
def CmdRow.mask (r : CmdRow) (i : Nat) : Nat :=
  if (match r.rest with | some k => decide (k ≤ i) | none => false) then 255
  else match r.named.find? (fun q => decide (q.1 ≤ i) && decide (i < q.1 + q.2.1)) with
    | some q => q.2.2
    | none => 0

/-- Are all reserved payload bits zero, R304? Log 31 (DEDUCED). -/
def CmdRow.clean (r : CmdRow) (l : List Byte) : Bool :=
  (List.range l.length).all (fun i => byteAt l i &&& (255 - r.mask i) == 0)

/-- Is the opcode one of the three image-transfer commands? -/
def imageOp (op : Nat) : Bool := op == 0x0C01 || op == 0x0C02 || op == 0x0C03

/-! ### Requests -/

/-- A request as the holder takes it: its source, header, the level fixed at its doorbell, and whether its header obeys
R292; for a Fleyth request also the address to answer. -/
structure Req where
  src : CmdSrc
  opcode : Nat
  tag : Nat
  level : Nat
  payload : List Byte
  hdrOk : Bool
  flySrc : Nat := 0
  deriving DecidableEq, Repr

/-- The request in slot `i`; a granule of it that cannot be corrected makes it ill-formed (R379: BAD_ARG). -/
def Chip.slotReq (s : Chip) (i : Fin 16) : Chip × Req :=
  let r := s.readBytes .mailbox (0x100 * i.1) 256
  let lvl := s.mbx.priv[i.1]
  match r.2 with
  | none =>
    let l := s.bytesAt (MemId.mailbox.base + 0x100 * i.1) 4
    (r.1, ⟨.slot i, leAt l 0 2, leAt l 2 2, lvl, [], false, 0⟩)
  | some l =>
    let n := leAt l 4 2
    (r.1, ⟨.slot i, leAt l 0 2, leAt l 2 2, lvl, (l.drop 16).take n,
      decide (n ≤ 240) && ((l.drop 6).take 10).all (fun b => b == 0), 0⟩)

/-- The opcode in slot `i`. -/
def Chip.slotOp (s : Chip) (i : Fin 16) : Nat := leNat (s.bytesAt (MemId.mailbox.base + 0x100 * i.1) 2)

/-- The request at place `k` of the worker's queue, at the lesser of PRIV and `PRIV_CAP` (R366). -/
def Chip.flyReq (s : Chip) (k : Fin 8) : Option Req :=
  (s.fly.reqs[k.1]?).map (fun q =>
    ⟨.fleyth k, q.opcode, q.tag, min q.priv (s.fld FLY_PORT_CFG.PRIV_CAP), q.payload, q.ok, q.src⟩)

/-- The opcodes of the doorbell queue, oldest first: `k` counts the Fleyth requests passed.
Log 108 (DEDUCED), 121 (DEDUCED). -/
def queueOps (s : Chip) : List Bell → Nat → List (CmdSrc × Nat)
  | [], _ => []
  | .slot i :: t, k => (.slot i, s.slotOp i) :: queueOps s t k
  | .fleyth :: t, k =>
    (.fleyth ⟨k % 8, Nat.mod_lt _ (by decide)⟩, (s.fly.reqs[k]?).elim 0 (fun q => q.opcode)) :: queueOps s t (k + 1)

/-- The entries of the doorbell queue before the first that equals `src`. Log 121 (DEDUCED). -/
def ahead (src : CmdSrc) : List (CmdSrc × Nat) → List (CmdSrc × Nat)
  | [] => []
  | q :: t => if q.1 = src then [] else q :: ahead src t

/-- The doorbell queue without its `i`-th Fleyth request. Log 121 (DEDUCED). -/
def dropFly : Nat → List Bell → List Bell
  | _, [] => []
  | 0, .fleyth :: t => t
  | i + 1, .fleyth :: t => .fleyth :: dropFly i t
  | i, .slot j :: t => .slot j :: dropFly i t

/-- The request at place `k` of the Fleyth queue leaves it. -/
def Chip.takeFly (s : Chip) (k : Nat) : Chip :=
  { s with fly := { s.fly with reqs := s.fly.reqs.eraseIdx k }, mbx := { s.mbx with queue := dropFly k s.mbx.queue } }

/-- The request at place `k` of the Fleyth queue waits (R309). -/
def Chip.holdFly (s : Chip) (k : Nat) : Chip :=
  { s with fly := { s.fly with reqs := s.fly.reqs.mapIdx (fun i q => if i = k then { q with waits := true } else q) } }

/-! ### Who serves, and in which order (R39, R278, R287, R289, R295) -/

/-- Are commands taken: the mailbox is open and not quiesced, the part is neither on its way to low power (R480) nor to the reset
of R470, or the boot ROM waits for a host-pushed image (R39)? Log 59 (DEDUCED), 113 (DEDUCED). -/
def Chip.served (s : Chip) : Bool :=
  (s.flag MBX_STATUS.OPEN && !(s.flag MBX_STATUS.QUIESCED) && !s.pmu.entering && !s.start.returning) ||
    s.flag GLB_BOOT_STATUS.WAIT_HOST

/-- Is an FW_ACTIVATE WAITING (R289)? -/
def Chip.activateWaits (s : Chip) : Bool :=
  s.mbx.queue.any (fun q => match q with
    | .slot i => decide (s.slot i.1 = .waiting) && s.slotOp i == 0x0C04
    | .fleyth => false) || s.fly.reqs.any (fun q => q.waits && q.opcode == 0x0C04)

/-- The first POSTED slot in doorbell order. -/
def Chip.firstPosted (s : Chip) : Option (Fin 16) :=
  s.mbx.queue.findSome? (fun q => match q with
    | .slot i => if s.slot i.1 = .posted then some i else none
    | .fleyth => none)

/-- The place of the oldest Fleyth request that has not been taken. -/
def Chip.firstFly (s : Chip) : Option Nat := s.fly.reqs.findIdx? (fun q => !q.waits)

/-- May a command from `src` be taken now: the first POSTED slot or Fleyth request not taken yet, or one that waits; while an
FW_ACTIVATE is WAITING, no later one is? Log 108 (DEDUCED). -/
def Chip.takeable (s : Chip) (src : CmdSrc) : Bool :=
  s.served &&
  match src with
  | .slot i => decide (s.slot i.1 = .waiting) || (decide (s.firstPosted = some i) && !(s.activateWaits))
  | .fleyth k =>
    !(s.flag GLB_BOOT_STATUS.WAIT_HOST) &&
      ((s.fly.reqs[k.1]?).elim false (fun q => q.waits) || (decide (s.firstFly = some k.1) && !(s.activateWaits)))

/-! ### Lanes that commands name (R309) and domains that they name (R430) -/

/-- The lanes of a mode code of R54: host lanes, line lanes, lane rate code of the host lanes in 25 Gb/s doublings (0 for
25 Gb/s to 4 for 400 Gb/s), whether it runs on a tributary, and whether its framing is Twist. -/
structure Mode where
  host : Nat
  line : Nat
  rate : Nat
  trib : Bool
  twist : Bool
  deriving DecidableEq, Repr

/-- The modes of R54. -/
def modeOf (code : Nat) : Option Mode :=
  match code with
  | 0x01 => some ⟨1, 1, 4, false, true⟩
  | 0x02 => some ⟨1, 1, 3, true, true⟩
  | 0x03 => some ⟨1, 1, 3, false, false⟩
  | 0x04 => some ⟨2, 1, 2, false, false⟩
  | 0x05 => some ⟨4, 1, 1, false, false⟩
  | 0x06 => some ⟨8, 1, 0, false, false⟩
  | 0x07 => some ⟨8, 1, 1, false, true⟩
  | 0x08 => some ⟨2, 1, 1, true, true⟩
  | 0x09 => some ⟨4, 1, 0, true, true⟩
  | 0x0A => some ⟨4, 1, 1, true, true⟩
  | _ => if 0x12 ≤ code ∧ code ≤ 0x18 then some ⟨code - 0x10, code - 0x10, 4, false, true⟩ else none

/-- Port `p`, an absent one beyond P15. -/
def Chip.port (s : Chip) (p : Nat) : Port := (s.ports.toList[p]?).getD {}

/-- The mask of a port's host lanes. -/
def Port.hostMask (p : Port) : Nat := (2 ^ p.hostCount - 1) <<< p.hostFirst

/-- The host lanes and line lanes that a request names, as masks. -/
def namedLanes (s : Chip) (op : Nat) (l : List Byte) : Nat × Nat :=
  let a := byteAt l 0
  let hostLane := if a < 16 then 2 ^ a else 0
  let lineLane := if a < 9 then 2 ^ a else 0
  match op with
  | 0x0302 | 0x0303 | 0x0304 => (hostLane, 0)
  | 0x0401 | 0x0402 | 0x0403 | 0x0404 | 0x0405 | 0x0406 | 0x0407 => (0, lineLane)
  | 0x0501 | 0x0502 | 0x0507 | 0x0508 | 0x0603 | 0x0703 | 0x0704 => (0, lineLane)
  | 0x0D03 =>
    let b := byteAt l 1
    if a = 0 then (if b < 16 then 2 ^ b else 0, 0) else if a = 1 then (0, if b < 9 then 2 ^ b else 0) else (0, 0)
  | 0x0D01 =>
    let b := byteAt l 1
    if a = 1 then (if b < 16 then 2 ^ b else 0, 0) else if a = 0 then (0, if b < 9 then 2 ^ b else 0) else (0, 0)
  | 0x0201 =>
    match modeOf (byteAt l 1) with
    | none => (0, 0)
    | some m => (((2 ^ m.host - 1) <<< byteAt l 2) % 65536, byteAt l 4)
  | 0x0202 | 0x0203 | 0x0204 => ((s.port a).hostMask, (s.port a).lineMask)
  | _ => (0, 0)

/-- The lanes that an executing command names, as masks. -/
def ExecCmd.lanes (s : Chip) (e : ExecCmd) : Nat × Nat :=
  match e.wait with
  | .addPort p _ _ | .removePort p => ((s.port p).hostMask, (s.port p).lineMask)
  | .hostRetrain n => (2 ^ n, 0)
  | .lineRetrain n | .capture n | .hankLoad n | .hankFlush n | .plySubst n => (0, 2 ^ n)
  | .testLane k n => if k = 0 then (2 ^ n, 0) else (0, 2 ^ n)
  | _ => (0, 0)

/-- Is the command a mode and port command (R64)? -/
def portOp (op : Nat) : Bool := op / 256 == 2

/-- The domains of host and line lanes, as a mask over R320's numbers. -/
def laneDomains (h l : Nat) : Nat :=
  maskOf 22 (fun d =>
    if 3 ≤ d ∧ d ≤ 6 then (h >>> (4 * (d - 3))) % 16 != 0
    else if 7 ≤ d ∧ d ≤ 15 then bit l (d - 7)
    else false)

/-- The domains that the running group request holds (R430): those it has taken at their quiesce, for a wake those that
climb. -/
def Chip.heldDomains (s : Chip) : Nat :=
  match s.pmu.grp with
  | none => 0
  | some g => maskOf 22 (fun d => g.voted.contains d || (g.rest.head?).elim false (fun x => x == d) || g.climbing.contains d)

/-- Must a command wait in WAITING, R64, R289, R309, R430? A PLY_SUBST or PLY_MIRROR beside an executing PLY_SUBST never waits,
whatever else runs (R273, R309), nor does a LINE_CAPTURE for a running capture (R316). -/
def Chip.mustWait (s : Chip) (r : Req) : Bool :=
  let n := namedLanes s r.opcode r.payload
  let runs := s.mbx.exec
  let blocks := fun (e : ExecCmd) =>
    let m := e.lanes s
    let common := (n.1 &&& m.1) != 0 || (n.2 &&& m.2) != 0
    let exempt := match e.wait with
      | .capture _ => r.opcode == 0x0404
      | _ => false
    common && !exempt
  let beside := (r.opcode == 0x0704 || r.opcode == 0x0703) &&
    runs.any (fun e => match e.wait with | .plySubst _ => true | _ => false)
  !beside && ((portOp r.opcode &&
    (runs.any (fun e => portOp e.opcode) || (ahead r.src (queueOps s s.mbx.queue 0)).any (fun q => portOp q.2))) ||
  (r.opcode == 0x0C04 && !(runs.isEmpty)) ||
  (!(portOp r.opcode) || r.opcode == 0x0201) && runs.any blocks ||
  ((portOp r.opcode || r.opcode == 0x0D03 || r.opcode == 0x0704) && (laneDomains n.1 n.2 &&& s.heldDomains) != 0) ||
  ((match r.src with | .fleyth _ => true | .slot _ => false) && bit s.heldDomains 21 && r.opcode == 0x0801))

/-! ### The checks of R306 -/

/-- Is the Ply lane populated (R273)? -/
def Chip.plyFitted (s : Chip) : Bool := s.flag TWF_PLY_CFG.POPULATED

/-- Does level `l` execute the command (R307, R464, R465)? Log 107 (DEDUCED). -/
def Chip.mayRun (s : Chip) (r : CmdRow) (l : Nat) : Bool :=
  if r.fixed then decide (r.level ≤ l)
  else match s.guardPerm 1 r.op with
    | some perm => permCmd perm l
    | none => decide (r.level ≤ l)

/-- Does the command have a Ply-lane target: line lane 8, or any command of the Ply unit but PLY_CFG (R253, R273)? -/
def plyTarget (s : Chip) (r : Req) : Bool :=
  r.opcode == 0x0702 || r.opcode == 0x0703 || r.opcode == 0x0704 ||
  (r.opcode / 256 != 2 && bit (namedLanes s r.opcode r.payload).2 8)

/-- Steps 1 to 5 of R306: the status of the first check that fails. Log 107 (DEDUCED), 109 (DEDUCED). -/
def Chip.precheck (s : Chip) (r : Req) : Option Status :=
  let w := s.flag GLB_BOOT_STATUS.WAIT_HOST
  if w && !(imageOp r.opcode) then some .badState
  else match cmdRow r.opcode with
    | none => some .unknownOp
    | some c =>
      if !(r.hdrOk && decide (c.lo ≤ r.payload.length) && decide (r.payload.length ≤ c.hi) && c.clean r.payload) then
        some .badArg
      else if !(w || s.mayRun c r.level) then some .denied
      else if plyTarget s r && !(s.plyFitted) then some .notPopulated
      else none

/-! ### Taking and ending a command -/

/-- What a command's handler answers: it completes, or it goes on and waits. -/
inductive Verdict where
  | done (r : Reply)
  | runs (w : Wait)
  deriving DecidableEq, Repr

/-- The source leaves the doorbell queue and its slot becomes EXECUTING; a Fleyth request leaves its queue. -/
def Chip.begin (s : Chip) (src : CmdSrc) : Chip :=
  match src with
  | .slot i => Chip.setSlot { s with mbx := { s.mbx with queue := s.mbx.queue.erase (.slot i) } } i.1 .executing
  | .fleyth k => s.takeFly k.1

/-- A request completes. -/
def Chip.finishReq (s : Chip) (r : Req) (y : Reply) : Chip := s.finish r.src r.opcode r.tag r.flySrc y

/-- The request that `src` holds now. -/
def Chip.reqOf (s : Chip) (src : CmdSrc) : Chip × Option Req :=
  match src with
  | .slot i => let x := s.slotReq i; (x.1, some x.2)
  | .fleyth k => (s, s.flyReq k)

/-- The holder completes by itself the requests at the front that no command of this model is for: an opcode that is not
defined, or any but an image transfer while the boot ROM waits (R292, R306). Log 108 (DEDUCED). -/
def Chip.serveFront : Nat → Chip → Chip
  | 0, s => s
  | fuel + 1, s =>
    match s.firstPosted with
    | none => s
    | some i =>
      let op := s.slotOp i
      if s.takeable (.slot i) && ((cmdRow op).isNone || (s.flag GLB_BOOT_STATUS.WAIT_HOST && !(imageOp op))) then
        let x := s.slotReq i
        Chip.serveFront fuel ((x.1.begin (.slot i)).finishReq x.2 (.fail ((x.1.precheck x.2).getD .unknownOp)))
      else s

/-- The same for the Fleyth requests that have not been taken. -/
def Chip.serveFly : Nat → Chip → Chip
  | 0, s => s
  | fuel + 1, s =>
    match s.firstFly with
    | none => s
    | some k =>
      match s.flyReq ⟨k % 8, Nat.mod_lt _ (by decide)⟩ with
      | none => s
      | some r =>
        if s.takeable r.src && (cmdRow r.opcode).isNone then
          Chip.serveFly fuel ((s.begin r.src).finishReq r (.fail .unknownOp))
        else s

/-- The requests at the front that the holder completes by itself. Log 108 (DEDUCED). -/
def Chip.serve (s : Chip) : Chip := Chip.serveFly 8 (Chip.serveFront 16 s)

/-- The holder takes the command `op` from `src`: the request once it has passed steps 1 to 5 of R306. Where the command is
not the one to be taken nothing happens; where it must wait its slot becomes WAITING. -/
def Chip.accept (s : Chip) (src : CmdSrc) (op : Nat) : Chip × Option Req :=
  if !(s.takeable src) then (s, none)
  else
    match s.reqOf src with
    | (_, none) => (s, none)
    | (s1, some r) =>
      if r.opcode ≠ op then (s, none)
      else if r.hdrOk && s.mustWait r then
        (match src with | .slot i => s1.setSlot i.1 .waiting | .fleyth k => s1.holdFly k.1, none)
      else
        match s1.precheck r with
        | some st => (((s1.begin src).finishReq r (.fail st)).serve, none)
        | none => (s1.begin src, some r)

/-- A taken command completes, or goes on with what it waits for. -/
def Chip.conclude (s : Chip) (r : Req) (v : Verdict) : Chip :=
  match v with
  | .done y => (s.finishReq r y).serve
  | .runs w => ({ s with mbx := { s.mbx with exec := s.mbx.exec ++ [(⟨r.src, r.opcode, r.tag, r.flySrc, w⟩ : ExecCmd)] } }).serve

/-- A Krelin command: taken, checked, carried out by `f`, and completed or left executing. Log 107 (DEDUCED). -/
def Chip.krelin (s : Chip) (src : CmdSrc) (op : Nat) (f : Chip → Req → Chip × Verdict) : Chip :=
  match s.accept src op with
  | (s1, none) => s1
  | (s1, some r) => let x := f s1 r; x.1.conclude r x.2

/-- The first executing command whose wait passes `p`. -/
def Chip.running (s : Chip) (p : Wait → Bool) : Option ExecCmd := s.mbx.exec.find? (fun e => p e.wait)

/-- The executing command `e` completes. -/
def Chip.endCmd (s : Chip) (e : ExecCmd) (y : Reply) : Chip :=
  (Chip.finish { s with mbx := { s.mbx with exec := s.mbx.exec.erase e } } e.src e.opcode e.tag e.flySrc y).serve

/-- The first executing command whose wait passes `p`, if there is one, completes with `y`. -/
def Chip.endWait (s : Chip) (p : Wait → Bool) (y : Reply) : Chip :=
  match s.running p with
  | none => s
  | some e => s.endCmd e y

/-- A 32-bit field of a payload. -/
def arg32 (l : List Byte) (i : Nat) : Nat := leAt l i 4

/-- A 16-bit field of a payload. -/
def arg16 (l : List Byte) (i : Nat) : Nat := leAt l i 2

/-- Does a capture-memory region of R310 start at a multiple of 8 and lie in the 2 MiB window? -/
def capOk (a n : Nat) : Bool := a % 8 == 0 && decide (a + n ≤ 0x200000)

end Sys2Proof.Machine
end

