-- ==== Sys2Proof/Machine/MbxPort.lean ====
section
/-! DEFINITION. The commands at the mailbox registers and the change of its holder: doorbells, slots, the ring,
moderation, takeover, opening and probation (spec/11 R286 to R301). -/

namespace Sys2Proof.Machine

/-- A master's write to a register of the part with a command of its own: the checks of R19, then the effect. -/
def Chip.rowWrite (s : Chip) (m : Master) (a : Nat) (f : Chip → Chip) : Chip :=
  if s.cutOff m then s else
  match s.checkAccess (s.masterLevel m) a 32 true with
  | none => s.answer m true 0
  | some _ => f (s.answer m false 0)

/-! ### Doorbells and slots -/

/-- A doorbell for slot `i`, R294: a FREE slot is posted at the host session's level; any other is counted.
Log 107 (DEDUCED). -/
def Chip.doorbell (s : Chip) (i : Fin 16) : Chip :=
  if s.slot i.1 = .free then
    let s := s.setSlot i.1 .posted
    Chip.serve { s with mbx := { s.mbx with
      priv := s.mbx.priv.set i.1 s.sessionLevel i.2
      queue := s.mbx.queue ++ [.slot i] } }
  else (s.satInc MBX_ERR.DB_BUSY 1).raise 0x1B9 0

/-- DOORBELL (R294): a write to `MBX_DOORBELL`. -/
def execDoorbell (m : Master) (v : Word) (s : State) : Host.Outcome State Fault Refusal :=
  chipNext s (fun c => c.rowWrite m MBX_DOORBELL.addr
    (fun c => c.doorbell ⟨getBits v 0 4, Nat.mod_lt _ (by decide)⟩))

/-- A write to a word of a slot's RAM: the holder's takes effect in every state (R303), any other only in FREE (R293). The second
part is false where it ends in a bus error (R378). Log 33 (DEDUCED). -/
def Chip.slotStore (s : Chip) (m : Master) (holder i off : Nat) (v : Word) : Chip × Bool :=
  if s.slot i = .free ∨ (holder ≠ 0 ∧ masterSpindle m = holder) then s.writeMem32 .mailbox (0x100 * i + off) v
  else (s.satInc MBX_ERR.SLOT_WRITE 1, true)

/-- The same, with the answer of the fabric to the bus error. -/
def Chip.slotWrite (s : Chip) (m : Master) (holder i off : Nat) (v : Word) : Chip :=
  let r := s.slotStore m holder i off v
  if r.2 then r.1 else r.1.answer m true 0

/-- SLOT_WRITE (R293): a write to word `w` of slot `i`. -/
def execSlotWrite (m : Master) (i : Fin 16) (w : Fin 64) (v : Word) (s : State) : Host.Outcome State Fault Refusal :=
  chipNext s (fun c => c.rowWrite m (MemId.mailbox.base + 0x100 * i.1 + 4 * w.1)
    (fun c => c.slotWrite m s.dist.holder i.1 (4 * w.1) v))

/-- A free bit for slot `i`, R296. -/
def Chip.freeSlot (s : Chip) (i : Nat) : Chip :=
  if s.slot i = .done then s.setSlot i .free else s.satInc MBX_ERR.FREE_ERR 1

/-- SLOT_FREE (R296): a write to `MBX_SLOT_FREE`. -/
def execSlotFree (m : Master) (v : Word) (s : State) : Host.Outcome State Fault Refusal :=
  chipNext s (fun c => c.rowWrite m MBX_SLOT_FREE.addr (fun c => c.forAll (bitsSet 16 v.toNat) Chip.freeSlot))

/-! ### The ring and moderation -/

/-- MODERATION_TIMEOUT (R298): TIME has passed since the oldest pending completion was posted. -/
def execModerationTimeout (s : State) : Host.Outcome State Fault Refusal :=
  chipNext s (fun c => if (c.mbx.pend.head?).elim false (fun p => p.timed) then c.signalCpl else c)

/-- A write to `MBX_HOST_SLEEP`, R299: 1 signals every pending completion. -/
def Chip.sleepWrite (s : Chip) (v : Word) : Chip :=
  let c := s.setFld MBX_HOST_SLEEP.SLEEP (getBits v 0 1)
  if getBits v 0 1 = 1 then c.signalCpl else c

/-- HOST_SLEEP (R299): a write to `MBX_HOST_SLEEP`. -/
def execHostSleep (m : Master) (v : Word) (s : State) : Host.Outcome State Fault Refusal :=
  chipNext s (fun c => c.rowWrite m MBX_HOST_SLEEP.addr (fun c => c.sleepWrite v))

/-! ### A new holder -/

/-- The completion of an EXECUTING slot that a new holder abandons, R286. Log 106 (DEDUCED). -/
def abandonedCpl (op tag i : Nat) : Completion := ⟨op, tag, Status.timeout.no, i, false, true, 0, []⟩

/-- The takeover of R286: results held for want of room are dropped, every EXECUTING slot but those of the commands `mine`
completes with TIMEOUT and ABANDONED, and no other executing command goes on. Log 106 (DEDUCED). -/
def Chip.takeOver (s : Chip) (mine : List ExecCmd) : Chip :=
  let s := { s with
    mbx := { s.mbx with held := [], exec := mine }
    spn := { s.spn with takeover := false } }
  let lost := fun (i : Fin 16) => decide (s.slot i.1 = .executing) && !(mine.any (fun e => decide (e.src = .slot i)))
  s.forAll ((List.finRange 16).filter lost) (fun s i =>
    let l := s.bytesAt (MemId.mailbox.base + 0x100 * i.1) 4
    s.complete (abandonedCpl (leAt l 0 2) (leAt l 2 2) i.1))

/-- TAKEOVER (R286): a new holder that did not gain by handover takes the mailbox as it stands. -/
def execTakeover (s : State) : Host.Outcome State Fault Refusal :=
  chipNext s (fun c => if c.spn.takeover && s.dist.holder != 0 then c.takeOver [] else c)

/-- `GRD_SPN_STATUS` with the roles of R277. -/
def spnStatus (d : Distaff) (s : Chip) : Word :=
  setBits (setBits (s.reg GRD_SPN_STATUS.addr) 26 3 (roleCode d s 0)) 29 3 (roleCode d s 1)

/-- The new holder's part of step 7 of a hitless update: FW_ACTIVATE completes with OK and probation starts (R289). -/
def Chip.openUpdate (s : Chip) (d : Distaff) : Chip :=
  match s.spn.update with
  | none => s
  | some u =>
    if u.phase = .quiesced ∧ d.holder ≠ u.old then
      let s := { s with spn := { s.spn with update := some { u with phase := .probation } } }
      s.endWait (fun w => match w with | .fwActivate _ => true | _ => false) (.okR (leBytes 4 (spnStatus d s).toNat))
    else s

/-- MBX_OPEN (R287): a holder that has taken over opens the mailbox; held Fleyth requests and doorbells are then served. -/
def execMbxOpen (s : State) : Host.Outcome State Fault Refusal :=
  chipNext s (fun c =>
    if s.dist.holder = 0 ∨ c.spn.takeover = true ∨ c.flag MBX_STATUS.OPEN = true then c
    else
      let c := (c.setFlag MBX_STATUS.OPEN true).setFlag MBX_STATUS.QUIESCED false
      (c.openUpdate s.dist).serve)

/-- PROBATION_END (R291): the second of probation has passed, and the new holder restarts the old spindle into the new
image (step 8). -/
def execProbationEnd (s : State) : Host.Outcome State Fault Refusal :=
  .next (match s.chip.spn.update with
    | none => s
    | some u =>
      if u.phase = .probation ∧ s.dist.holder ≠ u.old ∧ s.dist.holder ≠ 0 then
        State.restart (s.onChip (fun c => { c with spn := { c.spn with update := some { u with phase := .finishing } } }))
          (u.old - 1) u.newSlot
      else s)

end Sys2Proof.Machine
end

