-- ==== Sys2Proof/Machine/Events.lean ====
section
/-! DEFINITION. The event block's own commands and its registers (spec/13 R330 to R349). -/

namespace Sys2Proof.Machine

/-! ### Messages of a cycle (R330, R338) -/

/-- The payloads that source `src` brings in a cycle, in order of arrival. Log 32 (DEDUCED). -/
def payloadsOf (ms : List (Fin 512 × BitVec 48)) (src : Nat) : List Nat :=
  (ms.filter (fun m => m.1.1 == src)).map (fun m => m.2.toNat)

/-- The messages of a cycle so far, with what one more source brings: a level that asserts sends its message to the consumers
that are armed (R332), and every message of a pulse source joins those of its source (R338). Log 30 (DESIGN CHOICE). -/
def gather (ms : List (Fin 512 × BitVec 48)) (r : EvtBlk × List Msg) (src : Nat) : EvtBlk × List Msg :=
  let l := payloadsOf ms src
  match l.getLast?, srcKind src with
  | some pay, .level => let x := assertLevel r.1 src pay; (x.1, r.2 ++ x.2)
  | some _, .pulse => (r.1, r.2 ++ l.map (pulseMsg src))
  | _, _ => r

/-- EVENT_MESSAGE (R330, R332, R333, R338): the messages that arrive in one CLK_PER cycle reach EVT together, in ascending source
order; what they bring about is written after them. Log 32 (DEDUCED). -/
def execEventMessage (ms : List (Fin 512 × BitVec 48)) (s : State) : Host.Outcome State Fault Refusal :=
  chipNext s (fun c =>
    let r := (List.range 512).foldl (gather ms) (c.evt, [])
    Chip.emit { c with evt := r.1 } r.2)

/-- The writer's number in the payload of a doorbell, R331. -/
def writerNo (m : Master) : Nat := (masterIdx m).1

/-- A message of source `n` sent by software, whatever its kind; a reserved source sends none. Log 44 (DEDUCED). -/
def Chip.softMessage (s : Chip) (n pay : Nat) : Chip :=
  if srcKind n = .reserved then s
  else s.emit [⟨n, pay, false, allConsumers, b2n (decide (srcKind n = .pulse))⟩]

/-- A write to `EVT_DOORBELL` by master `m` at level `lv`, R331. -/
def Chip.evtDoorbell (s : Chip) (m : Master) (lv : Nat) (v : Word) : Chip :=
  let n := getBits v 0 9
  let pay := getBits v 16 16 + 2 ^ 16 * writerNo m
  if 0x1E0 ≤ n then s.softMessage n pay
  else if lv = 3 then s.softMessage n pay
  else
    let e := satAdd 0xFF s.evt.dbErr 1
    Chip.raise { s with evt := { s.evt with dbErr := e } } 0x1BE (2 ^ 16 * writerNo m)

/-- EVT_DOORBELL (R331). -/
def execEvtDoorbell (m : Master) (v : Word) (s : State) : Host.Outcome State Fault Refusal :=
  chipNext s (fun c => c.rowWrite m 0x020000 (fun c => c.evtDoorbell m (c.masterLevel m) v))

/-! ### Consumers -/

/-- The address of consumer `c`'s registers. -/
def consBase (c : Nat) : Nat := 0x021000 + 0x1000 * c

/-- The consumer that a master owns, R348. Log 34 (DEDUCED). -/
def ownConsumer : Master → Option Nat
  | .host => some 0 | .spindleA => some 1 | .spindleB => some 2 | .dma => none

/-- Does a write to consumer `c`'s register at address `a`, by master `m` at level `lv`, take effect, R348?
Log 34 (DEDUCED). -/
def Chip.consWrites (s : Chip) (m : Master) (lv c a : Nat) : Bool :=
  c == 0 || masterSpindle m == c || (masterSpindle m == 0 && s.debugWrite a lv)

/-- A consumer changed by `f`. -/
def EvtBlk.mod (e : EvtBlk) (c : Fin 3) (f : Consumer → Consumer) : EvtBlk :=
  { e with cons := e.cons.set c.1 (f e.cons[c.1]) c.2 }

/-- The part with the event block that a change answers, and the messages that the change raises. -/
def Chip.evtThen (s : Chip) (r : EvtBlk × List Msg) : Chip := Chip.emit { s with evt := r.1 } r.2

/-- A master's write to a register of consumer `c` at an offset, with its checks. Log 34 (DEDUCED). -/
def Chip.consWrite (s : Chip) (m : Master) (c : Fin 3) (off : Nat) (f : Chip → Chip) : Chip :=
  s.rowWrite m (consBase c.1 + off) (fun s => if s.consWrites m (s.masterLevel m) c.1 (consBase c.1 + off) then f s else s)

/-- A claim read by master `m` at consumer `c`, R341, R464: only its own master claims, and only with a write grant. -/
def Chip.evtClaim (s : Chip) (m : Master) (c : Fin 3) : Chip :=
  let a := consBase c.1
  let l := s.masterLevel m
  if s.cutOff m then s else
  match s.checkAccess l a 32 false with
  | none => s.answer m true 0
  | some b =>
    if ownConsumer m = some c.1 ∧ s.granted b a l true = true then
      let r := claim s.evt c
      Chip.answer { s with evt := r.1 } m false r.2
    else s.answer m false 0

/-- EVT_CLAIM (R341). -/
def execEvtClaim (m : Master) (c : Fin 3) (s : State) : Host.Outcome State Fault Refusal :=
  chipNext s (fun x => x.evtClaim m c)

/-- EVT_EOI (R342, R343). -/
def execEvtEoi (m : Master) (c : Fin 3) (v : Word) (s : State) : Host.Outcome State Fault Refusal :=
  chipNext s (fun x => x.consWrite m c 0x004 (fun x => x.evtThen (endOfInterrupt x.evt c (getBits v 0 4))))

/-- Mask bits of word `w` cleared: pending sources among them are written (R333). -/
def Chip.maskClr (s : Chip) (c : Fin 3) (w : Nat) (v : Word) : Chip :=
  let e := s.evt.mod c (fun co => { co with mask := co.mask &&& ~~~ (word512 w v) })
  s.evtThen (flushList c e.time (wordSources w v) e)

/-- EVT_MASK_CLR (R333). -/
def execEvtMaskClr (m : Master) (c : Fin 3) (w : Fin 16) (v : Word) (s : State) : Host.Outcome State Fault Refusal :=
  chipNext s (fun x => x.consWrite m c (0x180 + 4 * w.1) (fun x => x.maskClr c w.1 v))

/-- Pending bits of word `w` set: unmasked sources among them are written (R333). -/
def Chip.pendSet (s : Chip) (c : Fin 3) (w : Nat) (v : Word) : Chip :=
  let e := s.evt.mod c (fun co => { co with pend := co.pend ||| word512 w v })
  s.evtThen (flushList c e.time (wordSources w v) e)

/-- EVT_PEND_SET (R333). -/
def execEvtPendSet (m : Master) (c : Fin 3) (w : Fin 16) (v : Word) (s : State) : Host.Outcome State Fault Refusal :=
  chipNext s (fun x => x.consWrite m c (0x240 + 4 * w.1) (fun x => x.pendSet c w.1 v))

/-- One source is armed at consumer `c`: while its level stands, one message follows to that consumer with the payload of
its assertion, and the bit clears again (R332). -/
def armOne (c : Fin 3) (e : EvtBlk) (src : Nat) : EvtBlk × List Msg :=
  if srcKind src = .level then
    if bit512 e.live src then
      (e.mod c (fun co => { co with arm := put512 co.arm src false }),
       [⟨src, tabGet (fun _ => 0) e.levelPay src, false, [c], 0⟩])
    else (e.mod c (fun co => { co with arm := put512 co.arm src true }), [])
  else (e, [])

/-- `armOne` over a list of sources. -/
def armList (c : Fin 3) : List Nat → EvtBlk → EvtBlk × List Msg
  | [], e => (e, [])
  | src :: t, e =>
    let (e1, ms) := armOne c e src
    let (e2, ms') := armList c t e1
    (e2, ms ++ ms')

/-- EVT_ARM_SET (R332): writes for pulse and reserved sources are ignored (R349). -/
def execEvtArmSet (m : Master) (c : Fin 3) (w : Fin 16) (v : Word) (s : State) : Host.Outcome State Fault Refusal :=
  chipNext s (fun x => x.consWrite m c (0x340 + 4 * w.1) (fun x => x.evtThen (armList c (wordSources w.1 v) x.evt)))

/-- EVT_TIME_LO (R336): a read returns the low 32 bits of the timestamp and latches the upper 16. -/
def execEvtTimeLo (m : Master) (s : State) : Host.Outcome State Fault Refusal :=
  chipNext s (fun c =>
    if c.cutOff m then c else
    match c.checkAccess (c.masterLevel m) 0x020008 32 false with
    | none => c.answer m true 0
    | some _ =>
      Chip.answer { c with evt := { c.evt with timeHi := bitsOf c.evt.time 32 16 } } m false
        (BitVec.ofNat 32 c.evt.time))

/-! ### The other registers of EVT -/

/-- Sources of word `w` that are level sources, as a 512-bit mask of the bits of `v`. -/
def levelMask (w : Nat) (v : Word) : BitVec 512 :=
  BitVec.ofNat 512 (((wordSources w v).filter isLevelSrc).foldl (fun acc n => acc + 2 ^ n) 0)

/-- A write to consumer `c`'s register at offset `off` that has no command of its own. -/
def Chip.consReg (s : Chip) (c : Fin 3) (off : Nat) (v : Word) : Chip :=
  let w := (off % 0x40) / 4
  let put := fun (f : Consumer → Consumer) => ({ s with evt := s.evt.mod c f } : Chip)
  if off = 0x010 then put (fun co => { co with en := getBits v 0 1 == 1 })
  else if 0x140 ≤ off ∧ off < 0x180 then put (fun co => { co with mask := co.mask ||| word512 w v })
  else if 0x280 ≤ off ∧ off < 0x2C0 then put (fun co => { co with pend := co.pend &&& ~~~ (word512 w v) })
  else if 0x380 ≤ off ∧ off < 0x3C0 then put (fun co => { co with arm := co.arm &&& ~~~ (levelMask w v) })
  else if 0x400 ≤ off ∧ off < 0x440 ∧ getBits v 31 1 = 1 then
    put (fun co => { co with skeins := vmod co.skeins ⟨w, by omega⟩ (fun k => { k with ovf := false }) })
  else s

/-- A write to a register of EVT by master `m`, for master `who` (R392) at level `lv`. A master changes the priority field of its own
consumer; the host changes the others by debug write (R7, R349). -/
def Chip.evtWrite (s : Chip) (m who : Master) (lv a : Nat) (v : Word) : Chip :=
  let off := a - 0x020000
  if 0x1000 ≤ off ∧ off < 0x4000 then
    let c : Fin 3 := ⟨(off / 0x1000 - 1) % 3, Nat.mod_lt _ (by decide)⟩
    if s.consWrites who lv c.1 a then
      let o := off % 0x1000
      if o = 0x004 then s.evtThen (endOfInterrupt s.evt c (getBits v 0 4))
      else if 0x180 ≤ o ∧ o < 0x1C0 then s.maskClr c ((o % 0x40) / 4) v
      else if 0x240 ≤ o ∧ o < 0x280 then s.pendSet c ((o % 0x40) / 4) v
      else if 0x340 ≤ o ∧ o < 0x380 then s.evtThen (armList c (wordSources ((o % 0x40) / 4) v) s.evt)
      else s.consReg c o v
    else s
  else if 0x4000 ≤ off ∧ off < 0x4800 then
    let src := (off - 0x4000) / 4
    let k := masterSpindle who
    let old := tabGet (fun _ => 0) s.evt.prio src
    let keep := fun (i : Nat) => if i = k ∨ (k = 0 ∧ s.debugWrite a lv = true) then bitsOf v.toNat (4 * i) 4 else bitsOf old (4 * i) 4
    { s with evt := { s.evt with prio := tabSet (fun _ => 0) s.evt.prio src (keep 0 + 16 * keep 1 + 256 * keep 2) } }
  else if off = 0 then s.evtDoorbell m lv v
  else s

/-- `EVT_SKEIN`, R349. -/
def skeinWord (k : Skein) : Word :=
  BitVec.ofNat 32 (k.head + 2 ^ 13 * b2n k.held.isSome + 2 ^ 16 * k.waiting + 2 ^ 31 * b2n k.ovf)

/-- A register of consumer `co` at an offset, without `EVT_CLAIM`. -/
def Consumer.word (co : Consumer) (off : Nat) : Word :=
  let w := (off % 0x40) / 4
  if off = 0x008 then BitVec.ofNat 32 (co.inService + 2 ^ 16 * (co.current.getD 0))
  else if off = 0x00C then BitVec.ofNat 32 co.nonEmpty
  else if off = 0x010 then BitVec.ofNat 32 (b2n co.en)
  else if 0x100 ≤ off ∧ off < 0x140 then getWord512 co.mask w
  else if 0x200 ≤ off ∧ off < 0x240 then getWord512 co.pend w
  else if 0x300 ≤ off ∧ off < 0x340 then getWord512 co.arm w
  else if 0x400 ≤ off ∧ off < 0x440 then (co.skeins.toList[w]?).elim 0 skeinWord
  else 0

/-- The word of an EVT register, without the effects of reading `EVT_CLAIM`, `EVT_TIME_LO` and `EVT_ERR`. -/
def EvtBlk.word (e : EvtBlk) (off : Nat) : Word :=
  if off = 0x0004 then BitVec.ofNat 32 e.dbErr
  else if off = 0x0008 then BitVec.ofNat 32 e.time
  else if off = 0x000C then BitVec.ofNat 32 e.timeHi
  else if 0x0100 ≤ off ∧ off < 0x0140 then getWord512 e.live ((off - 0x100) / 4)
  else if 0x4000 ≤ off ∧ off < 0x4800 then
    let n := (off - 0x4000) / 4
    BitVec.ofNat 32 (tabGet (fun _ => 0) e.prio n + 2 ^ 16 * b2n (isLevelSrc n) + 2 ^ 17 * b2n (decide (0x1E0 ≤ n)))
  else if 0x1000 ≤ off ∧ off < 0x4000 then
    if off % 0x1000 = 0 then 0 else (e.cons.toList[off / 0x1000 - 1]?).elim 0 (fun co => co.word (off % 0x1000))
  else 0

end Sys2Proof.Machine
end

