-- ==== Sys2Proof/Machine/Dma.lean ====
section
/-! DEFINITION. The DMA channels: states, requests, the checks of a set, the transforms and the hand-over (spec/16 R386 to
R403). The beat itself, which goes through the fabric, is in Machine/Bus.lean. -/

namespace Sys2Proof.Machine

/-- The codes of `DMA_STATUS.STATE`, R402. -/
def dmaIdle : Nat := 0
def dmaWait : Nat := 1
def dmaBusy : Nat := 2
def dmaDone : Nat := 3
def dmaError : Nat := 4

/-- The codes of `DMA_STATUS.ERR`, R393. -/
inductive DmaErr where
  | busRead | busWrite | overlap | align | badCfg | aborted
  deriving DecidableEq, Repr

/-- The code of an error. -/
def DmaErr.no : DmaErr → Nat
  | .busRead => 1 | .busWrite => 2 | .overlap => 3 | .align => 4 | .badCfg => 5 | .aborted => 6

/-- The hidden state of channel `n`. -/
def Chip.dmaCh (s : Chip) (n : Nat) : DmaCh := (s.dma.ch.toList[n]?).getD {}

/-- The hidden state of channel `n` changed. -/
def Chip.dmaMod (s : Chip) (n : Nat) (f : DmaCh → DmaCh) : Chip :=
  if h : n < 16 then { s with dma := { s.dma with ch := vmod s.dma.ch ⟨n, h⟩ f } } else s

/-- Does channel `n` run: WAIT_REQ or BUSY? -/
def Chip.dmaRuns (s : Chip) (n : Nat) : Bool :=
  s.fld (DMA_STATUS.STATE n) == dmaWait || s.fld (DMA_STATUS.STATE n) == dmaBusy

/-- The channels that run, `DMA_GLB_STATUS.BUSY`. -/
def Chip.dmaBusyMask (s : Chip) : Nat := maskOf 16 s.dmaRuns

/-- The block of a transform in granules, R396; none for a reserved XFORM. -/
def xformBlock (x : Nat) : Option Nat :=
  match x with
  | 0 => some 1 | 1 => some 32 | 2 => some 40 | 3 => some 1 | 4 => some 1 | _ => none

/-- Do [a, a + n) and [b, b + m) overlap? -/
def overlaps (a n b m : Nat) : Bool := decide (a < b + m) && decide (b < a + n)

/-- The byte ranges of the active set of channel `n`, R399. -/
def Chip.dmaRanges (s : Chip) (n : Nat) : (Nat × Nat) × (Nat × Nat) :=
  let c := s.fld (DMA_CNT.CNT n)
  ((s.fld (DMA_SRC.ADDR n), if s.flag (DMA_CFG.SRC_FIX n) then 8 else 8 * c),
   (s.fld (DMA_DST.ADDR n), if s.flag (DMA_CFG.DST_FIX n) then 8 else 8 * c))

/-- The check of the active set, R393, R396, R399. -/
def Chip.dmaCheck (s : Chip) (n : Nat) : Option DmaErr :=
  let r := s.dmaRanges n
  let c := s.fld (DMA_CNT.CNT n)
  let q := s.fld (DMA_CFG.REQ n)
  if r.1.1 % 8 ≠ 0 ∨ r.2.1 % 8 ≠ 0 then some .align
  else match xformBlock (s.fld (DMA_CFG.XFORM n)) with
    | none => some .badCfg
    | some b =>
      if c = 0 ∨ (48 ≤ q ∧ q ≤ 62) ∨ c % b ≠ 0 then some .badCfg
      else if s.fld (DMA_CFG.XFORM n) ≠ 0 ∧ overlaps r.1.1 r.1.2 r.2.1 r.2.2 = true then some .overlap
      else none

/-- Channel `n` enters ERROR, R393, R403; the data staged is discarded. -/
def Chip.dmaFail (s : Chip) (n : Nat) (e : DmaErr) : Chip :=
  (((s.setFld (DMA_STATUS.STATE n) dmaError).setFld (DMA_STATUS.ERR n) e.no).dmaMod n
    (fun c => { c with staged := [], held := false, burst := 0 })).raise 0x059 (n + 16 * e.no)

/-- The granules of a full burst of channel `n`, R402. -/
def Chip.dmaBurst (s : Chip) (n : Nat) : Nat :=
  let b := s.fld (DMA_CFG.BURST n)
  if b = 0 then 64 else b

/-- The active set of channel `n`, checked, begins to run, R388, R399, R400. -/
def Chip.dmaBegin (s : Chip) (n : Nat) : Chip :=
  let s := s.setFld (DMA_STATUS.REMAIN n) (s.fld (DMA_CNT.CNT n))
  match s.dmaCheck n with
  | some e => s.dmaFail n e
  | none =>
    let r := s.dmaRanges n
    let down := overlaps r.1.1 r.1.2 r.2.1 r.2.2 && decide (r.1.1 < r.2.1)
    let s := s.setFld (DMA_STATUS.ERR n) 0
    let s := s.setFld (DMA_STATUS.STATE n) (if s.fld (DMA_CFG.REQ n) = 63 then dmaBusy else dmaWait)
    s.dmaMod n (fun c => { c with burst := 0, rd := 0, wr := 0, staged := [], down := down, held := false })

/-- A write of START to channel `n` by master `m`, R388, R392. -/
def Chip.dmaStart (s : Chip) (n : Nat) (m : Master) (level : Nat) : Chip :=
  if s.dmaRuns n then s else (s.dmaMod n (fun c => { c with master := m, level := level })).dmaBegin n

/-- A write of ABORT to channel `n`, R394; a channel that does not run is left as it is. -/
def Chip.dmaAbort (s : Chip) (n : Nat) : Chip := if s.dmaRuns n then s.dmaFail n .aborted else s

/-- A write to `DMA_CTRL` of channel `n`: COMMIT where its bit is 1; ABORT acts on a channel that runs and START on one that does not
(R388, R394), as the write finds it. Log 42 (DEDUCED). -/
def Chip.dmaCtrl (s : Chip) (n : Nat) (m : Master) (level : Nat) (v : Word) : Chip :=
  let s := if getBits v 2 1 = 1 then s.setFlag (DMA_CTRL.COMMIT n) true else s
  if s.dmaRuns n then s.when (getBits v 1 1 == 1) (fun s => s.dmaAbort n)
  else s.when (getBits v 0 1 == 1) (fun s => s.dmaStart n m level)

/-- START (R388, R392, R396, R399): a write to `DMA_CTRL` of channel `n`. -/
def execStart (m : Master) (n : Fin 16) (v : Word) (s : State) : Host.Outcome State Fault Refusal :=
  chipNext s (fun c => c.rowWrite m (DMA_CTRL.addr n.1) (fun c => c.dmaCtrl n.1 m (c.masterLevel m) v))

/-- ABORT (R394): a write to `DMA_CTRL` of channel `n`. -/
def execAbort (m : Master) (n : Fin 16) (v : Word) (s : State) : Host.Outcome State Fault Refusal :=
  chipNext s (fun c => c.rowWrite m (DMA_CTRL.addr n.1) (fun c => c.dmaCtrl n.1 m (c.masterLevel m) v))

/-! ### Requests (R389, R390) -/

/-- A request on line `line` reaches channel `n`: a waiting channel begins a burst, a busy one holds the request, and one
that holds a request already merges it. Log 42 (DEDUCED). -/
def Chip.dmaReqCh (s : Chip) (line n : Nat) : Chip :=
  if s.fld (DMA_CFG.REQ n) ≠ line ∨ s.dmaRuns n = false then s
  else if s.fld (DMA_STATUS.STATE n) = dmaWait then
    (s.setFld (DMA_STATUS.STATE n) dmaBusy).dmaMod n (fun c => { c with burst := s.dmaBurst n })
  else if (s.dmaCh n).held then
    (s.setFlag (DMA_STATUS.REQ_OVR n) true).raise 0x05B (n + 2 ^ 8 * line)
  else s.dmaMod n (fun c => { c with held := true })

/-- A request line asserts, R389, R390; DMA lies in `PD_CAP`. -/
def Chip.dmaLine (s : Chip) (line : Nat) : Chip :=
  if s.pdOn 19 then s.forAll (List.range 16) (fun s n => s.dmaReqCh line n) else s

/-- Lines that a rule reserves never assert: 12 to 15 (R422) and 33 to 39 (R450). -/
def dmaLineReserved (line : Nat) : Bool := (decide (33 ≤ line) && decide (line ≤ 39)) || (decide (12 ≤ line) && decide (line ≤ 15))

/-- DMA_REQUEST (R389, R390): a request line asserts. -/
def execDmaRequest (line : Fin 48) (s : State) : Host.Outcome State Fault Refusal :=
  chipNext s (fun c => if dmaLineReserved line.1 then c else c.dmaLine line.1)

/-- DMA_SWREQ (R389): a write to `DMA_SWREQ` asserts lines 40 to 47. -/
def execDmaSwreq (m : Master) (v : Word) (s : State) : Host.Outcome State Fault Refusal :=
  chipNext s (fun c => c.rowWrite m DMA_SWREQ.addr (fun c =>
    c.forAll (bitsSet 8 v.toNat) (fun c k => c.dmaLine (40 + k))))

/-! ### Transforms (R396 to R398) -/

/-- Byte `i` of a granule. -/
def granByte (g : BitVec 64) (i : Nat) : Nat := bitsOf g.toNat (8 * i) 8

/-- The granules that a list of bytes (as numbers) fills. -/
def bytesToGrans (l : List Nat) (n : Nat) : List (BitVec 64) :=
  (List.range n).map (fun k => BitVec.ofNat 64 (leNat (((l.drop (8 * k)).take 8).map (BitVec.ofNat 8))))

/-- De-interleave of a block of 32 granules, R397. -/
def deinterleave (l : List (BitVec 64)) : List (BitVec 64) :=
  let src := fun i => granByte (l.getD (i / 8) 0) (i % 8)
  bytesToGrans ((List.range 256).map (fun d => src (4 * (d % 64) + d / 64))) 32

/-- Bit-plane reshuffle of 64 native words in 40 granules, R398. -/
def reshuffle (l : List (BitVec 64)) : List (BitVec 64) :=
  let bitAt := fun p => (l.getD (p / 64) 0).getLsbD (p % 64)
  (List.range 40).map (fun b => BitVec.ofNat 64 (maskOf 64 (fun i => bitAt (40 * i + b))))

/-- The four bytes of each half reversed, R398. -/
def byteSwap (g : BitVec 64) : BitVec 64 :=
  BitVec.ofNat 64 (leNat ([3, 2, 1, 0, 7, 6, 5, 4].map (fun i => BitVec.ofNat 8 (granByte g i))))

/-- The 16-bit halves of each half exchanged, R398. -/
def halfSwap (g : BitVec 64) : BitVec 64 :=
  BitVec.ofNat 64 (leNat ([2, 3, 0, 1, 6, 7, 4, 5].map (fun i => BitVec.ofNat 8 (granByte g i))))

/-- A block transformed by XFORM `x`. -/
def xform (x : Nat) (l : List (BitVec 64)) : List (BitVec 64) :=
  match x with
  | 1 => deinterleave l
  | 2 => reshuffle l
  | 3 => l.map byteSwap
  | 4 => l.map halfSwap
  | _ => l

/-! ### The end of a set (R388, R400) -/

/-- The registers of the shadow set and their active counterparts. -/
def dmaSets (n : Nat) : List (Nat × Nat) :=
  [(DMA_SRC.addr n, DMA_SH_SRC.addr n), (DMA_DST.addr n, DMA_SH_DST.addr n), (DMA_CNT.addr n, DMA_SH_CNT.addr n),
   (DMA_CFG.addr n, DMA_SH_CFG.addr n)]

/-- The count of channel `n` has reached 0: the hand-over where COMMIT is 1, else DONE. A request still held is served
under the new set where it names the same line (R390). -/
def Chip.dmaSetEnd (s : Chip) (n : Nat) : Chip :=
  if s.flag (DMA_CTRL.COMMIT n) then
    let line := s.fld (DMA_CFG.REQ n)
    let held := (s.dmaCh n).held
    let s := s.forAll (dmaSets n) (fun s p => (s.setReg p.1 (s.reg p.2)).setReg p.2 0)
    let s := s.setFlag (DMA_CTRL.COMMIT n) false
    let s := if s.flag (DMA_CFG.IRQ_HO n) then s.raise 0x05A n else s
    let s := s.dmaBegin n
    if held then s.dmaReqCh line n else s
  else
    let s := (s.setFld (DMA_STATUS.STATE n) dmaDone).dmaMod n (fun c => { c with held := false, burst := 0 })
    if s.flag (DMA_CFG.IRQ_DONE n) then s.raise 0x058 n else s

end Sys2Proof.Machine
end

