-- ==== Sys2Proof/Machine/Housekeeping.lean ====
section
/-! DEFINITION. The housekeeping converter, the PWM outputs and the filter chain (spec/17 R404 to R425, spec/12 R329). -/

namespace Sys2Proof.Machine

/-- A quotient rounded convergently: halves go to the even neighbour (R407). -/
def roundDiv (a b : Nat) : Nat :=
  let q := a / b
  let r := a % b
  if 2 * r < b then q else if b < 2 * r then q + 1 else q + q % 2

/-! ### Filter channels (R417 to R421) -/

/-- Filter channel `f`. -/
def Chip.fltCh (s : Chip) (f : Nat) : FltCh := (s.flt.toList[f]?).getD {}

/-- Filter channel `f` replaced. -/
def Chip.setFlt (s : Chip) (f : Nat) (x : FltCh) : Chip :=
  if h : f < 31 then { s with flt := s.flt.set f x h } else s

/-- The decimation D of channel `f`: 2^DEC, with DEC held between 1 and 12. -/
def Chip.fltD (s : Chip) (f : Nat) : Nat := 2 ^ clampNat 1 12 (s.fld (FLT_CFG.DEC f))

/-- The carded output of channel `f` restarts, R421. Log 117 (DEDUCED). -/
def Chip.cardRestart (s : Chip) (f : Nat) : Chip :=
  (s.setFlt f { s.fltCh f with prevSum := 0, prevCnt := 0, curSum := 0, curCnt := 0 }).setFlag (FLT_CARDED.VALID f) false

/-- A full restart of channel `f`, R421. -/
def Chip.fltFull (s : Chip) (f : Nat) : Chip :=
  ((s.setFlt f { satSeen := (s.fltCh f).satSeen }).setFlag (FLT_CARDED.VALID f) false).setFlag (FLT_COMBED.VALID f) false

/-- An input enters the carded output, R421. -/
def Chip.cardInput (s : Chip) (f x : Nat) : Chip :=
  let thr := s.fld (FLT_CFG.STEP_THR f)
  let old := s.fld (FLT_CARDED.VALUE f)
  let step := s.flag (FLT_CARDED.VALID f) && thr != 0 && decide (thr < max x old - min x old)
  let s := if step then (s.cardRestart f).raise 0x034 f else s
  let c := s.fltCh f
  let sum := c.curSum + x
  let cnt := c.curCnt + 1
  let s := (s.setFld (FLT_CARDED.VALUE f) (roundDiv (c.prevSum + sum) (c.prevCnt + cnt))).setFlag (FLT_CARDED.VALID f) true
  if c.blk + 1 = s.fltD f then
    s.setFlt f { c with prevSum := sum, prevCnt := cnt, curSum := 0, curCnt := 0, blk := 0 }
  else s.setFlt f { c with curSum := sum, curCnt := cnt, blk := c.blk + 1 }

/-- Running sums: each element is the sum of the list's elements up to it, with `x` entering first. -/
def integrate : Int → List Int → List Int
  | _, [] => []
  | x, i :: t => (i + x) :: integrate (i + x) t

/-- Successive differences: `x` passes the delays of the list; the answer is what comes out and the new delays. -/
def combStage : Int → List Int → Int × List Int
  | x, [] => (x, [])
  | x, c :: t => let r := combStage (x - c) t; (r.1, x :: r.2)

/-- The alarm of channel `f`, R329, against a new combed output. Log 18 (DESIGN CHOICE), 116 (DEDUCED). -/
def Chip.alarm (s : Chip) (f v : Nat) : Chip :=
  if h : f < 22 then
    let a := s.alarms[f]
    let out := decide (v < a.lo) || decide (a.hi < v)
    if !a.en then s
    else if out && a.armed then
      Chip.raise { s with alarms := s.alarms.set f { a with armed := false } h } 0x1E0 (Config.hkAlarmPayload f v)
    else if !a.armed && decide (a.lo + 656 ≤ v) && decide (v + 656 ≤ a.hi) then
      { s with alarms := s.alarms.set f { a with armed := true } h }
    else s
  else s

/-- Byte `j mod 4` of `FLT_DMA_MAP` word `j div 4` names the channel of request line 16 + j, R422. -/
def Chip.fltLines (s : Chip) (f : Nat) : List Nat :=
  (List.range 16).filter (fun j =>
    s.flag (FLT_DMA_MAP.EN (j / 4) (j % 4)) && s.fld (FLT_DMA_MAP.CH (j / 4) (j % 4)) == f)

/-- A combed output of channel `f` is written, R418, R419, R422, R329. Log 17 (DESIGN CHOICE). -/
def Chip.combOutput (s : Chip) (f : Nat) (y : Int) : Chip :=
  let v := (clampInt 0 65535 y).toNat
  let s := (s.setFld (FLT_COMBED.VALUE f) v).setFlag (FLT_COMBED.NEW f) true
  let s := if y < 0 ∨ 65535 < y then
      let s := s.setFlag (FLT_COMBED.SAT f) true
      if (s.fltCh f).satSeen then s else (s.setFlt f { s.fltCh f with satSeen := true }).raise 0x035 f
    else s
  (s.forAll (s.fltLines f) (fun s j => s.dmaLine (16 + j))).alarm f v

/-- Tap `k` of the 32-tap FIR, as a multiple of 1/`firSum`, R418: symmetric for linear phase; for minimum phase with the delay of four
taps at DC that R419 gives it. The gain at DC is 1 for both. Log 17 (DESIGN CHOICE). -/
def firTap (mp : Bool) (k : Nat) : Int :=
  let unit : Int := Config.firUnit mp + 1
  let free := Config.firFree mp
  if mp then
    let total := ((List.range 30).map (fun i => free (i + 2))).foldl (· + ·) 0
    let moment := ((List.range 30).map (fun i => ((i + 2 : Nat) : Int) * free (i + 2))).foldl (· + ·) 0
    let second := 8 * unit - moment
    if k = 0 then 2 * unit - total - second else if k = 1 then second else free k
  else
    let half := min k (31 - k)
    if half = 15 then unit - ((List.range 15).map free).foldl (· + ·) 0 else free half

/-- What the 32 taps sum to. -/
def firSum (mp : Bool) : Int := 2 * (Config.firUnit mp + 1)

/-- `a / b` rounded convergently (R407), for a positive `b`. -/
def roundDivInt (a b : Int) : Int :=
  let q := a / b
  let r := 2 * (a - q * b)
  if r < b then q else if b < r then q + 1 else if q % 2 = 0 then q else q + 1

/-- The FIR output for the last 32 outputs of the CIC stage, newest first, each still times R cubed (R418).
Log 17 (DESIGN CHOICE). -/
def firOut (mp : Bool) (r : Nat) (xs : List Int) : Int :=
  roundDivInt ((xs.mapIdx (fun k x => firTap mp k * x)).foldl (· + ·) 0) (firSum mp * (r : Int) ^ 3)

/-- An input enters the CIC stage and, where it completes one, the FIR, R418 to R420. Log 17 (DESIGN CHOICE). -/
def Chip.combInput (s : Chip) (f x : Nat) : Chip :=
  let d := s.fltD f
  let r := d / 2
  let c := s.fltCh f
  let integ := integrate x (if c.integ.isEmpty then [0, 0, 0] else c.integ)
  let seen := min (35 * r - 3) (c.seen + 1)
  let settled := decide (c.seen + 1 = 35 * r - 3)
  let s :=
    if c.phase + 1 < r then s.setFlt f { c with integ := integ, phase := c.phase + 1, seen := seen }
    else
      let cs := combStage (integ.getLastD 0) (if c.comb.isEmpty then [0, 0, 0] else c.comb)
      let fir := (cs.1 :: c.fir).take 32
      let c := { c with integ := integ, phase := 0, comb := cs.2, fir := fir, seen := seen }
      if c.firPhase = 0 then s.setFlt f { c with firPhase := 1 }
      else (s.setFlt f { c with firPhase := 0 }).combOutput f (firOut (s.flag (FLT_CFG.MINPH f)) r fir)
  if settled then (s.setFlag (FLT_COMBED.VALID f) true).raise 0x036 f else s

/-- An input of channel `f`, R417 to R421: its domain is ON, the channel is enabled, and for a line lane's channel the
lane's domain is ON. -/
def Chip.fltInput (s : Chip) (f x : Nat) : Chip :=
  if s.pdOn 20 && s.flag (FLT_CFG.EN f) && (decide (f < 22) || s.pdOn (7 + (f - 22))) then (s.cardInput f x).combInput f x
  else s

/-- FILTER_INPUT (R417 to R421): a filter channel receives a 16-bit input. -/
def execFilterInput (f : Fin 31) (x : BitVec 16) (s : State) : Host.Outcome State Fault Refusal :=
  chipNext s (fun c => c.fltInput f.1 x.toNat)

/-- FLT_RESTART (R421): a write to `FLT_RESTART` restarts the carded outputs of the named channels. -/
def execFltRestart (m : Master) (v : Word) (s : State) : Host.Outcome State Fault Refusal :=
  chipNext s (fun c => c.rowWrite m FLT_RESTART.addr (fun c => c.forAll (bitsSet 31 v.toNat) Chip.cardRestart))

/-- The writable bits of a register as its table gives them: RW fields. -/
def rwMask (a : Nat) : Word :=
  match regDescOf a with
  | none => 0
  | some d => d.flds.foldl (fun m p => if p.2.2 = .rw then m ||| bitMask p.1 p.2.1 else m) 0

/-- A write to the RW fields of a register. -/
def Chip.writeRw (s : Chip) (a : Nat) (v : Word) : Chip := s.setReg a ((s.reg a &&& ~~~ (rwMask a)) ||| (v &&& rwMask a))

/-- A write to `FLT_CFG` of channel `f`: the configuration, then a full restart. -/
def Chip.fltCfg (s : Chip) (f : Nat) (v : Word) : Chip := (s.writeRw (FLT_CFG.addr f) v).fltFull f

/-- FLT_CFG_WRITE (R421). -/
def execFltCfgWrite (m : Master) (f : Fin 31) (v : Word) (s : State) : Host.Outcome State Fault Refusal :=
  chipNext s (fun c => c.rowWrite m (FLT_CFG.addr f.1) (fun c => c.fltCfg f.1 v))

/-! ### The conversion lists (R407 to R412); `u` tells the urgent list -/

/-- A list. -/
def Chip.hkList (s : Chip) (u : Bool) : HkaList := if u then s.hka.urg else s.hka.scan

/-- A list replaced, with its BUSY bit. -/
def Chip.setHkList (s : Chip) (u : Bool) (x : HkaList) : Chip :=
  let busy := x.delaying || x.waiting || x.running
  if u then Chip.setFlag { s with hka := { s.hka with urg := x } } HKA_STATUS.URG_BUSY busy
  else Chip.setFlag { s with hka := { s.hka with scan := x } } HKA_STATUS.SCAN_BUSY busy

/-- The number of conversions of an entry: 2^AVG, AVG at most 8. -/
def entryConvs (w : Word) : Nat := 2 ^ min 8 (getBits w 8 4)

/-- A run starts: the entries, the last entry and the trigger register are latched (R408). -/
def Chip.hkStart (s : Chip) (u : Bool) : Chip :=
  let x := s.hkList u
  let last := s.fld (if u then HKA_LIST_LEN.URG_LAST else HKA_LIST_LEN.SCAN_LAST)
  let ents := (List.range (last + 1)).map (fun i => s.reg (if u then HKA_URG_ENTRY.addr i else HKA_SCAN_ENTRY.addr i))
  let trig := s.reg (if u then HKA_URG_TRIG.addr else HKA_SCAN_TRIG.addr)
  s.setHkList u { x with waiting := false, running := true, ents := ents, trig := trig, last := last, idx := 0, done := 0, sum := 0 }

/-- The list takes the converter if it wants it: the second part tells whether it does. An entry with a channel above 21
stops the run before its first conversion (R408). Log 117 (DEDUCED). -/
def Chip.hkTry (s : Chip) (u : Bool) : Chip × Bool :=
  let s := if (s.hkList u).waiting then s.hkStart u else s
  let x := s.hkList u
  if !x.running then (s, false)
  else if 21 < getBits (x.ents.getD x.idx 0) 0 5 then
    (((s.setHkList u {}).setFlag HKA_STATUS.CFG_ERR true).raise 0x033 (b2n u + 2 ^ 8 * x.idx), false)
  else (s, true)

/-- The converter is free: the urgent list goes first (R410). -/
def Chip.hkGo (s : Chip) : Chip :=
  let r := s.hkTry true
  if r.2 then Chip.setFlag { r.1 with hka := { r.1.hka with convUrg := true } } HKA_STATUS.CONV true
  else
    let q := r.1.hkTry false
    if q.2 then Chip.setFlag { q.1 with hka := { q.1.hka with convUrg := false } } HKA_STATUS.CONV true
    else q.1.setFlag HKA_STATUS.CONV false

/-- A trigger of a list, R409, R411. -/
def Chip.hkTrigger (s : Chip) (u : Bool) : Chip :=
  let x := s.hkList u
  if !(s.flag HKA_CTRL.EN) then s
  else if x.delaying || x.waiting || x.running then
    (s.setFlag (if u then HKA_STATUS.URG_OVR else HKA_STATUS.SCAN_OVR) true).raise 0x032 (b2n u)
  else s.setHkList u { delaying := true }

/-- The trigger register of a list as it is in force: during a run, as the run's start found it (R408).
Log 117 (DEDUCED). -/
def Chip.hkTrig (s : Chip) (u : Bool) : Word :=
  if (s.hkList u).running then (s.hkList u).trig else s.reg (if u then HKA_URG_TRIG.addr else HKA_SCAN_TRIG.addr)

/-- Both lists whose trigger register passes `p` are triggered, the urgent one first. -/
def Chip.hkTriggerIf (s : Chip) (p : Word → Bool) : Chip :=
  let pu := p (s.hkTrig true)
  let ps := p (s.hkTrig false)
  (s.when pu (fun s => s.hkTrigger true)).when ps (fun s => s.hkTrigger false)

/-- LAG of an urgent entry as the field takes it (R410). Log 16 (DESIGN CHOICE). -/
def lagField (n : Nat) : Nat := if n < 128 then n else Config.lagBeyond n

/-- An entry's conversions are complete: its result, its filter input and its DMA request (R407, R412, R422). -/
def Chip.hkResult (s : Chip) (u : Bool) (x : HkaList) (sum : Nat) : Chip :=
  let w := x.ents.getD x.idx 0
  let v := min 0xFFFF (roundDiv sum (2 ^ min 8 (getBits w 12 4)))
  let ch := getBits w 0 5
  let s := s.setReg (if u then HKA_URG_RES.addr x.idx else HKA_SCAN_RES.addr x.idx)
    (BitVec.ofNat 32 (v + 2 ^ 16 * ch + 2 ^ 21 * (if u then lagField x.lag % 128 else 0) + 2 ^ 31))
  let s := if u then s else s.dmaLine 9
  if getBits w 16 1 = 1 then s.fltInput ch v else s

/-- A run ends, R412, R422; a continuous scan list starts its next run (R409). -/
def Chip.hkRunEnd (s : Chip) (u : Bool) : Chip :=
  let s := s.setHkList u {}
  let s := (s.raise (if u then 0x031 else 0x030) 0).dmaLine (if u then 11 else 10)
  if !u && getBits (s.hkTrig false) 0 3 == 4 then s.setHkList false { waiting := true } else s

/-- A code joins the sum of the entry in hand. -/
def Chip.hkCode (s : Chip) (u : Bool) (code : Nat) : Chip :=
  let x := s.hkList u
  let w := x.ents.getD x.idx 0
  if x.done + 1 < entryConvs w then s.setHkList u { x with done := x.done + 1, sum := x.sum + code }
  else
    let s := s.hkResult u x (x.sum + code)
    if x.idx < x.last then
      s.setHkList u { x with idx := x.idx + 1, done := 0, sum := 0, lag := x.lag + 55 * entryConvs w }
    else s.hkRunEnd u

/-- The 12-bit code of a channel for what stands at its source, R404: a voltage in µV, which a divider brings to the converter, or the
die temperature in 1/1000 °C. Log 143 (DEDUCED). -/
def hkCodeOf (ch : Nat) (x : Int) : Nat :=
  let code : Int :=
    if ch = 21 then 1500 + (2 * 8 * x + 1000) / 2000
    else
      let div : Int := if ch = 16 ∨ ch = 19 then 2 else if ch = 20 then 4 else 1
      (2 * 4096 * x + div * 1250000) / (2 * (div * 1250000))
  (clampInt 0 4095 code).toNat

/-- The channel of the entry that a list has in hand. -/
def HkaList.channel (x : HkaList) : Nat := getBits (x.ents.getD x.idx 0) 0 5

/-- CONVERSION_DONE (R404, R406, R407, R410): the running conversion completes, of what stands at its channel's source (R404). The code
of a conversion whose list was stopped is discarded (R411). Log 143 (DEDUCED). -/
def execConversionDone (x : Int) (s : State) : Host.Outcome State Fault Refusal :=
  chipNext s (fun c =>
    if c.pdOn 20 && c.flag HKA_STATUS.CONV then
      let u := c.hka.convUrg
      (if (c.hkList u).running then c.hkCode u (hkCodeOf (c.hkList u).channel x) else c).hkGo
    else c)

/-- A software trigger, R409. -/
def Chip.hkSw (s : Chip) (v : Word) : Chip :=
  (s.when (getBits v 1 1 == 1) (fun s => s.hkTrigger true)).when (getBits v 0 1 == 1) (fun s => s.hkTrigger false)

/-- HKA_SWTRIG (R409): a write to `HKA_SWTRIG`. -/
def execHkaSwtrig (m : Master) (v : Word) (s : State) : Host.Outcome State Fault Refusal :=
  chipNext s (fun c => c.rowWrite m HKA_SWTRIG.addr (fun c => c.hkSw v))

/-- LIST_TIMER (R409): the list timer expires. -/
def execListTimer (s : State) : Host.Outcome State Fault Refusal :=
  chipNext s (fun c => if c.pdOn 20 then c.hkTriggerIf (fun w => getBits w 0 3 == 1) else c)

/-- HK_TRIG_EDGE (R409): an edge on `HK_TRIG` has passed the glitch filter. -/
def execHkTrigEdge (rising : Bool) (s : State) : Host.Outcome State Fault Refusal :=
  chipNext s (fun c =>
    if c.pdOn 20 then c.hkTriggerIf (fun w => getBits w 0 3 == 3 && bit (getBits w 8 2) (if rising then 0 else 1)) else c)

/-- TRIGGER_DELAY_END (R409 to R411): the delays of the named lists end in one cycle; `left` is how many CLK_PER cycles the
conversion then running still takes. -/
def execTriggerDelayEnd (scan urg : Bool) (left : Fin 56) (s : State) : Host.Outcome State Fault Refusal :=
  chipNext s (fun c =>
    let conv := c.flag HKA_STATUS.CONV
    let go := fun (c : Chip) (u : Bool) =>
      if (c.hkList u).delaying then
        c.setHkList u { waiting := true, lag := 12 + (if conv then left.1 else 0) }
      else c
    let c := (c.when urg (fun c => go c true)).when scan (fun c => go c false)
    if conv then c else c.hkGo)

/-- A write to `HKA_CTRL`: clearing EN stops both lists and their delays (R411). -/
def Chip.hkaCtrl (s : Chip) (v : Word) : Chip :=
  let s := s.writeRw HKA_CTRL.addr v
  if getBits v 0 1 = 1 then s else (s.setHkList true {}).setHkList false {}

/-- CONVERTER_DISABLE (R411): a write to `HKA_CTRL`. -/
def execConverterDisable (m : Master) (v : Word) (s : State) : Host.Outcome State Fault Refusal :=
  chipNext s (fun c => c.rowWrite m HKA_CTRL.addr (fun c => c.hkaCtrl v))

/-! ### PWM (R413 to R416) -/

/-- Is channel `k` the second of a pair, whose own EN, PERIOD, DUTY and PAIR are ignored (R415)? Log 117 (DEDUCED). -/
def Chip.pwmSlave (s : Chip) (k : Nat) : Bool := k % 2 == 1 && s.flag (HKA_PWM_CFG.PAIR (k - 1))

/-- Does the counter of channel `k` run? -/
def Chip.pwmRuns (s : Chip) (k : Nat) : Bool := s.pdOn 20 && s.flag (HKA_PWM_CFG.EN k) && !(s.pwmSlave k)

/-- PERIOD and DUTY as written take effect on channel `k`, R414. -/
def Chip.pwmLoad (s : Chip) (k : Nat) : Chip :=
  if h : k < 4 then
    let p : Pwm := ⟨s.fld (HKA_PWM_PERIOD.PERIOD k), s.fld (HKA_PWM_DUTY.DUTY k), s.hka.pwm[k].freed⟩
    Chip.setFld { s with hka := { s.hka with pwm := s.hka.pwm.set k p h } } (HKA_PWM_CNT.CNT k) 0
  else s

/-- A PWM event triggers the lists that select it (R409). -/
def Chip.pwmTrigger (s : Chip) (k evt : Nat) : Chip :=
  s.hkTriggerIf (fun w => getBits w 0 3 == 2 && getBits w 4 2 == k && getBits w 6 1 == evt)

/-- PWM_PERIOD_START (R413, R414): the counter of channel `k` wraps to 0. Log 41 (DEDUCED). -/
def execPwmPeriodStart (k : Fin 4) (s : State) : Host.Outcome State Fault Refusal :=
  chipNext s (fun c => if c.pwmRuns k.1 then (c.pwmLoad k.1).pwmTrigger k.1 0 else c)

/-- PWM_COMPARE (R413): the counter of channel `k` reaches DUTY. Log 41 (DEDUCED). -/
def execPwmCompare (k : Fin 4) (s : State) : Host.Outcome State Fault Refusal :=
  chipNext s (fun c =>
    let p := c.hka.pwm[k.1]
    if c.pwmRuns k.1 && decide (p.duty ≤ p.period) then (c.setFld (HKA_PWM_CNT.CNT k.1) p.duty).pwmTrigger k.1 1 else c)

/-- Firmware has set EN of channel `k`: the isolation cell of its output no longer clamps it (R416). -/
def Chip.pwmFree (s : Chip) (k : Nat) : Chip :=
  if h : k < 4 then { s with hka := { s.hka with pwm := vmod s.hka.pwm ⟨k, h⟩ (fun p => { p with freed := true }) } } else s

/-- A write to `HKA_PWM_CFG` of channel `k`: EN rising starts the counter at 0 (R414) and ends the clamp (R416). -/
def Chip.pwmCfg (s : Chip) (k : Nat) (v : Word) : Chip :=
  let was := s.flag (HKA_PWM_CFG.EN k)
  let s := s.writeRw (HKA_PWM_CFG.addr k) v
  if !was && s.flag (HKA_PWM_CFG.EN k) then (s.pwmLoad k).pwmFree k else s

/-- PWM_ENABLE (R414): a write to `HKA_PWM_CFG`. -/
def execPwmEnable (m : Master) (k : Fin 4) (v : Word) (s : State) : Host.Outcome State Fault Refusal :=
  chipNext s (fun c => c.rowWrite m (HKA_PWM_CFG.addr k.1) (fun c => c.pwmCfg k.1 v))

/-- The level of output `HK_PWM`k at a counter value of its (pair's first) channel, R413, R415, R416.
Log 41 (DEDUCED), 126 (DESIGN CHOICE). -/
def Chip.pwmOut (s : Chip) (k cnt : Nat) : Bool :=
  let first := if s.pwmSlave k then k - 1 else k
  let p := (s.hka.pwm.toList[first]?).getD {}
  let pair := first % 2 == 0 && s.flag (HKA_PWM_CFG.PAIR first)
  let dead := s.fld (HKA_PWM_CFG.DEAD first)
  let high :=
    if !pair then decide (cnt < p.duty)
    else if k = first then decide (dead ≤ cnt) && decide (cnt < p.duty)
    else decide (p.duty + dead ≤ cnt)
  if !(s.pdOn 20) || !p.freed then false
  else if !(s.flag (HKA_PWM_CFG.EN first)) then s.flag (HKA_PWM_CFG.POL k)
  else high != s.flag (HKA_PWM_CFG.POL k)

/-- Is any PWM channel enabled, so that `PD_HK` votes against leaving ON (R416)? -/
def Chip.pwmAny (s : Chip) : Bool := (List.range 4).any (fun k => s.flag (HKA_PWM_CFG.EN k))

end Sys2Proof.Machine
end

