-- ==== Sys2Proof/Machine/Counters.lean ====
section
/-! DEFINITION. The general counters' registers, the bandwidth meters and the freeze (spec/19 R447 to R453, R457). -/

namespace Sys2Proof.Machine

/-! ### Which bits of the registers are counts, R451 -/

/-- The bits of the register at offset `off` of a lane window that are counts; offset 0x1018, which no register has,
keeps the live upper bits of a checker's 48-bit bit count. -/
def laneCountMask (b : Blk) (off : Nat) : Word :=
  if off = 0x100C ∨ off = 0x1010 ∨ off = 0x1018 then
    match b with
    | .hln _ | .lrx _ => BitVec.allOnes 32
    | _ => 0
  else
    match b with
    | .hln _ => if off = 0x44 then 0xFFFF0000 else 0
    | .lrx _ => if off = 0x50 then 0xFFFFFF00 else 0
    | .ltx _ => if off = 0x54 then 0xFFFF0000 else 0
    | _ => 0

/-- The bits of the register at an address that a freeze covers: meters, lane counts, the statistics of CRL (R252), and
the counts of TWF and FLY. -/
def countMask (a : Nat) : Word :=
  match blkOf a with
  | none => 0
  | some b =>
    let off := a - b.base
    match b with
    | .cnt => if 0x100 ≤ off ∧ off < 0x300 then BitVec.allOnes 32 else 0
    | .fly => if off = 0x20 ∨ off = 0x24 then BitVec.allOnes 32 else 0
    | .crl =>
      if (0x100 ≤ off ∧ off < 0x220 ∧ 0x8 ≤ off % 0x20 ∧ off % 0x20 < 0x1C) ∨ (0x400 ≤ off ∧ off < 0x900) then
        BitVec.allOnes 32
      else 0
    | .twf =>
      if (0x200 ≤ off ∧ off < 0x320 ∧ 0x10 ≤ off % 0x20 ∧ off % 0x20 < 0x1C) ∨ off = 0x414 then BitVec.allOnes 32 else 0
    | .hln _ | .lrx _ | .ltx _ => laneCountMask b off
    | _ => 0

/-- Is the freeze in force? -/
def Chip.frozen (s : Chip) : Bool := s.flag CNT_FREEZE.FROZEN

/-- What a read of the register at an address sees: the shadow of its counts while frozen (R451). -/
def Chip.seen (s : Chip) (a : Nat) : Word :=
  if s.frozen then
    let m := countMask a
    (s.reg a &&& ~~~ m) ||| (tabGet resetWord s.frz a &&& m)
  else s.reg a

/-- The shadows of the counts whose domain passes `p` take the live values; the others stay. -/
def Chip.takeShadows (s : Chip) (p : Nat → Bool) : Chip :=
  let live := s.regs.filter (fun q => countMask q.1 != 0 && (match blkOf q.1 with | some b => p b.pd | none => false))
  let old := s.frz.filter (fun q => match blkOf q.1 with | some b => !(p b.pd) | none => false)
  { s with frz := live.foldl (fun t q => tabSet resetWord t q.1 q.2) old
           cnt := if p 19 then { s.cnt with shadow := s.cnt.count } else s.cnt }

/-- A freeze, R451: every counter of a domain that is ON is latched with the timestamp. -/
def Chip.freezeAll (s : Chip) : Chip :=
  let s := s.takeShadows s.pdOn
  let s := s.setReg CNT_FREEZE_TIME_LO.addr (BitVec.ofNat 32 s.evt.time)
  let s := s.setFld CNT_FREEZE_TIME_HI.TIME_HI (bitsOf s.evt.time 32 16)
  (s.setFlag CNT_FREEZE.FROZEN true).raise 0x046 0

/-- The counts of a register cleared by a command, with their shadow (R452). -/
def Chip.clearCount (s : Chip) (a : Nat) : Chip :=
  let m := countMask a
  { s.setReg a (s.reg a &&& ~~~ m) with frz := tabSet resetWord s.frz a (tabGet resetWord s.frz a &&& ~~~ m) }

/-- A domain reaches `RDY_LOG` while FROZEN is 1: its shadows take the live values and its late bit is set (R452).
Log 44 (DEDUCED). -/
def Chip.freezeLate (s : Chip) (d : Nat) : Chip :=
  if s.frozen then (s.takeShadows (fun x => x == d)).setFldBit CNT_FREEZE_LATE.LATE d true else s

/-- A write to `CNT_FREEZE`: RELEASE first, then FREEZE (R452). -/
def Chip.cntFreeze (s : Chip) (v : Word) : Chip :=
  (s.when (getBits v 1 1 == 1) (fun s => s.setFlag CNT_FREEZE.FROZEN false)).when (getBits v 0 1 == 1) Chip.freezeAll

/-- FREEZE (R451, R452): a write to `CNT_FREEZE`. -/
def execFreeze (m : Master) (v : Word) (s : State) : Host.Outcome State Fault Refusal :=
  chipNext s (fun c => c.rowWrite m CNT_FREEZE.addr (fun c => c.cntFreeze v))

/-- FREEZE_RELEASE (R452): a write to `CNT_FREEZE`. -/
def execFreezeRelease (m : Master) (v : Word) (s : State) : Host.Outcome State Fault Refusal :=
  chipNext s (fun c => c.rowWrite m CNT_FREEZE.addr (fun c => c.cntFreeze v))

/-! ### General counters (R447, R448) -/

/-- The address of general counter `i`'s registers. -/
def cntAddr (i : Nat) : Nat := 0x071000 + 0x10 * i

/-- A read of `CNT_LO` of counter `i`: the low bits, the latch of the high bits, and with a write grant the clear, which
takes the returned value from the live count (R448, R451 to R453). The answer is the value. Log 44 (DEDUCED). -/
def CntBlk.readLo (c : CntBlk) (i : Nat) (frozen clear : Bool) : CntBlk × Word :=
  let v := tabGet (fun _ => 0) (if frozen then c.shadow else c.count) i
  let c := { c with hi := tabSet (fun _ => 0) c.hi i (bitsOf v 32 16) }
  (if clear then
      { c with
        count := tabSet (fun _ => 0) c.count i ((c.get i + 2 ^ 48 - v) % 2 ^ 48)
        shadow := if frozen then tabSet (fun _ => 0) c.shadow i 0 else c.shadow }
    else c, BitVec.ofNat 32 v)

/-- A read of `CNT_LO` of counter `i` by master `m` at level `l`, checked. -/
def Chip.cntLo (s : Chip) (m : Master) (l i : Nat) : Chip :=
  if s.cutOff m then s else
  match s.checkAccess l (cntAddr i) 32 false with
  | none => s.answer m true 0
  | some b =>
    let r := s.cnt.readLo i s.frozen (s.granted b (cntAddr i) l true)
    Chip.answer { s with cnt := r.1 } m false r.2

/-- CNT_LO (R448, R451 to R453): a read of `CNT_LO` of counter `i`. -/
def execCntLo (m : Master) (i : Fin 256) (s : State) : Host.Outcome State Fault Refusal :=
  chipNext s (fun c => c.cntLo m (c.masterLevel m) i.1)

/-- The fields of `CNT_SEL`: EN, SAT, KIND and ARG (R457). -/
def cntSelMask : Word := 0xCF0001FF

/-- A write to `CNT_SEL` of counter `i` clears its count and its shadow (R448, R452). Log 44 (DEDUCED). -/
def CntBlk.setSel (c : CntBlk) (i : Nat) (v : Word) : CntBlk :=
  { c with
    sel := tabSet (fun _ => 0) c.sel i (v &&& cntSelMask)
    count := tabSet (fun _ => 0) c.count i 0
    shadow := tabSet (fun _ => 0) c.shadow i 0 }

/-- CNT_SEL_WRITE (R448, R452): a write to `CNT_SEL` of counter `i`. -/
def execCntSelWrite (m : Master) (i : Fin 256) (v : Word) (s : State) : Host.Outcome State Fault Refusal :=
  chipNext s (fun c => c.rowWrite m (cntAddr i.1 + 8) (fun c => { c with cnt := c.cnt.setSel i.1 v }))

/-! ### Bandwidth meters (R449, R450) -/

/-- A meter at its window end: the count divided by 16, and the peak where the new value exceeds it. -/
def Chip.meter (s : Chip) (cur peak : Nat) (blocks : Nat) : Chip :=
  let v := (blocks / 16) % 2 ^ 32
  let s := s.setReg cur (BitVec.ofNat 32 v)
  if (s.reg peak).toNat < v then s.setReg peak (BitVec.ofNat 32 v) else s

/-- BW_WINDOW (R449, R450): the meter window ends; `rx` and `tx` give the 64b/66b blocks with data that each port's meters
counted in it. Log 44 (DEDUCED). -/
def execBwWindow (rx tx : List Nat) (s : State) : Host.Outcome State Fault Refusal :=
  chipNext s (fun c =>
    if c.pdOn 19 && c.flag CNT_BW_CFG.EN then
      let c := c.forAll (List.range 16) (fun c p =>
        (c.meter (CNT_BW_RX.addr p) (CNT_BW_PEAK_RX.addr p) (rx.getD p 0)).meter
          (CNT_BW_TX.addr p) (CNT_BW_PEAK_TX.addr p) (tx.getD p 0))
      let c := (c.wrapInc CNT_BW_SEQ.SEQ 1).dmaLine 32
      if c.flag CNT_BW_CFG.IRQ then c.raise 0x045 0 else c
    else c)

/-- BW_CFG_WRITE (R449): a write to `CNT_BW_CFG`; every window restarts, and the partial counts, which the state does not
hold, are discarded. -/
def execBwCfgWrite (m : Master) (v : Word) (s : State) : Host.Outcome State Fault Refusal :=
  chipNext s (fun c => c.rowWrite m CNT_BW_CFG.addr (fun c => c.writeRw CNT_BW_CFG.addr v))

/-! ### The words of CNT that have their own state -/

/-- The word of a register of CNT that the counters' own state holds; none for the other registers. -/
def CntBlk.word (c : CntBlk) (off : Nat) : Option Word :=
  if 0x10 ≤ off ∧ off < 0x30 then some (BitVec.ofNat 32 (c.ovf.toNat >>> (32 * ((off - 0x10) / 4))))
  else if 0x1000 ≤ off ∧ off < 0x2000 then
    let i := (off - 0x1000) / 16
    if off % 16 = 0 then some (BitVec.ofNat 32 (c.get i))
    else if off % 16 = 4 then some (BitVec.ofNat 32 (tabGet (fun _ => 0) c.hi i))
    else if off % 16 = 8 then some (tabGet (fun _ => 0) c.sel i)
    else some 0
  else none

/-- A write of 1 to bits of `CNT_OVF` word `w` clears them. -/
def CntBlk.clearOvf (c : CntBlk) (w : Nat) (v : Word) : CntBlk :=
  { c with ovf := c.ovf &&& ~~~ (BitVec.ofNat 256 (v.toNat <<< (32 * w))) }

end Sys2Proof.Machine
end

