-- ==== Sys2Proof/Machine/Lanes.lean ====
section
/-! DEFINITION. Lanes and ports as every block sees them: accessors of the lane state, which lane carries which port, the
state of a port (spec/03 R63, R68), the fray causes (spec/10 R271, R272) and the config shadow (spec/02 R40, R47, R66). -/

namespace Sys2Proof.Machine

/-! ### Accessors -/

/-- The receiver of line lane `n`. -/
def Chip.rxOf (s : Chip) (n : Nat) : LineRx := (s.rx.toList[n]?).getD {}

/-- The receiver of line lane `n` changed. -/
def Chip.rxMod (s : Chip) (n : Nat) (f : LineRx → LineRx) : Chip :=
  if h : n < 9 then { s with rx := vmod s.rx ⟨n, h⟩ f } else s

/-- The transmitter of line lane `n`. -/
def Chip.txOf (s : Chip) (n : Nat) : LineTx := (s.tx.toList[n]?).getD {}

/-- The transmitter of line lane `n` changed. -/
def Chip.txMod (s : Chip) (n : Nat) (f : LineTx → LineTx) : Chip :=
  if h : n < 9 then { s with tx := vmod s.tx ⟨n, h⟩ f } else s

/-- TWF's state of line lane `n`. -/
def Chip.framerOf (s : Chip) (n : Nat) : Framer := (s.framer.toList[n]?).getD {}

/-- TWF's state of line lane `n` changed. -/
def Chip.framerMod (s : Chip) (n : Nat) (f : Framer → Framer) : Chip :=
  if h : n < 9 then { s with framer := vmod s.framer ⟨n, h⟩ f } else s

/-- Host lane `h`. -/
def Chip.hostOf (s : Chip) (h : Nat) : HostLane := (s.host.toList[h]?).getD {}

/-- Host lane `h` changed. -/
def Chip.hostMod (s : Chip) (h : Nat) (f : HostLane → HostLane) : Chip :=
  if hh : h < 16 then { s with host := vmod s.host ⟨h, hh⟩ f } else s

/-- Quad `q`. -/
def Chip.quad (s : Chip) (q : Nat) : QuadSt := (s.quads.toList[q]?).getD {}

/-- Quad `q` changed. -/
def Chip.quadMod (s : Chip) (q : Nat) (f : QuadSt → QuadSt) : Chip :=
  if h : q < 4 then { s with quads := vmod s.quads ⟨q, h⟩ f } else s

/-- Port `p` changed. -/
def Chip.portMod (s : Chip) (p : Nat) (f : Port → Port) : Chip :=
  if h : p < 16 then { s with ports := vmod s.ports ⟨p, h⟩ f } else s

/-- The creel's state of lane `n`. -/
def Chip.crlOf (s : Chip) (n : Nat) : CrlLane := (s.crl.lanes.toList[n]?).getD {}

/-- The creel's state of lane `n` changed. -/
def Chip.crlMod (s : Chip) (n : Nat) (f : CrlLane → CrlLane) : Chip :=
  if h : n < 9 then { s with crl := { s.crl with lanes := vmod s.crl.lanes ⟨n, h⟩ f } } else s

/-! ### Receiver states (R121) -/

/-- The codes of `LRX_STATUS.STATE`. -/
def rxOff : Nat := 0
def rxCalibrate : Nat := 1
def rxSignalWait : Nat := 2
def rxAcquire : Nat := 3
def rxConverge : Nat := 4
def rxFrameSeek : Nat := 5
def rxLocked : Nat := 6
def rxHold : Nat := 7

/-- The state of a line receiver; a lane whose domain is not ON reads OFF (R121). -/
def Chip.rxState (s : Chip) (n : Nat) : Nat := if s.pdOn (7 + n) then s.fld (LRX_STATUS.STATE n) else rxOff

/-- A line receiver in a state; EVS_LINE_LOCK_LOSS stands while it is HOLD (R345). -/
def Chip.setRxState (s : Chip) (n st : Nat) : Chip :=
  (s.setFld (LRX_STATUS.STATE n) st).setLevel (0x070 + n) (st == rxHold) 0

/-- Is lane `n` LOCKED? -/
def Chip.locked (s : Chip) (n : Nat) : Bool := s.rxState n == rxLocked

/-- Is the input signal of line lane `n` present (R122)? It reads 0 while the lane's domain is not ON (R426). -/
def Chip.signal (s : Chip) (n : Nat) : Bool := s.pdOn (7 + n) && s.flag (LRX_STATUS.SIGNAL n)

/-! ### Ply states (R275) -/

/-- The codes of `TWF_PLY_STATUS.RX_STATE`. -/
def plyNone : Nat := 0
def plyIdle : Nat := 1
def plyMirrorWait : Nat := 2
def plyMirror : Nat := 3
def plySubstWait : Nat := 4
def plySubst : Nat := 5
def plyDown : Nat := 6

/-- The codes of `TWF_PLY_STATUS.TX_STATE`. -/
def plyTxMirror : Nat := 2
def plyTxSubst : Nat := 3

/-- The state of the Ply receiver. -/
def Chip.plyRx (s : Chip) : Nat := s.fld TWF_PLY_STATUS.RX_STATE

/-- The lane that the Ply receiver requests or carries. -/
def Chip.plyLane (s : Chip) : Nat := s.fld TWF_PLY_STATUS.RX_LANE

/-- Does L8 carry logical lane `n` (R264)? -/
def Chip.onL8 (s : Chip) (n : Nat) : Bool := s.plyRx == plySubst && s.plyLane == n

/-- The physical lane that carries logical lane `n`. -/
def Chip.carrier (s : Chip) (n : Nat) : Nat := if s.onL8 n then 8 else n

/-- The logical lane that physical lane `n` carries in its receive direction. -/
def Chip.logical (s : Chip) (n : Nat) : Option Nat :=
  if n = 8 then (if s.plyRx = plySubst then some s.plyLane else none)
  else if s.onL8 n then none else some n

/-- Is physical lane `n` marked failed (R264, R477)? -/
def Chip.laneFailed (s : Chip) (n : Nat) : Bool :=
  bit (s.fld GRD_DOFF_MARK.LINE) n || (if n = 8 then s.ply.l8Failed else bit (s.fld TWF_LANE_FAILED.FAILED) n)

/-! ### Which ports a lane carries -/

/-- The ports that use logical line lane `n`. -/
def Chip.portsOn (s : Chip) (n : Nat) : List Nat :=
  (List.range 16).filter (fun p => decide ((s.port p).st ≠ .absent) && bit (s.port p).lineMask n)

/-- The port that uses host lane `h`. -/
def Chip.portOfHost (s : Chip) (h : Nat) : Option Nat :=
  (List.range 16).find? (fun p => decide ((s.port p).st ≠ .absent) && bit (s.port p).hostMask h)

/-- Is the port's line framing Twist (R54)? -/
def Port.twist (p : Port) : Bool := (modeOf p.mode).elim false (fun m => m.twist)

/-- Is line lane `n` in use: it carries a port, or it is the populated Ply lane? -/
def Chip.laneUsed (s : Chip) (n : Nat) : Bool := if n = 8 then s.plyFitted else !((s.portsOn n).isEmpty)

/-- Does line lane `n` run Twist framing? -/
def Chip.laneTwist (s : Chip) (n : Nat) : Bool :=
  if n = 8 then s.plyFitted else (s.portsOn n).any (fun p => (s.port p).twist)

/-- Does a Twist port use logical lane `n` of L0 to L7 (R263)? -/
def Chip.twistPort (s : Chip) (n : Nat) : Bool := decide (n < 8) && s.laneTwist n

/-- The mode code of line lane `n`: of tributary 0's port where it carries two (R172). -/
def Chip.laneMode (s : Chip) (n : Nat) : Nat :=
  match (s.portsOn n).find? (fun p => (s.port p).trib == 0) with
  | some p => (s.port p).mode
  | none => ((s.portsOn n).head?).elim 0 (fun p => (s.port p).mode)

/-! ### The state of a port (R63) -/

/-- The physical lane that carries logical host lane `h` in the receive direction, and the other way round (R97).
Log 71 (DEDUCED). -/
def Chip.physHost (s : Chip) (h : Nat) : Nat := if s.flag (HLN_STATUS.ORDER_REV h) then 4 * (h / 4) + (3 - h % 4) else h

/-- Does host lane `h` deliver data: handed off or trained, its signal present and its clock locked, its data-frame lock not
lost, its quad locked and in a known order (R26, R76, R91, R99, R100)? Log 69 (DEDUCED). -/
def Chip.hostOk (s : Chip) (h : Nat) : Bool :=
  let x := s.hostOf h
  let q := s.quad (quadOf h)
  s.pdOn (3 + quadOf h) && s.flag (HLN_STATUS.TRAINED h) && s.flag (HLN_STATUS.SIGNAL h) &&
    s.flag (HLN_STATUS.CDR_LOCK h) && !x.dataLost && !q.relocking && !q.orderFault

/-- The host lanes of a port. -/
def Port.hostLanes (p : Port) : List Nat := (List.range p.hostCount).map (fun k => p.hostFirst + k)

/-- The line lanes of a port. -/
def Port.lineLanes (p : Port) : List Nat := bitsSet 8 p.lineMask

/-- Is every lane of port `p` in lock, aligned and matched (R61 to R63, R207)? -/
def Chip.portOk (s : Chip) (p : Nat) : Bool :=
  let x := s.port p
  x.lineLanes.all (fun n => s.locked (s.carrier n)) && x.hostLanes.all (fun h => s.hostOk (s.physHost h)) && !x.mismatch && !x.skew && !x.rateFault &&
    !x.realign

/-- A port between READY, UP and FAULT, as its lanes stand (R63, R314). -/
def Chip.refreshPort (s : Chip) (p : Nat) : Chip :=
  match (s.port p).st with
  | .ready | .up => if s.portOk p then s else s.portMod p (fun x => { x with st := .fault })
  | .fault => if s.portOk p then s.portMod p (fun x => { x with st := if x.wantUp then .up else .ready }) else s
  | _ => s

/-- Every port as its lanes stand. Log 99 (DEDUCED). -/
def Chip.refreshPorts (s : Chip) : Chip := s.forAll (List.range 16) Chip.refreshPort

/-- The code of a port state, R63. -/
def PortSt.no : PortSt → Nat
  | .absent => 0 | .configuring => 1 | .ready => 2 | .up => 3 | .fault => 4

/-- The fields of `TWF_PORT_MAP` that Krelin writes, R68: all but STATE and SUBST. Log 38 (DEDUCED). -/
def portMapFw : Word := 0xFF17F8FF

/-- `TWF_PORT_MAP` of port `p` as the part sets it, R68. -/
def Chip.portWord (s : Chip) (p : Nat) : Word :=
  let x := s.port p
  if x.st = .absent then 0
  else BitVec.ofNat 32 (x.lineMask + 2 ^ 11 * x.hostCount + 2 ^ 15 * x.hostFirst
    + 2 ^ 19 * b2n (x.lineLanes.any s.onL8) + 2 ^ 20 * x.trib + 2 ^ 21 * x.st.no + 2 ^ 24 * x.mode)

/-- `TWF_PORT_MAP` of port `p`, R68: what Krelin has written over it stands until the port is set up anew or removed.
Log 38 (DEDUCED). -/
def Chip.portMap (s : Chip) (p : Nat) : Word :=
  match (s.port p).shown with
  | none => s.portWord p
  | some w => (s.portWord p &&& ~~~ portMapFw) ||| (w &&& portMapFw)

/-- `TWF_LANE_FAILED`: the lanes L0 to L7 marked failed, by the Ply logic or by the doff record (R275, R477). -/
def Chip.laneFailedWord (s : Chip) : Word := BitVec.ofNat 32 (maskOf 8 s.laneFailed)

/-! ### Fray (R271, R272, R276) -/

/-- Is lane `n` eligible, R263? -/
def Chip.eligible (s : Chip) (n : Nat) : Bool := s.twistPort n && s.locked n && !(s.laneFailed n)

/-- Does a Twist port in FAULT stand on a lane whose carrier is not LOCKED (R272)? -/
def Chip.twistFault (s : Chip) (n : Nat) : Bool :=
  !(s.locked (s.carrier n)) && (s.portsOn n).any (fun p => (s.port p).twist && decide ((s.port p).st = .fault))

/-- Has the fault of lane `n` found the Ply receiver unavailable: it could not take the lane, or it is L8 itself, carrying the lane,
that is not LOCKED (R270, R272)? -/
def Chip.plyBeyond (s : Chip) (n : Nat) : Bool := s.ply.unavail.contains n || (s.onL8 n && !(s.locked 8))

/-- The fray causes as they stand; an exhausted SRAM stays exhausted (R383). -/
def Chip.frayCauses (s : Chip) : Nat :=
  let margin := (List.range 8).any (fun n => s.eligible n && s.flag (TWF_PLY_RISK.ABOVE_FRAY n) &&
    !(s.flag (CRL_LANE_STATUS.PAIRED n)) && !(s.onL8 n))
  b2n (s.plyRx == plySubst) + 2 * b2n (s.fld TWF_PLY_STATUS.TX_STATE == plyTxSubst)
    + 4 * b2n (s.laneFailed 8 || (s.plyFitted && s.ply.downTimed && !(s.locked 8)))
    + 8 * b2n margin + 16 * b2n (s.ply.lost.any s.twistFault) + 32 * b2n (s.flag CRL_STATUS.NO_SPARE)
    + 64 * b2n (s.fld THM_STATUS.BROKEN != 0) + 128 * s.fld GLB_FRAY_STATUS.MEM_REPAIR

/-- The causes of a number shown in `GLB_FRAY_STATUS`, with the history and the events of R271. -/
def Chip.setFray (s : Chip) (new : Nat) : Chip :=
  let old := (s.reg GLB_FRAY_STATUS.addr).toNat
  let rising := (bitsSet 8 new).filter (fun i => !(bit old i))
  let s := s.setReg GLB_FRAY_STATUS.addr (BitVec.ofNat 32 new)
  let s := s.setReg GLB_FRAY_HIST.addr (s.reg GLB_FRAY_HIST.addr ||| BitVec.ofNat 32 (maskOf 8 (fun i => rising.contains i)))
  let s := s.forAll rising (fun s _ => s.raise 0x1AB 0)
  if old ≠ 0 ∧ new = 0 then s.raise 0x1AC 0 else s

/-- The fray condition evaluated. -/
def Chip.evalFray (s : Chip) : Chip := s.setFray s.frayCauses

/-- Is `FRAY_N` driven low (R271)? Log 126 (DESIGN CHOICE). -/
def Chip.frayDriven (s : Chip) : Bool := s.fwReadySeen && s.reg GLB_FRAY_STATUS.addr != 0

/-! ### The config shadow -/

/-- A shadow with nothing configured. -/
def ShadowCfg.empty : ShadowCfg := ⟨Vector.replicate 16 none, [], Vector.replicate 4 (0, 2, 0), [], 0, false⟩

/-- The shadow that Krelin keeps, or one with nothing configured. -/
def Chip.shadowNow (s : Chip) : ShadowCfg := s.cfg.getD ShadowCfg.empty

/-- The part of the configuration that is not register words, as it stands; a port that is being set up or removed, or that step 10
is still to set up, keeps the entry it had. -/
def Chip.configNow (s : Chip) : ShadowCfg :=
  let c := s.shadowNow
  { c with
    ports := Vector.ofFn (fun (p : Fin 16) =>
      let x := s.ports[p.1]
      if x.st = .configuring ∨ (x.st = .absent ∧ s.fld GLB_BOOT_STATUS.STEP = 9 ∧ s.flag GLB_BOOT_STATUS.NO_CFG = false) then
        c.ports[p.1]
      else if x.st = .absent then none
      else some ⟨x.mode, x.trib, x.hostFirst, x.lineMask, x.wantUp⟩)
    quads := Vector.ofFn (fun (q : Fin 4) =>
      let x := s.quads[q.1]
      (b2n x.fixed, if x.preset = 0 then 2 else x.preset, x.pattern))
    guard := s.regs.filter (fun r => decide (0x60000 ≤ r.1) && decide (r.1 < 0x60400))
    base := s.fld GRD_SESSION.BASE
    dbgAllow := s.flag GRD_LC.DBG_ALLOW }

/-- The configuration as it stands kept in the shadow. -/
def Chip.keepConfig (s : Chip) : Chip := { s with cfg := some s.configNow }

/-- A register that a command has written kept in the shadow (R190, R434). Log 39 (DEDUCED), 85 (DEDUCED). -/
def Chip.keepFw (s : Chip) (a : Nat) : Chip :=
  { s with cfg := some { s.shadowNow with fwRegs := tabSet resetWord s.shadowNow.fwRegs a (s.reg a) } }

/-- The kept register words of the registers whose address passes `p` written again (R434). -/
def Chip.restoreFw (s : Chip) (p : Nat → Bool) : Chip :=
  s.forAll (s.shadowNow.fwRegs.filter (fun r => p r.1)) (fun s r => s.setReg r.1 r.2)

/-- The sequence number of a flash slot, 0 for an empty one. -/
def copySeq (c : Option ConfigCopy) : Nat := c.elim 0 (fun x => x.seq)

/-- The config shadow copy written to the flash slot that was not written last (R47, R66, R312). -/
def Chip.saveShadow (s : Chip) : Chip :=
  let s := s.keepConfig
  if s.flash.present then
    let a := copySeq s.flash.cfg[0]
    let b := copySeq s.flash.cfg[1]
    let c : ConfigCopy := ⟨max a b + 1, s.shadowNow, s.mem.filter (fun r => decide (0xE30000 ≤ r.1) && decide (r.1 < 0xE34800))⟩
    { s with flash := { s.flash with cfg := if a ≤ b then s.flash.cfg.set 0 (some c) else s.flash.cfg.set 1 (some c) } }
  else s

/-! ### After a change of a lane -/

/-- Have all lanes of port `p` come up: line lanes LOCKED and host lanes handed off (R67, R93)? -/
def Chip.portLanesUp (s : Chip) (p : Nat) : Bool :=
  (s.port p).lineLanes.all (fun n => s.locked (s.carrier n)) &&
    (s.port p).hostLanes.all (fun h => s.flag (HLN_STATUS.TRAINED (s.physHost h)))

/-- An ADD_PORT whose lanes are all up completes: the port is READY, or in FAULT where its modes disagree (R67, R313). -/
def Chip.addPortDone (s : Chip) (e : ExecCmd) : Chip :=
  match e.wait with
  | .addPort p restored retrained =>
    if s.portLanesUp p then
      let s := s.portMod p (fun x => { x with st := .ready })
      let s := (s.refreshPort p).saveShadow
      s.endCmd e (.okR (leBytes 4 (s.portMap p).toNat ++ [BitVec.ofNat 8 restored, BitVec.ofNat 8 retrained]))
    else s
  | _ => s

/-! ### Mode codes of the far end (R62, R201, R269) -/

/-- Is the port a bundle of line lanes (modes 0x12 to 0x18), R54? -/
def Port.bundle (p : Port) : Bool := decide (0x12 ≤ p.mode) && decide (p.mode ≤ 0x18)

/-- BUNDLE of line lane `n` of a port, R199: the size and the position in ascending order; 0 for no bundle. -/
def Port.bundleByte (p : Port) (n : Nat) : Nat :=
  if p.bundle then 16 * p.lineLanes.length + (p.lineLanes.filter (fun k => decide (k < n))).length else 0

/-- Does what the far end of physical lane `c` advertises disagree with port `p` on logical lane `n`?
Log 91 (DEDUCED). -/
def Chip.farDisagrees (s : Chip) (c n p : Nat) : Bool :=
  let x := s.port p
  let m0 := s.fld (TWF_FAR_INFO.MODE0 c)
  let m1 := s.fld (TWF_FAR_INFO.MODE1 c)
  let modes := match modeOf x.mode with
    | some m => if m.trib then (if x.trib = 0 then m0 != x.mode else m1 != x.mode) else m0 != x.mode || m1 != x.mode
    | none => false
  x.twist && (s.framerOf c).farSeen && (modes || x.bundleByte n != 0 && s.fld (TWF_FAR_INFO.BUNDLE c) != x.bundleByte n)

/-- MISMATCH of every lane and port, with EVS_PORT_MAP_MISMATCH (R62, R345). Log 91 (DEDUCED). -/
def Chip.judgeModes (s : Chip) : Chip :=
  let s := s.forAll (List.range 9) (fun s c =>
    s.setFlag (TWF_LANE_STATUS.MISMATCH c) ((s.logical c).elim false (fun n => (s.portsOn n).any (fun p => s.farDisagrees c n p))))
  let s := s.forAll (List.range 16) (fun s p =>
    s.portMod p (fun x => { x with mismatch := x.lineLanes.any (fun n => s.farDisagrees (s.carrier n) n p) }))
  s.setLevel 0x0C1 ((List.range 9).any (fun c => s.flag (TWF_LANE_STATUS.MISMATCH c))) 0

/-- In-band ports whose lane has no frame lock any more go down (R355). -/
def Chip.refreshInband (s : Chip) : Chip :=
  s.forAll (List.range 8) (fun s n =>
    if s.flyUp (2 + n) && !(s.flag (LRX_STATUS.FRAME_LOCK (s.carrier n))) then s.inbandLost (2 + n) else s)

/-! ### The creel's active lanes (spec/09 "The schedule", R237, R244) -/

/-- Is line lane `n` an active lane of the creel? -/
def Chip.crlActive (s : Chip) (n : Nat) : Bool :=
  if n = 8 then s.plyRx == plySubst && s.laneTwist s.plyLane else s.laneTwist n && !(s.onL8 n)

/-- Lane `n` becomes active: its slow unsatisfied count and its slub start afresh (R250, R251).
Log 24 (DESIGN CHOICE). -/
def Chip.crlStart (s : Chip) (n : Nat) : Chip :=
  let d := s.draw
  d.2.crlMod n (fun x => { missSeen := x.missSeen, slow := Config.slowStart d.1 })

/-- Lane `n` carries no port any more: its slots are taken back with what they hold, and its slub ends (R244).
Log 95 (DEDUCED). -/
def Chip.crlStop (s : Chip) (n : Nat) : Chip :=
  let s := { s with crl := { s.crl with cws := s.crl.cws.filter (fun w => w.lane != n) } }
  (s.setFlag (CRL_LANE_STATUS.SLUB n) false).setLevel (0x160 + n) false 0

/-- The reserve, the slots and GUAR_SHORT as the active lanes and the bobbins in service stand. -/
def Chip.crlRefresh (s : Chip) : Chip :=
  if !(s.pdOn 16) then s
  else
    let act := maskOf 9 s.crlActive
    let old := s.crl.active
    let s := s.forAll ((List.range 9).filter (fun n => bit act n && !(bit old n))) Chip.crlStart
    let s := s.forAll ((List.range 9).filter (fun n => !(bit act n) && bit old n && !(decide (n < 8) && s.onL8 n))) Chip.crlStop
    let s := { s with crl := { s.crl with active := act } }
    let slots := fun n => if bit act n || (n == 8 && s.crl.paired.isSome) then s.fld (CRL_LANE_CFG.DEADLINE n) + 2 else 0
    let s := s.forAll (List.range 9) (fun s n => s.setFld (CRL_LANE_STATUS.SLOTS n) (slots n))
    let s := s.setFld CRL_BUF_STATUS.ALLOC (((List.range 9).map slots).foldl (· + ·) 0)
    let res := 2 * popCount 9 act
    let short := decide (s.fld CRL_STATUS.IN_SERVICE < res)
    ((s.setFld CRL_STATUS.RESERVE res).setFlag CRL_STATUS.GUAR_SHORT short).setLevel 0x182 short 0

/-! ### Bobbins out of service (R231 to R233) -/

/-- The spare is consumed or retired: NO_SPARE, its event, no rotation any more, and fray (R232). -/
def Chip.spareGone (s : Chip) : Chip :=
  let s := { (s.setFld CRL_STATUS.SPARE 31) with crl := { s.crl with rotate := false } }
  ((s.setFlag CRL_STATUS.NO_SPARE true).setLevel 0x181 true 0).evalFray

/-- Bobbin `b` out of service: the spare, if there is one, takes its place. Log 94 (DEDUCED). -/
def Chip.dropBobbin (s : Chip) (b : Nat) : Chip :=
  let spare := s.fld CRL_STATUS.SPARE
  let s := s.setFldBit CRL_BOBBIN_FAIL.RETIRED b true
  if b = spare then s.spareGone
  else if spare ≠ 31 then s.spareGone
  else s.setFld CRL_STATUS.IN_SERVICE (s.fld CRL_STATUS.IN_SERVICE - 1)

/-- Bobbin `b` is retired (R231, R232), until the next start whatever becomes of `PD_CRL` (R233). Log 94 (DEDUCED). -/
def Chip.retireBobbin (s : Chip) (b : Nat) : Chip :=
  if bit (s.fld CRL_BOBBIN_FAIL.RETIRED) b then s
  else
    let s := { s with pmu := { s.pmu with retired := setBitN s.pmu.retired b } }
    (s.raise 0x180 0).dropBobbin b

/-- Steps 11 and 12 of a start complete when the line lanes and then the host lanes of its ports have come up (spec/02
"Start-up"). Log 58 (DEDUCED). -/
def Chip.startSteps (s : Chip) : Chip :=
  let mine := (List.range 16).filter (fun p => decide ((s.port p).st = .configuring))
  let st := s.fld GLB_BOOT_STATUS.STEP
  if st = 10 ∨ st = 11 then
    if mine.all (fun p => (s.port p).lineLanes.all (fun n => s.locked (s.carrier n))) then
      s.setFld GLB_BOOT_STATUS.STEP (if mine.all s.portLanesUp then 12 else 11)
    else s
  else s

/-- What follows a change of any lane: ports, in-band links, commands that waited for it, the steps of a start, fray. -/
def Chip.settle (s : Chip) : Chip :=
  let s := s.judgeModes.refreshPorts.refreshInband.crlRefresh
  let s := s.forAll s.mbx.exec Chip.addPortDone
  s.startSteps.evalFray

end Sys2Proof.Machine
end

