-- ==== Sys2Proof/Machine/Hank.lean ====
section
/-! DEFINITION. The hank engine's store (spec/07): the image of a hank (R171 to R173), slots and pins (R174 to R176),
snapshots and checkpoints (R177 to R179), the page-in queue (R180) and the decision between restore and retrain
(R182, R183). What a page-in does to its lane is in Machine/Receiver.lean. -/

namespace Sys2Proof.Machine

/-! ### Slots and pins (R175, R176) -/

/-- The number of slots of the hank store. -/
def hankSlots : Nat := 2048

/-- Slot `i`. -/
def Chip.hankSlot (s : Chip) (i : Nat) : HankSlot := tabGet (fun _ => {}) s.hnk.slots i

/-- Slot `i` replaced. -/
def Chip.setHankSlot (s : Chip) (i : Nat) (x : HankSlot) : Chip :=
  { s with hnk := { s.hnk with slots := tabSet (fun _ => {}) s.hnk.slots i x } }

/-- Slot `i` changed by `f`. -/
def Chip.hankSlotMod (s : Chip) (i : Nat) (f : HankSlot → HankSlot) : Chip := s.setHankSlot i (f (s.hankSlot i))

/-- Does the slot carry a pin, R175? -/
def HankSlot.pinned (x : HankSlot) : Bool := x.lastGood || x.active || x.keep || decide (0 < x.busy)

/-- The first number from `i` on, among `fuel` of them, that passes `p`. -/
def firstWith (p : Nat → Bool) : Nat → Nat → Option Nat
  | 0, _ => none
  | fuel + 1, i => if p i then some i else firstWith p fuel (i + 1)

/-- The slot that a new hank takes, R176: the lowest free one, else the unpinned one with the oldest use stamp. -/
def Chip.pickSlot (s : Chip) : Option Nat :=
  match firstWith (fun i => decide ((s.hankSlot i).st = .free)) hankSlots 0 with
  | some i => some i
  | none =>
    argMin (fun i => (s.hankSlot i).stamp)
      ((s.hnk.slots.filter (fun p => decide (p.2.st = .held) && !(p.2.pinned))).map (fun p => p.1))

/-- A slot used now: it takes the next use stamp (R175, R176). Log 83 (DEDUCED). -/
def Chip.touchSlot (s : Chip) (i : Nat) : Chip :=
  let s := { s with hnk := { s.hnk with stampCnt := s.hnk.stampCnt + 1 } }
  s.hankSlotMod i (fun x => { x with stamp := s.hnk.stampCnt })

/-- A slot freed. -/
def Chip.freeHank (s : Chip) (i : Nat) : Chip := s.setHankSlot i {}

/-- One user of a slot less. -/
def Chip.unbusy (s : Chip) (i : Nat) : Chip := s.hankSlotMod i (fun x => { x with busy := x.busy - 1 })

/-- The words of `HNK_STORE_STATUS`, R190. -/
def Chip.hankStoreWord (s : Chip) : Word :=
  let l := s.hnk.slots.map (fun p => p.2)
  let used := (l.filter (fun x => decide (x.st ≠ .free))).length
  let bad := (l.filter (fun x => decide (x.st = .bad))).length
  BitVec.ofNat 32 (hankSlots - used + 2 ^ 12 * (l.filter HankSlot.pinned).length + 2 ^ 24 * min bad 0xFF)

/-- The slot pinned LAST_GOOD for lane `n`, if there is one. -/
def Chip.lastGood (s : Chip) (n : Nat) : Option Nat :=
  if s.flag (HNK_LANE_STATUS.LG_VALID n) then some (s.fld (HNK_LANE_STATUS.LAST_GOOD n)) else none

/-- The slot pinned ACTIVE for lane `n`, if there is one. -/
def Chip.activeHank (s : Chip) (n : Nat) : Option Nat :=
  if s.flag (HNK_LANE_STATUS.ACT_VALID n) then some (s.fld (HNK_LANE_STATUS.ACTIVE n)) else none

/-- Lane `n` has no LAST_GOOD hank any more. -/
def Chip.dropLastGood (s : Chip) (n : Nat) : Chip :=
  match s.lastGood n with
  | none => s
  | some i =>
    ((s.hankSlotMod i (fun x => { x with lastGood := false })).setFlag (HNK_LANE_STATUS.LG_VALID n) false).setFld
      (HNK_LANE_STATUS.LAST_GOOD n) 0

/-- Lane `n` has no ACTIVE hank any more. -/
def Chip.dropActive (s : Chip) (n : Nat) : Chip :=
  match s.activeHank n with
  | none => s
  | some i =>
    ((s.hankSlotMod i (fun x => { x with active := false })).setFlag (HNK_LANE_STATUS.ACT_VALID n) false).setFld
      (HNK_LANE_STATUS.ACTIVE n) 0

/-- Both pins of lane `n` released (R175, R184, R187). -/
def Chip.dropPins (s : Chip) (n : Nat) : Chip := (s.dropLastGood n).dropActive n

/-- The LAST_GOOD pin of lane `n` on slot `i`. -/
def Chip.pinLastGood (s : Chip) (n i : Nat) : Chip :=
  (((s.dropLastGood n).hankSlotMod i (fun x => { x with lastGood := true })).setFlag (HNK_LANE_STATUS.LG_VALID n) true).setFld
    (HNK_LANE_STATUS.LAST_GOOD n) i

/-- The ACTIVE pin of lane `n` on slot `i`. -/
def Chip.pinActive (s : Chip) (n i : Nat) : Chip :=
  (((s.dropActive n).hankSlotMod i (fun x => { x with active := true })).setFlag (HNK_LANE_STATUS.ACT_VALID n) true).setFld
    (HNK_LANE_STATUS.ACTIVE n) i

/-- A slot marked bad: its pins, KEEP among them, are released and EVS_HANK_BAD is raised (R181). Log 83 (DEDUCED). -/
def Chip.markBad (s : Chip) (i : Nat) : Chip :=
  let s := s.forAll (List.range 9) (fun s n =>
    let s := if s.lastGood n = some i then s.dropLastGood n else s
    if s.activeHank n = some i then s.dropActive n else s)
  (s.setHankSlot i { st := .bad, busy := (s.hankSlot i).busy }).raise 0x130 0

/-- The hanks of lane `n` that carry a KEEP pin. -/
def Chip.keeps (s : Chip) (n : Nat) : Nat := (s.hnk.slots.filter (fun p => p.2.keep && p.2.lane == n)).length

/-- The KEEP pins allowed to lane `n`, R192. -/
def Chip.keepMax (s : Chip) (n : Nat) : Nat := min 8 (s.fld (HNK_LANE_CFG.KEEP_MAX n))

/-! ### The transmit taps (R169), which a hank holds beside the receive state -/

/-- The fields of the nine taps of lane `n`, c₋₃ first. -/
def tapFlds (n : Nat) : List Fld :=
  [LTX_TAPS0.CM3 n, LTX_TAPS0.CM2 n, LTX_TAPS0.CM1 n, LTX_TAPS1.C0 n, LTX_TAPS1.CP1 n, LTX_TAPS1.CP2 n,
   LTX_TAPS2.CP3 n, LTX_TAPS2.CP4 n, LTX_TAPS2.CP5 n]

/-- The nine transmit taps in force. -/
def Chip.txTaps (s : Chip) (n : Nat) : List Int := (tapFlds n).map (fun f => signedOf 9 (s.fld f))

/-- The nine transmit taps changed together. -/
def Chip.setTxTaps (s : Chip) (n : Nat) (l : List Int) : Chip :=
  s.forAll ((tapFlds n).zip l) (fun s p => s.setFld p.1 (unsignedOf 9 p.2))

/-! ### The image of a hank (R171 to R173) -/

/-- A 16-bit two's complement field. -/
def le16 (x : Int) : List Byte := leBytes 2 (unsignedOf 16 x)

/-- A list of `k` fields of 16 bits, missing ones 0. -/
def le16s (k : Nat) (l : List Int) : List Byte := (List.range k).flatMap (fun i => le16 (l.getD i 0))

/-- A 16-bit two's complement field of an image. -/
def sx16 (l : List Byte) (i : Nat) : Int := signedOf 16 (leAt l i 2)

/-- `k` fields of 16 bits of an image. -/
def sx16s (l : List Byte) (i k : Nat) : List Int := (List.range k).map (fun j => sx16 l (i + 2 * j))

/-- `n` zero bytes. -/
def zeros (n : Nat) : List Byte := List.replicate n 0

/-- A hank sealed with its CRC-32 (R171, R173). -/
def sealHank (body : List Byte) : List Byte := body ++ leBytes 4 (crc32 body)

/-- Does a hank pass the checks of R173: MAGIC, VERSION and CRC-32? -/
def hankSound (l : List Byte) : Bool :=
  l.length == 2048 && leAt l 0 2 == 0x484B && byteAt l 2 == 1 && leAt l 0x7FC 4 == crc32 (l.take 0x7FC)

/-- The header fields of a hank that commands and page-ins compare. -/
def hankKind (l : List Byte) : Nat := byteAt l 3
def hankPhys (l : List Byte) : Nat := byteAt l 4
def hankLogical (l : List Byte) : Nat := byteAt l 5
def hankMode (l : List Byte) : Nat := byteAt l 6
def hankRate (l : List Byte) : Nat := byteAt l 7
def hankFarId (l : List Byte) : Nat := leAt l 8 6

/-- The header of R172. -/
def hankHeader (kind phys logical mode rate far time temp gen : Nat) : List Byte :=
  leBytes 2 0x484B ++ [1, BitVec.ofNat 8 kind, BitVec.ofNat 8 phys, BitVec.ofNat 8 logical, BitVec.ofNat 8 mode,
    BitVec.ofNat 8 rate] ++ leBytes 8 far ++ leBytes 6 time ++ leBytes 2 temp ++ leBytes 4 gen ++ zeros 4

/-- The receive state of a hank, bytes 0x020 to 0x3B7. -/
def hankLive (x : Live) (volt bw : Nat) : List Byte :=
  le16s 65 x.ffe ++ zeros 6 ++ le16s 120 x.volt ++ le16s 64 x.targets
    ++ le16 x.np ++ leBytes 2 x.llrScale ++ le16 x.gain ++ leBytes 2 volt ++ zeros 8
    ++ leBytes 4 (unsignedOf 32 x.freq) ++ leBytes 1 x.phase ++ leBytes 1 bw ++ zeros 10
    ++ (List.range 64).flatMap (fun k => let a := x.adc.getD k (0, 0, 0); le16 a.1 ++ le16 a.2.1 ++ le16 a.2.2)

/-- The live state that a hank restores (R132): its term set and loop bandwidth are records, since only R115 and
LINE_RX_CFG change those of the lane. -/
def liveOfHank (l : List Byte) : Live :=
  { ffe := sx16s l 0x020 65
    volt := sx16s l 0x0A8 120
    targets := sx16s l 0x198 64
    np := sx16 l 0x218
    llrScale := leAt l 0x21A 2
    gain := sx16 l 0x21C
    freq := signedOf 32 (leAt l 0x228 4)
    phase := byteAt l 0x22C
    adc := (List.range 64).map (fun k => (sx16 l (0x238 + 6 * k), sx16 l (0x23A + 6 * k), sx16 l (0x23C + 6 * k))) }

/-- The transmit state of a hank, bytes 0x3B8 to 0x5CF. -/
def hankTx (taps : List Int) (active : List (Nat × Int)) : List Byte :=
  le16s 9 taps ++ zeros 6 ++ (List.range 256).flatMap (fun p => le16 (ttGet active p - ttNominal p))

/-- The transmit taps that a hank holds. -/
def tapsOfHank (l : List Byte) : List Int := sx16s l 0x3B8 9

/-- The tension table that a hank holds (R145), its entries held to −512 to 511 (R144). Log 81 (DEDUCED). -/
def tableOfHank (l : List Byte) : List (Nat × Int) :=
  (List.range 256).foldl (fun t p => tabSet ttNominal t p (clampInt (-512) 511 (ttNominal p + sx16 l (0x3D0 + 2 * p)))) []

/-- The temperature sensor near a line lane (spec/18 "Sensors"). -/
def laneSensor (n : Nat) : Nat := [0, 0, 1, 2, 3, 3, 4, 4, 5].getD n 0

/-- The logical lane that a hank of lane `n` names (R172); for L8 while it carries none the specification names none.
Log 19 (DESIGN CHOICE). -/
def Chip.logicalInHank (s : Chip) (n : Nat) : Nat :=
  if n < 8 then n else if s.plyLane < 8 then s.plyLane else (Config.idlePlyHank s.fresh).1

/-- The mode that a hank of lane `n` names. Log 19 (DESIGN CHOICE). -/
def Chip.modeInHank (s : Chip) (n : Nat) : Nat :=
  if n < 8 then s.laneMode n else if s.plyLane < 8 then s.laneMode s.plyLane else (Config.idlePlyHank s.fresh).2

/-- The image of the state of lane `n` as it stands, R171 and R172. -/
def Chip.hankImage (s : Chip) (n kind gen : Nat) : List Byte :=
  let rate := s.fld (LRX_STATUS.RATE n)
  let twist := s.laneTwist n
  let far := if twist then s.fld (TWF_FAR_ID_LO.FAR_LO n) + 2 ^ 32 * s.fld (TWF_FAR_ID_HI.FAR_HI n) else 0
  sealHank (hankHeader kind n (s.logicalInHank n) (s.modeInHank n) rate far s.evt.time (s.fld (THM_SENSOR.TEMP (laneSensor n))) gen
    ++ hankLive (s.rxOf n).live (s.fld (LRX_STATUS.VOLT_SET n)) (s.fld (LRX_RX_CFG.CDR_BW n))
    ++ hankTx (s.txTaps n) (s.txOf n).active
    ++ leBytes 2 (s.fld (LRX_SNR.SNR_AVG n)) ++ leBytes 2 (s.fld (LRX_CDR.FREQ_OFS n))
    ++ leBytes 4 (s.fld (CRL_LANE_BER.BER n))
    ++ leBytes 2 (if twist then s.fld (CRL_LANE_ITER.ITER_AVG n) else 0) ++ zeros 22 ++ zeros 524)

/-! ### Writing and reading a slot -/

/-- A slot's first byte in the hank store window, as an offset in the memory. -/
def hankOff (i : Nat) : Nat := 0x800 * i

/-- A hank written into a newly taken slot, which stays BUSY; none where every slot is pinned. Log 83 (DEDUCED). -/
def Chip.writeHank (s : Chip) (img : List Byte) : Option (Chip × Nat) :=
  match s.pickSlot with
  | none => none
  | some i =>
    let s := s.setHankSlot i { st := .held, lane := hankPhys img, busy := 1 }
    some ((s.writeBytes .hankStore (hankOff i) img).touchSlot i, i)

/-- The hank in slot `i` as the engine reads it, none where its strong code fails (R181); the bytes that a spindle has written
over it are not used (R174). Log 84 (DEDUCED), 86 (DEDUCED). -/
def Chip.readHank (s : Chip) (i : Nat) : Chip × Option (List Byte) :=
  let r := s.readBytes .hankStore (hankOff i) 2048
  (r.1, r.2.map (fun l => (s.hankSlot i).own.getD l))

/-- A spindle's word on its way into slot `i` through the window: the engine keeps its own bytes (R174).
Log 84 (DEDUCED). -/
def Chip.shieldHank (s : Chip) (i : Nat) : Chip :=
  let x := s.hankSlot i
  if x.st = .held ∧ x.own = none then
    s.setHankSlot i { x with own := some (s.bytesAt (MemId.hankStore.base + hankOff i) 2048) }
  else s

/-! ### Snapshots and checkpoints (R177 to R179) -/

/-- The snapshot (kind 0) or checkpoint (kind 1) of lane `n` in progress. -/
def Chip.snapOf (s : Chip) (n kind : Nat) : Option Snap := s.hnk.snaps.find? (fun x => x.lane == n && x.kind == kind)

/-- A hank of lane `n` captured and written into a slot, not committed yet; the next one counts on from it, committed or not (R172).
Log 83 (DEDUCED). -/
def Chip.capture (s : Chip) (n kind : Nat) : Chip :=
  let key := 2 * n + kind
  let gen := (tabGet Config.firstGen s.hnk.gen key + 1) % 2 ^ 32
  match s.writeHank (s.hankImage n kind gen) with
  | none => s
  | some (t, i) =>
    { t with
      fresh := s.fresh + 1
      hnk := { t.hnk with
        gen := tabSet Config.firstGen t.hnk.gen key gen
        snaps := t.hnk.snaps ++ [(⟨n, i, kind, false⟩ : Snap)] } }

/-- A snapshot or checkpoint no longer in progress. -/
def Chip.dropSnap (s : Chip) (x : Snap) : Chip :=
  { s with hnk := { s.hnk with snaps := s.hnk.snaps.filter (fun y => decide (y ≠ x)) } }

/-- The snapshot of lane `n` discarded and its slot freed (R177, R187). -/
def Chip.killSnapshot (s : Chip) (n : Nat) : Chip :=
  match s.snapOf n 0 with
  | none => s
  | some x => (s.dropSnap x).freeHank x.slot

/-- The snapshots and checkpoints whose writes are under way have reached their slots (R191). Log 83 (DEDUCED). -/
def Chip.writeSnaps (s : Chip) : Chip :=
  { s with hnk := { s.hnk with snaps := s.hnk.snaps.map (fun x => { x with written := true }) } }

/-- The offset of lane `n`'s record in the config shadow memory, R179. -/
def shadowRecOff (n : Nat) : Nat := 0x30000 + 0x800 * n

/-- The record of lane `n` in the config shadow. -/
def Chip.shadowRec (s : Chip) (n : Nat) : List Byte := s.bytesAt (MemId.shadow.base + shadowRecOff n) 2048

/-- A last-good snapshot takes place: GOOD lane, engine powered, none of the lane in progress (R177). -/
def Chip.snapshot (s : Chip) (n : Nat) : Chip :=
  if s.pdOn 18 && s.flag (LRX_STATUS.GOOD n) && (s.snapOf n 0).isNone then s.capture n 0 else s

/-- The guard of a snapshot ends with GOOD still 1: the pin moves onto its slot, LIMITED and FAR_CHANGED clear, and the
hank is copied into the lane's config shadow record (R177, R179, R183, R184). -/
def Chip.commitSnapshot (s : Chip) (n : Nat) : Chip :=
  match s.snapOf n 0 with
  | none => s
  | some x =>
    let s := ((s.dropSnap x).unbusy x.slot).pinLastGood n x.slot
    let s := (s.setFlag (HNK_LANE_STATUS.LIMITED n) false).setFlag (HNK_LANE_STATUS.FAR_CHANGED n) false
    let r := s.readHank x.slot
    match r.2 with
    | none => r.1
    | some l => r.1.writeBytes .shadow (shadowRecOff n) l

/-- An active checkpoint is captured; it is skipped while a snapshot of the lane is being written (R178). -/
def Chip.checkpoint (s : Chip) (n : Nat) : Chip :=
  if s.pdOn 18 && s.locked n && (s.snapOf n 1).isNone && (s.snapOf n 0).all (fun x => x.written) then s.capture n 1 else s

/-- An active checkpoint commits (R178). Log 63 (DEDUCED). -/
def Chip.commitCheckpoint (s : Chip) (n : Nat) : Chip :=
  match s.snapOf n 1 with
  | none => s
  | some x => ((s.dropSnap x).unbusy x.slot).pinActive n x.slot

/-! ### The page-in queue (R180, R182, R183) -/

/-- A page-in request at the end of the queue. -/
def Chip.queuePage (s : Chip) (r : PageReq) : Chip := { s with hnk := { s.hnk with queue := s.hnk.queue ++ [r] } }

/-- The page-in into lane `n` that is in flight. -/
def Chip.inFlight (s : Chip) (n : Nat) : Option PageReq := s.hnk.chans.find? (fun r => r.lane == n)

/-- Is a page-in of lane `n` queued? -/
def Chip.pageQueued (s : Chip) (n : Nat) : Bool := s.hnk.queue.any (fun r => r.lane == n)

/-- The queued page-ins of lane `n` withdrawn; a HANK_LOAD among them ends with PARTIAL. Log 83 (DEDUCED). -/
def Chip.withdrawPages (s : Chip) (n : Nat) : Chip :=
  let load := s.hnk.queue.any (fun r => r.lane == n && decide (r.why = .load))
  let s := { s with hnk := { s.hnk with queue := s.hnk.queue.filter (fun r => r.lane != n) } }
  if load then s.endWait (fun w => decide (w = .hankLoad n)) (.fail .partly) else s

/-- The outcome of the last HOLD of lane `n`, R191. -/
def Chip.setOutcome (s : Chip) (n o : Nat) : Chip := s.setFld (HNK_LANE_STATUS.OUTCOME n) o

/-- The engine handles the HOLD of lane `n`. -/
def Chip.takeHold (s : Chip) (n : Nat) : Chip :=
  { s with hnk := { s.hnk with hold := if s.hnk.hold.contains n then s.hnk.hold else s.hnk.hold ++ [n] } }

/-- The engine no longer handles the HOLD of lane `n`. -/
def Chip.leaveHold (s : Chip) (n : Nat) : Chip :=
  { s with hnk := { s.hnk with hold := s.hnk.hold.filter (fun x => x != n), spent := s.hnk.spent.filter (fun x => x != n) } }

/-- May the engine page in lane `n`'s LAST_GOOD hank in a HOLD that it handles (R182, R183): domain, LIMITED, a LAST_GOOD hank, no
failure mark (R266)? -/
def Chip.mayPage (s : Chip) (n : Nat) : Bool :=
  s.pdOn 18 && !(s.flag (HNK_LANE_STATUS.LIMITED n)) && (s.lastGood n).isSome && !(s.laneFailed n)

/-- May the engine restore lane `n` at its entry to HOLD (R182)? RESTORE_EN is looked at there only (R192). -/
def Chip.mayRestore (s : Chip) (n : Nat) : Bool := s.flag (HNK_LANE_CFG.RESTORE_EN n) && s.mayPage n

/-- A page-in of the LAST_GOOD slot into lane `n` queued, R182; one that is queued or in flight already serves.
Log 83 (DEDUCED). -/
def Chip.queueRestore (s : Chip) (n : Nat) : Chip :=
  match s.lastGood n with
  | none => s
  | some i =>
    if (s.inFlight n).isSome || s.hnk.queue.any (fun r => r.lane == n && decide (r.why = .restore)) then s
    else s.queuePage ⟨n, i, .restore⟩

/-- The procedure of R182 at the entry of lane `n` into HOLD. The second part tells whether the engine restores the lane
or waits to; if not, the report is "no restore". -/
def Chip.hankHold (s : Chip) (n : Nat) : Chip × Bool :=
  let s := s.leaveHold n
  if !(s.mayRestore n) then (s.setOutcome n 3, false)
  else
    let s := s.takeHold n
    if (s.inFlight n).isSome then (s, true)
    else if s.signal n then (s.queueRestore n, true)
    else (s, true)

/-- How long the window of R183 is, in cycles of the event timestamp: 1 s. Log 68 (DEDUCED). -/
def oneSecond : Nat := 110778809

/-- A restore of lane `n` starts, R183: it is counted, and at RESTORE_LIMIT the lane is LIMITED. Log 68 (DEDUCED). -/
def Chip.countRestore (s : Chip) (n : Nat) : Chip :=
  let now := s.evt.time
  let l := s.hnk.starts.filter (fun p => decide ((now + 2 ^ 48 - p.2) % 2 ^ 48 < oneSecond)) ++ [(n, now)]
  let s := { s with hnk := { s.hnk with starts := l } }
  let lim := s.fld HNK_CFG.RESTORE_LIMIT
  if lim ≠ 0 ∧ lim ≤ (l.filter (fun p => p.1 == n)).length ∧ s.flag (HNK_LANE_STATUS.LIMITED n) = false then
    (s.setFlag (HNK_LANE_STATUS.LIMITED n) true).raise (0x120 + n) 0
  else s

/-- May a page-in into lane `n` start: none of it is in flight, and the lane is not in signal-loss hold (R133, R180)? -/
def Chip.pageMayStart (s : Chip) (n : Nat) : Bool := (s.inFlight n).isNone && (s.rxState n != rxHold || s.signal n)

/-- A page-in starts, R180: the oldest request whose lane may have one takes a channel, and its source is BUSY. -/
def Chip.startPage (s : Chip) : Chip :=
  if s.pdOn 18 && decide (s.hnk.chans.length < 3) then
    match s.hnk.queue.find? (fun r => s.pageMayStart r.lane) with
    | none => s
    | some r =>
      let s := { s with hnk := { s.hnk with queue := s.hnk.queue.erase r, chans := s.hnk.chans ++ [r] } }
      let s := (s.hankSlotMod r.slot (fun x => { x with busy := x.busy + 1 }))
      let s := if (s.hankSlot r.slot).st = .held then s.touchSlot r.slot else s
      if r.why = .restore then s.countRestore r.lane else s
  else s

/-! ### Flush (R175, R187) -/

/-- Is a restore of lane `n` running: a page-in queued or in flight, or its restore window? -/
def Chip.restoring (s : Chip) (n : Nat) : Bool :=
  s.pageQueued n || (s.inFlight n).isSome || (s.rxOf n).window.isSome

/-- HANK_FLUSH of lane `n`: every pin released, every slot of the lane freed; the second part counts them. -/
def Chip.flushLane (s : Chip) (n : Nat) : Chip × Nat :=
  let mine := (s.hnk.slots.filter (fun p => decide (p.2.st = .held) && p.2.lane == n)).map (fun p => p.1)
  let s := s.dropPins n
  let s := { s with hnk := { s.hnk with snaps := s.hnk.snaps.filter (fun x => x.lane != n) } }
  (s.forAll mine Chip.freeHank, mine.length)

/-- A flush of lane `n` that waited for the end of its restore is carried out (R187). -/
def Chip.flushWaiting (s : Chip) (n : Nat) : Chip :=
  if s.hnk.flushWait.contains n && !(s.restoring n) then
    let s := { s with hnk := { s.hnk with flushWait := s.hnk.flushWait.filter (fun x => x != n) } }
    let r := s.flushLane n
    r.1.endWait (fun w => decide (w = .hankFlush n)) (.okR (leBytes 2 r.2))
  else s

/-! ### Views (R191) -/

/-- The code of `HNK_LANE_STATUS.ENGINE`. -/
def Chip.hankEngine (s : Chip) (n : Nat) : Nat :=
  if (s.rxOf n).window.isSome then 6
  else if (s.inFlight n).isSome then 5
  else if s.pageQueued n then 4
  else if (s.snapOf n 0).isSome then (if (s.snapOf n 0).any (fun x => x.written) then 3 else 2)
  else if (s.snapOf n 1).isSome then 1
  else 0

/-- The word of `HNK_LANE_STATUS` of lane `n`, R191. -/
def Chip.hankLaneWord (s : Chip) (n : Nat) : Word :=
  setBits (setBits (s.reg (HNK_LANE_STATUS.addr n)) 7 3 (s.hankEngine n)) 4 1 (s.fld (HNK_LANE_CFG.RESTORE_EN n))

end Sys2Proof.Machine
end

