-- ==== Sys2Proof/Machine/Receiver.lean ====
section
/-! DEFINITION. The transitions of a line receiver (spec/05 R121 to R134) that several commands share: its flags, the start
of a retrain, the entry to HOLD, OFF, and the swap of a page-in. What the fault logic then does is in Machine/Ply.lean. -/

namespace Sys2Proof.Machine

/-! ### Flags and counts -/

/-- The fault bit of a loss criterion (R124, R140). -/
def lossFlag (n : Nat) : Nat → Fld
  | 1 => LRX_FAULT.LOS n
  | 2 => LRX_FAULT.CDR_UNLOCK n
  | 3 => LRX_FAULT.SNR_LOSS n
  | _ => LRX_FAULT.FRAME_LOSS n

/-- The fault bits of the loss criteria whose bit is set in `causes` (bit c for cause c), R125. -/
def Chip.lossFaults (s : Chip) (n causes : Nat) : Chip :=
  s.forAll ((List.range 5).filter (fun c => decide (0 < c) && bit causes c)) (fun s c => s.setFlag (lossFlag n c) true)

/-- EVS_LINE_LOS follows SIGNAL once the lane has been LOCKED (R345). -/
def Chip.losLevel (s : Chip) (n : Nat) : Chip :=
  s.setLevel (0x060 + n) (!(s.signal n) && (s.rxOf n).wasLocked) 0

/-- The codeword in progress filled up with erasures and handed on (R241). Log 87 (DEDUCED). -/
def Framer.cutShort (x : Framer) : Framer :=
  match x.cwLeft with
  | some (r + 1) => { x with words := x.words ++ [(⟨x.cwFn, x.soft ++ List.replicate (r + 1) 0⟩ : CwIn)], soft := [], cwLeft := none }
  | _ => { x with soft := [], cwLeft := none }

/-- TWF of lane `n` without frame lock, seeking where the lane has a framing (R214, R223); the codeword in progress is
completed with erasures (R241), and the tap word in progress is lost (R156). Log 82 (DEDUCED). -/
def Chip.loseFrame (s : Chip) (n : Nat) : Chip :=
  let s := (s.setFlag (LRX_STATUS.FRAME_LOCK n) false).setFlag (TWF_LANE_STATUS.FRAME_LOCK n) false
  let s := s.setFlag (TWF_LANE_STATUS.SEEK n) (s.fld (TWF_LANE_STATUS.FRAMING n) != 0)
  let s := s.txMod n (fun t => { t with rxWord := [], rxFailed := false })
  s.framerMod n (fun x => { x.cutShort with
    matches_ := 0, invMatches := 0, misses := 0, crcFails := 0, mfRx := [], mfBad := false, mfDone := none, farChecked := false })

/-- GOOD clears, and a snapshot in its guard is discarded (R129, R177). -/
def Chip.clearGood (s : Chip) (n : Nat) : Chip := (s.setFlag (LRX_STATUS.GOOD n) false).killSnapshot n

/-- The lock criteria start afresh. -/
def Chip.restartLock (s : Chip) (n : Nat) : Chip :=
  let s := s.rxMod n (fun x => { x with snrAbove := 0, snrBelow := 0, freqs := [] })
  let s := (s.setFlag (LRX_STATUS.CDR_LOCK n) false).setFlag (LRX_STATUS.EQ_CONV n) false
  s.loseFrame n

/-- SNR_AVG restarts, and with it the lock criteria (R134, R141). -/
def Chip.restartCriteria (s : Chip) (n : Nat) : Chip :=
  ((s.setFld (LRX_SNR.SNR_AVG n) 0).rxMod n (fun x => { x with snrs := [] })).restartLock n

/-- The largest term set allowed (R115, R142); a receiver that starts takes it, without an event. Log 78 (DEDUCED). -/
def Chip.voltLimit (s : Chip) (n : Nat) : Nat := min 2 (s.fld (LRX_RX_CFG.VOLT_MAX n))

/-! ### The corrections of the ADC (R112, R113) -/

/-- The end of range of a correction, in its steps (spec/05 "Background calibration"). -/
def adcEnd : AdcLoop → Int
  | .offset => 256 | .gain => 128 | .skew => 300

/-- A correction of a sub-ADC's triple. -/
def adcGet : AdcLoop → Int × Int × Int → Int
  | .offset, c => c.1 | .gain, c => c.2.1 | .skew, c => c.2.2

/-- A correction of a sub-ADC's triple replaced. -/
def adcPut : AdcLoop → Int × Int × Int → Int → Int × Int × Int
  | .offset, c, v => (v, c.2) | .gain, c, v => (c.1, v, c.2.2) | .skew, c, v => (c.1, c.2.1, v)

/-- The three corrections. -/
def adcLoops : List AdcLoop := [.offset, .gain, .skew]

/-- Is a correction of a sub-ADC at the end of its range? Log 77 (DEDUCED). -/
def adcHits (c : Int × Int × Int) (l : AdcLoop) : Bool := decide (adcEnd l ≤ ((adcGet l c).natAbs : Int))

/-- Are all corrections of a sub-ADC inside their ranges by at least 10 % of the range (R113)? Log 77 (DEDUCED). -/
def adcInside (c : Int × Int × Int) : Bool :=
  adcLoops.all (fun l => decide (10 * ((adcGet l c).natAbs : Int) ≤ 9 * adcEnd l))

/-- The 64 triples, absent ones zero. -/
def adcAll (l : List (Int × Int × Int)) : List (Int × Int × Int) := (List.range 64).map (fun k => l.getD k (0, 0, 0))

/-- The corrections of lane `n` have changed from `was`: one that has come to its end sets AT_LIMIT, the fault and the event,
and with all of them well inside again AT_LIMIT clears (R113). Log 77 (DEDUCED). -/
def Chip.adcJudge (s : Chip) (n : Nat) (was : List (Int × Int × Int)) : Chip :=
  let now := adcAll (s.rxOf n).live.adc
  let new := ((adcAll was).zip now).any (fun p => adcLoops.any (fun l => adcHits p.2 l && !(adcHits p.1 l)))
  let ends := (List.range 64).filter (fun k => adcLoops.any (adcHits (now.getD k (0, 0, 0))))
  if new then
    (((s.setFlag (LRX_ADC_CAL.AT_LIMIT n) true).setFld (LRX_ADC_CAL.SUB n) (ends.headD 0)).setFlag (LRX_FAULT.ADC_CAL n) true).setLevel
      (0x0A0 + n) true 0
  else if now.all adcInside then (s.setFlag (LRX_ADC_CAL.AT_LIMIT n) false).setLevel (0x0A0 + n) false 0
  else s

/-- The live state of lane `n` replaced as a whole. -/
def Chip.setLive (s : Chip) (n : Nat) (x : Live) : Chip :=
  let was := (s.rxOf n).live.adc
  (s.rxMod n (fun r => { r with live := x })).adcJudge n was

/-! ### Retrain, start and OFF (R121, R130, R131) -/

/-- Lane `n` enters CALIBRATE with no stored state. Log 11 (DESIGN CHOICE), 79 (DEDUCED). -/
def Chip.retrain (s : Chip) (n : Nat) : Chip :=
  let s := ((s.clearGood n).leaveHold n).restartCriteria n
  let s := (s.setLive n {}).rxMod n (fun x => { x with retrain := true, window := none, cause := 0 })
  (s.setFld (LRX_STATUS.HOLD_CAUSE n) 0).setRxState n rxCalibrate

/-- Lane `n` leaves OFF, its domain being ON: foreground calibration first (R121), at a rate code, with a page-in to
follow where `why` names one. Log 78 (DEDUCED). -/
def Chip.startRx (s : Chip) (n rate : Nat) (why : Option PageWhy) : Chip :=
  let s := s.setFld (LRX_STATUS.RATE n) rate
  let s := s.setFld (LRX_STATUS.VOLT_SET n) (s.voltLimit n)
  (s.retrain n).rxMod n (fun x => { x with afterCal := why, everCdr := false })

/-- Lane `n` enters OFF: a page-in still queued is withdrawn, a capture that waits for its trigger goes on.
Log 80 (DEDUCED). -/
def Chip.rxToOff (s : Chip) (n : Nat) : Chip :=
  let s := (((s.clearGood n).leaveHold n).restartLock n).withdrawPages n
  let s := (s.setLive n {}).rxMod n (fun x => { capture := x.capture, claimed := x.claimed, chk := x.chk, lockUse := x.lockUse,
                                                lossUse := x.lossUse, warnUse := x.warnUse })
  let s := s.framerMod n (fun x => { x with words := [], farSeen := false })
  let s := (s.setFld (LRX_STATUS.HOLD_CAUSE n) 0).setFld (LRX_STATUS.RX_SNR n) 0
  let s := (s.setFlag (LRX_STATUS.MARGIN_LOW n) false).setLevel (0x090 + n) false 0
  ((s.setRxState n rxOff).losLevel n).flushWaiting n

/-! ### HOLD (R124, R125, R131) -/

/-- A capture of lane `n` that waits for HOLD is triggered (R137). -/
def Chip.triggerCapture (s : Chip) (n : Nat) : Chip :=
  s.rxMod n (fun x => { x with capture := x.capture.map (fun c => { c with triggered := true }) })

/-- Lane `n` stands in HOLD with its recorded cause. Log 99 (DEDUCED). -/
def Chip.putHold (s : Chip) (n : Nat) : Chip := (s.setFld (LRX_STATUS.HOLD_CAUSE n) (s.rxOf n).cause).setRxState n rxHold

/-- Lane `n` in HOLD: an entry from another state is counted in LOSS_CNT and triggers a capture that waits for it (R137, R140,
R316). Log 79 (DEDUCED). -/
def Chip.toHold (s : Chip) (n : Nat) : Chip :=
  (s.when (decide (s.rxState n ≠ rxHold)) (fun s => (s.satInc (LRX_LOCK_CNT.LOSS_CNT n) 1).triggerCapture n)).putHold n

/-- A LOCKED lane enters HOLD for the causes whose bits are set in `causes`: fault bits, the lowest cause, LOSS_CNT, GOOD
cleared, the lock flags of what was lost, and the event (R124, R125, R129); without signal a queued page-in is withdrawn (R133).
Log 79 (DEDUCED). -/
def Chip.enterHold (s : Chip) (n causes : Nat) : Chip :=
  let cause := (((List.range 5).filter (fun c => decide (0 < c) && bit causes c)).head?).getD 0
  let s := (s.lossFaults n causes).rxMod n (fun x => { x with cause := cause, retrain := false, window := none, snrAbove := 0 })
  let s := s.when (bit causes 2) (fun s => s.setFlag (LRX_STATUS.CDR_LOCK n) false)
  let s := s.when (bit causes 3) (fun s => s.setFlag (LRX_STATUS.EQ_CONV n) false)
  let s := s.when (bit causes 4) (fun s => s.loseFrame n)
  let s := s.when (!(s.signal n)) (fun s => s.withdrawPages n)
  (s.clearGood n).toHold n

/-- The restore window of lane `n` ends without LOCKED, and the lane is in HOLD again. Log 79 (DEDUCED). -/
def Chip.closeWindow (s : Chip) (n : Nat) : Chip :=
  let s := s.rxMod n (fun x => { x with window := none, retrain := false })
  s.toHold n

/-! ### The swap of a page-in (R132, R134, R141) -/

/-- The registers that show the live state: the rotator position has 7 bits at 226.875 GBd and 8 at 113.4375 GBd (R141). -/
def Chip.showLive (s : Chip) (n : Nat) : Chip :=
  let x := (s.rxOf n).live
  let phase := if s.flag (LRX_STATUS.RATE n) then x.phase % 128 else x.phase
  (s.setFld (LRX_CDR.FREQ_OFS n) (unsignedOf 16 x.freq)).setFld (LRX_CDR.PHASE n) phase

/-- The swap: the hank's receive state replaces the lane's in one step, SNR_AVG restarts, and the restore window runs,
save for a lane in HOLD without signal (R133) or marked failed (R266), which stays in HOLD. -/
def Chip.swapIn (s : Chip) (n : Nat) (why : PageWhy) (l : List Byte) : Chip :=
  let stay := s.rxState n == rxHold && (!(s.signal n) || s.laneFailed n)
  let s := (s.clearGood n).setLive n (liveOfHank l)
  let s := ((s.rxMod n (fun x => { x with recCheck := decide (why = .record) })).showLive n).restartCriteria n
  if stay then s.toHold n
  else
    let s := s.rxMod n (fun x => { x with window := some why, retrain := false })
    (s.setFld (LRX_STATUS.HOLD_CAUSE n) 0).setRxState n rxConverge

/-- A lane whose page-in is over enters OFF where its port has gone meanwhile (R67, R187). -/
def Chip.offIfUnused (s : Chip) (n : Nat) : Chip := if s.laneUsed n then s else s.rxToOff n

/-! ### Term sets (R114 to R116, R138) -/

/-- The term set that lane `n` works towards: its limit, lowered by a standing thermal request. Log 78 (DEDUCED). -/
def Chip.voltTarget (s : Chip) (n : Nat) : Nat :=
  match (s.rxOf n).thermal with
  | none => s.voltLimit n
  | some t => min t (s.voltLimit n)

/-- The term set of lane `n` changed, with EVS_LINE_VOLT_SET; the next step is at least 1 ms away (R115). -/
def Chip.setVolt (s : Chip) (n v : Nat) : Chip :=
  ((s.setFld (LRX_STATUS.VOLT_SET n) v).rxMod n (fun x => { x with stepped := true })).raise (0x0B0 + n) 0

end Sys2Proof.Machine
end

