-- ==== Sys2Proof/Machine/Ply.lean ====
section
/-! DEFINITION. The fault logic (spec/10): pairing with the Ply lane, requests to the far end, substitution and its commit,
what happens when lanes enter HOLD, lock again or lose signal (R262 to R273), and the choice of the mirror (R263). -/

namespace Sys2Proof.Machine

/-! ### Requests and pairing (R260, R262) -/

/-- The lane byte of no request. -/
def noLane : Nat := 0xF

/-- The Ply receiver in a state. -/
def Chip.setPlyRx (s : Chip) (st : Nat) : Chip := s.setFld TWF_PLY_STATUS.RX_STATE st

/-- The lane requested from the next multiframe on, as a mirror or in substitution (R260); L8's pins are released where the
lane that it serves changes (R187). -/
def Chip.request (s : Chip) (n : Nat) (ply : Bool) : Chip :=
  let old := s.plyLane
  let s := s.when (decide (old ≠ n) && decide (old ≠ noLane)) (fun s => s.dropPins 8)
  let byte := if n = noLane then noLane else n + (if ply then 0x80 else 0x40)
  { s.setFld TWF_PLY_STATUS.RX_LANE n with ply := { s.ply with reqNext := byte } }

/-- Nothing is requested; the Ply receiver is IDLE, or DOWN while L8 is not LOCKED (R270). -/
def Chip.requestNone (s : Chip) : Chip :=
  (s.request noLane false).setPlyRx (if s.locked 8 then plyIdle else plyDown)

/-- May L8 be paired with lane `n`, which it reports (R262)? -/
def Chip.mayPair (s : Chip) (n : Nat) : Bool :=
  s.locked 8 && decide (s.ply.farLane = some n) && s.twistPort n && !(s.laneFailed n) &&
  (if s.plyRx = plySubstWait then s.plyLane == n
   else decide (s.plyRx ≠ plySubst) && s.locked n)

/-- The lane that L8 is paired with, as `CRL_LANE_STATUS.PAIRED` shows it; L8 decodes at that lane's deadline (R243, R244). -/
def Chip.setPaired (s : Chip) (p : Option Nat) : Chip :=
  let s := s.forAll (List.range 8) (fun s n => s.setFlag (CRL_LANE_STATUS.PAIRED n) (decide (p = some n)))
  let s := match p with
    | some n => s.setFld (CRL_LANE_CFG.DEADLINE 8) (s.fld (CRL_LANE_CFG.DEADLINE n))
    | none => s
  { s with crl := { s.crl with paired := p } }

/-! ### Commit (R264 to R266) -/

/-- A port that uses logical lane `n`, the first of two. -/
def Chip.portOfLane (s : Chip) (n : Nat) : Nat := ((s.portsOn n).head?).getD 0

/-- The substitution of lane `n` commits: L8 carries it, physical Ln is marked failed and stays in HOLD, and a PLY_SUBST of
it completes. A port of it in FAULT waits for its first RS codeword on the new path (R265).
Log 95 (DEDUCED), 99 (DEDUCED). -/
def Chip.commitSubst (s : Chip) (n : Nat) : Chip :=
  let s := (s.setPaired none).request n true
  let s := s.setPlyRx plySubst
  let s := { s with pmu := { s.pmu with failed := setBitN s.pmu.failed n } }
  let s := (s.setFldBit TWF_LANE_FAILED.FAILED n true).satInc TWF_PLY_CNT.SUBST_CNT 1
  let s := (s.leaveHold n).withdrawPages n
  let s := s.clearGood n
  let s := if s.rxState n = rxHold then s else (s.rxMod n (fun x => { x with cause := 0, window := none })).toHold n
  let s := s.forAll (s.portsOn n) (fun s p => s.portMod p (fun x => { x with realign := decide (x.st = .fault) }))
  let s := { s with ply := { s.ply with
    waitRestore := s.ply.waitRestore.filter (fun x => x != n)
    unavail := s.ply.unavail.filter (fun x => x != n)
    lost := s.ply.lost.filter (fun x => x != n)
    planned := if s.ply.planned = some n then none else s.ply.planned } }
  let s := (s.raise (0x1A0 + n) 0).flushWaiting n
  s.endWait (fun w => decide (w = .plySubst n)) (.okR (leBytes 4 (s.portMap (s.portOfLane n)).toNat))

/-- Pairing as the lanes, the far end's report and the Ply receiver's state now stand: it ends, or it starts, which commits a
substitution that waited for it (R262, R264, R273). -/
def Chip.evalPairing (s : Chip) : Chip :=
  let s := match s.crl.paired with
    | none => s
    | some m =>
      if s.mayPair m then s
      else
        let s := s.setPaired none
        if s.plyRx = plyMirror then s.setPlyRx plyMirrorWait else s
  match s.crl.paired, s.ply.farLane with
  | none, some n =>
    if s.mayPair n then
      let s := s.setPaired (some n)
      if s.plyRx = plySubstWait then s.commitSubst n
      else if decide (s.ply.planned = some n) && s.flag TWF_PLY_CFG.SUBST_EN then s.commitSubst n
      else if s.plyRx = plyMirrorWait ∧ s.plyLane = n then s.setPlyRx plyMirror
      else s
    else s
  | _, _ => s

/-! ### Entry to HOLD (R264, R270) -/

/-- Is the Ply receiver available, R264 and R328? -/
def Chip.plyAvailable (s : Chip) : Bool :=
  s.plyFitted && s.flag TWF_PLY_CFG.SUBST_EN && s.locked 8 && !(s.rxOf 8).claimed && !(s.laneFailed 8) &&
  (s.plyRx == plyIdle || s.plyRx == plyMirrorWait || s.plyRx == plyMirror)

/-- The fault of lane `n` finds the Ply receiver unavailable. -/
def Chip.plyUnavailable (s : Chip) (n : Nat) : Chip :=
  let s := s.satInc TWF_PLY_CNT.UNAVAIL_CNT 1
  let s := { s with ply := { s.ply with unavail := if s.ply.unavail.contains n then s.ply.unavail else s.ply.unavail ++ [n] } }
  s.raise 0x1AA 0

/-- The request step of R264: lane `n` is asked for in substitution, which commits where pairing can start at once. -/
def Chip.requestSubst (s : Chip) (n : Nat) : Chip :=
  let s := { s with ply := { s.ply with waitRestore := s.ply.waitRestore.filter (fun x => x != n) } }
  ((s.request n true).setPlyRx plySubstWait).evalPairing

/-- A lane in HOLD that nothing else works on retrains (R258). -/
def Chip.retrainHeld (s : Chip) (n : Nat) : Chip :=
  if s.rxState n = rxHold ∧ s.laneFailed n = false then s.retrain n else s

/-- What the hank engine and the fault logic decide for lane `n`, which is in HOLD and has not been committed. -/
def Chip.decideHold (s : Chip) (n : Nat) : Chip :=
  let r := s.hankHold n
  let s := r.1
  if s.twistPort n then
    if s.plyAvailable then
      if s.plyRx = plyMirrorWait ∧ s.plyLane = n then s.requestSubst n
      else if s.flag TWF_PLY_CFG.RESTORE_FIRST && s.signal n && r.2 then
        { s with ply := { s.ply with waitRestore := s.ply.waitRestore ++ [n] } }
      else s.requestSubst n
    else
      let s := s.plyUnavailable n
      if r.2 then s else s.retrainHeld n
  else if r.2 then s
  else s.retrainHeld n

/-- L8 leaves LOCKED: pairing ends, and the Ply receiver is DOWN unless it carries a lane or waits for one. -/
def Chip.l8Left (s : Chip) : Chip :=
  let s := { s.setFlag TWF_PLY_STATUS.L8_LOCKED false with ply := { s.ply with farLane := none } }
  let s := s.evalPairing
  if s.plyFitted && (s.plyRx == plyIdle || s.plyRx == plyMirrorWait || s.plyRx == plyMirror) then s.setPlyRx plyDown else s

/-- Loss criteria are met in one cycle, R124, R125, R264, R270: `l` gives lanes and causes (bit c for cause c). A lane that
is LOCKED enters HOLD; for others the fault bits are set. L8 comes first, then the commit of a paired lane, then the
others in ascending order. -/
def Chip.lockLoss (s : Chip) (l : List (Nat × Nat)) : Chip :=
  let fresh := (List.range 9).filter (fun n => s.locked n && l.any (fun p => p.1 == n && p.2 != 0))
  let causes := fun n => maskOf 5 (fun c => decide (0 < c) && l.any (fun p => p.1 == n && bit p.2 c))
  let s := s.forAll (List.range 9) (fun s n => if fresh.contains n then s else s.lossFaults n (causes n))
  let s := if fresh.contains 8 then (s.enterHold 8 (causes 8)).l8Left else s
  let low := fresh.filter (fun n => decide (n < 8))
  let s := s.forAll low (fun s n => s.enterHold n (causes n))
  let s := match s.crl.paired with
    | some n => if low.contains n && s.flag TWF_PLY_CFG.SUBST_EN then s.commitSubst n else s
    | none => s
  let s := s.forAll fresh (fun s n => if s.laneFailed n then s else s.decideHold n)
  s.evalPairing.settle

/-! ### What follows HOLD -/

/-- The hank engine reports a failed restore of lane `n` (R181, R182, R264). -/
def Chip.restoreFailed (s : Chip) (n : Nat) : Chip :=
  let s := if s.hnk.hold.contains n then
      { s.setOutcome n 2 with hnk := { s.hnk with spent := s.hnk.spent ++ [n] } }
    else s
  if s.ply.waitRestore.contains n then
    let s := { s with ply := { s.ply with waitRestore := s.ply.waitRestore.filter (fun x => x != n) } }
    if s.plyAvailable then s.requestSubst n else (s.plyUnavailable n).retrainHeld n
  else if s.plyRx = plySubstWait ∧ s.plyLane = n then s
  else s.retrainHeld n

/-- The hank engine reports that it restores lane `n` no more (R183). -/
def Chip.noRestore (s : Chip) (n : Nat) : Chip :=
  let s := (s.setOutcome n 3).leaveHold n
  if s.ply.waitRestore.contains n then
    let s := { s with ply := { s.ply with waitRestore := s.ply.waitRestore.filter (fun x => x != n) } }
    if s.plyAvailable then s.requestSubst n else (s.plyUnavailable n).retrainHeld n
  else if s.plyRx = plySubstWait ∧ s.plyLane = n then s
  else s.retrainHeld n

/-- SIGNAL of a lane in HOLD or in a restore window falls: a queued page-in is withdrawn, a running window is abandoned, and a
restore is no longer waited for (R133, R264). A lane whose window came of no HOLD that the engine handles enters HOLD anew (R182).
Log 79 (DEDUCED). -/
def Chip.holdSignalLost (s : Chip) (n : Nat) : Chip :=
  let s := s.withdrawPages n
  let win := (s.rxOf n).window.isSome
  let s := if win then s.closeWindow n else s
  if win && !(s.hnk.hold.contains n) && !(s.laneFailed n) then s.decideHold n
  else if s.ply.waitRestore.contains n then
    let s := { s with ply := { s.ply with waitRestore := s.ply.waitRestore.filter (fun x => x != n) } }
    if s.plyAvailable then s.requestSubst n else s.plyUnavailable n
  else s

/-- SIGNAL of a lane in HOLD returns: its LAST_GOOD hank is paged in, unless this loss's restore has failed or the lane is
LIMITED (R133, R182, R183). -/
def Chip.holdSignalBack (s : Chip) (n : Nat) : Chip :=
  if s.hnk.hold.contains n && !(s.hnk.spent.contains n) then
    if s.mayPage n then s.queueRestore n else s.noRestore n
  else s

/-- Lane `n` has entered LOCKED: a substitution that waited is no longer needed (R264), and L8 serves again. -/
def Chip.plyLocked (s : Chip) (n : Nat) : Chip :=
  let s := { s with ply := { s.ply with
    waitRestore := s.ply.waitRestore.filter (fun x => x != n)
    unavail := s.ply.unavail.filter (fun x => x != n)
    lost := s.ply.lost.filter (fun x => x != n) } }
  let s := if s.plyRx = plySubstWait ∧ s.plyLane = n then (s.request n false).setPlyRx plyMirrorWait else s
  let s := if n = 8 then
      let s := { s.setFlag TWF_PLY_STATUS.L8_LOCKED true with
        ply := { s.ply with downTimed := false, lost := s.ply.lost.filter (fun x => !(s.onL8 x)) } }
      if s.plyRx = plyDown then s.setPlyRx (if s.plyLane = noLane then plyIdle else plyMirrorWait) else s
    else s
  s.evalPairing

/-- Lane `n` leaves the fault logic's care: it goes OFF or is retrained by command. -/
def Chip.plyDrop (s : Chip) (n : Nat) : Chip :=
  let s := { s with ply := { s.ply with
    waitRestore := s.ply.waitRestore.filter (fun x => x != n)
    unavail := s.ply.unavail.filter (fun x => x != n)
    lost := s.ply.lost.filter (fun x => x != n) } }
  if n = 8 then s.l8Left else s.evalPairing

/-- Lane `n` no longer has a port (R67): where L8 carries it, L8 is spare again. -/
def Chip.plyRelease (s : Chip) (n : Nat) : Chip :=
  if s.onL8 n ∨ (s.plyRx = plySubstWait ∧ s.plyLane = n) then s.requestNone.plyDrop n else s.plyDrop n

/-! ### Choosing the mirror (R263, R272) -/

/-- The risk of lane `n` in 1/16 units, R263: UNSAT_SLOW and TREND of `CRL_LANE_MARGIN` over the horizon. -/
def Chip.risk (s : Chip) (n : Nat) : Int :=
  let h := s.fld TWF_PLY_THR.HORIZON
  max 0 ((s.fld (CRL_LANE_MARGIN.UNSAT_SLOW n) : Int) + signedOf 16 (s.fld (CRL_LANE_MARGIN.TREND n)) * 10 * h)

/-- The registers `TWF_PLY_RISK`, R275. -/
def Chip.showRisks (s : Chip) : Chip :=
  s.forAll (List.range 8) (fun s n =>
    let e := s.eligible n
    let r := if e then (s.risk n).toNat else 0
    ((s.setFlag (TWF_PLY_RISK.ELIGIBLE n) e).setFlag (TWF_PLY_RISK.ABOVE_FRAY n)
      (e && decide (16 * s.fld TWF_PLY_THR.FRAY_THR ≤ r))).setFld (TWF_PLY_RISK.RISK n) (min r 0xFFFF))

/-- The lane that `choose_mirror` wants, with the lead count (R263); `noLane` for none. -/
def Chip.wantMirror (s : Chip) : Nat × Nat :=
  let cur := s.plyLane
  let el := (List.range 8).filter s.eligible
  let rk := fun n => (s.risk n).toNat
  let pin := s.fld TWF_PLY_CFG.PIN_LANE
  if !(s.plyFitted) || s.plyRx == plyDown then (noLane, s.ply.lead)
  else match s.ply.planned with
  | some n => (if el.contains n then n else noLane, s.ply.lead)
  | none =>
    if s.flag TWF_PLY_CFG.PIN_EN then (if el.contains pin then pin else noLane, s.ply.lead)
    else if !(s.flag TWF_PLY_CFG.AUTO_MIRROR) then (noLane, s.ply.lead)
    else
      let best := (argMax rk el).getD noLane
      if !(el.contains cur) then (best, 0)
      else if best ≠ cur ∧ rk cur + 16 * s.fld TWF_PLY_THR.HYST ≤ rk best then
        (if 10 * max 1 (s.fld TWF_PLY_THR.DWELL) ≤ s.ply.lead + 1 then best else cur, s.ply.lead + 1)
      else (cur, 0)

/-- The mirror moved to a lane, or withdrawn: the request, its count and its event (R263). -/
def Chip.moveMirror (s : Chip) (n : Nat) : Chip :=
  let s := s.request n false
  let s := if s.plyRx = plyDown then s
    else s.setPlyRx (if n = noLane then plyIdle else if s.crl.paired = some n then plyMirror else plyMirrorWait)
  ((s.satInc TWF_PLY_CNT.MIRROR_CNT 1).raise 0x1A8 0).evalPairing

/-- `choose_mirror` of R263 at a window boundary. -/
def Chip.chooseMirror (s : Chip) : Chip :=
  if s.plyRx = plyIdle ∨ s.plyRx = plyMirrorWait ∨ s.plyRx = plyMirror ∨ s.plyRx = plyDown then
    let w := s.wantMirror
    let cur := s.plyLane
    let s := { s with ply := { s.ply with lead := w.2 } }
    if w.1 ≠ cur then s.moveMirror w.1 else s
  else s

/-- SUBST_WAIT has lasted 1 ms (R264). -/
def Chip.substTimeout (s : Chip) : Chip :=
  if s.plyRx = plySubstWait then
    let n := s.plyLane
    let s := s.requestNone.plyUnavailable n
    if s.hnk.hold.contains n && !(s.hnk.spent.contains n) then s else s.retrainHeld n
  else s

end Sys2Proof.Machine
end

