-- ==== Sys2Proof/Machine/LineTx.lean ====
section
/-! DEFINITION. The line transmitters (spec/06): taps and their limits, the tension table's sweeps and swaps, the tap channel's
words in both directions, and the line transmitter commands. -/

namespace Sys2Proof.Machine

/-! ### Taps (R148, R149) -/

/-- The range of each tap, c₋₃ first, R148. -/
def tapRanges : List (Int × Int) :=
  [(-8, 8), (-16, 16), (-40, 0), (56, 128), (-40, 8), (-16, 16), (-12, 12), (-8, 8), (-8, 8)]

/-- The sum of the taps' absolute values. -/
def tapSum (l : List Int) : Int := l.foldl (fun a x => a + x.natAbs) 0

/-- Do nine taps keep to their ranges and to the sum limit (R148)? -/
def tapsOk (l : List Int) : Bool :=
  l.length == 9 && (l.zip tapRanges).all (fun p => decide (p.2.1 ≤ p.1) && decide (p.1 ≤ p.2.2)) && decide (tapSum l ≤ 128)

/-- The presets T0 to T3, R149. -/
def tapPreset : Nat → List Int
  | 0 => [0, 0, 0, 128, 0, 0, 0, 0, 0]
  | 2 => [0, 2, -16, 96, -12, 2, 0, 0, 0]
  | 3 => [0, 4, -24, 84, -12, 4, 0, 0, 0]
  | _ => [0, 0, -8, 112, -8, 0, 0, 0, 0]

/-- The START_PRESET in force: 4 to 15 are treated as 1 (R170). -/
def Chip.startPreset (s : Chip) (n : Nat) : Nat :=
  let p := s.fld (LTX_TX_CFG.START_PRESET n)
  if p < 4 then p else 1

/-- The outcomes of R157. -/
def respUpdated : Nat := 1
def respAtMin : Nat := 2
def respAtMax : Nat := 3
def respSum : Nat := 4
def respNot : Nat := 5
def respFixed : Nat := 6

/-- The outcome of a request on taps, in the order of R159, and the taps after it. Log 81 (DEDUCED). -/
def judgeTaps (accept : Bool) (taps : List Int) (req tap arg : Nat) : Nat × List Int :=
  if !accept then (respFixed, taps)
  else if 8 < tap ∨ req = 0 ∨ 3 < req ∨ (req = 3 ∧ 3 < arg) ∨ (req ≠ 3 ∧ (arg = 0 ∨ 4 < arg)) then (respNot, taps)
  else if req = 3 then (respUpdated, tapPreset arg)
  else
    let v := taps.getD tap 0 + (if req = 1 then (arg : Int) else -(arg : Int))
    let r := tapRanges.getD tap (0, 0)
    let new := taps.set tap v
    if v < r.1 then (respAtMin, taps)
    else if r.2 < v then (respAtMax, taps)
    else if 128 < tapSum new then (respSum, taps)
    else (respUpdated, new)

/-! ### Tap words (R156, R157) -/

/-- A tap word with its CRC-8 over bits [31:8]. -/
def tapWord (body : Nat) : Nat := body % 2 ^ 24 * 256 + crcBits 8 0x07 0 (msbBits 24 body)

/-- Is a tap word's CRC right? -/
def tapWordOk (w : Nat) : Bool := tapWord (w / 256) == w % 2 ^ 32

/-- An idle word. -/
def tapIdle : Nat := tapWord 0xC00000

/-- The word that a REQUEST slot of lane `n` carries (R158, R160, R161); a HOLD word carries TAP 0. Log 81 (DEDUCED). -/
def Chip.requestWord (s : Chip) (n : Nat) : Nat :=
  let t := s.txOf n
  if t.echoWait && s.rxState n != rxHold then
    tapWord (t.reqOut * 2 ^ 18 + t.reqTap * 2 ^ 14 + t.reqArg * 2 ^ 10 + t.seqOut)
  else tapWord t.seqOut

/-- The word that a RESPONSE slot of lane `n` carries (R159). -/
def Chip.responseWord (s : Chip) (n : Nat) : Nat :=
  let t := s.txOf n
  tapWord (2 ^ 22 + t.respOut * 2 ^ 18 + t.respTap * 2 ^ 14 + t.seqIn.getD 0)

/-- The word that a REPORT slot of lane `n` carries with the measured error of its pattern (R157, R161). -/
def Chip.reportWord (s : Chip) (n : Nat) (err : Int) : Nat :=
  let t := s.txOf n
  if s.locked n then
    tapWord (2 ^ 23 + t.reportPos * 2 ^ 14 + unsignedOf 6 (clampInt (-31) 31 err) * 2 ^ 8
      + (Config.firstSweep n + t.reportNo) % 256)
  else tapIdle

/-- The tap byte that lane `n` sends in the frame with number `fn`, and the lane with what the slot's start latches. -/
def Chip.tapByte (s : Chip) (n fn : Nat) (err : Int) : Chip × Nat :=
  let slot := fn % 12 / 4
  let s := if fn % 4 ≠ 0 then s
    else
      let w := if slot = 0 then s.requestWord n else if slot = 1 then s.responseWord n else s.reportWord n err
      let next := slot == 2 && s.locked n
      s.txMod n (fun t => { t with
        txWord := w
        reportPos := if slot ≠ 2 then t.reportPos else if next then (t.reportPos + 1) % 256 else 0
        reportNo := if slot == 2 && (next && t.reportPos == 255 || !next && t.reportPos != 0) then (t.reportNo + 1) % 256
          else t.reportNo })
  (s, (s.txOf n).txWord / 2 ^ (8 * (3 - fn % 4)) % 256)

/-- REQ, TAP and ARG of a request (R157). -/
def tapAskCode : TapAsk → Nat × Nat × Nat
  | .inc t k => (1, t.1, k.1 + 1)
  | .dec t k => (2, t.1, k.1 + 1)
  | .preset p => (3, 0, p.1)

/-- A new request of the local receiver (R158): none while an echo is awaited, after a timeout, or outside Twist framing.
Log 81 (DEDUCED). -/
def Chip.issueRequest (s : Chip) (n : Nat) (q : TapAsk) : Chip :=
  let t := s.txOf n
  if s.laneTwist n && !t.echoWait && !t.onlyHold then
    let seq := (t.seqOut + 1) % 256
    let c := tapAskCode q
    let s := s.txMod n (fun t => { t with seqOut := seq, reqOut := c.1, reqTap := c.2.1, reqArg := c.2.2, echoWait := true })
    (s.setFld (LTX_TAP_CHAN.OUT_SEQ n) seq).setFld (LTX_TAP_CHAN.OUT_REQ n) c.1
  else s

/-- A received tap byte joins its word where its frame number follows that of the byte before; the fourth byte of a slot completes
the word (R156). -/
def LineTx.takeByte (t : LineTx) (fn byte : Nat) (ok : Bool) : LineTx :=
  let k := fn % 4
  let whole := k == 0 || (t.rxWord.length == k && (t.rxFn + 1) % 12 == fn % 12)
  let bytes := if k = 0 then [byte] else t.rxWord ++ [byte]
  let failed := !ok || (k != 0 && t.rxFailed) || !whole
  if k = 3 then
    { t with rxWord := [], rxFailed := false, rxFn := fn
             rxWords := t.rxWords ++ [(fn % 12 / 4, bytes.foldl (fun a b => 256 * a + b) 0 % 2 ^ 32, failed)] }
  else { t with rxWord := bytes, rxFailed := failed, rxFn := fn }

/-! ### The tension table (R146, R147, R151 to R154) -/

/-- Half of a number, rounded half to even. -/
def halfEven (x : Int) : Int :=
  if x % 2 = 0 then x / 2 else if (x / 2) % 2 = 0 then x / 2 else x / 2 + 1

/-- acc × 2 × step, rounded half to even, for a TT_STEP code (R151, R170). -/
def stepDelta (code : Nat) (acc : Int) : Int :=
  if code = 0 then halfEven acc else if code = 1 then acc else 2 * acc

/-- The sweep's state as `LTX_TT_STATUS` shows it. Log 81 (DEDUCED). -/
def Chip.setSweep (s : Chip) (n : Nat) (no : Nat) (w : Option (List Int)) : Chip :=
  let s := s.txMod n (fun t => { t with sweepNo := no, sweep := w })
  (s.setFlag (LTX_TT_STATUS.SWEEP_ACTIVE n) w.isSome).setFld (LTX_TT_STATUS.SWEEP_POS n) ((w.getD []).length)

/-- The table that a whole sweep gives, and whether an entry was clamped (R151). -/
def rebuildTable (active : List (Nat × Int)) (acc : List Int) (code : Nat) : List (Nat × Int) × Bool :=
  (List.range 256).foldl (fun r p =>
    let d := clampInt (-16) 16 (stepDelta code (acc.getD p 0))
    let v := ttGet active p - d
    (tabSet ttNominal r.1 p (clampInt (-512) 511 v), r.2 || decide (v < -512) || decide (511 < v))) ([], false)

/-- A sweep is complete: the shadow copy is computed, and a swap is asked for where TT_FREEZE and TT_SRC are 0 and no host
load is pending (R151, R154). -/
def Chip.sweepDone (s : Chip) (n : Nat) (acc : List Int) : Chip :=
  let s := s.setSweep n (s.txOf n).sweepNo none
  if (s.txOf n).pend.hostLoad then s
  else
    let r := rebuildTable (s.txOf n).active acc (s.fld (LTX_TX_CFG.TT_STEP n))
    let go := s.fld (LTX_TX_CFG.TT_FREEZE n) == 0 && s.fld (LTX_TX_CFG.TT_SRC n) == 0
    s.txMod n (fun t => { t with shadow := r.1, pend := if go then { t.pend with swap := true, clamped := r.2 } else t.pend })

/-- A REPORT slot's word (none where idle or failed), R151; ignored in IEEE framing and while TT_SRC is 1 (R153). -/
def Chip.reportSlot (s : Chip) (n : Nat) (w : Option Nat) : Chip :=
  if !(s.laneTwist n) || s.flag (LTX_TX_CFG.TT_SRC n) then s
  else
    let t := s.txOf n
    match w with
    | none => s.setSweep n t.sweepNo none
    | some w =>
      let pat := bitsOf w 22 8
      let err := signedOf 6 (bitsOf w 16 6)
      let no := bitsOf w 8 8
      let cur := if pat = 0 ∧ 128 ≤ t.since then (no, some []) else (t.sweepNo, t.sweep)
      match cur.2 with
      | none => s.setSweep n cur.1 none
      | some acc =>
        if no ≠ cur.1 ∨ pat ≠ acc.length then s.setSweep n cur.1 none
        else if acc.length = 255 then (s.setSweep n cur.1 none).sweepDone n (acc ++ [err])
        else s.setSweep n cur.1 (some (acc ++ [err]))

/-- A RESPONSE slot's word: the echo of the local receiver's request (R158). -/
def Chip.responseSlot (s : Chip) (n w : Nat) : Chip :=
  let s := s.setFld (LTX_TAP_CHAN.IN_RESP n) (bitsOf w 26 4)
  if (s.txOf n).echoWait && bitsOf w 8 8 == (s.txOf n).seqOut then s.txMod n (fun t => { t with echoWait := false }) else s

/-- A REQUEST slot's word: each SEQ is acted on once, at the next boundary; HOLD asks for nothing (R158, R159).
Log 81 (DEDUCED). -/
def Chip.requestSlot (s : Chip) (n w : Nat) : Chip :=
  let req := bitsOf w 26 4
  let seq := bitsOf w 8 8
  if req = 0 ∨ (s.txOf n).seqIn = some seq then s
  else s.txMod n (fun t => { t with pend := { t.pend with req := some (req, bitsOf w 22 4, bitsOf w 18 4, seq) } })

/-- The oldest whole tap word of lane `n` is assigned to its slot and acted on (R156). -/
def Chip.tapWordRx (s : Chip) (n : Nat) : Chip :=
  match (s.txOf n).rxWords with
  | [] => s
  | (slot, w, bad) :: rest =>
    let s := s.txMod n (fun t => { t with rxWords := rest })
    let ty := bitsOf w 30 2
    let failed := bad || !(tapWordOk w) || (ty != slot && ty != 3)
    if !(s.laneTwist n) then s
    else if failed ∨ ty = 3 then (if slot = 2 then s.reportSlot n none else s)
    else if slot = 0 then s.requestSlot n w
    else if slot = 1 then s.responseSlot n w
    else s.reportSlot n (some w)

/-- TAP_WORD (R151, R156 to R159): a tap word of lane `n` that TWF has received whole. -/
def execTapWord (n : LLane) (s : State) : Host.Outcome State Fault Refusal := chipNext s (fun c => c.tapWordRx n.1)

/-- The taps that wait for the boundary take effect, all nine together: a preset, then a far-end request with its outcome
(R159, R167). Log 81 (DEDUCED). -/
def Chip.tapChange (s : Chip) (n : Nat) : Chip :=
  let p := (s.txOf n).pend
  let s := s.txMod n (fun t => { t with pend := { t.pend with req := none, preset := none } })
  let s := match p.preset with
    | none => s
    | some k => (s.setTxTaps n (tapPreset k)).txMod n (fun t => { t with since := 0 })
  match p.req with
  | none => s
  | some (req, tap, arg, seq) =>
    let r := judgeTaps (s.flag (LTX_TX_CFG.ACCEPT_REQ n)) (s.txTaps n) req tap arg
    let s := if r.1 = respUpdated then (s.setTxTaps n r.2).txMod n (fun t => { t with since := 0 }) else s
    let s := s.txMod n (fun t => { t with seqIn := some seq, respOut := r.1, respTap := tap })
    ((s.setFld (LTX_TAP_CHAN.IN_SEQ n) seq).setFld (LTX_TAP_CHAN.IN_REQ n) req).setFld (LTX_TAP_CHAN.OUT_RESP n) r.1

/-- TAP_CHANGE (R159, R167): the boundary at which pending taps change. -/
def execTapChange (n : LLane) (s : State) : Host.Outcome State Fault Refusal := chipNext s (fun c => c.tapChange n.1)

/-- A pending swap takes place at its boundary (R146, R147, R152). -/
def Chip.ttSwap (s : Chip) (n : Nat) : Chip :=
  let p := (s.txOf n).pend
  if p.swap then
    let s := s.txMod n (fun t => { t with
      active := t.shadow
      since := 0
      swapped := !t.swapped
      pend := { t.pend with swap := false, hostLoad := false, clamped := false } })
    let s := (s.satInc (LTX_TT_STATUS.SWAP_CNT n) 1).setFlag (LTX_TT_STATUS.SRC_LAST n) p.hostLoad
    let s := s.setFlag (LTX_STATUS.TT_AT_LIMIT n) p.clamped
    if p.clamped then (s.setFlag (LTX_FAULT.TT_LIMIT n) true).raise (0x0E0 + n) 0 else s
  else s

/-- TT_SWAP (R146): the boundary at which the two copies of the tension table swap. -/
def execTtSwap (n : LLane) (s : State) : Host.Outcome State Fault Refusal := chipNext s (fun c => c.ttSwap n.1)

/-- A tap request has had no echo for 1 ms (R160). -/
def Chip.tapTimeout (s : Chip) (n : Nat) : Chip :=
  if (s.txOf n).echoWait then
    let s := s.txMod n (fun t => { t with echoWait := false, onlyHold := true })
    (s.setFlag (LTX_FAULT.TAP_TIMEOUT n) true).raise (0x0F0 + n) 0
  else s

/-- TAP_TIMEOUT (R160). -/
def execTapTimeout (n : LLane) (s : State) : Host.Outcome State Fault Refusal := chipNext s (fun c => c.tapTimeout n.1)

/-- An output leg of lane `n` enters or leaves current limiting (R165). -/
def Chip.lineTxShort (s : Chip) (n : Nat) (on : Bool) : Chip :=
  if s.pdOn (7 + n) then
    let s := s.setFlag (LTX_STATUS.SHORT n) on
    let s := s.when on (fun s => s.setFlag (LTX_FAULT.SHORT n) true)
    s.setLevel (0x0D0 + n) on 0
  else s

/-- LINE_TX_SHORT (R165). -/
def execLineTxShort (n : LLane) (on : Bool) (s : State) : Host.Outcome State Fault Refusal :=
  chipNext s (fun c => c.lineTxShort n.1 on)

/-! ### Set-up of a lane (R149, R155) -/

/-- The transmitter of lane `n` set up for a port: its tap channel afresh, and its transmit state from a hank or from the
start preset, which also stands in for taps of a hank beyond the limits of R148 (log 81, DEDUCED). A running generator's enable
clears (R18). Log 81 (DEDUCED). -/
def Chip.setupTx (s : Chip) (n rate : Nat) (hank : Option (List Byte)) : Chip :=
  let s := (s.setFld (LTX_STATUS.RATE n) rate).setFlag (LTX_PAT_GEN.EN n) false
  let s := s.setReg (LTX_TAP_CHAN.addr n) 0
  let s := s.txMod n (fun t => { active := t.active, shadow := t.shadow, swapped := t.swapped })
  let s := s.setSweep n 0 none
  match hank with
  | none => s.setTxTaps n (tapPreset (s.startPreset n))
  | some l =>
    let s := s.setTxTaps n (if tapsOk (tapsOfHank l) then tapsOfHank l else tapPreset (s.startPreset n))
    s.txMod n (fun t => { t with active := tableOfHank l, shadow := tableOfHank l })

/-- Has lane `n` been set up: a port is on it, or it is the populated Ply lane (R163)? -/
def Chip.txSetUp (s : Chip) (n : Nat) : Bool := if n = 8 then s.plyFitted else !((s.portsOn n).isEmpty)

/-- The word of `LTX_STATUS`, with OUT_STATE of R163 and R164. -/
def Chip.ltxStatusWord (s : Chip) (n : Nat) : Word :=
  let st := if !(s.pdOn (7 + n)) then 0
    else if s.flag (LTX_TX_CFG.MUTE n) then 4
    else if s.flag (LTX_PAT_GEN.EN n) then 3
    else if s.txSetUp n then 2
    else 1
  setBits (s.reg (LTX_STATUS.addr n)) 29 3 st

/-- Does TWF build Twist frames for physical lane `n`: it has been set up with Twist framing, and its domain is ON (R163, R217)? MUTE
acts on the output alone (R164). -/
def Chip.sendsFrames (s : Chip) (n : Nat) : Bool :=
  s.pdOn 17 && s.pdOn (7 + n) && s.txSetUp n && s.fld (TWF_LANE_STATUS.FRAMING n) == 1

/-- TWF of lane `n` afresh for a framing (1 Twist, 2 IEEE, 0 none): SCR_OFS is 0, and its frame numbers follow those of the lanes that
run (R210, R259). -/
def Chip.freshFramer (s : Chip) (n framing : Nat) : Chip :=
  let run := (List.range 9).find? (fun m => m != n && s.sendsFrames m)
  let fn := run.elim 0 (fun m => (s.framerOf m).fn)
  let s := s.framerMod n (fun x => { fn := fn, words := x.words })
  (s.setReg (TWF_LANE_STATUS.addr n) 0).setFld (TWF_LANE_STATUS.FRAMING n) framing

/-! ### Writing FW registers by command (R190, R434) -/

/-- A register of domain `d` that a command writes: Krelin keeps the value in the config shadow, and writes it again
whenever the domain reaches ON (R190, R434). Log 85 (DEDUCED). -/
def Chip.fwWrite (s : Chip) (d a : Nat) (v : Word) : Chip :=
  let s := { s with cfg := some { s.shadowNow with fwRegs := tabSet resetWord s.shadowNow.fwRegs a v } }
  if s.pdOn d then s.setReg a v else s

/-! ### Commands (R167, R317) -/

/-- LINE_TX_STATUS (R168): the status registers of a line transmitter. -/
def execLineTxStatus (src : CmdSrc) (s : State) : Host.Outcome State Fault Refusal :=
  chipNext s (fun c => c.krelin src 0x0405 (fun c r =>
    let n := byteAt r.payload 0
    (c, .done (if 8 < n then .fail .badArg
      else .okD (wordBytes [c.ltxStatusWord n, c.reg (LTX_TAPS0.addr n), c.reg (LTX_TAPS1.addr n), c.reg (LTX_TAPS2.addr n),
        c.seen (LTX_TT_STATUS.addr n), c.reg (LTX_TAP_CHAN.addr n)])))))

/-- LINE_TX_CFG: the register value, and the start preset where the request applies it. -/
def Chip.lineTxCfg (s : Chip) (n : Nat) (apply : Bool) (v : Nat) : Chip × Verdict :=
  if 8 < n ∨ bitsOf v 24 8 ≠ 0 ∨ bitsOf v 0 7 ≠ 0 then (s, .done (.fail .badArg))
  else if apply && !(s.pdOn (7 + n)) then (s, .done (.fail .badState))
  else
    let s := s.fwWrite (7 + n) (LTX_TX_CFG.addr n) (BitVec.ofNat 32 v)
    let s := if apply then s.txMod n (fun t => { t with pend := { t.pend with preset := some (s.startPreset n) } }) else s
    (s, .done (.okR []))

/-- LINE_TX_CFG (R167, R317). -/
def execLineTxCfg (src : CmdSrc) (s : State) : Host.Outcome State Fault Refusal :=
  chipNext s (fun c => c.krelin src 0x0406 (fun c r =>
    c.lineTxCfg (byteAt r.payload 0) (bit (byteAt r.payload 1) 0) (arg32 r.payload 4)))

/-- LINE_TX_TABLE: 256 entries from capture memory into the shadow copy, and the swap at the next boundary (R153). -/
def Chip.lineTxTable (s : Chip) (n a : Nat) : Chip × Verdict :=
  if 8 < n ∨ capOk a 512 = false then (s, .done (.fail .badArg))
  else if !(s.pdOn 19) then (s, .done (.fail .badState))
  else
    let r := s.readBytes .capture a 512
    match r.2 with
    | none => (r.1, .done (.fail .badArg))
    | some l =>
      let es := sx16s l 0 256
      if es.any (fun e => decide (e < -512) || decide (511 < e)) then (r.1, .done (.fail .badArg))
      else if !(r.1.pdOn (7 + n)) then (r.1, .done (.fail .badState))
      else
        let t := (List.range 256).foldl (fun t p => tabSet ttNominal t p (es.getD p 0)) []
        let s := r.1.setSweep n (r.1.txOf n).sweepNo none
        (s.txMod n (fun x => { x with shadow := t, since := 0, pend := { x.pend with swap := true, hostLoad := true, clamped := false } }),
         .done (.okR []))

/-- LINE_TX_TABLE (R153, R167). -/
def execLineTxTable (src : CmdSrc) (s : State) : Host.Outcome State Fault Refusal :=
  chipNext s (fun c => c.krelin src 0x0407 (fun c r => c.lineTxTable (byteAt r.payload 0) (arg32 r.payload 4)))

end Sys2Proof.Machine
end

