-- ==== Sys2Proof/Machine/LineRx.lean ====
section
/-! DEFINITION. The line receivers (spec/05): signal detection, calibration, adaptation and SNR windows, lock and loss, the
term sets, and the line receiver commands but LINE_RETRAIN's time limits. -/

namespace Sys2Proof.Machine

/-! ### Acquisition (R121, R122, R130) -/

/-- Lane `n` enters ACQUIRE; after a timeout tap requests are allowed again (R160). A request that has had no echo yet goes on
being sent (R158). -/
def Chip.toAcquire (s : Chip) (n : Nat) : Chip := (s.setRxState n rxAcquire).txMod n (fun t => { t with onlyHold := false })

/-- The page-in of a lane whose live state was lost is queued: its ACTIVE hank, else its LAST_GOOD one (R186). -/
def Chip.pageBack (s : Chip) (n : Nat) : Chip :=
  if s.laneFailed n || !(s.pdOn 18) then s
  else
    match s.activeHank n, s.lastGood n with
    | some i, _ => s.queuePage ⟨n, i, .domainOn⟩
    | none, some i => s.queuePage ⟨n, i, .domainOn⟩
    | none, none => s

/-- The foreground calibration of lane `n` ends: SIGNAL_WAIT, and ACQUIRE at once where the signal is there; a page-in that
waited for it is queued (R121, R185, R186). -/
def Chip.calDone (s : Chip) (n : Nat) : Chip :=
  if s.rxState n = rxCalibrate then
    let s := (s.setFlag (LRX_STATUS.CAL_DONE n) true).setRxState n rxSignalWait
    let s := if s.signal n then s.toAcquire n else s
    let why := (s.rxOf n).afterCal
    let s := s.rxMod n (fun x => { x with afterCal := none })
    match why with
    | some .record => (match s.lastGood n with | some i => s.queuePage ⟨n, i, .record⟩ | none => s)
    | some .domainOn => s.pageBack n
    | _ => s
  else s

/-- FOREGROUND_CALIBRATION_DONE (R121). -/
def execForegroundCalibrationDone (n : LLane) (s : State) : Host.Outcome State Fault Refusal :=
  chipNext s (fun c => c.calDone n.1)

/-- SIGNAL of lane `n` becomes 1 (R122, R130, R133). -/
def Chip.lineSignal (s : Chip) (n : Nat) : Chip :=
  if s.pdOn (7 + n) && !(s.signal n) then
    let s := (s.setFlag (LRX_STATUS.SIGNAL n) true).losLevel n
    let st := s.rxState n
    if st = rxSignalWait then s.toAcquire n
    else if st = rxHold then (s.holdSignalBack n).settle
    else s
  else s

/-- LINE_SIGNAL (R122). -/
def execLineSignal (n : LLane) (s : State) : Host.Outcome State Fault Refusal := chipNext s (fun c => c.lineSignal n.1)

/-- SIGNAL becomes 0 on a lane that is not LOCKED (R125, R130, R133). -/
def Chip.signalLostUnlocked (s : Chip) (n : Nat) : Chip :=
  let st := s.rxState n
  if st = rxHold ∨ (s.rxOf n).window.isSome then ((s.setFlag (LRX_FAULT.LOS n) true).holdSignalLost n).flushWaiting n
  else if st = rxAcquire ∨ st = rxConverge ∨ st = rxFrameSeek then (s.restartLock n).setRxState n rxSignalWait
  else s

/-- SIGNAL of lane `n` becomes 0 (R122, R124). -/
def Chip.lineLos (s : Chip) (n : Nat) : Chip :=
  if s.pdOn (7 + n) && s.signal n then
    let s := (s.setFlag (LRX_STATUS.SIGNAL n) false).losLevel n
    if s.locked n then s.lockLoss [(n, 2)] else (s.signalLostUnlocked n).settle
  else s

/-- The cause code of a loss criterion, R124. -/
def lossCode : LossCause → Nat
  | .los => 1 | .cdr => 2 | .snr => 3 | .frame => 4

/-- The loss criteria met in one CLK_DSP cycle, as lanes with their cause codes; with cause 1, SIGNAL becomes 0. -/
def Chip.lossCycle (c : Chip) (l : List (Nat × Nat)) : Chip :=
  let los := (l.filter (fun p => p.2 == 1 && c.pdOn (7 + p.1))).map (fun p => p.1)
  let held := los.filter (fun n => c.signal n && !(c.locked n))
  let c := c.forAll los (fun c n => (c.setFlag (LRX_STATUS.SIGNAL n) false).losLevel n)
  let c := c.forAll held Chip.signalLostUnlocked
  c.lockLoss ((l.filter (fun p => c.rxState p.1 == rxLocked || c.rxState p.1 == rxHold)).map (fun p => (p.1, 2 ^ p.2)))

/-- The blind adaptation of lane `n` is complete: ACQUIRE goes over into CONVERGE (R121). -/
def Chip.blindDone (s : Chip) (n : Nat) : Chip := if s.rxState n = rxAcquire then s.setRxState n rxConverge else s

/-- BLIND_ADAPTATION_DONE (R121). -/
def execBlindAdaptationDone (n : LLane) (s : State) : Host.Outcome State Fault Refusal :=
  chipNext s (fun c => c.blindDone n.1)

/-! ### Adaptation (R114, R120, R123) -/

/-- The positions (i, j) of the 120 Volterra terms, ordered by i, then by j (R171). -/
def voltTerms : List (Int × Int) :=
  (List.range 15).flatMap (fun i => (List.range (15 - i)).map (fun k => ((i : Int) - 7, ((i + k : Nat) : Int) - 7)))

/-- Does a term run in a term set (spec/05 "Volterra term sets")? -/
def termRuns (set : Nat) (t : Int × Int) : Bool :=
  if set = 0 then false
  else if set = 1 then decide (-3 ≤ t.1) && decide (t.2 ≤ 4)
  else true

/-- The Volterra coefficients after adaptation: those of the terms that do not run are kept (R114). -/
def adaptVolt (set : Nat) (old new : List Int) : List Int :=
  (voltTerms.zip (List.range 120)).map (fun p => if termRuns set p.1 then new.getD p.2 0 else old.getD p.2 0)

/-- Do 16 consecutive frequency estimates, newest first, lie within ±2 ppm of the first (R123)? Log 76 (DEDUCED). -/
def freqSteady (l : List Int) : Bool :=
  l.length == 16 && l.all (fun f => decide ((f - l.getLastD 0).natAbs < 200))

/-- A window of 2^16 symbols ends on lane `n`: the loops that its state does not hold take their new values, CDR_LOCK is set
once the frequency is steady, and a tap request is issued (R120, R123, R158). -/
def Chip.adaptWindow (s : Chip) (n : Nat) (a : AdaptIn) : Chip :=
  let st := s.rxState n
  if st < rxAcquire then s
  else if st = rxHold then
    if s.signal n then (s.rxMod n (fun x => { x with live := { x.live with phase := a.phase } })).showLive n else s
  else
    let set := s.fld (LRX_STATUS.VOLT_SET n)
    let sig := s.signal n
    let s := s.rxMod n (fun x => { x with
      live := { x.live with
        ffe := a.ffe
        volt := adaptVolt set x.live.volt a.volt
        targets := a.targets
        np := a.np
        gain := if sig then a.gain else x.live.gain
        freq := if sig then a.freq else x.live.freq
        phase := if sig then a.phase else x.live.phase }
      freqs := if sig then (a.freq :: x.freqs).take 16 else x.freqs })
    let s := s.showLive n
    let s := if sig && freqSteady (s.rxOf n).freqs && decide (st < rxLocked) then
        (s.setFlag (LRX_STATUS.CDR_LOCK n) true).rxMod n (fun x => { x with everCdr := true })
      else s
    match a.ask with
    | none => s
    | some q => if st < rxConverge then s else s.issueRequest n q

/-- ADAPTATION_WINDOW (R120, R123): the end of a window of 2^16 line symbols. -/
def execAdaptationWindow (n : LLane) (a : AdaptIn) (s : State) : Host.Outcome State Fault Refusal :=
  chipNext s (fun c => c.adaptWindow n.1 a)

/-- A background calibration update of lane `n`: one correction moves by at most one step and is held at the end of its
range, which sets AT_LIMIT, the fault and the event (R112, R113). Log 77 (DEDUCED). -/
def Chip.adcUpdate (s : Chip) (n : Nat) (a : AdcIn) : Chip :=
  if s.signal n && decide (rxAcquire ≤ s.rxState n) && decide (s.rxState n ≠ rxHold) then
    let all := adcAll (s.rxOf n).live.adc
    let c := all.getD a.sub.1 (0, 0, 0)
    let v := clampInt (-adcEnd a.loop) (adcEnd a.loop) (adcGet a.loop c + clampInt (-1) 1 a.step)
    let all := all.set a.sub.1 (adcPut a.loop c v)
    let s := s.setLive n { (s.rxOf n).live with adc := all }
    ((s.setFld (LRX_ADC_CAL.OFFSET_RES n) a.offsetRes).setFld (LRX_ADC_CAL.GAIN_RES n) a.gainRes).setFld
      (LRX_ADC_CAL.SKEW_RES n) a.skewRes
  else s

/-- ADC_CAL_UPDATE (R112, R113). -/
def execAdcCalUpdate (n : LLane) (a : AdcIn) (s : State) : Host.Outcome State Fault Refusal :=
  chipNext s (fun c => c.adcUpdate n.1 a)

/-- The LLR scale after an update towards a measured value: at most 1/16 of its value away; a receiver without a scale yet
takes the measured one (R118). Log 76 (DEDUCED). -/
def llrNext (old t : Nat) : Nat := if old = 0 then t else clampNat (old - old / 16) (old + old / 16) t

/-- The LLR scale of lane `n` is adapted, save in HOLD (R118, R120). -/
def Chip.llrUpdate (s : Chip) (n t : Nat) : Chip :=
  if rxAcquire ≤ s.rxState n ∧ s.rxState n ≠ rxHold then
    s.rxMod n (fun x => { x with live := { x.live with llrScale := llrNext x.live.llrScale t } })
  else s

/-- LLR_SCALE_UPDATE (R118): `t` is the scale that the measured SNR asks for. -/
def execLlrScaleUpdate (n : LLane) (t : Fin 65536) (s : State) : Host.Outcome State Fault Refusal :=
  chipNext s (fun c => c.llrUpdate n.1 t.1)

/-! ### SNR windows (R123, R124, R128, R129, R139, R141) -/

/-- The mean of windows in 1/256 dB. -/
def snrMean (l : List Nat) : Nat :=
  let sum := 64 * l.foldl (· + ·) 0
  sum / l.length + b2n (sum % l.length != 0 && Config.meanUp sum l.length)

/-- LOCK_THR and LOSS_THR in use in 1/256 dB, and the level of R128. -/
def Chip.lockThr (s : Chip) (n : Nat) : Nat := 64 * (s.rxOf n).lockUse
def Chip.lossThr (s : Chip) (n : Nat) : Nat := 64 * (s.rxOf n).lossUse
def Chip.warnThr (s : Chip) (n : Nat) : Nat := s.lossThr n + 64 * (s.rxOf n).warnUse

/-- SNR_AVG as it stands. Log 19 (DESIGN CHOICE). -/
def Chip.snrAvg (s : Chip) (n : Nat) : Nat := s.fld (LRX_SNR.SNR_AVG n)

/-- MARGIN_LOW of a LOCKED lane follows SNR_AVG with its hysteresis (R128). -/
def Chip.marginLow (s : Chip) (n : Nat) : Chip :=
  let avg := s.snrAvg n
  if avg < s.warnThr n then (s.setFlag (LRX_STATUS.MARGIN_LOW n) true).setLevel (0x090 + n) true 0
  else if s.warnThr n + 128 ≤ avg then (s.setFlag (LRX_STATUS.MARGIN_LOW n) false).setLevel (0x090 + n) false 0
  else s

/-- The thresholds of `LRX_RX_CFG` come into use (R127). -/
def Chip.takeThresholds (s : Chip) (n : Nat) : Chip :=
  s.rxMod n (fun x => { x with
    lockUse := s.fld (LRX_RX_CFG.LOCK_THR n), lossUse := s.fld (LRX_RX_CFG.LOSS_THR n), warnUse := s.fld (LRX_RX_CFG.MARGIN_WARN n) })

/-- An SNR window of lane `n` completes with an SNR in 0.25 dB units: it is the next window at which a change of `LRX_RX_CFG`
takes effect. Log 76 (DEDUCED). -/
def Chip.snrWindow (s : Chip) (n snr : Nat) : Chip :=
  let st := s.rxState n
  if st < rxAcquire then s
  else
    let s := (s.takeThresholds n).rxMod n (fun x => { x with
      snrs := (snr :: x.snrs).take 256
      snrAbove := if x.lockUse ≤ snr then min 16 (x.snrAbove + 1) else 0
      snrBelow := if snr < x.lossUse then min 17 (x.snrBelow + 1) else 0 })
    let x := s.rxOf n
    let s := s.setFld (LRX_STATUS.RX_SNR n) (if x.everCdr then snr else 0)
    let s := s.setFld (LRX_SNR.SNR_AVG n) (snrMean x.snrs)
    if st = rxLocked then
      let s := s.marginLow n
      let s := if s.snrAvg n < s.lockThr n then s.clearGood n else s
      if 16 ≤ x.snrBelow then s.lockLoss [(n, 8)] else s
    else if st = rxHold then (if x.snrBelow = 16 then s.lossFaults n 8 else s)
    else if (st = rxConverge ∨ st = rxFrameSeek) ∧ x.snrAbove = 16 then
      (s.setFlag (LRX_STATUS.EQ_CONV n) true).setRxState n rxFrameSeek
    else s

/-- SNR_WINDOW (R119, R123, R124, R127 to R129, R141): the end of a window of 4096 symbols with its SNR in 0.25 dB units. -/
def execSnrWindow (n : LLane) (snr : Fin 256) (s : State) : Host.Outcome State Fault Refusal :=
  chipNext s (fun c => c.snrWindow n.1 snr.1)

/-! ### LOCKED and GOOD (R123, R129) -/

/-- LINE_RETRAIN or HANK_LOAD of a lane that has locked completes (R316); the result is `LRX_STATUS`. -/
def Chip.endRetrain (s : Chip) (n : Nat) (st : Status) : Chip :=
  s.endWait (fun w => decide (w = .lineRetrain n))
    { status := st, result := leBytes 4 (s.reg (LRX_STATUS.addr n)).toNat }

/-- Do all the lock criteria of R123 hold on lane `n`? CDR_LOCK and EQ_CONV stand from when their criterion was met.
Log 76 (DEDUCED). -/
def Chip.lockCriteria (s : Chip) (n : Nat) : Bool :=
  s.signal n && s.flag (LRX_STATUS.CDR_LOCK n) && s.flag (LRX_STATUS.EQ_CONV n) && s.flag (LRX_STATUS.FRAME_LOCK n)

/-- In IEEE framing the inner-FEC alignment lock of lane `n` comes with its lock (R219). Log 82 (DEDUCED). -/
def Chip.ieeeAlign (s : Chip) (n : Nat) : Chip :=
  if s.fld (TWF_LANE_STATUS.FRAMING n) = 2 ∧ rxAcquire ≤ s.rxState n ∧ s.rxState n < rxLocked then
    ((s.setFlag (LRX_STATUS.FRAME_LOCK n) true).setFlag (TWF_LANE_STATUS.FRAME_LOCK n) true).setFlag (TWF_LANE_STATUS.SEEK n) false
  else s

/-- Lane `n` enters LOCKED (R123, R140, R191, R264). -/
def Chip.lineLocked (s : Chip) (n : Nat) : Chip :=
  let s := s.ieeeAlign n
  let st := s.rxState n
  if s.lockCriteria n && decide (rxAcquire ≤ st) && decide (st < rxLocked) then
    let x := s.rxOf n
    let s := if x.window.isSome then
        let s := s.satInc (LRX_LOCK_CNT.RESTORE_CNT n) 1
        if s.hnk.hold.contains n then s.setOutcome n 1 else s
      else if x.retrain then s.satInc (LRX_LOCK_CNT.RETRAIN_CNT n) 1
      else s
    let s := s.rxMod n (fun x => { x with window := none, retrain := false, wasLocked := true, snrBelow := 0 })
    let s := (s.setRxState n rxLocked).raise (0x080 + n) 0
    let s := (s.leaveHold n).endRetrain n .ok
    ((s.plyLocked n).flushWaiting n).settle
  else s

/-- Lane `n` has been LOCKED with margin for 100 ms: GOOD, and a last-good snapshot (R129, R177). -/
def Chip.goodSet (s : Chip) (n : Nat) : Chip :=
  if s.locked n && decide (s.lockThr n + 256 ≤ s.snrAvg n) && !(s.flag (LRX_STATUS.GOOD n)) then
    (s.setFlag (LRX_STATUS.GOOD n) true).snapshot n
  else s

/-- GOOD_SET (R129, R177). -/
def execGoodSet (n : LLane) (s : State) : Host.Outcome State Fault Refusal := chipNext s (fun c => c.goodSet n.1)

/-! ### Term sets (R115, R116) -/

/-- One step of the term set of lane `n`, where one is due (R115, R138): down below VOLT_MAX in every state; down for the
thermal request while LOCKED with SNR to spare and drops not refused; up towards what limit and request allow, for a
set that the thermal logic lowered only while LOCKED. Log 78 (DEDUCED). -/
def Chip.voltStep (s : Chip) (n : Nat) : Chip :=
  if s.rxState n = rxOff then s
  else
    let v := s.fld (LRX_STATUS.VOLT_SET n)
    let x := s.rxOf n
    let s := s.rxMod n (fun x => { x with dropFrom := none, stepped := false })
    if s.voltLimit n < v then s.setVolt n (v - 1)
    else if s.voltTarget n < v then
      if s.locked n && !x.refuse && decide (s.lockThr n + 512 ≤ s.snrAvg n) then
        (s.setVolt n (v - 1)).rxMod n (fun x => { x with dropFrom := some v, thermLow := true })
      else s
    else if v < s.voltTarget n ∧ (x.thermLow = false ∨ s.locked n = true) then
      (s.setVolt n (v + 1)).rxMod n (fun x => { x with thermLow := x.thermLow && decide (v + 1 < s.voltLimit n) })
    else s

/-- VOLT_STEP (R114, R115): the moment, at least 1 ms after the last one, at which a step is due. -/
def execVoltStep (n : LLane) (s : State) : Host.Outcome State Fault Refusal := chipNext s (fun c => c.voltStep n.1)

/-- SNR_AVG falls below LOCK_THR + 1.0 dB within 1 ms of a thermal drop: the term set returns, as far as VOLT_MAX allows (R115), and
thermal drops are refused until the request is withdrawn (R116). Log 78 (DEDUCED). -/
def Chip.voltReturn (s : Chip) (n : Nat) : Chip :=
  match (s.rxOf n).dropFrom with
  | none => s
  | some v =>
    if s.snrAvg n < s.lockThr n + 256 then
      let set := min v (s.voltLimit n)
      let s := if set = s.fld (LRX_STATUS.VOLT_SET n) then s else s.setVolt n set
      s.rxMod n (fun x => { x with dropFrom := none, refuse := true })
    else s

/-- VOLT_RETURN (R116). -/
def execVoltReturn (n : LLane) (s : State) : Host.Outcome State Fault Refusal := chipNext s (fun c => c.voltReturn n.1)

/-- The thermal logic's request to the receiver of lane `n`: a term set, or none (R115, R116). A drop that comes while the
lane is not LOCKED is not queued; a withdrawal ends the refusal. Log 78 (DEDUCED). -/
def Chip.thermalVolt (s : Chip) (n : Nat) (req : Option Nat) : Chip :=
  match req with
  | none => s.rxMod n (fun x => { x with thermal := none, refuse := false })
  | some t =>
    if s.locked n || decide (s.fld (LRX_STATUS.VOLT_SET n) ≤ t) then s.rxMod n (fun x => { x with thermal := some t }) else s

/-! ### Restore windows (R132, R185) -/

/-- A running ADD_PORT counts lane `n` among those that retrained, no longer among those restored (R185, R313). -/
def Chip.noteRetrained (s : Chip) (n : Nat) : Chip :=
  let move := fun (e : ExecCmd) => match e.wait with
    | .addPort p a b => if bit a n then { e with wait := .addPort p (clrBitN a n) (setBitN b n) } else e
    | _ => e
  { s with mbx := { s.mbx with exec := s.mbx.exec.map move } }

/-- The restore window of lane `n` ends without LOCKED (R132): the failure is reported, and a lane set up from its record
releases the hank and retrains (R185). -/
def Chip.windowExpiry (s : Chip) (n : Nat) : Chip :=
  match (s.rxOf n).window with
  | none => s
  | some why =>
    let s := (s.setFlag (LRX_FAULT.RESTORE_FAIL n) true).closeWindow n
    let s := if why = .record then ((s.dropLastGood n).noteRetrained n).retrain n else s.restoreFailed n
    (s.flushWaiting n).settle

/-! ### Commands (R126, R137 to R139, R316) -/

/-- The word of `LRX_SNR`: SNR_AVG beside copies of the thresholds (R141). Log 79 (DEDUCED). -/
def Chip.lrxSnrWord (s : Chip) (n : Nat) : Word :=
  setBits (setBits (s.reg (LRX_SNR.addr n)) 8 8 (s.fld (LRX_RX_CFG.LOCK_THR n))) 0 8 (s.fld (LRX_RX_CFG.LOSS_THR n))

/-- LINE_RX_STATUS (R139): the status registers of a line receiver. -/
def execLineRxStatus (src : CmdSrc) (s : State) : Host.Outcome State Fault Refusal :=
  chipNext s (fun c => c.krelin src 0x0401 (fun c r =>
    let n := byteAt r.payload 0
    (c, .done (if 8 < n then .fail .badArg
      else .okD (wordBytes [c.reg (LRX_STATUS.addr n), c.lrxSnrWord n, c.reg (LRX_CDR.addr n),
        c.seen (LRX_LOCK_CNT.addr n), c.reg (LRX_ADC_CAL.addr n)])))))

/-- The word of `LRX_RX_CFG` with these fields (R142). -/
def rxCfgWord (lock loss warn bw volt : Nat) : Word :=
  BitVec.ofNat 32 (lock * 2 ^ 24 + loss * 2 ^ 16 + warn * 2 ^ 12 + bw * 2 ^ 10 + volt * 2 ^ 8)

/-- A term set above a limit that has just been lowered falls at once, unless the last step is less than 1 ms old (R115, R138). -/
def Chip.voltFall (s : Chip) (n : Nat) : Chip :=
  if s.voltLimit n < s.fld (LRX_STATUS.VOLT_SET n) ∧ (s.rxOf n).stepped = false then s.voltStep n else s

/-- LINE_RX_CFG: the fields in range and LOCK_THR at least 0.5 dB above LOSS_THR (R126); a term set above the new limit
starts to fall at once (R138). Log 78 (DEDUCED). -/
def Chip.lineRxCfg (s : Chip) (l : List Byte) : Chip × Verdict :=
  let b := byteAt l
  let thr := fun x => decide (24 ≤ x) && decide (x ≤ 120)
  if 8 < b 0 ∨ 15 < b 3 ∨ 3 < b 4 ∨ 2 < b 5 ∨ thr (b 1) = false ∨ thr (b 2) = false ∨ b 1 < b 2 + 2 then
    (s, .done (.fail .badArg))
  else
    let n := b 0
    let s := s.fwWrite (7 + n) (LRX_RX_CFG.addr n) (rxCfgWord (b 1) (b 2) (b 3) (b 4) (b 5))
    (s.voltFall n, .done (.okR []))

/-- LINE_RX_CFG (R126, R127, R138, R143). -/
def execLineRxCfg (src : CmdSrc) (s : State) : Host.Outcome State Fault Refusal :=
  chipNext s (fun c => c.krelin src 0x0402 (fun c r => c.lineRxCfg r.payload))

/-- Does line lane `n` carry a port now (R138, R189)? -/
def Chip.carriesPort (s : Chip) (n : Nat) : Bool :=
  match s.logical n with
  | none => false
  | some k => !((s.portsOn k).isEmpty)

/-- LINE_RETRAIN: the lane's live state is discarded and it retrains (R138). -/
def Chip.lineRetrain (s : Chip) (n : Nat) : Chip × Verdict :=
  if 8 < n then (s, .done (.fail .badArg))
  else if !(s.carriesPort n) || s.onL8 n || !(s.pdOn (7 + n)) then (s, .done (.fail .badState))
  else
    let s := (s.withdrawPages n).retrain n
    (((s.plyDrop n).flushWaiting n).settle, .runs (.lineRetrain n))

/-- LINE_RETRAIN (R130, R138, R316). -/
def execLineRetrain (src : CmdSrc) (s : State) : Host.Outcome State Fault Refusal :=
  chipNext s (fun c => c.krelin src 0x0403 (fun c r => c.lineRetrain (byteAt r.payload 0)))

/-- LINE_CAPTURE: one capture engine for each lane (R137, R310, R311, R316). Log 80 (DEDUCED). -/
def Chip.lineCapture (s : Chip) (r : Req) : Chip × Verdict :=
  let b := byteAt r.payload
  let a := arg32 r.payload 4
  let len := arg32 r.payload 8
  let wait := arg16 r.payload 12
  if 8 < b 0 ∨ 2 < b 1 ∨ 1 < b 2 ∨ capOk a len = false ∨ len % 8 ≠ 0 ∨ len < 64 ∨ 2097152 < len ∨
      (b 2 = 1 ∧ (wait = 0 ∨ 60000 < wait)) then (s, .done (.fail .badArg))
  else if !(s.pdOn (7 + b 0)) || !(s.pdOn 19) then (s, .done (.fail .badState))
  else if (s.rxOf (b 0)).capture.isSome then (s, .done (.fail .busy))
  else (s.rxMod (b 0) (fun x => { x with capture := some ⟨b 1, b 2, a, len, r.src, b 2 == 0⟩ }), .runs (.capture (b 0)))

/-- LINE_CAPTURE (R137, R316). -/
def execLineCapture (src : CmdSrc) (s : State) : Host.Outcome State Fault Refusal :=
  chipNext s (fun c => c.krelin src 0x0404 (fun c r => c.lineCapture r))

/-- The first granule after the trigger of a capture: its start, or the first one behind the quarter that precedes the
trigger (R137, R316). Log 80 (DEDUCED). -/
def Capture.after (c : Capture) : Nat := if c.trigger = 0 then c.addr else c.addr + 8 * ((c.len / 4 + 7) / 8)

/-- A list cut or filled with zeros to `n` bytes. -/
def fitBytes (n : Nat) (l : List Byte) : List Byte := l.take n ++ zeros (n - l.length)

/-- A reliability in 5 bits at the scale `s` (in units of 2^-12): L × s rounded and clamped to -15 to +15, and +1 or -1 by the best
path where it rounds to 0 (R117); a tie between two integers is broken by a free choice. Log 139 (DESIGN CHOICE). -/
def llrOf (s : Nat) (x : LlrIn) : Int :=
  let v := x.l * s
  let u := 2 ^ 28
  let r := v % u
  let q := v / u + (if 2 * r < u then 0 else if u < 2 * r then 1 else if Config.llrUp v then 1 else 0)
  if q = 0 then (if x.one then -1 else 1) else clampInt (-15) 15 q

/-- The soft symbol of lane `n`'s receiver (R117, R118). -/
def Chip.softOf (s : Chip) (n : Nat) (p : LlrIn × LlrIn) : Int × Int :=
  let k := (s.rxOf n).live.llrScale
  (llrOf k p.1, llrOf k p.2)

/-- The native word of four soft symbols, the first in time in its highest 10 bits (R119). -/
def nativeWord (l : List (Int × Int)) : Nat :=
  (List.range 4).foldl (fun w k => let p := l.getD k (0, 0); w * 2 ^ 10 + unsignedOf 5 p.1 * 2 ^ 5 + unsignedOf 5 p.2) 0

/-- The native word that lane `n`'s receiver gives for four symbols, with its valid flag; in HOLD an erasure word, flag 0
(R117, R119). -/
def Chip.rxWord (s : Chip) (n : Nat) (l : List (LlrIn × LlrIn)) : Nat × Bool :=
  if s.rxState n = rxHold then (0, false) else (nativeWord (l.map (s.softOf n)), true)

/-- The bytes of raw ADC codes in time order: blocks of 256, with sample j of sub-ADC k in byte 4k + j, each code sign-extended
(R397). -/
def adcBytes (l : List (BitVec 7)) : List Byte :=
  (List.range (l.length / 256)).flatMap (fun b => (List.range 256).map (fun i => (l.getD (256 * b + 64 * (i % 4) + i / 4) 0).signExtend 8))

/-- What the tap of a capture gave, as bytes: words of 40 bits packed densely (R137, R387, R397). -/
def Chip.tapBytes (s : Chip) (n tap : Nat) (d : TapData) : List Byte :=
  if tap = 0 then adcBytes d.codes
  else if tap = 1 then d.words.flatMap (fun w => leBytes 5 w.toNat)
  else d.llrs.flatMap (fun g => leBytes 5 (g.elim 0 (fun l => nativeWord (l.map (s.softOf n)))))

/-- The capture of lane `n` ends with what the tap gave, or by its time limit with nothing written (R316); its DMA request line asserts
(R389). Log 80 (DEDUCED). -/
def Chip.captureEnd (s : Chip) (n : Nat) (d : TapData) : Chip :=
  let done := fun (s : Chip) (y : Reply) => s.endWait (fun w => decide (w = .capture n)) y
  match (s.rxOf n).capture with
  | none => done s (.fail .timeout)
  | some c =>
    let s := s.rxMod n (fun x => { x with capture := none })
    if c.triggered then
      let s := if s.pdOn 19 then s.writeBytes .capture c.addr (fitBytes c.len (s.tapBytes n c.tap d)) else s
      done (s.dmaLine n) (.okR (leBytes 4 c.after ++ leBytes 4 c.len))
    else done (s.dmaLine n) (.fail .timeout)

/-- CAPTURE_END (R316, R389): the end of the capture of lane `n`, with what its tap gave. -/
def execCaptureEnd (n : LLane) (data : TapData) (s : State) : Host.Outcome State Fault Refusal :=
  chipNext s (fun c => c.captureEnd n.1 data)

end Sys2Proof.Machine
end

