-- ==== Sys2Proof/Machine/HankRows.lean ====
section
/-! DEFINITION. The commands of the hank engine (spec/07 R177 to R192, spec/12 R318): snapshots, checkpoints, page-ins and the
hank commands. -/

namespace Sys2Proof.Machine

/-! ### Snapshots and checkpoints (R177, R178) -/

/-- SNAPSHOT (R177): a last-good snapshot of lane `n` falls due. -/
def execSnapshot (n : LLane) (s : State) : Host.Outcome State Fault Refusal := chipNext s (fun c => c.snapshot n.1)

/-- SNAPSHOT_GUARD_END (R177, R179): the guard of lane `n`'s snapshot ends with GOOD still 1. -/
def execSnapshotGuardEnd (n : LLane) (s : State) : Host.Outcome State Fault Refusal :=
  chipNext s (fun c => c.commitSnapshot n.1)

/-- CHECKPOINT (R178): an active checkpoint of lane `n` falls due. -/
def execCheckpoint (n : LLane) (s : State) : Host.Outcome State Fault Refusal := chipNext s (fun c => c.checkpoint n.1)

/-- CHECKPOINT_COMMIT (R178). -/
def execCheckpointCommit (n : LLane) (s : State) : Host.Outcome State Fault Refusal :=
  chipNext s (fun c => c.commitCheckpoint n.1)

/-! ### Page-ins (R180 to R186) -/

/-- PAGE_IN_START (R180, R183): a channel is free and the oldest request starts. -/
def execPageInStart (s : State) : Host.Outcome State Fault Refusal := chipNext s Chip.startPage

/-- A lane in HOLD whose page-in in flight has ended without being its restore: the restore is queued, where the engine still
may make one (R182). -/
def Chip.afterFlight (s : Chip) (n : Nat) : Chip :=
  if s.hnk.hold.contains n && !(s.hnk.spent.contains n) && s.signal n then
    if s.mayPage n then s.queueRestore n else s.noRestore n
  else s

/-- A page-in was abandoned before its swap (R181). -/
def Chip.pageAbandoned (s : Chip) (r : PageReq) : Chip :=
  match r.why with
  | .restore => s.restoreFailed r.lane
  | .record => ((s.dropLastGood r.lane).noteRetrained r.lane).retrain r.lane
  | .domainOn => s.pageBack r.lane
  | .load => (s.endWait (fun w => decide (w = .hankLoad r.lane)) (.fail .partly)).afterFlight r.lane

/-- The swap of a page-in and what it starts (R132, R134, R180, R182). -/
def Chip.pageSwap (s : Chip) (r : PageReq) (l : List Byte) : Chip :=
  let n := r.lane
  let s := s.raise (0x100 + n) 0
  let serves := s.hnk.hold.contains n && decide (s.lastGood n = some r.slot)
  let was := s.locked n
  let s := if s.pdOn (7 + n) && decide (s.rxState n ≠ rxOff) then s.swapIn n (if serves then .restore else r.why) l else s
  let s := if was then s.plyDrop n else s
  let s := if r.why = .load then
      s.endWait (fun w => decide (w = .hankLoad n)) (.okR [BitVec.ofNat 8 (s.fld (HNK_LANE_STATUS.OUTCOME n))])
    else s
  let s := if r.why ≠ .restore ∧ serves = false then s.afterFlight n else s
  s.offIfUnused n

/-- A page-in into lane `n` has gone through its source: it swaps, or is abandoned under R181. Log 83 (DEDUCED). -/
def Chip.pageDone (s : Chip) (n : Nat) : Chip :=
  match s.inFlight n with
  | none => s
  | some r =>
    let s := { s with hnk := { s.hnk with chans := s.hnk.chans.erase r } }
    let x := s.hankSlot r.slot
    let s := s.unbusy r.slot
    let s := if x.st = .free then s.pageAbandoned r
      else if x.st = .bad then s.pageAbandoned r
      else
        let q := s.readHank r.slot
        match q.2 with
        | none => (q.1.markBad r.slot).pageAbandoned r
        | some l =>
          if !(hankSound l) then (q.1.markBad r.slot).pageAbandoned r
          else if hankPhys l ≠ n then q.1.pageAbandoned r
          else q.1.pageSwap r l
    ((s.offIfUnused n).flushWaiting n).settle

/-! ### The hank commands (R189, R190, R318) -/

/-- HANK_POLICY (R190): writes `HNK_CFG`, or `HNK_LANE_CFG` of a lane, whose reserved bits read 0. -/
def execHankPolicy (src : CmdSrc) (s : State) : Host.Outcome State Fault Refusal :=
  chipNext s (fun c => c.krelin src 0x0501 (fun c r =>
    let n := byteAt r.payload 0
    let v := arg32 r.payload 4
    if n = 0xFF then (c.fwWrite 18 HNK_CFG.addr (BitVec.ofNat 32 v), .done (.okR []))
    else if 8 < n then (c, .done (.fail .badArg))
    else (c.fwWrite 18 (HNK_LANE_CFG.addr n) (BitVec.ofNat 32 (v % 32)), .done (.okR []))))

/-- HANK_STATUS (R190, R191). -/
def execHankStatus (src : CmdSrc) (s : State) : Host.Outcome State Fault Refusal :=
  chipNext s (fun c => c.krelin src 0x0502 (fun c r =>
    let n := byteAt r.payload 0
    (c, .done (if 8 < n then .fail .badArg else .okR (wordBytes [c.hankStoreWord, c.hankLaneWord n])))))

/-- HANK_READ: one slot into capture memory (R174, R310, R311). -/
def Chip.hankReadCmd (s : Chip) (slot a : Nat) : Chip × Verdict :=
  if hankSlots ≤ slot ∨ capOk a 2048 = false then (s, .done (.fail .badArg))
  else if !(s.pdOn 19) || !(s.pdOn 18) || decide ((s.hankSlot slot).st ≠ .held) then (s, .done (.fail .badState))
  else
    let q := s.readHank slot
    match q.2 with
    | none => (q.1.markBad slot, .done (.fail .badState))
    | some l => ((q.1.touchSlot slot).writeBytes .capture a l, .done (.okR []))

/-- HANK_READ. -/
def execHankRead (src : CmdSrc) (s : State) : Host.Outcome State Fault Refusal :=
  chipNext s (fun c => c.krelin src 0x0503 (fun c r => c.hankReadCmd (arg16 r.payload 0) (arg32 r.payload 4)))

/-- A hank with KIND 2 and its CRC-32 made anew (R318). -/
def rekind (l : List Byte) : List Byte := sealHank ((l.set 3 2).take 0x7FC)

/-- HANK_WRITE: a hank from capture memory into a slot (R189, R311, R318). Log 85 (DEDUCED). -/
def Chip.hankWriteCmd (s : Chip) (keep : Bool) (a : Nat) : Chip × Verdict :=
  if capOk a 2048 = false then (s, .done (.fail .badArg))
  else if !(s.pdOn 19) || !(s.pdOn 18) then (s, .done (.fail .badState))
  else
    let q := s.readBytes .capture a 2048
    match q.2 with
    | none => (q.1, .done (.fail .badArg))
    | some l =>
      let n := hankPhys l
      if !(hankSound l) ∨ 8 < n ∨ 7 < hankLogical l ∨ 1 < hankRate l then (q.1, .done (.fail .badArg))
      else if keep = true ∧ q.1.keepMax n ≤ q.1.keeps n then (q.1, .done (.fail .badState))
      else
        match q.1.writeHank (rekind l) with
        | none => (q.1, .done (.fail .badState))
        | some (s, i) =>
          ((s.unbusy i).hankSlotMod i (fun x => { x with keep := keep }), .done (.okR (leBytes 2 i)))

/-- HANK_WRITE. -/
def execHankWrite (src : CmdSrc) (s : State) : Host.Outcome State Fault Refusal :=
  chipNext s (fun c => c.krelin src 0x0504 (fun c r => c.hankWriteCmd (bit (byteAt r.payload 0) 0) (arg32 r.payload 4)))

/-- HANK_PIN: a KEEP pin (R189, R192, R318). -/
def Chip.hankPinCmd (s : Chip) (slot : Nat) : Chip × Verdict :=
  let x := s.hankSlot slot
  if hankSlots ≤ slot then (s, .done (.fail .badArg))
  else if !(s.pdOn 18) || decide (x.st ≠ .held) then (s, .done (.fail .badState))
  else if x.keep then (s, .done (.okR []))
  else if s.keepMax x.lane ≤ s.keeps x.lane then (s, .done (.fail .badState))
  else (s.hankSlotMod slot (fun x => { x with keep := true }), .done (.okR []))

/-- HANK_PIN. -/
def execHankPin (src : CmdSrc) (s : State) : Host.Outcome State Fault Refusal :=
  chipNext s (fun c => c.krelin src 0x0505 (fun c r => c.hankPinCmd (arg16 r.payload 0)))

/-- HANK_UNPIN: a KEEP pin released. -/
def Chip.hankUnpinCmd (s : Chip) (slot : Nat) : Chip × Verdict :=
  if hankSlots ≤ slot then (s, .done (.fail .badArg))
  else if !(s.hankSlot slot).keep then (s, .done (.fail .badState))
  else (s.hankSlotMod slot (fun x => { x with keep := false }), .done (.okR []))

/-- HANK_UNPIN. -/
def execHankUnpin (src : CmdSrc) (s : State) : Host.Outcome State Fault Refusal :=
  chipNext s (fun c => c.krelin src 0x0506 (fun c r => c.hankUnpinCmd (arg16 r.payload 0)))

/-- Is a port on what physical lane `n` carries UP (R189)? -/
def Chip.laneUp (s : Chip) (n : Nat) : Bool :=
  match s.logical n with
  | none => false
  | some k => (s.portsOn k).any (fun p => decide ((s.port p).st = .up))

/-- The mode of the port that physical lane `n` carries. -/
def Chip.carriedMode (s : Chip) (n : Nat) : Nat := (s.logical n).elim 0 s.laneMode

/-- HANK_LOAD, with the checks of R189 in their order. -/
def Chip.hankLoadCmd (s : Chip) (n : Nat) (force : Bool) (slot : Nat) : Chip × Verdict :=
  if 8 < n ∨ hankSlots ≤ slot then (s, .done (.fail .badArg))
  else if !(s.pdOn 18) || decide ((s.hankSlot slot).st ≠ .held) || !(s.carriesPort n) || s.laneFailed n then
    (s, .done (.fail .badState))
  else
    let l := match (s.hankSlot slot).own with
      | some l => l
      | none => s.bytesAt (MemId.hankStore.base + hankOff slot) 2048
    if hankPhys l ≠ n ∨ hankMode l ≠ s.carriedMode n ∨ hankRate l ≠ s.fld (LRX_STATUS.RATE n) then (s, .done (.fail .badArg))
    else if s.laneUp n = true ∧ force = false then (s, .done (.fail .badState))
    else (s.queuePage ⟨n, slot, .load⟩, .runs (.hankLoad n))

/-- HANK_LOAD (R180, R189). -/
def execHankLoad (src : CmdSrc) (s : State) : Host.Outcome State Fault Refusal :=
  chipNext s (fun c => c.krelin src 0x0507 (fun c r =>
    c.hankLoadCmd (byteAt r.payload 0) (bit (byteAt r.payload 1) 0) (arg16 r.payload 2)))

/-- HANK_FLUSH: at once, or at the end of the lane's restore window (R187). -/
def Chip.hankFlushCmd (s : Chip) (n : Nat) : Chip × Verdict :=
  if 8 < n then (s, .done (.fail .badArg))
  else if !(s.pdOn 18) then (s, .done (.fail .badState))
  else if s.restoring n then
    ({ s with hnk := { s.hnk with flushWait := s.hnk.flushWait ++ [n] } }, .runs (.hankFlush n))
  else
    let x := s.flushLane n
    (x.1, .done (.okR (leBytes 2 x.2)))

/-- HANK_FLUSH (R175, R187). -/
def execHankFlush (src : CmdSrc) (s : State) : Host.Outcome State Fault Refusal :=
  chipNext s (fun c => c.krelin src 0x0508 (fun c r => c.hankFlushCmd (byteAt r.payload 0)))

end Sys2Proof.Machine
end

