-- ==== Sys2Proof/Machine/Power.lean ====
section
/-! DEFINITION. Power domains (spec/18 R426 to R437): votes, group requests, the wake ladder with its retention checks, what
follows a return to ON, and module low power. -/

namespace Sys2Proof.Machine

/-! ### Coming to ON (R186, R417, R433, R434, R452) -/

/-- The rate code of line lane `n` for what it carries: Twist framing runs at 226.875 GBd (R54, R139). -/
def Chip.laneRateFor (s : Chip) (n : Nat) : Nat := b2n (s.laneTwist n)

/-- Lane `n`'s config shadow record copied into a slot and pinned LAST_GOOD, where it is a sound hank of the lane with the
mode and rate given (R185); the second part tells whether it was. Log 65 (DEDUCED). -/
def Chip.loadRecord (s : Chip) (n mode rate : Nat) : Chip × Bool :=
  let q := s.readBytes .shadow (shadowRecOff n) 2048
  match q.2 with
  | none => (q.1, false)
  | some l =>
    if !(hankSound l) ∨ hankPhys l ≠ n ∨ hankMode l ≠ mode ∨ hankRate l ≠ rate then (q.1, false)
    else match q.1.writeHank l with
      | none => (q.1, false)
      | some (s, i) =>
        let s := if hankKind l = 0 then { s with hnk := { s.hnk with gen := tabSet Config.firstGen s.hnk.gen (2 * n) (leAt l 0x018 4) } }
          else s
        ((s.unbusy i).pinLastGood n i, true)

/-- Line lane `n` in use set up after its live state has been lost: foreground calibration, and then a page-in under R186; a
lane marked failed stays in HOLD (R266). Its transmitter takes the start preset. Log 81 (DEDUCED). -/
def Chip.relight (s : Chip) (n : Nat) : Chip :=
  if s.laneUsed n then
    let rate := s.laneRateFor n
    let s := if s.laneFailed n && decide (n < 8) then (s.setFld (LRX_STATUS.RATE n) rate).putHold n
      else s.startRx n rate (some .domainOn)
    s.setupTx n rate none
  else s

/-- The level sources of lane `n` as its retained state has them, once its clamps are lifted (R427). -/
def Chip.unclampLane (s : Chip) (n : Nat) : Chip :=
  let s := (s.losLevel n).setLevel (0x070 + n) (s.rxState n == rxHold) 0
  let s := s.setLevel (0x090 + n) (s.flag (LRX_STATUS.MARGIN_LOW n)) 0
  let s := s.setLevel (0x0A0 + n) (s.flag (LRX_ADC_CAL.AT_LIMIT n)) 0
  s.setLevel (0x0D0 + n) (s.flag (LTX_STATUS.SHORT n)) 0

/-- What every domain's logic does when it is released: a freeze in force marks it (R452), a line lane's filter channel restarts
(R417), a spindle boots, the creel takes the throttle level in force (R442). Log 122 (DEDUCED). -/
def Chip.release (s : Chip) (d : Nat) : Chip :=
  let s := (s.setPd d .on).freezeLate d
  if d = 1 ∨ d = 2 then s.rebootSpindle (d - 1)
  else if 7 ≤ d ∧ d ≤ 15 then (if s.pdOn 20 then s.fltFull (22 + (d - 7)) else s)
  else if d = 16 then s.setFld CRL_STATUS.THROTTLE (s.fld THM_STATUS.LEVEL)
  else s

/-- Both directions of a populated Ply lane that carries nothing (R253, R261, R272). -/
def Chip.plyFresh (s : Chip) : Chip :=
  let s := s.freshFramer 8 1
  let s := { s with ply := { s.ply with reqNext := noLane, reqNow := noLane, txNext := noLane, txPly := false } }
  let s := (s.setPlyRx plyDown).setFld TWF_PLY_STATUS.RX_LANE noLane
  (s.setFld TWF_PLY_STATUS.TX_STATE 1).setFld TWF_PLY_STATUS.TX_LANE noLane

/-- Domain `d` reaches ON with its state lost: reset values, its FW registers from the config shadow, and what R434 lists. -/
def Chip.powerUp (s : Chip) (d : Nat) : Chip :=
  let s := ((s.resetLogic d).clearMemories d).release d
  let s := s.restoreFw (inDomain d)
  if 7 ≤ d ∧ d ≤ 15 then s.relight (d - 7)
  else if d = 16 then s.forAll (bitsSet 25 s.pmu.retired) Chip.dropBobbin
  else if d = 17 then
    let s := s.setFld TWF_LANE_FAILED.FAILED s.pmu.failed
    if s.plyFitted then s.plyFresh else s
  else if d = 18 then
    s.forAll (List.range 9) (fun s n => (s.loadRecord n (s.modeInHank n) (s.laneRateFor n)).1)
  else s

/-- Domain `d` reaches ON with its retained state (R433). -/
def Chip.wakeRetained (s : Chip) (d : Nat) : Chip :=
  let s := s.release d
  if 7 ≤ d ∧ d ≤ 15 then
    let s := s.unclampLane (d - 7)
    if s.locked (d - 7) then s.plyLocked (d - 7) else s
  else s

/-! ### Leaving ON (R374, R426, R427) -/

/-- What follows for the rest of the part when domain `d` is no longer ON. Log 118 (DEDUCED). -/
def Chip.afterLeave (s : Chip) (d : Nat) : Chip :=
  if d = 1 ∨ d = 2 then (s.freeHeld (if d = 1 then 1 else 2)).setRole (d - 1) .off
  else if 3 ≤ d ∧ d ≤ 6 then s.setFldBit CLK_HQ_STATUS.LOCK (d - 3) false
  else if 7 ≤ d ∧ d ≤ 15 then (s.withdrawPages (d - 7)).plyDrop (d - 7)
  else s

/-- Domain `d` goes to OFF. Log 118 (DEDUCED). -/
def Chip.goOff (s : Chip) (d : Nat) : Chip := (s.powerOff d).afterLeave d

/-- The retention banks of a domain, R426. -/
def retBanks (d : Nat) : Nat := if d = 1 ∨ d = 2 ∨ (7 ≤ d ∧ d ≤ 17) then 2 else 1

/-- Domain `d` goes to RET: its outputs are clamped and the signatures of its banks are taken (R433).
Log 62 (DEDUCED). -/
def Chip.goRet (s : Chip) (d : Nat) : Chip :=
  let s := (s.clampLevels d).setPd d .ret
  let old := s.pmu.sigs.filter (fun p => p.1 != d)
  let s := { s with pmu := { s.pmu with sigs := old ++ (List.range (retBanks d)).map (fun b => (d, b)) } }
  s.afterLeave d

/-! ### Votes (R426) -/

/-- Does any port exist? -/
def Chip.anyPort (s : Chip) : Bool := (List.range 16).any (fun p => decide ((s.port p).st ≠ .absent))

/-- Does domain `d` vote no against RET and OFF? `holder` is the distaff's. -/
def Chip.votesNo (s : Chip) (holder d : Nat) : Bool :=
  if d = 1 ∨ d = 2 then holder == d
  else if 3 ≤ d ∧ d ≤ 6 then
    (List.range 4).any (fun k => (s.portOfHost (4 * (d - 3) + k)).isSome || (s.hostOf (4 * (d - 3) + k)).claimed)
  else if 7 ≤ d ∧ d ≤ 15 then
    let n := d - 7
    (s.rxOf n).claimed ||
      (if n = 8 then decide (1 < s.plyRx) || decide (1 < s.fld TWF_PLY_STATUS.TX_STATE) else !((s.portsOn n).isEmpty))
  else if d = 16 ∨ d = 17 then s.anyPort
  else if d = 18 then (List.range 8).any (fun n => !((s.portsOn n).isEmpty))
  else if d = 19 then
    s.dmaBusyMask != 0 || (List.range 9).any (fun n => (s.rxOf n).capture.isSome) ||
      s.mbx.exec.any (fun e => match e.wait with | .capture _ => true | _ => false)
  else if d = 20 then s.pwmAny
  else if d = 21 then
    s.fly.disc.isSome || !(s.fly.reqs.isEmpty) || (List.range 10).any (fun p => !((s.flyPort p).outq.isEmpty))
  else false

/-! ### Group requests (R428 to R432) -/

/-- The result of a group request in `PMU_GRP_STATUS`. -/
def Chip.grpResult (s : Chip) (res refuser requester : Nat) : Chip :=
  ((s.setFld PMU_GRP_STATUS.RESULT res).setFld PMU_GRP_STATUS.REFUSER refuser).setFld PMU_GRP_STATUS.REQUESTER requester

/-- The running group request ends. -/
def Chip.grpEnd (s : Chip) (g : GrpReq) (res refuser : Nat) : Chip :=
  let s := { s with pmu := { s.pmu with grp := none } }
  let s := ((s.setFlag PMU_GRP_STATUS.BUSY false).setFld PMU_GRP_STATUS.PHASE 0).setFld PMU_GRP_STATUS.RUNG 0
  s.grpResult res refuser g.requester

/-- The PWR_SET that a group request serves completes. -/
def Chip.pwrDone (s : Chip) (y : Reply) : Chip := s.endWait (fun w => decide (w = .pwrSet)) y

/-- A group request has reached its target: result OK and EVS_PD_CHANGE with the domains changed (R446). -/
def Chip.grpOk (s : Chip) (g : GrpReq) (changed : List Nat) : Chip :=
  let s := (s.grpEnd g 1 0).raise 0x1C0 (maskOf 22 changed.contains + 2 ^ 24 * g.target)
  (s.pwrDone (.okR [0xFF])).serve.settle

/-- A group request is refused by domain `d` and rolled back (R429, R432). -/
def Chip.grpRefused (s : Chip) (g : GrpReq) (d : Nat) : Chip :=
  let s := (s.grpEnd g 2 d).raise 0x1C4 (d + 2 ^ 24 * g.target)
  (s.pwrDone { status := .badState, result := [BitVec.ofNat 8 d] }).serve

/-- The domains of a request whose vote is still to be asked, in ascending order, and those at the target already. -/
def Chip.toAsk (s : Chip) (mask target : Nat) : List Nat :=
  (domainsOf mask).filter (fun d => decide (s.pdOf d ≠ (if target = 0 then Power.off else Power.ret)))

/-- Domain `d` quiesces; the checkpoint of a LOCKED line lane is taken and stands (R178, R429). Log 63 (DEDUCED). -/
def Chip.quiesce (s : Chip) (d : Nat) : Chip :=
  if 7 ≤ d ∧ d ≤ 15 ∧ s.pdOn d = true then (s.checkpoint (d - 7)).commitCheckpoint (d - 7) else s

/-- The commit of a request towards RET or OFF, in descending number (R429). -/
def State.grpCommit (s : State) (g : GrpReq) : State :=
  let go := g.voted.reverse
  let s := go.foldl (fun (s : State) d =>
    s.leave d (fun c => if g.target = 1 then c.goRet d else c.goOff d)) s
  s.onChip (fun c => c.grpOk g g.voted)

/-- The request as it now stands asks its next domain, or commits when none is left to be asked. Log 62 (DEDUCED). -/
def State.grpNext (s : State) (g : GrpReq) : State :=
  match g.rest with
  | [] => s.grpCommit g
  | d :: _ => s.onChip (fun c => { c.quiesce d with pmu := { c.pmu with grp := some g } })

/-- A group request, R429; the second part tells whether it was taken (false: BUSY). Log 62 (DEDUCED). -/
def State.groupRequest (s : State) (mask target requester : Nat) (src : Option CmdSrc) : State × Bool :=
  if s.chip.pmu.grp.isSome then (s.onChip (fun c => c.grpResult 3 0 requester), false)
  else
    let g : GrpReq := ⟨mask, target, requester, src, .quiesce, [], [], [], 0, []⟩
    if target = 2 then
      let climb := (domainsOf mask).filter (fun d => !(s.chip.pdOn d))
      if climb.isEmpty then (s.onChip (fun c => c.grpOk g []), true)
      else
        let g := { g with phase := .ladder, climbing := climb }
        (s.onChip (fun c =>
          let c := { c with pmu := { c.pmu with grp := some g } }
          ((c.setFlag PMU_GRP_STATUS.BUSY true).setFld PMU_GRP_STATUS.PHASE 3).setFld PMU_GRP_STATUS.RUNG 0), true)
    else
      let g := { g with rest := s.chip.toAsk mask target }
      let s := if g.rest.isEmpty then s
        else s.onChip (fun c => (c.setFlag PMU_GRP_STATUS.BUSY true).setFld PMU_GRP_STATUS.PHASE 1)
      (s.grpNext g, true)

/-- A write to `PMU_GRP_REQ` by a requester (R444): TARGET 3, bit 0 of MASK and an empty MASK are ignored. -/
def State.grpWrite (s : State) (requester : Nat) (v : Word) : State :=
  let mask := getBits v 0 22
  let target := getBits v 24 2
  if target = 3 ∨ mask = 0 ∨ mask % 2 = 1 then s else (s.groupRequest mask target requester none).1

/-- GROUP_REQUEST (R429): a write to `PMU_GRP_REQ`. -/
def execGroupRequest (m : Master) (v : Word) (s : State) : Host.Outcome State Fault Refusal :=
  .next (s.rowWrite m PMU_GRP_REQ.addr (fun s => s.grpWrite (masterSpindle m) v))

/-- QUIESCE_VOTE (R426, R429): the quiesced domain votes; without a vote within 1 ms (`inTime` false) it votes no. -/
def execQuiesceVote (inTime : Bool) (s : State) : Host.Outcome State Fault Refusal :=
  .next (match s.chip.pmu.grp with
    | none => s
    | some g =>
      match g.rest with
      | [] => s
      | d :: t =>
        if !inTime || s.chip.votesNo s.dist.holder d then s.onChip (fun c => c.grpRefused g d)
        else s.grpNext { g with voted := g.voted ++ [d], rest := t })

/-- The banks of climbing domains that came from RET and are among those reported bad (R433). Log 65 (DEDUCED). -/
def GrpReq.lostOf (g : GrpReq) (sigs : List (Nat × Nat)) (bad : List (Fin 22 × Fin 2)) : List (Nat × Nat) :=
  sigs.filter (fun p => g.climbing.contains p.1 && bad.any (fun q => q.1.1 == p.1 && q.2.1 == p.2) && !(g.lost.contains p))

/-- Are both analogue supplies good, on which every host and line lane depends (R46)? Log 52 (DEDUCED). -/
def Chip.analogOk (s : Chip) : Bool := s.flag GLB_SUPPLY_STATUS.HS_OK && s.flag GLB_SUPPLY_STATUS.HV_OK

/-- Are the supplies of these domains good: each waits for its own supply at the regulator rung (spec/02 "Start-up", R46)? -/
def Chip.suppliesFor (s : Chip) (ds : List Nat) : Bool := s.analogOk || ds.all (fun d => decide (d < 3) || decide (15 < d))

/-- LADDER_RUNG (R428, R433): all domains of the waking group reach the next rung; at the memory rung `bad` names the banks whose
canary check word or canary row differs. Log 65 (DEDUCED). -/
def execLadderRung (bad : List (Fin 22 × Fin 2)) (s : State) : Host.Outcome State Fault Refusal :=
  chipNext s (fun c =>
    match c.pmu.grp with
    | none => c
    | some g =>
      if g.phase = .ladder ∧ g.rung < 3 ∧ c.suppliesFor g.climbing = true then
        let lost := if g.rung = 2 then g.lost ++ g.lostOf c.pmu.sigs bad else g.lost
        let c := { c with pmu := { c.pmu with grp := some { g with rung := g.rung + 1, lost := lost } } }
        c.setFld PMU_GRP_STATUS.RUNG (g.rung + 1)
      else c)

/-- Domain `d` of a waking group is released: with its retained state, or cold (R433, R434). -/
def Chip.climbOne (s : Chip) (o : Otp) (lost : List (Nat × Nat)) (d : Nat) : Chip :=
  let ret := decide (s.pdOf d = .ret)
  let mine := lost.filter (fun p => p.1 == d)
  let s := { s with pmu := { s.pmu with sigs := s.pmu.sigs.filter (fun p => p.1 != d) } }
  if ret && mine.isEmpty then s.wakeRetained d
  else
    let s := s.powerUp d
    let s := if d = 1 ∨ d = 2 then s.reloadSpindle o (d - 1) else s
    let s := s.forAll mine (fun s p => s.raise 0x1C5 (p.1 + 2 ^ 5 * p.2))
    if mine.isEmpty then s else s.setFldBit PMU_RETN_LOST.LOST d true

/-- LADDER_COMPLETE (R428, R433, R434): the logic rung; `bad` names the banks whose CRC-32 differs from their signature.
Log 65 (DEDUCED). -/
def execLadderComplete (bad : List (Fin 22 × Fin 2)) (s : State) : Host.Outcome State Fault Refusal :=
  chipNext s (fun c =>
    match c.pmu.grp with
    | none => c
    | some g =>
      if g.phase = .ladder ∧ g.rung = 3 ∧ c.suppliesFor g.climbing = true then
        let lost := g.lost ++ g.lostOf c.pmu.sigs bad
        (c.forAll g.climbing (fun c d => c.climbOne s.fuse lost d)).grpOk g g.climbing
      else c)

/-! ### The power commands (R320, R321, R431) -/

/-- The code of a domain's state in `PMU_PD_STATE` and PWR_STATUS. -/
def Chip.pdCode (s : Chip) (d : Nat) : Nat :=
  if bit s.heldDomains d then 3
  else match s.pdOf d with
    | .off => 0 | .ret => 1 | .on => 2

/-- The words of `PMU_PD_STATE0` and `PMU_PD_STATE1`. -/
def Chip.pdWord (s : Chip) (k : Nat) : Word :=
  BitVec.ofNat 32 ((List.range (if k = 0 then 16 else 6)).foldl (fun a i => a + 4 ^ i * s.pdCode (16 * k + i)) 0)

/-- PWR_SET (R321): one group request; `PMU_GRP_STATUS` names the spindle that serves it. Log 62 (DEDUCED). -/
def execPwrSet (src : CmdSrc) (s : State) : Host.Outcome State Fault Refusal :=
  .next (match s.chip.accept src 0x0801 with
    | (c, none) => { s with chip := c }
    | (c, some r) =>
      let s := { s with chip := c }
      let mask := arg32 r.payload 0
      let target := byteAt r.payload 4
      if mask = 0 ∨ mask % 2 = 1 ∨ 2 ^ 22 ≤ mask ∨ 2 < target then s.onChip (fun c => c.conclude r (.done (.fail .badArg)))
      else if s.chip.pmu.grp.isSome then
        (s.groupRequest mask target s.dist.holder (some src)).1.onChip (fun c => c.conclude r (.done (.fail .busy)))
      else
        ((s.onChip (fun c => c.conclude r (.runs .pwrSet))).groupRequest mask target s.dist.holder (some src)).1)

/-- PWR_STATUS (R431). -/
def execPwrStatus (src : CmdSrc) (s : State) : Host.Outcome State Fault Refusal :=
  chipNext s (fun c => c.krelin src 0x0802 (fun c _ => (c, .done (.okR (wordBytes [c.pdWord 0, c.pdWord 1])))))

/-! ### Module low power (R322, R347, R435 to R437) -/

/-- Every port out of traffic: no port is UP any more (spec/18 "Entry to module low power", step 2). -/
def Chip.stopTraffic (s : Chip) : Chip :=
  s.forAll (List.range 16) (fun s p =>
    s.portMod p (fun x => { x with wantUp := false, st := if x.st = .up then .ready else x.st }))

/-- After LOW_POWER has completed: Krelin takes every port from traffic, aborts the busy DMA channels and starts the shutdown list,
whose record begins incomplete (R322, R476). Log 64 (DEDUCED). -/
def Chip.lowPowerGo (s : Chip) : Chip :=
  let s := ((s.stopTraffic).forAll (List.range 16) Chip.dmaAbort).setFlag GRD_DOFF_STATUS.RUNNING true
  { s with flash := s.flash.beginRec 0, pmu := { s.pmu with entering := true } }

/-- LOW_POWER (R322): the config shadow copy is written and the command completes; the entry begins with the posting of that
completion, which a full ring holds back. Log 64 (DEDUCED). -/
def execLowPower (src : CmdSrc) (s : State) : Host.Outcome State Fault Refusal :=
  chipNext s (fun c =>
    match c.accept src 0x0803 with
    | (c, none) => c
    | (c, some r) =>
      if (List.range 16).any (fun p => decide ((c.port p).st = .up)) && byteAt r.payload 0 % 2 == 0 then
        c.conclude r (.done (.fail .badState))
      else
        let c := (c.saveShadow).conclude r (.done (.okR []))
        if c.mbx.held.any Completion.lowPower then c else c.lowPowerGo)

/-- HELD_COMPLETION_POST (R295, R297, R322): the ring has room and the oldest held completion is posted; that of a LOW_POWER lets
the entry begin. -/
def execHeldCompletionPost (s : State) : Host.Outcome State Fault Refusal :=
  chipNext s (fun c =>
    match c.mbx.held with
    | [] => c
    | x :: t =>
      if c.ringFull then c
      else
        let c := Chip.postCpl { c with mbx := { c.mbx with held := t } } x
        if x.lowPower then c.lowPowerGo else c)

/-- The Whorl stops (R30, R347): the ring oscillator runs `PD_AON`, and the record writer halts. -/
def Chip.stopWhorl (s : Chip) : Chip :=
  let s := (s.setFlag CLK_WHORL_STATUS.RING_OSC_ON true).setFlag CLK_WHORL_STATUS.LOCK false
  let s := (s.setFlag CLK_WHORL_STATUS.HOLDOVER false).resetReg PMU_LADDER.addr
  { s with evt := { s.evt with halted := true }, limited := true }

/-- Every domain but `PD_AON` turned off without votes, in descending number; each spindle's leaving counts at the distaff
(R426, R431, R435, R443). Log 61 (DEDUCED). -/
def State.blackout (s : State) : State :=
  let s := s.onChip Chip.cutGroup
  let s := ((List.range 21).map (fun k => 21 - k)).foldl (fun (s : State) d =>
    if s.chip.pdOf d = .off then s else s.leave d (fun c => c.goOff d)) s
  s.onChip (fun c =>
    let c := { c with ports := Vector.replicate 16 {}, quads := Vector.replicate 4 {}, mbx := { c.mbx with exec := [] }
                      pmu := { c.pmu with sigs := [], entering := false } }
    let c := c.setFlag GRD_DOFF_STATUS.RUNNING false
    ((c.resetReg CLK_HQ_STATUS.addr).stopWhorl).evalFray)

/-- A write to `PMU_LP_CTRL` by a master: the holder's ENTER with the KEY (R435). -/
def State.lpEnter (s : State) (m : Master) (v : Word) : State :=
  let x := masterSpindle m
  if x ≠ 0 ∧ x = s.dist.holder ∧ getBits v 16 16 = 0x4C50 ∧ getBits v 0 1 = 1 then
    let cfg := (s.chip.reg FLY_WAKE_CFG.addr).toNat
    s.blackout.onChip (fun c => { c with pmu := { c.pmu with lowPower := true, entering := false, wakeCfg := cfg } })
  else s

/-- LOW_POWER_ENTER (R435): a write to `PMU_LP_CTRL`. Log 64 (DEDUCED). -/
def execLowPowerEnter (m : Master) (v : Word) (s : State) : Host.Outcome State Fault Refusal :=
  .next (s.rowWrite m PMU_LP_CTRL.addr (fun s => s.lpEnter m v))

/-- A wake cause is latched: bit 0 Fleyth, bit 1 SPI. While the shutdown list runs it ends nothing, and wakes the part once it
is in module low power (R480). Log 64 (DEDUCED). -/
def Chip.latchWake (s : Chip) (cause : Nat) : Chip :=
  if s.pmu.lowPower || s.pmu.entering then
    { s with pmu := { s.pmu with wakeLatched := s.pmu.wakeLatched ||| cause } }
  else s

/-- A write to `PMU_WAKE_REQ` (R436). -/
def Chip.wakeReq (s : Chip) (v : Word) : Chip :=
  if getBits v 16 16 = 0x4B57 ∧ getBits v 0 1 = 1 then s.latchWake 2 else s

/-- WAKE_REQ (R436): a write to `PMU_WAKE_REQ`. -/
def execWakeReq (m : Master) (v : Word) (s : State) : Host.Outcome State Fault Refusal :=
  chipNext s (fun c => c.rowWrite m PMU_WAKE_REQ.addr (fun c => c.wakeReq v))

/-- LP_WAKE (R436): a latched cause wakes the part, which goes on from start-up step 2 with the config shadow kept.
Log 64 (DEDUCED). -/
def execLpWake (s : State) : Host.Outcome State Fault Refusal :=
  chipNext s (fun c =>
    if c.pmu.lowPower && c.pmu.wakeLatched != 0 then
      let w := c.pmu.wakeLatched
      let c := (c.setReg PMU_WAKE_CAUSE.addr (BitVec.ofNat 32 w)).raise 0x1C6 w
      let c := if bit w 0 then c.raise 0x148 c.pmu.wakeDetail else c
      let c := { c with
        pmu := { c.pmu with lowPower := false, wakeLatched := 0 }
        start := { kept := true, lifecycle := c.start.lifecycle } }
      (c.resetReg GLB_BOOT_STATUS.addr).setFld GLB_BOOT_STATUS.STEP 1
    else c)

/-- The records that EVT writes when the Whorl runs again, for the pending unmasked sources of each consumer in ascending
order, with their latched timestamps (R347). Log 64 (DEDUCED). -/
def Chip.replay (s : Chip) : Chip :=
  let s := { s with evt := { s.evt with halted := false } }
  let s := s.forAll allConsumers (fun s c =>
    s.forAll (List.range 512) (fun s src =>
      let co := s.evt.cons[c.1]
      if bit512 co.pend src then
        let t := ((co.stamps.find? (fun p => p.1 == src)).map (fun p => p.2)).getD s.evt.time
        let r := flushPend s.evt c src t
        Chip.emit { s with evt := r.1 } r.2
      else s))
  { s with evt := { s.evt with cons := s.evt.cons.map (fun co => { co with stamps := [] }) } }

end Sys2Proof.Machine
end

