-- ==== Sys2Proof/Machine/PlyRows.lean ====
section
/-! DEFINITION. The commands of the fault logic (spec/10 R264, R270 to R276): its timers, and PLY_CFG, PLY_STATUS, PLY_MIRROR and
PLY_SUBST. -/

namespace Sys2Proof.Machine

/-- PLY_DOWN (R272): a populated Ply receiver has been out of LOCKED for 1 s. -/
def execPlyDown (s : State) : Host.Outcome State Fault Refusal :=
  chipNext s (fun c =>
    if c.plyFitted && !(c.locked 8) then Chip.evalFray { c with ply := { c.ply with downTimed := true } } else c)

/-- LANE_LOST (R272): 1 s after it entered HOLD, a lane whose Twist port is in FAULT is still not covered, the Ply receiver being
unavailable. -/
def execLaneLost (n : Fin 8) (s : State) : Host.Outcome State Fault Refusal :=
  chipNext s (fun c =>
    if c.plyBeyond n.1 && c.twistFault n.1 && !(c.ply.lost.contains n.1) then
      Chip.evalFray { c with ply := { c.ply with lost := c.ply.lost ++ [n.1] } }
    else c)

/-! ### PLY_CFG (R270, R274) -/

/-- The Ply lane becomes populated: its domain comes up, its receiver trains on 400G Twist framing, and both directions carry
nothing (R253, R261, R272). Log 100 (DEDUCED). -/
def Chip.plyPopulate (s : Chip) : Chip :=
  let s := if s.pdOn 15 then s.relight 8 else if s.analogOk then s.powerUp 15 else s
  s.plyFresh

/-- The Ply lane is no longer populated: L8 is off, and both directions are NONE. Log 100 (DEDUCED). -/
def Chip.plyUnpopulate (s : Chip) : Chip :=
  let s := (s.setPaired none).rxToOff 8
  let s := s.resetReg TWF_PLY_STATUS.addr
  let s := s.setFld (TWF_LANE_STATUS.FRAMING 8) 0
  let s := { s with ply := { s.ply with farLane := none, downTimed := false, planned := none, reqNext := noLane, reqNow := noLane,
                                        txNext := noLane, txPly := false } }
  s.goOff 15

/-- PLY_CFG: both registers written, unless POPULATED or SUBST_EN would clear in SUBST or SUBST_WAIT.
Log 100 (DEDUCED). -/
def Chip.plyCfg (s : Chip) (cfg thr : Nat) : Chip × Verdict :=
  let was := s.plyFitted
  let now := bit cfg 8
  let busy := decide (s.plyRx = plySubst) || decide (s.plyRx = plySubstWait)
  if busy && (was && !now || s.flag TWF_PLY_CFG.SUBST_EN && !(bit cfg 6)) then (s, .done (.fail .badState))
  else
    let s := s.fwWrite 17 TWF_PLY_CFG.addr (BitVec.ofNat 32 (cfg % 512))
    let s := s.fwWrite 17 TWF_PLY_THR.addr (BitVec.ofNat 32 thr)
    let s := if !(s.pdOn 17) then s
      else if !was && now then s.plyPopulate
      else if was && !now then s.plyUnpopulate
      else s
    (s.settle, .done (.okR []))

/-- PLY_CFG (R270, R274). -/
def execPlyCfg (src : CmdSrc) (s : State) : Host.Outcome State Fault Refusal :=
  chipNext s (fun c => c.krelin src 0x0701 (fun c r => c.plyCfg (arg32 r.payload 0) (arg32 r.payload 4)))

/-! ### PLY_STATUS (R275, R276) -/

/-- PLY_STATUS: the registers as they stand, then the clearing that CLEAR asks for, which needs OPERATOR. -/
def Chip.plyStatus (s : Chip) (r : Req) : Chip × Verdict :=
  let clear := bit (byteAt r.payload 0) 0
  if clear && r.level == 0 then (s, .done (.fail .denied))
  else
    let regs := [s.reg TWF_PLY_STATUS.addr, s.laneFailedWord, s.seen TWF_PLY_CNT.addr]
      ++ (List.range 8).map (fun n => s.reg (TWF_PLY_RISK.addr n)) ++ [s.reg GLB_FRAY_STATUS.addr, s.reg GLB_FRAY_HIST.addr]
    ((if clear then s.clearCount TWF_PLY_CNT.addr else s), .done (.okD (wordBytes regs)))

/-- PLY_STATUS (R273, R275). -/
def execPlyStatus (src : CmdSrc) (s : State) : Host.Outcome State Fault Refusal :=
  chipNext s (fun c => c.krelin src 0x0702 (fun c r => c.plyStatus r))

/-! ### PLY_MIRROR and PLY_SUBST (R273) -/

/-- Is a PLY_SUBST executing? -/
def Chip.substRuns (s : Chip) : Bool :=
  s.mbx.exec.any (fun e => match e.wait with | .plySubst _ => true | _ => false)

/-- The checks that PLY_MIRROR and PLY_SUBST share, for a lane or the automatic choice; beside an executing PLY_SUBST they are
BUSY whatever lane they name. -/
def Chip.plyCheck (s : Chip) (n : Nat) (auto : Bool) : Option Status :=
  if s.substRuns then some .busy
  else if 7 < n ∧ auto = false then some .badArg
  else if s.plyRx = plySubstWait ∨ s.plyRx = plySubst then some .badState
  else if auto = false ∧ s.eligible n = false then some .badArg
  else none

/-- PLY_MIRROR: PIN_EN and PIN_LANE, which the next choice of a mirror obeys. -/
def Chip.plyMirrorCmd (s : Chip) (n : Nat) : Chip × Verdict :=
  let auto := n == 0xFF
  match s.plyCheck n auto with
  | some st => (s, .done (.fail st))
  | none =>
    let v := s.reg TWF_PLY_CFG.addr
    let v := if auto then setBits v 4 1 0 else setBits (setBits v 4 1 1) 0 4 n
    (s.fwWrite 17 TWF_PLY_CFG.addr v, .done (.okR []))

/-- PLY_MIRROR (R273). -/
def execPlyMirror (src : CmdSrc) (s : State) : Host.Outcome State Fault Refusal :=
  chipNext s (fun c => c.krelin src 0x0703 (fun c r => c.plyMirrorCmd (byteAt r.payload 0)))

/-- PLY_SUBST: the lane is mirrored, and committed once it is paired: at once where it is paired already. -/
def Chip.plySubstCmd (s : Chip) (n : Nat) : Chip × Verdict :=
  match s.plyCheck n false with
  | some st => (s, .done (.fail st))
  | none =>
    let s := if s.crl.paired = some n ∧ s.flag TWF_PLY_CFG.SUBST_EN = true then s.commitSubst n
      else
        let s := { s with ply := { s.ply with planned := some n } }
        if s.plyLane = n ∨ s.plyRx = plyDown then s else s.moveMirror n
    if s.plyRx = plySubst then (s.settle, .done (.okR (leBytes 4 (s.settle.portMap (s.portOfLane n)).toNat)))
    else (s, .runs (.plySubst n))

/-- PLY_SUBST (R273). -/
def execPlySubst (src : CmdSrc) (s : State) : Host.Outcome State Fault Refusal :=
  chipNext s (fun c => c.krelin src 0x0704 (fun c r => c.plySubstCmd (byteAt r.payload 0)))

/-- A PLY_SUBST that has not paired in 100 ms: the mirror returns to automatic choice (R273). -/
def Chip.plySubstTimeout (s : Chip) (n : Nat) : Chip :=
  let s := s.fwWrite 17 TWF_PLY_CFG.addr (setBits (s.reg TWF_PLY_CFG.addr) 4 1 0)
  Chip.endWait { s with ply := { s.ply with planned := none } } (fun w => decide (w = .plySubst n)) (.fail .timeout)

end Sys2Proof.Machine
end

