-- ==== Sys2Proof/Machine/RsCode.lean ====
section
/-! DEFINITION. The outer code RS(544,514) of spec/01 R12 and spec/09 R247: its field, its encoder and its decoder. The specification
names the code of IEEE 802.3 and does not print its polynomials: they are taken from that standard. Log 134 (PRESUMED). -/

namespace Sys2Proof.Machine

/-! ### The field of 1024 elements -/

/-- Twice a field element: the field polynomial is x^10 + x^3 + 1. Log 134 (PRESUMED). -/
def gfDouble (a : Nat) : Nat := if 2 * a < 1024 then 2 * a else (2 * a) ^^^ 0x409

/-- The product of two field elements. -/
def gfMul (a b : Nat) : Nat :=
  (List.range 10).foldr (fun i acc => let t := gfDouble acc; if bit b i then t ^^^ a else t) 0

/-- A power of the primitive element. -/
def gfAlpha : Nat → Nat
  | 0 => 1
  | n + 1 => gfDouble (gfAlpha n)

/-- The inverse of a field element, 0 for 0: its power 1022. -/
def gfInv (a : Nat) : Nat := ((List.range 9).foldl (fun p _ => let q := gfMul p.1 p.1; (q, gfMul p.2 q)) (a, 1)).2

/-- A polynomial, lowest coefficient first, at a point. -/
def polyAt (p : List Nat) (x : Nat) : Nat := p.foldr (fun c acc => gfMul acc x ^^^ c) 0

/-- The sum of two polynomials. -/
def polyAdd : List Nat → List Nat → List Nat
  | [], q => q
  | p, [] => p
  | a :: p, b :: q => (a ^^^ b) :: polyAdd p q

/-- The product of two polynomials. -/
def polyMul : List Nat → List Nat → List Nat
  | [], _ => []
  | a :: p, q => polyAdd (q.map (gfMul a)) (0 :: polyMul p q)

/-! ### Encoding -/

/-- The generator polynomial: its roots are the powers 0 to 29 of the primitive element. Log 134 (PRESUMED). -/
def rsGenerator : List Nat := (List.range 30).foldl (fun g j => polyMul [gfAlpha j, 1] g) [1]

/-- The remainder of the division by the generator, highest coefficient first, one symbol further. -/
def rsShift (g par : List Nat) (m : Nat) : List Nat :=
  let f := m ^^^ par.headD 0
  polyAdd (par.drop 1 ++ [0]) (g.map (gfMul f))

/-- The codeword of 514 symbols: they and their 30 parity symbols, the first sent first. -/
def rsEncode (m : List Nat) : List Nat := m ++ m.foldl (rsShift (rsGenerator.take 30).reverse) (List.replicate 30 0)

/-! ### Decoding (R12, R247) -/

/-- The 30 syndromes of a received word; all are 0 exactly for a codeword. -/
def rsSyndromes (w : List Nat) : List Nat := (List.range 30).map (fun j => let r := gfAlpha j; w.foldl (fun acc c => gfMul acc r ^^^ c) 0)

/-- Has a word a nonzero syndrome? -/
def rsWrong (w : List Nat) : Bool := (rsSyndromes w).any (· != 0)

/-- The locator of symbol `i` of a codeword. -/
def rsLocator (i : Nat) : Nat := gfAlpha (543 - i)

/-- The search for the shortest register that makes a sequence: the register, the last one before it grew, its length, the steps since
and the discrepancy then. -/
structure RsSearch where
  reg : List Nat := [1]
  prev : List Nat := [1]
  len : Nat := 0
  gap : Nat := 1
  last : Nat := 1
  deriving DecidableEq, Repr

/-- One step of that search, for element `n` of the sequence `t`. -/
def RsSearch.step (t : List Nat) (x : RsSearch) (n : Nat) : RsSearch :=
  let d := (List.range (x.len + 1)).foldl (fun acc i => if i ≤ n then acc ^^^ gfMul (x.reg.getD i 0) (t.getD (n - i) 0) else acc) 0
  let fix := polyAdd x.reg (List.replicate x.gap 0 ++ x.prev.map (gfMul (gfMul d (gfInv x.last))))
  if d = 0 then { x with gap := x.gap + 1 }
  else if 2 * x.len ≤ n then ⟨fix, x.reg, n + 1 - x.len, 1, d⟩
  else { x with reg := fix, gap := x.gap + 1 }

/-- The errata of a received word with erasures at the places `er`: a polynomial whose roots are the inverses of the locators of the
wrong and the erased symbols, and its evaluator. -/
def rsErrata (w er : List Nat) : List Nat × List Nat :=
  let s := rsSyndromes w
  let gamma := er.foldl (fun g i => polyMul [1, rsLocator i] g) [1]
  let t := ((polyMul s gamma).take 30).drop er.length
  let psi := polyMul ((List.range t.length).foldl (RsSearch.step t) {}).reg gamma
  (psi, (polyMul s psi).take 30)

/-- The derivative of a polynomial. -/
def polyDeriv (p : List Nat) : List Nat := (p.drop 1).zipIdx.map (fun c => if c.2 % 2 = 0 then c.1 else 0)

/-- A received word with its errata put right. -/
def rsCorrected (w er : List Nat) : List Nat :=
  let e := rsErrata w er
  w.zipIdx.map (fun c =>
    let x := rsLocator c.2
    let inv := gfInv x
    if polyAt e.1 inv = 0 then c.1 ^^^ gfMul x (gfMul (polyAt e.2 inv) (gfInv (polyAt (polyDeriv e.1) inv))) else c.1)

/-- How many symbols outside the places `er` differ. -/
def rsChanged (w v er : List Nat) : Nat := ((w.zip v).zipIdx.filter (fun c => c.1.1 != c.1.2 && !(er.contains c.2))).length

/-- The decoder: the codeword within `limit` wrong symbols besides the erased ones and how many were wrong, none where it finds no
such codeword. Log 97 (DEDUCED). -/
def rsDecode (w er : List Nat) (limit : Nat) : Option (List Nat × Nat) :=
  let v := if rsWrong w then rsCorrected w er else w
  let k := rsChanged w v er
  if rsWrong v || decide (limit < k) then none else some (v, k)

end Sys2Proof.Machine
end

