-- ==== Sys2Proof/Machine/Streams.lean ====
section
/-! DEFINITION. The RS symbol streams of a port between its host lanes and its line lanes (spec/01 R12; spec/03 R60, R63; spec/08 R203
to R205): what its codewords are dealt to, and what stands in where there is no data. -/

namespace Sys2Proof.Machine

/-! ### What stands in for data (R63, R217) -/

/-- A codeword of the local-fault sequence, R63: coded in RS(544,514); the sequence itself is IEEE's, which spec/ does not print.
Log 135 (DESIGN CHOICE). -/
def faultCodeword (d : Nat) : List Nat := rsEncode ((List.range 514).map (fun i => Config.localFault d i % 1024))

/-- The codeword that goes out for port `p` without data of its own: the local-fault sequence while it is not UP (R63, R217), open
symbols where an UP port's buffer has run dry. Log 135 (DESIGN CHOICE). -/
def Chip.standIn (s : Chip) (p : Nat) : List Nat × Chip :=
  let d := s.draw
  (if (s.port p).st = .up then (List.range 544).map (fun i => Config.dryWord d.1 i % 1024) else faultCodeword d.1, d.2)

/-- The codeword that leaves in either direction: the data of an UP port, else the local-fault sequence (R63). -/
def Chip.outgoing (s : Chip) (p : Nat) (cw : List Nat) : List Nat × Chip := if (s.port p).st = .up then (cw, s) else s.standIn p

/-! ### Towards the host (R60, R90) -/

/-- The symbols of a codeword that fall to place `k` of `n` lanes, when the first of them falls to place `phase`: one symbol to each lane
in turn (R60). -/
def shareOf (n phase k : Nat) (cw : List Nat) : List Nat := (cw.zipIdx.filter (fun c => (phase + c.2) % n == k)).map (fun c => c.1)

/-- A codeword dealt to the host lanes of port `p` in ascending logical order (R60). A lane at 400 Gb/s draws its data frames from what
waits; another sends its share. -/
def Chip.toHost (s : Chip) (p : Nat) (cw : List Nat) : Chip :=
  let x := s.port p
  let s := s.forAll x.hostLanes.zipIdx (fun s l =>
    let h := s.physHost l.1
    let share := shareOf x.hostCount x.hostPhase l.2 cw
    let wide := s.fld (HLN_STATUS.RATE h) == 5
    s.hostMod h (fun y => { y with out := if wide then y.out ++ share else share }))
  s.portMod p (fun y => { y with hostPhase := (y.hostPhase + cw.length) % max 1 y.hostCount })

/-- Port `p` has at least `k` RS symbols for its host lane `h`, standing in where it lacks them; the bound is enough for any COUNT of
R91. -/
def Chip.hostFill (p h k : Nat) : Nat → Chip → Chip
  | 0, s => s
  | b + 1, s =>
    if k ≤ (s.hostOf h).out.length then s
    else let c := s.standIn p; Chip.hostFill p h k b (c.2.toHost p c.1)

/-- Physical host lane `h` has at least `k` RS symbols to send, where a port uses it. -/
def Chip.hostNeed (s : Chip) (h k : Nat) : Chip := (s.portOfHost (s.physHost h)).elim s (fun p => Chip.hostFill p h k 64 s)

/-- The codeword that the host lanes of port `p` bring: the lowest logical lane supplies the first symbol of each cycle (R60). `rx` gives
the symbols by physical lane. -/
def Chip.muxHost (s : Chip) (p : Nat) (rx : Nat → List Nat) : List Nat :=
  let x := s.port p
  let lanes := x.hostLanes.map (fun h => rx (s.physHost h))
  let n := max 1 x.hostCount
  (List.range 544).map (fun i =>
    let k := (x.muxPhase + i) % n
    let first := (k + n - x.muxPhase) % n
    (lanes.getD k []).getD ((i - first) / n) 0)

/-! ### The ports of a lane (R199, R204, R205) -/

/-- The port of logical lane `n` on tributary `t`: the whole-lane port for tributary 0. -/
def Chip.tribPort (s : Chip) (n t : Nat) : Option Nat := (s.portsOn n).find? (fun p => (s.port p).trib == t)

/-- Does logical lane `n` carry a whole-lane port? -/
def Chip.wholeLane (s : Chip) (n : Nat) : Bool :=
  (s.portsOn n).any (fun p => (modeOf (s.port p).mode).elim false (fun m => !m.trib))

/-- Does the tributary port run at 100 Gb/s (modes 0x08 and 0x09), R204? -/
def Port.slow (p : Port) : Bool := p.mode == 0x08 || p.mode == 0x09

/-- The quarters of lane `n`'s RS symbols that the stream of its tributary `t` fills: all of them for a whole-lane port, two for a
200 Gb/s tributary and one for a 100 Gb/s one (R202, R204). -/
def Chip.quarters (s : Chip) (n t : Nat) : Nat :=
  match s.tribPort n t with
  | none => 0
  | some p => if s.wholeLane n then 4 else if (s.port p).slow then 1 else 2

/-! ### Towards the line (R202 to R205) -/

/-- A codeword of port `p` on its way to the line: punctured on a Twist lane, whole on another (R12, R203). -/
def Chip.toLine (s : Chip) (p : Nat) (cw : List Nat) : Chip :=
  s.portMod p (fun x => { x with toLine := if x.twist then x.toLine ++ cw.take 540 else cw })

/-- Port `p` has at least `k` RS symbols for the line, standing in where it lacks them; the bound is enough for a round of the largest
bundle. -/
def Chip.lineFill (p k : Nat) : Nat → Chip → Chip
  | 0, s => s
  | b + 1, s =>
    if k ≤ (s.port p).toLine.length then s
    else let c := s.standIn p; Chip.lineFill p k b (c.2.toLine p c.1)

/-- The next `k` symbols of port `p`'s stream to the line. -/
def Chip.takeLine (s : Chip) (p k : Nat) : List Nat × Chip :=
  let s := Chip.lineFill p k 64 s
  ((s.port p).toLine.take k, s.portMod p (fun x => { x with toLine := x.toLine.drop k }))

/-- The 3072 RS symbols of a codeword of logical lane `n`, from its tributaries' symbols (R204). -/
def Chip.weave (s : Chip) (n : Nat) (r0 r1 : List Nat) : List Nat :=
  (List.range 3072).map (fun i =>
    let l := if i % 2 = 0 then r0 else r1
    let j := i / 2
    match s.quarters n (i % 2) with
    | 1 => if j % 2 = 0 then l.getD (j / 2) 0 else 0
    | 2 => l.getD j 0
    | _ => 0)

/-- The RS symbols of tributary `t` for a codeword of lane `n`. -/
def Chip.takeTrib (s : Chip) (n t : Nat) : List Nat × Chip :=
  match s.tribPort n t with
  | none => ([], s)
  | some p => s.takeLine p (768 * s.quarters n t)

/-- The RS symbols of the codewords that start together, by logical lane: a round of a bundle's port dealt to its lanes in ascending
order, one codeword to each (R60, R205), or the codeword of lane `n` alone. -/
def Chip.drawRound (s : Chip) (n : Nat) : List (Nat × List Nat) × Chip :=
  match (s.tribPort n 0).filter (fun p => (s.port p).bundle) with
  | some p =>
    let lanes := (s.port p).lineLanes
    let r := s.takeLine p (3072 * lanes.length)
    (lanes.zipIdx.map (fun l => (l.1, (r.1.drop (3072 * l.2)).take 3072)), r.2)
  | none =>
    let a := s.takeTrib n 0
    if s.wholeLane n then ([(n, a.1)], a.2)
    else let b := a.2.takeTrib n 1; ([(n, b.2.weave n a.1 b.1)], b.2)

/-! ### From the line (R204, R205, R239) -/

/-- RS symbols released for port `p`. -/
def Chip.fromLine (s : Chip) (p : Nat) (l : List Nat) : Chip := s.portMod p (fun x => { x with fromLine := x.fromLine ++ l })

/-- The symbols of tributary `t` in a codeword of lane `n`, the reverse of `weave` (R204). -/
def Chip.unweave (s : Chip) (n t : Nat) (l : List Nat) : List Nat :=
  let step := if s.quarters n t = 1 then 4 else 2
  (List.range (3072 / step)).map (fun i => l.getD (step * i + t) 0)

/-- A codeword of a bundle's port joins those of its round, the codewords that started in frames of equal FN; a whole round goes on in
ascending position (R205). -/
def Port.addRound (x : Port) (pos fn : Nat) (l : List Nat) : Port :=
  let all := x.rounds.filter (fun r => !(r.1 == pos && r.2.1 == fn)) ++ [(pos, fn, l)]
  let mine := all.filter (fun r => r.2.1 == fn)
  if mine.length = x.lineLanes.length then
    { x with
      rounds := all.filter (fun r => r.2.1 != fn)
      fromLine := x.fromLine ++ (List.range mine.length).flatMap (fun k => ((mine.find? (fun r => r.1 == k)).elim [] (fun r => r.2.2))) }
  else { x with rounds := all }

/-- The 3072 RS symbols of a codeword of logical lane `n` that started in a frame with number `fn`, to its ports. -/
def Chip.deliver (s : Chip) (n fn : Nat) (l : List Nat) : Chip :=
  match s.tribPort n 0 with
  | some p =>
    if (s.port p).bundle then s.portMod p (fun x => x.addRound (x.bundleByte n % 16) fn l)
    else if s.wholeLane n then s.fromLine p l
    else
      let s := s.fromLine p (s.unweave n 0 l)
      (s.tribPort n 1).elim s (fun q => s.fromLine q (s.unweave n 1 l))
  | none => (s.tribPort n 1).elim s (fun q => s.fromLine q (s.unweave n 1 l))

end Sys2Proof.Machine
end

