-- ==== Sys2Proof/Machine/HostLane.lean ====
section
/-! DEFINITION. Host lanes (spec/04): Twist-H and IEEE training, hand-off, data frames, signal and clock loss, lane order, and the
host lane commands; the quad synthesisers (spec/02 R26). -/

namespace Sys2Proof.Machine

/-! ### Coefficients (R71, R72, R108) -/

/-- The ranges of the six taps, R71. -/
def hostTapRanges : List (Int × Int) := [(-8, 0), (0, 12), (-38, 0), (64, 128), (-26, 0), (-8, 8)]

/-- The presets P1 to P4, R72. -/
def hostPreset : Nat → List Int
  | 1 => [0, 0, 0, 128, 0, 0]
  | 3 => [-2, 4, -20, 92, -10, 0]
  | 4 => [-4, 8, -28, 74, -12, -2]
  | _ => [0, 0, -12, 108, -8, 0]

/-- The fields of the six taps of lane `h`. -/
def hostTapFlds (h : Nat) : List Fld :=
  [HLN_TX_TAPS0.PRE3 h, HLN_TX_TAPS0.PRE2 h, HLN_TX_TAPS1.PRE1 h, HLN_TX_TAPS1.MAIN h, HLN_TX_TAPS2.POST1 h, HLN_TX_TAPS2.POST2 h]

/-- The six taps in force. -/
def Chip.hostTaps (s : Chip) (h : Nat) : List Int := (hostTapFlds h).map (fun f => signedOf 9 (s.fld f))

/-- The six taps changed together. -/
def Chip.setHostTaps (s : Chip) (h : Nat) (l : List Int) : Chip :=
  s.forAll ((hostTapFlds h).zip l) (fun s p => s.setFld p.1 (unsignedOf 9 p.2))

/-- Do six taps keep R71? -/
def hostTapsOk (l : List Int) : Bool :=
  l.length == 6 && (l.zip hostTapRanges).all (fun p => decide (p.2.1 ≤ p.1) && decide (p.1 ≤ p.2.2)) && decide (tapSum l ≤ 128)

/-- The outcome codes of R83 and R85. -/
def hostUpdated : Nat := 1
def hostNot : Nat := 5

/-- The outcome of a far-end request on the taps, R82, R85; a SET_PATTERN changes no tap. Log 70 (DEDUCED). -/
def judgeHost (taps : List Int) (req tap arg : Nat) : Nat × List Int :=
  if 4 < req ∨ 5 < tap ∨ (req = 3 ∧ (arg = 0 ∨ 4 < arg)) ∨ (req = 4 ∧ 1 < arg) ∨ (req < 3 ∧ arg ≠ 0) then (hostNot, taps)
  else if req = 3 then (hostUpdated, hostPreset arg)
  else if req = 4 then (hostUpdated, taps)
  else
    let v := taps.getD tap 0 + (if req = 1 then 1 else -1)
    let r := hostTapRanges.getD tap (0, 0)
    let new := taps.set tap v
    if v < r.1 then (2, taps)
    else if r.2 < v then (3, taps)
    else if 128 < tapSum new then (4, taps)
    else (hostUpdated, new)

/-! ### States (R106) -/

/-- The codes of `HLN_STATUS.TRAIN_STATE`. -/
def htOff : Nat := 0
def htSeek : Nat := 1
def htAdapt : Nat := 2
def htReady : Nat := 3
def htHandoff : Nat := 4
def htData : Nat := 5
def htFailed : Nat := 6
def htFixed : Nat := 7

/-- The training state of lane `h`. -/
def Chip.htState (s : Chip) (h : Nat) : Nat := s.fld (HLN_STATUS.TRAIN_STATE h)

/-- Lane `h` in a training state. -/
def Chip.setHt (s : Chip) (h st : Nat) : Chip := s.setFld (HLN_STATUS.TRAIN_STATE h) st

/-- Does lane `h` train: FRAME_SEEK to HANDOFF? -/
def Chip.hostTrains (s : Chip) (h : Nat) : Bool := decide (1 ≤ s.htState h) && decide (s.htState h ≤ 4)

/-- Does lane `h` carry data: DATA, or FIXED and locked? -/
def Chip.hostData (s : Chip) (h : Nat) : Bool := s.htState h == htData || s.htState h == htFixed

/-- Is lane `h` powered: its quad's domain is ON and it has not been powered down under R98? -/
def Chip.hostOn (s : Chip) (h : Nat) : Bool := s.pdOn (3 + quadOf h) && !(s.hostOf h).down

/-- Does lane `h` run at 400 Gb/s? -/
def Chip.host400 (s : Chip) (h : Nat) : Bool := s.fld (HLN_STATUS.RATE h) == 5

/-- What the equaliser shows, R106, R108; the SNR reads 0 without clock lock. -/
def Chip.showHostEq (s : Chip) (h : Nat) (q : HostEqIn) (ctle : Bool) : Chip :=
  let s := s.setFld (HLN_STATUS.RX_SNR h) (if s.flag (HLN_STATUS.CDR_LOCK h) then q.snr else 0)
  let s := (s.setFld (HLN_RX_EQ.AGC h) q.agc).hostMod h (fun x => { x with ffe := q.ffe })
  if ctle then s.setFld (HLN_RX_EQ.CTLE h) (min 12 q.ctle) else s

/-- Clock recovery of lane `h` loses lock; in data the fault is set (R107). -/
def Chip.hostUnlock (s : Chip) (h : Nat) : Chip :=
  let s := if s.hostData h && s.flag (HLN_STATUS.CDR_LOCK h) then s.setFlag (HLN_FAULT.CDR_UNLOCK h) true else s
  (s.setFlag (HLN_STATUS.CDR_LOCK h) false).setFld (HLN_STATUS.RX_SNR h) 0

/-- Clock recovery of lane `h` starts afresh. -/
def Chip.hostNoClock (s : Chip) (h : Nat) : Chip := (s.setFlag (HLN_STATUS.CDR_LOCK h) false).setFld (HLN_STATUS.RX_SNR h) 0

/-! ### Start of training (R72, R74, R76, R80, R102) -/

/-- The coefficients with which IEEE 802.3 training starts at a rate code (R74): the clause's initial condition on the taps that it
addresses, P1 on the others; P1 whole where these would break R71. Log 20 (DESIGN CHOICE). -/
def ieeeTaps (rate : Nat) : List Int :=
  let l := (hostPreset 1).zipIdx.map (fun p => if Config.ieeeAddresses rate p.2 then Config.ieeeStart rate p.2 else p.1)
  if hostTapsOk l then l else hostPreset 1

/-- The coefficients with which lane `h` starts. Log 20 (DESIGN CHOICE). -/
def Chip.hostStartTaps (s : Chip) (h : Nat) : List Int :=
  let q := s.quad (quadOf h)
  if q.fixed then (if (s.hostOf h).manual then s.hostTaps h else hostPreset q.preset)
  else if s.host400 h then hostPreset q.preset
  else ieeeTaps (s.fld (HLN_STATUS.RATE h))

/-- An open leg found at a start of training (R102); `openLegs` has the bit of each lane with a leg without termination.
Log 72 (DEDUCED). -/
def Chip.senseLegs (s : Chip) (h openLegs : Nat) : Chip :=
  let o := bit openLegs h
  let s := s.setFlag (HLN_STATUS.TX_OPEN h) o
  if o then (s.setFlag (HLN_FAULT.TX_OPEN h) true).raise (0x010 + h) 0 else s

/-- Lane `h` starts to train, or to find its data where its mode is FIXED; in a quad whose order is at fault it is the later
training of R99. Log 72 (DEDUCED). -/
def Chip.hostStart (s : Chip) (h openLegs : Nat) : Chip :=
  let q := s.quad (quadOf h)
  let s := s.senseLegs h openLegs
  let s := s.setHostTaps h (s.hostStartTaps h)
  let s := (s.setFlag (HLN_STATUS.TRAINED h) false).setFlag (HLN_STATUS.POL_INV h) false
  let s := s.quadMod (quadOf h) (fun x => { x with laterTraining := x.orderFault })
  let s := s.hostMod h (fun x => { claimed := x.claimed, manual := x.manual, ffe := x.ffe, seqOut := x.seqOut, reqOut := x.reqOut
                                   gen := x.gen, chk := x.chk, pattern := q.pattern, ieeeMode := !(s.host400 h) })
  (s.hostNoClock h).setHt h (if q.fixed then htFixed else htSeek)

/-- Training restarts on lane `h`. -/
def Chip.hostRestart (s : Chip) (h openLegs : Nat) : Chip :=
  ((s.satInc (HLN_TRAIN_STATUS.RESTART_CNT h) 1).hostStart h openLegs).settle

/-- Lane `h` is off: not in use. -/
def Chip.hostStop (s : Chip) (h : Nat) : Chip :=
  let s := (s.hostNoClock h).setFlag (HLN_STATUS.TRAINED h) false
  (s.hostMod h (fun x => { claimed := x.claimed, manual := x.manual, gen := x.gen, chk := x.chk })).setHt h htOff

/-! ### Lane order (R97 to R99) -/

/-- The physical lanes of quad `q`. -/
def quadLanes (q : Nat) : List Nat := (List.range 4).map (fun k => 4 * q + k)

/-- Is lane `h` used by a port, in either order? -/
def Chip.hostUsed (s : Chip) (h : Nat) : Bool := (s.portOfHost (s.physHost h)).isSome

/-- The lanes concerned in quad `q` marked with a lane order fault, and the event once in each training that finds one (R99). -/
def Chip.orderBad (s : Chip) (q : Nat) (marks : List Nat) : Chip :=
  let x := s.quad q
  let s := s.forAll marks (fun s h => s.setFlag (HLN_FAULT.ORDER_FAULT h) true)
  if x.orderFault && !x.laterTraining then s
  else (s.quadMod q (fun x => { x with orderFault := true, laterTraining := false, orderKnown := false })).raise (0x040 + q) 0

/-- The order of quad `q` is known: the lanes in use that are off train, the others are powered down (R98).
Log 71 (DEDUCED). -/
def Chip.orderFound (s : Chip) (q openLegs : Nat) : Chip :=
  let used := (quadLanes q).filter s.hostUsed
  let s := s.quadMod q (fun x => { x with orderKnown := true })
  let s := s.forAll (used.filter (fun h => s.htState h == htOff)) (fun s h => s.hostStart h openLegs)
  s.forAll ((quadLanes q).filter (fun h => !(used.contains h) && !(s.hostOf h).claimed)) (fun s h =>
    (s.hostStop h).hostMod h (fun x => { x with down := true }))

/-- The lane order of quad `q` judged over the lanes that deliver an identification, once it is known over the lanes in use (R97).
It is known when every lane in use has delivered one, or it is a fault; a fault stands until a later training finds a consistent
order over every lane in use (R99). Log 71 (DEDUCED). -/
def Chip.judgeOrder (s : Chip) (q openLegs : Nat) : Chip :=
  let x := s.quad q
  let ls := (quadLanes q).filter (fun h => s.hostOn h && (s.hostOf h).farId.isSome && (!x.orderKnown || s.hostUsed h))
  let straight := ls.all (fun h => decide ((s.hostOf h).farId = some (h % 4)))
  let rev := ls.all (fun h => decide ((s.hostOf h).farId = some (3 - h % 4)))
  let bad := ls.filter (fun h => (s.hostOf h).targetBad)
  if ls.isEmpty then s
  else if !(straight || rev) then s.orderBad q ls
  else if !bad.isEmpty then s.orderBad q bad
  else if x.orderFault && !x.laterTraining then s
  else
    let s := s.forAll (quadLanes q) (fun s h => s.setFlag (HLN_STATUS.ORDER_REV h) (rev && !straight))
    if ((quadLanes q).filter s.hostUsed).all (fun h => (s.hostOf h).farId.isSome) then
      let s := s.quadMod q (fun x => { x with orderFault := false, laterTraining := false })
      if x.orderKnown then s else s.orderFound q openLegs
    else s

/-- A far lane position heard on lane `h`. Log 71 (DEDUCED). -/
def Chip.hearId (s : Chip) (h id openLegs : Nat) : Chip :=
  let s := (s.setFld (HLN_STATUS.FAR_LANE_ID h) id).hostMod h (fun x => { x with farId := some (id % 4) })
  s.judgeOrder (quadOf h) openLegs

/-! ### TRAINED (R76, R88, R315) -/

/-- Lane `h` reports TRAINED: a HOST_RETRAIN of it completes with its status. -/
def Chip.hostTrained (s : Chip) (h : Nat) : Chip :=
  let s := (s.setFlag (HLN_STATUS.TRAINED h) true).hostMod h (fun x => { x with watch := false, lostAfterData := false })
  let s := s.endWait (fun w => decide (w = .hostRetrain h)) (.okR (leBytes 4 (s.reg (HLN_STATUS.addr h)).toNat))
  s.settle

/-! ### Twist-H frames (R79 to R89) -/

/-- A message word with its CRC-16 over bits [63:16], R81. Log 70 (DEDUCED). -/
def hostCrcOk (w : Nat) : Bool := crcBits 16 0x1021 0xFFFF (msbBits 48 (w / 2 ^ 16)) == w % 2 ^ 16

/-- The far end's request acted on at a frame boundary, each SEQ once (R84, R85). Log 70 (DEDUCED). -/
def Chip.hostFarReq (s : Chip) (h ctrl : Nat) : Chip :=
  let req := bitsOf ctrl 20 4
  let tap := bitsOf ctrl 17 3
  let arg := bitsOf ctrl 13 4
  let seq := bitsOf ctrl 0 8
  if (s.hostOf h).seqIn = some seq ∧ (req = 0 ∨ (s.hostOf h).respOut ≠ 0) then s
  else if req = 0 then s.hostMod h (fun x => { x with seqIn := some seq, respOut := 0, respTap := tap })
  else
    let r := judgeHost (s.hostTaps h) req tap arg
    let s := if r.1 = hostUpdated then s.setHostTaps h r.2 else s
    s.hostMod h (fun x => { x with
      seqIn := some seq
      respOut := r.1
      respTap := tap
      pattern := if r.1 = hostUpdated ∧ req = 4 then arg else x.pattern
      sent := if r.1 = hostUpdated ∧ req = 4 ∧ arg ≠ x.pattern then 0 else x.sent })

/-- The far end's status field: the echo of the own request, readiness and countdown (R84, R88, R89).
Log 70 (DEDUCED). -/
def Chip.hostFarStatus (s : Chip) (h st : Nat) : Chip :=
  let s := s.setFld (HLN_TRAIN_STATUS.LAST_RESP h) (bitsOf st 20 4)
  s.hostMod h (fun x => { x with
    echoWait := x.echoWait && bitsOf st 0 8 != x.seqOut
    farReady := if bit st 16 then min 3 (x.farReady + 1) else 0
    farLeft := if bit st 13 then some (bitsOf st 10 3) else x.farLeft })

/-- The fields REQ, TAP and ARG of a request, R82; a request that names no tap carries an open one.
Log 129 (DESIGN CHOICE). -/
def hostReqOf (h : Nat) : HostAsk → HostReq
  | .inc t => ⟨1, t.1, 0⟩
  | .dec t => ⟨2, t.1, 0⟩
  | .preset p => ⟨3, (Config.hostUnsaid h).2.1 % 6, p.1 + 1⟩
  | .pattern b => ⟨4, (Config.hostUnsaid h).2.1 % 6, b2n b⟩

/-- A new request of the own receiver: one at a time, and none after RX_READY until training restarts (R84, R87). -/
def Chip.hostAsk (s : Chip) (h : Nat) (a : Option HostAsk) : Chip :=
  match a with
  | none => s
  | some a =>
    if (s.hostOf h).echoWait || (s.hostOf h).holdOnly then s
    else
      let seq := ((s.hostOf h).seqOut + 1) % 256
      let r := hostReqOf h a
      let s := s.hostMod h (fun x => { x with seqOut := seq, reqOut := r, echoWait := true })
      (s.setFld (HLN_TRAIN_STATUS.LAST_SEQ h) seq).setFld (HLN_TRAIN_STATUS.LAST_REQ h) r.req

/-- Do the decisions on symbols 0 to 32 hold a change from `a` to `b` after at least 24 decisions `a` (R79)? -/
def runThenChange (a b : Nat) (l : List Nat) : Bool := ((l.take 32).drop 8).all (· == a) && decide (24 ≤ (l.take 32).length - 8) && l.getD 32 a == b

/-- The marker in the decisions on symbols 0 to 32: whether it came inverted, none where there is no marker (R79, R96). -/
def markerIn (l : List Nat) : Option Bool :=
  if runThenChange 2 0 l then some false else if runThenChange 0 2 l then some true else none

/-- Markers found and missed, and frame lock (R79); without frame lock a lane in training seeks again and is not ready (R87). -/
def Chip.hostMarker (s : Chip) (h : Nat) (mark : Option Bool) : Chip :=
  let x := s.hostOf h
  match mark with
  | some inverted =>
    let n := min 3 (x.markers + 1)
    let s := s.setFlag (HLN_STATUS.POL_INV h) inverted
    let s := s.hostMod h (fun x => { x with markers := n, misses := 0, frameLock := x.frameLock || n == 3 })
    if !x.frameLock && n == 3 then
      let s := s.setFlag (HLN_STATUS.CDR_LOCK h) true
      if s.htState h = htSeek then s.setHt h htAdapt else s
    else s
  | none =>
    let n := min 4 (x.misses + 1)
    let s := s.hostMod h (fun x => { x with markers := 0, misses := n })
    if x.frameLock && n == 4 then
      let s := s.hostMod h (fun x => { x with frameLock := false, farReady := 0, rxReady := x.rxReady && x.farLeft.isSome })
      if s.hostTrains h && x.farLeft.isNone && x.countdown.isNone then s.setHt h htSeek else s
    else s

/-- A direction of lane `h` hands off; with both the lane is in DATA (R88, R89). The data frames of the transmit direction begin,
with their fill afresh; those of the receive direction are looked for (R91). -/
def Chip.handOver (s : Chip) (h : Nat) (tx : Bool) : Chip :=
  let s := s.hostMod h (fun x => if tx then { x with txDone := true, filled := 0 }
    else { x with rxDone := true, farLeft := none, markers := 0, misses := 0, dataMarkers := 0, dataMisses := 0, dataLock := false })
  if (s.hostOf h).txDone && (s.hostOf h).rxDone then (s.setHt h htData).hostTrained h else s.setHt h htHandoff

/-- The slots of a data frame, R91. -/
def dataSlots : Nat := 3264

/-- COUNT of the next data frame of lane `h`: 3040 to 3100, as the part chooses it to keep its buffer centred (R91, R207).
Log 133 (DESIGN CHOICE). -/
def Chip.hostCountNow (s : Chip) (h : Nat) : Nat := 3040 + Config.countChoice (s.hostOf h).out.length % 61

/-- The symbols of the training pattern in a frame (R77). -/
def patternPart : Nat := 15808

/-- Lane `h` sends a data frame: COUNT of the RS symbols that wait for it, and the fill (R90, R91). -/
def Chip.hostDataSent (s : Chip) (h : Nat) : Chip :=
  let k := s.hostCountNow h
  let s := s.hostNeed h k
  s.hostMod h (fun x => { x with out := x.out.drop k, filled := x.filled + (dataSlots - k) })

/-- What the transmitter sends in a frame time. In training: its part of the pattern (R80), RX_READY, and the countdown of R88, after
whose 0 the first data frame follows; in data, or without training (R76): a data frame. -/
def Chip.hostSent (s : Chip) (h : Nat) : Chip :=
  let x := s.hostOf h
  if x.txDone || s.htState h == htFixed then s.hostDataSent h
  else
    match x.countdown with
    | some 0 => (s.handOver h true).hostDataSent h
    | some (k + 1) => s.hostMod h (fun x => { x with countdown := some k, sent := x.sent + patternPart })
    | none =>
      let s := s.hostMod h (fun x => { x with sent := x.sent + patternPart })
      if x.readySent && decide (3 ≤ x.farReady) then
        (s.hostMod h (fun x => { x with countdown := some 7 })).setHt h htHandoff
      else s.hostMod h (fun x => { x with readySent := x.rxReady })

/-- A frame time of the far end's countdown (R89): after its 0 the receive direction is in data. -/
def Chip.hostFarTime (s : Chip) (h : Nat) : Chip :=
  match (s.hostOf h).farLeft with
  | none => s
  | some 0 => s.handOver h false
  | some (k + 1) => s.hostMod h (fun x => { x with farLeft := some k })

/-- A message block with a right CRC, R82, R83, R97, R99. Log 70 (DEDUCED). -/
def Chip.hostMessage (s : Chip) (h w openLegs : Nat) : Chip :=
  let ctrl := w / 2 ^ 40
  let st := w / 2 ^ 16 % 2 ^ 24
  let s := if bitsOf ctrl 11 2 ≠ h % 4 then s.hostMod h (fun x => { x with targetBad := true }) else s
  let s := s.hearId h (bitsOf st 14 2) openLegs
  if s.hostTrains h then (s.hostFarReq h ctrl).hostFarStatus h st else s

/-- A lane in data or under watch that receives training frames starts to train (R94, R101); a quad set FIXED meanwhile takes that
mode then, and its lane does not train (R73). Log 75 (DEDUCED). -/
def Chip.hostMarkersInData (s : Chip) (h : Nat) (openLegs : Nat) : Chip :=
  let s := s.hostRestart h openLegs
  if s.htState h = htSeek then
    ((s.hostMod h (fun x => { x with markers := 3, frameLock := true })).setFlag (HLN_STATUS.CDR_LOCK h) true).setHt h htAdapt
  else s

/-- A Twist-H frame time on a lane whose receive direction is in data: three markers in a row are the far end's training (R94). -/
def Chip.hostFrameInData (s : Chip) (h : Nat) (mark : Option Bool) (openLegs : Nat) : Chip :=
  let s := s.hostMod h (fun x => { x with markers := if mark.isSome then min 3 (x.markers + 1) else 0 })
  if (s.hostOf h).markers = 3 then s.hostMarkersInData h openLegs else s.hostSent h

/-- A Twist-H frame time on a lane that trains: markers, the own frame, the message block, and the own receiver's wishes. A block is
read where the marker or frame lock tells its place. -/
def Chip.hostFrameInTraining (s : Chip) (h : Nat) (f : HFrameIn) (mark : Option Bool) (openLegs : Nat) : Chip :=
  let s := (s.hostMarker h mark).hostSent h
  let placed := mark.isSome || (s.hostOf h).frameLock
  let s := if placed && !(hostCrcOk f.word.toNat) then s.satInc (HLN_TRAIN_STATUS.CRC_ERR_CNT h) 1 else s
  let s := if placed && hostCrcOk f.word.toNat then s.hostMessage h f.word.toNat openLegs else s
  let s := if s.htState h = htAdapt && f.ready && !(s.hostOf h).echoWait then
      (s.hostMod h (fun x => { x with rxReady := true, holdOnly := true })).setHt h htReady
    else s.hostAsk h f.ask
  (s.showHostEq h f.eq true).settle

/-- One Twist-H frame time on lane `h`. A lane that is off only delivers its identification (R98). A time without a marker leaves
the count of frames with RX_READY as it is. Log 70 (DEDUCED). -/
def Chip.hostFrame (s : Chip) (h : Nat) (f : HFrameIn) (openLegs : Nat) : Chip :=
  let st := s.htState h
  let mark := markerIn (f.marks.map (fun v => v.1))
  if !(s.hostOn h) || !(s.host400 h) || st == htFixed || st == htFailed then s
  else if st = htOff then
    if mark.isSome && hostCrcOk f.word.toNat then s.hostMessage h f.word.toNat openLegs else s
  else
    let s := s.hostFarTime h
    if s.htState h = htData ∨ (s.hostOf h).rxDone = true then s.hostFrameInData h mark openLegs
    else s.hostFrameInTraining h f mark openLegs

/-- TWIST_H_FRAME (R79 to R89, R94, R96, R97, R99, R102): one Twist-H frame time on host lane `h`. Log 74 (DEDUCED). -/
def execTwistHFrame (h : HLane) (f : HFrameIn) (openLegs : BitVec 16) (s : State) : Host.Outcome State Fault Refusal :=
  chipNext s (fun c => c.hostFrame h.1 f openLegs.toNat)

/-- A direction of lane `h` hands off where it is due: at 400 Gb/s its countdown, or the far end's, has run to 0. -/
def Chip.handoff (s : Chip) (h : Nat) (tx : Bool) : Chip :=
  let x := s.hostOf h
  let due := if s.host400 h then (if tx then decide (x.countdown = some 0) else decide (x.farLeft = some 0)) else decide (htReady ≤ s.htState h)
  if s.hostOn h && s.hostTrains h && due && !(if tx then x.txDone else x.rxDone) then s.handOver h tx else s

/-- HANDOFF (R88, R89): the transmit direction (`tx`) or the receive direction of lane `h` carries data from here on.
Log 74 (DEDUCED). -/
def execHandoff (h : HLane) (tx : Bool) (s : State) : Host.Outcome State Fault Refusal := chipNext s (fun c => c.handoff h.1 tx)

/-- ECHO_TIMEOUT (R86, R92): a request of lane `h` has had no echo for 1 ms. -/
def execEchoTimeout (h : HLane) (openLegs : BitVec 16) (s : State) : Host.Outcome State Fault Refusal :=
  chipNext s (fun c =>
    if c.hostOn h.1 && c.hostTrains h.1 && (c.hostOf h.1).echoWait then c.hostRestart h.1 openLegs.toNat else c)

/-- TRAINING_TIMEOUT (R92): 500 ms after FRAME_SEEK the lane has not handed off. -/
def execTrainingTimeout (h : HLane) (s : State) : Host.Outcome State Fault Refusal :=
  chipNext s (fun c =>
    if c.hostOn h.1 && c.hostTrains h.1 then
      (((c.hostUnlock h.1).setHt h.1 htFailed).setFlag (HLN_FAULT.TRAIN_FAIL h.1) true).raise (0x020 + h.1) 0
    else c)

/-- TRAINING_RETRY (R92, R102): 100 ms after it failed. -/
def execTrainingRetry (h : HLane) (openLegs : BitVec 16) (s : State) : Host.Outcome State Fault Refusal :=
  chipNext s (fun c => if c.hostOn h.1 && c.htState h.1 == htFailed then c.hostRestart h.1 openLegs.toNat else c)

/-! ### IEEE training, FIXED (R74 to R76) -/

/-- The far end's IEEE request on lane `h` (R71, R74): a coefficient that the clause does not address stays as it is, and precoding
is there at PAM4 rates only. The preset request is taken as P1. Log 20 (DESIGN CHOICE). -/
def Chip.ieeeAsk (s : Chip) (h : Nat) (a : IeeeAsk) : Chip :=
  let rate := s.fld (HLN_STATUS.RATE h)
  let step := fun (up t : Nat) =>
    if Config.ieeeAddresses rate t then
      let r := judgeHost (s.hostTaps h) up t 0
      if r.1 = hostUpdated then s.setHostTaps h r.2 else s
    else s
  match a with
  | .init => s.setHostTaps h (ieeeTaps rate)
  | .preset => s.setHostTaps h (hostPreset 1)
  | .inc t => step 1 t.1
  | .dec t => step 2 t.1
  | .precode on => if rate = 1 then s else s.hostMod h (fun x => { x with precode := on })

/-- One IEEE training frame on lane `h`; a lane that is off only delivers its identification (R98), and one that has fallen back
(R75) still trains. Log 75 (DEDUCED). -/
def Chip.ieeeFrame (s : Chip) (h : Nat) (f : IeeeIn) (openLegs : Nat) : Chip :=
  if !(s.hostOn h) || s.host400 h || s.htState h == htFailed || (s.htState h == htFixed && !(s.hostOf h).fallback) || !f.valid then s
  else
    let s := f.pos.elim s (fun p => s.hearId h p.1 openLegs)
    let s := if s.hostData h then s.hostRestart h openLegs else s
    if s.hostTrains h then
      let s := (s.setFlag (HLN_STATUS.POL_INV h) f.inverted).setFlag (HLN_STATUS.CDR_LOCK h) true
      let s := s.hostMod h (fun x => { x with frameLock := true })
      let s := if s.htState h = htSeek then s.setHt h htAdapt else s
      let s := f.ask.elim s (s.ieeeAsk h)
      let s := if f.done && decide (s.htState h = htAdapt) then s.setHt h htReady else s
      (s.showHostEq h f.eq true).settle
    else s

/-- IEEE_TRAINING_FRAME (R74, R94, R96, R97, R99, R101). Log 74 (DEDUCED). -/
def execIeeeTrainingFrame (h : HLane) (f : IeeeIn) (openLegs : BitVec 16) (s : State) : Host.Outcome State Fault Refusal :=
  chipNext s (fun c => c.ieeeFrame h.1 f openLegs.toNat)

/-- TRAINING_FALLBACK (R75): no valid training frame within 20 ms of signal, and the receiver locks to data. -/
def execTrainingFallback (h : HLane) (s : State) : Host.Outcome State Fault Refusal :=
  chipNext s (fun c =>
    if c.hostOn h.1 && !(c.host400 h.1) && c.htState h.1 == htSeek && c.flag (HLN_STATUS.SIGNAL h.1) then
      ((c.hostMod h.1 (fun x => { x with fallback := true })).setFlag (HLN_STATUS.CDR_LOCK h.1) true).setHt h.1 htFixed
    else c)

/-- Lane `h` without training has found clock, equaliser and alignment (R76); a lane that is off only delivers its identification
while the order is sought (R97). -/
def Chip.fixedTrained (s : Chip) (h : Nat) (f : FixedIn) (openLegs : Nat) : Chip :=
  let q := s.quad (quadOf h)
  if s.hostOn h && s.htState h == htOff && q.fixed && !q.orderKnown then s.hearId h f.pos.1 openLegs
  else if s.hostOn h && s.htState h == htFixed && s.flag (HLN_STATUS.SIGNAL h) && !(s.flag (HLN_STATUS.TRAINED h)) &&
      (!(s.host400 h) || (s.hostOf h).dataLock) then
    let s := (s.setFlag (HLN_STATUS.CDR_LOCK h) true).setFlag (HLN_STATUS.POL_INV h) f.inverted
    let s := s.hearId h f.pos.1 openLegs
    if s.htState h = htFixed then (s.showHostEq h f.eq true).hostTrained h else s
  else s

/-- FIXED_TRAINED (R76, R96, R97, R102). -/
def execFixedTrained (h : HLane) (f : FixedIn) (openLegs : BitVec 16) (s : State) : Host.Outcome State Fault Refusal :=
  chipNext s (fun c => c.fixedTrained h.1 f openLegs.toNat)

/-! ### Data frames (R91) -/

/-- Does a count word hold a right CRC and a COUNT in range? -/
def countWordOk (w : Nat) : Bool :=
  crcBits 16 0x1021 0xFFFF (msbBits 16 (w / 2 ^ 16)) == w % 2 ^ 16 && decide (3040 ≤ w / 2 ^ 20) && decide (w / 2 ^ 20 ≤ 3100)

/-- The data marker of R91. -/
def dataMarker : Nat := 0x9D2C5AE3

/-- The data marker in 32 decisions, at most 3 of them wrong: whether it came inverted, none where it is not there (R91, R96). -/
def dataMarkerIn (m : Nat) : Option Bool :=
  let wrong := popCount 32 (m ^^^ dataMarker)
  if wrong ≤ 3 then some false else if 29 ≤ wrong then some true else none

/-- The marker of a data frame found or missed, and data-frame lock (R91). Log 69 (DEDUCED). -/
def HostLane.dataMark (x : HostLane) (found : Bool) : HostLane :=
  if found then
    let n := min 3 (x.dataMarkers + 1)
    { x with dataMarkers := n, dataMisses := 0, dataLock := x.dataLock || n == 3, dataLost := x.dataLost && n != 3 }
  else
    let n := min 4 (x.dataMisses + 1)
    { x with dataMarkers := 0, dataMisses := n, dataLock := x.dataLock && n != 4, dataLost := x.dataLost || n == 4 }

/-- The RS symbols of a data frame join those received; without lock there are none. At most ten frames' slots are kept (log 97,
DEDUCED). -/
def HostLane.takeSlots (x : HostLane) (slots : List Nat) : HostLane :=
  let l := x.got ++ slots.take x.count
  { x with got := if x.dataLock then l.drop (l.length - 32640) else [] }

/-- One data frame time on lane `h`. A lane that runs FIXED takes the polarity from the marker, and without data-frame lock it is not
TRAINED (R76, R96, R106); the other lanes have it from their training. Log 69 (DEDUCED). -/
def Chip.dataFrame (s : Chip) (h : Nat) (f : DataFrameIn) : Chip :=
  let fixed := decide (s.htState h = htFixed)
  if s.hostOn h && s.host400 h && (s.hostData h || (s.hostOf h).rxDone) then
    let mark := dataMarkerIn f.marker.toNat
    let found := if fixed then mark.isSome else decide (mark = some (s.flag (HLN_STATUS.POL_INV h)))
    let s := s.hostMod h (fun x => x.dataMark found)
    let s := s.when (fixed && found) (fun s => s.setFlag (HLN_STATUS.POL_INV h) (mark == some true))
    let s := s.when (fixed && (s.hostOf h).dataLost) (fun s => s.setFlag (HLN_STATUS.TRAINED h) false)
    let w := f.word.toNat
    let s := if countWordOk w then s.hostMod h (fun x => { x with count := w / 2 ^ 20 })
      else s.satInc (HLN_TRAIN_STATUS.CRC_ERR_CNT h) 1
    let s := s.hostMod h (fun x => x.takeSlots (f.slots.map (fun v => v.1)))
    ((s.hostSent h).showHostEq h f.eq false).settle
  else s

/-- DATA_FRAME (R90, R91, R96). Log 69 (DEDUCED). -/
def execDataFrame (h : HLane) (f : DataFrameIn) (s : State) : Host.Outcome State Fault Refusal :=
  chipNext s (fun c => c.dataFrame h.1 f)

/-! ### Signal and transmit faults (R100 to R103) -/

/-- HOST_LOS (R100): the input of lane `h` has stayed below the level of loss. -/
def execHostLos (h : HLane) (s : State) : Host.Outcome State Fault Refusal :=
  chipNext s (fun c =>
    if c.hostOn h.1 && c.flag (HLN_STATUS.SIGNAL h.1) then
      let data := c.hostData h.1 && c.flag (HLN_STATUS.TRAINED h.1)
      let c := (c.setFlag (HLN_STATUS.SIGNAL h.1) false).setFlag (HLN_FAULT.LOS h.1) true
      let c := (c.hostUnlock h.1).hostMod h.1 (fun x => { x with lostAfterData := x.lostAfterData || data, watch := false })
      let c := if c.htState h.1 = htFixed then c.setFlag (HLN_STATUS.TRAINED h.1) false else c
      (c.setLevel h.1 true 0).settle
    else c)

/-- HOST_SIGNAL_RETURN (R100, R101): a lane that had handed off is watched for 1 ms. Log 75 (DEDUCED). -/
def execHostSignalReturn (h : HLane) (s : State) : Host.Outcome State Fault Refusal :=
  chipNext s (fun c =>
    if c.hostOn h.1 && !(c.flag (HLN_STATUS.SIGNAL h.1)) then
      let c := (c.setFlag (HLN_STATUS.SIGNAL h.1) true).setLevel h.1 false 0
      (c.hostMod h.1 (fun x => { x with watch := x.lostAfterData, markers := 0 })).settle
    else c)

/-- HOST_RELOCK (R101): the receiver locks to data with the equaliser state that it held. Log 75 (DEDUCED). -/
def execHostRelock (h : HLane) (s : State) : Host.Outcome State Fault Refusal :=
  chipNext s (fun c =>
    if c.hostOn h.1 && (c.hostOf h.1).watch && c.hostData h.1 then
      let c := (c.setFlag (HLN_STATUS.CDR_LOCK h.1) true).setFlag (HLN_STATUS.TRAINED h.1) true
      (c.hostMod h.1 (fun x => { x with watch := false, lostAfterData := false })).settle
    else c)

/-- HOST_WATCH_EXPIRY (R101): neither training frames nor a lock within 1 ms. Log 75 (DEDUCED). -/
def execHostWatchExpiry (h : HLane) (openLegs : BitVec 16) (s : State) : Host.Outcome State Fault Refusal :=
  chipNext s (fun c => if c.hostOn h.1 && (c.hostOf h.1).watch then c.hostRestart h.1 openLegs.toNat else c)

/-- HOST_TX_SHORT (R103): a transmit leg of lane `h` enters current limiting, or the short is gone and the lane retrains. -/
def execHostTxShort (h : HLane) (on : Bool) (openLegs : BitVec 16) (s : State) : Host.Outcome State Fault Refusal :=
  chipNext s (fun c =>
    if !(c.pdOn (3 + quadOf h.1)) || c.flag (HLN_STATUS.TX_SHORT h.1) == on then c
    else
      let c := c.setFlag (HLN_STATUS.TX_SHORT h.1) on
      if on then (c.setFlag (HLN_FAULT.TX_SHORT h.1) true).raise (0x010 + h.1) 0
      else if c.htState h.1 = htOff then c
      else c.hostRestart h.1 openLegs.toNat)

/-! ### Quad synthesisers (R25, R26, R95) -/

/-- Clock recovery of a lane of an unlocked quad: a lane that ran FIXED and was locked is not TRAINED until it has locked again
(R26, R106). -/
def Chip.quadUnlock (s : Chip) (h : Nat) : Chip :=
  let run := s.htState h == htFixed && s.flag (HLN_STATUS.TRAINED h)
  (s.hostUnlock h).when run (fun s =>
    (s.setFlag (HLN_STATUS.TRAINED h) false).hostMod h (fun x => { x with lostAfterData := true }))

/-- HQ_UNLOCK (R26): the synthesiser of quad `q` loses lock. -/
def execHqUnlock (q : Quad) (s : State) : Host.Outcome State Fault Refusal :=
  chipNext s (fun c =>
    if c.pdOn (3 + q.1) && bit (c.fld CLK_HQ_STATUS.LOCK) q.1 then
      let c := (c.setFldBit CLK_HQ_STATUS.LOCK q.1 false).quadMod q.1 (fun x => { x with relocking := true })
      let c := c.forAll (quadLanes q.1) Chip.quadUnlock
      (c.raise 0x1D2 q.1).settle
    else c)

/-- Lane `h` as its synthesiser has locked again: one that has not handed off starts its training afresh (R95), one that carries
data resumes (R26). -/
def Chip.quadRelock (s : Chip) (h openLegs : Nat) : Chip :=
  let x := s.hostOf h
  if s.hostTrains h || s.htState h == htFailed then s.hostRestart h openLegs
  else if s.hostData h && (s.flag (HLN_STATUS.TRAINED h) || x.lostAfterData) && s.flag (HLN_STATUS.SIGNAL h) && !x.watch then
    ((s.setFlag (HLN_STATUS.CDR_LOCK h) true).setFlag (HLN_STATUS.TRAINED h) true).hostMod h (fun x => { x with lostAfterData := false })
  else s

/-- HQ_RELOCK (R26, R95): the synthesiser has locked again. -/
def execHqRelock (q : Quad) (openLegs : BitVec 16) (s : State) : Host.Outcome State Fault Refusal :=
  chipNext s (fun c =>
    if c.pdOn (3 + q.1) && (c.quad q.1).relocking then
      let c := (c.setFldBit CLK_HQ_STATUS.LOCK q.1 true).quadMod q.1 (fun x => { x with relocking := false })
      (c.forAll (quadLanes q.1) (fun c h => c.quadRelock h openLegs.toNat)).settle
    else c)

/-! ### Commands (R105, R315) -/

/-- HOST_TRAIN_CFG (R72, R75, R76): the settings of a quad for the next training. Log 10 (DESIGN CHOICE). -/
def execHostTrainCfg (src : CmdSrc) (s : State) : Host.Outcome State Fault Refusal :=
  chipNext s (fun c => c.krelin src 0x0301 (fun c r =>
    let b := byteAt r.payload
    if 3 < b 0 ∨ 1 < b 1 ∨ b 2 = 0 ∨ 4 < b 2 ∨ 1 < b 3 then (c, .done (.fail .badArg))
    else
      let c := c.quadMod (b 0) (fun x => { x with fixed := b 1 == 1, preset := b 2, pattern := b 3 })
      let c := c.forAll (quadLanes (b 0)) (fun c h => c.hostMod h (fun x => { x with manual := false }))
      (c.keepConfig, .done (.okR []))))

/-- HOST_RETRAIN (R94, R105, R315). -/
def execHostRetrain (src : CmdSrc) (openLegs : BitVec 16) (s : State) : Host.Outcome State Fault Refusal :=
  chipNext s (fun c => c.krelin src 0x0302 (fun c r =>
    let h := byteAt r.payload 0
    if 15 < h then (c, .done (.fail .badArg))
    else if !(c.hostUsed h) || !(c.pdOn (3 + quadOf h)) then (c, .done (.fail .badState))
    else (c.hostRestart h openLegs.toNat, .runs (.hostRetrain h))))

/-- HOST_LANE_STATUS (R106 to R108). -/
def execHostLaneStatus (src : CmdSrc) (s : State) : Host.Outcome State Fault Refusal :=
  chipNext s (fun c => c.krelin src 0x0303 (fun c r =>
    let h := byteAt r.payload 0
    (c, .done (if 15 < h then .fail .badArg
      else .okD (wordBytes [c.reg (HLN_STATUS.addr h), c.seen (HLN_TRAIN_STATUS.addr h), c.reg (HLN_TX_TAPS0.addr h),
        c.reg (HLN_TX_TAPS1.addr h), c.reg (HLN_TX_TAPS2.addr h)])))))

/-- Is lane `h` in FIXED mode: the mode in force, or for a lane that is off the one set for its next training?
Log 73 (DEDUCED). -/
def Chip.hostFixed (s : Chip) (h : Nat) : Bool :=
  if s.htState h = htOff then (s.quad (quadOf h)).fixed else s.htState h == htFixed && !(s.hostOf h).fallback

/-- HOST_TX_SET: a preset, or six coefficients that keep R71; a quad that is not ON answers BAD_STATE.
Log 73 (DEDUCED). -/
def Chip.hostTxSet (s : Chip) (l : List Byte) : Chip × Verdict :=
  let h := byteAt l 0
  let p := byteAt l 1
  let taps := if p = 0 then sx16s l 4 6 else hostPreset p
  if 15 < h ∨ 4 < p ∨ hostTapsOk taps = false then (s, .done (.fail .badArg))
  else if !(s.hostFixed h) || !(s.pdOn (3 + quadOf h)) then (s, .done (.fail .badState))
  else ((s.setHostTaps h taps).hostMod h (fun x => { x with manual := true }), .done (.okR []))

/-- HOST_TX_SET (R71, R73, R105, R315). -/
def execHostTxSet (src : CmdSrc) (s : State) : Host.Outcome State Fault Refusal :=
  chipNext s (fun c => c.krelin src 0x0304 (fun c r => c.hostTxSet r.payload))

end Sys2Proof.Machine
end

