-- ==== Sys2Proof/Machine/Twine.lean ====
section
/-! DEFINITION. The Twine code (spec/09 R225 to R227) and the symbol level of Twist framing (spec/08 R194 to R197, R209 to R212): Gray
mapping, scrambler, run-length rule, stuffing and its removal, and the overhead word. -/

namespace Sys2Proof.Machine

/-! ### Twine (R225 to R227). A block of 256 bits is a bit vector whose bit i is position i. -/

/-- A block of the parity-check matrix. -/
abbrev TwBlock := BitVec 256

/-- x shifted cyclically by s: its bit i is bit (i + s) mod 256 of x (R225). -/
def twShift (x : TwBlock) (s : Nat) : TwBlock := x.rotateRight s

/-- The offsets d_k of R225. -/
def twOffset : Nat → Nat
  | 0 => 0 | 1 => 1 | 2 => 3 | _ => 7

/-- The shift s_k(c) of information block column c, R225. -/
def twShiftOf (k c : Nat) : Nat := (29 * (2 * k + 1) * c + 97 * k) % 256

/-- What the information blocks add to the checks of block row `r`. -/
def twRow (u : List TwBlock) (r : Nat) : TwBlock :=
  (u.zip (List.range 120)).foldl (fun acc p =>
    (List.range 4).foldl (fun acc k => if (p.2 + twOffset k) % 8 = r then acc ^^^ twShift p.1 (twShiftOf k p.2) else acc) acc) 0

/-- The parity blocks p_1 to p_7 of R226 from `j` on, after the block `p`. -/
def twParity (lam : List TwBlock) (p0 : TwBlock) : Nat → Nat → TwBlock → List TwBlock
  | 0, _, _ => []
  | fuel + 1, j, p =>
    let q := (lam.getD j 0 ^^^ p) ^^^ (if j = 4 then p0 else 0)
    q :: twParity lam p0 fuel (j + 1) q

/-- The 128 blocks of the codeword of 120 information blocks, R226. -/
def twineEncode (u : List TwBlock) : List TwBlock :=
  let lam := (List.range 8).map (twRow u)
  let p0 := lam.foldl (· ^^^ ·) 0
  let p1 := lam.getD 0 0 ^^^ twShift p0 1
  u ++ [p0, p1] ++ twParity lam p0 6 1 p1

/-- The checks of block row `r` over a word of 128 blocks, R225. -/
def twChecks (w : List TwBlock) (r : Nat) : TwBlock :=
  let p := fun i => w.getD i 0
  let base := twRow (w.take 120) r
  let zero := if r = 0 ∨ r = 7 then twShift (p 120) 1 else if r = 4 then p 120 else 0
  let diag := (List.range 7).foldl (fun acc j => if r = j ∨ r = j + 1 then acc ^^^ p (121 + j) else acc) 0
  (base ^^^ zero) ^^^ diag

/-- How many of the 2048 checks a word fails, R227. -/
def twUnsat (w : List TwBlock) : Nat := ((List.range 8).map (fun r => popCount 256 (twChecks w r).toNat)).foldl (· + ·) 0

/-- Bits cut into blocks of 256; a short last block is filled with zeros. -/
def twBlocks : Nat → List Bool → List TwBlock
  | 0, _ => []
  | fuel + 1, l => BitVec.ofNat 256 (((l.take 256).foldr (fun b acc => 2 * acc + b2n b) 0)) :: twBlocks fuel (l.drop 256)

/-- The bits of blocks in order. -/
def twBits (w : List TwBlock) : List Bool := w.flatMap (fun x => (List.range 256).map (fun i => x.getLsbD i))

/-- The coded bits of 3072 RS symbols of 10 bits, each most significant bit first (R202, R226). -/
def twineOfRs (rs : List Nat) : List Bool := twBits (twineEncode (twBlocks 120 (rs.flatMap (msbBits 10))))

/-- The hard decisions on soft values: 0 and above are bit 0 (R117, R227). -/
def twHard (soft : List Int) : List Bool := soft.map (fun q => decide (q < 0))

/-- The unsatisfied count of the hard decisions on 32 768 soft values, R227. -/
def twUnsatOf (soft : List Int) : Nat := twUnsat (twBlocks 128 (twHard soft))

/-- How many soft values are erasures, R241. -/
def twErased (soft : List Int) : Nat := (soft.filter (fun q => q == 0)).length

/-! ### Symbols: a symbol is 2 × (most significant bit) + (least significant bit) of its Gray code (R194) -/

/-- The binary symbol of a bit: +3 for 1, -3 for 0 (R194). -/
def binarySym (b : Bool) : Nat := if b then 2 else 0

/-- The outer level opposite to a symbol. -/
def outerOpposite (x : Nat) : Nat := if x = 0 ∨ x = 1 then 2 else 0

/-- A run after one more symbol: its level and its length (R211). -/
def runStep (r : Nat × Nat) (x : Nat) : Nat × Nat := if x = r.1 ∧ 0 < r.2 then (x, r.2 + 1) else (x, 1)

/-- The frame alignment word, R195. -/
def fawBits : List Bool := msbBits 31 0x7125B696

/-! ### The scrambler (R209, R210) -/

/-- The seed of a frame, R210. -/
def scrSeed (ofs fn lane : Nat) : Nat :=
  2 ^ 57 + (ofs % 8) * 2 ^ 53 + (fn % 32) * 2 ^ 48 + (lane % 16) * 2 ^ 44 + 0x5A5A5A5A5A5

/-- The first `n` output bits of the scrambler from a state, R209. -/
def scrBits : Nat → Nat → List Bool
  | 0, _ => []
  | n + 1, st =>
    let b := st.testBit 57 != st.testBit 38
    b :: scrBits n ((2 * st) % 2 ^ 58 + b2n b)

/-- Bits taken two by two as symbols. -/
def pairSyms : List Bool → List Nat
  | a :: b :: t => (2 * b2n a + b2n b) :: pairSyms t
  | _ => []

/-- Bits with the scrambler's output added. -/
def scramble (seed : Nat) (l : List Bool) : List Bool := (l.zip (scrBits l.length seed)).map (fun p => p.1 != p.2)

/-! ### Sending a frame (R211) -/

/-- Where the sending of a frame stands: the run, the content symbols not yet sent, the stuffs so far, and the symbols sent,
latest first. Log 125 (DESIGN CHOICE). -/
structure SendAt where
  run : Nat × Nat
  rest : List Nat
  k : Nat
  out : List Nat
  deriving DecidableEq, Repr

/-- One symbol sent. -/
def SendAt.put (a : SendAt) (x : Nat) : SendAt := { a with run := runStep a.run x, out := x :: a.out }

/-- One position of 31 to 16 382: a stuff, a content symbol or a fill (R211). -/
def SendAt.step (a : SendAt) : SendAt :=
  match a.rest with
  | [] => a.put (outerOpposite a.run.1)
  | x :: t => if a.run.2 = 47 then { a.put (outerOpposite a.run.1) with k := a.k + 1 } else { a.put x with rest := t }

/-- A frame sent: FAW, content with stuffs and fills, guard. -/
def sendFrame (run : Nat × Nat) (content : List Nat) : SendAt :=
  let a := fawBits.foldl (fun a b => a.put (binarySym b)) (⟨run, content, 0, []⟩ : SendAt)
  let a := (List.range 16352).foldl (fun a _ => a.step) a
  a.put (outerOpposite a.run.1)

/-! ### Receiving a frame (R212) -/

/-- A soft symbol: the LLRs of its most and least significant bits (R118). -/
abbrev SoftSym := Int × Int

/-- The hard decision on a soft symbol. -/
def hardSym (p : SoftSym) : Nat := 2 * b2n (decide (p.1 < 0)) + b2n (decide (p.2 < 0))

/-- Where the removal of stuffs stands: the run, how many content symbols are still to come, the stuffs removed, and the content
found, latest first. -/
structure RecvAt where
  run : Nat × Nat
  left : Nat
  k : Nat
  got : List SoftSym
  deriving DecidableEq, Repr

/-- One received symbol of positions 31 to 16 382. -/
def RecvAt.step (a : RecvAt) (p : SoftSym) : RecvAt :=
  let a' := { a with run := runStep a.run (hardSym p) }
  match a.left with
  | 0 => a'
  | m + 1 => if a.run.2 = 47 then { a' with k := a.k + 1 } else { a' with left := m, got := p :: a.got }

/-- The run over symbols. -/
def runOver (r : Nat × Nat) (l : List SoftSym) : Nat × Nat := l.foldl (fun r p => runStep r (hardSym p)) r

/-- The 16 344 content symbols of a received frame, missing ones as erasures, with the stuffs removed, whether content was
erased, and the run at the frame's end. -/
def recvFrame (run : Nat × Nat) (l : List SoftSym) : List SoftSym × Nat × Bool × (Nat × Nat) :=
  let a := ((l.drop 31).take 16352).foldl RecvAt.step (⟨runOver run (l.take 31), 16344, 0, []⟩ : RecvAt)
  (a.got.reverse ++ List.replicate a.left (0, 0), a.k, a.left != 0, runOver a.run (l.drop 16383))

/-- How many of the 31 binary decisions disagree with the FAW, R214. -/
def fawWrong (l : List SoftSym) : Nat :=
  (((l.take 31).zip fawBits).filter (fun p => decide (p.1.1 < 0) != p.2)).length

/-! ### The overhead word (R196, R197) -/

/-- The fields of an overhead word. -/
structure Overhead where
  tap : Nat
  fleyth : Nat
  fn : Nat
  scrOfs : Nat
  mfb : Nat
  just : Nat
  runOvf : Bool
  lf : Bool
  cwv : Bool
  cwp : Nat
  deriving DecidableEq, Repr

/-- Bits [63:8] of an overhead word. -/
def Overhead.high (o : Overhead) : Nat :=
  (o.tap % 256) * 2 ^ 48 + (o.fleyth % 65536) * 2 ^ 32 + (o.fn % 32) * 2 ^ 27 + (o.scrOfs % 8) * 2 ^ 24 + (o.mfb % 16) * 2 ^ 20
    + (o.just % 4) * 2 ^ 18 + b2n o.runOvf * 2 ^ 17 + b2n o.lf * 2 ^ 16 + b2n o.cwv * 2 ^ 15 + o.cwp % 2 ^ 15

/-- The CRC-8 of R197 over bits [63:8]. -/
def ohCrc (high : Nat) : Nat := crcBits 8 0x07 0 (msbBits 56 high)

/-- The 64 bits of an overhead word. -/
def Overhead.bits (o : Overhead) : List Bool := msbBits 56 o.high ++ msbBits 8 (ohCrc o.high)

/-- The overhead word of 64 bits, none where its CRC fails. Log 87 (DEDUCED). -/
def readOverhead (l : List Bool) : Option Overhead :=
  let x := ofMsb l
  let h := x / 256
  if ohCrc h = x % 256 then
    some ⟨bitsOf x 56 8, bitsOf x 40 16, bitsOf x 35 5, bitsOf x 32 3, bitsOf x 28 4, bitsOf x 26 2, bit x 25, bit x 24, bit x 23,
      bitsOf x 8 15⟩
  else none

/-- The CRC-16 of a multiframe's bytes 0 to 9, R199. -/
def mfCrc (l : List Nat) : Nat := crcBits 16 0x1021 0xFFFF (l.flatMap (msbBits 8))

/-- JUST as it counts: 3 is treated as 1 (R196). -/
def justOf (x : Nat) : Nat := if x = 3 then 1 else x

end Sys2Proof.Machine
end

