-- ==== Sys2Proof/Machine/Framing.lean ====
section
/-! DEFINITION. Twist framing and the IEEE line modes (spec/08): sending and receiving frames, multiframes and what their fields
bring about (R62, R184, R200, R201, R260 to R262, R267), rate matching and skew. -/

namespace Sys2Proof.Machine

/-! ### What a lane sends (R199, R202, R204, R259 to R261) -/

/-- MODE0 and MODE1 of logical lane `n`, R199. -/
def Chip.mode0 (s : Chip) (n : Nat) : Nat := (s.tribPort n 0).elim 0 (fun p => (s.port p).mode)
def Chip.mode1 (s : Chip) (n : Nat) : Nat :=
  if s.wholeLane n then s.mode0 n else (s.tribPort n 1).elim 0 (fun p => (s.port p).mode)

/-- BUNDLE of logical lane `n`. -/
def Chip.bundleOf (s : Chip) (n : Nat) : Nat := (s.tribPort n 0).elim 0 (fun p => (s.port p).bundleByte n)

/-- The unit identity that TWF sends, R199. -/
def Chip.unitIdent (s : Chip) : Nat := s.fld TWF_UNIT_ID_LO.ID_LO + 2 ^ 32 * s.fld TWF_UNIT_ID_HI.ID_HI

/-- The twelve bytes of a multiframe that names logical lane `k` (0xF for none) with a LANE byte. -/
def Chip.mfBytes (s : Chip) (k laneByte : Nat) : List Nat :=
  let id := 16 * s.unitIdent + k % 16
  let l := (List.range 6).map (fun i => bitsOf id (8 * (5 - i)) 8) ++
    (if k < 8 then [s.mode0 k, s.mode1 k, laneByte, s.bundleOf k] else [0, 0, laneByte, 0])
  let c := mfCrc l
  l ++ [c / 256, c % 256]

/-- The nibble of a multiframe that frame `fn` carries, R199. -/
def mfNibble (l : List Nat) (fn : Nat) : Nat := let b := l.getD (fn / 2) 0; if fn % 2 = 0 then b / 16 else b % 16

/-- LF of logical lane `n` in frame `fn`: 1 while the sender's port on its tributary is not UP (R196).
Log 21 (DESIGN CHOICE). -/
def Chip.lfBit (s : Chip) (n fn : Nat) : Bool :=
  match s.tribPort n (fn % 2) with
  | some p => decide ((s.port p).st ≠ .up)
  | none => Config.lfEmpty n

/-! ### Rate matching (R206, R208). A rate buffer counts in sixtieths of a native word: an RS symbol takes 16 of them once it is coded,
and a frame takes 15 for each quarter of its lane's words. Log 92 (DEDUCED). -/

/-- The rate buffers at the start of a frame: what came in since the last one, less what that one took.
Log 92 (DEDUCED). -/
def Framer.arrive (x : Framer) (f : FrameOut) (q0 q1 : Nat) : Framer :=
  { x with fill0 := x.fill0 + 16 * f.arrived0 - x.drawn * q0, fill1 := x.fill1 + 16 * f.arrived1 - x.drawn * q1 }

/-- JUST of a frame from the rate buffer of the whole-lane port or tributary 0 (R206). -/
def Framer.justNow (x : Framer) : Nat := if 12 * 60 < x.fill0 then 0 else if x.fill0 < 4 * 60 then 2 else 1

/-- The words of a rate buffer as BUF_FILL shows them. -/
def fillWords (fill : Nat) : Nat := min 255 (fill / 60)

/-- Does port `p` exist with its lanes up, so that its paths can fail? -/
def Chip.portRuns (s : Chip) (p : Nat) : Bool :=
  match (s.port p).st with
  | .ready | .up | .fault => true
  | _ => false

/-- The buffers of port `p` at their centre of 8 words (R207): what waits for its host lanes beyond that is dropped, and its
tributary's rate buffer is filled or emptied to it. Log 92 (DEDUCED). -/
def Chip.recentre (s : Chip) (p : Nat) : Chip :=
  let x := s.port p
  let s := s.forAll x.hostLanes (fun s h => s.hostMod (s.physHost h) (fun y => { y with out := y.out.drop (y.out.length - 32 / max 1 x.hostCount) }))
  s.forAll x.lineLanes (fun s n => s.framerMod n (fun y => if x.trib = 0 then { y with fill0 := 480 } else { y with fill1 := 480 }))

/-- A buffer of port `p` cannot be held within 4 to 12 words: it is re-centred, and the port enters FAULT (R207, R208, R220).
Log 92 (DEDUCED). -/
def Chip.rateFault (s : Chip) (p : Nat) : Chip :=
  if s.portRuns p then ((((s.recentre p).portMod p (fun x => { x with rateFault := true })).raise 0x0C3 0)).settle else s

/-- The tributary 1 port of lane `n` whose rate buffer the justification of tributary 0 does not hold within its limits (R208). -/
def Chip.tribLost (s : Chip) (n : Nat) : Option Nat :=
  let fill := (s.framerOf n).fill1
  if s.wholeLane n then none else (s.tribPort n 1).filter (fun _ => decide (fill < 4 * 60) || decide (12 * 60 < fill))

/-- The lane that the Ply transmitter carries in the frame with number `fn`: its lane changes at FN = 0 only, and a lane that
carries no Twist port here leaves it carrying nothing (R260, R261). Log 90 (DEDUCED). -/
def Chip.plyCarry (s : Chip) (fn : Nat) : Nat :=
  if fn = 0 then (if s.twistPort s.ply.txNext then s.ply.txNext else noLane) else s.fld TWF_PLY_STATUS.TX_LANE

/-- L8's boundary of a multiframe: what it requests and carries from now on, and the state of the Ply transmitter (R260, R261,
R267). Log 90 (DEDUCED). -/
def Chip.plyBoundary (s : Chip) (fn : Nat) : Chip :=
  if fn = 0 then
    let k := s.plyCarry 0
    let s := { s with ply := { s.ply with reqNow := s.ply.reqNext } }
    let st := if k = noLane then 1 else if s.ply.txPly then plyTxSubst else plyTxMirror
    ((s.setFld TWF_PLY_STATUS.TX_LANE k).setFld TWF_PLY_STATUS.TX_STATE st).evalFray
  else s

/-- What the frames of a lane and of L8 that carries it share (R261). -/
structure FrameShared where
  k : Nat
  fn : Nat
  scrOfs : Nat
  just : Nat
  lf : Bool
  cwv : Bool
  cwp : Nat
  fleyth : Nat
  payload : List Nat
  deriving DecidableEq, Repr

/-- Physical lane `n` sends a frame with its own tap byte, multiframe nibble and run (R211, R213, R261). -/
def Chip.sendOn (s : Chip) (n laneByte : Nat) (err : Int) (f : FrameShared) : Chip :=
  let t := s.tapByte n f.fn err
  let s := t.1
  let s := if f.fn = 0 then s.framerMod n (fun x => { x with mfTx := s.mfBytes f.k laneByte }) else s
  let x := s.framerOf n
  let o : Overhead := ⟨t.2, f.fleyth, f.fn, f.scrOfs, mfNibble x.mfTx f.fn, f.just, x.runOvf, f.lf, f.cwv, f.cwp⟩
  let a := sendFrame (x.runLevel, x.runLen) (o.bits.map binarySym ++ f.payload)
  let ovf := decide (8 < a.k)
  let s := s.framerMod n (fun x => { x with
    runLevel := a.run.1, runLen := a.run.2, runOvf := ovf, fn := (f.fn + 1) % 24, sent := a.out.reverse
    scrOfs := if ovf then (x.scrOfs + 1) % 8 else x.scrOfs })
  let s := s.txMod n (fun t => { t with since := min 128 (t.since + 1) })
  let s := (s.setFld (TWF_LANE_STATUS.SCR_OFS_TX n) f.scrOfs).setFld (TWF_RATE.JUST_TX n) f.just
  let s := s.satInc (TWF_STUFF_CNT.TX_STUFF n) a.k
  s.when ovf (fun s => (s.satInc (TWF_RUN_OVF.TX_OVF n) 1).raise (0x150 + n) 0)

/-- The lanes whose frames start together with that of lane `n`, equal in FN, JUST, CWV and CWP: the lanes of its bundle that send, in
ascending order (R205), or it alone. Log 89 (DEDUCED). -/
def Chip.frameGroup (s : Chip) (n : Nat) : List Nat :=
  match (s.tribPort n 0).filter (fun p => (s.port p).bundle) with
  | some p => (s.port p).lineLanes.filter s.sendsFrames
  | none => [n]

/-- What the lanes of a group share in a frame: FN, JUST, whether codewords start, and where; that is also how many coded bits of the
codewords before are still to be sent. -/
structure GroupFrame where
  fn : Nat
  just : Nat
  cwv : Bool
  left : Nat
  deriving DecidableEq, Repr

/-- The frame of physical lane `n` of L0 to L7 with the RS symbols of the codeword that starts in it, and with it L8's frame while L8
carries the lane. A lane of a bundle that has missed frames goes on with zeros for the codeword it has lost.
Log 89 (DEDUCED). -/
def Chip.sendLane (s : Chip) (n : Nat) (errs : List Int) (g : GroupFrame) (syms : List Nat) : Chip :=
  let x := s.framerOf n
  let bits := 32560 - 40 * g.just
  let rest := if x.coded.length = g.left then x.coded else List.replicate g.left false
  let coded := if g.cwv then rest ++ twineOfRs syms else rest
  let a := s.inbandByte (2 + n)
  let b := a.1.inbandByte (2 + n)
  let s := b.1.framerMod n (fun x => { x with coded := coded.drop bits, drawn := (814 - g.just) * 15 })
  let s := s.setFld (TWF_RATE.BUF_FILL n) (fillWords x.fill0)
  let sh : FrameShared := ⟨n, g.fn, x.scrOfs, g.just, s.lfBit n g.fn, g.cwv, if g.cwv then g.left else Config.cwpIdle n,
    256 * a.2.toNat + b.2.toNat,
    pairSyms (scramble (scrSeed x.scrOfs g.fn n) (coded.take bits ++ List.replicate (40 * g.just) false))⟩
  let s := s.sendOn n n (errs.getD n 0) sh
  if s.sendsFrames 8 && decide (s.plyCarry g.fn = n) then
    let s := (s.plyBoundary g.fn).setFld (TWF_RATE.BUF_FILL 8) (fillWords x.fill0)
    s.sendOn 8 s.ply.reqNow (errs.getD 8 0) sh
  else s

/-- The frames of the group that lane `n` leads; the other lanes of a bundle send with their first one.
Log 89 (DEDUCED). -/
def Chip.sendGroup (s : Chip) (n : Nat) (f : FrameOut) : Chip :=
  let g := s.frameGroup n
  if g.head? ≠ some n then s
  else
    let s := s.forAll g (fun s k => s.framerMod k (fun x => x.arrive f (s.quarters k 0) (s.quarters k 1)))
    let x := s.framerOf n
    let j := x.justNow
    let fr : GroupFrame := ⟨x.fn, j, decide (x.coded.length < 32560 - 40 * j), x.coded.length⟩
    let r := if fr.cwv then s.drawRound n else ([], s)
    let s := r.2.forAll g (fun s k => s.sendLane k f.errs fr ((r.1.find? (fun c => c.1 == k)).elim [] (fun c => c.2)))
    (s.tribLost n).elim s s.rateFault

/-- L8's frame while it carries nothing, or a lane that no longer sends: fill words under logical lane 0xF (R261). -/
def Chip.sendIdle (s : Chip) (f : FrameOut) : Chip :=
  let x := s.framerOf 8
  let k := s.plyCarry x.fn
  if k = noLane ∨ s.sendsFrames k = false then
    let s := (s.plyBoundary x.fn).setFld (TWF_RATE.BUF_FILL 8) (fillWords x.fill0)
    s.sendOn 8 s.ply.reqNow (f.errs.getD 8 0) ⟨noLane, x.fn, x.scrOfs, 1, Config.lfEmpty 8, false, Config.cwpIdle 8, 0x7E7E,
      pairSyms (scramble (scrSeed x.scrOfs x.fn noLane) (List.replicate 32560 false))⟩
  else s

/-- FRAME_SEND (R205, R206, R208, R211, R213, R260, R261): TWF builds and sends a Twist frame on lane `n`. L8's frame goes out with the
frame of the lane that L8 carries. Log 125 (DESIGN CHOICE). -/
def execFrameSend (n : LLane) (f : FrameOut) (s : State) : Host.Outcome State Fault Refusal :=
  chipNext s (fun c =>
    if !(c.sendsFrames n.1) then c else if n.1 = 8 then c.sendIdle f else c.sendGroup n.1 f)

/-! ### What a lane receives (R197, R198, R212, R214 to R216) -/

/-- The logical lane with which the frames on physical lane `n` are scrambled (R210, R261): on L8 the lane that it carries, or
the one that the far end last reported there. Log 89 (DEDUCED). -/
def Chip.rxLogical (s : Chip) (n : Nat) : Nat :=
  if n < 8 then n else if s.plyRx = plySubst then s.plyLane else s.ply.farLane.getD noLane

/-- The data bits of a frame reach codeword alignment: `ann` is what a good overhead word announces (CWP where CWV is 1),
none where the overhead failed and the receiver's own count decides (R197, R198). -/
def Framer.takeData (x : Framer) (fn : Nat) (ann : Option (Option Nat)) (ds : List Int) : Framer :=
  let len := ds.length
  let pred := match x.cwLeft with
    | none => none
    | some r => if r < len then some r else none
  let start := fun (x : Framer) (p : Nat) =>
    if p < len then { x with cwFn := fn, soft := ds.drop p, cwLeft := some (32768 - (len - p)) } else { x with soft := [], cwLeft := none }
  let go := fun (x : Framer) =>
    match x.cwLeft with
    | none => x
    | some r =>
      if len < r then { x with soft := x.soft ++ ds, cwLeft := some (r - len) }
      else
        let x := if r = 0 then x else { x with words := x.words ++ [(⟨x.cwFn, x.soft ++ ds.take r⟩ : CwIn)] }
        if r = len then { x with soft := [], cwLeft := some 0 } else start x r
  match ann with
  | none => go x
  | some a =>
    match x.cwLeft with
    | none => (match a with | none => x | some p => start x p)
    | some r =>
      if a = pred then go x
      else
        let x := if r = 0 then x else { x with words := x.words ++ [(⟨x.cwFn, List.replicate 32768 0⟩ : CwIn)] }
        match a with
        | none => { x with soft := [], cwLeft := none }
        | some p => start x p

/-- A multiframe nibble is collected; the one of FN 23 completes the multiframe (R199, R200). -/
def Framer.takeNibble (x : Framer) (fn nib : Nat) (ok : Bool) : Framer :=
  let x := if fn = 0 then { x with mfRx := [nib], mfBad := !ok }
    else if x.mfRx.isEmpty then x
    else { x with mfRx := x.mfRx ++ [nib], mfBad := x.mfBad || !ok || decide (x.mfRx.length ≠ fn) }
  if fn = 23 ∧ x.mfRx.isEmpty = false then { x with mfDone := some (x.mfRx, x.mfBad || decide (x.mfRx.length ≠ 24)), mfRx := [] }
  else x

/-- A frame of a lane in frame lock: stuffs removed, overhead taken or predicted, payload descrambled and handed on. -/
def Chip.recvLocked (s : Chip) (n : Nat) (l : List SoftSym) : Chip :=
  let x := s.framerOf n
  let r := recvFrame (x.rxRunLevel, x.rxRunLen) l
  let oh := r.1.take 64
  let seen := oh.all (fun p => p.1 != 0)
  let got := if seen then readOverhead (oh.map (fun p => decide (p.1 < 0))) else none
  let s := s.satInc (TWF_STUFF_CNT.RX_STUFF n) r.2.1
  let s := s.when r.2.2.1 (fun s => s.satInc (TWF_RUN_OVF.RX_OVF n) 1)
  let fn := match got with | some o => o.fn % 24 | none => (s.fld (TWF_LANE_STATUS.FN_RX n) + 1) % 24
  let ofs := match got with
    | some o => o.scrOfs
    | none => (s.fld (TWF_LANE_STATUS.SCR_OFS_RX n) + b2n x.overStuffed) % 8
  let just := match got with | some o => justOf o.just | none => s.fld (TWF_LANE_STATUS.JUST_RX n)
  let s := ((s.setFld (TWF_LANE_STATUS.FN_RX n) fn).setFld (TWF_LANE_STATUS.SCR_OFS_RX n) ofs).setFld (TWF_LANE_STATUS.JUST_RX n) just
  let s := s.setFlag (TWF_LANE_STATUS.OH_OK n) got.isSome
  let s := match got with
    | some o =>
      let s := s.setFlag (TWF_LANE_STATUS.RUN_OVF_RX n) o.runOvf
      s.setFlag (if fn % 2 = 0 then TWF_LANE_STATUS.LF0_RX n else TWF_LANE_STATUS.LF1_RX n) o.lf
    | none => s.satInc (TWF_OH_ERR.OH_CRC n) 1
  let raw := ofMsb (oh.map (fun p => decide (p.1 < 0)))
  let s := s.txMod n (fun t => t.takeByte fn (bitsOf raw 56 8) got.isSome)
  let s := match s.logical n with
    | some k => s.inbandFrame (2 + k) got.isSome (BitVec.ofNat 8 (bitsOf raw 48 8)) (BitVec.ofNat 8 (bitsOf raw 40 8))
    | none => s
  let soft := (r.1.drop 64).flatMap (fun p => [p.1, p.2])
  let clear := (soft.zip (scrBits soft.length (scrSeed ofs fn (s.rxLogical n)))).map (fun p => if p.2 then -p.1 else p.1)
  let ann := got.map (fun o => if o.cwv then some o.cwp else none)
  s.framerMod n (fun x =>
    { (x.takeData fn ann (clear.take (32560 - 40 * just))).takeNibble fn (bitsOf raw 28 4) got.isSome with
      rxRunLevel := r.2.2.2.1, rxRunLen := r.2.2.2.2, overStuffed := decide (8 < r.2.1)
      crcFails := if got.isSome then 0 else x.crcFails + 1 })

/-- Frame lock is lost: loss criterion 4 (R124, R215). -/
def Chip.frameLost (s : Chip) (n : Nat) : Chip := (s.loseFrame n).lockLoss [(n, 16)]

/-- A frame's time on a lane without frame lock: FAW matches in either polarity, and lock at the third (R214, R216).
Log 87 (DEDUCED). -/
def Chip.seekFrame (s : Chip) (n : Nat) (l : List SoftSym) : Chip :=
  let w := fawWrong l
  let s := s.framerMod n (fun x => { x with
    matches_ := if w ≤ 3 then x.matches_ + 1 else 0, invMatches := if 28 ≤ w then x.invMatches + 1 else 0 })
  let x := s.framerOf n
  if 3 ≤ x.matches_ ∨ 3 ≤ x.invMatches then
    let inv := decide (3 ≤ x.invMatches)
    let s := (s.setFlag (LRX_STATUS.FRAME_LOCK n) true).setFlag (TWF_LANE_STATUS.FRAME_LOCK n) true
    let s := (s.setFlag (TWF_LANE_STATUS.SEEK n) false).setFlag (TWF_LANE_STATUS.POL_INV n) inv
    let s := s.framerMod n (fun x => { x with misses := 0, crcFails := 0, matches_ := 0, invMatches := 0 })
    s.recvLocked n (if inv then l.map (fun p => (-p.1, p.2)) else l)
  else
    let r := runOver (x.rxRunLevel, x.rxRunLen) l
    s.framerMod n (fun x => { x with rxRunLevel := r.1, rxRunLen := r.2 })

/-- A frame's time on lane `n`: 16 384 symbols from an expected FAW position on, as the receiver's reliabilities at its scale
(R117, R118). In HOLD they are erasures (R119). Log 87 (DEDUCED). -/
def Chip.twistFrame (s : Chip) (n : Nat) (raw : List (LlrIn × LlrIn)) : Chip :=
  if !(s.pdOn 17) || s.fld (TWF_LANE_STATUS.FRAMING n) != 1 || decide (s.rxState n < rxAcquire) then s
  else
    let hold := s.rxState n == rxHold
    let l := if hold then List.replicate 16384 (0, 0)
      else ((raw.map (s.softOf n)) ++ List.replicate (16384 - raw.length) (0, 0)).take 16384
    if s.flag (TWF_LANE_STATUS.FRAME_LOCK n) then
      let l := if s.flag (TWF_LANE_STATUS.POL_INV n) then l.map (fun p => (-p.1, p.2)) else l
      let s := (s.framerMod n (fun x => { x with misses := if fawWrong l ≤ 3 then 0 else x.misses + 1 })).recvLocked n l
      let x := s.framerOf n
      if 4 ≤ x.misses ∨ 16 ≤ x.crcFails then s.frameLost n else s
    else s.seekFrame n l

/-- TWIST_FRAME (R117, R197, R198, R212, R214 to R216): a frame's time on lane `n`, as the reliabilities of the symbols' bits.
Log 130 (DESIGN CHOICE). -/
def execTwistFrame (n : LLane) (l : List (LlrIn × LlrIn)) (s : State) : Host.Outcome State Fault Refusal :=
  chipNext s (fun c => c.twistFrame n.1 l)

/-! ### Multiframes (R184, R200, R201, R261, R262, R267) -/

/-- The far-end identity heard at frame lock compared with the LAST_GOOD hank (R184); a lane set up from its record whose far
end differs retrains (R185). Log 86 (DEDUCED). -/
def Chip.checkFar (s : Chip) (n : Nat) : Chip :=
  if (s.framerOf n).farChecked then s
  else
    let s := s.framerMod n (fun x => { x with farChecked := true })
    let rec_ := (s.rxOf n).recCheck
    let s := s.rxMod n (fun x => { x with recCheck := false })
    let id := s.fld (TWF_FAR_ID_LO.FAR_LO n) + 2 ^ 32 * s.fld (TWF_FAR_ID_HI.FAR_HI n)
    match s.lastGood n with
    | none => s
    | some i =>
      let q := s.readHank i
      match q.2 with
      | none => q.1.markBad i
      | some l =>
        if hankFarId l = id then q.1
        else
          let s := ((q.1.dropPins n).setFlag (HNK_LANE_STATUS.FAR_CHANGED n) true).raise (0x110 + n) 0
          if rec_ then (s.noteRetrained n).retrain n else s

/-- The lane that a LANE byte of L8 asks for, R260. Log 89 (DEDUCED). -/
def askedLane (b : Nat) : Nat := if b / 64 = 3 ∨ 7 < b % 16 then noLane else b % 16

/-- What L8's accepted multiframe brings: the far end's request (R261, R267) and the lane that it reports (R262).
Log 90 (DEDUCED). -/
def Chip.l8Multiframe (s : Chip) (k laneByte : Nat) : Chip :=
  let ask := askedLane laneByte
  let ply := decide (ask ≠ noLane) && bit laneByte 7
  let change := ply && !(s.ply.txPly && decide (s.ply.txNext = ask))
  let s := { s with ply := { s.ply with txNext := ask, txPly := ply, farLane := if k < 8 then some k else none } }
  let s := if change then
      ((s.setFld TWF_PLY_STATUS.TX_STATE plyTxSubst).satInc TWF_PLY_CNT.FAR_SUBST_CNT 1).raise 0x1A9 0
    else s
  s.evalPairing

/-- A multiframe of lane `n` is judged (R200), and an accepted one acted on. Log 88 (DEDUCED). -/
def Chip.multiframe (s : Chip) (n : Nat) : Chip :=
  match (s.framerOf n).mfDone with
  | none => s
  | some (nibs, bad) =>
    let b := fun i => 16 * nibs.getD (2 * i) 0 + nibs.getD (2 * i + 1) 0
    let l := (List.range 10).map b
    let s := s.framerMod n (fun x => { x with mfDone := none })
    if bad || mfCrc l != 256 * b 10 + b 11 then
      let s := (s.satInc (TWF_OH_ERR.MF_CRC n) 1).framerMod n (fun x => { x with mfFails := x.mfFails + 1 })
      if 2 ≤ (s.framerOf n).mfFails then s.setFlag (TWF_LANE_STATUS.MF_VALID n) false else s
    else
      let s := s.framerMod n (fun x => { x with mfFails := 0, farSeen := true })
      let s := s.setFlag (TWF_LANE_STATUS.MF_VALID n) true
      let s := s.setFld (TWF_FAR_ID_HI.FAR_HI n) (256 * b 0 + b 1)
      let s := s.setFld (TWF_FAR_ID_LO.FAR_LO n) (((b 2 * 256 + b 3) * 256 + b 4) * 256 + b 5)
      let s := s.setReg (TWF_FAR_INFO.addr n) (BitVec.ofNat 32 (((b 6 * 256 + b 7) * 256 + b 8) * 256 + b 9))
      let s := if n = 8 ∧ s.plyFitted then s.l8Multiframe (b 5 % 16) (b 8) else s
      (s.checkFar n).settle

/-! ### Rate matching, skew and IEEE alignment (R61, R207, R219) -/

/-- PORT_RATE_FAULT (R207, R220): the receive buffer of port `p` has left 4 to 12 words. Log 92 (DEDUCED). -/
def execPortRateFault (p : PortNo) (s : State) : Host.Outcome State Fault Refusal := chipNext s (fun c => c.rateFault p.1)

/-- RATE_FAULT_CLEAR (R207): the buffer of port `p` has stayed within its limits for 1 ms. -/
def execRateFaultClear (p : PortNo) (s : State) : Host.Outcome State Fault Refusal :=
  chipNext s (fun c => (c.portMod p.1 (fun x => { x with rateFault := false })).settle)

/-- PORT_SKEW (R61): the skew between the lanes of port `p` exceeds its limit, or is within it again.
Log 92 (DEDUCED). -/
def execPortSkew (p : PortNo) (beyond : Bool) (s : State) : Host.Outcome State Fault Refusal :=
  chipNext s (fun c =>
    if !(c.portRuns p.1) || decide ((c.port p.1).skew = beyond) then c
    else
      let c := c.portMod p.1 (fun x => { x with skew := beyond })
      (c.when beyond (fun c => c.raise 0x0C2 0)).settle)

/-- IEEE_ALIGN_LOSS (R219): the inner-FEC codeword alignment of lane `n` is lost. Log 82 (DEDUCED). -/
def execIeeeAlignLoss (n : LLane) (s : State) : Host.Outcome State Fault Refusal :=
  chipNext s (fun c =>
    if c.fld (TWF_LANE_STATUS.FRAMING n.1) = 2 ∧ c.flag (TWF_LANE_STATUS.FRAME_LOCK n.1) = true then c.frameLost n.1 else c)

end Sys2Proof.Machine
end

