-- ==== Sys2Proof/Machine/Creel.lean ====
section
/-! DEFINITION. The creel (spec/09): arrivals and mirror pairs, slot boundaries, bobbins, releases, the outer RS decoders' counts,
the statistics window and the creel commands. -/

namespace Sys2Proof.Machine

/-! ### Codewords -/

/-- The release cycle of a codeword that arrives at a cycle on a lane of deadline D: ceil(64.5 D) later (R239).
Log 130 (DESIGN CHOICE). -/
def releaseAt (arrive d : Nat) : Nat := arrive + (129 * d + 1) / 2

/-- The codewords with entry `i` changed. -/
def cwMod (l : List Codeword) (i : Nat) (f : Codeword → Codeword) : List Codeword :=
  match l[i]? with
  | none => l
  | some w => l.set i (f w)

/-- The codewords of the creel replaced. -/
def Chip.setCws (s : Chip) (l : List Codeword) : Chip := { s with crl := { s.crl with cws := l } }

/-- The codeword that a word of TWF becomes on its arrival, R227, R239, R241. -/
def Chip.newCodeword (s : Chip) (n at_ : Nat) (w : CwIn) : Codeword :=
  let u := twUnsatOf w.soft
  let er := twErased w.soft
  { lane := n, fn := w.fn, src := n, wait := false, recv := w.soft, soft := w.soft, erased := er, unsat := u, iters := 0
    conv := decide (u = 0) && decide (er ≤ 2048), void := decide (2048 < er)
    arrive := at_, release := releaseAt at_ (s.fld (CRL_LANE_CFG.DEADLINE n)), granted := false, other := none, lost := [] }

/-- The chosen copy of a mirrored pair, in Ln's place: the copy with the lower initial unsatisfied count, a void one losing to
one that is not, Ln's winning a tie (R246). Log 95 (DEDUCED). -/
def mergePair (a b : Codeword) : Codeword :=
  if (a.void && !b.void) || (a.void == b.void && decide (b.unsat < a.unsat)) then
    { b with lane := a.lane, fn := a.fn, wait := false, arrive := a.arrive, release := a.release, other := some (a.src, a.void) }
  else { a with wait := false, other := some (b.src, b.void) }

/-- The skew limit of R61 in CLK_DSP cycles: 180 ns. Log 93 (DEDUCED). -/
def skewCycles : Nat := 160

/-- The first codeword that waits on `lane` for the other copy of the round of FN `fn`. -/
def Chip.waitingFor (s : Chip) (lane fn at_ : Nat) : Option Nat :=
  (List.range s.crl.cws.length).find? (fun i =>
    match s.crl.cws[i]? with
    | none => false
    | some w => w.wait && w.lane == lane && w.fn == fn && decide (at_ ≤ w.arrive + skewCycles))

/-! ### Slubs (R251) -/

/-- A slub of lane `n` begins, goes on or ends with a codeword whose initial unsatisfied count is `u`. -/
def Chip.slubStep (s : Chip) (n u : Nat) : Chip :=
  let x := s.crlOf n
  let above := decide (x.slow + 1024 * s.fld CRL_SLUB_CFG.THR < 1024 * u)
  if s.flag (CRL_LANE_STATUS.SLUB n) then
    let len := x.slubLen + 1
    let below := if above then 0 else x.slubBelow + 1
    let last := if above then len else x.slubLast
    let s := s.crlMod n (fun x => { x with slubLen := len, slubLast := last, slubBelow := below })
    if max 1 (s.fld CRL_SLUB_CFG.END) ≤ below then
      let s := (s.setFlag (CRL_LANE_STATUS.SLUB n) false).setLevel (0x160 + n) false 0
      let s := s.satInc (CRL_LANE_SLUB.SLUB_CNT n) 1
      s.setFld (CRL_LANE_SLUB.SLUB_LONGEST n) (max (s.fld (CRL_LANE_SLUB.SLUB_LONGEST n)) (min last 0xFFFF))
    else s
  else if above then
    let s := s.crlMod n (fun x => { x with slubLen := 1, slubLast := 1, slubBelow := 0 })
    (s.setFlag (CRL_LANE_STATUS.SLUB n) true).setLevel (0x160 + n) true 0
  else s

/-! ### Arrival (R239, R246) -/

/-- Does lane `m` deliver no codewords now? -/
def Chip.delivers (s : Chip) (m : Nat) : Bool := s.flag (TWF_LANE_STATUS.FRAME_LOCK m) || !((s.framerOf m).words.isEmpty)

/-- A codeword enters the creel: alone, or beside the other copy of its round. -/
def Chip.enterCreel (s : Chip) (n : Nat) (w : Codeword) : Chip :=
  let add := fun (w : Codeword) => s.setCws (s.crl.cws ++ [w])
  let pairWith := fun (i : Nat) (f : Codeword → Codeword) =>
    match s.crl.cws[i]? with
    | none => s
    | some o => s.setCws (s.crl.cws.set i (f o))
  if n = 8 then
    match s.crl.paired with
    | some m =>
      match s.waitingFor m w.fn w.arrive with
      | some i => pairWith i (fun o => mergePair o w)
      | none => if s.delivers m then add { w with wait := true } else add { w with lane := m }
    | none =>
      if s.crlActive 8 then
        match s.waitingFor s.plyLane w.fn w.arrive with
        | some i => pairWith i (fun o => mergePair o w)
        | none => add w
      else s
  else if s.crl.paired = some n then
    match s.waitingFor 8 w.fn w.arrive with
    | some i => pairWith i (fun o => mergePair w o)
    | none => add { w with wait := true }
  else if s.crlActive n then add w
  else s

/-- The next codeword of lane `n` arrives, `at_` cycles after the last slot boundary. -/
def Chip.codewordArrival (s : Chip) (n at_ : Nat) : Chip :=
  match (s.framerOf n).words with
  | [] => s
  | w :: rest =>
    let s := s.framerMod n (fun x => { x with words := rest })
    if s.pdOn 16 && (s.crlActive n || (n == 8 && s.crl.paired.isSome)) then
      let c := s.newCodeword n (s.crl.cyc + at_) w
      let s := s.crlMod n (fun x => { x with win := { x.win with arrived := x.win.arrived + 1, unsat := x.win.unsat + c.unsat } })
      (s.slubStep n c.unsat).enterCreel n c
    else s

/-- CODEWORD_ARRIVAL (R227, R239, R241, R246, R251): the next codeword that TWF has handed over on lane `n` is resident.
Log 93 (DEDUCED), 130 (DESIGN CHOICE). -/
def execCodewordArrival (n : LLane) (at_ : Fin 64) (s : State) : Host.Outcome State Fault Refusal :=
  chipNext s (fun c => c.codewordArrival n.1 at_.1)

/-! ### Bobbins (R229 to R233) -/

/-- The next bobbin number after `b` that is not retired, modulo 25. -/
def nextBobbin (retired : Nat) : Nat → Nat → Nat
  | 0, b => b
  | fuel + 1, b => let c := (b + 1) % 25; if bit retired c then nextBobbin retired fuel c else c

/-- The spare role moves on where a rotation is due (R229). Log 94 (DEDUCED). -/
def Chip.rotateSpare (s : Chip) : Chip :=
  if s.crl.rotate && s.fld CRL_STATUS.SPARE != 31 then
    let s := { s with crl := { s.crl with rotate := false } }
    s.setFld CRL_STATUS.SPARE (nextBobbin (s.fld CRL_BOBBIN_FAIL.RETIRED) 25 (s.fld CRL_STATUS.SPARE))
  else s

/-- SPARE_ROTATION (R229): the rotation period has passed; the role moves at the next slot boundary. -/
def execSpareRotation (s : State) : Host.Outcome State Fault Refusal :=
  chipNext s (fun c =>
    if c.pdOn 16 && c.flag CRL_FLOAT_CFG.ROT_EN && c.fld CRL_STATUS.SPARE != 31 then { c with crl := { c.crl with rotate := true } }
    else c)

/-! ### Buffer parity (R245, R376, R377) -/

/-- Soft values with those of some units taken as 0. -/
def zeroUnits (units : List Nat) (l : List Int) : List Int := units.foldl (fun l u => (l.set (2 * u) 0).set (2 * u + 1) 0) l

/-- The values of the units whose parity fails are taken as 0; they count among the erasures, each once, and a codeword with too many
of them is void (R241). -/
def Codeword.spoil (w : Codeword) (units : List Nat) : Codeword :=
  let lost := w.lost ++ units
  let er := twErased (zeroUnits lost w.recv)
  { w with soft := zeroUnits units w.soft, lost := lost, erased := er, void := w.void || decide (2048 < er), conv := w.conv && decide (er ≤ 2048) }

/-- What a codeword is released with: its latest soft values, or the received ones where it is void (R240, R241). -/
def Codeword.released (w : Codeword) : List Int := if w.void then zeroUnits w.lost w.recv else w.soft

/-- Bits cut into RS symbols of 10 bits, each most significant bit first (R202). -/
def cutSyms : Nat → List Bool → List Nat
  | 0, _ => []
  | k + 1, l => ofMsb (l.take 10) :: cutSyms k (l.drop 10)

/-- Parity errors are counted, and logged where LOG_LIGHT is 1. Log 23 (DESIGN CHOICE). -/
def Chip.lightErrors (s : Chip) (w : Codeword) (units : List Nat) : Chip :=
  s.forAll units (fun s u =>
    let g := Config.decodeGranule w.lane w.fn u % MemId.decode.size
    (s.when (s.flag ECC_LOG_CTRL.LOG_LIGHT) (fun s => s.logEcc (s.sram .decode g) g .lightParity 0xFF)).fillBucket 2)

/-- The records of these codewords cannot be corrected: each error is logged and raised (R376, R378), and the creel takes their slots for
empty ones (R379). Log 23 (DESIGN CHOICE). -/
def Chip.badRecords (s : Chip) (l : List Nat) : Chip :=
  let ws := s.crl.cws
  let s := s.forAll (l.filterMap (fun i => ws[i]?)) (fun s w =>
    let g := Config.recordGranule w.lane w.fn % MemId.creel.size
    (s.logEcc (s.sram .creel g) g .uncorrectable 0xFF).raise 0x051 (s.sram .creel g + 256 * g))
  s.setCws ((ws.zipIdx.filter (fun p => !(l.contains p.2))).map (fun p => p.1))

/-! ### Slot boundaries (R228, R234, R235) -/

/-- The ends of the iterations granted at the last boundary: new soft values and unsatisfied counts, save where the residue
check failed (R230, R231). Log 22 (DESIGN CHOICE). -/
def endIterations (failed : List Nat) (l : List Codeword) : List Codeword :=
  (l.zip (List.range l.length)).map (fun p =>
    let w := p.1
    if !w.granted then w
    else if failed.contains p.2 then { w with granted := false }
    else
      let soft := Config.bobbinPass w.soft
      let u := twUnsatOf soft
      { w with soft := soft, unsat := u, iters := w.iters + 1, conv := decide (u = 0), granted := false })

/-- Copies whose pair will not come, because pairing has ended or the skew limit has passed, go on alone (R246).
Log 93 (DEDUCED). -/
def Chip.settlePairs (s : Chip) : Chip :=
  let now := s.crl.cyc
  s.setCws (s.crl.cws.filterMap (fun w =>
    if !w.wait then some w
    else if w.lane = 8 then
      match s.crl.paired with
      | some m => if w.arrive + skewCycles < now then some { w with lane := m, wait := false } else some w
      | none => if s.crlActive 8 then some { w with wait := false } else none
    else
      let runs := decide (s.crl.paired = some w.lane) || s.onL8 w.lane
      if runs && decide (now ≤ w.arrive + skewCycles) then some w else some { w with wait := false }))

/-- MAX_ITER in force. -/
def Chip.maxIter (s : Chip) : Nat := clampNat 2 8 (s.fld CRL_FLOAT_CFG.MAX_ITER)

/-- Is a codeword eligible at the boundary at cycle `now` (spec/09 "The schedule")? -/
def Codeword.eligible (w : Codeword) (maxIter now : Nat) : Bool :=
  !w.wait && !w.conv && !w.void && decide (w.iters < maxIter) && decide (now + 64 ≤ w.release)

/-- The float limit in effect, R234. -/
def Chip.floatLimit (s : Chip) : Nat :=
  let t := s.fld CRL_STATUS.THROTTLE
  let cap := if t = 0 then 31 else if t = 1 then 4 else 0
  min (min (s.fld CRL_FLOAT_CFG.FLOAT_MAX) cap) (s.fld CRL_STATUS.IN_SERVICE - s.fld CRL_STATUS.RESERVE)

/-- A number put into a list of numbers in the order of a measure, after equal ones. -/
def insertBy (f : Nat → Nat) (i : Nat) : List Nat → List Nat
  | [] => [i]
  | j :: t => if f i < f j then i :: j :: t else j :: insertBy f i t

/-- A list of numbers in the order of a measure. -/
def sortBy (f : Nat → Nat) (l : List Nat) : List Nat := l.foldr (insertBy f) []

/-- Phase 2 of R235: the codewords that get float iterations, given what is still free and the limit. -/
def floatGrants (ws : List Codeword) (elig : Nat → Bool) (act : Nat → Bool) (laneMax : Nat) :
    Nat → List Nat → List Nat → List Nat
  | 0, _, got => got
  | fuel + 1, taken, got =>
    let w := fun i => ws[i]?
    let mine := fun n => (List.range ws.length).filter (fun i =>
      elig i && !(got.contains i) && ((w i).elim false (fun x => x.lane == n && decide (2 ≤ x.iters))))
    let demand := fun n => ((mine n).map (fun i => (w i).elim 0 (fun x => x.unsat))).foldl (· + ·) 0
    let lanes := (List.range 9).filter (fun n => act n && decide (0 < demand n) && decide (taken.getD n 0 < laneMax))
    match argMax demand lanes with
    | none => got
    | some n =>
      match argMin (fun i => (w i).elim 0 (fun x => x.release)) (mine n) with
      | none => got
      | some i => floatGrants ws elig act laneMax fuel (taken.set n (taken.getD n 0 + 1)) (got ++ [i])

/-- The grants of a slot boundary (R234, R235), with FLOAT_EFF, FLOAT_NOW, DEMAND and the counts of R447. -/
def Chip.grantSlot (s : Chip) : Chip :=
  let ws := s.crl.cws
  let now := s.crl.cyc
  let w := fun i => ws[i]?
  let elig := fun i => (w i).elim false (fun x => x.eligible s.maxIter now)
  let key := fun i => (w i).elim 0 (fun x => 16 * x.release + x.lane)
  let g1 := (sortBy key ((List.range ws.length).filter (fun i => elig i && (w i).elim false (fun x => decide (x.iters < 2))))).take
    (s.fld CRL_STATUS.IN_SERVICE)
  let limit := s.floatLimit
  let room := min limit (s.fld CRL_STATUS.IN_SERVICE - g1.length)
  let g2 := floatGrants ws elig s.crlActive (min 8 (s.fld CRL_FLOAT_CFG.LANE_FLOAT_MAX)) room (List.replicate 9 0) []
  let demand := fun n => (((List.range ws.length).filter (fun i =>
    elig i && ((w i).elim false (fun x => x.lane == n && decide (2 ≤ x.iters))))).map (fun i => (w i).elim 0 (fun x => x.unsat))).foldl
      (· + ·) 0
  let lane := fun i => (w i).elim 0 (fun x => x.lane)
  let s := s.setFld CRL_STATUS.FLOAT_EFF limit
  let s := s.forAll (List.range 9) (fun s n =>
    (s.setFld (CRL_LANE_STATUS.FLOAT_NOW n) ((g2.filter (fun i => lane i == n)).length)).setFld (CRL_LANE_STATUS.DEMAND n)
      (min (if s.crlActive n then demand n else 0) 0xFFFF))
  let s := s.forAll (g1 ++ g2) (fun s i => s.count (fun k a => k == 5 && (a % 16 == lane i || a % 16 == 15)) 1)
  let s := s.forAll g2 (fun s i => s.count (fun k a => k == 6 && (a % 16 == lane i || a % 16 == 15)) 1)
  s.setCws ((g1 ++ g2).foldl (fun l i => cwMod l i (fun x => { x with granted := true })) s.crl.cws)

/-- A slot boundary: `tests` are the bobbins on which a known-answer test has failed, `residues` the failed residue checks as
bobbin and place of the codeword, `parity` the units that fail their parity as the bobbins read them, `records` the codewords whose
creel record cannot be corrected (R379). Log 94 (DEDUCED). -/
def Chip.slotBoundary (s : Chip) (tests : List Nat) (residues : List (Nat × Nat)) (parity : List (Nat × Nat))
    (records : List Nat) : Chip :=
  if !(s.pdOn 16) then s
  else
    let s := s.forAll (List.range s.crl.cws.length) (fun s i =>
      let us := ((parity.filter (fun p => p.1 == i)).map (fun p => p.2)).eraseDups
      match s.crl.cws[i]? with
      | none => s
      | some w =>
        if w.granted && !us.isEmpty then (s.setCws (cwMod s.crl.cws i (fun x => x.spoil us))).lightErrors w us else s)
    let ok := fun b => decide (b < 25) && !(bit (s.fld CRL_BOBBIN_FAIL.RETIRED) b)
    let spare := s.fld CRL_STATUS.SPARE
    let res := residues.filter (fun p => ok p.1 && p.1 != spare && (s.crl.cws[p.2]?).elim false (fun w => w.granted))
    let bad := (List.range 25).filter (fun b =>
      ok b && (res.any (fun p => p.1 == b) || (tests.contains b && b == spare)))
    let s := { s with crl := { s.crl with cyc := s.crl.cyc + 64 } }
    let s := (s.setCws (endIterations (res.map (fun p => p.2)) s.crl.cws)).badRecords records
    let s := s.forAll bad Chip.retireBobbin
    ((s.rotateSpare.crlRefresh).settlePairs).grantSlot

/-- SLOT_BOUNDARY (R228, R230 to R238, R245, R246, R379). Log 93 (DEDUCED). -/
def execSlotBoundary (tests : List (Fin 25)) (residues : List (Fin 25 × Nat)) (parity : List (Nat × Fin 16384))
    (records : List Nat) (s : State) : Host.Outcome State Fault Refusal :=
  chipNext s (fun c => c.slotBoundary (tests.map (fun b => b.1)) (residues.map (fun p => (p.1.1, p.2)))
    (parity.map (fun p => (p.1, p.2.1))) records)

/-! ### Release (R239 to R241, R248, R249) -/

/-- One codeword counted in a histogram bin of a lane. -/
def Chip.histInc (s : Chip) (n b : Nat) : Chip := s.satInc (CRL_HIST.COUNT n b) 1

/-- The copy of a void codeword counted for its lane (R241, R248). -/
def Chip.countVoid (s : Chip) (n : Nat) : Chip := (s.satInc (CRL_LANE_MISS.VOID n) 1).histInc n 10

/-- A codeword that is not converged at its release, R240. -/
def Chip.countMiss (s : Chip) (n : Nat) : Chip :=
  let s := (s.satInc (CRL_LANE_MISS.DL_MISS n) 1).histInc n 9
  if (s.crlOf n).missSeen then s else (s.crlMod n (fun x => { x with missSeen := true })).raise (0x170 + n) 0

/-- The bits in which two hard decisions differ. -/
def bitsDiffer (a b : List Int) : Nat :=
  ((a.zip b).filter (fun p => decide (p.1 < 0) != decide (p.2 < 0))).length

/-- The hard decisions on the information bits of a released codeword, as RS symbols, to the decoders of the ports of its logical lane
(R239). -/
def Chip.releaseTo (s : Chip) (w : Codeword) : Chip :=
  match if w.lane < 8 then some w.lane else s.logical w.lane with
  | none => s
  | some n => s.deliver n w.fn (cutSyms 3072 (twHard (w.released.take 30720)))

/-- The release of a codeword: it is counted by its outcome, and its hard decisions leave the creel. -/
def Chip.releaseCw (s : Chip) (i : Nat) (w : Codeword) (units : List Nat) : Chip :=
  let n := w.lane
  let s := if units.isEmpty then s else s.lightErrors w units
  let w := if units.isEmpty then w else w.spoil units
  let s := (s.setCws (s.crl.cws.eraseIdx i)).releaseTo w
  let s := s.crlMod n (fun x => { x with win := { x.win with released := x.win.released + 1, iters := x.win.iters + w.iters } })
  let s := if w.void then s.countVoid w.src
    else if w.conv then
      let s := s.histInc n (min w.iters 8)
      s.crlMod n (fun x => { x with win := { x.win with conv := x.win.conv + 1, bits := x.win.bits + bitsDiffer w.soft w.recv } })
    else s.countMiss n
  match w.other with
  | some (o, true) => s.countVoid o
  | _ => s

/-- CODEWORD_RELEASE (R239 to R241, R245, R248, R249): the codeword of lane `n` whose release falls into this slot.
Log 125 (DESIGN CHOICE). -/
def execCodewordRelease (n : LLane) (parity : List (Fin 16384)) (s : State) : Host.Outcome State Fault Refusal :=
  chipNext s (fun c =>
    let mine := (List.range c.crl.cws.length).filter (fun i =>
      (c.crl.cws[i]?).elim false (fun w => w.lane == n.1 && decide (w.release < c.crl.cyc + 64)))
    match argMin (fun i => (c.crl.cws[i]?).elim 0 (fun w => w.release)) mine with
    | none => c
    | some i =>
      match c.crl.cws[i]? with
      | none => c
      | some w => c.releaseCw i w (parity.map (fun u => u.1)).eraseDups)

/-! ### The outer RS decoders (R247, R447) -/

/-- The phase steering that keeps port `p`'s buffers centred: that of its host lanes below 400 Gb/s (R207), or of its IEEE line lane
(R220), held within 300 ppm. Log 133 (DESIGN CHOICE). -/
def Chip.steer (s : Chip) (p : Nat) : Chip :=
  let x := s.port p
  if x.twist && x.hostLanes.all (fun h => s.fld (HLN_STATUS.RATE (s.physHost h)) == 5) then s
  else
    let d := s.draw
    d.2.forAll x.lineLanes (fun s n => s.setFld (TWF_RATE.FOLLOW n) (unsignedOf 16 (clampInt (-30000) 30000 (Config.steering d.1))))

/-- What the outer decoder of port `p` forwards for 544 received symbols, and how many it corrected, none where it could not: the four
symbols that a Twist line does not carry are erasures, and 0x3FF where the codeword is uncorrectable (R12, R247). -/
def Port.decode (x : Port) (w : List Nat) : List Nat × Option Nat :=
  match rsDecode w (if x.twist then [540, 541, 542, 543] else []) (if x.twist then 13 else 15) with
  | some (v, k) => (v, some k)
  | none => (if x.twist then w.take 540 ++ List.replicate 4 0x3FF else w, none)

/-- An RS codeword of port `p` counted in a direction while the port is UP (R447). -/
def Chip.countRs (s : Chip) (p kind : Nat) : Chip :=
  s.when (decide ((s.port p).st = .up)) (fun s => s.count (fun k a => k == kind && a % 16 == p) 1)

/-- A codeword of port `p` that its decoder could not correct: counted, with the event once in a statistics window (R247). -/
def Chip.rsUncorrectable (s : Chip) (p : Nat) : Chip :=
  let s := s.satInc (CRL_RS_UNCORR.COUNT p) 1
  if bit s.crl.uncorrSeen p then s
  else Chip.raise { s with crl := { s.crl with uncorrSeen := setBitN s.crl.uncorrSeen p } } (0x190 + p) 0

/-- An RS codeword of port `p` from the line, as 544 symbols: it is corrected, counted and forwarded to the host lanes; with the first one
on a new path the port leaves FAULT (R12, R247, R265). -/
def Chip.rsFromLine (s : Chip) (p : Nat) (w : List Nat) : Chip :=
  let r := (s.port p).decode w
  let s := s.when (s.port p).realign (fun s => (s.portMod p (fun x => { x with realign := false })).settle)
  let s := (s.satInc (CRL_RS_CW.COUNT p) 1).countRs p 3
  let s := match r.2 with
    | some k => s.satInc (CRL_RS_CORR.COUNT p) k
    | none => s.rsUncorrectable p
  let o := (s.steer p).outgoing p r.1
  o.2.toHost p o.1

/-- An RS codeword of port `p` from the host: it goes on to the line unchanged, and a nonzero syndrome is counted (R12, R247). -/
def Chip.rsFromHost (s : Chip) (p : Nat) (cw : List Nat) : Chip :=
  let s := (s.when (rsWrong cw) (fun s => s.satInc (CRL_RS_TX_ERR.COUNT p) 1)).countRs p 4
  let s := if (s.port p).twist then s else s.steer p
  let o := s.outgoing p cw
  (o.2.toLine p o.1).portMod p (fun x => { x with muxPhase := (x.muxPhase + 544) % max 1 x.hostCount })

/-- The symbols that physical host lane `h` has for a codeword: at 400 Gb/s those of its data frames from `skip` on, else those that the
command brings. -/
def Chip.hostSyms (s : Chip) (skip : Nat) (lanes : List (Nat × List Nat)) (h : Nat) : List Nat :=
  if s.fld (HLN_STATUS.RATE h) = 5 then (s.hostOf h).got.drop skip else (lanes.find? (fun l => l.1 == h)).elim [] (fun l => l.2)

/-- How many symbols of a codeword place `k` of port `p`'s host lanes brings (R60). -/
def Port.muxShare (x : Port) (k : Nat) : Nat :=
  ((List.range 544).filter (fun i => (x.muxPhase + i) % max 1 x.hostCount == k)).length

/-- RS_CODEWORD from the host: where every lane of the port has its share, the codeword is put together (R60). -/
def Chip.hostCodeword (s : Chip) (p skip : Nat) (lanes : List (Nat × List Nat)) : Chip :=
  let x := s.port p
  let syms := s.hostSyms skip lanes
  if x.hostLanes.zipIdx.all (fun l => decide (x.muxShare l.2 ≤ (syms (s.physHost l.1)).length)) then
    let cw := s.muxHost p syms
    let s := s.forAll x.hostLanes.zipIdx (fun s l => s.hostMod (s.physHost l.1) (fun y => { y with got := y.got.drop (skip + x.muxShare l.2) }))
    s.rsFromHost p cw
  else s

/-- RS_CODEWORD from a Twist line: where the released stream holds the 540 symbols carried, the codeword is put together (R203). -/
def Chip.twistCodeword (s : Chip) (p skip : Nat) : Chip :=
  let l := (s.port p).fromLine.drop skip
  if 540 ≤ l.length then
    (s.portMod p (fun x => { x with fromLine := l.drop 540 })).rsFromLine p (l.take 540 ++ List.replicate 4 0)
  else s

/-- RS_CODEWORD (R12, R60, R203, R247, R447): an RS codeword of port `p` passes its outer decoder.
Log 97 (DEDUCED), 145 (DESIGN CHOICE). -/
def execRsCodeword (p : PortNo) (x : RsIn) (s : State) : Host.Outcome State Fault Refusal :=
  chipNext s (fun c =>
    if !(c.portRuns p.1) || !(c.pdOn 16) then c
    else match x with
      | .fromHost skip lanes => c.hostCodeword p.1 skip.1 (lanes.map (fun l => (l.1.1, l.2.map (fun v => v.1))))
      | .fromTwist skip => if (c.port p.1).twist then c.twistCodeword p.1 skip.1 else c
      | .fromIeee syms => if (c.port p.1).twist then c else c.rsFromLine p.1 (syms.map (fun v => v.1)))

/-! ### The statistics window (R249, R250) -/

/-- A quotient of whole numbers, rounded one way or the other. Log 96 (DEDUCED). -/
def roundedDiv (a b : Nat) : Nat := a / b + b2n (a % b != 0 && Config.meanUp a b)

/-- A window mean: the rounded quotient, or an open value where nothing was counted.
Log 24 (DESIGN CHOICE), 96 (DEDUCED). -/
def Chip.windowMean (s : Chip) (a b : Nat) : Nat × Chip :=
  if b = 0 then let d := s.draw; (Config.emptyMean d.1, d.2) else (roundedDiv a b, s)

/-- The trend of lane `n`: the change over the last 1000 windows, in 1/16 units. Log 24 (DESIGN CHOICE). -/
def Chip.trend (s : Chip) (n : Nat) : Int × Chip :=
  let x : CrlLane := s.crlOf n
  match (x.slowHist[999]? : Option Nat) with
  | some old => (((x.slow : Int) - (old : Int)) / 64, s)
  | none => let d := s.draw; (Config.trendEarly d.1, d.2)

/-- The end of a statistics window on an active lane (R249, R250, R256). Log 96 (DEDUCED). -/
def Chip.windowLane (s : Chip) (n : Nat) : Chip :=
  let x := s.crlOf n
  let w := x.win
  let u := s.windowMean w.unsat w.arrived
  let i := u.2.windowMean (256 * w.iters) w.released
  let b := i.2.windowMean (w.bits * 2 ^ 17) w.conv
  let slow := if w.arrived = 0 then x.slow else roundedDiv (63 * x.slow * w.arrived + 1024 * w.unsat) (64 * w.arrived)
  let t := (b.2.crlMod n (fun x => { x with slow := slow })).trend n
  let s := t.2.crlMod n (fun x => { x with win := {}, slowHist := (slow :: x.slowHist).take 1001 })
  let s := (s.setFld (CRL_LANE_ITER.UNSAT_AVG n) (u.1 % 65536)).setFld (CRL_LANE_ITER.ITER_AVG n) (i.1 % 65536)
  let s := s.setFld (CRL_LANE_BER.BER n) (min b.1 0xFFFFFFFF)
  (s.setFld (CRL_LANE_MARGIN.UNSAT_SLOW n) (min (slow / 64) 0xFFFF)).setFld (CRL_LANE_MARGIN.TREND n)
    (unsignedOf 16 (clampInt (-32768) 32767 t.1))

/-- The end of the 1 ms statistics window: `ieee` gives what the IEEE inner decoders measured, as lane, differing bits and bits
(R249). Then the fault logic computes the risks and chooses the mirror (R263). Log 96 (DEDUCED). -/
def Chip.statsWindow (s : Chip) (ieee : List (Nat × Nat × Nat)) : Chip :=
  let s := if !(s.pdOn 16) then s
    else
      let s := s.forAll ((List.range 9).filter (fun n => s.crlActive n || (n == 8 && s.crl.paired.isSome))) Chip.windowLane
      let s := s.forAll (ieee.filter (fun e => s.fld (TWF_LANE_STATUS.FRAMING e.1) == 2 && decide (0 < e.2.2))) (fun s e =>
        s.setFld (CRL_LANE_BER.BER e.1) (min (roundedDiv (e.2.1 * 2 ^ 32) e.2.2) 0xFFFFFFFF))
      let s := s.forAll (List.range 9) (fun s n => s.crlMod n (fun x => { x with missSeen := false }))
      { s with crl := { s.crl with uncorrSeen := 0 } }
  let s : Chip := { s with fly := { s.fly with dropSeen := false }, flt := s.flt.map (fun x => { x with satSeen := false }) }
  (s.showRisks.chooseMirror).settle

/-- STATS_WINDOW (R249, R250, R256, R263, R272). Log 96 (DEDUCED). -/
def execStatsWindow (ieee : List (LLane × Nat × Nat)) (s : State) : Host.Outcome State Fault Refusal :=
  chipNext s (fun c => c.statsWindow (ieee.map (fun e => (e.1.1, e.2.1, e.2.2))))

/-! ### The creel commands (R243, R252, R253, R319) -/

/-- A new deadline for the lanes of a port, and for L8 while it mirrors or substitutes one of them: their codewords are
discarded and their slots allocated afresh (R243). -/
def Chip.newDeadline (s : Chip) (p d : Nat) : Chip :=
  let lanes := (s.port p).lineLanes
  let with8 := lanes ++ (if lanes.any (fun n => decide (s.crl.paired = some n) || s.onL8 n) then [8] else [])
  let s := s.forAll with8 (fun s n => s.fwWrite 16 (CRL_LANE_CFG.addr n) (BitVec.ofNat 32 d))
  (s.setCws (s.crl.cws.filter (fun w => !(with8.contains w.lane)))).crlRefresh

/-- CREEL_CFG: the pool, or the deadline of one port. -/
def Chip.creelCfg (s : Chip) (l : List Byte) : Chip × Verdict :=
  let f := arg32 l 4
  let p := byteAt l 1
  let d := byteAt l 2
  if byteAt l 0 = 0 then
    if 22 < bitsOf f 0 5 ∨ bitsOf f 12 4 < 2 ∨ 8 < bitsOf f 12 4 ∨ 8 < bitsOf f 8 4 then (s, .done (.fail .badArg))
    else
      let s := s.fwWrite 16 CRL_FLOAT_CFG.addr (BitVec.ofNat 32 f &&& 0x01FFFF1F)
      (s.fwWrite 16 CRL_SLUB_CFG.addr (BitVec.ofNat 32 (arg32 l 8) &&& 0x00FF0FFF), .done (.okR []))
  else if byteAt l 0 ≠ 1 ∨ 15 < p ∨ d < 8 ∨ 32 < d then (s, .done (.fail .badArg))
  else
    let x := s.port p
    let shared := x.lineLanes.any (fun n => (s.portsOn n).any (fun q => decide ((s.port q).st = .up)))
    if x.st ≠ .ready ∨ x.twist = false ∨ shared = true then (s, .done (.fail .badState))
    else (s.newDeadline p d, .done (.okR []))

/-- CREEL_CFG (R243, R253, R319). -/
def execCreelCfg (src : CmdSrc) (s : State) : Host.Outcome State Fault Refusal :=
  chipNext s (fun c => c.krelin src 0x0601 (fun c r => c.creelCfg r.payload))

/-- CREEL_STATUS (R254). -/
def execCreelStatus (src : CmdSrc) (s : State) : Host.Outcome State Fault Refusal :=
  chipNext s (fun c => c.krelin src 0x0602 (fun c _ =>
    (c, .done (.okR (wordBytes [c.reg CRL_STATUS.addr, c.reg CRL_BOBBIN_FAIL.addr, c.reg CRL_BUF_STATUS.addr])))))

/-- The histogram and the counts of lane `n` cleared (R252). Log 98 (DEDUCED). -/
def Chip.clearCreelLane (s : Chip) (n : Nat) : Chip :=
  let s := s.forAll [CRL_LANE_MISS.addr n, CRL_LANE_SLUB.addr n] Chip.clearCount
  s.forAll (List.range 11) (fun s b => s.clearCount (CRL_HIST.addr n b))

/-- CREEL_STATS: a lane's statistics as they stand, then the clearing that CLEAR asks for, which needs OPERATOR.
Log 98 (DEDUCED). -/
def Chip.creelStats (s : Chip) (r : Req) : Chip × Verdict :=
  let n := byteAt r.payload 0
  let clear := bit (byteAt r.payload 1) 0
  if 8 < n then (s, .done (.fail .badArg))
  else if clear && r.level == 0 then (s, .done (.fail .denied))
  else
    let regs := [CRL_LANE_STATUS.addr n, CRL_LANE_ITER.addr n, CRL_LANE_BER.addr n, CRL_LANE_MARGIN.addr n, CRL_LANE_MISS.addr n,
      CRL_LANE_SLUB.addr n] ++ (List.range 11).map (CRL_HIST.addr n)
    (s.when clear (fun s => s.clearCreelLane n), .done (.okD (wordBytes (regs.map s.seen))))

/-- CREEL_STATS (R252, R253, R319). -/
def execCreelStats (src : CmdSrc) (s : State) : Host.Outcome State Fault Refusal :=
  chipNext s (fun c => c.krelin src 0x0603 (fun c r => c.creelStats r))

/-- The RS count registers of port `p`. -/
def rsRegs (p : Nat) : List Nat := [CRL_RS_CW.addr p, CRL_RS_CORR.addr p, CRL_RS_UNCORR.addr p, CRL_RS_TX_ERR.addr p]

/-- CREEL_RS_STATS: a port's RS counts, with their clearing. -/
def Chip.creelRsStats (s : Chip) (r : Req) : Chip × Verdict :=
  let p := byteAt r.payload 0
  let clear := bit (byteAt r.payload 1) 0
  if 15 < p then (s, .done (.fail .badArg))
  else if clear && r.level == 0 then (s, .done (.fail .denied))
  else (s.when clear (fun s => s.forAll (rsRegs p) Chip.clearCount), .done (.okR (wordBytes ((rsRegs p).map s.seen))))

/-- CREEL_RS_STATS (R252, R319). -/
def execCreelRsStats (src : CmdSrc) (s : State) : Host.Outcome State Fault Refusal :=
  chipNext s (fun c => c.krelin src 0x0604 (fun c r => c.creelRsStats r))

end Sys2Proof.Machine
end

