-- ==== Sys2Proof/Machine/Ports.lean ====
section
/-! DEFINITION. Ports (spec/03, spec/12 R312 to R314): the mode and port commands, what sets up the lanes of a port and what frees
them, the retrain's time limit, and the system commands. -/

namespace Sys2Proof.Machine

/-! ### The checks of ADD_PORT (R54 to R59, R313, R328) -/

/-- What ADD_PORT asks for. -/
structure AddReq where
  port : Nat
  code : Nat
  hostFirst : Nat
  trib : Nat
  mask : Nat
  retrain : Bool
  deriving DecidableEq, Repr

/-- The payload of ADD_PORT. -/
def addReqOf (l : List Byte) : AddReq :=
  let b := byteAt l
  ⟨b 0, b 1, b 2, b 3, b 4, bit (b 5) 0⟩

/-- Is the mode code a bundle's? -/
def isBundle (code : Nat) : Bool := decide (0x12 ≤ code) && decide (code ≤ 0x18)

/-- May `c` host lanes of a mode start at lane `h` (R56)? -/
def hostPlaced (code c h : Nat) : Bool :=
  decide (h + c ≤ 16) && ((isBundle code && (c == 3 || c == 5 || c == 6 || c == 7)) || h % c == 0)

/-- The mode of the request where its fields are in range (R313). -/
def AddReq.mode (a : AddReq) : Option Mode :=
  match modeOf a.code with
  | none => none
  | some m =>
    if a.port ≤ 15 ∧ a.trib ≤ 1 ∧ (a.trib = 0 ∨ m.trib = true) ∧ hostPlaced a.code m.host a.hostFirst = true ∧
        popCount 8 a.mask = m.line then some m else none

/-- The quads that a mask of host lanes touches. -/
def quadsOf (mask : Nat) : List Nat := (List.range 4).filter (fun q => mask / 16 ^ q % 16 != 0)

/-- Does quad `q` carry a port? -/
def Chip.quadUsed (s : Chip) (q : Nat) : Bool := (quadLanes q).any (fun h => (s.portOfHost h).isSome)

/-- The field of `CLK_HQ_STATUS` with the rate of quad `q`. -/
def quadRate (q : Nat) : Fld := ⟨CLK_HQ_STATUS.addr, 8 + 3 * q, 3⟩

/-- Is logical line lane `n` free for a port of mode `m` on tributary `t` (R59, R328)? -/
def Chip.lineFree (s : Chip) (m : Mode) (t n : Nat) : Bool :=
  !(s.laneFailed n) && !(s.rxOf n).claimed &&
    (s.portsOn n).all (fun p => m.trib && (modeOf (s.port p).mode).elim false (fun x => x.trib) && (s.port p).trib != t)

/-- Is host lane `h` free for a port (R59, R328, R477)? -/
def Chip.hostFree (s : Chip) (h : Nat) : Bool :=
  (s.portOfHost h).isNone && !(s.hostOf h).claimed && !(bit (s.fld GRD_DOFF_MARK.HOST) h)

/-- Can the port be added as the part stands (R57, R59, R67)? -/
def Chip.canAdd (s : Chip) (a : AddReq) (m : Mode) : Bool :=
  let hosts := (2 ^ m.host - 1) <<< a.hostFirst
  decide ((s.port a.port).st = .absent) && (bitsSet 8 a.mask).all (s.lineFree m a.trib) && (bitsSet 16 hosts).all s.hostFree &&
    (quadsOf hosts).all (fun q => !(s.quadUsed q) || s.fld (quadRate q) == m.rate + 1)

/-! ### Setting up (R18, R25, R57, R98, R126, R155, R185, R187, R504) -/

/-- The counts of a register clear when ADD_PORT starts (R504). Log 102 (DEDUCED). -/
def Chip.clearLive (s : Chip) (a : Nat) : Chip := s.setReg a (s.reg a &&& ~~~ (countMask a))

/-- The physical lane that logical host lane `h` of a new port will have: straight in a quad that carries no port (R97). -/
def Chip.physFor (s : Chip) (h : Nat) : Nat := if s.quadUsed (quadOf h) then s.physHost h else h

/-- The registers whose counts clear when ADD_PORT starts on a port with these physical host lanes and line lanes (R504).
Log 102 (DEDUCED). -/
def addClears (p : Nat) (hosts lines : List Nat) : List Nat :=
  hosts.map HLN_TRAIN_STATUS.addr ++ rsRegs p ++ lines.flatMap (fun n =>
    [LRX_LOCK_CNT.addr n, LTX_TT_STATUS.addr n, TWF_STUFF_CNT.addr n, TWF_RUN_OVF.addr n, TWF_OH_ERR.addr n,
     CRL_LANE_MISS.addr n, CRL_LANE_SLUB.addr n] ++ (List.range 11).map (CRL_HIST.addr n))

/-- Domain `d` brought to ON where it is not: lane domains only with good supplies (R46). -/
def Chip.bringUp (s : Chip) (d : Nat) : Chip :=
  if s.pdOn d || (decide (3 ≤ d) && decide (d ≤ 15) && !(s.analogOk)) then s
  else if s.pdOf d = .ret then s.wakeRetained d
  else s.powerUp d

/-- Quad `q` takes a rate: its synthesiser runs and locks, and no lane order is known (R25, R57, R98).
Log 73 (DEDUCED). -/
def Chip.openQuad (s : Chip) (q rate : Nat) : Chip :=
  let s := (s.setFld (quadRate q) (rate + 1)).setFldBit CLK_HQ_STATUS.LOCK q (s.pdOn (3 + q))
  let s := s.quadMod q (fun x => { x with orderKnown := false, orderFault := false, laterTraining := false, relocking := false })
  s.forAll (quadLanes q) (fun s h =>
    let s := (s.setFld (HLN_STATUS.RATE h) (rate + 1)).setFlag (HLN_STATUS.ORDER_REV h) false
    s.hostMod h (fun x => { x with farId := none, targetBad := false, down := false }))

/-- Host lane `h` (logical) of a new port starts to train (R18, R98). -/
def Chip.openHost (s : Chip) (openLegs h : Nat) : Chip :=
  let h := s.physHost h
  let s := s.setFlag (HLN_PAT_GEN.EN h) false
  let s := s.hostMod h (fun x => { x with down := false })
  if s.pdOn (3 + quadOf h) then s.hostStart h openLegs else s

/-- The pins of lane `n` are released where a pinned hank is of another mode (R187). -/
def Chip.dropOtherMode (s : Chip) (n mode : Nat) : Chip :=
  let other := fun (i : Option Nat) => match i with
    | none => false
    | some i => (s.readHank i).2.elim true (fun l => hankMode l != mode)
  if other (s.lastGood n) || other (s.activeHank n) then s.dropPins n else s

/-- Krelin's defaults for lane `n` in `LRX_RX_CFG` and `CRL_LANE_CFG` (R126, R243); CDR_BW and VOLT_MAX stay. -/
def Chip.laneDefaults (s : Chip) (n : Nat) (twist : Bool) : Chip :=
  let bw := s.fld (LRX_RX_CFG.CDR_BW n)
  let volt := s.fld (LRX_RX_CFG.VOLT_MAX n)
  let w := if twist then rxCfgWord 44 40 4 bw volt else rxCfgWord 56 52 4 bw volt
  (s.fwWrite (7 + n) (LRX_RX_CFG.addr n) w).fwWrite 16 (CRL_LANE_CFG.addr n) 12

/-- Line lane `n`, which the new port alone uses, is set up: restored from its config shadow record, or retrained (R155, R185); in an
IEEE mode its creel statistics read 0 (R249).
The second part tells whether its record serves. -/
def Chip.openLine (s : Chip) (n : Nat) (retrain : Bool) : Chip × Bool :=
  let mode := s.laneMode n
  let rate := s.laneRateFor n
  let s := s.dropOtherMode n mode
  let s := (s.freshFramer n (if rate = 1 then 1 else 2)).laneDefaults n (rate == 1)
  let s := if rate = 1 then s else (s.setReg (CRL_LANE_ITER.addr n) 0).setReg (CRL_LANE_MARGIN.addr n) 0
  if !(s.pdOn (7 + n)) then (s, false)
  else
    let r := if retrain || !(s.pdOn 18) then (s, false) else s.loadRecord n mode rate
    let s := r.1
    let hank := if r.2 then (s.lastGood n).bind (fun i => (s.readHank i).2) else none
    ((s.startRx n rate (if r.2 then some .record else none)).setupTx n rate hank, r.2)

/-- Port `p` entered as CONFIGURING and its lanes set up: the masks of the line lanes restored and retrained (R67, R185, R313).
Log 102 (DEDUCED). -/
def Chip.openPort (s : Chip) (a : AddReq) (m : Mode) (openLegs : Nat) : Chip × Nat × Nat :=
  let hosts := (List.range m.host).map (fun k => a.hostFirst + k)
  let lines := bitsSet 8 a.mask
  let own := lines.filter (fun n => (s.portsOn n).isEmpty)
  let newQuads := (quadsOf ((2 ^ m.host - 1) <<< a.hostFirst)).filter (fun q => !(s.quadUsed q))
  let s := s.forAll ([16, 17, 18] ++ newQuads.map (fun q => 3 + q) ++ own.map (fun n => 7 + n)) Chip.bringUp
  let s := s.portMod a.port (fun _ => { mode := a.code, st := .configuring, trib := a.trib, hostFirst := a.hostFirst,
                                        hostCount := m.host, lineMask := a.mask })
  let s := s.forAll newQuads (fun s q => s.openQuad q m.rate)
  let s := s.forAll hosts (fun s h => s.openHost openLegs h)
  let s := s.forAll lines (fun s n => s.framerMod n (fun x => if a.trib = 0 then { x with fill0 := 480 } else { x with fill1 := 480 }))
  let r := own.foldl (fun (r : Chip × Nat) n => let x := r.1.openLine n a.retrain; (x.1, if x.2 then setBitN r.2 n else r.2)) (s, 0)
  (r.1, r.2, maskOf 8 (fun n => own.contains n && !(bit r.2 n)))

/-- ADD_PORT: the checks of R313, the clearing of R504, and the set-up; the port waits for its lanes.
Log 101 (DEDUCED). -/
def Chip.addPort (s : Chip) (a : AddReq) (openLegs : Nat) : Chip × Verdict :=
  match a.mode with
  | none => (s, .done (.fail .badArg))
  | some m =>
    if !(s.canAdd a m) then (s, .done (.fail .badState))
    else
      let hosts := (List.range m.host).map (fun k => a.hostFirst + k)
      let s := s.forAll (addClears a.port (hosts.map s.physFor) (bitsSet 8 a.mask)) Chip.clearLive
      let r := s.openPort a m openLegs
      (r.1, .runs (.addPort a.port r.2.1 r.2.2))

/-- ADD_PORT (R18, R57, R59, R67, R126, R155, R185, R313, R504); `openLegs` is the result of the check of R102 by host lane. -/
def execAddPort (src : CmdSrc) (openLegs : BitVec 16) (s : State) : Host.Outcome State Fault Refusal :=
  chipNext s (fun c => (c.krelin src 0x0201 (fun c r => c.addPort (addReqOf r.payload) openLegs.toNat)).settle)

/-! ### Freeing the lanes of a port (R57, R67, R187) -/

/-- Logical lane `n` without a port: L8 returns to spare duty where it served, and the lane's domain goes to OFF. -/
def Chip.closeLine (s : Chip) (n : Nat) : Chip :=
  if !((s.portsOn n).isEmpty) then s
  else
    let s := (s.plyRelease n).rxToOff n
    let s := s.freshFramer n 0
    if (s.rxOf n).claimed then s else s.goOff (7 + n)

/-- Quad `q` without a port: its synthesiser stops and its domain goes to OFF, unless TEST_LANE holds one of its lanes (R57).
Log 103 (DEDUCED). -/
def Chip.closeQuad (s : Chip) (q : Nat) : Chip :=
  if s.quadUsed q || (quadLanes q).any (fun h => (s.hostOf h).claimed) then s
  else
    let s := (s.setFld (quadRate q) 0).quadMod q (fun x => { x with orderKnown := false, orderFault := false, laterTraining := false, relocking := false })
    s.goOff (3 + q)

/-- Host lane `h` (physical) of a removed port: it is off, and powered down where its quad's order is known (R98). -/
def Chip.freeHost (s : Chip) (h : Nat) : Chip :=
  (s.hostStop h).hostMod h (fun x => { x with down := (s.quad (quadOf h)).orderKnown && !x.claimed })

/-- Port `p` is ABSENT and its lanes are freed. -/
def Chip.dropPort (s : Chip) (p : Nat) : Chip :=
  let x := s.port p
  let phys := x.hostLanes.map s.physHost
  let s := s.portMod p (fun _ => {})
  let s := s.forAll phys Chip.freeHost
  let s := s.forAll x.lineLanes Chip.closeLine
  (s.forAll (quadsOf x.hostMask) Chip.closeQuad).settle

/-- An ADD_PORT ends with TIMEOUT: what it had set up is removed (R67, R93). Log 101 (DEDUCED). -/
def Chip.addTimeout (s : Chip) (e : ExecCmd) : Chip :=
  match e.wait with
  | .addPort p _ _ => (s.dropPort p).endCmd e (.fail .timeout)
  | _ => s

/-- Must the removal of port `p` still wait: a restore of one of its lanes runs, or L8 is about to take one over (R67, R187)? -/
def Chip.removalWaits (s : Chip) (p : Nat) : Bool :=
  (s.port p).lineLanes.any (fun n =>
    s.restoring (s.carrier n) || (s.plyRx == plySubstWait && s.plyLane == n) || decide (s.ply.planned = some n))

/-- A REMOVE_PORT that waits for nothing any more is carried out, and the config shadow copy is written (R66).
Log 101 (DEDUCED). -/
def Chip.finishRemoval (s : Chip) (e : ExecCmd) : Chip :=
  match e.wait with
  | .removePort p => if s.removalWaits p then s else ((s.dropPort p).saveShadow).endCmd e (.okR [])
  | _ => s

/-- Every executing REMOVE_PORT looked at. -/
def Chip.finishRemovals (s : Chip) : Chip := s.forAll s.mbx.exec Chip.finishRemoval

/-- A command after which a REMOVE_PORT may no longer have to wait. -/
def portNext (s : State) (f : Chip → Chip) : Host.Outcome State Fault Refusal := chipNext s (fun c => (f c).finishRemovals)

/-- REMOVE_PORT (R63, R67, R187): the port is CONFIGURING until it may be removed. -/
def Chip.removePort (s : Chip) (p : Nat) : Chip × Verdict :=
  if 15 < p then (s, .done (.fail .badArg))
  else if (s.port p).st = .absent then (s, .done (.fail .badState))
  else (s.portMod p (fun x => { x with st := .configuring, wantUp := false }), .runs (.removePort p))

/-- REMOVE_PORT (R57, R63, R66, R67). -/
def execRemovePort (src : CmdSrc) (s : State) : Host.Outcome State Fault Refusal :=
  portNext s (fun c => c.krelin src 0x0202 (fun c r => c.removePort (byteAt r.payload 0)))

/-! ### Enabling and disabling (R63, R66, R67, R314) -/

/-- ENABLE_PORT and DISABLE_PORT: the port goes to UP or READY, at once or when its fault clears. -/
def Chip.setEnable (s : Chip) (p : Nat) (on : Bool) : Chip × Verdict :=
  let st := (s.port p).st
  if 15 < p then (s, .done (.fail .badArg))
  else if st = .absent ∨ st = .configuring then (s, .done (.fail .badState))
  else
    let s := s.portMod p (fun x => { x with
      wantUp := on
      st := if x.st = .fault then .fault else if on then .up else .ready })
    let s := (s.refreshPort p).saveShadow
    (s, .done (.okR (leBytes 4 (s.portMap p).toNat)))

/-- ENABLE_PORT (R63, R66, R67). -/
def execEnablePort (src : CmdSrc) (s : State) : Host.Outcome State Fault Refusal :=
  chipNext s (fun c => c.krelin src 0x0203 (fun c r => c.setEnable (byteAt r.payload 0) true))

/-- DISABLE_PORT (R63, R66, R314). -/
def execDisablePort (src : CmdSrc) (s : State) : Host.Outcome State Fault Refusal :=
  chipNext s (fun c => c.krelin src 0x0204 (fun c r => c.setEnable (byteAt r.payload 0) false))

/-- GET_PORT_MAP (R68): the port maps, P0 first. -/
def execGetPortMap (src : CmdSrc) (s : State) : Host.Outcome State Fault Refusal :=
  chipNext s (fun c => c.krelin src 0x0205 (fun c _ => (c, .done (.okD (wordBytes ((List.range 16).map c.portMap))))))

/-- TEL_PORT: the port's map, the highest BER and the locked and GOOD lanes, by logical lane (spec/12 "Telemetry commands"). -/
def Chip.telPort (s : Chip) (p : Nat) : Reply :=
  let x := s.port p
  if 15 < p then .fail .badArg
  else if x.st = .absent then .fail .badState
  else
    let ls := x.lineLanes
    let ber := ls.foldl (fun a n => max a (s.seen (CRL_LANE_BER.addr (s.carrier n))).toNat) 0
    let good := fun n => s.pdOn (7 + s.carrier n) && s.flag (LRX_STATUS.GOOD (s.carrier n))
    .okR (wordBytes [s.portMap p, BitVec.ofNat 32 ber, s.seen (CRL_RS_UNCORR.addr p)]
      ++ leBytes 1 (maskOf 8 (fun n => ls.contains n && s.locked (s.carrier n)))
      ++ leBytes 1 (maskOf 8 (fun n => ls.contains n && good n)))

/-- TEL_PORT (R305). -/
def execTelPort (src : CmdSrc) (s : State) : Host.Outcome State Fault Refusal :=
  chipNext s (fun c => c.krelin src 0x0902 (fun c r => (c, .done (c.telPort (byteAt r.payload 0)))))

/-! ### The retrain's time limit (R67, R130, R316) -/

/-- A retrain of lane `n` has not reached LOCKED in 2 s: it starts again, LINE_RETRAIN ends, and an ADD_PORT that set the lane
up fails. -/
def Chip.retrainTimeout (s : Chip) (n : Nat) : Chip :=
  let st := s.rxState n
  if (s.rxOf n).retrain && decide (rxAcquire ≤ st) && decide (st ≤ rxFrameSeek) then
    let s := (s.setFlag (LRX_FAULT.RETRAIN_FAIL n) true).retrain n
    let s := s.endRetrain n .timeout
    let fails := s.mbx.exec.filter (fun e => match e.wait with
      | .addPort _ a b => bit (a ||| b) n
      | _ => false)
    (s.forAll fails Chip.addTimeout).settle
  else s

/-- RETRAIN_TIMEOUT (R67, R130, R316). -/
def execRetrainTimeout (n : LLane) (s : State) : Host.Outcome State Fault Refusal := portNext s (fun c => c.retrainTimeout n.1)

/-! ### Commands after which a removal may be due -/

/-- LINE_LOCKED (R123). -/
def execLineLocked (n : LLane) (s : State) : Host.Outcome State Fault Refusal := portNext s (fun c => c.lineLocked n.1)

/-- LINE_LOS (R122, R124, R133). -/
def execLineLos (n : LLane) (s : State) : Host.Outcome State Fault Refusal := portNext s (fun c => c.lineLos n.1)

/-- LOCK_LOSS (R124, R125, R264, R270): the loss criteria that are met in one CLK_DSP cycle. Log 32 (DEDUCED). -/
def execLockLoss (l : List (LLane × LossCause)) (s : State) : Host.Outcome State Fault Refusal :=
  portNext s (fun c => c.lossCycle (l.map (fun p => (p.1.1, lossCode p.2))))

/-- RESTORE_WINDOW_EXPIRY (R132, R182, R185, R264). -/
def execRestoreWindowExpiry (n : LLane) (s : State) : Host.Outcome State Fault Refusal :=
  portNext s (fun c => c.windowExpiry n.1)

/-- PAGE_IN_DONE (R132, R134, R180, R181, R182, R185, R186). -/
def execPageInDone (n : LLane) (s : State) : Host.Outcome State Fault Refusal := portNext s (fun c => c.pageDone n.1)

/-- SUBST_WAIT_TIMEOUT (R264): SUBST_WAIT has lasted 1 ms. -/
def execSubstWaitTimeout (s : State) : Host.Outcome State Fault Refusal := portNext s (fun c => c.substTimeout.settle)

/-- MULTIFRAME (R62, R184, R200, R201, R261, R262, R267): the multiframe of lane `n` that has come in whole. -/
def execMultiframe (n : LLane) (s : State) : Host.Outcome State Fault Refusal := portNext s (fun c => c.multiframe n.1)

/-! ### System commands (spec/12 "System commands") -/

/-- SYS_INFO: identification, Krelin level 0x41, lifecycle, holder, Ply lane and MGR_SEL, unit identity. -/
def execSysInfo (src : CmdSrc) (s : State) : Host.Outcome State Fault Refusal :=
  chipNext s (fun c => c.krelin src 0x0101 (fun c _ =>
    (c, .done (.okR (leBytes 4 (c.reg GLB_ID.addr).toNat ++ [0x41#8] ++ leBytes 1 (c.fld GRD_LC.STATE) ++ leBytes 1 s.dist.holder
      ++ leBytes 1 (b2n c.plyFitted + 2 * c.fld GLB_STRAPS.MGR_SEL) ++ leBytes 6 c.unitIdent)))))

/-- SYS_ECHO: the request payload unchanged. -/
def execSysEcho (src : CmdSrc) (s : State) : Host.Outcome State Fault Refusal :=
  chipNext s (fun c => c.krelin src 0x0102 (fun c r => (c, .done (.okD r.payload))))

/-- SYS_TIME (R336): the event timestamp. -/
def execSysTime (src : CmdSrc) (s : State) : Host.Outcome State Fault Refusal :=
  chipNext s (fun c => c.krelin src 0x0103 (fun c _ => (c, .done (.okR (leBytes 6 c.evt.time)))))

/-- SYS_CFG_SAVE (R47, R312). -/
def execSysCfgSave (src : CmdSrc) (s : State) : Host.Outcome State Fault Refusal :=
  chipNext s (fun c => c.krelin src 0x0104 (fun c _ =>
    if c.flash.present then (c.saveShadow, .done (.okR [])) else (c, .done (.fail .badState))))

end Sys2Proof.Machine
end

