-- ==== Sys2Proof/Machine/Ecc.lean ====
section
/-! DEFINITION. The commands of the ECC block (spec/15 R376 to R384): bucket leaks, the scrubber, the address log's freeing, the
checker test mode, and the reactions of R379 to an uncorrectable error. -/

namespace Sys2Proof.Machine

/-! ### Buckets and the log (R376, R377) -/

/-- BUCKET_LEAK (R377): LEAK milliseconds have passed for bucket `b`; LEAK 0 stops the leak. -/
def execBucketLeak (b : Fin 3) (s : State) : Host.Outcome State Fault Refusal :=
  chipNext s (fun c => if c.fld (ECC_BUCKET_CFG.LEAK b.1) = 0 then c else c.setBucket b (c.ecc.lvl[b.1] - 1))

/-- A write to `ECC_LOG_FREE` frees the entries whose bits are 1 (R376); what they show stays until they are taken again.
Log 48 (DEDUCED). -/
def Chip.logFree (s : Chip) (v : Word) : Chip :=
  (s.setFld ECC_LOG_FREE.FREE (s.reg ECC_LOG_FREE.addr &&& ~~~ v).toNat).logFullLevel

/-- LOG_FREE (R376): a write to `ECC_LOG_FREE`. -/
def execLogFree (m : Master) (v : Word) (s : State) : Host.Outcome State Fault Refusal :=
  chipNext s (fun c => c.rowWrite m ECC_LOG_FREE.addr (fun c => c.logFree v))

/-! ### What follows an uncorrectable error (R379) -/

/-- The granules of the program area of a spindle's memory: the first 448 KiB. -/
def progGranules : Nat := programArea / 8

/-- The granule rewritten with what its code held: the error is gone. -/
def Chip.healGran (s : Chip) (m : MemId) (i : Nat) : Chip := s.putGran m i (s.granData m i)

/-- A spindle's program is bad: its domain is reset with the distaff's evaluation, and the boot ROM reloads the program (R379).
Log 49 (DEDUCED). -/
def State.imgReload (s : State) (b i : Nat) : State :=
  s.rebootBy b (fun c =>
    let c := (c.raise 0x053 b).reloadSpindle s.fuse b
    if c.fitOf b then c.healGran (.spindle b) i else c)

/-- The bad entry of an active tension table replaced by the shadow entry, or by its nominal value (R147, R379). -/
def Chip.ttRepair (s : Chip) (n i : Nat) : Chip :=
  let r := s.readGran (.tension n true) i
  let v := r.2.getD (unsignedOf 10 (ttNominal i))
  (r.1.putGran (.tension n false) i v).raise 0x054 n

/-- What the part does beyond the bus error when granule `i` of a memory cannot be corrected, R379.
Log 49 (DEDUCED), 127 (DESIGN CHOICE). -/
def State.eccReact (s : State) (m : MemId) (i : Nat) : State :=
  match m with
  | .spindle b => if i < progGranules then s.imgReload b i else s
  | .hankStore => s.onChip (fun c => if (c.hankSlot (i / 256)).st = .bad then c else c.markBad (i / 256))
  | .shadow => s.onChip (fun c => if i < 0x6000 then c.healGran .shadow i else c)
  | .mailbox => s.onChip (fun c => if 0x200 ≤ i then c.healGran .mailbox i else c)
  | .tension n false => s.onChip (fun c => c.ttRepair n i)
  | _ => s

/-! ### Scrubbing (R380) -/

/-- The strong memory with a number, where it has valid bits of its own. -/
def strongNo : Nat → Option MemId
  | 0 => some (.spindle 0)
  | 1 => some (.spindle 1)
  | 2 => some .hankStore
  | 3 => some .shadow
  | 4 => some .mailbox
  | _ => none

/-- The smaller of two candidates. -/
def minKey (a b : Option Nat) : Option Nat :=
  match a, b with
  | none, y => y
  | x, none => x
  | some x, some y => some (min x y)

/-- The key of the next valid granule from `k` on of a strong-coded memory whose domain is ON. Log 49 (DEDUCED). -/
def Chip.nextScrub (s : Chip) (k : Nat) : Option Nat :=
  let a := (s.valid.find? (fun p => decide (k ≤ p.1) && p.2 && (strongNo (p.1 / 2097152)).elim false (fun m => s.pdOn m.pd))).map
    (fun p => p.1)
  let sk := 2097152 * MemId.skein.no
  let b := (s.evt.recs.find? (fun p => decide (k ≤ sk + 2 * p.1 + 1) && p.2.isSome)).map (fun p => max k (sk + 2 * p.1))
  let t := (List.range 18).findSome? (fun j =>
    let base := 2097152 * (16 + j)
    if s.pdOn (7 + j / 2) && decide (k < base + 256) then some (max k base) else none)
  minKey (minKey a b) t

/-- The memory and the granule of a key. Log 49 (DEDUCED). -/
def scrubTarget (k : Nat) : MemId × Nat :=
  let no := k / 2097152
  let i := k % 2097152
  match strongNo no with
  | some m => (m, i)
  | none => if no = 5 then (.skein, i) else (.tension ((no - 16) / 2) ((no - 16) % 2 == 1), i)

/-- A pass of the scrubber is over (R380, R385). -/
def Chip.scrubPass (s : Chip) : Chip :=
  let n := s.ecc.passFixed
  Chip.raise { s with ecc := { s.ecc with scrubAt := 0, passFixed := 0 } } 0x056 (n % 65536)

/-- The scrubber reads its next granule. -/
def State.scrub (s : State) : State :=
  match s.chip.nextScrub s.chip.ecc.scrubAt with
  | none => if s.chip.ecc.scrubAt = 0 then s else s.onChip Chip.scrubPass
  | some k =>
    let x := scrubTarget k
    let r := s.chip.readGran x.1 x.2
    let fixed := r.2.isSome && tabGet (fun _ => 0) s.chip.flips (x.1.key x.2) != 0 &&
      tabGet (fun _ => 0) r.1.flips (x.1.key x.2) == 0
    let s1 : State := { s with chip := { r.1 with ecc := { r.1.ecc with
      scrubAt := k + 1, passFixed := r.1.ecc.passFixed + b2n fixed } } }
    let s2 := if r.2.isNone then s1.eccReact x.1 x.2 else s1
    if (s2.chip.nextScrub (k + 1)).isNone then s2.onChip Chip.scrubPass else s2

/-- SCRUB_STEP (R380): INTERVAL cycles have passed. -/
def execScrubStep (s : State) : Host.Outcome State Fault Refusal :=
  .next (if s.chip.flag ECC_SCRUB_CFG.DIS then s else s.scrub)

/-! ### The checker test mode (R381, R382) -/

/-- The memory and granule that `ECC_TEST_ADDR` names, where there is one. Log 48 (DEDUCED). -/
def Chip.testTarget (s : Chip) : Option (MemId × Nat) :=
  let q := s.fld ECC_TEST_ADDR.SRAM
  let i := s.fld ECC_TEST_ADDR.GRANULE
  let m := if q = 125 ∧ i < 512 then some MemId.creel else memOfSram q s.ttSwapped
  m.bind (fun m => if i < m.size ∧ s.sram m i = q then some (m, i) else none)

/-- The check bits of a code for 64 data bits. Log 14 (DESIGN CHOICE). -/
def Code.check (c : Code) (d : Nat) : Nat :=
  match c with
  | .strong => Config.strongCheck d % 2 ^ 16
  | .standard => Config.standardCheck d % 2 ^ 8
  | .light => Config.lightCheck d % 2 ^ 16

/-- The data in the test registers. -/
def Chip.testData (s : Chip) : Nat := s.fld ECC_TEST_DATA_LO.WORD + 2 ^ 32 * s.fld ECC_TEST_DATA_HI.WORD

/-- `ECC_TEST_CHECK` after a write to the address or data registers: the check bits that the code of the SRAM computes.
Log 48 (DEDUCED). -/
def Chip.showCheck (s : Chip) : Chip :=
  match memOfSram (s.fld ECC_TEST_ADDR.SRAM) s.ttSwapped with
  | none => s
  | some m =>
    let m := if s.fld ECC_TEST_ADDR.SRAM = 125 ∧ s.fld ECC_TEST_ADDR.GRANULE < 512 then MemId.creel else m
    s.setFld ECC_TEST_CHECK.CHECK (m.code.check s.testData)

/-- Is a COMMIT to granule `i` of a memory accepted, R382? -/
def Chip.commitOk (s : Chip) (m : MemId) (i : Nat) : Bool :=
  s.pdOn m.pd && (openLifecycle (s.fld GRD_LC.STATE) ||
    match m with
    | .capture => true
    | .hankStore => decide ((s.hankSlot (i / 256)).st = .free)
    | _ => false)

/-- The granule written with data and check bits each XORed with their masks. -/
def Chip.testCommit (s : Chip) : Chip :=
  match s.testTarget with
  | none => s.setFlag ECC_TEST_CTRL.REJ true
  | some (m, i) =>
    if s.commitOk m i then
      let chk := s.fld ECC_TEST_FLIP_CHK.CHECK % (if m.code = .standard then 2 ^ 8 else 2 ^ 16)
      let f := s.fld ECC_TEST_FLIP_LO.WORD + 2 ^ 32 * s.fld ECC_TEST_FLIP_HI.WORD + 2 ^ 64 * chk
      let s := (s.putGran m i s.testData).setFlag ECC_TEST_CTRL.REJ false
      { s with flips := tabSet (fun _ => 0) s.flips (m.key i) f }
    else s.setFlag ECC_TEST_CTRL.REJ true

/-- The stored bits of a granule in the test registers, uncorrected. Log 15 (DESIGN CHOICE). -/
def Chip.rawRead (s : Chip) : Chip :=
  match s.testTarget with
  | none => s
  | some (m, i) =>
    if !(s.pdOn m.pd) then s
    else
      let d := s.granData m i
      let f := tabGet (fun _ => 0) s.flips (m.key i)
      let raw := if s.granValid m i then (d + 2 ^ 64 * m.code.check d) ^^^ f else Config.rawUnwritten (m.key i)
      ((s.setFld ECC_TEST_DATA_LO.WORD raw).setFld ECC_TEST_DATA_HI.WORD (raw >>> 32)).setFld ECC_TEST_CHECK.CHECK (raw >>> 64)

/-- A write to `ECC_TEST_CTRL`: COMMIT, then RAW_READ. -/
def Chip.testCtrl (s : Chip) (v : Word) : Chip :=
  (s.when (getBits v 0 1 == 1) Chip.testCommit).when (getBits v 1 1 == 1) Chip.rawRead

/-- COMMIT (R381, R382): a write to `ECC_TEST_CTRL`. -/
def execCommit (m : Master) (v : Word) (s : State) : Host.Outcome State Fault Refusal :=
  chipNext s (fun c => c.rowWrite m ECC_TEST_CTRL.addr (fun c => c.testCtrl v))

/-- RAW_READ (R381): a write to `ECC_TEST_CTRL`. -/
def execRawRead (m : Master) (v : Word) (s : State) : Host.Outcome State Fault Refusal :=
  chipNext s (fun c => c.rowWrite m ECC_TEST_CTRL.addr (fun c => c.testCtrl v))

end Sys2Proof.Machine
end

