-- ==== Sys2Proof/Machine/Fleyth.lean ====
section
/-! DEFINITION. The Fleyth network's own commands (spec/14 R350 to R371): messages received, the sideband links, discovery, requests,
notifications and wake, and the Fleyth commands of spec/12. -/

namespace Sys2Proof.Machine

/-! ### Sideband links (R352, R353) -/

/-- 200 µs in cycles of the event timestamp. Log 68 (DEDUCED). -/
def hearCycles : Nat := 22155

/-- A keepalive or a valid message received on sideband port `p`: the third within 200 µs brings the link up (R353).
Log 68 (DEDUCED). -/
def Chip.flyHear (s : Chip) (p : Nat) : Chip :=
  let now := s.evt.time
  let l := (now :: (s.flyPort p).hears.filter (fun t => decide (now ≤ t + hearCycles))).take 3
  let s := s.flyMod p (fun x => { x with hears := l })
  if l.length = 3 then s.flySetLink p true else s

/-- Does port `p` work: `PD_FLY` ON and the port enabled? -/
def Chip.flyWorks (s : Chip) (p : Nat) : Bool := s.pdOn 21 && s.flyEn p

/-- What sideband port `p` sends next once the pair has been idle for two character times: a wake pattern that is due, or the oldest
message of its queue (R352, R369). -/
def Chip.sidebandChars (s : Chip) (p : Nat) : List SbChar :=
  let x := s.flyPort p
  if !(s.flyWorks p) then []
  else if x.sendWake then wakeChars
  else (x.outq.head?).elim [] messageChars

/-- The code groups of characters that port `p` sends (R351): what is on the pair. -/
def Chip.sidebandGroups (s : Chip) (p : Nat) (l : List SbChar) : List (BitVec 10) := (encGroups (s.flyPort p).rd l).1

/-- Port `p` has sent characters: its running disparity follows them. -/
def Chip.sidebandSent (s : Chip) (p : Nat) (l : List SbChar) : Chip :=
  s.flyMod p (fun x => { x with rd := (encGroups x.rd l).2 })

/-- KEEPALIVE (R353): a sideband port that has sent nothing for 50 µs sends four K28.5; only its running disparity follows them.
Log 111 (DEDUCED). -/
def execKeepalive (p : Fin 2) (s : State) : Host.Outcome State Fault Refusal :=
  chipNext s (fun c => c.when (c.flyWorks p.1) (fun c => c.sidebandSent p.1 keepaliveChars))

/-- KEEPALIVE_RECEIVED (R353): sideband port `p` receives a keepalive. -/
def execKeepaliveReceived (p : Fin 2) (s : State) : Host.Outcome State Fault Refusal :=
  chipNext s (fun c => if c.flyWorks p.1 then c.flyHear p.1 else c)

/-- LINK_DOWN (R353): sideband port `p` has received no valid character for 500 µs. -/
def execLinkDown (p : Fin 2) (s : State) : Host.Outcome State Fault Refusal :=
  chipNext s (fun c => if c.flyWorks p.1 then c.flySetLink p.1 false else c)

/-- SIDEBAND_TRANSMISSION (R352, R369): the pair of port `p` has been idle for two character times: a wake pattern that is due, or
the oldest message of its queue, is sent; with a `collision` in the preamble port 0 gives way and retries later. -/
def execSidebandTransmission (p : Fin 2) (collision : Bool) (s : State) : Host.Outcome State Fault Refusal :=
  chipNext s (fun c =>
    if !(c.flyWorks p.1) || (collision && p.1 == 0) then c
    else
      let d := c.sidebandSent p.1 (c.sidebandChars p.1)
      if (c.flyPort p.1).sendWake then d.flyMod p.1 (fun x => { x with sendWake := false })
      else match (c.flyPort p.1).outq with
        | [] => c
        | _ :: t => (d.flyMod p.1 (fun x => { x with outq := t })).flyCount p.1)

/-! ### Link-local messages (R357, R361, R362) -/

/-- Can port `p` send: a sideband port, or the in-band port of a lane in Twist framing (R354, R355)?
Log 111 (DEDUCED). -/
def Chip.flyCanSend (s : Chip) (p : Nat) : Bool := s.flyEn p && (decide (p < 2) || s.laneTwist (p - 2))

/-- LINK_CLEAR with the node's epoch on every enabled port but one (R361). Log 111 (DEDUCED). -/
def Chip.flySendClears (s : Chip) (but : Option Nat) : Chip :=
  s.forAll ((List.range 10).filter (fun p => s.flyCanSend p && decide (but ≠ some p))) (fun s p =>
    s.flyLinkLocal p 11 (leBytes 2 (s.fld FLY_EPOCH.EPOCH)))

/-- A new epoch: address, range, route entries and roles are discarded, and the counts clear (R361, R370). -/
def Chip.flyNewEpoch (s : Chip) (epoch : Nat) : Chip :=
  let s := s.forAll ([FLY_STATUS.addr, FLY_RANGE.addr, FLY_PORT_ROLE.addr, FLY_CNT_FWD.addr, FLY_CNT_DROP.addr]
    ++ (List.range 10).flatMap (fun p => [FLY_ROUTE_BASE.addr p, FLY_ROUTE_SIZE.addr p])) Chip.resetReg
  let s := s.forAll (List.range 10) (fun s p => s.flyMod p (fun x => { x with nbr := none }))
  let s := { s with fly := { s.fly with probes := [], assigns := [], flight := [] } }
  s.setFld FLY_EPOCH.EPOCH epoch

/-- LINK_CLEAR received on port `p` (R361). -/
def Chip.flyLinkClear (s : Chip) (p epoch : Nat) : Chip :=
  if s.fld FLY_EPOCH.EPOCH = epoch then s
  else ((s.flyNewEpoch epoch).flySendClears (some p)).raise 0x143 epoch

/-- The body of the LINK_REPLY that answers on port `p`. -/
def Chip.linkReplyBody (s : Chip) (p : Nat) : List Byte :=
  leBytes 1 (b2n s.isManager + 2 * b2n s.flyAddr.isSome) ++ leBytes 1 p ++ leBytes 3 (s.flyAddr.getD 0) ++ [0#8]
    ++ identBytes s.unitIdent

/-- The route entry and the role of a child port (R362). -/
def Chip.flySetChild (s : Chip) (p base size : Nat) : Chip :=
  let s := ((s.setFlag (FLY_ROUTE_BASE.VALID p) true).setFld (FLY_ROUTE_BASE.BASE p) base).setFld (FLY_ROUTE_SIZE.SIZE p) size
  (s.setFld (FLY_PORT_ROLE.ROLE p) 2).flyMod p (fun x => { x with nbr := some base })

/-- LINK_ASSIGN received on port `p` by a node (R362). -/
def Chip.flyLinkAssign (s : Chip) (p : Nat) (l : List Byte) : Chip :=
  if s.isManager || s.flyAddr.isSome || leAt l 0 2 != s.fld FLY_EPOCH.EPOCH then s
  else
    let a := leAt l 2 4 % 0x100000
    let s := (s.setFlag FLY_STATUS.ADDR_VALID true).setFld FLY_STATUS.ADDR a
    let s := (s.setFld FLY_RANGE.SIZE (leAt l 6 4)).setFld (FLY_PORT_ROLE.ROLE p) 1
    let s := s.flyMod p (fun x => { x with nbr := some (leAt l 10 4 % 0x100000) })
    (s.flyOriginate { typ := 5, dst := 0, src := a, body := leBytes 4 a ++ identBytes s.unitIdent }).raise 0x142 a

/-! ### Discovery at the manager (R361 to R363) -/

/-- The node of the table with an address. -/
def Chip.flyNode (s : Chip) (a : Nat) : Option FlyNode :=
  s.fly.nodes.find? (fun n => n.addr == a && !n.boundary && !n.unreachable)

/-- The running discovery replaced. -/
def Chip.setDisc (s : Chip) (d : Option Disc) : Chip := { s with fly := { s.fly with disc := d } }

/-- A node at the end of the table. -/
def Chip.addNode (s : Chip) (n : FlyNode) : Chip := { s with fly := { s.fly with nodes := s.fly.nodes ++ [n] } }

/-- The workers found: the nodes with an address but the manager. -/
def Chip.workers (s : Chip) : Nat := (s.fly.nodes.filter (fun n => !n.boundary && !n.unreachable)).length - 1

/-- The queue of discovery is empty: FLY_DISCOVER completes (R363). Log 110 (DEDUCED). -/
def Chip.discEnd (s : Chip) : Chip :=
  let w := s.workers
  let s := ((s.setDisc none).setFlag FLY_STATUS.DISC_RUN false).raise 0x144 w
  s.endWait (fun x => decide (x = .flyDiscover))
    { status := if w = 0 then .timeout else .ok, result := leBytes 4 w ++ leBytes 4 (s.fld FLY_STATUS.ADDR) }

/-- The node in hand asks its port `p`: at the manager itself at once; the second part tells whether an answer may come.
Log 110 (DEDUCED). -/
def Chip.discProbe (s : Chip) (node p : Nat) : Chip × Bool :=
  if node = 0 then
    if s.flyUp p then (s.flyLinkLocal p 8 [], true) else (s, false)
  else (s.flyOriginate { typ := 2, dst := node, src := 0, tag := p, body := leBytes 1 p }, true)

/-- The node in hand assigns a range to the neighbour at a port. -/
def Chip.discAssign (s : Chip) (node p base size : Nat) : Chip :=
  let link := leBytes 2 (s.fld FLY_EPOCH.EPOCH) ++ leBytes 4 base ++ leBytes 4 size ++ leBytes 4 node
  if node = 0 then
    let s := s.flyLinkLocal p 10 link
    { s with fly := { s.fly with assigns := s.fly.assigns ++ [(p, base, size)] } }
  else s.flyOriginate { typ := 4, dst := node, src := 0, body := leBytes 1 p ++ [0#8] ++ link }

/-- Discovery goes on until it has to wait or is over: the ports of the node in hand, then the assignments to what was found,
then the next node of the queue (R361). Every round takes a port, an assignment or a node. -/
def Chip.discRun : Nat → Chip → Disc → Chip
  | 0, s, d => s.setDisc (some d)
  | fuel + 1, s, d =>
    match d.ports, d.found, d.toAssign, d.queue with
    | p :: t, _, _, _ =>
      let d := { d with ports := t, wait := .probe p }
      let r := s.discProbe d.node p
      if r.2 then r.1.setDisc (some d) else Chip.discRun fuel r.1 d
    | [], f :: fs, _, _ =>
      let free := ((s.flyNode d.node).elim 0 (fun n => n.size)) - 1
      Chip.discRun fuel s { d with found := [], toAssign := f :: fs, base := d.node + 1, share := free / (f :: fs).length }
    | [], [], f :: t, _ =>
      let hops := ((s.flyNode d.node).elim 0 (fun n => n.hops)) + 1
      if d.share = 0 then
        let s := (s.addNode ⟨0, 0, f.ident, hops, f.port, f.upPort, false, true⟩).raise 0x149 d.node
        Chip.discRun fuel s { d with toAssign := t }
      else
        let top := d.node + ((s.flyNode d.node).elim 0 (fun n => n.size))
        let size := if t.isEmpty then top - d.base else d.share
        let d' := { d with toAssign := t, base := d.base + size, wait := .assign f d.base size }
        (s.discAssign d.node f.port d.base size).setDisc (some d')
    | [], [], [], x :: q =>
      let up := (s.flyNode x).elim 0xFF (fun n => n.upPort)
      let ports := (List.range 10).filter (fun p => p != up && (x != 0 || s.flyEn p))
      Chip.discRun fuel s { d with queue := q, node := x, ports := ports }
    | [], [], [], [] => s.discEnd

/-- Enough rounds for one answer: the ports left, the assignments, and the next nodes. -/
def discFuel : Nat := 64

/-- Discovery goes on. -/
def Chip.discGo (s : Chip) (d : Disc) : Chip := Chip.discRun discFuel s d

/-- Port `p` is a standby port to the node with address `a`, unless it has another role (R358, R361). -/
def Chip.flyStandby (s : Chip) (p a : Nat) : Chip :=
  if s.flyRole p = 0 then (s.setFld (FLY_PORT_ROLE.ROLE p) 3).flyMod p (fun x => { x with nbr := some a }) else s

/-- An answer to the probe of a port of the node in hand: outcome and the LINK_REPLY body (R361). -/
def Chip.discReply (s : Chip) (node p : Nat) (up : Bool) (l : List Byte) : Chip :=
  match s.fly.disc with
  | none => s
  | some d =>
    if d.node ≠ node ∨ d.wait ≠ .probe p then s
    else if !up then s.discGo d
    else
      let hops := ((s.flyNode node).elim 0 (fun n => n.hops)) + 1
      let ident := leAt l 6 6 % 2 ^ 44
      let addr := leAt l 2 3 % 0x100000
      if bit (byteAt l 0) 0 then
        ((s.addNode ⟨0, 0, ident, hops, p, byteAt l 1, true, false⟩).raise 0x145 p).discGo d
      else if bit (byteAt l 0) 1 && (s.flyNode addr).isSome then (s.when (decide (node = 0)) (fun s => s.flyStandby p addr)).discGo d
      else s.discGo { d with found := d.found ++ [(⟨p, ident, byteAt l 1⟩ : FlyFound)] }

/-- ASSIGN_ACK at the manager: the awaited neighbour enters the table and the queue (R361). -/
def Chip.discAck (s : Chip) (a : Nat) : Chip :=
  match s.fly.disc with
  | none => s
  | some d =>
    match d.wait with
    | .assign f base size =>
      if a = base then
        let hops := ((s.flyNode d.node).elim 0 (fun n => n.hops)) + 1
        (s.addNode ⟨base, size, f.ident, hops, f.port, f.upPort, false, false⟩).discGo { d with queue := d.queue ++ [base], wait := .clear }
      else s
    | _ => s

/-- DISCOVERY_TIMEOUT (R361): what discovery waits for has not come in its time, or the clear time is over.
Log 110 (DEDUCED). -/
def execDiscoveryTimeout (s : State) : Host.Outcome State Fault Refusal :=
  chipNext s (fun c => match c.fly.disc with
    | none => c
    | some d => c.discGo d)

/-! ### Messages received (R356 to R366) -/

/-- A LINK_REPLY received on port `p`: the answer to the manager's own probe, or relayed to it where a probe waits for it. A worker has
no table: it takes the port for a standby port where the neighbour shows an address (R358, R361). Log 110 (DEDUCED). -/
def Chip.flyLinkReply (s : Chip) (p : Nat) (l : List Byte) : Chip :=
  if s.isManager then s.discReply 0 p true l
  else match s.fly.probes.find? (fun q => q.1 == p) with
    | none => s
    | some q =>
      let shown := bit (byteAt l 0) 1 && !(bit (byteAt l 0) 0)
      let s := s.when shown (fun s => s.flyStandby p (leAt l 2 3 % 0x100000))
      let s := { s with fly := { s.fly with probes := s.fly.probes.erase q } }
      s.flyOriginate { typ := 3, dst := 0, src := 0, tag := q.2, body := leBytes 1 p ++ [1#8] ++ l.take 12 }

/-- A link-local message on port `p`. -/
def Chip.flyLocalLink (s : Chip) (p : Nat) (m : FlyMsg) : Chip :=
  if m.typ = 8 then s.flyLinkLocal p 9 (s.linkReplyBody p)
  else if m.typ = 9 then s.flyLinkReply p m.body
  else if m.typ = 10 then s.flyLinkAssign p m.body
  else s.flyLinkClear p (leAt m.body 0 2)

/-- A REQUEST for this worker: queued, or answered BUSY where the queue is full (R366). Log 109 (DEDUCED). -/
def Chip.flyRequestIn (s : Chip) (m : FlyMsg) : Chip :=
  if s.isManager then s
  else if 8 ≤ s.fly.reqs.length then s.flyRespond m.src m.tag Status.busy.no false 0 (padTo 16 [])
  else
    let n := leAt m.body 6 2
    let q : FlyReq := ⟨m.src, m.tag, m.priv, leAt m.body 0 4, leAt m.body 4 2, m.body.drop 8,
      decide (n ≤ 228) && decide (m.body.length = 8 + n), false⟩
    Chip.serve { s with fly := { s.fly with reqs := s.fly.reqs ++ [q] }, mbx := { s.mbx with queue := s.mbx.queue ++ [.fleyth] } }

/-- A RESPONSE at the manager, matched by TAG and SRC (R323, R365). -/
def Chip.flyResponseIn (s : Chip) (m : FlyMsg) : Chip :=
  if s.fly.flight.contains (m.tag, m.src) then
    let s := { s with fly := { s.fly with flight := s.fly.flight.erase (m.tag, m.src) } }
    s.endWait (fun w => decide (w = .flyRequest m.tag))
      { status := .ok, result := leBytes 1 (byteAt m.body 0) ++ [0#8] ++ leBytes 2 (leAt m.body 2 2), data := some (m.body.drop 4) }
  else s

/-- A PROBE of one of this node's ports: LINK_QUERY on it, or "no link" at once. -/
def Chip.flyProbeIn (s : Chip) (m : FlyMsg) : Chip :=
  let p := byteAt m.body 0
  if decide (p < 10) && s.flyWorks p && s.flyUp p then
    let s := { s with fly := { s.fly with probes := s.fly.probes ++ [(p, m.tag)] } }
    s.flyLinkLocal p 8 []
  else s.flyOriginate { typ := 3, dst := m.src, src := 0, tag := m.tag, body := leBytes 1 p ++ zeros 13 }

/-- An ASSIGN for the neighbour at one of this node's ports. -/
def Chip.flyAssignIn (s : Chip) (m : FlyMsg) : Chip :=
  let p := byteAt m.body 0
  if p < 10 then
    let s := { s with fly := { s.fly with assigns := s.fly.assigns ++ [(p, leAt m.body 4 4 % 0x100000, leAt m.body 8 4)] } }
    s.flyLinkLocal p 10 ((m.body.drop 2).take 14)
  else s

/-- An ASSIGN_ACK that came in on port `p` makes that port a child port, where it answers an assignment made there (R362). -/
def Chip.flyAckPass (s : Chip) (p : Nat) (m : FlyMsg) : Chip :=
  match s.fly.assigns.find? (fun q => q.1 == p && q.2.1 == leAt m.body 0 4 % 0x100000) with
  | none => s
  | some q => Chip.flySetChild { s with fly := { s.fly with assigns := s.fly.assigns.erase q } } p q.2.1 q.2.2

/-- A message delivered at its destination. -/
def Chip.flyDeliver (s : Chip) (m : FlyMsg) : Chip :=
  let s := s.satInc FLY_CNT_FWD.LOCAL 1
  match m.typ with
  | 0 => s.flyRequestIn m
  | 1 => s.flyResponseIn m
  | 2 => s.flyProbeIn m
  | 3 => if s.isManager then s.discReply m.src (byteAt m.body 0) (byteAt m.body 1 == 1) (m.body.drop 2) else s
  | 4 => s.flyAssignIn m
  | 5 => if s.isManager then s.discAck (leAt m.body 0 4 % 0x100000) else s
  | 6 => if s.isManager then
      { s with fly := { s.fly with notes := s.fly.notes ++ [(m.src, byteAt m.body 0 % 16, byteAt m.body 1 % 16)] } } else s
  | _ => s

/-- A sound message that came in on port `p`: link-local, delivered, or forwarded (R358). Log 109 (DEDUCED). -/
def Chip.flyRoute (s : Chip) (p : Nat) (m : FlyMsg) : Chip :=
  if 8 ≤ m.typ then s.flyLocalLink p m
  else
    match s.flyAddr with
    | none => s.flyDrop .noAddr
    | some a =>
      let s := if m.typ = 5 then s.flyAckPass p m else s
      if m.dst = a then s.flyDeliver m
      else (s.satInc FLY_CNT_FWD.FWD 1).flyForward { m with hops := min 255 (m.hops + 1) } (some p)

/-- The bytes of a message that has come in on port `p`, and whether every character between SOM and EOM was sound (R352, R356). -/
def Chip.flyTake (s : Chip) (p : Nat) (l : List Byte) (sound : Bool) : Chip :=
  match (if sound then parseFly l else none) with
  | none => (s.flyCutThrough p l).flyDrop .bad
  | some m => (s.when (decide (p < 2)) (fun s => s.flyHear p)).flyRoute p m

/-- A message has come in. -/
def Chip.flyMessage (s : Chip) (a : FlyArrival) : Chip :=
  match a with
  | .sideband p l =>
    match messageHeard false (heardChars l) with
    | none => s
    | some m => if s.flyWorks p.1 then s.flyTake p.1 m.1 m.2 else s
  | .inband n =>
    let p := n.1 + 2
    match (s.flyPort p).inbox with
    | [] => s
    | l :: t =>
      let s := s.flyMod p (fun x => { x with inbox := t })
      if s.flyWorks p then s.flyTake p l true else s

/-- FLY_MESSAGE (R353, R356 to R362, R365, R366). -/
def execFlyMessage (a : FlyArrival) (s : State) : Host.Outcome State Fault Refusal := chipNext s (fun c => c.flyMessage a)

/-- REQUEST_EXPIRY (R366): the request at place `i` of the queue has waited for its timeout and is discarded. -/
def execRequestExpiry (i : Fin 8) (s : State) : Host.Outcome State Fault Refusal :=
  chipNext s (fun c =>
    if i.1 < c.fly.reqs.length then (c.takeFly i.1).serve else c)

/-- NOTIFY (R367): the oldest link change of a worker is sent to the manager where a route to it exists; at the manager a received
NOTIFY reaches Krelin. -/
def execNotify (s : State) : Host.Outcome State Fault Refusal :=
  chipNext s (fun c =>
    match c.fly.notes with
    | [] => c
    | (a, code, p) :: t =>
      let c := { c with fly := { c.fly with notes := t } }
      if c.isManager then c.raise 0x146 (a + 2 ^ 20 * code + 2 ^ 24 * p)
      else if c.flyAddr.isSome && ((c.flyParent).bind c.flyVia).isSome then
        c.flyOriginate { typ := 6, dst := 0, src := 0, body := leBytes 1 code ++ leBytes 1 p }
      else c)

/-! ### Wake (R368, R369, R436) -/

/-- The bit of a wake source in `FLY_WAKE_CAUSE` and `FLY_WAKE_CFG`. -/
def wakePlace : WakeSource → Nat × Nat
  | .address => (16, 17)
  | .port p => (p.1, p.1)

/-- WAKE_ACTIVITY (R368, R436, R480): an address match or activity at a port while the part enters or is in module low power. -/
def execWakeActivity (w : WakeSource) (s : State) : Host.Outcome State Fault Refusal :=
  chipNext s (fun c =>
    let cfg := if c.pmu.lowPower then c.pmu.wakeCfg else (c.reg FLY_WAKE_CFG.addr).toNat
    if (c.pmu.lowPower || c.pmu.entering) && bit cfg (wakePlace w).2 then
      let c := c.latchWake 1
      { c with pmu := { c.pmu with wakeDetail := setBitN c.pmu.wakeDetail (wakePlace w).1 } }
    else c)

/-- `PD_FLY` is up again after a wake: the cause is shown, and the wake pattern goes out on each enabled sideband port but those
that woke the part (R368, R369). -/
def Chip.flyWoken (s : Chip) (cause : Nat) : Chip :=
  if cause = 0 then s
  else
    let d := s.pmu.wakeDetail
    let s := s.setReg FLY_WAKE_CAUSE.addr (BitVec.ofNat 32 d)
    let fwd := bit s.pmu.wakeCfg 16
    let s := if fwd then s.forAll ((List.range 2).filter (fun p => s.flyEn p && !(bit d p))) (fun s p =>
        s.flyMod p (fun x => { x with sendWake := true })) else s
    { s with pmu := { s.pmu with wakeDetail := 0 } }

/-! ### The Fleyth commands (R323, R361 to R365, R370) -/

/-- FLY_DISCOVER: a new epoch, the clears, and the wait for them to spread. Log 110 (DEDUCED). -/
def Chip.flyDiscover (s : Chip) (t : Nat) : Chip × Verdict :=
  if t < 10 ∨ 10000000 < t then (s, .done (.fail .badArg))
  else if !(s.isManager) || !(s.pdOn 21) then (s, .done (.fail .badState))
  else if s.fly.disc.isSome then (s, .done (.fail .busy))
  else
    let s := s.flyNewEpoch ((s.fld FLY_EPOCH.EPOCH + 1) % 65536)
    let s := ((s.setFlag FLY_STATUS.ADDR_VALID true).setFld FLY_RANGE.SIZE 0x100000).setFlag FLY_STATUS.DISC_RUN true
    let s := s.forAll ((List.range 2).filter (fun p => s.flyEn p && !(s.flyUp p))) (fun s p =>
      s.flyMod p (fun x => { x with sendWake := true }))
    let s := s.flySendClears none
    let s := { s with fly := { s.fly with nodes := [(⟨0, 0x100000, s.unitIdent, 0, 0xFF, 0xFF, false, false⟩ : FlyNode)] } }
    (s.setDisc (some ⟨t, [0], 0, [], [], [], 0, 0, .clear⟩), .runs .flyDiscover)

/-- FLY_DISCOVER (R361, R363). -/
def execFlyDiscover (src : CmdSrc) (s : State) : Host.Outcome State Fault Refusal :=
  chipNext s (fun c => c.krelin src 0x0A01 (fun c r => c.flyDiscover (arg32 r.payload 0)))

/-- FLY_REQUEST: a REQUEST to a worker with the level fixed at the doorbell. Log 111 (DEDUCED). -/
def Chip.flyRequestCmd (s : Chip) (r : Req) : Chip × Verdict :=
  match r.src with
  | .fleyth _ => (s, .done (.fail .denied))
  | .slot i =>
    let l := r.payload
    let a := arg32 l 0
    let t := arg32 l 4
    if 0x100000 ≤ a ∨ a = 0 ∨ t < 10 ∨ 10000000 < t ∨ 228 < arg16 l 10 ∨ arg16 l 10 + 12 ≠ l.length then (s, .done (.fail .badArg))
    else if !(s.isManager) || s.flyAddr.isNone || !(s.pdOn 21) then (s, .done (.fail .badState))
    else if s.fly.disc.isSome then (s, .done (.fail .busy))
    else
      let seq := (s.fly.seq + 1) % 4096
      let tag := i.1 + 16 * seq
      let s := { s with fly := { s.fly with seq := seq, flight := s.fly.flight ++ [(tag, a)] } }
      let body := leBytes 4 t ++ leBytes 2 (arg16 l 8) ++ leBytes 2 (arg16 l 10) ++ l.drop 12
      (s.flyOriginate { typ := 0, dst := a, src := 0, tag := tag, priv := r.level, body := body }, .runs (.flyRequest tag))

/-- FLY_REQUEST (R323, R363, R365). -/
def execFlyRequest (src : CmdSrc) (s : State) : Host.Outcome State Fault Refusal :=
  chipNext s (fun c => c.krelin src 0x0A02 (fun c r => c.flyRequestCmd r))

/-- FLY_CFG (R353, R370): the port enables; the link of a disabled port goes down. Log 122 (DEDUCED). -/
def Chip.flyCfg (s : Chip) (en : Nat) : Chip × Verdict :=
  let s := s.fwWrite 21 FLY_PORT_CFG.addr (setBits (s.reg FLY_PORT_CFG.addr) 0 10 en)
  (if s.pdOn 21 then s.forAll ((List.range 10).filter (fun p => !(bit en p))) (fun s p => s.flySetLink p false) else s, .done (.okR []))

/-- FLY_CFG. -/
def execFlyCfg (src : CmdSrc) (s : State) : Host.Outcome State Fault Refusal :=
  chipNext s (fun c => c.krelin src 0x0A03 (fun c r => c.flyCfg (byteAt r.payload 0 % 4 + 4 * byteAt r.payload 1)))

/-- An entry of the node table, R364. -/
def FlyNode.bytes (n : FlyNode) : List Byte :=
  leBytes 4 (n.addr + 2 ^ 24 * (n.hops % 256)) ++ leBytes 4 n.size ++ identBytes n.ident ++ leBytes 1 n.port
    ++ leBytes 1 (b2n n.boundary + 2 * b2n n.unreachable)

/-- FLY_NODES: the node table into capture memory (R310, R311, R364). -/
def Chip.flyNodes (s : Chip) (a len : Nat) : Chip × Verdict :=
  if capOk a len = false then (s, .done (.fail .badArg))
  else if !(s.isManager) || !(s.pdOn 19) then (s, .done (.fail .badState))
  else
    let l := s.fly.nodes.take (len / 16)
    (s.writeBytes .capture a (l.flatMap FlyNode.bytes), .done (.okR (leBytes 4 l.length)))

/-- FLY_NODES. -/
def execFlyNodes (src : CmdSrc) (s : State) : Host.Outcome State Fault Refusal :=
  chipNext s (fun c => c.krelin src 0x0A04 (fun c r => c.flyNodes (arg32 r.payload 0) (arg32 r.payload 4)))

end Sys2Proof.Machine
end

