-- ==== Sys2Proof/Machine/Thermal.lean ====
section
/-! DEFINITION. The thermal block (spec/18 R438 to R443): judging sensors, region levels, WARN, throttling and the trip; and
the command that reads it. -/

namespace Sys2Proof.Machine

/-- The region of a sensor, R438: 0 LINE_A, 1 LINE_B, 2 CORE, 3 HOST, 4 CTRL. -/
def sensorRegion (i : Nat) : Nat := [0, 0, 0, 1, 1, 1, 2, 2, 2, 3, 3, 3, 4, 4].getD i 0

/-- The neighbours of a sensor, R438. -/
def sensorNeighbours (i : Nat) : List Nat :=
  [[1, 2, 6], [0, 2, 6], [0, 1, 3, 7], [2, 4, 5, 7], [3, 5, 8], [3, 4, 8], [0, 1, 7, 12], [2, 3, 6, 8], [4, 5, 7, 13],
   [10, 11, 12], [9, 11, 13], [9, 10, 13], [6, 9, 13], [8, 10, 11, 12]].getD i []

/-- The sensors of a region. -/
def regionSensors (g : Nat) : List Nat := (List.range 14).filter (fun i => sensorRegion i == g)

/-- Is sensor `i` broken? -/
def Chip.sensorBroken (s : Chip) (i : Nat) : Bool := bit (s.fld THM_STATUS.BROKEN) i

/-- The last readings of sensor `i`, newest first. -/
def Chip.sensorHist (s : Chip) (i : Nat) : List (Option Int) := (s.thm.hist.toList[i]?).getD []

/-- The newest reading of sensor `i`; none for a failed conversion. -/
def Chip.sensorNow (s : Chip) (i : Nat) : Option Int := ((s.sensorHist i).head?).getD none

/-- The newest reading of sensor `i` if it is valid, R440. Log 66 (DEDUCED). -/
def Chip.validNow (s : Chip) (i : Nat) : Option Int := if s.sensorBroken i then none else s.sensorNow i

/-- The span of some numbers from the lowest to the highest. -/
def spanOf : List Int → Int
  | [] => 0
  | x :: t => t.foldl max x - t.foldl min x

/-- A number put into a rising list. -/
def insertInt (x : Int) : List Int → List Int
  | [] => [x]
  | y :: t => if x ≤ y then x :: y :: t else y :: insertInt x t

/-- Twice the median of some numbers: of an even count, the mean of the middle two. -/
def medianTwice (l : List Int) : Int :=
  let m := l.foldr insertInt []
  m.getD (m.length / 2) 0 + m.getD ((m.length - 1) / 2) 0

/-- The cause for which sensor `i` is broken at this sample, 0 for none (R440); the samples are in `thm.hist`, and the flags
stand as at the start of the sample. Log 66 (DEDUCED). -/
def Chip.judgeSensor (s : Chip) (i : Nat) : Nat :=
  match s.sensorNow i with
  | none => 1
  | some x =>
    let ns := (sensorNeighbours i).filter (fun n => !(s.sensorBroken n))
    let h := s.sensorHist i
    let near := ns.filterMap s.sensorNow
    if x < -400 ∨ 1500 < x then 1
    else if h.length = 64 ∧ h.all (fun y => decide (y = some x)) = true ∧
        ns.any (fun n => decide (20 < spanOf ((s.sensorHist n).filterMap id))) = true then 2
    else if 2 ≤ ns.length ∧ near ≠ [] ∧ 300 < ((2 * x - medianTwice near).natAbs) then 3
    else 0

/-- A sample of every sensor taken into the histories and, for sensors that are not broken, into `THM_SENSOR` (R445).
Log 66 (DEDUCED). -/
def Chip.takeSample (s : Chip) (v : Vector (Option Int) 14) : Chip :=
  let s := { s with thm := { s.thm with
    hist := Vector.ofFn (fun (i : Fin 14) => (v[i.1] :: s.thm.hist[i.1]).take 64) } }
  s.forAll (List.range 14) (fun s i =>
    match s.validNow i with
    | none => s
    | some x => (s.setFld (THM_SENSOR.TEMP i) (unsignedOf 16 x)).setFlag (THM_SENSOR.VALID i) true)

/-- The sensors found broken at one sample become broken together (R440). Log 66 (DEDUCED). -/
def Chip.breakSensors (s : Chip) (l : List (Nat × Nat)) : Chip :=
  let s := s.forAll l (fun s p =>
    ((s.setFldBit THM_STATUS.BROKEN p.1 true).setFld (THM_SENSOR.CAUSE p.1) p.2
      |>.setFlag (THM_SENSOR.BROKEN p.1) true).setFlag (THM_SENSOR.VALID p.1) false)
  match l.getLast? with
  | none => s
  | some p =>
    let s := s.setLevel 0x1C3 true (p.1 + 16 * p.2)
    Chip.evalFray { s with evt := { s.evt with levelPay := tabSet (fun _ => 0) s.evt.levelPay 0x1C3 (p.1 + 16 * p.2) } }

/-- The level of a region. -/
def Chip.regionLevel (s : Chip) (g : Nat) : Nat := getBits (s.reg THM_REGION.addr) (2 * g) 2

/-- The level of region `g` after a sample, R441. -/
def Chip.nextLevel (s : Chip) (g : Nat) : Nat :=
  let l := s.regionLevel g
  let l := match (regionSensors g).filterMap s.validNow with
    | [] => l
    | x :: r =>
      let t := r.foldl max x
      let up := if l = 0 ∧ 1100 ≤ t then 1 else l
      let up := if up = 1 ∧ 1150 ≤ t then 2 else up
      let down := if up = 2 ∧ t < 1120 then 1 else up
      if down = 1 ∧ t < 1070 then 0 else down
  if (regionSensors g).any s.sensorBroken then max l 1 else l

/-- The region levels after a sample, with what a change of any of them does (R442). Log 67 (DEDUCED). -/
def Chip.applyLevels (s : Chip) (new : List Nat) : Chip :=
  let old := (List.range 5).map s.regionLevel
  let dev := new.foldl max 0
  let s := (s.setReg THM_REGION.addr (BitVec.ofNat 32 ((List.range 5).foldl (fun a g => a + 4 ^ g * new.getD g 0) 0))).setFld
    THM_STATUS.LEVEL dev
  if old = new then s
  else
    let s := s.raise 0x1C2 (dev + (List.range 5).foldl (fun a g => a + 4 ^ (g + 1) * new.getD g 0) 0)
    let s := if s.pdOn 16 ∧ s.fld CRL_STATUS.THROTTLE ≠ dev then (s.setFld CRL_STATUS.THROTTLE dev).raise 0x183 0 else s
    s.forAll (List.range 9) (fun s n =>
      let g := if n < 4 then 0 else 1
      let l := new.getD g 0
      if old.getD g 0 = l then s
      else s.thermalVolt n (if l = 0 then none else if l = 1 then some 1 else some 0))

/-- WARN after a sample, R441; EVS_THM_WARN follows it. -/
def Chip.applyWarn (s : Chip) : Chip :=
  let v := (List.range 14).filterMap s.validNow
  if v.any (fun x => decide (1050 ≤ x)) then (s.setFlag THM_STATUS.WARN true).setLevel 0x1C1 true 0
  else if v.all (fun x => decide (x < 1020)) then (s.setFlag THM_STATUS.WARN false).setLevel 0x1C1 false 0
  else s

/-- The sampling rate after a sample, R439; 100 ms at 16 kHz are 1600 samples. Log 67 (DEDUCED). -/
def Chip.applyRate (s : Chip) : Chip :=
  if s.flag CLK_WHORL_STATUS.RING_OSC_ON then
    { s.setFlag THM_STATUS.FAST false with thm := { s.thm with cool := 0 } }
  else if ((List.range 14).filterMap s.validNow).any (fun x => decide (990 ≤ x)) then
    { s.setFlag THM_STATUS.FAST true with thm := { s.thm with cool := 0 } }
  else if s.flag THM_STATUS.FAST then
    if 1600 ≤ s.thm.cool + 1 then { s.setFlag THM_STATUS.FAST false with thm := { s.thm with cool := 0 } }
    else { s with thm := { s.thm with cool := s.thm.cool + 1 } }
  else s

/-- The sensor for which a sample trips the part and whether it is for broken sensors, R441 and R443; `new` are the sensors
found broken at this sample. Log 67 (DEDUCED). -/
def Chip.tripOf (s : Chip) (new : List Nat) : Option (Nat × Bool) :=
  let hot := (List.range 14).filter (fun i => match s.validNow i with | some x => decide (1250 ≤ x) | none => false)
  match argMax (fun i => ((s.validNow i).getD 0).toNat) hot with
  | some i => some (i, false)
  | none =>
    let twice := (List.range 5).filter (fun g => decide (2 ≤ ((regionSensors g).filter s.sensorBroken).length))
    (new.find? (fun i => twice.contains (sensorRegion i))).map (fun i => (i, true))

/-- What a trip records and raises, R443. Log 51 (DEDUCED). -/
def Chip.recordTrip (s : Chip) (i : Nat) (byBroken : Bool) : Chip :=
  let g := sensorRegion i
  let t := match s.sensorNow i with
    | some x => unsignedOf 16 x
    | none => 0x8000
  let s := s.setReg THM_TRIP_INFO.addr (BitVec.ofNat 32 (2 ^ 31 + 2 ^ 30 * b2n byBroken + 2 ^ 27 * g + 2 ^ 16 * i + t))
  (s.setFlag THM_STATUS.TRIP true).raise 0x1C7 (i + 16 * b2n byBroken + 32 * g)

/-- THERMAL_SAMPLE (R441): THM samples the 14 sensors, in 0.1 °C; none is a failed conversion. -/
def execThermalSample (v : Vector (Option Int) 14) (s : State) : Host.Outcome State Fault Refusal :=
  let c := s.chip.takeSample v
  let new := ((List.range 14).filter (fun i => !(c.sensorBroken i))).filterMap (fun i =>
    if c.judgeSensor i = 0 then none else some (i, c.judgeSensor i))
  let c := c.breakSensors new
  let c := ((c.applyLevels ((List.range 5).map c.nextLevel)).applyWarn).applyRate
  let trip := if c.flag THM_STATUS.TRIP then none else c.tripOf (new.map (fun p => p.1))
  match trip with
  | none => .next { s with chip := c }
  | some (i, b) => .next (State.blackout { s with chip := c.recordTrip i b })

/-- TEL_TEMP (R305): the readings, the broken sensors and the throttle level. -/
def execTelTemp (src : CmdSrc) (s : State) : Host.Outcome State Fault Refusal :=
  chipNext s (fun c => c.krelin src 0x0901 (fun c _ => (c, .done (.okD
    ((List.range 14).flatMap (fun i => leBytes 2 (c.fld (THM_SENSOR.TEMP i))) ++ leBytes 2 (c.fld THM_STATUS.BROKEN)
      ++ leBytes 2 (c.fld THM_STATUS.LEVEL))))))

end Sys2Proof.Machine
end

