-- ==== Sys2Proof/Machine/Startup.lean ====
section
/-! DEFINITION. Clocks, resets, the start and the supplies (spec/02 R23 to R53, spec/20 R477 to R479, spec/21 R490). -/

namespace Sys2Proof.Machine

/-! ### Resets (R32, R35, R49, R284) -/

/-- How far a reset source reaches, the widest last (R35). -/
def resetRank : ResetSource → Nat
  | .por => 4
  | .pin | .soft => 3
  | .supply => 2
  | .whorl => 1
  | .watchdogA | .watchdogB => 0

/-- The widest of some reset sources, the first of the widest. Log 50 (DESIGN CHOICE). -/
def widest (r : ResetSource) (l : List ResetSource) : ResetSource :=
  l.foldl (fun w x => if resetRank w < resetRank x then x else w) r

/-- The bit of a reset source in `GLB_RST_STATUS` (R49). -/
def resetFlag : ResetSource → Fld
  | .por => GLB_RST_STATUS.POR
  | .pin => GLB_RST_STATUS.PIN
  | .soft => GLB_RST_STATUS.SOFT
  | .supply => GLB_RST_STATUS.SUPPLY
  | .whorl => GLB_RST_STATUS.WHORL
  | .watchdogA => GLB_RST_STATUS.WDT_A
  | .watchdogB => GLB_RST_STATUS.WDT_B

/-- The bit of every source that acted in the cycle is set (R35). Log 50 (DESIGN CHOICE). -/
def Chip.noteResets (s : Chip) (l : List ResetSource) : Chip := s.forAll l (fun s r => s.setFlag (resetFlag r) true)

/-- Step 1 of a start: `PD_AON` is released. While the trip latch stands no start begins (R32, R443).
Log 12 (DESIGN CHOICE), 51 (DEDUCED). -/
def Chip.step1 (s : Chip) : Chip := if s.flag THM_STATUS.TRIP then s else s.setFld GLB_BOOT_STATUS.STEP 1

/-- The part after POR with the straps and the supply monitors as given (R32, R52, R487). -/
def State.porReset (s : State) (straps supplies : Nat) : State :=
  let n := Chip.atPor s.fuse s.chip.flash straps (2 * supplies + 1)
  { s with dist := Distaff.atPor, chip := (Chip.supplyLevel { n with fresh := s.chip.fresh }).step1 }

/-- The part after `RESET_N` or a software chip reset; `RESET_N` latches the straps (R52, R487). -/
def State.chipReset (s : State) (r : ResetSource) (straps : Option Nat) : State :=
  let n := s.chip.pinReset s.fuse (resetFlag r)
  let n := match straps with
    | none => n
    | some k => { n.setFld GLB_STRAPS.MGR_SEL (k % 2) with straps := k }
  { s with dist := s.dist.released, chip := n.step1 }

/-- The part after a core supply loss: the reach of `RESET_N`, with the judgements on the sensors kept, since they last until a
start at step 1 (R440); the start waits for the supply. Log 50 (DESIGN CHOICE). -/
def State.supplyReset (s : State) : State :=
  let old := s.chip
  let n := (old.pinReset s.fuse GLB_RST_STATUS.SUPPLY).setFlag GLB_SUPPLY_STATUS.CORE_OK false
  let broken := old.fld THM_STATUS.BROKEN
  let n := (List.range 14).foldl (fun (c : Chip) i =>
    if bit broken i then c.setReg (THM_SENSOR.addr i) (old.reg (THM_SENSOR.addr i)) else c) (n.setFld THM_STATUS.BROKEN broken)
  let n := if broken = 0 then n else n.setLevel 0x1C3 true (tabGet (fun _ => 0) old.evt.levelPay 0x1C3)
  { s with dist := s.dist.released, chip := n.evalFray }

/-- The part after a Whorl restart: skeins, mailbox and all of `PD_AON` are kept; the distaff is released (R32, R284). -/
def State.whorlRestart (s : State) : State :=
  let c := s.chip.whorlReset
  let d := s.dist.released
  let c := if s.dist.holder = 0 then c else c.raise 0x1B0 (distPayload d)
  { s with dist := d, chip := c.evalFray }

/-- The resets of one cycle: the widest is performed, and every source leaves its bit (R35); a core supply that failed in the cycle
is not good (R52). Log 50 (DESIGN CHOICE). -/
def State.resetBy (s : State) (r : ResetSource) (also : List ResetSource) (straps supplies : Nat) : State :=
  let w := widest r also
  let t := match w with
    | .por => s.porReset straps supplies
    | .pin => s.chipReset .pin (some straps)
    | .soft => s.chipReset .soft none
    | .supply => s.supplyReset
    | .whorl => s.whorlRestart
    | _ => s
  t.onChip (fun c =>
    let c := c.noteResets (r :: also)
    if (r :: also).contains .supply && decide (w ≠ .por) then c.setFlag GLB_SUPPLY_STATUS.CORE_OK false else c)

/-- POWER_ON_RESET (R32, R35, R52): VDD_AON rises. Operands: the straps (bit 0 `MGR_SEL`, 1 `ADDR_SEL0`, 2 `ADDR_SEL1`), the
other supply monitors as `GLB_SUPPLY_STATUS` [5:1] has them, and the other reset sources of the cycle. -/
def execPowerOnReset (straps : Fin 8) (supplies : Fin 32) (also : List ResetSource) (s : State) :
    Host.Outcome State Fault Refusal :=
  .next (s.resetBy .por also straps.1 supplies.1)

/-- RESET_N (R32, R33, R35, R284, R301, R346). -/
def execResetN (straps : Fin 8) (also : List ResetSource) (s : State) : Host.Outcome State Fault Refusal :=
  .next (s.resetBy .pin (also.filter (fun r => r != .por)) straps.1 0)

/-- A write to `GLB_RST_CTRL`, R50; any value but KEY 0x6408 with CHIP 1 is ignored. -/
def State.softReset (s : State) (v : Word) (also : List ResetSource) : State :=
  if getBits v 16 16 = 0x6408 ∧ getBits v 0 1 = 1 then
    s.resetBy .soft (also.filter (fun r => r != .por && r != .pin)) 0 0
  else s

/-- SOFTWARE_CHIP_RESET (R50): a write to `GLB_RST_CTRL`. -/
def execSoftwareChipReset (m : Master) (v : Word) (also : List ResetSource) (s : State) : Host.Outcome State Fault Refusal :=
  .next (s.rowWrite m GLB_RST_CTRL.addr (fun s => s.softReset v also))

/-- CORE_SUPPLY_LOSS (R32): VDD_CORE low for 1 µs. -/
def execCoreSupplyLoss (also : List ResetSource) (s : State) : Host.Outcome State Fault Refusal :=
  let t := s.resetBy .supply (also.filter (fun r => decide (resetRank r < 2))) 0 0
  .next (if s.chip.flag GLB_SUPPLY_STATUS.CORE_OK then t else s)

/-- CORE_SUPPLY_GOOD (R32): VDD_CORE is back; the start goes on with step 2. -/
def execCoreSupplyGood (s : State) : Host.Outcome State Fault Refusal :=
  chipNext s (fun c => c.setFlag GLB_SUPPLY_STATUS.CORE_OK true)

/-- WHORL_RESTART (R29, R32, R301): the lock detector reports loss of lock while `REFCLK` is present. -/
def execWhorlRestart (also : List ResetSource) (s : State) : Host.Outcome State Fault Refusal :=
  .next (if s.chip.flag CLK_WHORL_STATUS.LOCK ∧ s.chip.flag CLK_WHORL_STATUS.REFCLK_OK then
      s.resetBy .whorl (also.filter (fun r => decide (resetRank r < 1))) 0 0
    else s)

/-- JTAG_TAP_RESET (R32): the TAP controller and the boundary-scan cells. Log 8 (PRESUMED), 120 (DEDUCED). -/
def execJtagTapReset (s : State) : Host.Outcome State Fault Refusal := chipNext s (fun c => { c with jtag := {} })

/-! ### The Whorl and `REFCLK` (R24, R27, R28, R30) -/

/-- HOLDOVER (R27): `REFCLK` misses eight edges; a locked Whorl freezes its control word and runs on.
Log 53 (DEDUCED). -/
def execHoldover (s : State) : Host.Outcome State Fault Refusal :=
  chipNext s (fun c =>
    let c := { c.setFlag CLK_WHORL_STATUS.REFCLK_OK false with start := { c.start with slew := false } }
    if c.flag CLK_WHORL_STATUS.LOCK && !(c.flag CLK_WHORL_STATUS.HOLDOVER) then
      (c.setFlag CLK_WHORL_STATUS.HOLDOVER true).setLevel 0x1D0 true 0
    else c)

/-- REFCLK_RETURN (R28): `REFCLK` is present again, `off` hundredths of a ppm from the held frequency; within ±200 ppm a Whorl in
holdover starts to slew. Log 53 (DEDUCED). -/
def execRefclkReturn (off : Int) (s : State) : Host.Outcome State Fault Refusal :=
  chipNext s (fun c =>
    let c := c.setFlag CLK_WHORL_STATUS.REFCLK_OK true
    { c with start := { c.start with slew := c.flag CLK_WHORL_STATUS.HOLDOVER && decide (off.natAbs ≤ 20000) } })

/-- WHORL_RECOVERED (R28): the slew is complete. Log 53 (DEDUCED). -/
def execWhorlRecovered (s : State) : Host.Outcome State Fault Refusal :=
  chipNext s (fun c =>
    if c.flag CLK_WHORL_STATUS.HOLDOVER && c.start.slew then
      let c := { (c.setFlag CLK_WHORL_STATUS.HOLDOVER false).setLevel 0x1D0 false 0 with start := { c.start with slew := false } }
      c.raise 0x1D1 0
    else c)

/-- The last completed step of the start. -/
def Chip.step (s : Chip) : Nat := s.fld GLB_BOOT_STATUS.STEP

/-- WHORL_LOCK (R24, R30, R31): step 3. -/
def execWhorlLock (s : State) : Host.Outcome State Fault Refusal :=
  chipNext s (fun c =>
    if c.step = 2 ∧ c.flag CLK_WHORL_STATUS.LOCK = false then
      let c := (c.setFlag CLK_WHORL_STATUS.LOCK true).setFlag CLK_WHORL_STATUS.RING_OSC_ON false
      let c := ((c.setFlag CLK_WHORL_STATUS.REFCLK_OK true).setFlag CLK_WHORL_STATUS.HOLDOVER false).setFlag PMU_LADDER.RDY_OSC true
      { c.setFld GLB_BOOT_STATUS.STEP 3 with limited := false }
    else c)

/-! ### Steps 2, 4 and 5 (R37, R43, R383, R477) -/

/-- The domains that come up at step 2 (R43). Log 52 (DEDUCED). -/
def step2Domains : List Nat := [1, 2, 16, 17, 18, 19, 20, 21]

/-- A domain comes up at step 2. -/
def Chip.regUp (s : Chip) (d : Nat) : Chip :=
  if s.pdOn d then s
  else
    let s := ((s.resetLogic d).clearMemories d).setPd d .on
    if d = 16 then s.setFld CRL_STATUS.THROTTLE (s.fld THM_STATUS.LEVEL) else s

/-- RDY_REG: step 2. OTP is read and the regulators of the domains of R43 come up; a wake cause of Fleyth is shown once `PD_FLY` is up
(R368, R462, R490). Log 52 (DEDUCED). -/
def execRdyReg (s : State) : Host.Outcome State Fault Refusal :=
  chipNext s (fun c =>
    if c.step ≤ 1 ∧ c.flag GLB_SUPPLY_STATUS.CORE_OK = true ∧ c.flag THM_STATUS.TRIP = false ∧ c.pmu.lowPower = false ∧
        c.flag CLK_WHORL_STATUS.LOCK = false then
      let c := c.rebase (fun c => c.showOtp s.fuse)
      let c := c.forAll step2Domains Chip.regUp
      let c := (c.setFlag PMU_LADDER.RDY_REG true).setFld GLB_BOOT_STATUS.STEP 2
      c.flyWoken c.pmu.wakeDetail
    else c)

/-- The spare rows that an SRAM still has: 4, less those that fused and applied repairs use (spec/15 "Soft repair"). -/
def Chip.spareRows (s : Chip) (o : Otp) (q : Nat) : Nat :=
  4 - tabGet (fun _ => 0) o.rowsFused q - (s.ecc.repaired.filter (fun p => p.1 == q)).length

/-- One soft-repair entry applied, R383: a row moves to a spare row, or the SRAM is exhausted. -/
def Chip.softRepair (s : Chip) (o : Otp) (e : DoffEntry) : Chip :=
  if 126 ≤ e.index then s
  else if 0 < s.spareRows o e.index then { s with ecc := { s.ecc with repaired := s.ecc.repaired ++ [(e.index, e.addr)] } }
  else
    let s := s.setFldBit (ECC_REPAIR_STATUS.WORD (e.index / 32)) (e.index % 32) true
    let first := ((List.range 126).find? (fun q => bit (s.fld (ECC_REPAIR_STATUS.WORD (q / 32))) (q % 32))).getD 0
    (s.setLevel 0x055 true first).setFray (setBitN s.frayCauses 7)

/-- The block of an entry marked, R477: EVS_DOFF_FAIL, and what its class asks for. -/
def Chip.markBlock (s : Chip) (e : DoffEntry) : Chip :=
  let s := s.raise 0x1DD (e.cls + 2 ^ 8 * e.index + 2 ^ 16 * e.test)
  if e.cls = 0 then s.setFldBit GRD_DOFF_MARK.LINE e.index true
  else if e.cls = 1 then s.setFldBit GRD_DOFF_MARK.HOST e.index true
  else if e.cls = 3 then s.retireBobbin e.index
  else s

/-- The entries of a list that name a block for the first time; class 4 failures are recorded only (R477).
Log 56 (DEDUCED). -/
def firstBlocks (l : List DoffEntry) : List DoffEntry :=
  l.foldl (fun acc e =>
    if decide (4 ≤ e.cls) || acc.any (fun x => x.cls == e.cls && x.index == e.index) then acc else acc ++ [e]) []

/-- A doff record taken at a start: its counts, repairs and marks (R37, R477, R482). Log 56 (DEDUCED). -/
def Chip.applyRecord (s : Chip) (o : Otp) (slot : Nat) (r : DoffRec) : Chip :=
  let s := (s.setFlag GRD_DOFF_STATUS.REC_VALID true).setFld GRD_DOFF_STATUS.REC_SLOT slot
  let s := (s.setFld GRD_DOFF_STATUS.FAILURES (min 255 r.blocks.length)).setFld GRD_DOFF_STATUS.REPAIRS (min 255 r.repairs.length)
  let s := s.forAll r.repairs (fun s e => s.softRepair o e)
  s.forAll (firstBlocks r.blocks) Chip.markBlock

/-- Step 4 of a start: the choice of the record (R37). -/
def Chip.selectRecord (s : Chip) (o : Otp) : Chip :=
  let s := { ((s.resetReg GRD_DOFF_STATUS.addr).resetReg GRD_DOFF_MARK.addr) with ecc := { s.ecc with repaired := [] } }
  let f := s.flash
  match (if f.present then f.newestRec else none) with
  | none => s
  | some slot =>
    match f.record slot with
    | none => s
    | some r =>
      if r.ok then (s.applyRecord o slot r).setFlag GLB_BOOT_STATUS.DOFF_VALID true
      else
        let s := s.raise 0x1DE slot
        match (f.record (1 - slot)).filter DoffRec.ok with
        | none => s
        | some x => s.applyRecord o (1 - slot) x

/-- DOFF_RECORD_SELECT (R37, R347, R374, R383, R477): steps 4 and 5. The doff record is applied, memory valid bits clear, logic is
released, EVT writes the records it kept back, and the boot ROM runs on both spindles. -/
def execDoffRecordSelect (s : State) : Host.Outcome State Fault Refusal :=
  chipNext s (fun c =>
    if c.step = 3 then
      let c := c.forAll step2Domains Chip.clearMemories
      let c := (c.selectRecord s.fuse).setFlag PMU_LADDER.RDY_MEM true
      let c := ((c.setRole 0 .boot).setRole 1 .boot).setFlag PMU_LADDER.RDY_LOG true
      let c := (c.setFld GLB_BOOT_STATUS.STEP 5).evalFray
      if c.evt.halted then c.replay else c
    else c)

/-! ### Step 6 (R37, R479) -/

/-- A record of a finished test written: flash, and EVS_DOFF_DONE (R483). Log 56 (DEDUCED). -/
def Chip.doffDone (s : Chip) (origin : Nat) (entries : List DoffEntry) : Chip :=
  let s := { s with flash := s.flash.endRec entries }
  s.raise 0x1DC (origin + 2 ^ 8 * min 255 (entries.filter (fun e => !e.repair)).length)

/-- START_UP_CHECK (R479): step 6, where no valid record was found. `found` are the entries that the check's own tests give; the line
and host lane entries of the newest complete record are carried over. Log 56 (DEDUCED). -/
def execStartUpCheck (found : List DoffEntry) (s : State) : Host.Outcome State Fault Refusal :=
  chipNext s (fun c =>
    if c.step = 5 ∧ c.flag GLB_BOOT_STATUS.DOFF_VALID = false then
      let own := limitRepairs [] (found.filter checkEntry)
      let old := c.flash.newestComplete.elim [] (fun r => r.blocks.filter (fun e => decide (e.cls ≤ 1)))
      let c := { c with flash := c.flash.beginRec 1 }
      ((c.doffDone 1 (own ++ old)).setFlag GLB_BOOT_STATUS.CHECK_RUN true).setFld GLB_BOOT_STATUS.STEP 6
    else c)

/-! ### Steps 7 and 8 (R38, R39) -/

/-- The consent to a debug image that step 9 will restore: of the shadow kept, else of the flash copy (R40, R473).
Log 54 (DEDUCED). -/
def Chip.bootConsent (s : Chip) : Bool :=
  let lc := s.start.lifecycle
  if lc = 2 ∨ lc = 3 then
    if s.start.kept then s.shadowNow.dbgAllow
    else
      let a := s.flash.cfg[0]
      let b := s.flash.cfg[1]
      (if copySeq b ≤ copySeq a then a else b).elim false (fun x => x.cfg.dbgAllow)
  else true

/-- An image is loaded into both spindle memories (R38). -/
def Chip.loadImage (s : Chip) (i : Image) : Chip := (s.loadSpindle 0 i).loadSpindle 1 i

/-- The image that both spindle memories hold is booted: its source is recorded; steps 7 and 8 are complete.
Log 55 (DEDUCED). -/
def Chip.bootImage (s : Chip) (i : Image) (src slot : Nat) : Chip :=
  let s := ((s.setImgSlot 0 slot).setImgSlot 1 slot).forAll [0, 1] (fun s b => (s.setDebug b i.debug).setFit b true)
  ((s.setFld GLB_BOOT_STATUS.SRC src).setFlag GLB_BOOT_STATUS.WAIT_HOST false).setFld GLB_BOOT_STATUS.STEP 8

/-- A host-pushed image that verified is booted: its table section waits in capture memory (R326). -/
def Chip.bootPushed (s : Chip) (i : Image) : Chip :=
  let s := (s.loadImage i).loadMem .capture 0 i.tables
  let s := s.forAll [0, 1] (fun s b => ((s.setDebug b i.debug).setPushed b (some i.seq)).setFit b true)
  ((s.setFld GLB_BOOT_STATUS.SRC 3).setFlag GLB_BOOT_STATUS.WAIT_HOST false).setFld GLB_BOOT_STATUS.STEP 8

/-- The candidates of R38, highest sequence number first; of two with the same number, image A first.
Log 55 (DEDUCED). -/
def Chip.candidates (s : Chip) (o : Otp) : List (Nat × Image) :=
  let ok := fun (k : Nat) => match s.flash.image k with
    | none => []
    | some i => if i.seqOk && i.headerOk o.unitId s.bootConsent then [(k, i)] else []
  if !s.flash.present then []
  else if s.flash.seqOf 0 < s.flash.seqOf 1 then ok 1 ++ ok 0 else ok 0 ++ ok 1

/-- The procedure select_image of R38 over the candidates: each is loaded while it is hashed, before the verdict on it.
Log 55 (DEDUCED). -/
def Chip.tryImages (s : Chip) : List (Nat × Image) → Chip
  | [] => { s.setFlag GLB_BOOT_STATUS.WAIT_HOST true with evt := { s.evt with driven := true } }.serve
  | (k, i) :: t =>
    let s := s.loadImage i
    if i.sigOk then s.bootImage i (k + 1) k
    else
      ((s.setFlag (if k = 0 then GLB_BOOT_STATUS.IMG_A_BAD else GLB_BOOT_STATUS.IMG_B_BAD) true).raise 0x1D4 0).tryImages t

/-- SELECT_IMAGE (R38): steps 7 and 8. Log 54 (DEDUCED). -/
def execSelectImage (s : State) : Host.Outcome State Fault Refusal :=
  chipNext s (fun c =>
    if (c.step = 6 ∨ (c.step = 5 ∧ c.flag GLB_BOOT_STATUS.DOFF_VALID = true)) ∧ c.flag GLB_BOOT_STATUS.WAIT_HOST = false then
      c.tryImages (c.candidates s.fuse)
    else c)

/-! ### Step 9 (R40, R283, R286, R459, R466, R490) -/

/-- The config shadow loaded from the flash copy with the higher sequence number (R40, R47). Log 57 (DEDUCED). -/
def Chip.loadShadow (s : Chip) : Chip :=
  let a := s.flash.cfg[0]
  let b := s.flash.cfg[1]
  match (if s.flash.present then (if copySeq b ≤ copySeq a then a else b) else none) with
  | none => s
  | some x =>
    let recs := (List.range 9).filter (fun n => x.recs.any (fun c => decide (shadowRecOff n + 0xE00000 ≤ c.1) &&
      decide (c.1 < shadowRecOff n + 0xE00000 + 2048)))
    let s := s.forAll recs (fun s n =>
      s.writeBytes .shadow (shadowRecOff n) ((List.range 2048).map (fun i =>
        tabGet Memory.unlisted x.recs (0xE00000 + shadowRecOff n + i))))
    { s.setFlag GLB_BOOT_STATUS.CFG_SRC true with cfg := some x.cfg }

/-- The Fleyth cap, R466. Log 40 (DEDUCED). -/
def Chip.fleythCap (s : Chip) : Chip :=
  if s.pdOn 21 then
    let hit := (List.range 64).find? (fun i => let e := (s.guardEntry i).1; getBits e 31 1 == 1 && getBits e 24 4 == 2)
    s.setFld FLY_PORT_CFG.PRIV_CAP (hit.elim 1 (fun i => getBits (s.guardEntry i).2.2 0 2))
  else s

/-- What Krelin restores from the config shadow at step 9: FW registers of the domains that are ON, the quads' settings, the guard
table, the session's BASE and the consent of R473. Log 57 (DEDUCED). -/
def Chip.restoreConfig (s : Chip) : Chip :=
  let x := s.shadowNow
  let s := s.restoreFw (fun a => (blkOf a).elim false (fun b => s.pdOn b.pd))
  let s := { s with quads := Vector.ofFn (fun (q : Fin 4) =>
    let t := x.quads[q.1]
    { fixed := t.1 == 1, preset := t.2.1, pattern := t.2.2 : QuadSt }) }
  let s := s.resetRegs (fun a => decide (0x60000 ≤ a) && decide (a < 0x60400))
  let s := s.forAll x.guard (fun s r => s.setReg r.1 r.2)
  s.rebase (fun s => (s.setFlag GRD_LC.DBG_ALLOW x.dbgAllow).setFld GRD_SESSION.BASE x.base)

/-- KRELIN_START (R40, R42, R271, R283, R286, R326): step 9; the FW_IMAGE_END that pushed the image completes with OK.
Log 114 (DEDUCED). -/
def execKrelinStart (s : State) : Host.Outcome State Fault Refusal :=
  .next (
    if s.chip.step = 8 then
      let s := s.onChip (fun c =>
        let c := if c.start.kept then c else c.loadShadow
        let c := if c.cfg.isNone then c.setFlag GLB_BOOT_STATUS.NO_CFG true else c.restoreConfig
        (c.forAll [0, 1] (fun c b => if c.pdOn (1 + b) then c.startImage b else c)).setFlag GLB_BOOT_STATUS.FW_READY true)
      let pushed := s.chip.mbx.exec.filter (fun e => decide (e.wait = .imageBoot))
      let s := s.distCycle { claimA := some (BitVec.ofNat 32 (s.dist.epoch + 1)) }
      s.onChip (fun c =>
        let c := { (c.fleythCap).setFld GLB_BOOT_STATUS.STEP 9 with fwReadySeen := true }
        let c := { c with evt := { c.evt with driven := true } }.evalFray
        if s.dist.holder = 0 then c
        else
          let c := (c.takeOver pushed).setFlag MBX_STATUS.OPEN true
          (c.forAll pushed (fun c e => c.endCmd e (.okR []))).serve)
    else s)

/-- The registers of the urgent list at their reset values (R43). Log 142 (DESIGN CHOICE). -/
def Chip.urgentReset (s : Chip) : Chip :=
  ((s.forAll ([HKA_URG_TRIG.addr] ++ (List.range 4).flatMap (fun e => [HKA_URG_ENTRY.addr e, HKA_URG_RES.addr e])) Chip.resetReg).setHkList
    true {}).setFld HKA_LIST_LEN.URG_LAST 0

/-- Krelin's single conversion of channel 17 through the urgent list, R43: one entry, no averaging, its run from the trigger to the
result and the event of its end (R407, R412). Log 142 (DESIGN CHOICE). -/
def Chip.coreConversion (s : Chip) (code : Nat) : Chip :=
  let s := (s.setReg (HKA_URG_ENTRY.addr 0) 17#32).setFld HKA_LIST_LEN.URG_LAST 0
  ((s.setHkList true { waiting := true, lag := 12 }).hkStart true).hkCode true code

/-- Is the code of a conversion of VDD_CORE within TARGET ± 2 % (R404, R490)? The code is V / 1.25 V × 4096, TARGET is in mV. -/
def coreInRange (target code : Nat) : Bool :=
  decide (98 * target * 4096 ≤ 100 * (code * 1250)) && decide (100 * (code * 1250) ≤ 102 * target * 4096)

/-- CORE_VOLTAGE_CHECK (R43, R404, R490, R503): at step 9 Krelin converts VDD_CORE, which stands at so many µV, and judges it; whether it has
waited 1 s.
When the check is over the urgent list's registers go back to their reset values, before step 10. -/
def execCoreVoltageCheck (microvolts : Nat) (waited : Bool) (s : State) : Host.Outcome State Fault Refusal :=
  chipNext s (fun c =>
    if c.step = 9 ∧ c.flag GLB_BOOT_STATUS.NO_CFG = false ∧ c.start.checked = false then
      let code := hkCodeOf 17 microvolts
      let ok := c.pdOn 20 && coreInRange (c.fld GLB_AVS.TARGET) code
      let c := c.when (c.pdOn 20) (fun c => c.coreConversion code)
      if ok || waited then
        let c := c.when (c.pdOn 20) Chip.urgentReset
        { c.setFlag GLB_AVS.OFF_TARGET (!ok) with start := { c.start with checked := true } }
      else c
    else c)

/-! ### Steps 10 to 13 (R41, R42, R43, R185) -/

/-- A port of the config shadow entered as CONFIGURING, its lanes set up with their records (R41, R185); lanes marked failed stay OFF.
Log 57 (DEDUCED). -/
def Chip.restorePort (s : Chip) (openLegs p : Nat) (x : PortCfg) : Chip :=
  match modeOf x.mode with
  | none => s
  | some m =>
    let lines := bitsSet 8 x.lineMask
    let own := lines.filter (fun n => (s.portsOn n).isEmpty && !(s.laneFailed n))
    let hosts := (2 ^ m.host - 1) <<< x.hostFirst
    let newQuads := (quadsOf hosts).filter (fun q => !(s.quadUsed q))
    let s := s.forAll (newQuads.map (fun q => 3 + q) ++ own.map (fun n => 7 + n)) Chip.bringUp
    let s := s.portMod p (fun _ => { mode := x.mode, st := .configuring, trib := x.trib, hostFirst := x.hostFirst,
                                     hostCount := m.host, lineMask := x.lineMask })
    let s := s.forAll newQuads (fun s q => s.openQuad q m.rate)
    let s := s.forAll ((List.range m.host).map (fun k => x.hostFirst + k)) (fun s h => s.openHost openLegs h)
    s.forAll own (fun s n => (s.openLine n false).1)

/-- PORT_DOMAINS_UP (R41, R42, R43, R185): step 10. The domains of the configured ports, and L8's where it is populated, come up.
Log 57 (DEDUCED). -/
def execPortDomainsUp (openLegs : BitVec 16) (s : State) : Host.Outcome State Fault Refusal :=
  chipNext s (fun c =>
    if c.step = 9 ∧ c.start.checked = true then
      let x := c.shadowNow
      let c := (List.finRange 16).foldl (fun (c : Chip) p =>
        match x.ports[p.1] with
        | none => c
        | some y => c.restorePort openLegs.toNat p.1 y) c
      let c := if c.plyFitted then c.plyPopulate else c
      (c.setFld GLB_BOOT_STATUS.STEP 10).settle
    else c)

/-- TRAFFIC_READY (R42): step 13. The ports of the start are enabled as they were, READY is set. Log 58 (DEDUCED). -/
def execTrafficReady (s : State) : Host.Outcome State Fault Refusal :=
  chipNext s (fun c =>
    if 10 ≤ c.step ∧ c.step ≤ 12 then
      let x := c.shadowNow
      let c := (List.finRange 16).foldl (fun (c : Chip) p =>
        match x.ports[p.1] with
        | none => c
        | some y =>
          if (c.port p.1).st = .configuring then
            c.portMod p.1 (fun q => { q with wantUp := y.enabled, st := if y.enabled then .up else .ready })
          else c) c
      let c := (c.setFld GLB_BOOT_STATUS.STEP 13).setFlag GLB_BOOT_STATUS.READY true
      (c.settle).raise 0x1D5 0
    else c)

/-! ### Supplies (R46) -/

/-- Is lane `n` claimed by TEST_LANE (kind 0 host, 1 line)? -/
def Chip.claimedLane (s : Chip) (k n : Nat) : Bool := if k = 0 then (s.hostOf n).claimed else (s.rxOf n).claimed

/-- Lane `n` claimed by TEST_LANE, or not. -/
def Chip.setClaim (s : Chip) (k n : Nat) (b : Bool) : Chip :=
  if k = 0 then s.hostMod n (fun x => { x with claimed := b }) else s.rxMod n (fun x => { x with claimed := b })

/-- The part after `f`, with every claim of TEST_LANE as it was (R328: a claim holds the lane until it is released).
Log 103 (DEDUCED). -/
def Chip.withClaims (s : Chip) (f : Chip → Chip) : Chip :=
  let t := (f s).forAll (List.range 16) (fun t h => if s.claimedLane 0 h then t.setClaim 0 h true else t)
  t.forAll (List.range 9) (fun t n => if s.claimedLane 1 n then t.setClaim 1 n true else t)

/-- The domain of a lane. -/
def laneDomain (k n : Nat) : Nat := if k = 0 then 3 + n / 4 else 7 + n

/-- The claims of TEST_LANE that waited for a supply and whose domain is ON now complete (R328). -/
def Chip.finishClaims (s : Chip) : Chip :=
  s.forAll s.mbx.exec (fun s e => match e.wait with
    | .testLane k n => if s.pdOn (laneDomain k n) then s.endCmd e (.okR []) else s
    | _ => s)

/-- The host and line domains that are not OFF. -/
def Chip.analogDomains (s : Chip) : List Nat := ((List.range 13).map (fun k => 3 + k)).filter (fun d => decide (s.pdOf d ≠ .off))

/-- ANALOG_SUPPLY_LOSS (R46): VDDA_HS (`hs`) or VDDA_HV (`hv`) has been low for 1 µs. Every host and line domain depends on both, so
all are isolated and turned off. Log 52 (DEDUCED). -/
def execAnalogSupplyLoss (hs hv : Bool) (s : State) : Host.Outcome State Fault Refusal :=
  chipNext s (fun c =>
    let c := if hs then c.setFlag GLB_SUPPLY_STATUS.HS_OK false else c
    let c := if hv then c.setFlag GLB_SUPPLY_STATUS.HV_OK false else c
    let c := c.supplyLevel
    if c.analogOk then c
    else
      let off := c.analogDomains
      let c := { c with start := { c.start with isolated := c.start.isolated ||| maskOf 22 off.contains } }
      (c.withClaims (fun c => c.forAll off.reverse Chip.goOff)).settle)

/-- A host or line domain powered up again after its supply's return (R46, R186): the lanes of ports are set up anew. -/
def Chip.restoreAnalog (s : Chip) (openLegs d : Nat) : Chip :=
  if s.pdOn d then s
  else
    let s := s.powerUp d
    if d ≤ 6 then
      let q := d - 3
      match (quadLanes q).filterMap (fun h => (s.portOfHost h).bind (fun p => (modeOf (s.port p).mode).map (fun m => m.rate))) with
      | [] => s
      | r :: _ =>
        let s := s.openQuad q r
        s.forAll ((quadLanes q).filter (fun h => (s.portOfHost h).isSome)) (fun s h => s.openHost openLegs h)
    else s

/-- ANALOG_SUPPLY_RESTORED (R46, R186): the supply is good again; `openLegs` is the result of the check of R102. -/
def execAnalogSupplyRestored (hs hv : Bool) (openLegs : BitVec 16) (s : State) : Host.Outcome State Fault Refusal :=
  chipNext s (fun c =>
    let c := if hs then c.setFlag GLB_SUPPLY_STATUS.HS_OK true else c
    let c := if hv then c.setFlag GLB_SUPPLY_STATUS.HV_OK true else c
    let c := c.supplyLevel
    if c.analogOk then
      let used := maskOf 22 (fun d =>
        if 3 ≤ d ∧ d ≤ 6 then c.quadUsed (d - 3) || (quadLanes (d - 3)).any (c.claimedLane 0)
        else if 7 ≤ d ∧ d ≤ 15 then c.claimedLane 1 (d - 7) || c.laneUsed (d - 7) && !(c.laneFailed (d - 7))
        else false)
      let ds := domainsOf (c.start.isolated ||| (if 10 ≤ c.step ∨ c.step = 9 then used else 0))
      let c := { c with start := { c.start with isolated := 0 } }
      (c.withClaims (fun c => c.forAll ds (fun c d => c.restoreAnalog openLegs.toNat d))).settle.finishClaims
    else c)

/-- VDDIO_LOSS (R46): the management interfaces are isolated and lose their state. Log 60 (DEDUCED). -/
def execVddioLoss (s : State) : Host.Outcome State Fault Refusal :=
  chipNext s (fun c => Chip.supplyLevel { c.setFlag GLB_SUPPLY_STATUS.IO_OK false with i3c := {} })

/-- VDDIO_RESTORED (R46, R52): VDDIO is good again, at 3.3 V or 1.8 V. -/
def execVddioRestored (v33 : Bool) (s : State) : Host.Outcome State Fault Refusal :=
  chipNext s (fun c => ((c.setFlag GLB_SUPPLY_STATUS.IO_OK true).setFlag GLB_SUPPLY_STATUS.IO_3V3 v33).supplyLevel)

end Sys2Proof.Machine
end

