-- ==== Sys2Proof/Machine/Security.lean ====
section
/-! DEFINITION. The host session, the guard table and the lifecycle (spec/12 R324, R325; spec/20 R458 to R470). -/

namespace Sys2Proof.Machine

/-! ### The host session (R324, R459, R461, R462) -/

/-- SEC_CHALLENGE: a new nonce replaces any earlier one; BUSY during a lockout. Log 26 (DESIGN CHOICE), 112 (DEDUCED). -/
def Chip.secChallenge (s : Chip) : Chip × Verdict :=
  if s.flag GRD_SESSION.LOCKOUT then (s, .done (.fail .busy))
  else
    let d := s.draw
    let n := leBytes 16 (Config.nonce d.1).toNat
    ({ d.2.setFlag GRD_SESSION.NONCE_VALID true with sess := { nonce := some n } }, .done (.okR n))

/-- SEC_CHALLENGE (R324, R461). -/
def execSecChallenge (src : CmdSrc) (s : State) : Host.Outcome State Fault Refusal :=
  chipNext s (fun c => c.krelin src 0x0B01 (fun c _ => c.secChallenge))

/-- The nonce of the session is held no more. -/
def Chip.dropNonce (s : Chip) : Chip := { s.setFlag GRD_SESSION.NONCE_VALID false with sess := {} }

/-- The value that SEC_AUTH must bring, R461: the HMAC over the nonce, the unit identity and the lifecycle code. -/
def Chip.authValue (s : Chip) (o : Otp) (key nonce : List Byte) : List Byte :=
  hmacSha256 key (nonce ++ leBytes 6 (o.unitId % 2 ^ 44) ++ leBytes 1 (s.fld GRD_LC.STATE))

/-- Does the value of a SEC_AUTH agree (R461, R462)? -/
def Chip.authGood (s : Chip) (o : Otp) (v : List Byte) : Bool :=
  match s.sess.nonce, o.ownerKey with
  | some n, some k => s.flag GRD_LC.KEY_OK && s.authValue o k n == v
  | _, _ => false

/-- A failed SEC_AUTH is counted; from the fourth on each starts a fresh lockout (R461). -/
def Chip.authFail (s : Chip) : Chip :=
  let s := s.satInc GRD_SESSION.FAIL_CNT 1
  let n := s.fld GRD_SESSION.FAIL_CNT
  (if 4 ≤ n then s.setFlag GRD_SESSION.LOCKOUT true else s).raise 0x1D9 n

/-- SEC_AUTH: the nonce is consumed; the session rises to OWNER, or the failure is counted. Log 112 (DEDUCED). -/
def Chip.secAuth (s : Chip) (o : Otp) (v : List Byte) : Chip × Verdict :=
  if s.authGood o v then
    let s := (s.dropNonce).setFld GRD_SESSION.FAIL_CNT 0
    let s := s.setSession (max 2 s.sessionLevel)
    (s, .done (.okR (leBytes 1 s.sessionLevel)))
  else
    let s := (s.dropNonce).authFail
    (s, .done { status := .denied, result := leBytes 1 s.sessionLevel })

/-- SEC_AUTH (R324, R461, R462). -/
def execSecAuth (src : CmdSrc) (s : State) : Host.Outcome State Fault Refusal :=
  chipNext s (fun c => c.krelin src 0x0B02 (fun c r => c.secAuth s.fuse r.payload))

/-- SEC_LOGOUT (R324, R459): the session returns to its base level. Log 112 (DEDUCED). -/
def execSecLogout (src : CmdSrc) (s : State) : Host.Outcome State Fault Refusal :=
  chipNext s (fun c => c.krelin src 0x0B03 (fun c _ =>
    let c := c.setSession c.baseLevel
    (c, .done (.okR (leBytes 1 c.sessionLevel)))))

/-- LOCKOUT_END (R461): 10 s have passed since the failure that started the lockout. -/
def execLockoutEnd (s : State) : Host.Outcome State Fault Refusal :=
  chipNext s (fun c => c.setFlag GRD_SESSION.LOCKOUT false)

/-- NONCE_EXPIRY (R324): 10 s have passed since the nonce was issued. -/
def execNonceExpiry (s : State) : Host.Outcome State Fault Refusal := chipNext s Chip.dropNonce

/-! ### The guard table (R325, R463, R466, R467) -/

/-- Does an entry obey the layout of R463? -/
def guardFormed (w0 w1 w2 : Nat) : Bool :=
  let kind := bitsOf w0 24 4
  let first := bitsOf w0 0 24
  let last := bitsOf w1 0 24
  bitsOf w0 28 3 == 0 && decide (kind ≤ 2) && bitsOf w1 24 8 == 0 && bitsOf w2 8 24 == 0 && decide (first ≤ last) &&
    (if kind = 0 then first % 4 == 0 && last % 4 == 0
     else if kind = 1 then decide (first < 65536) && decide (last < 65536) && bitsOf w2 4 4 == 0
     else bitsOf w2 2 6 == 0)

/-- What follows a change of entry `i` by a writer of level `l`: the event to all consumers, the Fleyth cap, the config shadow
(R466, R467, R483). Log 40 (DEDUCED). -/
def Chip.guardChanged (s : Chip) (i l : Nat) : Chip :=
  let s := { s with cfg := some { s.shadowNow with guard := s.regs.filter (fun r => decide (0x60000 ≤ r.1) && decide (r.1 < 0x60400)) } }
  (s.fleythCap).raise 0x1D8 (i + 2 ^ 8 * getBits (s.guardEntry i).1 31 1 + 2 ^ 10 * l)

/-- An entry written whole. -/
def Chip.putGuard (s : Chip) (i w0 w1 w2 : Nat) : Chip :=
  ((s.setReg (GRD_ENTRY0.addr i) (BitVec.ofNat 32 w0)).setReg (GRD_ENTRY1.addr i) (BitVec.ofNat 32 w1)).setReg
    (GRD_ENTRY2.addr i) (BitVec.ofNat 32 w2)

/-- GUARD_SET: all three words in one cycle. -/
def Chip.guardSet (s : Chip) (r : Req) : Chip × Verdict :=
  let i := byteAt r.payload 0
  let w := arg32 r.payload
  if 63 < i ∨ guardFormed (w 4) (w 8) (w 12) = false then (s, .done (.fail .badArg))
  else ((s.putGuard i (w 4) (w 8) (w 12)).guardChanged i r.level, .done (.okR []))

/-- GUARD_SET (R325, R463, R466, R467). -/
def execGuardSet (src : CmdSrc) (s : State) : Host.Outcome State Fault Refusal :=
  chipNext s (fun c => c.krelin src 0x0B04 Chip.guardSet)

/-- GUARD_GET (R463). -/
def execGuardGet (src : CmdSrc) (s : State) : Host.Outcome State Fault Refusal :=
  chipNext s (fun c => c.krelin src 0x0B05 (fun c r =>
    let i := byteAt r.payload 0
    let e := c.guardEntry i
    (c, .done (if 63 < i then .fail .badArg else .okR (wordBytes [e.1, e.2.1, e.2.2])))))

/-! ### Lifecycle (R47, R324, R468 to R470) -/

/-- Is the energy check of R47 passed: every supply monitor is good, and has been for 10 ms as the operand tells?
Log 113 (DEDUCED). -/
def Chip.energyOk (s : Chip) (lasting : Bool) : Bool := lasting && getBits (s.reg GLB_SUPPLY_STATUS.addr) 0 5 == 31

/-- The precondition of the transition to `target`, R469. Log 113 (DEDUCED). -/
def State.advanceReady (s : State) (target : Nat) : Bool :=
  let h := s.dist.holder - 1
  match target with
  | 1 => s.fuse.unitId != 0
  | 2 => s.chip.flag GRD_LC.KEY_OK
  | 3 => decide (s.dist.holder ≠ 0) && !(s.chip.runsDebug h) && decide ((s.chip.spn.pushed.toList[h]?).getD none = none)
  | _ => true

/-- What a LIFECYCLE_ADVANCE to `target` answers, if it programs nothing (R306, R324, R469). -/
def State.advanceStatus (s : State) (r : Req) (lasting : Bool) : Option Status :=
  let target := byteAt r.payload 0
  if target ≠ s.fuse.lifecycle + 1 ∨ 4 < target ∨ arg32 r.payload 4 ≠ 0x4C435943 then some .badArg
  else if target ≤ 2 ∧ r.level < 3 then some .denied
  else if s.advanceReady target = false then some .badState
  else if s.chip.energyOk lasting = false then some .busy
  else none

/-- The part in lifecycle state `target`, with EVS_LIFECYCLE; RETURNED also kills the key (R469, R470). -/
def State.advance (s : State) (target : Nat) : State :=
  let o := { s.fuse with lifecycle := target, keyKilled := s.fuse.keyKilled || target == 4 }
  let c := (s.chip.setFld GRD_LC.STATE target).raise 0x1DB target
  { s with fuse := o, chip := if target = 4 then c.setFlag GRD_LC.KEY_OK false else c }

/-- LIFECYCLE_ADVANCE (R324, R469, R470): operand: whether the supply monitors have been good for 10 ms. Entry to RETURNED posts and
signals the completion at once, and no further command is taken. -/
def execLifecycleAdvance (src : CmdSrc) (lasting : Bool) (s : State) : Host.Outcome State Fault Refusal :=
  .next (match s.chip.accept src 0x0B06 with
    | (c, none) => { s with chip := c }
    | (c, some r) =>
      let s := { s with chip := c }
      match s.advanceStatus r lasting with
      | some st => s.onChip (fun c => c.conclude r (.done (.fail st)))
      | none =>
        let target := byteAt r.payload 0
        let s := s.advance target
        if target = 4 then
          s.onChip (fun c => (Chip.finishReq { c with start := { c.start with returning := true } } r (.okR (leBytes 1 4))).signalCpl)
        else s.onChip (fun c => c.conclude r (.done (.okR (leBytes 1 target)))))

/-- The config shadow and both of its flash copies erased, and every guard entry invalid (R470). -/
def Chip.eraseConfig (s : Chip) : Chip :=
  let s := { (s.clearMemory .shadow) with cfg := none, flash := { s.flash with cfg := Vector.replicate 2 none } }
  s.resetRegs (fun a => decide (0x60000 ≤ a) && decide (a < 0x60400))

/-- RETURNED_RESET (R470): what Krelin does after the completion of the last transition, up to the software chip reset.
Log 113 (DEDUCED). -/
def execReturnedReset (s : State) : Host.Outcome State Fault Refusal :=
  .next (if s.chip.start.returning then (s.onChip Chip.eraseConfig).chipReset .soft none else s)

/-- OWNER_KEY_SET (R324, R462, R468): KEY_OK follows at the next start. -/
def execOwnerKeySet (src : CmdSrc) (lasting : Bool) (s : State) : Host.Outcome State Fault Refusal :=
  .next (match s.chip.accept src 0x0B07 with
    | (c, none) => { s with chip := c }
    | (c, some r) =>
      let s := { s with chip := c }
      if s.fuse.lifecycle ≠ 1 ∨ s.fuse.ownerKey.isSome = true then
        s.onChip (fun c => c.conclude r (.done (.fail .badState)))
      else if s.chip.energyOk lasting = false then s.onChip (fun c => c.conclude r (.done (.fail .busy)))
      else
        State.onChip { s with fuse := { s.fuse with ownerKey := some r.payload, digestOk := true } }
          (fun c => c.conclude r (.done (.okR []))))

end Sys2Proof.Machine
end

