-- ==== Sys2Proof/Machine/Doff.lean ====
section
/-! DEFINITION. The doff test and the lane test (spec/12 R327, R328; spec/20 R474 to R480). -/

namespace Sys2Proof.Machine

/-! ### Which tests may run (R327, R474) -/

/-- Does a line lane carry a port: L0 to L7 as logical lanes, L8 while it carries one in either direction or waits to? -/
def Chip.lineCarries (s : Chip) (n : Nat) : Bool :=
  if n = 8 then s.plyRx == plySubst || s.plyRx == plySubstWait || s.fld TWF_PLY_STATUS.TX_STATE == plyTxSubst
  else !((s.portsOn n).isEmpty)

/-- May a disturbing test run on line lane `n`: it carries no port, is claimed, or is marked failed?
Log 104 (DEDUCED). -/
def Chip.lineTestable (s : Chip) (n : Nat) : Bool := !(s.lineCarries n) || s.claimedLane 1 n || s.laneFailed n

/-- Is SRAM `q` one of those tested transparently, each row restored: 40 to 43 and the memory of the holder `h` (R474)? -/
def transparentSram (h q : Nat) : Bool :=
  (decide (40 ≤ q) && decide (q ≤ 43)) || (decide (q < 8) && q / 4 + 1 == h)

/-- Does a capture into capture memory run (R137, R316)? -/
def Chip.capturing (s : Chip) : Bool :=
  (List.range 9).any (fun n => (s.rxOf n).capture.isSome) ||
    s.mbx.exec.any (fun e => match e.wait with | .capture _ => true | _ => false)

/-- Is bobbin `b` in service: neither the spare nor retired? -/
def Chip.bobbinServes (s : Chip) (b : Nat) : Bool :=
  s.fld CRL_STATUS.SPARE != b && !(bit (s.fld CRL_BOBBIN_FAIL.RETIRED) b)

/-- May the test run without disturbing traffic (R327, R474)? `h` is the distaff's holder. Log 104 (DEDUCED). -/
def Chip.testMayRun (s : Chip) (h cls i : Nat) : Bool :=
  match cls with
  | 0 => s.lineTestable i
  | 1 => !(s.hostUsed i) || s.claimedLane 0 i
  | 2 =>
    if i < 8 ∨ transparentSram h i = true then true
    else if 44 ≤ i ∧ i ≤ 61 then s.lineTestable ((i - 44) / 2)
    else if 62 ≤ i ∧ i ≤ 77 then s.dmaBusyMask == 0 && !s.capturing
    else !s.anyPort
  | 3 => !(s.bobbinServes i) || !s.anyPort
  | _ => if i = 0 then true else if i = 1 then !s.anyPort else !(s.quadUsed (i - 2))

/-! ### What a test leaves of its target (R475) -/

/-- Line lane `n` reset, its claim kept, its FW registers restored; in use it is set up anew (R186), marked failed it stays in
HOLD (R266). -/
def Chip.doffLine (s : Chip) (n : Nat) (light : Bool) : Chip :=
  if !(s.pdOn (7 + n)) then s
  else
    let held := s.rxState n == rxHold
    let cause := s.fld (LRX_STATUS.HOLD_CAUSE n)
    let s := s.withClaims (fun s => (s.afterLeave (7 + n)).resetLogic (7 + n))
    let s := s.restoreFw (inDomain (7 + n))
    if !light then s
    else if !(s.laneFailed n) then s.relight n
    else if held then (s.rxMod n (fun x => { x with cause := cause })).putHold n
    else s

/-- Host lane `h` reset, its claim and its place in the quad kept, its FW registers restored. -/
def Chip.doffHost (s : Chip) (h : Nat) : Chip :=
  let inLane := fun a => decide (blkOf a = some (.hln h))
  let s := (s.resetRegs inLane).setLevel h false 0
  let s := { s with frz := s.frz.filter (fun p => !(inLane p.1)) }
  let s := s.hostMod h (fun x => { claimed := x.claimed, down := x.down })
  (s.setFld (HLN_STATUS.RATE h) (s.fld (quadRate (quadOf h)))).restoreFw inLane

/-- The granules of an SRAM no longer valid: their contents are lost. -/
def Chip.wipeSram (s : Chip) (q : Nat) : Chip :=
  match memOfSram q s.ttSwapped with
  | none => s
  | some (.tension n sh) => s.clearMemory (.tension n sh)
  | some m =>
    let mine := fun (k : Nat) => decide (k / 2097152 = m.no) && s.sram m (k % 2097152) == q
    let last := s.valid.filter (fun p => mine p.1)
    { s with
      valid := s.valid.filter (fun p => !(mine p.1))
      flips := s.flips.filter (fun p => !(mine p.1))
      mem := last.foldl (fun t p => (List.range 8).foldl (fun t b =>
        tabErase t (m.base + 8 * (p.1 % 2097152) + b)) t) s.mem }

/-- The hank slots in SRAM `q` have lost their hanks; a passing test frees those marked bad too (R181, R477). -/
def Chip.wipeHanks (s : Chip) (q : Nat) (passed : Bool) : Chip :=
  let mine := fun (i : Nat) => decide (64 * (q - 8) ≤ i) && decide (i < 64 * (q - 8) + 64)
  let s := s.forAll (List.range 9) (fun s n =>
    let s := if (s.lastGood n).elim false mine then s.dropLastGood n else s
    if (s.activeHank n).elim false mine then s.dropActive n else s)
  s.forAll ((s.hnk.slots.filter (fun p => mine p.1 && (passed || decide (p.2.st ≠ .bad)))).map (fun p => p.1)) Chip.freeHank

/-- What a test of SRAM `q` leaves: nothing changed where it is transparent; else the contents are lost, and the spindle whose
memory it was is reset. Log 104 (DEDUCED). -/
def State.doffSram (s : State) (q : Nat) (passed : Bool) : State :=
  if transparentSram s.dist.holder q || !((memOfSram q s.chip.ttSwapped).elim false (fun m => s.chip.pdOn m.pd)) then s
  else
    let t := s.onChip (fun c => (if 8 ≤ q ∧ q ≤ 39 then c.wipeHanks q passed else c).wipeSram q)
    if q < 8 then t.rebootBy (q / 4) (fun c => c.reloadSpindle s.fuse (q / 4)) else t

/-- What a test leaves of its target: it is isolated, tested and reset (R475); `light` tells whether a line lane is set up again.
Log 104 (DEDUCED). -/
def State.doffTarget (s : State) (cls i : Nat) (passed light : Bool) : State :=
  match cls with
  | 0 => s.onChip (fun c => c.doffLine i light)
  | 1 => s.onChip (fun c => c.doffHost i)
  | 2 => s.doffSram i passed
  | 3 => if passed then s else s.onChip (fun c => c.retireBobbin i)
  | _ => s

/-! ### DOFF_RUN, DOFF_RECORD -/

/-- The marks of line lane `n` cleared by a passing loopback test (R266, R327). -/
def Chip.clearMark (s : Chip) (n : Nat) : Chip :=
  let s := s.setFldBit GRD_DOFF_MARK.LINE n false
  if n = 8 then { s with ply := { s.ply with l8Failed := false } }
  else Chip.setFldBit { s with pmu := { s.pmu with failed := clrBitN s.pmu.failed n } } TWF_LANE_FAILED.FAILED n false

/-- The RESULT of DOFF_RUN: outcome, failing address and bit; the last two are open where the test passed.
Log 27 (DESIGN CHOICE). -/
def Chip.doffReply (s : Chip) (r : Option (BitVec 32 × BitVec 8)) : Chip × Reply :=
  match r with
  | some (a, b) => (s, .okR ([1#8, 0#8, 0#8, 0#8] ++ leBytes 4 a.toNat ++ [b]))
  | none =>
    let d := s.draw
    let x := Config.passAddress d.1
    (d.2, .okR ([0#8, 0#8, 0#8, 0#8] ++ leBytes 4 x.1 ++ leBytes 1 x.2))

/-- What DOFF_RUN answers if it runs no test (R306, R327, R480). -/
def State.doffStatus (s : State) (cls i test : Nat) : Option Status :=
  let lc := s.chip.fld GRD_LC.STATE
  if doffKnown cls i test = false then some .badArg
  else if (lc = 2 ∨ lc = 3) ∧ onShutdownList test = false then some .denied
  else if s.chip.testMayRun s.dist.holder cls i = false then some .refusedTraffic
  else if s.chip.flag GRD_DOFF_STATUS.RUNNING then some .busy
  else none

/-- DOFF_RUN (R21, R327, R474, R475, R480); operand: none where the test passes, else the failing address and bit.
Log 104 (DEDUCED). -/
def execDoffRun (src : CmdSrc) (result : Option (BitVec 32 × BitVec 8)) (s : State) : Host.Outcome State Fault Refusal :=
  .next (match s.chip.accept src 0x0D01 with
    | (c, none) => { s with chip := c }
    | (c, some r) =>
      let s := { s with chip := c }
      let cls := byteAt r.payload 0
      let i := byteAt r.payload 1
      let test := byteAt r.payload 2
      match s.doffStatus cls i test with
      | some st => s.onChip (fun c => c.conclude r (.done (.fail st)))
      | none =>
        let s := if cls = 0 ∧ test ≤ 1 ∧ result.isNone = true then s.onChip (fun c => c.clearMark i) else s
        let s := s.doffTarget cls i result.isNone true
        s.onChip (fun c =>
          let y := c.settle.doffReply result
          y.1.conclude r (.done y.2)))

/-- DOFF_RECORD: the sector as it stands into capture memory (R478). -/
def Chip.doffRecord (s : Chip) (slot a : Nat) : Chip × Verdict :=
  if 1 < slot ∨ capOk a 4096 = false then (s, .done (.fail .badArg))
  else if s.flash.present = false ∨ s.pdOn 19 = false then (s, .done (.fail .badState))
  else
    let x := s.flash.record slot
    (s.writeBytes .capture a (sectorBytes x),
     .done (.okR (leBytes 1 (b2n (x.elim false DoffRec.ok) + 2 * b2n (x.elim false (fun y => y.crcOk))))))

/-- DOFF_RECORD (R310, R311, R478). -/
def execDoffRecord (src : CmdSrc) (s : State) : Host.Outcome State Fault Refusal :=
  chipNext s (fun c => c.krelin src 0x0D02 (fun c r => c.doffRecord (byteAt r.payload 0) (arg32 r.payload 4)))

/-! ### The shutdown list (R476) -/

/-- The targets of the shutdown list, in its order: host lanes, line lanes, bobbins, SRAMs, those of the memory of the holder `h` last
(R476). Log 105 (DEDUCED). -/
def shutdownTargets (h : Nat) : List (Nat × Nat) :=
  let mine := fun (q : Nat) => decide (q < 8) && q / 4 + 1 == h
  (List.range 16).map (fun i => (1, i)) ++ (List.range 9).map (fun i => (0, i)) ++ (List.range 25).map (fun i => (3, i)) ++
    ((List.range 126).filter (fun q => !(mine q))).map (fun q => (2, q)) ++ ((List.range 126).filter mine).map (fun q => (2, q))

/-- SHUTDOWN_LIST (R475, R476, R478, R480): the list has run in the entry to module low power; `found` are the entries that its
tests give. The record is completed. Log 105 (DEDUCED). -/
def execShutdownList (found : List DoffEntry) (s : State) : Host.Outcome State Fault Refusal :=
  .next (if s.chip.pmu.entering = true ∧ s.chip.flag GRD_DOFF_STATUS.RUNNING = true then
      let es := limitRepairs [] (found.filter shutdownEntry)
      let bad := fun (c i : Nat) => es.any (fun e => !e.repair && e.cls == c && e.index == i)
      let t := (shutdownTargets s.dist.holder).foldl (fun (t : State) p => t.doffTarget p.1 p.2 (!(bad p.1 p.2)) false) s
      t.onChip (fun c => ((c.doffDone 0 es).setFlag GRD_DOFF_STATUS.RUNNING false).settle)
    else s)

/-! ### TEST_LANE (R18, R328) -/

/-- A claim's check. Log 103 (DEDUCED). -/
def Chip.claimStatus (s : Chip) (k n : Nat) : Option Status :=
  if k = 0 then (if s.hostUsed n then some .refusedTraffic else none)
  else if s.lineCarries n then some .refusedTraffic
  else if n = 8 ∧ (s.plyRx ≠ plyIdle ∨ s.fld TWF_PLY_STATUS.TX_STATE ≠ 1) then some .badState
  else none

/-- A lane claimed: its domain comes to ON. Log 103 (DEDUCED). -/
def Chip.claimLane (s : Chip) (k n : Nat) : Chip × Verdict :=
  let d := laneDomain k n
  let s := (s.withClaims (fun s => s.bringUp d)).setClaim k n true
  let s := if k = 0 then s.hostMod n (fun x => { x with down := false }) else s
  (s.settle, if s.pdOn d then .done (.okR []) else .runs (.testLane k n))

/-- A lane released: its generator stops, and its domain goes to OFF where nothing else uses it. Log 103 (DEDUCED). -/
def Chip.releaseLane (s : Chip) (k n : Nat) : Chip :=
  let s := s.setClaim k n false
  if k = 0 then ((s.setFlag (HLN_PAT_GEN.EN n) false).closeQuad (n / 4)).settle
  else
    let s := s.setFlag (LTX_PAT_GEN.EN n) false
    (if n = 8 then s else s.closeLine n).settle

/-- TEST_LANE: claim or release. -/
def Chip.testLane (s : Chip) (k n act : Nat) : Chip × Verdict :=
  if 1 < k ∨ 1 < act ∨ (if k = 0 then 15 else 8) < n then (s, .done (.fail .badArg))
  else if act = 0 then
    if s.claimedLane k n then (s.releaseLane k n, .done (.okR [])) else (s, .done (.fail .badState))
  else
    match s.claimStatus k n with
    | some st => (s, .done (.fail st))
    | none => if s.claimedLane k n then (s, .done (.okR [])) else s.claimLane k n

/-- TEST_LANE (R328). -/
def execTestLane (src : CmdSrc) (s : State) : Host.Outcome State Fault Refusal :=
  chipNext s (fun c => c.krelin src 0x0D03 (fun c r =>
    c.testLane (byteAt r.payload 0) (byteAt r.payload 1) (byteAt r.payload 2)))

end Sys2Proof.Machine
end

