-- ==== Sys2Proof/Machine/Patterns.lean ====
section
/-! DEFINITION. Pattern generators and checkers (spec/04 R80, R109, R110; spec/05 R136; spec/19 R453 to R455; spec/01 R18). -/

namespace Sys2Proof.Machine

/-! ### The sequences (R80, R454) -/

/-- The bit of a generator that follows its last 31 bits (bit i: the one i + 1 back): x^13 + x^12 + x^2 + x + 1 for code 0,
x^31 + x^28 + 1 for code 1 (R80). Log 128 (PRESUMED). -/
def prbsBit (code r : Nat) : Bool :=
  if code = 0 then (bit r 0 != bit r 1) != (bit r 11 != bit r 12) else bit r 27 != bit r 30

/-- A generator's register one bit later. Log 128 (PRESUMED). -/
def prbsNext (code r : Nat) : Nat := (2 * r + b2n (prbsBit code r)) % 2 ^ (if code = 0 then 13 else 31)

/-- The register after `n` bits. -/
def prbsAfter (code : Nat) : Nat → Nat → Nat
  | 0, r => r
  | n + 1, r => prbsAfter code n (prbsNext code r)

/-- The next `n` bits of a generator. -/
def prbsBits (code : Nat) : Nat → Nat → List Bool
  | 0, _ => []
  | n + 1, r => prbsBit code r :: prbsBits code n (prbsNext code r)

/-! ### Their registers -/

/-- The addresses of a lane's pattern registers: generator, checker, checker status, errors, bits low and high. -/
def genAddr : AnyLane → Nat
  | .host h => HLN_PAT_GEN.addr h.1
  | .line n => LTX_PAT_GEN.addr n.1

def chkAddr : AnyLane → Nat
  | .host h => HLN_PAT_CHK.addr h.1
  | .line n => LRX_PAT_CHK.addr n.1

def chkStatusAddr (l : AnyLane) : Nat := chkAddr l + 4
def patErrAddr (l : AnyLane) : Nat := chkAddr l + 8
def bitsLoAddr (l : AnyLane) : Nat := chkAddr l + 0xC
def bitsHiAddr (l : AnyLane) : Nat := chkAddr l + 0x10

/-- The live upper bits of the bit count, which no register shows until the count is read. Log 45 (DEDUCED). -/
def bitsTopAddr (l : AnyLane) : Nat := chkAddr l + 0x14

/-- The kind (0 host lane, 1 line lane) and the number of a lane. -/
def laneKind : AnyLane → Nat × Nat
  | .host h => (0, h.1)
  | .line n => (1, n.1)

/-- Is the lane's domain ON? -/
def Chip.laneOn (s : Chip) (l : AnyLane) : Bool := s.pdOn (laneDomain (laneKind l).1 (laneKind l).2)

/-! ### Enables (R18, R109, R454) -/

/-- Is a pattern code available on the lane: 0 to 2, without 2 at 25 Gb/s? -/
def Chip.codeOk (s : Chip) (l : AnyLane) (code : Nat) : Bool :=
  match l with
  | .host h => decide (code < (if s.fld (HLN_STATUS.RATE h.1) = 1 then 2 else 3))
  | .line _ => decide (code < 3)

/-- May the lane's generator be enabled: the lane carries no port and does not train; L8 is claimed by TEST_LANE?
Log 47 (DEDUCED). -/
def Chip.genFree (s : Chip) (l : AnyLane) : Bool :=
  match l with
  | .host h => !(s.hostUsed h.1) && !(s.hostTrains h.1)
  | .line n => if n.1 = 8 then s.claimedLane 1 8 else (s.portsOn n.1).isEmpty

/-- The generator of a lane, and the generator changed. -/
def Chip.genOf (s : Chip) : AnyLane → PatGen
  | .host h => (s.hostOf h.1).gen
  | .line n => (s.txOf n.1).gen

def Chip.genMod (s : Chip) (f : PatGen → PatGen) : AnyLane → Chip
  | .host h => s.hostMod h.1 (fun x => { x with gen := f x.gen })
  | .line n => s.txMod n.1 (fun x => { x with gen := f x.gen })

/-- The checker of a lane, and the checker changed. -/
def Chip.chkOf (s : Chip) : AnyLane → PatChk
  | .host h => (s.hostOf h.1).chk
  | .line n => (s.rxOf n.1).chk

def Chip.chkMod (s : Chip) (f : PatChk → PatChk) : AnyLane → Chip
  | .host h => s.hostMod h.1 (fun x => { x with chk := f x.chk })
  | .line n => s.rxMod n.1 (fun x => { x with chk := f x.chk })

/-- A generator as EN rises: all ones for the two PRBS sequences, the start of SSPRQ (R454). -/
def genLoad (code : Nat) : Nat := if code = 0 then 2 ^ 13 - 1 else if code = 1 then 2 ^ 31 - 1 else 0

/-- A write to a lane's generator register. One that would enable the generator where it may not run, or with a code that is not
available, is ignored, and EN reads 0. The generator is loaded as EN rises; ERR_INJ waits for the symbol sent next and reads 0.
Log 47 (DEDUCED). -/
def Chip.patGen (s : Chip) (l : AnyLane) (v : Word) : Chip :=
  let a := genAddr l
  if getBits v 0 1 = 1 ∧ (s.genFree l && s.codeOk l (getBits v 1 2)) = false then s.setReg a (setBits (s.reg a) 0 1 0)
  else
    let rises := getBits v 0 1 == 1 && getBits (s.reg a) 0 1 == 0
    let inj := getBits v 4 1 == 1
    (s.writeRw a v).genMod (fun x => ⟨if rises then genLoad (getBits v 1 2) else x.reg, (x.inj && !rises) || inj⟩) l

/-- A write to a lane's checker register: the same for the code, and for L8 the claim; EN at 0 clears LOST, SYNC and both counts
(R110). Log 47 (DEDUCED). -/
def Chip.patChk (s : Chip) (l : AnyLane) (v : Word) : Chip :=
  let a := chkAddr l
  let refused := getBits v 0 1 = 1 ∧ ((decide ((laneKind l) = (1, 8)) && !(s.claimedLane 1 8)) || !(s.codeOk l (getBits v 1 2))) = true
  let s := if refused then s.setReg a (setBits (s.reg a) 0 1 0) else s.writeRw a v
  if getBits (s.reg a) 0 1 = 1 then s
  else ((((s.chkMod (fun _ => {}) l).setReg (chkStatusAddr l) 0).setReg (patErrAddr l) 0).setReg (bitsLoAddr l) 0).setReg (bitsTopAddr l) 0

/-- PATTERN_GENERATOR_ENABLE (R18, R109, R163, R454): a write to a lane's generator register. Log 46 (DESIGN CHOICE). -/
def execPatternGeneratorEnable (m : Master) (l : AnyLane) (v : Word) (s : State) : Host.Outcome State Fault Refusal :=
  chipNext s (fun c => c.rowWrite m (genAddr l) (fun c => c.patGen l v))

/-- ERR_INJ (R109): a write to a lane's generator register. Log 46 (DESIGN CHOICE). -/
def execErrInj (m : Master) (l : AnyLane) (v : Word) (s : State) : Host.Outcome State Fault Refusal :=
  chipNext s (fun c => c.rowWrite m (genAddr l) (fun c => c.patGen l v))

/-! ### What a generator sends (R109, R454) -/

/-- The bits of a generator's next symbol by its pattern code and register, most significant first: two for PAM4, one in NRZ
(`nrz`). -/
def genBits (code : Nat) (nrz : Bool) (r : Nat) : List Bool :=
  if code = 2 then [bit (Config.ssprq r) 1, bit (Config.ssprq r) 0]
  else if nrz then [prbsBit code r] else [prbsBit code r, prbsBit code (prbsNext code r)]

/-- A generator's register after that symbol. -/
def genNext (code : Nat) (nrz : Bool) (r : Nat) : Nat :=
  if code = 2 then r + 1 else if nrz then prbsNext code r else prbsNext code (prbsNext code r)

/-- One bit of a symbol inverted: the only one in NRZ. -/
def injectError : List Bool → List Bool
  | [a, b] => if Config.injectMsb then [!a, b] else [a, !b]
  | l => l.map (!·)

/-- A symbol of its bits: PAM4, or NRZ at the outer levels. -/
def symOf : List Bool → Nat
  | [a, b] => 2 * b2n a + b2n b
  | l => binarySym (l.headD false)

/-- Is the lane's signalling NRZ? -/
def Chip.laneNrz (s : Chip) : AnyLane → Bool
  | .host h => s.fld (HLN_STATUS.RATE h.1) == 1
  | .line _ => false

/-- Does the lane's generator run? -/
def Chip.genRuns (s : Chip) (l : AnyLane) : Bool := s.laneOn l && getBits (s.reg (genAddr l)) 0 1 == 1

/-- The symbol that a lane's generator sends next: the sequence, inverted where INV is 1, with an injected error. -/
def Chip.genSymbol (s : Chip) (l : AnyLane) : Nat :=
  let w := s.reg (genAddr l)
  let x := s.genOf l
  let b := (genBits (getBits w 1 2) (s.laneNrz l) x.reg).map (· != (getBits w 3 1 == 1))
  symOf (if x.inj then injectError b else b)

/-- A lane's generator sends a symbol. -/
def Chip.genStep (s : Chip) (l : AnyLane) : Chip :=
  s.when (s.genRuns l) (fun s => s.genMod (fun x => ⟨genNext (getBits (s.reg (genAddr l)) 1 2) (s.laneNrz l) x.reg, false⟩) l)

/-- Every lane. -/
def allLanes : List AnyLane := (List.finRange 16).map .host ++ (List.finRange 9).map .line

/-- Every generator that runs sends a symbol. Log 136 (DESIGN CHOICE). -/
def Chip.genTick (s : Chip) : Chip := s.forAll allLanes Chip.genStep

/-! ### The checker (R110, R455) -/

/-- The live 48-bit bit count of a checker. -/
def Chip.bitCount (s : Chip) (l : AnyLane) : Nat := (s.reg (bitsLoAddr l)).toNat + 2 ^ 32 * (s.reg (bitsTopAddr l)).toNat

/-- The live bit count replaced. Log 45 (DEDUCED). -/
def Chip.setBitCount (s : Chip) (l : AnyLane) (n : Nat) : Chip :=
  (s.setReg (bitsLoAddr l) (BitVec.ofNat 32 n)).setReg (bitsTopAddr l) (BitVec.ofNat 32 (n / 2 ^ 32))

/-- What a synchronised checker has compared. -/
def Chip.patCount (s : Chip) (l : AnyLane) (bits errs : Nat) : Chip :=
  (s.setBitCount l (satAdd (2 ^ 48 - 1) (s.bitCount l) bits)).setReg (patErrAddr l)
    (BitVec.ofNat 32 (satAdd (2 ^ 32 - 1) (s.reg (patErrAddr l)).toNat errs))

/-- A checker's search meets a bit: 64 error-free ones in a row synchronise it (R110). -/
def PatChk.seek (x : PatChk) (wrong : Bool) : PatChk := { good := if wrong then 0 else min 64 (x.good + 1), window := [] }

/-- A synchronised checker meets a bit. -/
def PatChk.follow (x : PatChk) (wrong : Bool) : PatChk := { good := 0, window := (wrong :: x.window).take 1024 }

/-- Has the checker found 64 errors in 1024 consecutive bits (R110)? -/
def PatChk.lost (x : PatChk) : Bool := decide (64 ≤ (x.window.filter id).length)

/-- SYNC of a checker, and LOST with it where it falls; the loss is an event (R110, R455). -/
def Chip.setSync (s : Chip) (l : AnyLane) (sync : Bool) : Chip :=
  let st := s.reg (chkStatusAddr l)
  if sync then s.setReg (chkStatusAddr l) (setBits st 0 1 1)
  else
    ((s.setReg (chkStatusAddr l) (setBits (setBits st 0 1 0) 1 1 1)).chkMod (fun _ => {}) l).raise 0x047
      ((laneKind l).1 + 2 ^ 4 * (laneKind l).2)

/-- A checker compares a bit: while SYNC is 1 it is counted. Log 45 (DEDUCED). -/
def Chip.patBit (s : Chip) (l : AnyLane) (wrong : Bool) : Chip :=
  if getBits (s.reg (chkStatusAddr l)) 0 1 = 1 then
    let s := (s.patCount l 1 (b2n wrong)).chkMod (fun x => x.follow wrong) l
    if (s.chkOf l).lost then s.setSync l false else s
  else
    let s := s.chkMod (fun x => x.seek wrong) l
    if (s.chkOf l).good = 64 then (s.chkMod (fun _ => {}) l).setSync l true else s

/-- PAT_CHK_SYNC (R110, R136, R455): the lane's checker compares bits; `errs` tells of each whether it was wrong.
Log 45 (DEDUCED), 46 (DESIGN CHOICE). -/
def execPatChkSync (l : AnyLane) (errs : List Bool) (s : State) : Host.Outcome State Fault Refusal :=
  chipNext s (fun c => if c.laneOn l && getBits (c.reg (chkAddr l)) 0 1 == 1 then c.forAll errs (fun c e => c.patBit l e) else c)

/-- The bit count as a read sees it: frozen or live (R451). -/
def Chip.bitSeen (s : Chip) (l : AnyLane) : Nat := (s.seen (bitsLoAddr l)).toNat + 2 ^ 32 * (s.seen (bitsTopAddr l)).toNat

/-- A read of the bit count: the upper bits are latched; with a write grant the returned count is taken from the live one, and its
shadow clears (R109, R452, R453). -/
def Chip.readBits (s : Chip) (l : AnyLane) (clear : Bool) : Chip × Word :=
  let v := s.bitSeen l
  let t := s.setReg (bitsHiAddr l) (BitVec.ofNat 32 (bitsOf v 32 16))
  let t := if clear then
      let t := t.setBitCount l (s.bitCount l - v)
      { t with frz := tabSet resetWord (tabSet resetWord t.frz (bitsLoAddr l) 0) (bitsTopAddr l) 0 }
    else t
  (t, BitVec.ofNat 32 v)

/-- A read of a lane's bit count by master `m` at level `lv`, checked. -/
def Chip.patBitsLo (s : Chip) (m : Master) (lv : Nat) (l : AnyLane) : Chip :=
  if s.cutOff m then s else
  match s.checkAccess lv (bitsLoAddr l) 32 false with
  | none => s.answer m true 0
  | some b =>
    let r := s.readBits l (s.granted b (bitsLoAddr l) lv true)
    r.1.answer m false r.2

/-- HLN_PAT_BITS_LO (R109, R453): a read of the bit count of a lane's checker, in the HLN window or, under R136, in the LRX window. -/
def execHlnPatBitsLo (m : Master) (l : AnyLane) (s : State) : Host.Outcome State Fault Refusal :=
  chipNext s (fun c => c.patBitsLo m (c.masterLevel m) l)

end Sys2Proof.Machine
end

