-- ==== Sys2Proof/Machine/Views.lean ====
section
/-! DEFINITION. What each register reads as: the words that the part shows of its own state, and the stored words of the others, with
the shadow of a freeze in place of counts (spec/00 R5, R6; the register tables of spec/). -/

namespace Sys2Proof.Machine

/-- `MBX_STATUS`, R303. Log 59 (DEDUCED). -/
def Chip.mbxStatus (s : Chip) : Word :=
  setBits (setBits (setBits (s.reg MBX_STATUS.addr) 8 7 s.mbx.pend.length) 4 1 (s.fld MBX_HOST_SLEEP.SLEEP)) 3 1 (b2n s.ringFull)

/-- The codes of the slot states, R293. -/
def SlotState.no : SlotState → Nat
  | .free => 0 | .posted => 1 | .waiting => 2 | .executing => 3 | .done => 4

/-- The states of eight slots from slot `i` on, four bits each, R303. -/
def Chip.slotStates (s : Chip) (i : Nat) : Word :=
  BitVec.ofNat 32 ((List.range 8).foldl (fun acc k => acc + 2 ^ (4 * k) * (s.slot (i + k)).no) 0)

/-- The registers of MBX that show the state of its slots. -/
def Chip.mbxView (s : Chip) (off : Nat) : Option Word :=
  if off = 0x0 then some s.mbxStatus
  else if off = 0x8 then some (s.slotStates 0)
  else if off = 0xC then some (s.slotStates 8)
  else none

/-- The registers of GRD that show the distaff, R302. -/
def distView (d : Distaff) (s : Chip) (off : Nat) : Option Word :=
  if off = 0x800 then some (BitVec.ofNat 32 (d.holder + 16 * b2n d.fencedA + 32 * b2n d.fencedB))
  else if off = 0x804 then some (BitVec.ofNat 32 d.epoch)
  else if off = 0x814 then some (spnStatus d s)
  else none

/-- The registers of a line transmitter that show its state: its status and the ten bits of each entry of both copies of the tension
table (R145, R170). -/
def Chip.ltxView (s : Chip) (n off : Nat) : Option Word :=
  if off = 0x40 then some (s.ltxStatusWord n)
  else if 0x2400 ≤ off ∧ off < 0x2800 then some (BitVec.ofNat 32 (unsignedOf 10 (ttGet (s.txOf n).active ((off - 0x2400) / 4))))
  else if 0x2800 ≤ off ∧ off < 0x2C00 then some (BitVec.ofNat 32 (unsignedOf 10 (ttGet (s.txOf n).shadow ((off - 0x2800) / 4))))
  else none

/-- The registers of TWF that show the ports and the failed lanes, R68, R275. -/
def Chip.twfView (s : Chip) (off : Nat) : Option Word :=
  if 0x100 ≤ off ∧ off < 0x140 then some (s.portMap ((off - 0x100) / 4))
  else if off = 0x410 then some s.laneFailedWord
  else none

/-- The registers of HNK that show the store and the lanes, R190. -/
def Chip.hnkView (s : Chip) (off : Nat) : Option Word :=
  if off = 0x0 then some s.hankStoreWord
  else if 0x100 ≤ off ∧ off < 0x124 then some (s.hankLaneWord ((off - 0x100) / 4))
  else none

/-- The words that the part shows of its own state, by window and offset; none where the stored word is read. -/
def State.ownView (s : State) (b : Blk) (off : Nat) : Option Word :=
  match b with
  | .mbx => s.chip.mbxView off
  | .evt => some (s.chip.evt.word off)
  | .pmu => if off = 0x0 then some (s.chip.pdWord 0) else if off = 0x4 then some (s.chip.pdWord 1) else none
  | .grd => distView s.dist s.chip off
  | .cnt => s.chip.cnt.word off
  | .dma => if off = 0x0 then some (BitVec.ofNat 32 s.chip.dmaBusyMask) else none
  | .fly => if off = 0x0 then some (setBits (s.chip.reg FLY_STATUS.addr) 30 1 (s.chip.fld GLB_STRAPS.MGR_SEL)) else none
  | .ltx n => s.chip.ltxView n off
  | .lrx n => if off = 0x48 then some (s.chip.lrxSnrWord n) else if off = 0x1018 then some 0 else none
  | .hln _ => if off = 0x1018 then some 0 else none
  | .twf => s.chip.twfView off
  | .hnk => s.chip.hnkView off
  | _ => none

/-- What the register at an address of window `b` reads as, before any effect of reading it. An address that holds no register
reads as zero (R5). -/
def State.view (s : State) (b : Blk) (a : Nat) : Word := (s.ownView b (a - b.base)).getD (s.chip.seen a)

end Sys2Proof.Machine
end

