-- ==== Sys2Proof/Machine/Access.lean ====
section
/-! DEFINITION. What a management read or write does once its checks have passed (spec/00 R4 to R8; spec/01 R16 to R20; spec/15
R373 to R379; spec/19 R451 to R453; spec/20 R464, R465, R482). -/

namespace Sys2Proof.Machine

/-- Who makes an access: the fabric's master, the master for whom it is made (for a DMA channel the one that started it, R392) and
the privilege level that it has. -/
structure Party where
  m : Master
  who : Master
  lv : Nat
  deriving DecidableEq, Repr

/-- A master's own access (R458, R460). -/
def Chip.party (s : Chip) (m : Master) : Party := ⟨m, m, s.masterLevel m⟩

/-- Does a write to an FW field at address `a` take effect: the holder's does, another spindle's does not, and one for the host
does where the guard table grants debug write there (R7, R278, R392, R465)? Log 33 (DEDUCED), 35 (DEDUCED). -/
def State.fwMay (s : State) (p : Party) (a : Nat) : Bool :=
  if masterSpindle p.who = 0 then s.chip.debugWrite a p.lv else s.dist.holder == masterSpindle p.who

/-! ### The bits of a register by access code -/

/-- The bits of the register at an address whose fields have an access code. -/
def accMask (c : Acc) (a : Nat) : Word :=
  match regDescOf a with
  | none => 0
  | some d => d.flds.foldl (fun m p => if p.2.2 = c then m ||| bitMask p.1 p.2.1 else m) 0

/-- A write to a register without an effect of its own: its RW fields, its FW fields where `fw` holds, and its W1C fields; all
others keep their values, and reserved bits read zero (R6, R7). Log 31 (DEDUCED). -/
def Chip.writePlain (s : Chip) (a : Nat) (v : Word) (fw : Bool) : Chip :=
  let rw := rwMask a ||| (if fw then accMask .fw a else 0)
  s.setReg a (((s.reg a &&& ~~~ rw) ||| (v &&& rw)) &&& ~~~ (v &&& accMask .w1c a))

/-! ### Writes by window -/

/-- A write to a register of MBX (R294, R296, R299); the completion ring is read-only. -/
def Chip.writeMbx (s : Chip) (a off : Nat) (v : Word) : Chip :=
  if off = 0x04 then s.doorbell ⟨getBits v 0 4, Nat.mod_lt _ (by decide)⟩
  else if off = 0x10 then s.forAll (bitsSet 16 v.toNat) Chip.freeSlot
  else if off = 0x20 then s.sleepWrite v
  else s.writePlain a v false

/-- A write to MBX: a request slot (R293, R303), or a register. -/
def State.writeMbx (s : State) (p : Party) (a off : Nat) (v : Word) : State × Bool :=
  if 0x1000 ≤ off ∧ off < 0x2000 then
    let r := s.chip.slotStore p.who s.dist.holder ((off - 0x1000) / 0x100) (off % 0x100) v
    let t : State := { s with chip := r.1 }
    (if r.2 then t else t.eccReact .mailbox ((off - 0x1000) / 8), r.2)
  else (s.onChip (fun c => c.writeMbx a off v), true)

/-- A write to PMU (R429, R435, R436). -/
def State.writePmu (s : State) (p : Party) (a off : Nat) (v : Word) : State :=
  if off = 0x08 then s.grpWrite (masterSpindle p.m) v
  else if off = 0x18 then s.lpEnter p.who v
  else if off = 0x1C then s.onChip (fun c => c.wakeReq v)
  else s.onChip (fun c => c.writePlain a v false)

/-- DBG_ALLOW and BASE are kept in the config shadow (R459, R473). Log 40 (DEDUCED). -/
def Chip.keepConsent (s : Chip) : Chip :=
  { s with cfg := some { s.shadowNow with base := s.fld GRD_SESSION.BASE, dbgAllow := s.flag GRD_LC.DBG_ALLOW } }

/-- A write to GRD: the distaff and watchdog registers (R281, R282, R302), the guard table (R466, R467), and the RW fields of
`GRD_LC` and `GRD_SESSION`, whose BASE the session may follow (R482). `GRD_SPN_WDT`, an FW register, is taken from the firmware's
writers only. Log 40 (DEDUCED). -/
def State.writeGrd (s : State) (p : Party) (a off : Nat) (v : Word) : State :=
  let fw := s.fwMay p a
  if off = 0x800 then { s with dist := clearFence s.dist p.m v }
  else if off = 0x808 then s.distCycle (withClaim p.m v {})
  else if off = 0x810 then s.distCycle { ctrl := some (p.m, v) }
  else if off = 0x820 then s.spnCtrl p.m v
  else if off < 0x400 ∧ off % 0x10 < 0xC then s.onChip (fun c => if fw then (c.writePlain a v true).guardChanged (off / 0x10) p.lv else c)
  else if off = 0x400 then s.onChip (fun c => (c.writePlain a v false).keepConsent)
  else if off = 0x404 then s.onChip (fun c => (c.rebase (fun c => c.writePlain a v false)).keepConsent)
  else s.onChip (fun c => c.writePlain a v fw)

/-- A write to CNT (R448, R449, R451, R452). -/
def Chip.writeCnt (s : Chip) (a off : Nat) (v : Word) : Chip :=
  if off = 0 then s.cntFreeze v
  else if 0x10 ≤ off ∧ off < 0x30 then { s with cnt := s.cnt.clearOvf ((off - 0x10) / 4) v }
  else if 0x1000 ≤ off ∧ off < 0x2000 then
    if off % 16 = 8 then { s with cnt := s.cnt.setSel ((off - 0x1000) / 16) v } else s
  else s.writePlain a v false

/-- A write to HKA (R409, R411, R414). -/
def Chip.writeHka (s : Chip) (a off : Nat) (v : Word) : Chip :=
  if off = 0 then s.hkaCtrl v
  else if off = 8 then s.hkSw v
  else if 0x200 ≤ off ∧ off < 0x240 ∧ off % 0x10 = 0 then s.pwmCfg ((off - 0x200) / 0x10) v
  else s.writePlain a v false

/-- A write to FLT (R421). -/
def Chip.writeFlt (s : Chip) (a off : Nat) (v : Word) : Chip :=
  if off = 0 then s.forAll (bitsSet 31 v.toNat) Chip.cardRestart
  else if 0x100 ≤ off ∧ off < 0x2F0 ∧ off % 0x10 = 0 then s.fltCfg ((off - 0x100) / 0x10) v
  else s.writePlain a v false

/-- A write to DMA: a running channel's active set ignores it and sets WR_IGN (R388). -/
def Chip.writeDma (s : Chip) (p : Party) (a off : Nat) (v : Word) : Chip :=
  let n := (off - 0x100) / 0x40
  let r := (off - 0x100) % 0x40
  if off = 4 then s.forAll (bitsSet 8 v.toNat) (fun s k => s.dmaLine (40 + k))
  else if off < 0x100 ∨ 15 < n then s
  else if r = 0x20 then s.dmaCtrl n p.who p.lv v
  else if r < 0x10 ∧ s.dmaRuns n = true then s.setFlag (DMA_STATUS.WR_IGN n) true
  else s.writePlain a v false

/-- A write to ECC (R376, R381). -/
def Chip.writeEcc (s : Chip) (a off : Nat) (v : Word) : Chip :=
  if off = 0x28 then s.logFree v
  else if off = 0x200 then s.testCtrl v
  else if 0x204 ≤ off ∧ off < 0x210 then (s.writePlain a v false).showCheck
  else s.writePlain a v false

/-- A write to `FLY_PORT_CFG` or another register of FLY: the link of a disabled port goes down (R353, R370).
Log 122 (DEDUCED). -/
def Chip.writeFly (s : Chip) (a off : Nat) (v : Word) : Chip :=
  let t := s.writePlain a v true
  if off = 0xC then t.forAll ((List.range 10).filter (fun i => !(t.flyEn i))) (fun t i => t.flySetLink i false) else t

/-- A write to `CRL_LANE_CFG` or another register of CRL: a changed deadline discards the lane's codewords (R243).
Log 39 (DEDUCED). -/
def Chip.writeCrl (s : Chip) (a off : Nat) (v : Word) : Chip :=
  let t := s.writePlain a v true
  if 0x100 ≤ off ∧ off < 0x220 ∧ off % 0x20 = 0 ∧ t.reg a ≠ s.reg a then
    (t.setCws (t.crl.cws.filter (fun w => w.lane != (off - 0x100) / 0x20))).crlRefresh
  else t

/-- A write to a register of TWF: `TWF_PORT_MAP` shows what Krelin writes (R68); a change of POPULATED brings L8 up or turns it off
(R270). Log 38 (DEDUCED), 39 (DEDUCED). -/
def Chip.writeTwf (s : Chip) (spindle : Bool) (a off : Nat) (v : Word) : Chip :=
  if 0x100 ≤ off ∧ off < 0x140 then
    if spindle then s.portMod ((off - 0x100) / 4) (fun x => { x with shown := some v }) else s
  else
    let was := s.plyFitted
    let t := s.writePlain a v true
    if off ≠ 0x400 then t
    else (if !was && t.plyFitted then t.plyPopulate else if was && !t.plyFitted then t.plyUnpopulate else t).settle

/-- A write to a register of a line receiver's control range: a VOLT_SET above the new limit starts to fall at once (R138).
Log 39 (DEDUCED). -/
def Chip.writeLrxFw (s : Chip) (n a off : Nat) (v : Word) : Chip :=
  let t := s.writePlain a v true
  if off = 0x2000 then t.voltFall n else t

/-- A write to a firmware-owned register by a master whose writes take effect. Log 39 (DEDUCED). -/
def Chip.writeFw (s : Chip) (b : Blk) (spindle : Bool) (a off : Nat) (v : Word) : Chip :=
  match b with
  | .fly => s.writeFly a off v
  | .crl => s.writeCrl a off v
  | .twf => s.writeTwf spindle a off v
  | .lrx n => s.writeLrxFw n a off v
  | _ => s.writePlain a v true

/-- A write to an entry of the shadow copy of lane `n`'s tension table (R170), whose row is coded (R372, R378).
Log 39 (DEDUCED). -/
def State.writeTt (s : State) (n i : Nat) (v : Word) : State × Bool :=
  let r := s.chip.readGran (.tension n true) i
  match r.2 with
  | none => ({ s with chip := r.1 }, false)
  | some _ => ({ s with chip := r.1.putGran (.tension n true) i (getBits v 0 10) }, true)

/-- A write to the status and test ranges of a lane window (R16, R18, R109, R110). -/
def Chip.writeLane (s : Chip) (b : Blk) (a off : Nat) (v : Word) : Chip :=
  match b with
  | .hln n => if h : n < 16 then
      if off = 0x1000 then s.patGen (.host ⟨n, h⟩) v
      else if off = 0x1004 then s.patChk (.host ⟨n, h⟩) v
      else s.writePlain a v false
    else s
  | .lrx n => if h : n < 9 then
      if off = 0x1004 then s.patChk (.line ⟨n, h⟩) v else s.writePlain a v false
    else s
  | .ltx n => if h : n < 9 then
      if off = 0x1000 then s.patGen (.line ⟨n, h⟩) v else s.writePlain a v false
    else s
  | _ => s

/-- A write to a register that has passed the checks of R19; false where it ends in a bus error (R378). -/
def State.writeReg (s : State) (p : Party) (b : Blk) (a : Nat) (v : Word) : State × Bool :=
  let off := a - b.base
  let fw := s.fwMay p a
  match b with
  | .glb => (if a = GLB_RST_CTRL.addr then s.softReset v [] else s.onChip (fun c => c.writePlain a v fw), true)
  | .mbx => s.writeMbx p a off v
  | .evt => (if off < 0x8000 then s.onChip (fun c => c.evtWrite p.m p.who p.lv a v) else s, true)
  | .pmu => (s.writePmu p a off v, true)
  | .grd => (s.writeGrd p a off v, true)
  | .cnt => (s.onChip (fun c => c.writeCnt a off v), true)
  | .hka => (s.onChip (fun c => c.writeHka a off v), true)
  | .flt => (s.onChip (fun c => c.writeFlt a off v), true)
  | .dma => (s.onChip (fun c => c.writeDma p a off v), true)
  | .ecc => (s.onChip (fun c => c.writeEcc a off v), true)
  | .thm | .clk | .fly | .crl | .twf | .hnk =>
    (if fw then s.onChip (fun c => c.writeFw b (decide (masterSpindle p.who ≠ 0)) a off v) else s, true)
  | .hln _ | .lrx _ =>
    (if off < 0x2000 then s.onChip (fun c => c.writeLane b a off v)
     else if fw then s.onChip (fun c => c.writeFw b true a off v) else s, true)
  | .ltx n =>
    if off < 0x2000 then (s.onChip (fun c => c.writeLane b a off v), true)
    else if fw = false then (s, true)
    else if 0x2800 ≤ off ∧ off < 0x2C00 then s.writeTt n ((off - 0x2800) / 4) v
    else (s.onChip (fun c => c.writeFw b true a off v), true)
  | .hankWin | .capWin | .shadowWin | .spWin _ => (s, true)

/-! ### Writes to memory windows (R174, R373, R378) -/

/-- Does a write to a memory window take effect: capture memory and the spindles' memories at their grants, the hank store and the
config shadow as FW (R7, R174, R464)? Log 33 (DEDUCED). -/
def State.memMay (s : State) (p : Party) (m : MemId) (a : Nat) : Bool :=
  match m with
  | .hankStore | .shadow => s.fwMay p a
  | _ => true

/-- A hank whose bytes the window changes keeps, for the engine, what it held (R174). Log 84 (DEDUCED). -/
def Chip.shield (s : Chip) (m : MemId) (off : Nat) : Chip :=
  match m with
  | .hankStore => s.shieldHank (off / 2048)
  | _ => s

/-- A 32-bit write to a memory window: the half merged into its granule, or a bus error over an uncorrectable granule with what
R379 adds. -/
def State.writeMem (s : State) (p : Party) (m : MemId) (off a : Nat) (v : Word) : State × Bool :=
  if s.memMay p m a then
    let r := (s.chip.shield m off).writeMem32 m off v
    let t : State := { s with chip := r.1 }
    (if r.2 then t else t.eccReact m (off / 8), r.2)
  else (s, true)

/-- A write of 64 bits to a memory window, which merges nothing (R386). -/
def State.writeMem64 (s : State) (p : Party) (m : MemId) (off a : Nat) (v : Nat) : State :=
  if s.memMay p m a then s.onChip (fun c => (c.shield m off).putGran m (off / 8) v) else s

/-- A 32-bit write of a party to an address: the checks of R19, then its effect. The second part is false for a bus error. -/
def State.storeWord (s : State) (p : Party) (a width : Nat) (v : Word) : State × Bool :=
  match s.chip.checkAccess p.lv a width true with
  | none => (s, false)
  | some b =>
    match b, memOf a with
    | .mbx, _ => s.writeReg p b a v
    | _, some (m, off) => s.writeMem p m off a v
    | _, none => s.writeReg p b a v

/-! ### Reads -/

/-- The RC fields of the register at an address cleared after a read. While frozen, a count gives up what the shadow showed, and the
shadow clears (R453). Log 36 (DEDUCED), 44 (DEDUCED). -/
def Chip.clearRc (s : Chip) (a : Nat) : Chip :=
  if s.frozen && countMask a != 0 then
    { s.setReg a (BitVec.ofNat 32 ((s.reg a).toNat - (tabGet resetWord s.frz a).toNat)) with frz := tabSet resetWord s.frz a 0 }
  else s.setReg a (s.reg a &&& ~~~ (accMask .rc a))

/-- A read of a register of EVT: a claim by its own master (R341, R464), the latch of the timestamp (R336), the error count (R331). -/
def Chip.readEvt (s : Chip) (p : Party) (off : Nat) (clear : Bool) : Chip × Word :=
  if 0x1000 ≤ off ∧ off < 0x4000 ∧ off % 0x1000 = 0 then
    let c : Fin 3 := ⟨(off / 0x1000 - 1) % 3, Nat.mod_lt _ (by decide)⟩
    if ownConsumer p.m = some c.1 ∧ clear = true then
      let r := claim s.evt c
      ({ s with evt := r.1 }, r.2)
    else (s, 0)
  else if off = 0x8 then ({ s with evt := { s.evt with timeHi := bitsOf s.evt.time 32 16 } }, s.evt.word off)
  else if off = 0x4 ∧ clear = true then ({ s with evt := { s.evt with dbErr := 0 } }, s.evt.word off)
  else (s, s.evt.word off)

/-- The lane and kind of a checker whose bit count lies at an offset of a lane window. -/
def bitsLane (b : Blk) (off : Nat) : Option AnyLane :=
  if off ≠ 0x1010 then none
  else match b with
    | .hln n => if h : n < 16 then some (.host ⟨n, h⟩) else none
    | .lrx n => if h : n < 9 then some (.line ⟨n, h⟩) else none
    | _ => none

/-- A read of a register that has passed the checks of R19, with its effects; `clear` tells whether the requester has a write grant
too (R453). -/
def State.readReg (s : State) (p : Party) (b : Blk) (a : Nat) (clear : Bool) : State × Word :=
  let off := a - b.base
  let c := s.chip
  let on := fun (r : Chip × Word) => (({ s with chip := r.1 } : State), r.2)
  match bitsLane b off with
  | some l => on (c.readBits l clear)
  | none =>
    if b = .evt then on (c.readEvt p off clear)
    else if b = .cnt ∧ 0x1000 ≤ off ∧ off < 0x2000 ∧ off % 16 = 0 then
      let r := c.cnt.readLo ((off - 0x1000) / 16) c.frozen clear
      on ({ c with cnt := r.1 }, r.2)
    else (if clear && accMask .rc a != 0 then { s with chip := c.clearRc a } else s, s.view b a)

/-- The coded memory behind an address that is read, with the byte offset of its 64-bit granule's half: the memory windows, the
mailbox RAM, the skein memory and the tension tables (R372). -/
def readTarget (b : Blk) (a : Nat) : Option (MemId × Nat) :=
  match b with
  | .evt => if 0x028000 ≤ a ∧ a < 0x02E000 then some (.skein, a - 0x028000) else none
  | .ltx n =>
    let off := a - b.base
    if 0x2400 ≤ off ∧ off < 0x2C00 then some (.tension n (decide (0x2800 ≤ off)), 2 * ((off - 0x2400) % 0x400)) else none
  | _ => memOf a

/-- A 32-bit read of a coded memory; over an uncorrectable granule a bus error with what R379 adds. -/
def State.readMem (s : State) (m : MemId) (off : Nat) : State × Option Word :=
  let r := s.chip.readMem32 m off
  let t : State := { s with chip := r.1 }
  (if r.2.isSome then t else t.eccReact m (off / 8), r.2)

/-- A read of 64 bits of a memory window (R386). -/
def State.readMem64 (s : State) (m : MemId) (off : Nat) : State × Option Nat :=
  let r := s.chip.readGran m (off / 8)
  let t : State := { s with chip := r.1 }
  (if r.2.isSome then t else t.eccReact m (off / 8), r.2)

/-- A 32-bit read of a party from an address: the checks of R19, then the data with the read's effects, or nothing for a bus error.
Log 36 (DEDUCED). -/
def State.loadWord (s : State) (p : Party) (a width : Nat) : State × Option Word :=
  match s.chip.checkAccess p.lv a width false with
  | none => (s, none)
  | some b =>
    match readTarget b a with
    | some (m, off) => s.readMem m off
    | none =>
      let r := s.readReg p b a (s.chip.granted b a p.lv true)
      (r.1, some r.2)

end Sys2Proof.Machine
end

