-- ==== Sys2Proof/Machine/Bus.lean ====
section
/-! DEFINITION. The commands of the management fabric: register writes and reads with no command of their own (spec/00 R4 to R8;
spec/01 R14, R19; spec/21 R495 to R498), and the DMA beat (spec/16 R386 to R400). -/

namespace Sys2Proof.Machine

/-! ### Accesses of a master -/

/-- Does an access reach the part: the host's does not while VDDIO is low (R46), and one over I3C/I2C is NACKed and not executed while
the Whorl is stopped (R368, R435)? Log 37 (DEDUCED), 60 (DEDUCED). -/
def Chip.reaches (s : Chip) (m : Master) (i3c : Bool) : Bool := !(s.cutOff m) && !(i3c && s.pmu.lowPower)

/-- The part with WR_ERR of the I3C/I2C port set where a write word over it ended in a bus error (R498).
Log 37 (DEDUCED). -/
def Chip.noteWrErr (s : Chip) (i3c err : Bool) : Chip :=
  if i3c && err then { s with i3c := { s.i3c with wrErr := true } } else s

/-- The status byte of a read over I3C/I2C shows WR_ERR and clears it (R498). Log 37 (DEDUCED). -/
def Chip.showWrErr (s : Chip) (i3c : Bool) : Chip :=
  if i3c then { s with i3c := { s.i3c with shown := s.i3c.wrErr, wrErr := false } } else s

/-- A write of a master to any address. -/
def State.busWrite (s : State) (m : Master) (i3c : Bool) (a width : Nat) (v : Word) : State :=
  if s.chip.reaches m i3c then
    let r := s.storeWord (s.chip.party m) a width v
    r.1.onChip (fun c => (c.answer m (!r.2) 0).noteWrErr i3c (!r.2))
  else s

/-- A read of a master from any address; the data of a bus error are zero (R496). -/
def State.busRead (s : State) (m : Master) (i3c : Bool) (a width : Nat) : State :=
  if s.chip.reaches m i3c then
    let r := s.loadWord (s.chip.party m) a width
    r.1.onChip (fun c => (c.answer m r.2.isNone (r.2.getD 0)).showWrErr i3c)
  else s

/-- Does an access come over I3C/I2C, which serves the host alone? Log 37 (DEDUCED). -/
def overI3c (m : Master) (i3c : Bool) : Bool := i3c && decide (m = .host)

/-- One access of a cycle. -/
def State.busAccess (s : State) (x : BusAccess) : State :=
  match x.v with
  | none => s.busRead x.m (overI3c x.m x.i3c) x.a.toNat x.width
  | some v => s.busWrite x.m (overI3c x.m x.i3c) x.a.toNat x.width v

/-- The order in which the fabric serves its masters (R8, R14). -/
def fabricOrder : List Master := [.host, .spindleA, .spindleB, .dma]

/-- Is this a write of 1 to `CNT_FREEZE.FREEZE`, which comes after every RELEASE of its cycle (R452)? -/
def freezesCounts (x : BusAccess) : Bool :=
  x.a.toNat == CNT_FREEZE.addr && (x.v.elim false (fun v => getBits v 0 1 == 1))

/-- The accesses of a cycle as the fabric applies them: one of each master, every read before every write (a read returns what the
register held before the writes, and the clear of an RC read comes before them), and each kind in the order of the masters
(R8, R14), but a freeze after the others (R452). Log 32 (DEDUCED). -/
def cycleOrder (l : List BusAccess) : List BusAccess :=
  let one := fabricOrder.filterMap (fun m => l.find? (fun x => decide (x.m = m)))
  let writes := one.filter (fun x => x.v.isSome)
  one.filter (fun x => x.v.isNone) ++ writes.filter (fun x => !(freezesCounts x)) ++ writes.filter freezesCounts

/-- The accesses of one CLK_PER cycle (R8, R14). -/
def State.fabricCycle (s : State) (l : List BusAccess) : State := (cycleOrder l).foldl State.busAccess s

/-- REGISTER_WRITE (R4 to R7, R14, R19, R20, R373, R495, R498): a write of a width in bits, and the accesses that other masters make
in the same cycle. Log 32 (DEDUCED), 120 (DEDUCED). -/
def execRegisterWrite (m : Master) (i3c : Bool) (a : BitVec 24) (width : Nat) (v : Word) (also : List BusAccess) (s : State) :
    Host.Outcome State Fault Refusal :=
  .next (s.fabricCycle (⟨m, i3c, a, width, some v⟩ :: also))

/-- READ_TO_CLEAR (R4, R8, R14, R19, R452, R453, R498): a read of a width in bits, which clears the RC fields of its register where
the requester has a write grant too, and the accesses that other masters make in the same cycle. A read of any other register or of
a memory returns its value. Log 32 (DEDUCED), 36 (DEDUCED), 120 (DEDUCED). -/
def execReadToClear (m : Master) (i3c : Bool) (a : BitVec 24) (width : Nat) (also : List BusAccess) (s : State) :
    Host.Outcome State Fault Refusal :=
  .next (s.fabricCycle (⟨m, i3c, a, width, none⟩ :: also))

/-! ### The DMA beat (R386, R389, R391 to R393, R396 to R400) -/

/-- The granules in a block of channel `n`'s transform. -/
def Chip.dmaBlock (s : Chip) (n : Nat) : Nat := (xformBlock (s.fld (DMA_CFG.XFORM n))).getD 1

/-- Does channel `n` read next: is the block that it works on not yet wholly staged? -/
def Chip.dmaReads (s : Chip) (n : Nat) : Bool :=
  let b := s.dmaBlock n
  let c := s.dmaCh n
  decide (c.rd < (c.wr / b + 1) * b)

/-- Has channel `n` a beat to make: it is BUSY, and it writes, or its burst or its free run lets it read? -/
def Chip.dmaWork (s : Chip) (n : Nat) : Bool :=
  s.fld (DMA_STATUS.STATE n) == dmaBusy &&
    (!(s.dmaReads n) || decide (0 < (s.dmaCh n).burst) || s.fld (DMA_CFG.REQ n) == 63)

/-- The channels with work at a priority. -/
def Chip.dmaAt (s : Chip) (prio : Nat) : List Nat :=
  (List.range 16).filter (fun n => s.dmaWork n && s.fld (DMA_CFG.PRIO n) == prio)

/-- The channel served next among those of a list: the one in the middle of its burst, else the next in turn after the one served
last (`last` is 16 more than its number once its burst is over). -/
def nextInTurn (last : Nat) (l : List Nat) : Option Nat :=
  if last < 16 ∧ l.contains last = true then some last
  else
    let after := last % 16
    match l.find? (fun n => decide (after < n)) with
    | some n => some n
    | none => l.head?

/-- The channel that this beat serves: of the highest priority with work, the next in turn (R391). Log 42 (DEDUCED). -/
def Chip.dmaPick (s : Chip) : Option (Nat × Nat) :=
  [3, 2, 1, 0].findSome? (fun prio => (nextInTurn (s.dma.last.toList.getD prio 0) (s.dmaAt prio)).map (fun n => (prio, n)))

/-- Channel `n` served at a priority: in the middle of its burst, or with its burst over. -/
def Chip.dmaServed (s : Chip) (prio n : Nat) (ended : Bool) : Chip :=
  if h : prio < 4 then { s with dma := { s.dma with last := s.dma.last.set prio (n + 16 * b2n ended) h } } else s

/-- The byte address of granule `k` in transfer order of one side of channel `n`. -/
def Chip.dmaAddr (s : Chip) (n base : Nat) (fixed : Bool) (k : Nat) : Nat :=
  if fixed then base
  else base + 8 * (if (s.dmaCh n).down then s.fld (DMA_CNT.CNT n) - 1 - k else k)

/-- The party of channel `n`'s accesses, R392. Log 43 (DEDUCED). -/
def Chip.dmaParty (s : Chip) (n : Nat) : Party := ⟨.dma, (s.dmaCh n).master, (s.dmaCh n).level⟩

/-- The memory window behind an address, whose granules move whole (R386). Log 43 (DEDUCED). -/
def windowMem (a : Nat) : Option (MemId × Nat) :=
  match memOf a with
  | some (.mailbox, _) => none
  | x => x

/-- A granule read by DMA: whole from a memory window, else by two 32-bit reads, the lower address first. The second part is the
granule, or the address of a bus error. Log 43 (DEDUCED). -/
def State.dmaLoad (s : State) (p : Party) (a : Nat) : State × (Nat ⊕ BitVec 64) :=
  match windowMem a with
  | some (m, off) =>
    match s.chip.checkAccess p.lv a 32 false with
    | none => (s, .inl a)
    | some _ =>
      let r := s.readMem64 m off
      (r.1, match r.2 with | none => .inl a | some v => .inr (BitVec.ofNat 64 v))
  | none =>
    let r := s.loadWord p a 32
    match r.2 with
    | none => (r.1, .inl a)
    | some lo =>
      let r2 := r.1.loadWord p (a + 4) 32
      (r2.1, match r2.2 with | none => .inl (a + 4) | some hi => .inr (BitVec.ofNat 64 (lo.toNat + 2 ^ 32 * hi.toNat)))

/-- A granule written by DMA, in the same way; the second part is the address of a bus error. Log 43 (DEDUCED). -/
def State.dmaStore (s : State) (p : Party) (a : Nat) (g : BitVec 64) : State × Option Nat :=
  match windowMem a with
  | some (m, off) =>
    match s.chip.checkAccess p.lv a 32 true with
    | none => (s, some a)
    | some _ => (s.writeMem64 p m off a g.toNat, none)
  | none =>
    let r := s.storeWord p a 32 (BitVec.ofNat 32 g.toNat)
    if r.2 then
      let r2 := r.1.storeWord p (a + 4) 32 (BitVec.ofNat 32 (g.toNat >>> 32))
      (r2.1, if r2.2 then none else some (a + 4))
    else (r.1, some a)

/-- A bus error stops channel `n` at that granule, R393. -/
def Chip.dmaBusError (s : Chip) (n a : Nat) (e : DmaErr) : Chip :=
  (((s.answer .dma true 0).setFld (DMA_ERR_ADDR.ADDR n) a).dmaFail n e)

/-- A burst of channel `n` has ended: the next held request begins another, a channel on a request line waits for one, and a
free-running channel goes on (R389, R390). Log 42 (DEDUCED). -/
def Chip.dmaBurstEnd (s : Chip) (n : Nat) : Chip :=
  if s.fld (DMA_CFG.REQ n) = 63 then s
  else if (s.dmaCh n).held then s.dmaMod n (fun c => { c with held := false, burst := s.dmaBurst n })
  else s.setFld (DMA_STATUS.STATE n) dmaWait

/-- After a beat of channel `n` at a priority: the end of the set, the end of a burst, or neither. Log 42 (DEDUCED). -/
def Chip.dmaAfter (s : Chip) (prio n : Nat) : Chip :=
  let c := s.dmaCh n
  if s.fld (DMA_CNT.CNT n) ≤ c.wr then (s.dmaServed prio n true).dmaSetEnd n
  else if s.dmaReads n && c.burst == 0 then (s.dmaServed prio n true).dmaBurstEnd n
  else s.dmaServed prio n false

/-- The granule read joins those staged; the last one of a block makes the transform (R396). -/
def Chip.dmaStage (s : Chip) (n : Nat) (g : BitVec 64) : Chip :=
  let b := s.dmaBlock n
  s.dmaMod n (fun c =>
    let l := c.staged ++ [g]
    { c with rd := c.rd + 1, burst := c.burst - 1, staged := if l.length = b then xform (s.fld (DMA_CFG.XFORM n)) l else l })

/-- A read beat of channel `n`; a free-running channel begins a burst where none runs. -/
def State.dmaReadBeat (s : State) (prio n : Nat) : State :=
  let s := s.onChip (fun c =>
    if (c.dmaCh n).burst = 0 then c.dmaMod n (fun x => { x with burst := c.dmaBurst n }) else c)
  let c := s.chip
  let r := s.dmaLoad (c.dmaParty n) (c.dmaAddr n (c.fld (DMA_SRC.ADDR n)) (c.flag (DMA_CFG.SRC_FIX n)) (c.dmaCh n).rd)
  r.1.onChip (fun c =>
    if (c.dmaCh n).rd ≠ (s.chip.dmaCh n).rd ∨ c.dmaRuns n = false then c
    else match r.2 with
      | .inl a => c.dmaBusError n a .busRead
      | .inr g => ((c.answer .dma false 0).dmaStage n g).dmaAfter prio n)

/-- A write beat of channel `n`. -/
def State.dmaWriteBeat (s : State) (prio n : Nat) : State :=
  let c := s.chip
  let g := (c.dmaCh n).staged.headD 0
  let r := s.dmaStore (c.dmaParty n) (c.dmaAddr n (c.fld (DMA_DST.ADDR n)) (c.flag (DMA_CFG.DST_FIX n)) (c.dmaCh n).wr) g
  r.1.onChip (fun c =>
    if (c.dmaCh n).wr ≠ (s.chip.dmaCh n).wr ∨ c.dmaRuns n = false then c
    else match r.2 with
      | some a => c.dmaBusError n a .busWrite
      | none =>
        let c := (c.answer .dma false 0).dmaMod n (fun x => { x with wr := x.wr + 1, staged := x.staged.drop 1 })
        (c.setFld (DMA_STATUS.REMAIN n) (c.fld (DMA_CNT.CNT n) - (c.dmaCh n).wr)).dmaAfter prio n)

/-- One beat of the engine. -/
def State.dmaBeat (s : State) : State :=
  if !(s.chip.pdOn 19) then s
  else match s.chip.dmaPick with
    | none => s
    | some (prio, n) => if s.chip.dmaReads n then s.dmaReadBeat prio n else s.dmaWriteBeat prio n

/-- DMA_BEAT (R391): one granule read or written. Log 42 (DEDUCED). -/
def execDmaBeat (s : State) : Host.Outcome State Fault Refusal := .next s.dmaBeat

end Sys2Proof.Machine
end

