-- ==== Sys2Proof/Machine/Firmware.lean ====
section
/-! DEFINITION. The firmware commands: image transfers and the start of a hitless update (spec/12 R305, R326; spec/11 R289 to R291;
spec/20 R471 to R473; spec/02 R38, R39). -/

namespace Sys2Proof.Machine

/-- The flash slot that the holder does not run: the other one than `GRD_SPN_STATUS` names for it. Log 114 (DEDUCED). -/
def State.idleSlot (s : State) : Nat :=
  1 - s.chip.fld (if s.dist.holder = 2 then GRD_SPN_STATUS.IMG_B else GRD_SPN_STATUS.IMG_A)

/-- Does the boot ROM wait for a host-pushed image? Log 59 (DEDUCED). -/
def Chip.waitsHost (s : Chip) : Bool := s.flag GLB_BOOT_STATUS.WAIT_HOST

/-- Is an FW_ACTIVATE pending or executing? -/
def Chip.updating (s : Chip) : Bool := s.activateWaits || s.mbx.exec.any (fun e => e.opcode == 0x0C04)

/-- FW_IMAGE_BEGIN: any transfer is abandoned, and the slot is erased (R326). Log 27 (DESIGN CHOICE), 114 (DEDUCED). -/
def State.imageBegin (s : State) (n : Nat) : Chip × Verdict :=
  let c := s.chip
  if n < 4096 ∨ 2097152 < n then (c, .done (.fail .badArg))
  else if c.waitsHost then
    let d := c.draw
    ({ d.2 with spn := { d.2.spn with xfer := some { length := n, bytes := [], slot := 2 } } },
     .done (.okR (leBytes 1 (Config.pushedSlot d.1))))
  else if c.updating || !c.flash.present then (c, .done (.fail .badState))
  else
    let k := s.idleSlot
    ({ c with flash := c.flash.setImage k none, spn := { c.spn with xfer := some { length := n, bytes := [], slot := k } } },
     .done (.okR (leBytes 1 k)))

/-- FW_IMAGE_BEGIN (R39, R47, R326). -/
def execFwImageBegin (src : CmdSrc) (s : State) : Host.Outcome State Fault Refusal :=
  chipNext s (fun c => c.krelin src 0x0C01 (fun c r => State.imageBegin { s with chip := c } (arg32 r.payload 0)))

/-- The bytes of a host-pushed image go into memory as they come: the header and the program section into both spindle memories,
the table section into capture memory (R326). Log 55 (DEDUCED). -/
def Chip.stageImage (s : Chip) (x : Transfer) : Chip :=
  if x.slot ≠ 2 ∨ x.bytes.length < 256 then s
  else
    let i : Image := ⟨x.bytes, false⟩
    (s.loadImage i).loadMem .capture 0 i.tables

/-- FW_IMAGE_DATA: the next bytes. Log 114 (DEDUCED). -/
def Chip.imageData (s : Chip) (l : List Byte) : Chip × Verdict :=
  match s.spn.xfer with
  | none => (s, .done (.fail .badState))
  | some x =>
    let d := l.drop 4
    if arg32 l 0 ≠ x.bytes.length ∨ x.length < x.bytes.length + d.length then (s, .done (.fail .badArg))
    else
      let x := { x with bytes := x.bytes ++ d }
      (Chip.stageImage { s with spn := { s.spn with xfer := some x } } x, .done (.okR []))

/-- FW_IMAGE_DATA (R39, R326). -/
def execFwImageData (src : CmdSrc) (s : State) : Host.Outcome State Fault Refusal :=
  chipNext s (fun c => c.krelin src 0x0C02 (fun c r => c.imageData r.payload))

/-- The consent to a debug image at FW_IMAGE_END (R473). -/
def State.endConsent (s : State) : Bool := if s.chip.waitsHost then s.chip.bootConsent else s.chip.debugConsent

/-- Why a transferred image fails, R472: 1 short, 3 header, 2 signature; 0 where it passes. Log 55 (DEDUCED). -/
def State.imageReason (s : State) (i : Image) : Nat :=
  if i.bytes.length < 256 ∨ i.bytes.length < i.length then 1
  else if i.length < i.bytes.length ∨ i.headerOk s.fuse.unitId s.endConsent = false then 3
  else if i.sigOk = false then 2
  else 0

/-- FW_IMAGE_END: the image is checked. In flash it receives its sequence number; a host-pushed one is booted, and the holder that
opens the mailbox completes the command. Log 114 (DEDUCED). -/
def State.imageEnd (s : State) (sigOk : Bool) : Chip × Verdict :=
  match s.chip.spn.xfer with
  | none => (s.chip, .done (.fail .badState))
  | some x =>
    let c := { s.chip with spn := { s.chip.spn with xfer := none } }
    let i : Image := ⟨x.bytes, sigOk⟩
    let why := s.imageReason i
    if why ≠ 0 then
      (if x.slot = 2 then c.raise 0x1D4 0 else c, .done { status := .badArg, result := leBytes 1 why })
    else if x.slot = 2 then (c.bootPushed i, .runs .imageBoot)
    else
      let q := max (c.flash.seqOf 0) (c.flash.seqOf 1) + 1
      ({ c with flash := c.flash.setImage x.slot (some (i.withSeq q)) }, .done (.okR (leBytes 1 0)))

/-- FW_IMAGE_END (R38, R39, R47, R326, R472, R473); operand: whether the signature over the image verifies. -/
def execFwImageEnd (src : CmdSrc) (sigOk : Bool) (s : State) : Host.Outcome State Fault Refusal :=
  chipNext s (fun c => c.krelin src 0x0C03 (fun c _ => State.imageEnd { s with chip := c } sigOk))

/-- May the holder move to the image in the slot that it does not run, R289? Log 115 (DEDUCED). -/
def State.canActivate (s : State) : Bool :=
  let h := s.dist.holder - 1
  decide (s.dist.holder ≠ 0) && s.standby (1 - h) && s.chip.flash.present &&
    decide (s.chip.runningSeq h < s.chip.flash.seqOf s.idleSlot)

/-- FW_ACTIVATE (R289, R290): steps 1 and 2 of the hitless update, the standby restarted into the new image. -/
def execFwActivate (src : CmdSrc) (s : State) : Host.Outcome State Fault Refusal :=
  .next (match s.chip.accept src 0x0C04 with
    | (c, none) => { s with chip := c }
    | (c, some r) =>
      let s := { s with chip := c }
      if s.canActivate = false then s.onChip (fun c => c.conclude r (.done (.fail .badState)))
      else
        let old := s.dist.holder
        let k := s.idleSlot
        let u : Update := ⟨k, 1 - k, old, .syncing⟩
        let s := s.onChip (fun c => Chip.conclude { c with spn := { c.spn with update := some u } } r (.runs (.fwActivate old)))
        s.restart (2 - old) k)

/-- The sequence number of a slot as flash holds it: erased without an image. Log 115 (DEDUCED). -/
def Chip.flashSeq (s : Chip) (slot free : Nat) : Nat :=
  if s.flash.present then (s.flash.image slot).elim 0xFFFFFFFF Image.seq else Config.noFlashSeq free

/-- FW_STATUS: spindle status, both sequence numbers, and the bytes received in the transfer. Log 27 (DESIGN CHOICE). -/
def Chip.fwStatus (s : Chip) (d : Distaff) : Chip × Verdict :=
  let a := s.draw
  let b := a.2.draw
  (b.2, .done (.okR (leBytes 4 (spnStatus d s).toNat ++ leBytes 4 (s.flashSeq 0 a.1) ++ leBytes 4 (s.flashSeq 1 b.1)
    ++ leBytes 4 (s.spn.xfer.elim 0 (fun x => x.bytes.length)))))

/-- FW_STATUS (R305). -/
def execFwStatus (src : CmdSrc) (s : State) : Host.Outcome State Fault Refusal :=
  chipNext s (fun c => c.krelin src 0x0C05 (fun c _ => c.fwStatus s.dist))

end Sys2Proof.Machine
end

