-- ==== Sys2Proof/Machine/HkRows.lean ====
section
/-! DEFINITION. The housekeeping commands HK_READ and HK_ALARM_CFG (spec/12 R305, R329). -/

namespace Sys2Proof.Machine

/-- HK_READ: the latest combed outputs of channels 0 to 21. -/
def Chip.hkRead (s : Chip) : Reply :=
  if s.pdOn 20 then .okD ((List.range 22).flatMap (fun f => leBytes 2 (s.fld (FLT_COMBED.VALUE f)))) else .fail .badState

/-- HK_READ (R305). -/
def execHkRead (src : CmdSrc) (s : State) : Host.Outcome State Fault Refusal :=
  chipNext s (fun c => c.krelin src 0x0E01 (fun c _ => (c, .done c.hkRead)))

/-- An alarm as it is set: new limits, or enabling it, arm it. Log 116 (DEDUCED). -/
def HkAlarm.config (a : HkAlarm) (en : Bool) (lo hi : Nat) : HkAlarm :=
  ⟨en, lo, hi, (a.armed && a.en) || !a.en || lo != a.lo || hi != a.hi⟩

/-- HK_ALARM_CFG: the alarm of channel `f`. -/
def Chip.hkAlarmCfg (s : Chip) (f : Nat) (en : Bool) (lo hi : Nat) : Chip × Verdict :=
  if h : f < 22 then
    if hi < lo then (s, .done (.fail .badArg))
    else if !(s.pdOn 20) then (s, .done (.fail .badState))
    else ({ s with alarms := s.alarms.set f (s.alarms[f].config en lo hi) h }, .done (.okR []))
  else (s, .done (.fail .badArg))

/-- HK_ALARM_CFG (R329). -/
def execHkAlarmCfg (src : CmdSrc) (s : State) : Host.Outcome State Fault Refusal :=
  chipNext s (fun c => c.krelin src 0x0E02 (fun c r =>
    c.hkAlarmCfg (byteAt r.payload 0) (bit (byteAt r.payload 1) 0) (arg16 r.payload 4) (arg16 r.payload 6)))

end Sys2Proof.Machine
end

