-- ==== Sys2Proof/Machine/I3cPort.lean ====
section
/-! DEFINITION. The common command codes of the I3C port (spec/21 R487, R498; spec/14 R368). -/

namespace Sys2Proof.Machine

/-- The static address of R487, from `ADDR_SEL0` and `ADDR_SEL1` as latched. Log 29 (PRESUMED). -/
def Chip.staticAddr (s : Chip) : Nat := 0x58 + bitsOf s.straps 1 2

/-- Is a directed code addressed to the part, at its dynamic address? Log 29 (PRESUMED). -/
def Chip.i3cMine (s : Chip) (addr : BitVec 7) : Bool := s.i3c.dyn == some addr.toNat

/-- The part acknowledges a code (`ack`) and answers it, or does not. -/
def Chip.i3cReply (s : Chip) (ack : Bool) (answer : Nat) : Chip :=
  { s with i3c := { s.i3c with ack := ack, answer := if ack then answer else 0 } }

/-- The part takes a dynamic address, or gives it up. -/
def Chip.setDyn (s : Chip) (a : Option Nat) : Chip := { s with i3c := { s.i3c with dyn := a } }

/-- A code is received: one of those that R498 names is executed, any other is NACKed. ENTDAA and SETDASA give a dynamic address to
a part that has none, and a directed read is answered at the part's dynamic address.
Log 28 (DESIGN CHOICE), 29 (PRESUMED). -/
def Chip.ccc (s : Chip) (c : Ccc) : Chip :=
  match c with
  | .entdaa addr => if s.i3c.dyn = none then (s.setDyn (some addr.toNat)).i3cReply true 0 else s.i3cReply false 0
  | .setdasa static dyn =>
    if static.toNat = s.staticAddr ∧ s.i3c.dyn = none then (s.setDyn (some dyn.toNat)).i3cReply true 0 else s.i3cReply false 0
  | .rstdaa => (s.setDyn none).i3cReply true 0
  | .getpid addr => s.i3cReply (s.i3cMine addr) Config.i3cPid.toNat
  | .getbcr addr => s.i3cReply (s.i3cMine addr) Config.i3cBcr.toNat
  | .getdcr addr => s.i3cReply (s.i3cMine addr) Config.i3cDcr.toNat
  | .getstatus addr =>
    let d := s.draw
    d.2.i3cReply (s.i3cMine addr) (Config.i3cStatus d.1).toNat
  | .other _ => s.i3cReply false 0

/-- I3C_CCC (R498): while the Whorl is stopped the part NACKs everything (R368); while VDDIO is low nothing reaches it (R46).
Log 29 (PRESUMED). -/
def execI3cCcc (c : Ccc) (s : State) : Host.Outcome State Fault Refusal :=
  chipNext s (fun x => if x.cutOff .host then x else if x.pmu.lowPower then x.i3cReply false 0 else x.ccc c)

end Sys2Proof.Machine
end

