-- ==== Sys2Proof/Machine/Limits.lean ====
section
/-! DEFINITION. The time limits of executing commands (spec/12 R308, R315, R316, R323; spec/03 R67; spec/04 R93; spec/10 R273;
spec/11 R289, R291). -/

namespace Sys2Proof.Machine

/-- REMOVE_PORT has waited 200 µs for a substitution: the port is removed; a restore that runs is awaited further (R67).
Log 101 (DEDUCED). -/
def Chip.removeLimit (s : Chip) (e : ExecCmd) (p : Nat) : Chip :=
  if (s.port p).lineLanes.any (fun n => s.restoring (s.carrier n)) then s
  else ((s.dropPort p).saveShadow).endCmd e (.okR [])

/-- HOST_RETRAIN has not handed off within 2 s; training goes on (R315). -/
def Chip.hostRetrainLimit (s : Chip) (e : ExecCmd) (h : Nat) : Chip :=
  s.endCmd e { status := .timeout, result := leBytes 4 (s.reg (HLN_STATUS.addr h)).toNat }

/-- LINE_RETRAIN is still in SIGNAL_WAIT 5 s after it started; the retrain goes on (R316). -/
def Chip.lineRetrainLimit (s : Chip) (n : Nat) : Chip :=
  if s.rxState n = rxSignalWait then s.endRetrain n .timeout else s

/-- No RESPONSE has come within the timeout of a FLY_REQUEST; a late one is discarded (R323). Log 110 (DEDUCED). -/
def Chip.flyRequestLimit (s : Chip) (e : ExecCmd) (tag : Nat) : Chip :=
  Chip.endCmd { s with fly := { s.fly with flight := s.fly.flight.filter (fun x => x.1 != tag) } } e (.fail .timeout)

/-- The standby has not reached STANDBY within 500 ms: FW_ACTIVATE ends, and the standby restarts into the running image (R291).
Log 115 (DEDUCED). -/
def State.activateLimit (s : State) (e : ExecCmd) : State :=
  match s.chip.spn.update with
  | none => s
  | some u =>
    if u.phase ≠ .syncing then s
    else
      let s := s.onChip (fun c => { c with spn := { c.spn with update := none } })
      (s.restartLike (2 - u.old)).onChip (fun c => c.endCmd e (.fail .timeout))

/-- The time limit of an executing command runs out. Log 119 (DEDUCED). -/
def State.runningLimit (s : State) (e : ExecCmd) : State :=
  match e.wait with
  | .addPort _ _ _ => s.onChip (fun c => (c.addTimeout e).settle)
  | .removePort p => s.onChip (fun c => c.removeLimit e p)
  | .hostRetrain h => s.onChip (fun c => c.hostRetrainLimit e h)
  | .lineRetrain n => s.onChip (fun c => c.lineRetrainLimit n)
  | .plySubst n => s.onChip (fun c => c.plySubstTimeout n)
  | .fwActivate _ => s.activateLimit e
  | .flyRequest tag => s.onChip (fun c => c.flyRequestLimit e tag)
  | _ => s

/-- Does a WAITING FW_ACTIVATE stand at `src`? -/
def Chip.activateAt (s : Chip) (src : CmdSrc) : Bool :=
  match src with
  | .slot i => decide (s.slot i.1 = .waiting) && s.slotOp i == 0x0C04
  | .fleyth k => (s.fly.reqs[k.1]?).elim false (fun q => q.waits && q.opcode == 0x0C04)

/-- An FW_ACTIVATE has waited 5 s in WAITING (R289). Log 119 (DEDUCED). -/
def Chip.waitingLimit (s : Chip) (src : CmdSrc) : Chip :=
  if s.activateAt src then
    match s.reqOf src with
    | (_, none) => s
    | (t, some r) => ((t.begin src).finishReq r (.fail .busy)).serve
  else s

/-- COMMAND_TIME_LIMIT (R67, R93, R273, R289, R291, R308, R315, R316, R323): the time limit of the command that `o` names runs out.
Log 119 (DEDUCED). -/
def execCommandTimeLimit (o : Overdue) (s : State) : Host.Outcome State Fault Refusal :=
  .next (match o with
    | .running i =>
      match s.chip.mbx.exec[i]? with
      | none => s
      | some e => s.runningLimit e
    | .waiting src => s.onChip (fun c => c.waitingLimit src))

end Sys2Proof.Machine
end

