-- ==== Sys2Proof/Machine/Dispatch.lean ====
section
/-! DEFINITION. The dispatch: one arm per command, each one direct call of its meaning. -/

namespace Sys2Proof.Machine

/-- The effect of a command on everything but the queue. -/
def exec (i : Instr) (s : State) : Host.Outcome State Fault Refusal :=
  match i with
  | .powerOnReset straps supplies also => Sys2Proof.Machine.execPowerOnReset straps supplies also s
  | .resetN straps also => Sys2Proof.Machine.execResetN straps also s
  | .softwareChipReset m v also => Sys2Proof.Machine.execSoftwareChipReset m v also s
  | .coreSupplyLoss also => Sys2Proof.Machine.execCoreSupplyLoss also s
  | .whorlRestart also => Sys2Proof.Machine.execWhorlRestart also s
  | .jtagTapReset => Sys2Proof.Machine.execJtagTapReset s
  | .spindleWatchdog x also => Sys2Proof.Machine.execSpindleWatchdog x also s
  | .wdtKick m v => Sys2Proof.Machine.execWdtKick m v s
  | .holdover => Sys2Proof.Machine.execHoldover s
  | .refclkReturn off => Sys2Proof.Machine.execRefclkReturn off s
  | .whorlRecovered => Sys2Proof.Machine.execWhorlRecovered s
  | .whorlLock => Sys2Proof.Machine.execWhorlLock s
  | .rdyReg => Sys2Proof.Machine.execRdyReg s
  | .doffRecordSelect => Sys2Proof.Machine.execDoffRecordSelect s
  | .startUpCheck found => Sys2Proof.Machine.execStartUpCheck found s
  | .selectImage => Sys2Proof.Machine.execSelectImage s
  | .krelinStart => Sys2Proof.Machine.execKrelinStart s
  | .coreVoltageCheck microvolts waited => Sys2Proof.Machine.execCoreVoltageCheck microvolts waited s
  | .portDomainsUp openLegs => Sys2Proof.Machine.execPortDomainsUp openLegs s
  | .trafficReady => Sys2Proof.Machine.execTrafficReady s
  | .analogSupplyLoss hs hv => Sys2Proof.Machine.execAnalogSupplyLoss hs hv s
  | .analogSupplyRestored hs hv openLegs => Sys2Proof.Machine.execAnalogSupplyRestored hs hv openLegs s
  | .hqUnlock q => Sys2Proof.Machine.execHqUnlock q s
  | .hqRelock q openLegs => Sys2Proof.Machine.execHqRelock q openLegs s
  | .hostLos h => Sys2Proof.Machine.execHostLos h s
  | .hostSignalReturn h => Sys2Proof.Machine.execHostSignalReturn h s
  | .hostRelock h => Sys2Proof.Machine.execHostRelock h s
  | .hostWatchExpiry h openLegs => Sys2Proof.Machine.execHostWatchExpiry h openLegs s
  | .twistHFrame h f openLegs => Sys2Proof.Machine.execTwistHFrame h f openLegs s
  | .handoff h tx => Sys2Proof.Machine.execHandoff h tx s
  | .echoTimeout h openLegs => Sys2Proof.Machine.execEchoTimeout h openLegs s
  | .trainingTimeout h => Sys2Proof.Machine.execTrainingTimeout h s
  | .trainingRetry h openLegs => Sys2Proof.Machine.execTrainingRetry h openLegs s
  | .ieeeTrainingFrame h f openLegs => Sys2Proof.Machine.execIeeeTrainingFrame h f openLegs s
  | .trainingFallback h => Sys2Proof.Machine.execTrainingFallback h s
  | .fixedTrained h f openLegs => Sys2Proof.Machine.execFixedTrained h f openLegs s
  | .dataFrame h f => Sys2Proof.Machine.execDataFrame h f s
  | .hostTxShort h on openLegs => Sys2Proof.Machine.execHostTxShort h on openLegs s
  | .patChkSync l errs => Sys2Proof.Machine.execPatChkSync l errs s
  | .foregroundCalibrationDone n => Sys2Proof.Machine.execForegroundCalibrationDone n s
  | .lineSignal n => Sys2Proof.Machine.execLineSignal n s
  | .lineLos n => Sys2Proof.Machine.execLineLos n s
  | .snrWindow n snr => Sys2Proof.Machine.execSnrWindow n snr s
  | .adcCalUpdate n a => Sys2Proof.Machine.execAdcCalUpdate n a s
  | .llrScaleUpdate n t => Sys2Proof.Machine.execLlrScaleUpdate n t s
  | .lineLocked n => Sys2Proof.Machine.execLineLocked n s
  | .lockLoss l => Sys2Proof.Machine.execLockLoss l s
  | .goodSet n => Sys2Proof.Machine.execGoodSet n s
  | .voltStep n => Sys2Proof.Machine.execVoltStep n s
  | .voltReturn n => Sys2Proof.Machine.execVoltReturn n s
  | .restoreWindowExpiry n => Sys2Proof.Machine.execRestoreWindowExpiry n s
  | .retrainTimeout n => Sys2Proof.Machine.execRetrainTimeout n s
  | .tapWord n => Sys2Proof.Machine.execTapWord n s
  | .tapChange n => Sys2Proof.Machine.execTapChange n s
  | .ttSwap n => Sys2Proof.Machine.execTtSwap n s
  | .tapTimeout n => Sys2Proof.Machine.execTapTimeout n s
  | .lineTxShort n on => Sys2Proof.Machine.execLineTxShort n on s
  | .snapshot n => Sys2Proof.Machine.execSnapshot n s
  | .snapshotGuardEnd n => Sys2Proof.Machine.execSnapshotGuardEnd n s
  | .checkpoint n => Sys2Proof.Machine.execCheckpoint n s
  | .checkpointCommit n => Sys2Proof.Machine.execCheckpointCommit n s
  | .pageInStart => Sys2Proof.Machine.execPageInStart s
  | .pageInDone n => Sys2Proof.Machine.execPageInDone n s
  | .frameSend n f => Sys2Proof.Machine.execFrameSend n f s
  | .twistFrame n l => Sys2Proof.Machine.execTwistFrame n l s
  | .multiframe n => Sys2Proof.Machine.execMultiframe n s
  | .portRateFault p => Sys2Proof.Machine.execPortRateFault p s
  | .rateFaultClear p => Sys2Proof.Machine.execRateFaultClear p s
  | .ieeeAlignLoss n => Sys2Proof.Machine.execIeeeAlignLoss n s
  | .portSkew p beyond => Sys2Proof.Machine.execPortSkew p beyond s
  | .codewordArrival n at_ => Sys2Proof.Machine.execCodewordArrival n at_ s
  | .slotBoundary tests residues parity records => Sys2Proof.Machine.execSlotBoundary tests residues parity records s
  | .spareRotation => Sys2Proof.Machine.execSpareRotation s
  | .codewordRelease n parity => Sys2Proof.Machine.execCodewordRelease n parity s
  | .rsCodeword p x => Sys2Proof.Machine.execRsCodeword p x s
  | .statsWindow ieee => Sys2Proof.Machine.execStatsWindow ieee s
  | .substWaitTimeout => Sys2Proof.Machine.execSubstWaitTimeout s
  | .plyDown => Sys2Proof.Machine.execPlyDown s
  | .laneLost n => Sys2Proof.Machine.execLaneLost n s
  | .claim m e also => Sys2Proof.Machine.execClaim m e also s
  | .release m v also => Sys2Proof.Machine.execRelease m v also s
  | .handover m v also => Sys2Proof.Machine.execHandover m v also s
  | .fenceClear m v also => Sys2Proof.Machine.execFenceClear m v also s
  | .spindleRestart m v => Sys2Proof.Machine.execSpindleRestart m v s
  | .spindleSyncDone x => Sys2Proof.Machine.execSpindleSyncDone x s
  | .spindleDown x => Sys2Proof.Machine.execSpindleDown x s
  | .holderlessClaim a b => Sys2Proof.Machine.execHolderlessClaim a b s
  | .takeover => Sys2Proof.Machine.execTakeover s
  | .mbxOpen => Sys2Proof.Machine.execMbxOpen s
  | .probationEnd => Sys2Proof.Machine.execProbationEnd s
  | .doorbell m v => Sys2Proof.Machine.execDoorbell m v s
  | .slotWrite m k w v => Sys2Proof.Machine.execSlotWrite m k w v s
  | .slotFree m v => Sys2Proof.Machine.execSlotFree m v s
  | .heldCompletionPost => Sys2Proof.Machine.execHeldCompletionPost s
  | .moderationTimeout => Sys2Proof.Machine.execModerationTimeout s
  | .hostSleep m v => Sys2Proof.Machine.execHostSleep m v s
  | .sysInfo src => Sys2Proof.Machine.execSysInfo src s
  | .sysEcho src => Sys2Proof.Machine.execSysEcho src s
  | .sysTime src => Sys2Proof.Machine.execSysTime src s
  | .sysCfgSave src => Sys2Proof.Machine.execSysCfgSave src s
  | .addPort src openLegs => Sys2Proof.Machine.execAddPort src openLegs s
  | .removePort src => Sys2Proof.Machine.execRemovePort src s
  | .enablePort src => Sys2Proof.Machine.execEnablePort src s
  | .disablePort src => Sys2Proof.Machine.execDisablePort src s
  | .getPortMap src => Sys2Proof.Machine.execGetPortMap src s
  | .hostTrainCfg src => Sys2Proof.Machine.execHostTrainCfg src s
  | .hostRetrain src openLegs => Sys2Proof.Machine.execHostRetrain src openLegs s
  | .hostLaneStatus src => Sys2Proof.Machine.execHostLaneStatus src s
  | .hostTxSet src => Sys2Proof.Machine.execHostTxSet src s
  | .lineRxStatus src => Sys2Proof.Machine.execLineRxStatus src s
  | .lineRxCfg src => Sys2Proof.Machine.execLineRxCfg src s
  | .lineRetrain src => Sys2Proof.Machine.execLineRetrain src s
  | .lineCapture src => Sys2Proof.Machine.execLineCapture src s
  | .captureEnd n data => Sys2Proof.Machine.execCaptureEnd n data s
  | .lineTxStatus src => Sys2Proof.Machine.execLineTxStatus src s
  | .lineTxCfg src => Sys2Proof.Machine.execLineTxCfg src s
  | .lineTxTable src => Sys2Proof.Machine.execLineTxTable src s
  | .hankPolicy src => Sys2Proof.Machine.execHankPolicy src s
  | .hankStatus src => Sys2Proof.Machine.execHankStatus src s
  | .hankRead src => Sys2Proof.Machine.execHankRead src s
  | .hankWrite src => Sys2Proof.Machine.execHankWrite src s
  | .hankPin src => Sys2Proof.Machine.execHankPin src s
  | .hankUnpin src => Sys2Proof.Machine.execHankUnpin src s
  | .hankLoad src => Sys2Proof.Machine.execHankLoad src s
  | .hankFlush src => Sys2Proof.Machine.execHankFlush src s
  | .creelCfg src => Sys2Proof.Machine.execCreelCfg src s
  | .creelStatus src => Sys2Proof.Machine.execCreelStatus src s
  | .creelStats src => Sys2Proof.Machine.execCreelStats src s
  | .creelRsStats src => Sys2Proof.Machine.execCreelRsStats src s
  | .plyCfg src => Sys2Proof.Machine.execPlyCfg src s
  | .plyStatus src => Sys2Proof.Machine.execPlyStatus src s
  | .plyMirror src => Sys2Proof.Machine.execPlyMirror src s
  | .plySubst src => Sys2Proof.Machine.execPlySubst src s
  | .pwrSet src => Sys2Proof.Machine.execPwrSet src s
  | .pwrStatus src => Sys2Proof.Machine.execPwrStatus src s
  | .lowPower src => Sys2Proof.Machine.execLowPower src s
  | .telTemp src => Sys2Proof.Machine.execTelTemp src s
  | .telPort src => Sys2Proof.Machine.execTelPort src s
  | .flyDiscover src => Sys2Proof.Machine.execFlyDiscover src s
  | .flyRequest src => Sys2Proof.Machine.execFlyRequest src s
  | .flyCfg src => Sys2Proof.Machine.execFlyCfg src s
  | .flyNodes src => Sys2Proof.Machine.execFlyNodes src s
  | .secChallenge src => Sys2Proof.Machine.execSecChallenge src s
  | .secAuth src => Sys2Proof.Machine.execSecAuth src s
  | .secLogout src => Sys2Proof.Machine.execSecLogout src s
  | .guardSet src => Sys2Proof.Machine.execGuardSet src s
  | .guardGet src => Sys2Proof.Machine.execGuardGet src s
  | .lifecycleAdvance src lasting => Sys2Proof.Machine.execLifecycleAdvance src lasting s
  | .returnedReset => Sys2Proof.Machine.execReturnedReset s
  | .ownerKeySet src lasting => Sys2Proof.Machine.execOwnerKeySet src lasting s
  | .fwImageBegin src => Sys2Proof.Machine.execFwImageBegin src s
  | .fwImageData src => Sys2Proof.Machine.execFwImageData src s
  | .fwImageEnd src sigOk => Sys2Proof.Machine.execFwImageEnd src sigOk s
  | .fwActivate src => Sys2Proof.Machine.execFwActivate src s
  | .fwStatus src => Sys2Proof.Machine.execFwStatus src s
  | .doffRun src result => Sys2Proof.Machine.execDoffRun src result s
  | .doffRecord src => Sys2Proof.Machine.execDoffRecord src s
  | .testLane src => Sys2Proof.Machine.execTestLane src s
  | .hkRead src => Sys2Proof.Machine.execHkRead src s
  | .hkAlarmCfg src => Sys2Proof.Machine.execHkAlarmCfg src s
  | .eventMessage ms => Sys2Proof.Machine.execEventMessage ms s
  | .evtDoorbell m v => Sys2Proof.Machine.execEvtDoorbell m v s
  | .evtClaim m c => Sys2Proof.Machine.execEvtClaim m c s
  | .evtEoi m c v => Sys2Proof.Machine.execEvtEoi m c v s
  | .evtMaskClr m c w v => Sys2Proof.Machine.execEvtMaskClr m c w v s
  | .evtPendSet m c w v => Sys2Proof.Machine.execEvtPendSet m c w v s
  | .evtArmSet m c w v => Sys2Proof.Machine.execEvtArmSet m c w v s
  | .evtTimeLo m => Sys2Proof.Machine.execEvtTimeLo m s
  | .flyMessage a => Sys2Proof.Machine.execFlyMessage a s
  | .requestExpiry k => Sys2Proof.Machine.execRequestExpiry k s
  | .discoveryTimeout => Sys2Proof.Machine.execDiscoveryTimeout s
  | .keepalive p => Sys2Proof.Machine.execKeepalive p s
  | .linkDown p => Sys2Proof.Machine.execLinkDown p s
  | .notify => Sys2Proof.Machine.execNotify s
  | .wakeActivity w => Sys2Proof.Machine.execWakeActivity w s
  | .bucketLeak b => Sys2Proof.Machine.execBucketLeak b s
  | .scrubStep => Sys2Proof.Machine.execScrubStep s
  | .logFree m v => Sys2Proof.Machine.execLogFree m v s
  | .commit m v => Sys2Proof.Machine.execCommit m v s
  | .rawRead m v => Sys2Proof.Machine.execRawRead m v s
  | .start m n v => Sys2Proof.Machine.execStart m n v s
  | .abort m n v => Sys2Proof.Machine.execAbort m n v s
  | .dmaRequest line => Sys2Proof.Machine.execDmaRequest line s
  | .dmaSwreq m v => Sys2Proof.Machine.execDmaSwreq m v s
  | .dmaBeat => Sys2Proof.Machine.execDmaBeat s
  | .conversionDone sample => Sys2Proof.Machine.execConversionDone sample s
  | .hkaSwtrig m v => Sys2Proof.Machine.execHkaSwtrig m v s
  | .listTimer => Sys2Proof.Machine.execListTimer s
  | .hkTrigEdge rising => Sys2Proof.Machine.execHkTrigEdge rising s
  | .triggerDelayEnd scan urg left => Sys2Proof.Machine.execTriggerDelayEnd scan urg left s
  | .converterDisable m v => Sys2Proof.Machine.execConverterDisable m v s
  | .pwmPeriodStart k => Sys2Proof.Machine.execPwmPeriodStart k s
  | .pwmCompare k => Sys2Proof.Machine.execPwmCompare k s
  | .pwmEnable m k v => Sys2Proof.Machine.execPwmEnable m k v s
  | .filterInput f x => Sys2Proof.Machine.execFilterInput f x s
  | .fltRestart m v => Sys2Proof.Machine.execFltRestart m v s
  | .fltCfgWrite m f v => Sys2Proof.Machine.execFltCfgWrite m f v s
  | .groupRequest m v => Sys2Proof.Machine.execGroupRequest m v s
  | .quiesceVote inTime => Sys2Proof.Machine.execQuiesceVote inTime s
  | .ladderRung bad => Sys2Proof.Machine.execLadderRung bad s
  | .ladderComplete bad => Sys2Proof.Machine.execLadderComplete bad s
  | .lowPowerEnter m v => Sys2Proof.Machine.execLowPowerEnter m v s
  | .shutdownList found => Sys2Proof.Machine.execShutdownList found s
  | .wakeReq m v => Sys2Proof.Machine.execWakeReq m v s
  | .lpWake => Sys2Proof.Machine.execLpWake s
  | .thermalSample v => Sys2Proof.Machine.execThermalSample v s
  | .freeze m v => Sys2Proof.Machine.execFreeze m v s
  | .freezeRelease m v => Sys2Proof.Machine.execFreezeRelease m v s
  | .cntLo m k => Sys2Proof.Machine.execCntLo m k s
  | .cntSelWrite m k v => Sys2Proof.Machine.execCntSelWrite m k v s
  | .bwWindow rx tx => Sys2Proof.Machine.execBwWindow rx tx s
  | .bwCfgWrite m v => Sys2Proof.Machine.execBwCfgWrite m v s
  | .hlnPatBitsLo m l => Sys2Proof.Machine.execHlnPatBitsLo m l s
  | .patternGeneratorEnable m l v => Sys2Proof.Machine.execPatternGeneratorEnable m l v s
  | .errInj m l v => Sys2Proof.Machine.execErrInj m l v s
  | .lockoutEnd => Sys2Proof.Machine.execLockoutEnd s
  | .nonceExpiry => Sys2Proof.Machine.execNonceExpiry s
  | .i3cCcc c => Sys2Proof.Machine.execI3cCcc c s
  | .registerWrite m i3c a width v also => Sys2Proof.Machine.execRegisterWrite m i3c a width v also s
  | .blindAdaptationDone n => Sys2Proof.Machine.execBlindAdaptationDone n s
  | .adaptationWindow n a => Sys2Proof.Machine.execAdaptationWindow n a s
  | .keepaliveReceived p => Sys2Proof.Machine.execKeepaliveReceived p s
  | .sidebandTransmission p collision => Sys2Proof.Machine.execSidebandTransmission p collision s
  | .commandTimeLimit o => Sys2Proof.Machine.execCommandTimeLimit o s
  | .coreSupplyGood => Sys2Proof.Machine.execCoreSupplyGood s
  | .vddioLoss => Sys2Proof.Machine.execVddioLoss s
  | .vddioRestored v33 => Sys2Proof.Machine.execVddioRestored v33 s
  | .readToClear m i3c a width also => Sys2Proof.Machine.execReadToClear m i3c a width also s

end Sys2Proof.Machine
end

