-- ==== Sys2Proof/Machine/Tick.lean ====
section
/-! DEFINITION. What a cycle does while no command waits (spec/13 R336; spec/19 R447): the event timestamp and the time-base counters.
The table has no row for a clock edge, so the step gives it to the empty queue (a DESIGN CHOICE, notes/assumptions). -/

namespace Sys2Proof.Machine

/-- How far the timestamp advances in a cycle of the clock that `PD_AON` runs on: 1 on CLK_PER, 3462 on the ring oscillator (R336).
Log 1 (DESIGN CHOICE). -/
def Chip.tickLength (s : Chip) : Nat := if s.flag CLK_WHORL_STATUS.RING_OSC_ON then 3462 else 1

/-- One cycle: the timestamp advances, and on CLK_PER the counters of KIND 2 count (R447). Log 1 (DESIGN CHOICE). -/
def Chip.tick (s : Chip) : Chip :=
  let t : Chip := { s with evt := { s.evt with time := (s.evt.time + s.tickLength) % 2 ^ 48 } }
  if s.flag CLK_WHORL_STATUS.RING_OSC_ON then t else t.count (fun k _ => k == 2) 1

/-- Images that may start do: their spindles synchronise (R277). Log 132 (DESIGN CHOICE). -/
def Chip.startImages (s : Chip) : Chip := s.forAll [0, 1] (fun s b => if s.mayStart b then s.startImage b else s)

/-- A cycle in which no command is taken.
Log 1 (DESIGN CHOICE), 83 (DEDUCED), 132 (DESIGN CHOICE), 136 (DESIGN CHOICE). -/
def State.idle (s : State) : State := s.onChip (fun c => c.tick.startImages.genTick.writeSnaps)

end Sys2Proof.Machine
end

