-- ==== Sys2Proof/Safety.lean ====
section
/-! DEFINITION. What a state keeps from step to step, in the terms the claims use: the memory and the register table in canonical form,
the distaff's holder, the queue. -/

namespace Sys2Proof.Machine

/-- The canonical form of the state's sparse tables that every step rewrites: memory bytes and registers. -/
def Chip.tablesWf (s : Chip) : Bool := Memory.wf s.mem && tabWf resetWord s.regs

/-- The distaff as the rules allow it: the holder is none, A or B, a holder is not fenced, and EPOCH never passes its top (R281). -/
def Distaff.legal (d : Distaff) : Bool :=
  decide (d.holder ≤ 2) && !(d.holder == 1 && d.fencedA) && !(d.holder == 2 && d.fencedB) && decide (d.epoch ≤ epochMax)

/-- A master's write to the management address `a` reaches the register: the master is not cut off and the access passes every check of
R19 at the master's level. -/
def State.admits (s : State) (m : Master) (a : Nat) : Prop :=
  s.chip.cutOff m = false ∧ (s.chip.checkAccess (s.chip.masterLevel m) a 32 true).isSome = true

/-- A master's write to `a` is refused: the master is not cut off and a check of R19 fails. -/
def State.refuses (s : State) (m : Master) (a : Nat) : Prop :=
  s.chip.cutOff m = false ∧ s.chip.checkAccess (s.chip.masterLevel m) a 32 true = none

/-- A master's read of the management address `a` reaches the register: it is not cut off and the access passes every check of R19. -/
def State.admitsRead (s : State) (m : Master) (a : Nat) : Prop :=
  s.chip.cutOff m = false ∧ (s.chip.checkAccess (s.chip.masterLevel m) a 32 false).isSome = true

/-- Both a read and a write of `a` would reach the register, so that a read also has its clearing effect (R453). -/
def State.readsAndClears (s : State) (m : Master) (a : Nat) : Prop := s.admitsRead m a ∧ s.admits m a

/-- The state in which the answer of the fabric to a master's last access is as given and nothing else has changed. -/
def State.answered (s : State) (m : Master) (err : Bool) : State := { s with chip := s.chip.answer m err 0 }

/-- A command from `src` with opcode `op` is the one that the holder takes, it need not wait, and it passes steps 1 to 5 of R306:
`c` is the part as it has been taken and `r` the request. -/
def State.takes (s : State) (src : CmdSrc) (op : Nat) (c : Chip) (r : Req) : Prop := s.chip.accept src op = (c, some r)

/-- The registers of the ECC block. -/
def eccReg (a : Nat) : Bool := decide (0xB0000 ≤ a) && decide (a < 0xC0000)

/-- The registers that serving a command may touch: the ring's producer index, those of ECC, and the Fleyth drop counts. -/
def serveReg (a : Nat) : Bool := a == MBX_CPL_PROD.addr || eccReg a || a == FLY_CNT_DROP.addr

/-- The registers that settling may touch, but for the step of the start and the fray registers: those that serving touches, those of
FLY and CRL, and the lane status of TWF. -/
def lanesReg (a : Nat) : Bool :=
  serveReg a || (decide (0xC0000 ≤ a) && decide (a < 0xD0000)) || (decide (0x400000 ≤ a) && decide (a < 0x410000)) ||
    (decide (0x410200 ≤ a) && decide (a < 0x410320))

/-- The registers that settling may touch. -/
def settleReg (a : Nat) : Bool :=
  lanesReg a || a == GLB_BOOT_STATUS.addr || a == GLB_FRAY_STATUS.addr || a == GLB_FRAY_HIST.addr

/-- From `s` to `t` OTP and the distaff stay, and so does every register but those from `lo` up to `hi` and those that settling may
touch. -/
def State.within (s t : State) (lo hi : Nat) : Prop :=
  t.fuse = s.fuse ∧ t.dist = s.dist ∧ ∀ a, a < lo ∨ hi ≤ a → settleReg a = false → t.chip.reg a = s.chip.reg a

/-- What the datapath leaves alone. -/
structure Still where
  pmu : Pmu
  thm : Thm
  spn : Spindles
  sess : Session
  alarms : Vector HkAlarm 22
  answers : Vector BusAnswer 4
  dma : Dma
  hka : Hka
  flt : Vector FltCh 31
  jtag : Jtag
  i3c : I3c
  straps : Nat
  fwReadySeen : Bool
  limited : Bool
  regs : Nat → Word

/-- The windows of PMU, THM, GRD, CNT, HKA, FLT and DMA, and GLB but for the step of the start and the fray registers. -/
def quiet (a : Nat) : Bool :=
  (decide (a < 0x10000) && a != GLB_BOOT_STATUS.addr && a != GLB_FRAY_STATUS.addr && a != GLB_FRAY_HIST.addr) ||
    (decide (0x30000 ≤ a) && decide (a < 0x50000)) || (decide (0x60000 ≤ a) && decide (a < 0xB0000))

/-- The part's state of that kind; the records of retired bobbins (R233) and of lanes marked failed (R266), which the datapath writes,
are no part of it. -/
def Chip.still (s : Chip) : Still :=
  ⟨{ s.pmu with retired := 0, failed := 0 }, s.thm, s.spn, s.sess, s.alarms, s.answers, s.dma, s.hka, s.flt, s.jtag, s.i3c, s.straps, s.fwReadySeen, s.limited,
    fun a => if quiet a = true then s.reg a else 0⟩

/-- The commands of the datapath and those that only report: host and line lanes, framing, hanks, the creel, the Ply lane, Fleyth, the
ports' enables, the system commands and the posting of completions. -/
def isDatapath : Instr → Bool
  | .hqUnlock _ | .hqRelock _ _ | .hostLos _ | .hostSignalReturn _ | .hostRelock _ | .hostWatchExpiry _ _ | .twistHFrame _ _ _
  | .handoff _ _ | .echoTimeout _ _ | .trainingTimeout _ | .trainingRetry _ _ | .ieeeTrainingFrame _ _ _ | .trainingFallback _
  | .fixedTrained _ _ _ | .dataFrame _ _ | .hostTxShort _ _ _ | .foregroundCalibrationDone _ | .lineSignal _ | .snrWindow _ _
  | .adcCalUpdate _ _ | .llrScaleUpdate _ _ | .goodSet _ | .voltStep _ | .voltReturn _ | .tapWord _ | .tapChange _ | .ttSwap _
  | .tapTimeout _ | .lineTxShort _ _ | .snapshot _ | .snapshotGuardEnd _ | .checkpoint _ | .checkpointCommit _ | .pageInStart
  | .frameSend _ _ | .twistFrame _ _ | .portRateFault _ | .rateFaultClear _ | .ieeeAlignLoss _ | .portSkew _ _ | .codewordArrival _ _
  | .slotBoundary _ _ _ _ | .spareRotation | .codewordRelease _ _ | .rsCodeword _ _ | .plyDown | .laneLost _ | .heldCompletionPost
  | .moderationTimeout | .sysInfo _ | .sysEcho _ | .sysTime _ | .sysCfgSave _ | .enablePort _ | .disablePort _ | .getPortMap _
  | .hostTrainCfg _ | .hostRetrain _ _ | .hostLaneStatus _ | .hostTxSet _ | .lineRxStatus _ | .lineRxCfg _ | .lineRetrain _
  | .lineCapture _ | .captureEnd _ _ | .lineTxStatus _ | .lineTxCfg _ | .lineTxTable _ | .hankPolicy _ | .hankStatus _ | .hankRead _
  | .hankWrite _ | .hankPin _ | .hankUnpin _ | .hankLoad _ | .hankFlush _ | .creelCfg _ | .creelStatus _ | .creelStats _
  | .creelRsStats _ | .plyStatus _ | .plyMirror _ | .plySubst _ | .telPort _ | .flyRequest _ | .flyCfg _ | .flyNodes _ | .guardGet _
  | .hkRead _ | .requestExpiry _ | .linkDown _ | .notify | .blindAdaptationDone _ | .adaptationWindow _ _ | .keepaliveReceived _
  | .sidebandTransmission _ _ => true
  | _ => false

/-- Does such a command reach further from state `s`: the end of a capture whose request line some DMA channel takes (R389), and the
posting of a LOW_POWER's completion, with which the entry begins (R322)? -/
def reachesFurther (s : State) : Instr → Bool
  | .captureEnd n _ => (List.range 16).any (fun k => s.chip.fld (DMA_CFG.REQ k) == n.1)
  | .heldCompletionPost => s.chip.mbx.held.head?.elim false Completion.lowPower
  | _ => false

/-- A run is safe for a claim about `k` steps: each of them answers a next state, which meets `ok`. -/
def safeFor (ok : State → Bool) : Nat → State → Bool
  | 0, s => ok s
  | k + 1, s =>
    ok s && (match step s with
      | .next t => safeFor ok k t
      | .fault _ | .refused _ => false)

end Sys2Proof.Machine
end

