-- ==== Sys2Proof/Certificates/Slice0/Obligations.lean ====
section
/-! DEFINITION. The statements about the CX6408 model, by the chapters of spec/: what each command does where it completes, what it
leaves alone, and what every step keeps. -/

section Statements

open Sys2Proof Sys2Proof.Machine

/-! ### The machine -/

/-- A step takes the command at the front of the queue and is that command's effect on the state with the rest of the queue. -/
def Obligations.StepRunsFrontCommand : Prop :=
  ∀ (c : Instr) (q : List Instr) (s : State), step { s with pending := c :: q } = exec c { s with pending := q }

/-- R336, R447: with no command waiting one cycle passes: the 48-bit timestamp advances (by 1 on CLK_PER, by 3462 on the ring
oscillator), every running pattern generator goes on and every snapshot stands written, a sound image whose spindle may start makes it
SYNC, and no register but that spindle's version, no memory byte, OTP bit or distaff field changes (that the empty queue stands for a
cycle, and that an image starts in it, are the model's choices, log entries 1, 83, 132 and 136). -/
def Obligations.EmptyQueueLetsOneCyclePass : Prop :=
  ∀ s : State, s.pending = [] →
    ∃ t, step s = .next t ∧
      t.chip.evt.time = (s.chip.evt.time + if s.chip.flag CLK_WHORL_STATUS.RING_OSC_ON then 3462 else 1) % 2 ^ 48 ∧
      (∀ a, a ≠ GRD_SPN_STATUS.addr → t.chip.reg a = s.chip.reg a) ∧ (∀ x ∈ t.chip.hnk.snaps, x.written = true) ∧
      (∀ b, b < 2 → t.chip.roleOf b = if s.chip.mayStart b then .sync else s.chip.roleOf b) ∧
      t.chip.mem = s.chip.mem ∧ t.fuse = s.fuse ∧ t.dist = s.dist ∧ t.pending = []

/-- Every command ends in a next state in every state, and leaves the queue of waiting commands alone. -/
def Obligations.EveryCommandAnswersNext : Prop :=
  ∀ (i : Instr) (s : State), ∃ t, exec i s = .next t ∧ t.pending = s.pending

/-- The state after reset obeys R281: no holder, EPOCH 0 and no fence (R284, POR), with no command waiting; and its memories and
registers are in canonical form. -/
def Obligations.ResetDistaffAndTables : Prop :=
  State.reset.dist = ⟨0, 0, false, false⟩ ∧ State.reset.dist.legal = true ∧ State.reset.pending = [] ∧
    Memory.wf State.reset.chip.mem = true ∧ State.reset.chip.tablesWf = true

/-- R281: whatever a step does, the distaff stays legal: the holder is none, A or B, no holder is fenced, EPOCH never passes its top. -/
def Obligations.EveryStepKeepsDistaffLegal : Prop :=
  ∀ s t : State, s.dist.legal = true → step s = .next t → t.dist.legal = true

/-- R281, R284: EPOCH never falls, but at a power-on reset, which clears it. -/
def Obligations.EpochNeverFalls : Prop :=
  ∀ (i : Instr) (s t : State), exec i s = .next t →
    (∃ straps supplies also, i = .powerOnReset straps supplies also ∧ t.dist = ⟨0, 0, false, false⟩) ∨ s.dist.epoch ≤ t.dist.epoch

/-- R47, R468, R470: OTP bits are only ever programmed: no step lowers the lifecycle, changes the unit identity or the fused voltage,
removes or changes a programmed owner key, or takes the key-kill group back. -/
def Obligations.OtpIsNeverErased : Prop :=
  ∀ s t : State, step s = .next t →
    s.fuse.lifecycle ≤ t.fuse.lifecycle ∧ t.fuse.unitId = s.fuse.unitId ∧ t.fuse.coreTarget = s.fuse.coreTarget ∧
      t.fuse.coreFused = s.fuse.coreFused ∧ (∀ k, s.fuse.ownerKey = some k → t.fuse.ownerKey = some k) ∧
      (s.fuse.keyKilled = true → t.fuse.keyKilled = true)

/-- R4, R19, R46: the register writes that have a command of their own. A write that a check of R19 refuses answers the master with a
bus error and changes nothing else; the host's write while VDDIO is low changes nothing at all. -/
def Obligations.RefusedRegisterWrites : Prop :=
  ∀ (s : State) (m : Master) (v : Word) (k : Fin 16) (w : Fin 64) (also : DistCycle),
    (s.refuses m MBX_DOORBELL.addr → exec (.doorbell m v) s = .next (s.answered m true)) ∧
    (s.refuses m (0x11000 + 0x100 * k.1 + 4 * w.1) → exec (.slotWrite m k w v) s = .next (s.answered m true)) ∧
    (s.refuses m MBX_SLOT_FREE.addr → exec (.slotFree m v) s = .next (s.answered m true)) ∧
    (s.refuses m GRD_CLAIM.addr → exec (.claim m v also) s = .next (s.answered m true)) ∧
    (s.refuses m GRD_DISTAFF_CTRL.addr → exec (.release m v also) s = .next (s.answered m true)) ∧
    (s.refuses m GLB_RST_CTRL.addr → exec (.softwareChipReset m v []) s = .next (s.answered m true)) ∧
    (s.refuses m PMU_GRP_REQ.addr → exec (.groupRequest m v) s = .next (s.answered m true)) ∧
    (s.chip.flag GLB_SUPPLY_STATUS.IO_OK = false → exec (.doorbell .host v) s = .next s ∧ exec (.slotFree .host v) s = .next s ∧
      exec (.claim .host v also) s = .next s)

/-! ### The distaff and the spindles (spec/11) -/

/-- R281, R282, R285: a spindle claims alone in its cycle. A valid claim wins: HOLDER is the claimant, EPOCH the proposed epoch, its
result is WON, and the other spindle is fenced if it held the distaff. A fenced spindle's claim, and one that does not exceed EPOCH, is STALE
and changes nothing of the distaff. Neither stores to memory. Where both claim validly in one cycle, the greater epoch wins, Spindle A at
equal ones, and the other is fenced. -/
def Obligations.ClaimIsWonOrStale : Prop :=
  (∀ (s : State) (x : Spindle) (e : Word), s.admits x.master GRD_CLAIM.addr → ∃ t, exec (.claim x.master e {}) s = .next t ∧
     t.chip.mem = s.chip.mem ∧ t.fuse = s.fuse ∧
     (s.dist.fenced (spNum x) = false ∧ s.dist.epoch < e.toNat →
       t.dist.holder = spNum x ∧ t.dist.epoch = e.toNat ∧ t.dist.fenced (spNum x) = false ∧
       (t.dist.fenced (spNum x.other) = true ↔ (s.dist.holder ≠ 0 ∧ s.dist.holder ≠ spNum x) ∨ s.dist.fenced (spNum x.other) = true) ∧
       t.chip.fld (if x = .a then GRD_CLAIM_RESULT.RESULT_A else GRD_CLAIM_RESULT.RESULT_B) = 1) ∧
     (s.dist.fenced (spNum x) = true ∨ e.toNat ≤ s.dist.epoch →
       t.dist = s.dist ∧ t.chip.fld (if x = .a then GRD_CLAIM_RESULT.RESULT_A else GRD_CLAIM_RESULT.RESULT_B) = 3)) ∧
  (∀ (s : State) (a b : Word), s.admits .spindleA GRD_CLAIM.addr →
     s.dist.fencedA = false → s.dist.fencedB = false → s.dist.epoch < a.toNat → s.dist.epoch < b.toNat →
     ∃ t, exec (.claim .spindleA a { claimB := some b }) s = .next t ∧
       (b.toNat ≤ a.toNat → t.dist = ⟨1, a.toNat, false, true⟩ ∧ t.chip.fld GRD_CLAIM_RESULT.RESULT_A = 1 ∧
         t.chip.fld GRD_CLAIM_RESULT.RESULT_B = 2) ∧
       (a.toNat < b.toNat → t.dist = ⟨2, b.toNat, true, false⟩ ∧ t.chip.fld GRD_CLAIM_RESULT.RESULT_A = 2 ∧
         t.chip.fld GRD_CLAIM_RESULT.RESULT_B = 1))

/-- R281, R302: the control writes of the distaff. The holder's RELEASE with the KEY leaves no holder; its HANDOVER gives the distaff to a
standby that is ready, with EPOCH + 1, and is refused otherwise; a write by a spindle that is not the holder, or without the KEY, changes
nothing of the distaff. -/
def Obligations.ReleaseAndHandover : Prop :=
  ∀ (s : State) (x : Spindle) (v : Word), s.admits x.master GRD_DISTAFF_CTRL.addr →
    (s.dist.holder = spNum x → getBits v 16 16 = 0xD157 → getBits v 1 1 = 0 → getBits v 0 1 = 1 →
      ∃ t, exec (.release x.master v {}) s = .next t ∧ t.dist = { s.dist with holder := 0 }) ∧
    (s.dist.holder = spNum x → getBits v 16 16 = 0xD157 → getBits v 1 1 = 1 →
      ∃ t, exec (.handover x.master v {}) s = .next t ∧
        (s.chip.roleOf (spNum x.other - 1) = .standby ∧ s.dist.fenced (spNum x.other) = false ∧ s.dist.epoch < 0xFFFFFFFF →
          t.dist = { s.dist with holder := spNum x.other, epoch := s.dist.epoch + 1 }) ∧
        (s.chip.roleOf (spNum x.other - 1) ≠ .standby ∨ s.dist.fenced (spNum x.other) = true ∨ s.dist.epoch = 0xFFFFFFFF →
          t.dist = s.dist ∧ t.chip.fld (if x = .a then GRD_CLAIM_RESULT.RESULT_A else GRD_CLAIM_RESULT.RESULT_B) = 4)) ∧
    (s.dist.holder ≠ spNum x ∨ getBits v 16 16 ≠ 0xD157 →
      ∃ t, exec (.release x.master v {}) s = .next t ∧ exec (.handover x.master v {}) s = .next t ∧ t.dist = s.dist)

/-- R281, R284, R285: a spindle's watchdog expires while its domain is ON. The holder's passes the distaff to a ready standby with
EPOCH + 1, and leaves no holder where none is ready; a non-holder's changes neither holder nor epoch; each clears that spindle's fence.
WDT_A or WDT_B of GLB_RST_STATUS is set. -/
def Obligations.WatchdogAtTheDistaff : Prop :=
  ∀ (s : State) (x : Spindle), s.chip.pdOn (spNum x) = true → s.chip.spn.update = none →
    ∃ t, exec (.spindleWatchdog x {}) s = .next t ∧
      t.chip.flag (if x = .a then GLB_RST_STATUS.WDT_A else GLB_RST_STATUS.WDT_B) = true ∧
      t.dist.fenced (spNum x) = false ∧ t.dist.fenced (spNum x.other) = s.dist.fenced (spNum x.other) ∧
      (s.dist.holder ≠ spNum x → t.dist.holder = s.dist.holder ∧ t.dist.epoch = s.dist.epoch) ∧
      (s.dist.holder = spNum x →
        (s.chip.roleOf (spNum x.other - 1) = .standby ∧ s.dist.fenced (spNum x.other) = false ∧ s.dist.epoch < 0xFFFFFFFF →
          t.dist.holder = spNum x.other ∧ t.dist.epoch = s.dist.epoch + 1) ∧
        (s.chip.roleOf (spNum x.other - 1) ≠ .standby ∨ s.dist.fenced (spNum x.other) = true ∨ s.dist.epoch = 0xFFFFFFFF →
          t.dist.holder = 0 ∧ t.dist.epoch = s.dist.epoch))

/-- R279, R282, R283, R302: the other commands at the distaff. A spindle's write of 1 to its own FENCED bit clears its fence alone; with no
holder and Krelin running, the claim of R283 proposes EPOCH + 1; a kick of the watchdog and a write to `GRD_SPN_CTRL` by a spindle
that is not the holder change nothing but the answer; the holder's restart of the other spindle's domain takes that spindle to BOOT and
clears its fence. -/
def Obligations.FenceClaimAndRestart : Prop :=
  ∀ (s : State) (x : Spindle) (v : Word),
    (s.admits x.master GRD_DISTAFF.addr → getBits v (if x = .a then 4 else 5) 1 = 1 →
      ∃ t, exec (.fenceClear x.master v {}) s = .next t ∧ t.dist = s.dist.setFence (spNum x) false) ∧
    (s.dist.holder = 0 → s.dist.epoch < 0xFFFFFFFF → s.chip.flag GLB_BOOT_STATUS.FW_READY = true → s.dist.fencedA = false →
      s.chip.roleOf 0 ≠ .off → s.chip.pdOn 1 = true →
      ∃ t, exec (.holderlessClaim true false) s = .next t ∧ t.dist = { s.dist with holder := 1, epoch := s.dist.epoch + 1 }) ∧
    (s.admits x.master GRD_WDT_KICK.addr → exec (.wdtKick x.master v) s = .next (s.answered x.master false)) ∧
    (s.admits x.master GRD_SPN_CTRL.addr → s.dist.holder ≠ spNum x →
      exec (.spindleRestart x.master v) s = .next (s.answered x.master false)) ∧
    (s.admits x.master GRD_SPN_CTRL.addr → s.dist.holder = spNum x → getBits v 16 16 = 0xD157 →
      getBits v (if x = .a then 0 else 1) 1 = 0 → getBits v (if x = .a then 1 else 0) 1 = 1 → s.chip.pdOn (spNum x.other) = true →
      ∃ t, exec (.spindleRestart x.master v) s = .next t ∧ t.dist = s.dist.setFence (spNum x.other) false ∧
        t.chip.roleOf (spNum x.other - 1) = .boot)

/-- R277, R280, R286, R287, R291: a spindle that synchronises, or whose sound image may start, becomes STANDBY outside an update (from when
an image may start is the model's choice, log entry 132); a spindle with its domain ON that is neither standby nor holder is reported down; a holder that has taken over opens the mailbox
and serves what waits; a takeover drops what was held and what was executing; the end of probation restarts the old spindle. -/
def Obligations.SpindlesComeAndGo : Prop :=
  ∀ (s : State) (x : Spindle),
    ((s.chip.roleOf (spNum x - 1) = .sync ∨ s.chip.mayStart (spNum x - 1) = true) → s.chip.pdOn (spNum x) = true → s.chip.spn.update = none →
      ∃ t, exec (.spindleSyncDone x) s = .next t ∧ t.chip.roleOf (spNum x - 1) = .standby ∧ t.dist = s.dist ∧ t.chip.mem = s.chip.mem) ∧
    (s.standby (spNum x - 1) = false → s.dist.holder ≠ spNum x → s.chip.pdOn (spNum x) = true →
      exec (.spindleDown x) s = .next { s with chip := s.chip.raise 0x1B3 0 }) ∧
    (s.dist.holder ≠ 0 → s.chip.spn.takeover = false → s.chip.flag MBX_STATUS.OPEN = false → s.chip.spn.update = none →
      exec .mbxOpen s =
        .next { s with chip := ((s.chip.setFlag MBX_STATUS.OPEN true).setFlag MBX_STATUS.QUIESCED false).serve }) ∧
    (s.chip.spn.takeover = true → s.dist.holder ≠ 0 → (∀ i, i < 16 → s.chip.slot i ≠ .executing) →
      ∃ t, exec .takeover s = .next t ∧ t.chip.mbx.held = [] ∧ t.chip.mbx.exec = [] ∧ t.chip.spn.takeover = false) ∧
    (∀ u, s.chip.spn.update = some u → u.phase = .probation → u.old = spNum x → s.dist.holder ≠ u.old → s.dist.holder ≠ 0 →
      ∃ t, exec .probationEnd s = .next t ∧ t.chip.spn.update = some { u with phase := .finishing } ∧
        t.chip.roleOf (spNum x - 1) = .boot ∧ t.dist.holder = s.dist.holder)

/-! ### Resets, clocks, start-up and supplies (spec/02) -/

/-- R32, R35, R49, R52, R284, R487: a power-on reset returns every register to its reset value but those that show the reset sources, the
supplies, the straps, OTP, the session and the step of the start; it empties the memories, frees the slots, clears the distaff and
keeps OTP and flash. Where several reset sources act in one cycle, the widest is performed and every one leaves its bit: here a power-on
reset with a watchdog, and RESET_N with both watchdogs. -/
def Obligations.PowerOnResetState : Prop :=
  (∀ (s : State) (straps : Fin 8) (supplies : Fin 32) (also : List ResetSource),
     ∃ t, exec (.powerOnReset straps supplies also) s = .next t ∧ t.fuse = s.fuse ∧ t.dist = ⟨0, 0, false, false⟩ ∧
       t.chip.flash = s.chip.flash ∧ t.chip.mem = [] ∧ t.chip.mbx = {} ∧ t.chip.pmu = {} ∧ t.chip.limited = true ∧
       t.chip.straps = straps.1 ∧ t.chip.flag GLB_RST_STATUS.POR = true ∧ t.chip.fld GLB_BOOT_STATUS.STEP = 1 ∧
       (t.chip.reg GLB_SUPPLY_STATUS.addr).toNat = 2 * supplies.1 + 1 ∧
       ∀ a, a ∉ [GLB_RST_STATUS.addr, GLB_SUPPLY_STATUS.addr, GLB_STRAPS.addr, GLB_AVS.addr, GLB_BOOT_STATUS.addr, GRD_LC.addr,
         GRD_SESSION.addr, TWF_UNIT_ID_LO.addr, TWF_UNIT_ID_HI.addr] → t.chip.reg a = resetWord a) ∧
  (∀ (s : State) (k : Fin 8) (v : Fin 32) (r : ResetSource) (also : List ResetSource), r ∈ also →
     (∃ t, exec (.powerOnReset k v also) s = .next t ∧ t.chip.flag GLB_RST_STATUS.POR = true ∧ t.chip.flag (resetFlag r) = true) ∧
     (r ≠ .por → ∃ t, exec (.resetN k also) s = .next t ∧ t.chip.flag GLB_RST_STATUS.PIN = true ∧ t.chip.flag (resetFlag r) = true))

/-- R32, R33, R284, R301, R376: RESET_N, a software chip reset and a core supply loss keep OTP, flash, EPOCH, the ECC address log and the
config shadow's bytes, and clear the holder and the fences, every slot and every other memory byte; each sets its bit of
GLB_RST_STATUS. R50: a write to GLB_RST_CTRL that the guard table allows resets the chip where it brings the key and CHIP, and is ignored
without a bus error where it does not. -/
def Obligations.PinSoftAndSupplyResets : Prop :=
  ∀ (s : State) (straps : Fin 8) (v : Word),
    let after := fun (t : State) (f : Fld) => t.fuse = s.fuse ∧ t.dist = { s.dist with holder := 0, fencedA := false, fencedB := false } ∧
      t.chip.flash = s.chip.flash ∧ t.chip.mbx = {} ∧ t.chip.limited = true ∧ t.chip.flag f = true ∧
      (∀ a, 0xE00000 ≤ a → a < 0xE40000 → t.chip.byte a = s.chip.byte a) ∧
      (∀ a, a < 0xE00000 ∨ 0xE40000 ≤ a → t.chip.byte a = 0) ∧
      (∀ a, 0xB0100 ≤ a → a < 0xB0200 → t.chip.reg a = s.chip.reg a)
    (∃ t, exec (.resetN straps []) s = .next t ∧ after t GLB_RST_STATUS.PIN ∧ t.chip.straps = straps.1) ∧
    (∀ m : Master, s.admits m GLB_RST_CTRL.addr →
      (getBits v 16 16 = 0x6408 → getBits v 0 1 = 1 → ∃ t, exec (.softwareChipReset m v []) s = .next t ∧ after t GLB_RST_STATUS.SOFT) ∧
      (getBits v 16 16 ≠ 0x6408 ∨ getBits v 0 1 = 0 → exec (.softwareChipReset m v []) s = .next (s.answered m false))) ∧
    (s.chip.flag GLB_SUPPLY_STATUS.CORE_OK = true →
      ∃ t, exec (.coreSupplyLoss []) s = .next t ∧ after t GLB_RST_STATUS.SUPPLY ∧ t.chip.flag GLB_SUPPLY_STATUS.CORE_OK = false)

/-- R29, R32, R284, R301: a Whorl restart of a locked Whorl with REFCLK present keeps the memories' bytes, the slots, OTP, flash and EPOCH,
releases the distaff, turns the host and line domains off and sets WHORL of GLB_RST_STATUS. -/
def Obligations.WhorlRestartKeepsMailbox : Prop :=
  ∀ s : State, s.chip.flag CLK_WHORL_STATUS.LOCK = true → s.chip.flag CLK_WHORL_STATUS.REFCLK_OK = true →
    ∃ t, exec (.whorlRestart []) s = .next t ∧ t.fuse = s.fuse ∧
      t.dist = { s.dist with holder := 0, fencedA := false, fencedB := false } ∧ t.chip.mem = s.chip.mem ∧
      t.chip.mbx.slots = s.chip.mbx.slots ∧ t.chip.flash = s.chip.flash ∧ t.chip.limited = true ∧
      t.chip.flag GLB_RST_STATUS.WHORL = true ∧ t.chip.fld GLB_BOOT_STATUS.STEP = 2 ∧
      ∀ d, 3 ≤ d → d ≤ 15 → t.chip.pdOf d = .off

/-- R24, R27, R28, R30, R32, R46: clocks, the TAP and the supplies' own flags. The loss of VDDA_HS or VDDA_HV clears its supply flag and
turns every host and line domain off; at its return the flags of the supplies named are set again. -/
def Obligations.ClocksAndSupplyFlags : Prop :=
  (∀ s : State,
     exec .jtagTapReset s = .next { s with chip := { s.chip with jtag := {} } } ∧
     (s.chip.flag CLK_WHORL_STATUS.LOCK = true → s.chip.flag CLK_WHORL_STATUS.HOLDOVER = false →
       ∃ t, exec .holdover s = .next t ∧ t.chip.flag CLK_WHORL_STATUS.REFCLK_OK = false ∧ t.chip.flag CLK_WHORL_STATUS.HOLDOVER = true ∧
         t.chip.flag CLK_WHORL_STATUS.LOCK = true ∧ t.chip.mem = s.chip.mem) ∧
     (∀ off : Int, ∃ t, exec (.refclkReturn off) s = .next t ∧ t.chip.flag CLK_WHORL_STATUS.REFCLK_OK = true ∧
       t.chip.start.slew = (s.chip.flag CLK_WHORL_STATUS.HOLDOVER && decide (off.natAbs ≤ 20000)) ∧ t.chip.mem = s.chip.mem) ∧
     (s.chip.flag CLK_WHORL_STATUS.HOLDOVER = true → s.chip.start.slew = true →
       ∃ t, exec .whorlRecovered s = .next t ∧ t.chip.flag CLK_WHORL_STATUS.HOLDOVER = false ∧ t.chip.start.slew = false ∧
         t.chip.mem = s.chip.mem) ∧
     (s.chip.fld GLB_BOOT_STATUS.STEP = 2 → s.chip.flag CLK_WHORL_STATUS.LOCK = false →
       ∃ t, exec .whorlLock s = .next t ∧ t.chip.flag CLK_WHORL_STATUS.LOCK = true ∧ t.chip.flag CLK_WHORL_STATUS.RING_OSC_ON = false ∧
         t.chip.fld GLB_BOOT_STATUS.STEP = 3 ∧ t.chip.flag PMU_LADDER.RDY_OSC = true ∧ t.chip.limited = false ∧ t.chip.mem = s.chip.mem) ∧
     (∃ t, exec .coreSupplyGood s = .next t ∧ t.chip.flag GLB_SUPPLY_STATUS.CORE_OK = true ∧ t.chip.mem = s.chip.mem) ∧
     (∃ t, exec .vddioLoss s = .next t ∧ t.chip.flag GLB_SUPPLY_STATUS.IO_OK = false ∧ t.chip.i3c = {} ∧ t.chip.mem = s.chip.mem) ∧
     (∀ b : Bool, ∃ t, exec (.vddioRestored b) s = .next t ∧ t.chip.flag GLB_SUPPLY_STATUS.IO_OK = true ∧
       t.chip.flag GLB_SUPPLY_STATUS.IO_3V3 = b ∧ t.chip.i3c = s.chip.i3c ∧ t.chip.mem = s.chip.mem)) ∧
  (∀ (s : State) (hs hv : Bool) (legs : BitVec 16), hs = true ∨ hv = true →
     (∃ t, exec (.analogSupplyLoss hs hv) s = .next t ∧ (hs = true → t.chip.flag GLB_SUPPLY_STATUS.HS_OK = false) ∧
       (hv = true → t.chip.flag GLB_SUPPLY_STATUS.HV_OK = false) ∧ ∀ d, 3 ≤ d → d ≤ 15 → t.chip.pdOf d = .off) ∧
     (∃ t, exec (.analogSupplyRestored hs hv legs) s = .next t ∧ (hs = true → t.chip.flag GLB_SUPPLY_STATUS.HS_OK = true) ∧
       (hv = true → t.chip.flag GLB_SUPPLY_STATUS.HV_OK = true)))

/-- R37 to R43, R283, R479, R490: the steps of the start, each from the state that its rule names: what GLB_BOOT_STATUS, the ladder and
the distaff show after it. -/
def Obligations.StartUpSteps : Prop :=
  ∀ (s : State) (legs : BitVec 16) (found : List DoffEntry) (waited : Bool) (microvolts : Nat),
    (s.chip.fld GLB_BOOT_STATUS.STEP ≤ 1 → s.chip.flag GLB_SUPPLY_STATUS.CORE_OK = true → s.chip.flag THM_STATUS.TRIP = false →
      s.chip.pmu.lowPower = false → s.chip.flag CLK_WHORL_STATUS.LOCK = false →
      ∃ t, exec .rdyReg s = .next t ∧ t.chip.fld GLB_BOOT_STATUS.STEP = 2 ∧ t.chip.flag PMU_LADDER.RDY_REG = true ∧
        ∀ d ∈ [1, 2, 16, 17, 18, 19, 20, 21], t.chip.pdOf d = .on) ∧
    (s.chip.fld GLB_BOOT_STATUS.STEP = 3 →
      ∃ t, exec .doffRecordSelect s = .next t ∧ t.chip.fld GLB_BOOT_STATUS.STEP = 5 ∧ t.chip.flag PMU_LADDER.RDY_MEM = true ∧
        t.chip.flag PMU_LADDER.RDY_LOG = true ∧ t.chip.roleOf 0 = .boot ∧ t.chip.roleOf 1 = .boot) ∧
    (s.chip.fld GLB_BOOT_STATUS.STEP = 5 → s.chip.flag GLB_BOOT_STATUS.DOFF_VALID = false →
      ∃ t, exec (.startUpCheck found) s = .next t ∧ t.chip.fld GLB_BOOT_STATUS.STEP = 6 ∧ t.chip.flag GLB_BOOT_STATUS.CHECK_RUN = true) ∧
    (s.chip.fld GLB_BOOT_STATUS.STEP = 6 → s.chip.flag GLB_BOOT_STATUS.WAIT_HOST = false →
      (∀ k i l, s.chip.candidates s.fuse = (k, i) :: l → k ≤ 1 → i.sigOk = true →
        ∃ t, exec .selectImage s = .next t ∧ t.chip.fld GLB_BOOT_STATUS.STEP = 8 ∧ t.chip.fld GLB_BOOT_STATUS.SRC = k + 1 ∧
          t.chip.flag GLB_BOOT_STATUS.WAIT_HOST = false) ∧
      (s.chip.candidates s.fuse = [] →
        ∃ t, exec .selectImage s = .next t ∧ t.chip.flag GLB_BOOT_STATUS.WAIT_HOST = true)) ∧
    (s.chip.fld GLB_BOOT_STATUS.STEP = 8 → s.dist.holder = 0 → s.dist.fencedA = false → s.dist.epoch < 0xFFFFFFFF →
      ∃ t, exec .krelinStart s = .next t ∧ t.dist = { s.dist with holder := 1, epoch := s.dist.epoch + 1 } ∧
        t.chip.flag MBX_STATUS.OPEN = true ∧ t.chip.flag GLB_BOOT_STATUS.FW_READY = true ∧ t.chip.fld GLB_BOOT_STATUS.STEP = 9) ∧
    (s.chip.fld GLB_BOOT_STATUS.STEP = 9 → s.chip.flag GLB_BOOT_STATUS.NO_CFG = false → s.chip.start.checked = false →
      s.chip.pdOn 20 = true →
      let good := coreInRange (s.chip.fld GLB_AVS.TARGET) (hkCodeOf 17 microvolts)
      (good = true ∨ waited = true →
        ∃ t, exec (.coreVoltageCheck microvolts waited) s = .next t ∧ t.chip.flag GLB_AVS.OFF_TARGET = (!good) ∧
          t.chip.start.checked = true ∧ t.chip.hka.urg = {} ∧ (∀ e, e < 4 → t.chip.reg (HKA_URG_ENTRY.addr e) = resetWord (HKA_URG_ENTRY.addr e) ∧
            t.chip.reg (HKA_URG_RES.addr e) = resetWord (HKA_URG_RES.addr e)) ∧ t.chip.mem = s.chip.mem) ∧
      (good = false → waited = false →
        ∃ t, exec (.coreVoltageCheck microvolts waited) s = .next t ∧ t.chip.start.checked = false ∧
          t.chip.flag GLB_AVS.OFF_TARGET = s.chip.flag GLB_AVS.OFF_TARGET ∧ t.chip.mem = s.chip.mem)) ∧
    (s.chip.fld GLB_BOOT_STATUS.STEP = 9 → s.chip.start.checked = true →
      ∃ t, exec (.portDomainsUp legs) s = .next t ∧ 10 ≤ t.chip.fld GLB_BOOT_STATUS.STEP ∧ t.chip.fld GLB_BOOT_STATUS.STEP ≤ 12) ∧
    (10 ≤ s.chip.fld GLB_BOOT_STATUS.STEP → s.chip.fld GLB_BOOT_STATUS.STEP ≤ 12 →
      ∃ t, exec .trafficReady s = .next t ∧ t.chip.fld GLB_BOOT_STATUS.STEP = 13 ∧ t.chip.flag GLB_BOOT_STATUS.READY = true)
/-! ### Host lanes (spec/04) -/

/-- R100, R101, R103: loss and return of the signal of host lane `h`, a lock to data under watch, the end of the watch, and a short on a
transmit leg, each from the state that its rule names. -/
def Obligations.HostSignalLossAndReturn : Prop :=
  ∀ (s : State) (h : HLane) (legs : BitVec 16), s.chip.hostOn h.1 = true →
    let within := fun (t : State) => s.within t (0x100000 + 0x10000 * h.1) (0x110000 + 0x10000 * h.1)
    (s.chip.flag (HLN_STATUS.SIGNAL h.1) = true →
      ∃ t, exec (.hostLos h) s = .next t ∧ within t ∧ t.chip.flag (HLN_STATUS.SIGNAL h.1) = false ∧
        t.chip.flag (HLN_FAULT.LOS h.1) = true ∧ t.chip.flag (HLN_STATUS.CDR_LOCK h.1) = false ∧
        t.chip.fld (HLN_STATUS.RX_SNR h.1) = 0 ∧ t.chip.htState h.1 = s.chip.htState h.1 ∧
        (s.chip.hostData h.1 = true → s.chip.flag (HLN_STATUS.CDR_LOCK h.1) = true → t.chip.flag (HLN_FAULT.CDR_UNLOCK h.1) = true) ∧
        t.chip.flag (HLN_STATUS.TRAINED h.1) = (s.chip.flag (HLN_STATUS.TRAINED h.1) && s.chip.htState h.1 != 7) ∧
        (t.chip.hostOf h.1).watch = false) ∧
    (s.chip.flag (HLN_STATUS.SIGNAL h.1) = false →
      ∃ t, exec (.hostSignalReturn h) s = .next t ∧ within t ∧ t.chip.flag (HLN_STATUS.SIGNAL h.1) = true ∧
        (t.chip.hostOf h.1).watch = (s.chip.hostOf h.1).lostAfterData ∧ t.chip.htState h.1 = s.chip.htState h.1 ∧
        t.chip.flag (HLN_FAULT.LOS h.1) = s.chip.flag (HLN_FAULT.LOS h.1)) ∧
    ((s.chip.hostOf h.1).watch = true → s.chip.hostData h.1 = true →
      ∃ t, exec (.hostRelock h) s = .next t ∧ within t ∧ t.chip.flag (HLN_STATUS.CDR_LOCK h.1) = true ∧
        t.chip.flag (HLN_STATUS.TRAINED h.1) = true ∧ (t.chip.hostOf h.1).watch = false ∧ t.chip.htState h.1 = s.chip.htState h.1 ∧
        t.chip.reg (HLN_TRAIN_STATUS.addr h.1) = s.chip.reg (HLN_TRAIN_STATUS.addr h.1)) ∧
    ((s.chip.hostOf h.1).watch = true →
      ∃ t, exec (.hostWatchExpiry h legs) s = .next t ∧ within t ∧
        t.chip.htState h.1 = (if (s.chip.quad (quadOf h.1)).fixed then 7 else 1) ∧ t.chip.flag (HLN_STATUS.CDR_LOCK h.1) = false ∧
        t.chip.flag (HLN_STATUS.TRAINED h.1) = false ∧ t.chip.flag (HLN_STATUS.TX_OPEN h.1) = legs.getLsbD h.1 ∧
        t.chip.fld (HLN_TRAIN_STATUS.RESTART_CNT h.1) = min 255 (s.chip.fld (HLN_TRAIN_STATUS.RESTART_CNT h.1) + 1)) ∧
    (s.chip.flag (HLN_STATUS.TX_SHORT h.1) = false →
      ∃ t, exec (.hostTxShort h true legs) s = .next t ∧ within t ∧ t.chip.flag (HLN_STATUS.TX_SHORT h.1) = true ∧
        t.chip.flag (HLN_FAULT.TX_SHORT h.1) = true ∧ t.chip.htState h.1 = s.chip.htState h.1) ∧
    (s.chip.flag (HLN_STATUS.TX_SHORT h.1) = true → s.chip.htState h.1 ≠ 0 →
      ∃ t, exec (.hostTxShort h false legs) s = .next t ∧ within t ∧ t.chip.flag (HLN_STATUS.TX_SHORT h.1) = false ∧
        t.chip.htState h.1 = (if (s.chip.quad (quadOf h.1)).fixed then 7 else 1) ∧
        t.chip.flag (HLN_FAULT.TX_SHORT h.1) = s.chip.flag (HLN_FAULT.TX_SHORT h.1))

/-- R26, R75, R76, R86, R88, R92, R95: how the training of host lane `h` hands off, fails, falls back and starts afresh, each from the state
that its rule names, and how the synthesiser of quad `q` loses lock and locks again. -/
def Obligations.HostTrainingOutcomes : Prop :=
  (∀ (s : State) (h : HLane) (tx : Bool) (legs : BitVec 16) (f : FixedIn), s.chip.hostOn h.1 = true →
     let within := fun (t : State) => s.within t (0x100000 + 0x10000 * h.1) (0x110000 + 0x10000 * h.1)
     let restarted := fun (t : State) => within t ∧ t.chip.htState h.1 = (if (s.chip.quad (quadOf h.1)).fixed then 7 else 1) ∧
       t.chip.flag (HLN_STATUS.TRAINED h.1) = false ∧ t.chip.flag (HLN_STATUS.CDR_LOCK h.1) = false ∧
       t.chip.fld (HLN_TRAIN_STATUS.RESTART_CNT h.1) = min 255 (s.chip.fld (HLN_TRAIN_STATUS.RESTART_CNT h.1) + 1)
     (s.chip.hostTrains h.1 = true →
       ((s.chip.hostOf h.1).echoWait = true → ∃ t, exec (.echoTimeout h legs) s = .next t ∧ restarted t) ∧
       (∃ t, exec (.trainingTimeout h) s = .next t ∧ within t ∧ t.chip.htState h.1 = 6 ∧ t.chip.flag (HLN_FAULT.TRAIN_FAIL h.1) = true ∧
         t.chip.flag (HLN_STATUS.CDR_LOCK h.1) = false) ∧
       ((if tx then (s.chip.hostOf h.1).txDone else (s.chip.hostOf h.1).rxDone) = false →
         (if s.chip.host400 h.1 = true then (if tx then (s.chip.hostOf h.1).countdown else (s.chip.hostOf h.1).farLeft) = some 0
           else 3 ≤ s.chip.htState h.1) →
         (∀ o : Bool, (if tx then (s.chip.hostOf h.1).rxDone else (s.chip.hostOf h.1).txDone) = o →
           ∃ t, exec (.handoff h tx) s = .next t ∧ t.chip.htState h.1 = (if o then 5 else 4) ∧
             t.chip.flag (HLN_STATUS.TRAINED h.1) = (o || s.chip.flag (HLN_STATUS.TRAINED h.1))))) ∧
     (s.chip.htState h.1 = 6 → ∃ t, exec (.trainingRetry h legs) s = .next t ∧ restarted t) ∧
     (s.chip.htState h.1 = 1 → s.chip.host400 h.1 = false → s.chip.flag (HLN_STATUS.SIGNAL h.1) = true →
       ∃ t, exec (.trainingFallback h) s = .next t ∧ within t ∧ t.chip.htState h.1 = 7 ∧ t.chip.flag (HLN_STATUS.CDR_LOCK h.1) = true ∧
         (t.chip.hostOf h.1).fallback = true) ∧
     (s.chip.htState h.1 = 7 → s.chip.host400 h.1 = false → s.chip.flag (HLN_STATUS.SIGNAL h.1) = true →
       s.chip.flag (HLN_STATUS.TRAINED h.1) = false →
       ∃ t, exec (.fixedTrained h f legs) s = .next t ∧ t.chip.fld (HLN_STATUS.FAR_LANE_ID h.1) = f.pos.1 ∧
         ((s.chip.quad (quadOf h.1)).orderKnown = true → t.chip.flag (HLN_STATUS.TRAINED h.1) = true))) ∧
  (∀ (s : State) (q : Quad) (legs : BitVec 16), s.chip.pdOn (3 + q.1) = true →
     (bit (s.chip.fld CLK_HQ_STATUS.LOCK) q.1 = true →
       ∃ t, exec (.hqUnlock q) s = .next t ∧ bit (t.chip.fld CLK_HQ_STATUS.LOCK) q.1 = false ∧ (t.chip.quad q.1).relocking = true ∧
         (∀ h ∈ quadLanes q.1, t.chip.flag (HLN_STATUS.CDR_LOCK h) = false ∧ t.chip.hostTaps h = s.chip.hostTaps h ∧
           t.chip.htState h = s.chip.htState h) ∧
         ∀ h : HLane, h.1 ∉ quadLanes q.1 → t.chip.reg (HLN_STATUS.addr h.1) = s.chip.reg (HLN_STATUS.addr h.1)) ∧
     ((s.chip.quad q.1).relocking = true →
       ∃ t, exec (.hqRelock q legs) s = .next t ∧ bit (t.chip.fld CLK_HQ_STATUS.LOCK) q.1 = true ∧ (t.chip.quad q.1).relocking = false))

/-- R79, R81, R91, R74, R96, R106: what a frame time does to host lane `h`: the third Twist-H marker in a row gives frame lock, and the
lane adapts; a training frame with a wrong CRC counts and changes no tap; the third data marker gives data lock and the fourth miss takes
it away, with which a FIXED lane is no longer TRAINED; a valid IEEE training frame locks the clock and the lane adapts. -/
def Obligations.HostFrameTimes : Prop :=
  ∀ (s : State) (h : HLane) (legs : BitVec 16), s.chip.hostOn h.1 = true →
    let x := s.chip.hostOf h.1
    (s.chip.host400 h.1 = true → ∀ (f : HFrameIn) (inv : Bool), markerIn (f.marks.map (fun v => v.1)) = some inv →
      (s.chip.htState h.1 = 1 → hostCrcOk f.word.toNat = false → f.ready = false → x.frameLock = false → x.farLeft = none → x.rxDone = false →
        ∃ t, exec (.twistHFrame h f legs) s = .next t ∧
          t.chip.fld (HLN_TRAIN_STATUS.CRC_ERR_CNT h.1) = min 255 (s.chip.fld (HLN_TRAIN_STATUS.CRC_ERR_CNT h.1) + 1) ∧
          t.chip.flag (HLN_STATUS.POL_INV h.1) = inv ∧ t.chip.hostTaps h.1 = s.chip.hostTaps h.1 ∧
          (t.chip.hostOf h.1).frameLock = decide (2 ≤ x.markers) ∧
          (x.countdown = none → x.readySent = false → t.chip.htState h.1 = (if 2 ≤ x.markers then 2 else 1)))) ∧
    (s.chip.host400 h.1 = true → s.chip.hostData h.1 = true → ∀ f : DataFrameIn,
      let mark := dataMarkerIn f.marker.toNat
      let found := if s.chip.htState h.1 = 7 then mark.isSome else decide (mark = some (s.chip.flag (HLN_STATUS.POL_INV h.1)))
      ∃ t, exec (.dataFrame h f) s = .next t ∧ (s.chip.htState h.1 = 7 ∨ x.txDone = true → t.chip.htState h.1 = s.chip.htState h.1) ∧
        (t.chip.hostOf h.1).dataLock = (if found then x.dataLock || decide (2 ≤ x.dataMarkers) else x.dataLock && decide (x.dataMisses < 3)) ∧
        (s.chip.htState h.1 = 7 → (t.chip.hostOf h.1).dataLost = true → t.chip.flag (HLN_STATUS.TRAINED h.1) = false) ∧
        (countWordOk f.word.toNat = true → (t.chip.hostOf h.1).count = f.word.toNat / 2 ^ 20) ∧
        t.chip.fld (HLN_TRAIN_STATUS.CRC_ERR_CNT h.1) = (if countWordOk f.word.toNat then s.chip.fld (HLN_TRAIN_STATUS.CRC_ERR_CNT h.1)
          else min 255 (s.chip.fld (HLN_TRAIN_STATUS.CRC_ERR_CNT h.1) + 1))) ∧
    (s.chip.host400 h.1 = false → s.chip.htState h.1 = 1 → ∀ f : IeeeIn, f.valid = true → f.pos = none → f.ask = none →
      ∃ t, exec (.ieeeTrainingFrame h f legs) s = .next t ∧ t.chip.htState h.1 = (if f.done then 3 else 2) ∧
        t.chip.flag (HLN_STATUS.CDR_LOCK h.1) = true ∧ t.chip.flag (HLN_STATUS.POL_INV h.1) = f.inverted ∧
        t.chip.fld (HLN_RX_EQ.CTLE h.1) = min 12 f.eq.ctle)

/-- R72, R75, R76, R94, R105 to R108, R315: the host lane commands that pass the checks of R306. A lane beyond 15, a preset out of range
or taps that break R71 complete with BAD_ARG and change nothing. -/
def Obligations.HostLaneCommands : Prop :=
  ∀ (s : State) (src : CmdSrc) (c : Chip) (r : Req) (legs : BitVec 16),
    let b := byteAt r.payload
    let ends := fun (i : Instr) (d : Chip) (y : Reply) => exec i s = .next { s with chip := d.conclude r (.done y) }
    (s.takes src 0x0301 c r →
      (b 0 ≤ 3 → b 1 ≤ 1 → 1 ≤ b 2 → b 2 ≤ 4 → b 3 ≤ 1 →
        ∃ d : Chip, ends (.hostTrainCfg src) d (.okR []) ∧ d.regs = c.regs ∧ d.cfg = some d.configNow ∧
          d.quad (b 0) = { c.quad (b 0) with fixed := b 1 == 1, preset := b 2, pattern := b 3 } ∧
          (∀ h ∈ quadLanes (b 0), (d.hostOf h).manual = false)) ∧
      (3 < b 0 ∨ 1 < b 1 ∨ b 2 = 0 ∨ 4 < b 2 ∨ 1 < b 3 → ends (.hostTrainCfg src) c (.fail .badArg))) ∧
    (s.takes src 0x0302 c r →
      (15 < b 0 → ends (.hostRetrain src legs) c (.fail .badArg)) ∧
      (b 0 ≤ 15 → (c.hostUsed (b 0) && c.pdOn (3 + quadOf (b 0))) = false → ends (.hostRetrain src legs) c (.fail .badState)) ∧
      (b 0 ≤ 15 → c.hostUsed (b 0) = true → c.pdOn (3 + quadOf (b 0)) = true →
        ∃ t, exec (.hostRetrain src legs) s = .next t ∧ t.chip.htState (b 0) = (if (c.quad (quadOf (b 0))).fixed then 7 else 1) ∧
          t.chip.flag (HLN_STATUS.TRAINED (b 0)) = false ∧
          t.chip.fld (HLN_TRAIN_STATUS.RESTART_CNT (b 0)) = min 255 (c.fld (HLN_TRAIN_STATUS.RESTART_CNT (b 0)) + 1))) ∧
    (s.takes src 0x0303 c r →
      ends (.hostLaneStatus src) c (if 15 < b 0 then .fail .badArg else
        .okD (wordBytes [c.reg (HLN_STATUS.addr (b 0)), c.seen (HLN_TRAIN_STATUS.addr (b 0)), c.reg (HLN_TX_TAPS0.addr (b 0)),
          c.reg (HLN_TX_TAPS1.addr (b 0)), c.reg (HLN_TX_TAPS2.addr (b 0))]))) ∧
    (s.takes src 0x0304 c r →
      let taps := if b 1 = 0 then sx16s r.payload 4 6 else hostPreset (b 1)
      (15 < b 0 ∨ 4 < b 1 ∨ hostTapsOk taps = false → ends (.hostTxSet src) c (.fail .badArg)) ∧
      (b 0 ≤ 15 → b 1 ≤ 4 → hostTapsOk taps = true →
        (c.hostFixed (b 0) = false ∨ c.pdOn (3 + quadOf (b 0)) = false → ends (.hostTxSet src) c (.fail .badState)) ∧
        (c.hostFixed (b 0) = true → c.pdOn (3 + quadOf (b 0)) = true →
          ∃ d : Chip, ends (.hostTxSet src) d (.okR []) ∧ d.hostTaps (b 0) = taps ∧ (d.hostOf (b 0)).manual = true ∧ d.mem = c.mem ∧
            ∀ a, a ≠ HLN_TX_TAPS0.addr (b 0) → a ≠ HLN_TX_TAPS1.addr (b 0) → a ≠ HLN_TX_TAPS2.addr (b 0) → d.reg a = c.reg a)))

/-! ### Line lanes: receiver and transmitter (spec/05, spec/06) -/

/-- R121, R122, R123, R124, R130, R132: how the receiver of a powered line lane goes from state to state: foreground calibration, signal,
blind adaptation, lock, the loss of a criterion, a retrain or a restore that does not lock in time. While no command executes, no
removal of a port comes between and no substitution is planned; a substitution that waits is not for a LOCKED lane. -/
def Obligations.LineReceiverStates : Prop :=
  ∀ (s : State) (n : LLane), s.chip.pdOn (7 + n.1) = true →
    let st := s.chip.rxState n.1
    (st = 1 → ∃ t, exec (.foregroundCalibrationDone n) s = .next t ∧ t.chip.flag (LRX_STATUS.CAL_DONE n.1) = true ∧
      t.chip.rxState n.1 = (if s.chip.signal n.1 then 3 else 2)) ∧
    (s.chip.signal n.1 = false → st ≠ 7 → ∃ t, exec (.lineSignal n) s = .next t ∧ t.chip.flag (LRX_STATUS.SIGNAL n.1) = true ∧
      t.chip.rxState n.1 = (if st = 2 then 3 else st)) ∧
    (st = 3 → ∃ t, exec (.blindAdaptationDone n) s = .next t ∧ t.chip.rxState n.1 = 4 ∧ t.chip.rx = s.chip.rx) ∧
    (s.chip.mbx.exec = [] → s.chip.ply.planned = none →
      (s.chip.lockCriteria n.1 = true → 3 ≤ st → st < 6 →
        ∃ t, exec (.lineLocked n) s = .next t ∧ t.chip.rxState n.1 = 6 ∧ (t.chip.rxOf n.1).window = none ∧
          (t.chip.rxOf n.1).retrain = false ∧
          t.chip.fld (LRX_LOCK_CNT.RESTORE_CNT n.1) = min 255 (s.chip.fld (LRX_LOCK_CNT.RESTORE_CNT n.1) +
            (if (s.chip.rxOf n.1).window.isSome then 1 else 0)) ∧
          t.chip.fld (LRX_LOCK_CNT.RETRAIN_CNT n.1) = min 255 (s.chip.fld (LRX_LOCK_CNT.RETRAIN_CNT n.1) +
            (if (s.chip.rxOf n.1).window.isNone && (s.chip.rxOf n.1).retrain then 1 else 0))) ∧
      (s.chip.signal n.1 = true →
        (st = 6 → ∃ t, exec (.lineLos n) s = .next t ∧ t.chip.flag (LRX_STATUS.SIGNAL n.1) = false ∧
          t.chip.flag (LRX_FAULT.LOS n.1) = true ∧ t.chip.flag (LRX_STATUS.GOOD n.1) = false ∧ t.chip.rxState n.1 ≠ 6 ∧
          (s.chip.plyRx ≠ plySubstWait ∨ s.chip.plyLane ≠ n.1 →
            t.chip.fld (LRX_LOCK_CNT.LOSS_CNT n.1) = min 255 (s.chip.fld (LRX_LOCK_CNT.LOSS_CNT n.1) + 1))) ∧
        (3 ≤ st → st ≤ 5 → (s.chip.rxOf n.1).window = none →
          ∃ t, exec (.lineLos n) s = .next t ∧ t.chip.flag (LRX_STATUS.SIGNAL n.1) = false ∧ t.chip.rxState n.1 = 2 ∧
            t.chip.flag (LRX_FAULT.LOS n.1) = s.chip.flag (LRX_FAULT.LOS n.1) ∧ t.chip.flag (LRX_STATUS.CDR_LOCK n.1) = false)) ∧
      (∀ c : LossCause, st = 6 → ∃ t, exec (.lockLoss [(n, c)]) s = .next t ∧ t.chip.flag (lossFlag n.1 (lossCode c)) = true ∧
        t.chip.flag (LRX_STATUS.GOOD n.1) = false ∧ t.chip.rxState n.1 ≠ 6 ∧
        (s.chip.plyRx ≠ plySubstWait ∨ s.chip.plyLane ≠ n.1 →
          t.chip.fld (LRX_LOCK_CNT.LOSS_CNT n.1) = min 255 (s.chip.fld (LRX_LOCK_CNT.LOSS_CNT n.1) + 1))) ∧
      ((s.chip.rxOf n.1).retrain = true → 3 ≤ st → st ≤ 5 →
        ∃ t, exec (.retrainTimeout n) s = .next t ∧ t.chip.flag (LRX_FAULT.RETRAIN_FAIL n.1) = true ∧ t.chip.rxState n.1 = 1 ∧
          (t.chip.rxOf n.1).retrain = true ∧ (t.chip.rxOf n.1).live = {}) ∧
      ((s.chip.rxOf n.1).window.isSome = true →
        ∃ t, exec (.restoreWindowExpiry n) s = .next t ∧ t.chip.flag (LRX_FAULT.RESTORE_FAIL n.1) = true ∧
          (t.chip.rxOf n.1).window = none))

/-- R112, R113, R115, R116, R118, R120, R123, R128, R129, R141: what a line receiver does at the end of a window and at an update of a
loop, and how its term set moves. -/
def Obligations.LineReceiverLoops : Prop :=
  ∀ (s : State) (n : LLane), s.chip.pdOn (7 + n.1) = true →
    let st := s.chip.rxState n.1
    let x := s.chip.rxOf n.1
    (∀ snr : Fin 256, 3 ≤ st → st ≤ 5 →
      ∃ t, exec (.snrWindow n snr) s = .next t ∧ s.within t (0x200000 + 0x10000 * n.1) (0x210000 + 0x10000 * n.1) ∧
        t.chip.fld (LRX_STATUS.RX_SNR n.1) = (if x.everCdr then snr.1 else 0) ∧
        t.chip.fld (LRX_SNR.SNR_AVG n.1) = snrMean ((snr.1 :: x.snrs).take 256) % 65536 ∧
        t.chip.rxState n.1 = (if 4 ≤ st ∧ 15 ≤ x.snrAbove ∧ s.chip.fld (LRX_RX_CFG.LOCK_THR n.1) ≤ snr.1 then 5 else st)) ∧
    (∀ a : AdaptIn, a.ask = none → s.chip.signal n.1 = true → 3 ≤ st → st < 7 →
      ∃ t, exec (.adaptationWindow n a) s = .next t ∧ s.within t (0x200000 + 0x10000 * n.1) (0x210000 + 0x10000 * n.1) ∧
        (let v := adaptVolt (s.chip.fld (LRX_STATUS.VOLT_SET n.1)) x.live.volt a.volt
         (t.chip.rxOf n.1).live = ⟨a.ffe, v, a.targets, a.np, x.live.llrScale, a.gain, a.freq, a.phase, x.live.adc⟩) ∧
        t.chip.fld (LRX_CDR.PHASE n.1) = a.phase % (if s.chip.flag (LRX_STATUS.RATE n.1) then 128 else 256) ∧
        (freqSteady ((a.freq :: x.freqs).take 16) = true → st < 6 → t.chip.flag (LRX_STATUS.CDR_LOCK n.1) = true)) ∧
    (∀ a : AdaptIn, s.chip.signal n.1 = true → st = 7 →
      ∃ t, exec (.adaptationWindow n a) s = .next t ∧ (t.chip.rxOf n.1).live = { x.live with phase := a.phase } ∧
        t.chip.flag (LRX_STATUS.CDR_LOCK n.1) = s.chip.flag (LRX_STATUS.CDR_LOCK n.1)) ∧
    (∀ a : AdcIn, s.chip.signal n.1 = true → 3 ≤ st → st < 7 →
      ∃ t, exec (.adcCalUpdate n a) s = .next t ∧ s.within t (0x200000 + 0x10000 * n.1) (0x210000 + 0x10000 * n.1) ∧
        t.chip.fld (LRX_ADC_CAL.OFFSET_RES n.1) = a.offsetRes % 256 ∧
        (let old := (adcAll x.live.adc).getD a.sub.1 (0, 0, 0)
         let new := clampInt (-adcEnd a.loop) (adcEnd a.loop) (adcGet a.loop old + clampInt (-1) 1 a.step)
         (t.chip.rxOf n.1).live.adc = (adcAll x.live.adc).set a.sub.1 (adcPut a.loop old new) ∧
         (new.natAbs = (adcEnd a.loop).natAbs → (adcGet a.loop old).natAbs < (adcEnd a.loop).natAbs →
           t.chip.flag (LRX_ADC_CAL.AT_LIMIT n.1) = true ∧ t.chip.flag (LRX_FAULT.ADC_CAL n.1) = true) ∧
         (((adcAll x.live.adc).set a.sub.1 (adcPut a.loop old new)).all adcInside = true → t.chip.flag (LRX_ADC_CAL.AT_LIMIT n.1) = false))) ∧
    (∀ v : Fin 65536, 3 ≤ st → st < 7 →
      ∃ t, exec (.llrScaleUpdate n v) s = .next t ∧ t.chip.regs = s.chip.regs ∧
        (t.chip.rxOf n.1).live = { x.live with llrScale := llrNext x.live.llrScale v.1 }) ∧
    (st = 6 → s.chip.lockThr n.1 + 256 ≤ s.chip.snrAvg n.1 → s.chip.flag (LRX_STATUS.GOOD n.1) = false →
      ∃ t, exec (.goodSet n) s = .next t ∧ t.chip.flag (LRX_STATUS.GOOD n.1) = true ∧ t.chip.rxState n.1 = 6) ∧
    (st ≠ 0 → s.chip.voltLimit n.1 < s.chip.fld (LRX_STATUS.VOLT_SET n.1) →
      ∃ t, exec (.voltStep n) s = .next t ∧ t.chip.fld (LRX_STATUS.VOLT_SET n.1) = s.chip.fld (LRX_STATUS.VOLT_SET n.1) - 1 ∧
        t.chip.rxState n.1 = st) ∧
    (st ≠ 0 → s.chip.fld (LRX_STATUS.VOLT_SET n.1) < s.chip.voltTarget n.1 → x.thermLow = false →
      ∃ t, exec (.voltStep n) s = .next t ∧ t.chip.fld (LRX_STATUS.VOLT_SET n.1) = s.chip.fld (LRX_STATUS.VOLT_SET n.1) + 1) ∧
    (∀ v : Fin 3, x.dropFrom = some v.1 → s.chip.snrAvg n.1 < s.chip.lockThr n.1 + 256 →
      ∃ t, exec (.voltReturn n) s = .next t ∧ t.chip.fld (LRX_STATUS.VOLT_SET n.1) = min v.1 (s.chip.voltLimit n.1) ∧ (t.chip.rxOf n.1).refuse = true ∧
        (t.chip.rxOf n.1).dropFrom = none)

/-- R126, R130, R137 to R139, R142, R316: the line receiver commands that pass the checks of R306, and the end of a capture. -/
def Obligations.LineReceiverCommands : Prop :=
  ∀ (s : State) (src : CmdSrc) (c : Chip) (r : Req),
    let b := byteAt r.payload
    let ends := fun (i : Instr) (d : Chip) (y : Reply) => exec i s = .next { s with chip := d.conclude r (.done y) }
    (s.takes src 0x0401 c r →
      ends (.lineRxStatus src) c (if 8 < b 0 then .fail .badArg else
        .okD (wordBytes [c.reg (LRX_STATUS.addr (b 0)), c.lrxSnrWord (b 0), c.reg (LRX_CDR.addr (b 0)), c.seen (LRX_LOCK_CNT.addr (b 0)),
          c.reg (LRX_ADC_CAL.addr (b 0))]))) ∧
    (s.takes src 0x0402 c r →
      (8 < b 0 ∨ b 1 < 24 ∨ 120 < b 1 ∨ b 2 < 24 ∨ 120 < b 2 ∨ b 1 < b 2 + 2 ∨ 15 < b 3 ∨ 3 < b 4 ∨ 2 < b 5 →
        ends (.lineRxCfg src) c (.fail .badArg)) ∧
      (b 0 ≤ 8 → 24 ≤ b 1 → b 1 ≤ 120 → 24 ≤ b 2 → b 2 + 2 ≤ b 1 → b 3 ≤ 15 → b 4 ≤ 3 → b 5 ≤ 2 →
        ∃ d : Chip, ends (.lineRxCfg src) d (.okR []) ∧
          (c.pdOn (7 + b 0) = true →
            d.fld (LRX_RX_CFG.LOCK_THR (b 0)) = b 1 ∧ d.fld (LRX_RX_CFG.LOSS_THR (b 0)) = b 2 ∧
            d.fld (LRX_RX_CFG.MARGIN_WARN (b 0)) = b 3 ∧ d.fld (LRX_RX_CFG.CDR_BW (b 0)) = b 4 ∧ d.fld (LRX_RX_CFG.VOLT_MAX (b 0)) = b 5) ∧
          tabGet resetWord d.shadowNow.fwRegs (LRX_RX_CFG.addr (b 0)) = rxCfgWord (b 1) (b 2) (b 3) (b 4) (b 5))) ∧
    (s.takes src 0x0403 c r →
      (8 < b 0 → ends (.lineRetrain src) c (.fail .badArg)) ∧
      (b 0 ≤ 8 → c.carriesPort (b 0) = false ∨ c.onL8 (b 0) = true ∨ c.pdOn (7 + b 0) = false →
        ends (.lineRetrain src) c (.fail .badState)) ∧
      (b 0 ≤ 8 → c.carriesPort (b 0) = true → c.onL8 (b 0) = false → c.pdOn (7 + b 0) = true →
        ∃ t, exec (.lineRetrain src) s = .next t ∧ t.chip.rxState (b 0) = 1 ∧ (t.chip.rxOf (b 0)).live = {})) ∧
    (s.takes src 0x0404 c r →
      let len := arg32 r.payload 8
      let wait := arg16 r.payload 12
      let formed := b 0 ≤ 8 ∧ b 1 ≤ 2 ∧ b 2 ≤ 1 ∧ capOk (arg32 r.payload 4) len = true ∧ len % 8 = 0 ∧ 64 ≤ len ∧ len ≤ 2097152 ∧
        (b 2 = 1 → 1 ≤ wait ∧ wait ≤ 60000)
      (¬formed → ends (.lineCapture src) c (.fail .badArg)) ∧
      (formed → c.pdOn (7 + b 0) = false ∨ c.pdOn 19 = false → ends (.lineCapture src) c (.fail .badState)) ∧
      (formed → c.pdOn (7 + b 0) = true → c.pdOn 19 = true →
        ((c.rxOf (b 0)).capture.isSome = true → ends (.lineCapture src) c (.fail .busy)) ∧
        ((c.rxOf (b 0)).capture = none →
          let k : Capture := ⟨b 1, b 2, arg32 r.payload 4, len, r.src, b 2 == 0⟩
          exec (.lineCapture src) s =
            .next { s with chip := (c.rxMod (b 0) (fun x => { x with capture := some k })).conclude r (.runs (.capture (b 0))) }))) ∧
    (∀ (n : LLane) (data : TapData) (k : Capture), (s.chip.rxOf n.1).capture = some k →
      let c := s.chip.rxMod n.1 (fun x => { x with capture := none })
      ∃ t, exec (.captureEnd n data) s = .next t ∧ (t.chip.rxOf n.1).capture = none ∧
        t.chip.reg (LRX_STATUS.addr n.1) = s.chip.reg (LRX_STATUS.addr n.1) ∧
        (s.chip.mbx.exec = [] → k.triggered = true → s.chip.pdOn 19 = true →
          t.chip.mem = (c.writeBytes .capture k.addr (fitBytes k.len (c.tapBytes n.1 k.tap data))).mem) ∧
        (s.chip.mbx.exec = [] → k.triggered = false → t.chip.mem = s.chip.mem))

/-- R146, R151, R154, R156, R158 to R160, R165: the tap channel, the tension table's swap and a short of a line lane's transmitter, each
from the state that its rule names. -/
def Obligations.LineTransmitterSteps : Prop :=
  ∀ (s : State) (n : LLane),
    let x := s.chip.txOf n.1
    (∀ (slot : Nat) (w : Nat) (bad : Bool) (rest : List (Nat × Nat × Bool)), x.rxWords = (slot, w, bad) :: rest → s.chip.laneTwist n.1 = true →
      (bad = true ∨ tapWordOk w = false → slot ≠ 2 →
        ∃ t, exec (.tapWord n) s = .next t ∧ t.chip.regs = s.chip.regs ∧ t.chip.txOf n.1 = { x with rxWords := rest }) ∧
      (bad = false → tapWordOk w = true → bitsOf w 30 2 = 0 → slot = 0 → bitsOf w 26 4 ≠ 0 → x.seqIn ≠ some (bitsOf w 8 8) →
        ∃ t, exec (.tapWord n) s = .next t ∧ t.chip.regs = s.chip.regs ∧
          (t.chip.txOf n.1).pend.req = some (bitsOf w 26 4, bitsOf w 22 4, bitsOf w 18 4, bitsOf w 8 8) ∧
          (t.chip.txOf n.1).rxWords = rest) ∧
      (bad = false → tapWordOk w = true → bitsOf w 30 2 = 1 → slot = 1 →
        ∃ t, exec (.tapWord n) s = .next t ∧ t.chip.fld (LTX_TAP_CHAN.IN_RESP n.1) = bitsOf w 26 4 ∧
          (t.chip.txOf n.1).echoWait = (x.echoWait && bitsOf w 8 8 != x.seqOut) ∧ (t.chip.txOf n.1).rxWords = rest)) ∧
    (∀ k, x.pend.preset = some k → x.pend.req = none →
      ∃ t, exec (.tapChange n) s = .next t ∧ t.chip.txTaps n.1 = tapPreset k ∧ (t.chip.txOf n.1).pend.preset = none ∧
        (t.chip.txOf n.1).since = 0) ∧
    (∀ req tap arg seq, x.pend.preset = none → x.pend.req = some (req, tap, arg, seq) →
      ∃ t, exec (.tapChange n) s = .next t ∧
        (let o := (judgeTaps (s.chip.flag (LTX_TX_CFG.ACCEPT_REQ n.1)) (s.chip.txTaps n.1) req tap arg).1
         t.chip.fld (LTX_TAP_CHAN.OUT_RESP n.1) = o % 16 ∧ t.chip.fld (LTX_TAP_CHAN.IN_SEQ n.1) = seq % 256 ∧
         t.chip.fld (LTX_TAP_CHAN.IN_REQ n.1) = req % 16 ∧ (o ≠ respUpdated → t.chip.txTaps n.1 = s.chip.txTaps n.1)) ∧
        (t.chip.txOf n.1).seqIn = some seq ∧ (t.chip.txOf n.1).pend.req = none) ∧
    (x.pend.swap = true →
      ∃ t, exec (.ttSwap n) s = .next t ∧ s.within t (0x300000 + 0x10000 * n.1) (0x310000 + 0x10000 * n.1) ∧
        (t.chip.txOf n.1).active = x.shadow ∧ (t.chip.txOf n.1).pend.swap = false ∧
        t.chip.fld (LTX_TT_STATUS.SWAP_CNT n.1) = min 255 (s.chip.fld (LTX_TT_STATUS.SWAP_CNT n.1) + 1) ∧
        t.chip.flag (LTX_TT_STATUS.SRC_LAST n.1) = x.pend.hostLoad ∧ t.chip.flag (LTX_STATUS.TT_AT_LIMIT n.1) = x.pend.clamped ∧
        t.chip.flag (LTX_FAULT.TT_LIMIT n.1) = (s.chip.flag (LTX_FAULT.TT_LIMIT n.1) || x.pend.clamped)) ∧
    (x.echoWait = true →
      ∃ t, exec (.tapTimeout n) s = .next t ∧ t.chip.flag (LTX_FAULT.TAP_TIMEOUT n.1) = true ∧ (t.chip.txOf n.1).echoWait = false ∧
        (t.chip.txOf n.1).onlyHold = true ∧ t.chip.txTaps n.1 = s.chip.txTaps n.1) ∧
    (∀ on : Bool, s.chip.pdOn (7 + n.1) = true →
      ∃ t, exec (.lineTxShort n on) s = .next t ∧ t.chip.flag (LTX_STATUS.SHORT n.1) = on ∧
        t.chip.flag (LTX_FAULT.SHORT n.1) = (s.chip.flag (LTX_FAULT.SHORT n.1) || on) ∧ t.chip.tx = s.chip.tx)

/-- R153, R154, R163, R167, R168, R190, R317: the line transmitter commands that pass the checks of R306. -/
def Obligations.LineTransmitterCommands : Prop :=
  ∀ (s : State) (src : CmdSrc) (c : Chip) (r : Req),
    let b := byteAt r.payload
    let v := arg32 r.payload 4
    let ends := fun (i : Instr) (d : Chip) (y : Reply) => exec i s = .next { s with chip := d.conclude r (.done y) }
    (s.takes src 0x0405 c r →
      ends (.lineTxStatus src) c (if 8 < b 0 then .fail .badArg else
        .okD (wordBytes [c.ltxStatusWord (b 0), c.reg (LTX_TAPS0.addr (b 0)), c.reg (LTX_TAPS1.addr (b 0)), c.reg (LTX_TAPS2.addr (b 0)),
          c.seen (LTX_TT_STATUS.addr (b 0)), c.reg (LTX_TAP_CHAN.addr (b 0))]))) ∧
    (s.takes src 0x0406 c r →
      (8 < b 0 ∨ bitsOf v 24 8 ≠ 0 ∨ bitsOf v 0 7 ≠ 0 → ends (.lineTxCfg src) c (.fail .badArg)) ∧
      (b 0 ≤ 8 → bitsOf v 24 8 = 0 → bitsOf v 0 7 = 0 →
        (bit (b 1) 0 = true → c.pdOn (7 + b 0) = false → ends (.lineTxCfg src) c (.fail .badState)) ∧
        (bit (b 1) 0 = false → c.pdOn (7 + b 0) = false →
          ∃ d : Chip, ends (.lineTxCfg src) d (.okR []) ∧ d.regs = c.regs ∧ d.tx = c.tx ∧
            tabGet resetWord d.shadowNow.fwRegs (LTX_TX_CFG.addr (b 0)) = BitVec.ofNat 32 v) ∧
        (c.pdOn (7 + b 0) = true →
          ∃ d : Chip, ends (.lineTxCfg src) d (.okR []) ∧ (d.reg (LTX_TX_CFG.addr (b 0))).toNat = v % 2 ^ 32 ∧
            (∀ a, a ≠ LTX_TX_CFG.addr (b 0) → d.reg a = c.reg a) ∧
            (d.txOf (b 0)).pend.preset = (if bit (b 1) 0 then some (d.startPreset (b 0)) else (c.txOf (b 0)).pend.preset)))) ∧
    (s.takes src 0x0407 c r →
      (8 < b 0 ∨ capOk v 512 = false → ends (.lineTxTable src) c (.fail .badArg)) ∧
      (b 0 ≤ 8 → capOk v 512 = true → c.pdOn 19 = false → ends (.lineTxTable src) c (.fail .badState)) ∧
      (b 0 ≤ 8 → capOk v 512 = true → c.pdOn 19 = true →
        ∀ l, (c.readBytes .capture v 512).2 = some l → (sx16s l 0 256).any (fun e => decide (e < -512) || decide (511 < e)) = true →
          ends (.lineTxTable src) (c.readBytes .capture v 512).1 (.fail .badArg)) ∧
      (b 0 ≤ 8 → capOk v 512 = true → c.pdOn 19 = true → c.pdOn (7 + b 0) = true →
        ∀ l, (c.readBytes .capture v 512).2 = some l → (sx16s l 0 256).all (fun e => decide (-512 ≤ e) && decide (e ≤ 511)) = true →
          ∃ d : Chip, ends (.lineTxTable src) d (.okR []) ∧ (d.txOf (b 0)).pend.swap = true ∧ (d.txOf (b 0)).pend.hostLoad = true ∧
            (d.txOf (b 0)).active = ((c.readBytes .capture v 512).1.txOf (b 0)).active ∧
            ∀ p, p < 256 → ttGet (d.txOf (b 0)).shadow p = (sx16s l 0 256).getD p 0))

/-! ### The hank engine (spec/07) and framing (spec/08) -/

/-- R177 to R181, R183: a snapshot or checkpoint takes the slot of R176 and stays BUSY until it commits, when its pin moves onto it; a
page-in takes a channel, and a channel is free again when its page-in ends. -/
def Obligations.HankEngineSteps : Prop :=
  ∀ (s : State) (n : LLane),
    (∀ i, s.chip.pdOn 18 = true → s.chip.flag (LRX_STATUS.GOOD n.1) = true → s.chip.snapOf n.1 0 = none → s.chip.pickSlot = some i →
      ∃ t, exec (.snapshot n) s = .next t ∧ (t.chip.hankSlot i).st = .held ∧ (t.chip.hankSlot i).busy = 1 ∧
        t.chip.snapOf n.1 0 = some ⟨n.1, i, 0, false⟩ ∧ t.chip.lastGood n.1 = s.chip.lastGood n.1 ∧ t.chip.regs = s.chip.regs) ∧
    (∀ x, s.chip.snapOf n.1 0 = some x → x.slot < 2048 →
      ∃ t, exec (.snapshotGuardEnd n) s = .next t ∧ t.chip.lastGood n.1 = some x.slot ∧ (t.chip.hankSlot x.slot).lastGood = true ∧
        t.chip.flag (HNK_LANE_STATUS.LIMITED n.1) = false ∧ t.chip.flag (HNK_LANE_STATUS.FAR_CHANGED n.1) = false ∧
        t.chip.activeHank n.1 = s.chip.activeHank n.1) ∧
    (∀ i, s.chip.pdOn 18 = true → s.chip.rxState n.1 = 6 → s.chip.snapOf n.1 1 = none →
      (s.chip.snapOf n.1 0).all (fun x => x.written) = true → s.chip.pickSlot = some i →
      ∃ t, exec (.checkpoint n) s = .next t ∧ (t.chip.hankSlot i).st = .held ∧ (t.chip.hankSlot i).busy = 1 ∧
        t.chip.snapOf n.1 1 = some ⟨n.1, i, 1, false⟩ ∧ t.chip.regs = s.chip.regs) ∧
    (∀ x, s.chip.snapOf n.1 1 = some x → x.slot < 2048 →
      ∃ t, exec (.checkpointCommit n) s = .next t ∧ t.chip.activeHank n.1 = some x.slot ∧ (t.chip.hankSlot x.slot).active = true ∧
        t.chip.lastGood n.1 = s.chip.lastGood n.1) ∧
    (∀ r, s.chip.pdOn 18 = true → s.chip.hnk.chans.length < 3 →
      s.chip.hnk.queue.find? (fun q => s.chip.pageMayStart q.lane) = some r →
      ∃ t, exec .pageInStart s = .next t ∧ t.chip.hnk.chans = s.chip.hnk.chans ++ [r] ∧ t.chip.hnk.queue = s.chip.hnk.queue.erase r ∧
        (t.chip.hankSlot r.slot).busy = (s.chip.hankSlot r.slot).busy + 1) ∧
    (∀ r, s.chip.mbx.exec = [] → s.chip.inFlight n.1 = some r →
      ∃ t, exec (.pageInDone n) s = .next t ∧ t.chip.hnk.chans = s.chip.hnk.chans.erase r)

/-- R187, R189, R190 to R192, R310, R318: the hank commands that pass the checks of R306. -/
def Obligations.HankCommands : Prop :=
  ∀ (s : State) (src : CmdSrc) (c : Chip) (r : Req),
    let b := byteAt r.payload
    let v := arg32 r.payload 4
    let i := arg16 r.payload 0
    let ends := fun (j : Instr) (d : Chip) (y : Reply) => exec j s = .next { s with chip := d.conclude r (.done y) }
    (s.takes src 0x0501 c r →
      (8 < b 0 → b 0 ≠ 0xFF → ends (.hankPolicy src) c (.fail .badArg)) ∧
      (b 0 ≤ 8 ∨ b 0 = 0xFF →
        let a := if b 0 = 0xFF then HNK_CFG.addr else HNK_LANE_CFG.addr (b 0)
        let w := BitVec.ofNat 32 (if b 0 = 0xFF then v else v % 32)
        ∃ d : Chip, ends (.hankPolicy src) d (.okR []) ∧ tabGet resetWord d.shadowNow.fwRegs a = w ∧
          d.reg a = (if c.pdOn 18 then w else c.reg a) ∧ (∀ x, x ≠ a → d.reg x = c.reg x) ∧ d.mem = c.mem ∧ d.hnk = c.hnk)) ∧
    (s.takes src 0x0502 c r →
      ends (.hankStatus src) c (if 8 < b 0 then .fail .badArg else .okR (wordBytes [c.hankStoreWord, c.hankLaneWord (b 0)]))) ∧
    (s.takes src 0x0503 c r →
      (2048 ≤ i ∨ capOk v 2048 = false → ends (.hankRead src) c (.fail .badArg)) ∧
      (i < 2048 → capOk v 2048 = true →
        (c.pdOn 19 = false ∨ c.pdOn 18 = false ∨ (c.hankSlot i).st ≠ .held → ends (.hankRead src) c (.fail .badState)) ∧
        (c.pdOn 19 = true → c.pdOn 18 = true → (c.hankSlot i).st = .held →
          ((c.readHank i).2 = none → ends (.hankRead src) ((c.readHank i).1.markBad i) (.fail .badState)) ∧
          ∀ l, (c.readHank i).2 = some l →
            ends (.hankRead src) (((c.readHank i).1.touchSlot i).writeBytes .capture v l) (.okR [])))) ∧
    (s.takes src 0x0504 c r →
      (capOk v 2048 = false → ends (.hankWrite src) c (.fail .badArg)) ∧
      (capOk v 2048 = true → c.pdOn 19 = false ∨ c.pdOn 18 = false → ends (.hankWrite src) c (.fail .badState)) ∧
      (capOk v 2048 = true → c.pdOn 19 = true → c.pdOn 18 = true →
        let d := (c.readBytes .capture v 2048).1
        ∀ l, (c.readBytes .capture v 2048).2 = some l →
          let good := hankSound l = true ∧ hankPhys l ≤ 8 ∧ hankLogical l ≤ 7 ∧ hankRate l ≤ 1
          let full := d.keepMax (hankPhys l) ≤ d.keeps (hankPhys l)
          (¬good → ends (.hankWrite src) d (.fail .badArg)) ∧
          (good → bit (b 0) 0 = true → full → ends (.hankWrite src) d (.fail .badState)) ∧
          (good → (bit (b 0) 0 = true → ¬full) →
            (d.pickSlot = none → ends (.hankWrite src) d (.fail .badState)) ∧
            ∀ k, d.pickSlot = some k →
              ∃ e : Chip, ends (.hankWrite src) e (.okR (leBytes 2 k)) ∧ (e.hankSlot k).st = .held ∧ (e.hankSlot k).busy = 0 ∧
                (e.hankSlot k).keep = bit (b 0) 0))) ∧
    (s.takes src 0x0505 c r →
      (2048 ≤ i → ends (.hankPin src) c (.fail .badArg)) ∧
      (i < 2048 → c.pdOn 18 = false ∨ (c.hankSlot i).st ≠ .held → ends (.hankPin src) c (.fail .badState)) ∧
      (i < 2048 → c.pdOn 18 = true → (c.hankSlot i).st = .held →
        ((c.hankSlot i).keep = true → ends (.hankPin src) c (.okR [])) ∧
        ((c.hankSlot i).keep = false → c.keepMax (c.hankSlot i).lane ≤ c.keeps (c.hankSlot i).lane → ends (.hankPin src) c (.fail .badState)) ∧
        ((c.hankSlot i).keep = false → c.keeps (c.hankSlot i).lane < c.keepMax (c.hankSlot i).lane →
          ends (.hankPin src) (c.hankSlotMod i (fun x => { x with keep := true })) (.okR [])))) ∧
    (s.takes src 0x0506 c r →
      (2048 ≤ i → ends (.hankUnpin src) c (.fail .badArg)) ∧
      (i < 2048 → (c.hankSlot i).keep = false → ends (.hankUnpin src) c (.fail .badState)) ∧
      (i < 2048 → (c.hankSlot i).keep = true → ends (.hankUnpin src) (c.hankSlotMod i (fun x => { x with keep := false })) (.okR []))) ∧
    (s.takes src 0x0507 c r →
      let k := arg16 r.payload 2
      let l := ((c.hankSlot k).own).getD (c.bytesAt (MemId.hankStore.base + hankOff k) 2048)
      let fits := hankPhys l = b 0 ∧ hankMode l = c.carriedMode (b 0) ∧ hankRate l = c.fld (LRX_STATUS.RATE (b 0))
      let ready := c.pdOn 18 = true ∧ (c.hankSlot k).st = .held ∧ c.carriesPort (b 0) = true ∧ c.laneFailed (b 0) = false
      (8 < b 0 ∨ 2048 ≤ k → ends (.hankLoad src) c (.fail .badArg)) ∧
      (b 0 ≤ 8 → k < 2048 →
        (¬ready → ends (.hankLoad src) c (.fail .badState)) ∧
        (ready → ¬fits → ends (.hankLoad src) c (.fail .badArg)) ∧
        (ready → fits → c.laneUp (b 0) = true → bit (b 1) 0 = false → ends (.hankLoad src) c (.fail .badState)) ∧
        (ready → fits → c.laneUp (b 0) = false ∨ bit (b 1) 0 = true →
          exec (.hankLoad src) s = .next { s with chip := (c.queuePage ⟨b 0, k, .load⟩).conclude r (.runs (.hankLoad (b 0))) }))) ∧
    (s.takes src 0x0508 c r →
      (8 < b 0 → ends (.hankFlush src) c (.fail .badArg)) ∧
      (b 0 ≤ 8 → c.pdOn 18 = false → ends (.hankFlush src) c (.fail .badState)) ∧
      (b 0 ≤ 8 → c.pdOn 18 = true → c.restoring (b 0) = true →
        let d := { c with hnk := { c.hnk with flushWait := c.hnk.flushWait ++ [b 0] } }
        exec (.hankFlush src) s = .next { s with chip := d.conclude r (.runs (.hankFlush (b 0))) }) ∧
      (b 0 ≤ 8 → c.pdOn 18 = true → c.restoring (b 0) = false →
        ∃ d : Chip, ends (.hankFlush src) d (.okR (leBytes 2 (c.flushLane (b 0)).2)) ∧ d.lastGood (b 0) = none ∧ d.activeHank (b 0) = none))

/-- R61, R197, R200, R201, R207, R211, R214, R216, R219: frames and multiframes of line lane `n`, and the faults of port `p`, each from the state
that its rule names. -/
def Obligations.FramingSteps : Prop :=
  ∀ (s : State) (n : LLane) (p : PortNo),
    (∀ f : FrameOut, s.chip.sendsFrames n.1 = true → n.1 < 8 →
      let g := s.chip.frameGroup n.1
      (g.head? = some n.1 →
        ∃ t, exec (.frameSend n f) s = .next t ∧ (∀ k ∈ g, (t.chip.framerOf k).fn = ((s.chip.framerOf n.1).fn + 1) % 24) ∧
          ∀ m, m ∉ g → m ≠ 8 → (t.chip.framerOf m).fn = (s.chip.framerOf m).fn) ∧
      (g.head? ≠ some n.1 → exec (.frameSend n f) s = .next s)) ∧
    (∀ f : FrameOut, s.chip.sendsFrames n.1 = true → n.1 = 8 →
      let k := s.chip.plyCarry (s.chip.framerOf 8).fn
      (k = noLane ∨ s.chip.sendsFrames k = false →
        ∃ t, exec (.frameSend n f) s = .next t ∧ (t.chip.framerOf 8).fn = ((s.chip.framerOf 8).fn + 1) % 24 ∧
          ∀ m, m ≠ 8 → t.chip.framerOf m = s.chip.framerOf m) ∧
      (k ≠ noLane → s.chip.sendsFrames k = true → exec (.frameSend n f) s = .next s)) ∧
    (∀ f : FrameOut, s.chip.sendsFrames n.1 = false → exec (.frameSend n f) s = .next s) ∧
    (∀ l : List (LlrIn × LlrIn), s.chip.pdOn 17 = true → s.chip.fld (TWF_LANE_STATUS.FRAMING n.1) = 1 → 3 ≤ s.chip.rxState n.1 →
      s.chip.rxState n.1 < 7 → s.chip.flag (TWF_LANE_STATUS.FRAME_LOCK n.1) = false → l.length = 16384 →
      (let w := fawWrong (l.map (s.chip.softOf n.1))
       (w ≤ 3 → 2 ≤ (s.chip.framerOf n.1).matches_ → (s.chip.framerOf n.1).invMatches = 0 →
         ∃ t, exec (.twistFrame n l) s = .next t ∧ t.chip.flag (TWF_LANE_STATUS.FRAME_LOCK n.1) = true ∧
           t.chip.flag (LRX_STATUS.FRAME_LOCK n.1) = true ∧ t.chip.flag (TWF_LANE_STATUS.SEEK n.1) = false ∧
           t.chip.flag (TWF_LANE_STATUS.POL_INV n.1) = false) ∧
       (3 < w → w < 28 →
         ∃ t, exec (.twistFrame n l) s = .next t ∧ (t.chip.framerOf n.1).matches_ = 0 ∧ (t.chip.framerOf n.1).invMatches = 0 ∧
           t.chip.regs = s.chip.regs))) ∧
    (∀ nibs, s.chip.mbx.exec = [] → (s.chip.framerOf n.1).mfDone = some (nibs, true) →
      ∃ t, exec (.multiframe n) s = .next t ∧ (t.chip.framerOf n.1).mfDone = none ∧
        t.chip.fld (TWF_OH_ERR.MF_CRC n.1) = min (2 ^ (TWF_OH_ERR.MF_CRC n.1).w - 1) (s.chip.fld (TWF_OH_ERR.MF_CRC n.1) + 1) ∧
        t.chip.flag (TWF_LANE_STATUS.MF_VALID n.1) =
          (s.chip.flag (TWF_LANE_STATUS.MF_VALID n.1) && decide ((s.chip.framerOf n.1).mfFails = 0))) ∧
    (∀ nibs, s.chip.mbx.exec = [] → (s.chip.framerOf n.1).mfDone = some (nibs, false) →
      let b := fun i => 16 * nibs.getD (2 * i) 0 + nibs.getD (2 * i + 1) 0
      mfCrc ((List.range 10).map b) = 256 * b 10 + b 11 → (n.1 ≠ 8 ∨ s.chip.plyFitted = false) →
      ((s.chip.framerOf n.1).farChecked = true ∨ s.chip.lastGood n.1 = none) →
      ∃ t, exec (.multiframe n) s = .next t ∧ (t.chip.framerOf n.1).mfDone = none ∧ (t.chip.framerOf n.1).mfFails = 0 ∧
        (t.chip.framerOf n.1).farChecked = true ∧ t.chip.flag (TWF_LANE_STATUS.MF_VALID n.1) = true ∧
        t.chip.fld (TWF_FAR_ID_HI.FAR_HI n.1) = (256 * b 0 + b 1) % 2 ^ 16 ∧
        t.chip.fld (TWF_FAR_ID_LO.FAR_LO n.1) = (((b 2 * 256 + b 3) * 256 + b 4) * 256 + b 5) % 2 ^ 32 ∧
        t.chip.reg (TWF_FAR_INFO.addr n.1) = BitVec.ofNat 32 (((b 6 * 256 + b 7) * 256 + b 8) * 256 + b 9)) ∧
    (s.chip.portRuns p.1 = true → ∃ t, exec (.portRateFault p) s = .next t ∧ (t.chip.port p.1).rateFault = true ∧
      t.chip.reg (TWF_OH_ERR.addr n.1) = s.chip.reg (TWF_OH_ERR.addr n.1)) ∧
    (∃ t, exec (.rateFaultClear p) s = .next t ∧ (t.chip.port p.1).rateFault = false ∧
      t.chip.reg (TWF_OH_ERR.addr n.1) = s.chip.reg (TWF_OH_ERR.addr n.1)) ∧
    (∀ beyond : Bool, s.chip.portRuns p.1 = true → ∃ t, exec (.portSkew p beyond) s = .next t ∧ (t.chip.port p.1).skew = beyond ∧
      t.chip.reg (TWF_OH_ERR.addr n.1) = s.chip.reg (TWF_OH_ERR.addr n.1)) ∧
    (s.chip.fld (TWF_LANE_STATUS.FRAMING n.1) = 2 → s.chip.flag (TWF_LANE_STATUS.FRAME_LOCK n.1) = true →
      ∃ t, exec (.ieeeAlignLoss n) s = .next t ∧ t.chip.flag (TWF_LANE_STATUS.FRAME_LOCK n.1) = false ∧
        t.chip.flag (LRX_STATUS.FRAME_LOCK n.1) = false ∧ t.chip.flag (TWF_LANE_STATUS.SEEK n.1) = true)

/-! ### The creel (spec/09) -/

/-- R203, R227 to R232, R239 to R241, R246 to R250, R265: arrival, alone or as a copy of a mirrored pair, the spare's rotation and retirement,
the slot boundary, release, the outer RS decoders and the statistics window. -/
def Obligations.CreelSteps : Prop :=
  ∀ (s : State) (n : LLane) (p : PortNo),
    (∀ (at_ : Fin 64) (w : CwIn) (rest : List CwIn), (s.chip.framerOf n.1).words = w :: rest →
      let c := s.chip.newCodeword n.1 (s.chip.crl.cyc + at_.1) w
      (∃ t, exec (.codewordArrival n at_) s = .next t ∧ (t.chip.framerOf n.1).words = rest ∧
        (s.chip.pdOn 16 = true → s.chip.crlActive n.1 = true →
          (t.chip.crlOf n.1).win.arrived = (s.chip.crlOf n.1).win.arrived + 1)) ∧
      (s.chip.pdOn 16 = true → s.chip.crlActive n.1 = true → n.1 < 8 →
        (s.chip.crl.paired ≠ some n.1 →
          ∃ t, exec (.codewordArrival n at_) s = .next t ∧ t.chip.crl.cws = s.chip.crl.cws ++ [c]) ∧
        (s.chip.crl.paired = some n.1 → s.chip.waitingFor 8 w.fn c.arrive = none →
          ∃ t, exec (.codewordArrival n at_) s = .next t ∧ t.chip.crl.cws = s.chip.crl.cws ++ [{ c with wait := true }]) ∧
        (∀ i o, s.chip.crl.paired = some n.1 → s.chip.waitingFor 8 w.fn c.arrive = some i → s.chip.crl.cws[i]? = some o →
          ∃ t, exec (.codewordArrival n at_) s = .next t ∧ t.chip.crl.cws = s.chip.crl.cws.set i (mergePair c o)))) ∧
    (s.chip.pdOn 16 = true → s.chip.flag CRL_FLOAT_CFG.ROT_EN = true → s.chip.fld CRL_STATUS.SPARE ≠ 31 →
      exec .spareRotation s = .next { s with chip := { s.chip with crl := { s.chip.crl with rotate := true } } }) ∧
    (s.chip.pdOn 16 = true →
      ∃ t, exec (.slotBoundary [] [] [] []) s = .next t ∧ t.chip.crl.cyc = s.chip.crl.cyc + 64 ∧
        t.chip.fld CRL_STATUS.FLOAT_EFF = t.chip.floatLimit ∧
        (s.chip.fld CRL_STATUS.SPARE ≠ 31 →
          t.chip.fld CRL_STATUS.SPARE = if s.chip.crl.rotate then nextBobbin (s.chip.fld CRL_BOBBIN_FAIL.RETIRED) 25 (s.chip.fld CRL_STATUS.SPARE)
            else s.chip.fld CRL_STATUS.SPARE) ∧
        (∀ w ∈ t.chip.crl.cws, ∃ v ∈ s.chip.crl.cws, w.src = v.src ∧ w.fn = v.fn ∧
          w.soft = (if v.granted then Config.bobbinPass v.soft else v.soft) ∧ w.iters = (if v.granted then v.iters + 1 else v.iters)) ∧
        (s.chip.crl.active = maskOf 9 s.chip.crlActive → (∀ w ∈ s.chip.crl.cws, w.wait = false) →
          t.chip.crl.cws.length = s.chip.crl.cws.length)) ∧
    (∀ b : Fin 25, s.chip.pdOn 16 = true → s.chip.fld CRL_STATUS.SPARE = b.1 → bit (s.chip.fld CRL_BOBBIN_FAIL.RETIRED) b.1 = false →
      ∃ t, exec (.slotBoundary [b] [] [] []) s = .next t ∧ t.chip.crl.cyc = s.chip.crl.cyc + 64 ∧
        bit (t.chip.fld CRL_BOBBIN_FAIL.RETIRED) b.1 = true ∧ t.chip.fld CRL_STATUS.SPARE = 31 ∧
        t.chip.flag CRL_STATUS.NO_SPARE = true ∧ t.chip.fld CRL_STATUS.IN_SERVICE = s.chip.fld CRL_STATUS.IN_SERVICE) ∧
    (∀ (i : Nat) (v : Codeword) (parity : List (Fin 16384)), s.chip.crl.cws[i]? = some v → v.lane = n.1 → v.other = none →
      argMin (fun k => (s.chip.crl.cws[k]?).elim 0 (fun x => x.release)) ((List.range s.chip.crl.cws.length).filter (fun k =>
        (s.chip.crl.cws[k]?).elim false (fun x => x.lane == n.1 && decide (x.release < s.chip.crl.cyc + 64)))) = some i →
      let w := if parity = [] then v else v.spoil (parity.map (fun u => u.1)).eraseDups
      ∃ t, exec (.codewordRelease n parity) s = .next t ∧ t.chip.crl.cws = s.chip.crl.cws.eraseIdx i ∧
        (t.chip.crlOf n.1).win.released = (s.chip.crlOf n.1).win.released + 1 ∧
        (w.void = false → w.conv = true →
          t.chip.fld (CRL_HIST.COUNT n.1 (min w.iters 8)) =
            min (2 ^ (CRL_HIST.COUNT n.1 (min w.iters 8)).w - 1) (s.chip.fld (CRL_HIST.COUNT n.1 (min w.iters 8)) + 1) ∧
          t.chip.fld (CRL_LANE_MISS.DL_MISS n.1) = s.chip.fld (CRL_LANE_MISS.DL_MISS n.1)) ∧
        (w.void = false → w.conv = false →
          t.chip.fld (CRL_LANE_MISS.DL_MISS n.1) =
            min (2 ^ (CRL_LANE_MISS.DL_MISS n.1).w - 1) (s.chip.fld (CRL_LANE_MISS.DL_MISS n.1) + 1) ∧
          (t.chip.crlOf n.1).missSeen = true) ∧
        (w.void = true → v.src = n.1 →
          t.chip.fld (CRL_LANE_MISS.VOID n.1) = min (2 ^ (CRL_LANE_MISS.VOID n.1).w - 1) (s.chip.fld (CRL_LANE_MISS.VOID n.1) + 1)) ∧
        (∀ q, n.1 < 8 → q < 16 → s.chip.tribPort n.1 0 = some q → (s.chip.port q).bundle = false → s.chip.wholeLane n.1 = true →
          (t.chip.port q).fromLine = (s.chip.port q).fromLine ++ cutSyms 3072 (twHard (w.released.take 30720)))) ∧
    (s.chip.portRuns p.1 = true → s.chip.pdOn 16 = true →
      let good := fun (t : State) (w : List Nat) =>
        let y := ((s.chip.port p.1).decode w).2
        t.chip.fld (CRL_RS_CW.COUNT p.1) = min (2 ^ (CRL_RS_CW.COUNT p.1).w - 1) (s.chip.fld (CRL_RS_CW.COUNT p.1) + 1) ∧
        t.chip.fld (CRL_RS_UNCORR.COUNT p.1) =
          min (2 ^ (CRL_RS_UNCORR.COUNT p.1).w - 1) (s.chip.fld (CRL_RS_UNCORR.COUNT p.1) + b2n y.isNone) ∧
        t.chip.fld (CRL_RS_CORR.COUNT p.1) =
          min (2 ^ (CRL_RS_CORR.COUNT p.1).w - 1) (s.chip.fld (CRL_RS_CORR.COUNT p.1) + y.getD 0) ∧
        (t.chip.port p.1).realign = false
      (∀ skip, (s.chip.port p.1).twist = true → 540 ≤ ((s.chip.port p.1).fromLine.drop skip.1).length →
        let l := (s.chip.port p.1).fromLine.drop skip.1
        ∃ t, exec (.rsCodeword p (.fromTwist skip)) s = .next t ∧ good t (l.take 540 ++ List.replicate 4 0) ∧
          (t.chip.port p.1).fromLine = l.drop 540) ∧
      (∀ w : List (Fin 1024), (s.chip.port p.1).twist = false →
        ∃ t, exec (.rsCodeword p (.fromIeee w)) s = .next t ∧ good t (w.map (fun v => v.1))) ∧
      (∀ skip (lanes : List (HLane × List (Fin 1024))),
        let syms := s.chip.hostSyms skip.1 (lanes.map (fun l => (l.1.1, l.2.map (fun v => v.1))))
        (s.chip.port p.1).hostLanes.zipIdx.all (fun l =>
          decide ((s.chip.port p.1).muxShare l.2 ≤ (syms (s.chip.physHost l.1)).length)) = true →
        ∃ t, exec (.rsCodeword p (.fromHost skip lanes)) s = .next t ∧
          t.chip.fld (CRL_RS_TX_ERR.COUNT p.1) = min (2 ^ (CRL_RS_TX_ERR.COUNT p.1).w - 1)
            (s.chip.fld (CRL_RS_TX_ERR.COUNT p.1) + b2n (rsWrong (s.chip.muxHost p.1 syms))) ∧
          t.chip.fld (CRL_RS_CW.COUNT p.1) = s.chip.fld (CRL_RS_CW.COUNT p.1))) ∧
    (s.chip.pdOn 16 = true →
      ∃ t, exec (.statsWindow []) s = .next t ∧ t.chip.crl.uncorrSeen = 0 ∧ (s.chip.mbx.exec = [] → t.chip.fly.dropSeen = false) ∧
        let w := (s.chip.crlOf n.1).win
        (n.1 < 8 → s.chip.crlActive n.1 = true → w.released ≠ 0 →
          t.chip.fld (CRL_LANE_ITER.ITER_AVG n.1) = roundedDiv (256 * w.iters) w.released % 65536) ∧
        (n.1 < 8 → s.chip.crlActive n.1 = true → w.arrived ≠ 0 →
          t.chip.fld (CRL_LANE_ITER.UNSAT_AVG n.1) = roundedDiv w.unsat w.arrived % 65536))

/-- R243, R252 to R254, R319: the creel commands that pass the checks of R306. -/
def Obligations.CreelCommands : Prop :=
  ∀ (s : State) (src : CmdSrc) (c : Chip) (r : Req),
    let b := byteAt r.payload
    let f := arg32 r.payload 4
    let ends := fun (j : Instr) (d : Chip) (y : Reply) => exec j s = .next { s with chip := d.conclude r (.done y) }
    (s.takes src 0x0601 c r →
      (b 0 = 0 → 22 < bitsOf f 0 5 ∨ bitsOf f 12 4 < 2 ∨ 8 < bitsOf f 12 4 ∨ 8 < bitsOf f 8 4 → ends (.creelCfg src) c (.fail .badArg)) ∧
      (b 0 = 0 → bitsOf f 0 5 ≤ 22 → 2 ≤ bitsOf f 12 4 → bitsOf f 12 4 ≤ 8 → bitsOf f 8 4 ≤ 8 → c.pdOn 16 = true →
        ∃ d : Chip, ends (.creelCfg src) d (.okR []) ∧ d.reg CRL_FLOAT_CFG.addr = BitVec.ofNat 32 f &&& 0x01FFFF1F ∧
          d.reg CRL_SLUB_CFG.addr = BitVec.ofNat 32 (arg32 r.payload 8) &&& 0x00FF0FFF ∧
          ∀ a, a ≠ CRL_FLOAT_CFG.addr → a ≠ CRL_SLUB_CFG.addr → d.reg a = c.reg a) ∧
      (b 0 = 0 → bitsOf f 0 5 ≤ 22 → 2 ≤ bitsOf f 12 4 → bitsOf f 12 4 ≤ 8 → bitsOf f 8 4 ≤ 8 → c.pdOn 16 = false →
        ∃ d : Chip, ends (.creelCfg src) d (.okR []) ∧ d.regs = c.regs ∧
          tabGet resetWord d.shadowNow.fwRegs CRL_FLOAT_CFG.addr = BitVec.ofNat 32 f &&& 0x01FFFF1F ∧
          tabGet resetWord d.shadowNow.fwRegs CRL_SLUB_CFG.addr = BitVec.ofNat 32 (arg32 r.payload 8) &&& 0x00FF0FFF) ∧
      (1 < b 0 ∨ (b 0 = 1 ∧ (15 < b 1 ∨ b 2 < 8 ∨ 32 < b 2)) → ends (.creelCfg src) c (.fail .badArg)) ∧
      (b 0 = 1 → b 1 ≤ 15 → 8 ≤ b 2 → b 2 ≤ 32 →
        let shared := (c.port (b 1)).lineLanes.any (fun n => (c.portsOn n).any (fun q => decide ((c.port q).st = .up)))
        ((c.port (b 1)).st ≠ .ready ∨ (c.port (b 1)).twist = false ∨ shared = true → ends (.creelCfg src) c (.fail .badState)) ∧
        ((c.port (b 1)).st = .ready → (c.port (b 1)).twist = true → c.pdOn 16 = true → shared = false →
          ∃ d : Chip, ends (.creelCfg src) d (.okR []) ∧
            (∀ n ∈ (c.port (b 1)).lineLanes, d.reg (CRL_LANE_CFG.addr n) = BitVec.ofNat 32 (b 2) ∧
              ∀ w ∈ d.crl.cws, w.lane ≠ n)))) ∧
    (s.takes src 0x0602 c r →
      ends (.creelStatus src) c (.okR (wordBytes [c.reg CRL_STATUS.addr, c.reg CRL_BOBBIN_FAIL.addr, c.reg CRL_BUF_STATUS.addr]))) ∧
    (s.takes src 0x0603 c r →
      (8 < b 0 → ends (.creelStats src) c (.fail .badArg)) ∧
      (b 0 ≤ 8 → bit (b 1) 0 = true → r.level = 0 → ends (.creelStats src) c (.fail .denied)) ∧
      (let regs := [CRL_LANE_STATUS.addr (b 0), CRL_LANE_ITER.addr (b 0), CRL_LANE_BER.addr (b 0), CRL_LANE_MARGIN.addr (b 0),
          CRL_LANE_MISS.addr (b 0), CRL_LANE_SLUB.addr (b 0)] ++ (List.range 11).map (CRL_HIST.addr (b 0))
       (b 0 ≤ 8 → bit (b 1) 0 = false → ends (.creelStats src) c (.okD (wordBytes (regs.map c.seen)))) ∧
       (b 0 ≤ 8 → bit (b 1) 0 = true → r.level ≠ 0 →
          ends (.creelStats src) (c.clearCreelLane (b 0)) (.okD (wordBytes (regs.map c.seen)))))) ∧
    (s.takes src 0x0604 c r →
      (15 < b 0 → ends (.creelRsStats src) c (.fail .badArg)) ∧
      (b 0 ≤ 15 → bit (b 1) 0 = true → r.level = 0 → ends (.creelRsStats src) c (.fail .denied)) ∧
      (b 0 ≤ 15 → bit (b 1) 0 = false → ends (.creelRsStats src) c (.okR (wordBytes ((rsRegs (b 0)).map c.seen)))) ∧
      (b 0 ≤ 15 → bit (b 1) 0 = true → r.level ≠ 0 →
        ends (.creelRsStats src) (c.forAll (rsRegs (b 0)) Chip.clearCount) (.okR (wordBytes ((rsRegs (b 0)).map c.seen)))))

/-! ### The Ply lane (spec/10), ports and system commands (spec/03, spec/12) -/

/-- R253, R264, R270, R272 to R276: the timers of the fault logic, and the Ply commands that pass the checks of R306. -/
def Obligations.PlyCommands : Prop :=
  ∀ (s : State) (src : CmdSrc) (c : Chip) (r : Req),
    let b := byteAt r.payload
    let cfg := arg32 r.payload 0
    let busy := c.plyRx = plySubst ∨ c.plyRx = plySubstWait
    let ends := fun (j : Instr) (d : Chip) (y : Reply) => exec j s = .next { s with chip := d.conclude r (.done y) }
    (s.chip.plyFitted = true → s.chip.locked 8 = false →
      ∃ t, exec .plyDown s = .next t ∧ t.chip.ply = { s.chip.ply with downTimed := true } ∧ t.chip.mem = s.chip.mem) ∧
    (∀ n : Fin 8, s.chip.plyBeyond n.1 = true → s.chip.twistFault n.1 = true → s.chip.ply.lost.contains n.1 = false →
      ∃ t, exec (.laneLost n) s = .next t ∧ t.chip.ply = { s.chip.ply with lost := s.chip.ply.lost ++ [n.1] } ∧ t.chip.mem = s.chip.mem) ∧
    (s.chip.plyRx = plySubstWait → s.chip.plyLane ≤ 7 → s.chip.mbx.exec = [] →
      ∃ t, exec .substWaitTimeout s = .next t ∧ t.chip.plyRx = (if s.chip.locked 8 then plyIdle else plyDown) ∧ t.chip.plyLane = noLane ∧
        t.chip.fld TWF_PLY_CNT.UNAVAIL_CNT = min 255 (s.chip.fld TWF_PLY_CNT.UNAVAIL_CNT + 1)) ∧
    (s.takes src 0x0701 c r →
      (busy → c.plyFitted = true → bit cfg 8 = false → ends (.plyCfg src) c (.fail .badState)) ∧
      (busy → c.flag TWF_PLY_CFG.SUBST_EN = true → bit cfg 6 = false → ends (.plyCfg src) c (.fail .badState)) ∧
      (¬busy → c.pdOn 17 = true → bit cfg 8 = c.plyFitted →
        ∃ d : Chip, ends (.plyCfg src) d (.okR []) ∧ d.reg TWF_PLY_CFG.addr = BitVec.ofNat 32 (cfg % 512) ∧
          d.reg TWF_PLY_THR.addr = BitVec.ofNat 32 (arg32 r.payload 4) ∧
          ∀ a, a ≠ TWF_PLY_CFG.addr → a ≠ TWF_PLY_THR.addr → settleReg a = false → d.reg a = c.reg a)) ∧
    (s.takes src 0x0702 c r →
      (let regs := [c.reg TWF_PLY_STATUS.addr, c.laneFailedWord, c.seen TWF_PLY_CNT.addr] ++
          (List.range 8).map (fun n => c.reg (TWF_PLY_RISK.addr n)) ++ [c.reg GLB_FRAY_STATUS.addr, c.reg GLB_FRAY_HIST.addr]
       (bit (b 0) 0 = false → ends (.plyStatus src) c (.okD (wordBytes regs))) ∧
       (bit (b 0) 0 = true → r.level = 0 → ends (.plyStatus src) c (.fail .denied)) ∧
       (bit (b 0) 0 = true → r.level ≠ 0 → ends (.plyStatus src) (c.clearCount TWF_PLY_CNT.addr) (.okD (wordBytes regs))))) ∧
    (s.takes src 0x0703 c r →
      (7 < b 0 → b 0 ≠ 0xFF → c.substRuns = false → ends (.plyMirror src) c (.fail .badArg)) ∧
      (c.substRuns = true → ends (.plyMirror src) c (.fail .busy)) ∧
      (b 0 ≤ 7 ∨ b 0 = 0xFF → c.substRuns = false → busy → ends (.plyMirror src) c (.fail .badState)) ∧
      (b 0 ≤ 7 → c.substRuns = false → ¬busy → c.eligible (b 0) = false → ends (.plyMirror src) c (.fail .badArg)) ∧
      (c.substRuns = false → ¬busy → c.pdOn 17 = false → b 0 = 0xFF ∨ (b 0 ≤ 7 ∧ c.eligible (b 0) = true) →
        ∃ d : Chip, ends (.plyMirror src) d (.okR []) ∧ d.regs = c.regs ∧ d.ply = c.ply) ∧
      (c.substRuns = false → ¬busy → c.pdOn 17 = true →
        (b 0 = 0xFF → ∃ d : Chip, ends (.plyMirror src) d (.okR []) ∧ d.flag TWF_PLY_CFG.PIN_EN = false ∧
          d.flag TWF_PLY_CFG.SUBST_EN = c.flag TWF_PLY_CFG.SUBST_EN) ∧
        (b 0 ≤ 7 → c.eligible (b 0) = true → ∃ d : Chip, ends (.plyMirror src) d (.okR []) ∧ d.flag TWF_PLY_CFG.PIN_EN = true ∧
          d.fld TWF_PLY_CFG.PIN_LANE = b 0 ∧ d.flag TWF_PLY_CFG.SUBST_EN = c.flag TWF_PLY_CFG.SUBST_EN))) ∧
    (s.takes src 0x0704 c r →
      (7 < b 0 → c.substRuns = false → ends (.plySubst src) c (.fail .badArg)) ∧
      (c.substRuns = true → ends (.plySubst src) c (.fail .busy)) ∧
      (b 0 ≤ 7 → c.substRuns = false → busy → ends (.plySubst src) c (.fail .badState)) ∧
      (b 0 ≤ 7 → c.substRuns = false → ¬busy → c.eligible (b 0) = false → ends (.plySubst src) c (.fail .badArg)) ∧
      (b 0 ≤ 7 → c.substRuns = false → ¬busy → c.eligible (b 0) = true → c.crl.paired = some (b 0) →
        c.flag TWF_PLY_CFG.SUBST_EN = true →
        ∃ t, exec (.plySubst src) s = .next t ∧ t.chip.plyRx = plySubst ∧ t.chip.plyLane = b 0 ∧
          bit (t.chip.fld TWF_LANE_FAILED.FAILED) (b 0) = true) ∧
      (b 0 ≤ 7 → c.substRuns = false → ¬busy → c.eligible (b 0) = true →
        c.crl.paired ≠ some (b 0) ∨ c.flag TWF_PLY_CFG.SUBST_EN = false → c.plyLane = b 0 ∨ c.plyRx = plyDown →
        exec (.plySubst src) s =
          .next { s with chip := (Chip.conclude { c with ply := { c.ply with planned := some (b 0) } } r (.runs (.plySubst (b 0)))) }))

/-- R54, R59, R63, R66 to R68, R313, R314: the mode and port commands that pass the checks of R306. -/
def Obligations.PortCommands : Prop :=
  ∀ (s : State) (src : CmdSrc) (c : Chip) (r : Req) (legs : BitVec 16),
    let p := byteAt r.payload 0
    let a := addReqOf r.payload
    let ends := fun (j : Instr) (d : Chip) (y : Reply) => exec j s = .next { s with chip := d.conclude r (.done y) }
    (s.takes src 0x0201 c r →
      (a.mode = none → exec (.addPort src legs) s = .next { s with chip := (c.conclude r (.done (.fail .badArg))).settle }) ∧
      (∀ m, a.mode = some m → c.canAdd a m = false →
        exec (.addPort src legs) s = .next { s with chip := (c.conclude r (.done (.fail .badState))).settle }) ∧
      (∀ m, a.mode = some m → c.canAdd a m = true →
        ∃ t, exec (.addPort src legs) s = .next t ∧ (t.chip.port p).mode = a.code ∧ (t.chip.port p).st ≠ .absent ∧
          (t.chip.port p).hostFirst = a.hostFirst ∧ (t.chip.port p).hostCount = m.host ∧ (t.chip.port p).lineMask = a.mask)) ∧
    (s.takes src 0x0202 c r →
      (15 < p → exec (.removePort src) s = .next { s with chip := (c.conclude r (.done (.fail .badArg))).finishRemovals }) ∧
      (p ≤ 15 → (c.port p).st = .absent →
        exec (.removePort src) s = .next { s with chip := (c.conclude r (.done (.fail .badState))).finishRemovals }) ∧
      (p ≤ 15 → (c.port p).st ≠ .absent → c.mbx.exec = [] → c.removalWaits p = false →
        ∃ t, exec (.removePort src) s = .next t ∧ (t.chip.port p).st = .absent) ∧
      (p ≤ 15 → (c.port p).st ≠ .absent → c.mbx.exec = [] → c.removalWaits p = true →
        ∃ t, exec (.removePort src) s = .next t ∧ (t.chip.port p).st = .configuring ∧ (t.chip.port p).wantUp = false)) ∧
    (∀ on : Bool, s.takes src (if on then 0x0203 else 0x0204) c r →
      (let i := if on then Instr.enablePort src else Instr.disablePort src
       (15 < p → ends i c (.fail .badArg)) ∧
       (p ≤ 15 → (c.port p).st = .absent ∨ (c.port p).st = .configuring → ends i c (.fail .badState)) ∧
       (p ≤ 15 → (c.port p).st ≠ .absent → (c.port p).st ≠ .configuring →
         ∃ d : Chip, ends i d (.okR (leBytes 4 (d.portMap p).toNat)) ∧ (d.port p).wantUp = on ∧ d.regs = c.regs))) ∧
    (s.takes src 0x0205 c r → ends (.getPortMap src) c (.okD (wordBytes ((List.range 16).map c.portMap))))

/-- R47, R67, R93, R273, R305, R308, R312, R315, R316, R323, R336: the system commands and TEL_PORT that pass the checks of R306. The time
limit of an executing command ends it with TIMEOUT; one that names no executing command changes nothing. -/
def Obligations.SystemCommands : Prop :=
  (∀ (s : State) (src : CmdSrc) (c : Chip) (r : Req),
     let ends := fun (j : Instr) (d : Chip) (y : Reply) => exec j s = .next { s with chip := d.conclude r (.done y) }
     (s.takes src 0x0101 c r →
       ends (.sysInfo src) c (.okR (leBytes 4 (c.reg GLB_ID.addr).toNat ++ [0x41#8] ++ leBytes 1 (c.fld GRD_LC.STATE) ++
         leBytes 1 s.dist.holder ++ leBytes 1 (b2n c.plyFitted + 2 * c.fld GLB_STRAPS.MGR_SEL) ++ leBytes 6 c.unitIdent))) ∧
     (s.takes src 0x0102 c r → ends (.sysEcho src) c (.okD r.payload)) ∧
     (s.takes src 0x0103 c r → ends (.sysTime src) c (.okR (leBytes 6 c.evt.time))) ∧
     (s.takes src 0x0104 c r →
       (c.flash.present = false → ends (.sysCfgSave src) c (.fail .badState)) ∧
       (c.flash.present = true → ends (.sysCfgSave src) c.saveShadow (.okR []))) ∧
     (s.takes src 0x0902 c r → ends (.telPort src) c (c.telPort (byteAt r.payload 0)))) ∧
  (∀ (s : State) (i : Nat),
     (s.chip.mbx.exec[i]? = none → exec (.commandTimeLimit (.running i)) s = .next s) ∧
     (∀ e, s.chip.mbx.exec[i]? = some e →
       (∀ h, e.wait = .hostRetrain h →
         let y : Reply := { status := .timeout, result := leBytes 4 (s.chip.reg (HLN_STATUS.addr h)).toNat }
         exec (.commandTimeLimit (.running i)) s = .next { s with chip := s.chip.endCmd e y }) ∧
       (∀ n, e.wait = .lineRetrain n → s.chip.rxState n ≠ 2 → exec (.commandTimeLimit (.running i)) s = .next s) ∧
       (∀ n, e.wait = .plySubst n → ∃ t, exec (.commandTimeLimit (.running i)) s = .next t ∧ t.chip.ply.planned = none) ∧
       (∀ tag, e.wait = .flyRequest tag → ∃ t, exec (.commandTimeLimit (.running i)) s = .next t ∧
         ∀ x ∈ t.chip.fly.flight, x.1 ≠ tag) ∧
       (∀ p a b, e.wait = .addPort p a b → ∃ t, exec (.commandTimeLimit (.running i)) s = .next t ∧ (t.chip.port p).st = .absent)))

/-! ### The mailbox (spec/11) -/

/-- R293, R294, R296, R298, R299, R378: the host's accesses to the mailbox that the fabric admits: a doorbell posts a FREE slot at the level
of the session and counts against any other, a slot is writable while FREE and stores the word, byte for byte, and a free bit frees a
DONE slot. -/
def Obligations.MailboxAccesses : Prop :=
  (∀ (s : State) (m : Master) (v : Word),
     (s.admits m MBX_DOORBELL.addr →
       (∀ i : Fin 16, getBits v 0 4 = i.1 → s.chip.slot i.1 = .free → s.chip.served = false →
         ∃ t, exec (.doorbell m v) s = .next t ∧ t.chip.slot i.1 = .posted ∧ t.chip.mbx.priv[i.1] = s.chip.sessionLevel ∧
           t.chip.mbx.queue = s.chip.mbx.queue ++ [.slot i] ∧ t.chip.mem = s.chip.mem) ∧
       (∀ i : Fin 16, getBits v 0 4 = i.1 → s.chip.slot i.1 ≠ .free →
         ∃ t, exec (.doorbell m v) s = .next t ∧ t.chip.mbx = s.chip.mbx ∧ t.chip.mem = s.chip.mem ∧
           t.chip.fld MBX_ERR.DB_BUSY = min (2 ^ MBX_ERR.DB_BUSY.w - 1) (s.chip.fld MBX_ERR.DB_BUSY + 1))) ∧
     (∀ (i : Fin 16) (w : Fin 64), s.admits m (MemId.mailbox.base + 0x100 * i.1 + 4 * w.1) → s.chip.slot i.1 ≠ .free →
       s.dist.holder = 0 ∨ masterSpindle m ≠ s.dist.holder →
       ∃ t, exec (.slotWrite m i w v) s = .next t ∧ t.chip.mem = s.chip.mem ∧ t.chip.mbx = s.chip.mbx ∧
         t.chip.fld MBX_ERR.SLOT_WRITE = min (2 ^ MBX_ERR.SLOT_WRITE.w - 1) (s.chip.fld MBX_ERR.SLOT_WRITE + 1)) ∧
     (s.admits m MBX_SLOT_FREE.addr →
       ∃ t, exec (.slotFree m v) s = .next t ∧ t.chip.mem = s.chip.mem ∧
         ∀ i : Fin 16, t.chip.slot i.1 = (if v.getLsbD i.1 = true ∧ s.chip.slot i.1 = .done then .free else s.chip.slot i.1)) ∧
     (s.admits m MBX_HOST_SLEEP.addr →
       ∃ t, exec (.hostSleep m v) s = .next t ∧ t.chip.flag MBX_HOST_SLEEP.SLEEP = (getBits v 0 1 == 1) ∧
         t.chip.mbx.pend = (if getBits v 0 1 = 1 then [] else s.chip.mbx.pend) ∧ t.chip.mbx.slots = s.chip.mbx.slots)) ∧
  (∀ (s : State) (m : Master) (i : Fin 16) (w : Fin 64) (v : Word),
     let a := MemId.mailbox.base + 0x100 * i.1 + 4 * w.1
     s.admits m a → s.chip.slot i.1 = .free →
     ((s.chip.answer m false 0).writeMem32 .mailbox (0x100 * i.1 + 4 * w.1) v).2 = true →
     ∃ t, exec (.slotWrite m i w v) s = .next t ∧ (∀ k, k < 4 → t.chip.byte (a + k) = BitVec.ofNat 8 (v.toNat / 2 ^ (8 * k))) ∧
       (∀ x, x < a ∨ a + 4 ≤ x → t.chip.byte x = s.chip.byte x) ∧ t.chip.mbx = s.chip.mbx)

/-- R286, R295 to R298, R322: the oldest held completion is posted when the ring has room, its slot becomes DONE and PROD moves on, and the
entry to module low power begins where it is a LOW_POWER's; a moderation
timeout signals every pending completion; a new holder takes over what executes. -/
def Obligations.CompletionsArePosted : Prop :=
  ∀ s : State,
    (∀ x l, s.chip.mbx.held = x :: l → s.chip.ringFull = false → x.slot < 16 →
      ∃ t, exec .heldCompletionPost s = .next t ∧ t.chip.mbx.held = l ∧ t.chip.slot x.slot = .done ∧
        (t.chip.reg MBX_CPL_PROD.addr).toNat = (s.chip.prod + 1) % 128 ∧
        (∀ k, k < 32 → t.chip.byte (MemId.mailbox.base + 0x1000 + 0x20 * (s.chip.prod % 64) + k) =
          ((x.bytes (1 - s.chip.prod / 64) s.chip.evt.time)[k]?).getD 0) ∧
        (∀ i, i ≠ x.slot → t.chip.slot i = s.chip.slot i) ∧
        (x.lowPower = true → t.chip.pmu.entering = true ∧ t.chip.flag GRD_DOFF_STATUS.RUNNING = true) ∧
        (x.lowPower = false → t.chip.pmu = s.chip.pmu)) ∧
    (∀ x l, s.chip.mbx.held = x :: l → s.chip.ringFull = true → exec .heldCompletionPost s = .next s) ∧
    (∀ q l, s.chip.mbx.pend = q :: l → q.timed = true →
      ∃ t, exec .moderationTimeout s = .next t ∧ t.chip.mbx.pend = [] ∧ t.chip.mbx.slots = s.chip.mbx.slots ∧ t.chip.mem = s.chip.mem) ∧
    (s.chip.spn.takeover = true → s.dist.holder ≠ 0 →
      ∃ t, exec .takeover s = .next t ∧ t.chip.mbx.exec = [] ∧ t.chip.spn.takeover = false ∧ t.dist = s.dist ∧
        ((∀ i, s.chip.slot i ≠ .executing) → t.chip.mbx = { s.chip.mbx with held := [], exec := [] } ∧ t.chip.mem = s.chip.mem))
/-! ### Power, low power and temperature (spec/17, spec/18, spec/19) -/

/-- R429, R430, R432, R444: a group request by a write to `PMU_GRP_REQ` that the fabric admits: a reserved TARGET or MASK is ignored, a
request beside a running one is BUSY, a wake climbs the ladder, one towards RET or OFF asks its domains in turn, and one whose domains
are all at the target succeeds at once. -/
def Obligations.GroupRequestStarts : Prop :=
  ∀ (s : State) (m : Master) (v : Word), s.admits m PMU_GRP_REQ.addr →
    let mask := getBits v 0 22
    let tg := getBits v 24 2
    (tg = 3 ∨ mask = 0 ∨ mask % 2 = 1 → exec (.groupRequest m v) s = .next (s.answered m false)) ∧
    (tg ≠ 3 → mask ≠ 0 → mask % 2 = 0 →
      (s.chip.pmu.grp.isSome = true →
        ∃ t, exec (.groupRequest m v) s = .next t ∧ t.chip.fld PMU_GRP_STATUS.RESULT = 3 ∧ t.chip.pmu = s.chip.pmu ∧
          t.chip.fld PMU_GRP_STATUS.REQUESTER = masterSpindle m ∧ t.chip.flag PMU_GRP_STATUS.BUSY = s.chip.flag PMU_GRP_STATUS.BUSY) ∧
      (s.chip.pmu.grp = none →
        (tg = 2 → (domainsOf mask).any (fun d => !(s.chip.pdOn d)) = true →
          ∃ t, exec (.groupRequest m v) s = .next t ∧ t.chip.flag PMU_GRP_STATUS.BUSY = true ∧ t.chip.fld PMU_GRP_STATUS.PHASE = 3 ∧
            t.chip.fld PMU_GRP_STATUS.RUNG = 0 ∧ t.chip.pmu.pd = s.chip.pmu.pd ∧ t.chip.pmu.grp =
              some ⟨mask, 2, masterSpindle m, none, .ladder, [], [], (domainsOf mask).filter (fun d => !(s.chip.pdOn d)), 0, []⟩) ∧
        (tg ≤ 1 → s.chip.toAsk mask tg ≠ [] →
          ∃ t, exec (.groupRequest m v) s = .next t ∧ t.chip.flag PMU_GRP_STATUS.BUSY = true ∧ t.chip.fld PMU_GRP_STATUS.PHASE = 1 ∧
            t.chip.pmu.pd = s.chip.pmu.pd ∧
            t.chip.pmu.grp = some ⟨mask, tg, masterSpindle m, none, .quiesce, [], s.chip.toAsk mask tg, [], 0, []⟩) ∧
        ((if tg = 2 then (domainsOf mask).any (fun d => !(s.chip.pdOn d)) = false else s.chip.toAsk mask tg = []) →
          ∃ t, exec (.groupRequest m v) s = .next t ∧ t.chip.pmu.grp = none ∧ t.chip.fld PMU_GRP_STATUS.RESULT = 1 ∧
            t.chip.flag PMU_GRP_STATUS.BUSY = false ∧ (∀ d, t.chip.pdOf d = s.chip.pdOf d))))

/-- R426, R428, R429, R432 to R434, R446: the votes and the ladder of a running group request: a no ends it with every domain as it was, the
last yes takes every domain to its target, and the ladder's last rung brings every climbing domain to ON. A vote or a rung that no
running request waits for does nothing. -/
def Obligations.GroupRequestEnds : Prop :=
  (∀ (s : State) (inTime : Bool) (bad : List (Fin 22 × Fin 2)), s.chip.pmu.grp = none →
    exec (.quiesceVote inTime) s = .next s ∧ exec (.ladderRung bad) s = .next s ∧ exec (.ladderComplete bad) s = .next s) ∧
  ∀ (s : State) (g : GrpReq), s.chip.pmu.grp = some g →
    (∀ (inTime : Bool) (bad : List (Fin 22 × Fin 2)),
      (g.rest = [] → exec (.quiesceVote inTime) s = .next s) ∧
      (g.phase ≠ .ladder ∨ 3 ≤ g.rung ∨ s.chip.suppliesFor g.climbing = false → exec (.ladderRung bad) s = .next s) ∧
      (g.phase ≠ .ladder ∨ g.rung ≠ 3 ∨ s.chip.suppliesFor g.climbing = false → exec (.ladderComplete bad) s = .next s)) ∧
    (∀ (d : Nat) (l : List Nat) (inTime : Bool), g.rest = d :: l → d < 32 →
      (inTime = false ∨ s.chip.votesNo s.dist.holder d = true →
        ∃ t, exec (.quiesceVote inTime) s = .next t ∧ t.chip.pmu = { s.chip.pmu with grp := none } ∧ t.dist = s.dist ∧
          t.chip.fld PMU_GRP_STATUS.RESULT = 2 ∧ t.chip.fld PMU_GRP_STATUS.REFUSER = d ∧ t.chip.flag PMU_GRP_STATUS.BUSY = false) ∧
      (inTime = true → s.chip.votesNo s.dist.holder d = false → l ≠ [] →
        ∃ t, exec (.quiesceVote inTime) s = .next t ∧ t.chip.pmu = { s.chip.pmu with grp := some { g with voted := g.voted ++ [d], rest := l } } ∧
          t.dist = s.dist) ∧
      (inTime = true → s.chip.votesNo s.dist.holder d = false → l = [] → (∀ e ∈ g.voted ++ [d], 0 < e ∧ e < 22) →
        ∃ t, exec (.quiesceVote inTime) s = .next t ∧ t.chip.pmu.grp = none ∧ t.chip.fld PMU_GRP_STATUS.RESULT = 1 ∧
          t.chip.flag PMU_GRP_STATUS.BUSY = false ∧
          (∀ e, t.chip.pdOf e = (if e ∈ g.voted ++ [d] then (if g.target = 1 then .ret else .off) else s.chip.pdOf e)))) ∧
    (∀ bad : List (Fin 22 × Fin 2), g.phase = .ladder → s.chip.suppliesFor g.climbing = true →
      (g.rung < 3 → ∃ t, exec (.ladderRung bad) s = .next t ∧ t.chip.fld PMU_GRP_STATUS.RUNG = g.rung + 1 ∧
        t.chip.pmu.pd = s.chip.pmu.pd ∧ (∃ h, t.chip.pmu.grp = some h ∧ h.rung = g.rung + 1 ∧ h.climbing = g.climbing)) ∧
      (g.rung = 3 → (∀ e ∈ g.climbing, 0 < e ∧ e < 22) →
        ∃ t, exec (.ladderComplete bad) s = .next t ∧ t.chip.pmu.grp = none ∧ t.chip.fld PMU_GRP_STATUS.RESULT = 1 ∧
          (∀ e, t.chip.pdOf e = (if e ∈ g.climbing then .on else s.chip.pdOf e))))

/-- R320 to R322, R430, R431, R435, R436, R480: the power commands that pass the checks of R306, module low power and what wakes the part. -/
def Obligations.PowerCommands : Prop :=
  ∀ (s : State) (src : CmdSrc) (c : Chip) (r : Req) (m : Master) (v : Word),
    let mask := arg32 r.payload 0
    let tg := byteAt r.payload 4
    let ends := fun (j : Instr) (d : Chip) (y : Reply) => exec j s = .next { s with chip := d.conclude r (.done y) }
    (s.takes src 0x0801 c r →
      (mask = 0 ∨ mask % 2 = 1 ∨ 2 ^ 22 ≤ mask ∨ 2 < tg → ends (.pwrSet src) c (.fail .badArg)) ∧
      (mask ≠ 0 → mask % 2 = 0 → mask < 2 ^ 22 → c.pmu.grp = none → tg = 2 → (domainsOf mask).any (fun d => !(c.pdOn d)) = true →
        ∃ t, exec (.pwrSet src) s = .next t ∧ t.chip.pmu.pd = c.pmu.pd ∧ t.chip.flag PMU_GRP_STATUS.BUSY = true ∧
          t.chip.pmu.grp =
            some ⟨mask, 2, s.dist.holder, some src, .ladder, [], [], (domainsOf mask).filter (fun d => !(c.pdOn d)), 0, []⟩) ∧
      (mask ≠ 0 → mask % 2 = 0 → mask < 2 ^ 22 → tg ≤ 2 →
        (c.pmu.grp.isSome = true → ends (.pwrSet src) (c.grpResult 3 0 s.dist.holder) (.fail .busy)) ∧
        (c.pmu.grp = none → tg ≤ 1 → c.toAsk mask tg ≠ [] →
          ∃ t, exec (.pwrSet src) s = .next t ∧ t.chip.pmu.pd = c.pmu.pd ∧ t.chip.flag PMU_GRP_STATUS.BUSY = true ∧
            t.chip.pmu.grp = some ⟨mask, tg, s.dist.holder, some src, .quiesce, [], c.toAsk mask tg, [], 0, []⟩) ∧
        (c.pmu.grp = none → (if tg = 2 then (domainsOf mask).any (fun d => !(c.pdOn d)) = false else c.toAsk mask tg = []) →
          ∃ t, exec (.pwrSet src) s = .next t ∧ t.chip.pmu.grp = none ∧ t.chip.fld PMU_GRP_STATUS.RESULT = 1 ∧
            (∀ d, t.chip.pdOf d = c.pdOf d)))) ∧
    (s.takes src 0x0802 c r → ends (.pwrStatus src) c (.okR (wordBytes [c.pdWord 0, c.pdWord 1]))) ∧
    (s.takes src 0x0803 c r →
      ((List.range 16).any (fun p => decide ((c.port p).st = .up)) = true → byteAt r.payload 0 % 2 = 0 →
        ends (.lowPower src) c (.fail .badState)) ∧
      ((List.range 16).any (fun p => decide ((c.port p).st = .up)) = false ∨ byteAt r.payload 0 % 2 = 1 →
        let d := c.saveShadow.conclude r (.done (.okR []))
        (d.mbx.held.any Completion.lowPower = false →
          ∃ t, exec (.lowPower src) s = .next t ∧ t.chip.pmu.entering = true ∧ t.chip.flag GRD_DOFF_STATUS.RUNNING = true ∧
            (∀ p, (t.chip.port p).st ≠ .up) ∧ t.chip.pmu.pd = c.pmu.pd) ∧
        (d.mbx.held.any Completion.lowPower = true → exec (.lowPower src) s = .next { s with chip := d }))) ∧
    (s.admits m PMU_LP_CTRL.addr →
      (masterSpindle m ≠ 0 → masterSpindle m = s.dist.holder → getBits v 16 16 = 0x4C50 → getBits v 0 1 = 1 →
        ∃ t, exec (.lowPowerEnter m v) s = .next t ∧ t.chip.pmu.lowPower = true ∧ t.chip.limited = true ∧
          t.chip.flag CLK_WHORL_STATUS.RING_OSC_ON = true ∧ t.chip.flag CLK_WHORL_STATUS.LOCK = false ∧
          (∀ d, 1 ≤ d → t.chip.pdOf d = .off) ∧ (∀ p, (t.chip.port p).st = .absent)) ∧
      (masterSpindle m = 0 ∨ masterSpindle m ≠ s.dist.holder ∨ getBits v 16 16 ≠ 0x4C50 ∨ getBits v 0 1 ≠ 1 →
        exec (.lowPowerEnter m v) s = .next (s.answered m false))) ∧
    (s.admits m PMU_WAKE_REQ.addr →
      let acts := getBits v 16 16 = 0x4B57 ∧ getBits v 0 1 = 1 ∧ (s.chip.pmu.lowPower = true ∨ s.chip.pmu.entering = true)
      (acts → ∃ t, exec (.wakeReq m v) s = .next t ∧ t.chip.pmu = { s.chip.pmu with wakeLatched := s.chip.pmu.wakeLatched ||| 2 } ∧
        t.chip.regs = s.chip.regs) ∧
      (¬acts → exec (.wakeReq m v) s = .next (s.answered m false))) ∧
    (s.chip.pmu.lowPower = false ∨ s.chip.pmu.wakeLatched = 0 → exec .lpWake s = .next s) ∧
    (s.chip.pmu.lowPower = true → s.chip.pmu.wakeLatched ≠ 0 → s.chip.pmu.wakeLatched < 4 →
      ∃ t, exec .lpWake s = .next t ∧ t.chip.pmu.lowPower = false ∧ t.chip.pmu.wakeLatched = 0 ∧
        (t.chip.reg PMU_WAKE_CAUSE.addr).toNat = s.chip.pmu.wakeLatched ∧ t.chip.fld GLB_BOOT_STATUS.STEP = 1 ∧ t.chip.mem = s.chip.mem)

/-- R439 to R443: a thermal sample at which no sensor breaks: every region takes the level of R441 and the part the highest of them; a
valid reading of 125 °C trips the part and turns every domain but PD_AON off. TEL_TEMP reports the readings. -/
def Obligations.ThermalSamples : Prop :=
  ∀ (s : State) (v : Vector (Option Int) 14),
    let c := s.chip.takeSample v
    ((∀ i, i < 14 → c.sensorBroken i = false → c.judgeSensor i = 0) →
      ((∀ i x, i < 14 → c.validNow i = some x → x < 1250) →
        ∃ t, exec (.thermalSample v) s = .next t ∧ (∀ g, g < 5 → t.chip.regionLevel g = c.nextLevel g) ∧
          t.chip.fld THM_STATUS.LEVEL = ((List.range 5).map c.nextLevel).foldl max 0 ∧ t.chip.pmu = s.chip.pmu ∧ t.dist = s.dist ∧
          t.chip.flag THM_STATUS.TRIP = s.chip.flag THM_STATUS.TRIP) ∧
      (∀ i x, i < 14 → c.validNow i = some x → 1250 ≤ x → s.chip.flag THM_STATUS.TRIP = false →
        ∃ t, exec (.thermalSample v) s = .next t ∧ t.chip.flag THM_STATUS.TRIP = true ∧ (∀ d, 1 ≤ d → t.chip.pdOf d = .off))) ∧
    (∀ src d r, s.takes src 0x0901 d r →
      exec (.telTemp src) s = .next { s with chip := d.conclude r (.done (.okD
        ((List.range 14).flatMap (fun i => leBytes 2 (d.fld (THM_SENSOR.TEMP i))) ++ leBytes 2 (d.fld THM_STATUS.BROKEN) ++
          leBytes 2 (d.fld THM_STATUS.LEVEL)))) })
/-! ### Security, firmware and tests (spec/12, spec/20) -/

/-- R324, R459, R461, R463, R466: the session and guard table commands that pass the checks of R306, and the two time limits of the session.
Where the digest agrees the session rises to OWNER; where it does not, the failure is counted and from the fourth on a lockout runs. -/
def Obligations.SessionAndGuard : Prop :=
  ∀ (s : State) (src : CmdSrc) (c : Chip) (r : Req),
    let i := byteAt r.payload 0
    let w := arg32 r.payload
    let ends := fun (j : Instr) (d : Chip) (y : Reply) => exec j s = .next { s with chip := d.conclude r (.done y) }
    (s.takes src 0x0B01 c r →
      (c.flag GRD_SESSION.LOCKOUT = true → ends (.secChallenge src) c (.fail .busy)) ∧
      (c.flag GRD_SESSION.LOCKOUT = false → ∃ (d : Chip) (n : List Byte), ends (.secChallenge src) d (.okR n) ∧ n.length = 16 ∧
        d.sess.nonce = some n ∧ d.flag GRD_SESSION.NONCE_VALID = true ∧ d.sessionLevel = c.sessionLevel ∧ d.mem = c.mem)) ∧
    (s.takes src 0x0B02 c r →
      (c.authGood s.fuse r.payload = true → ∃ d : Chip, ends (.secAuth src) d (.okR (leBytes 1 (max 2 c.sessionLevel))) ∧
        d.sessionLevel = max 2 c.sessionLevel ∧ d.fld GRD_SESSION.FAIL_CNT = 0 ∧ d.flag GRD_SESSION.NONCE_VALID = false ∧ d.sess = {}) ∧
      (c.authGood s.fuse r.payload = false →
        ∃ d : Chip, ends (.secAuth src) d { status := .denied, result := leBytes 1 c.sessionLevel } ∧ d.sess = {} ∧
          d.flag GRD_SESSION.NONCE_VALID = false ∧ d.fld GRD_SESSION.FAIL_CNT = min 255 (c.fld GRD_SESSION.FAIL_CNT + 1) ∧
          d.flag GRD_SESSION.LOCKOUT = (c.flag GRD_SESSION.LOCKOUT || decide (3 ≤ c.fld GRD_SESSION.FAIL_CNT)))) ∧
    (s.takes src 0x0B03 c r →
      ∃ d : Chip, ends (.secLogout src) d (.okR (leBytes 1 c.baseLevel)) ∧ d.sessionLevel = c.baseLevel ∧ d.mem = c.mem) ∧
    (s.takes src 0x0B04 c r →
      (63 < i ∨ guardFormed (w 4) (w 8) (w 12) = false → ends (.guardSet src) c (.fail .badArg)) ∧
      (i ≤ 63 → guardFormed (w 4) (w 8) (w 12) = true → ∃ d : Chip, ends (.guardSet src) d (.okR []) ∧
        d.guardEntry i = (BitVec.ofNat 32 (w 4), BitVec.ofNat 32 (w 8), BitVec.ofNat 32 (w 12)) ∧
        (∀ k, k ≤ 63 → k ≠ i → d.guardEntry k = c.guardEntry k))) ∧
    (s.takes src 0x0B05 c r →
      ends (.guardGet src) c (if 63 < i then .fail .badArg
        else .okR (wordBytes [(c.guardEntry i).1, (c.guardEntry i).2.1, (c.guardEntry i).2.2]))) ∧
    (∃ t, exec .lockoutEnd s = .next t ∧ t.chip.flag GRD_SESSION.LOCKOUT = false ∧
      t.chip.fld GRD_SESSION.FAIL_CNT = s.chip.fld GRD_SESSION.FAIL_CNT ∧ t.chip.sess = s.chip.sess) ∧
    (∃ t, exec .nonceExpiry s = .next t ∧ t.chip.flag GRD_SESSION.NONCE_VALID = false ∧ t.chip.sess = {} ∧
      t.chip.sessionLevel = s.chip.sessionLevel)

/-- R324, R468 to R470: the lifecycle goes up by one state where the target, the confirmation word, the level, the precondition of the
transition and the energy check allow it; the owner key is programmed once, in PROBE alone; the entry to RETURNED is followed by an
erased config shadow and a software chip reset. -/
def Obligations.LifecycleAndOwnerKey : Prop :=
  ∀ (s : State) (src : CmdSrc) (c : Chip) (r : Req),
    let u : State := { s with chip := c }
    let target := byteAt r.payload 0
    (s.takes src 0x0B06 c r → ∀ lasting : Bool,
      (target ≠ s.fuse.lifecycle + 1 ∨ 4 < target ∨ arg32 r.payload 4 ≠ 0x4C435943 →
        exec (.lifecycleAdvance src lasting) s = .next { s with chip := c.conclude r (.done (.fail .badArg)) }) ∧
      (target = s.fuse.lifecycle + 1 → target ≤ 4 → arg32 r.payload 4 = 0x4C435943 →
        (target ≤ 2 → r.level < 3 → exec (.lifecycleAdvance src lasting) s = .next { s with chip := c.conclude r (.done (.fail .denied)) }) ∧
        (2 < target ∨ 3 ≤ r.level → u.advanceReady target = false →
          exec (.lifecycleAdvance src lasting) s = .next { s with chip := c.conclude r (.done (.fail .badState)) }) ∧
        (2 < target ∨ 3 ≤ r.level → u.advanceReady target = true → c.energyOk lasting = false →
          exec (.lifecycleAdvance src lasting) s = .next { s with chip := c.conclude r (.done (.fail .busy)) }) ∧
        (2 < target ∨ 3 ≤ r.level → u.advanceReady target = true → c.energyOk lasting = true →
          ∃ t, exec (.lifecycleAdvance src lasting) s = .next t ∧ t.fuse.lifecycle = target ∧ t.fuse.unitId = s.fuse.unitId ∧
            t.fuse.ownerKey = s.fuse.ownerKey ∧ t.fuse.keyKilled = (s.fuse.keyKilled || target == 4) ∧ t.dist = s.dist ∧
            (target ≠ 4 → t.chip = (u.advance target).chip.conclude r (.done (.okR (leBytes 1 target))))))) ∧
    (s.takes src 0x0B07 c r → ∀ lasting : Bool,
      (s.fuse.lifecycle ≠ 1 ∨ s.fuse.ownerKey ≠ none →
        exec (.ownerKeySet src lasting) s = .next { s with chip := c.conclude r (.done (.fail .badState)) }) ∧
      (s.fuse.lifecycle = 1 → s.fuse.ownerKey = none → c.energyOk lasting = false →
        exec (.ownerKeySet src lasting) s = .next { s with chip := c.conclude r (.done (.fail .busy)) }) ∧
      (s.fuse.lifecycle = 1 → s.fuse.ownerKey = none → c.energyOk lasting = true →
        exec (.ownerKeySet src lasting) s =
          .next { s with chip := c.conclude r (.done (.okR [])), fuse := { s.fuse with ownerKey := some r.payload, digestOk := true } })) ∧
    (s.chip.start.returning = true → ∃ t, exec .returnedReset s = .next t ∧ t.chip.cfg = none ∧ t.fuse = s.fuse ∧
      t.chip.flag GLB_RST_STATUS.SOFT = true ∧ t.dist = { s.dist with holder := 0, fencedA := false, fencedB := false } ∧
      ∀ a, 0xE00000 ≤ a → a < 0xE40000 → t.chip.byte a = 0)

/-- R289, R326, R472: the firmware commands that pass the checks of R306: an image transfer begins by erasing the slot that the holder does
not run, takes its bytes in order, and ends in flash with the next sequence number; while the boot ROM waits for the host, the image goes to the
spindle memories and is booted from there; FW_ACTIVATE needs a ready standby and a newer image
and starts the update. -/
def Obligations.FirmwareCommands : Prop :=
  ∀ (s : State) (src : CmdSrc) (c : Chip) (r : Req),
    let u : State := { s with chip := c }
    let n := arg32 r.payload 0
    let ends := fun (j : Instr) (d : Chip) (y : Reply) => exec j s = .next { s with chip := d.conclude r (.done y) }
    (s.takes src 0x0C01 c r →
      (n < 4096 ∨ 2097152 < n → ends (.fwImageBegin src) c (.fail .badArg)) ∧
      (4096 ≤ n → n ≤ 2097152 → c.waitsHost = false → c.updating = false → c.flash.present = true →
        ∃ d : Chip, ends (.fwImageBegin src) d (.okR (leBytes 1 u.idleSlot)) ∧ d.flash.image u.idleSlot = none ∧
          d.spn.xfer = some { length := n, bytes := [], slot := u.idleSlot } ∧ d.regs = c.regs ∧ d.mem = c.mem) ∧
      (4096 ≤ n → n ≤ 2097152 → c.waitsHost = false → c.updating = true ∨ c.flash.present = false →
        ends (.fwImageBegin src) c (.fail .badState)) ∧
      (4096 ≤ n → n ≤ 2097152 → c.waitsHost = true →
        ∃ (d : Chip) (k : Nat), ends (.fwImageBegin src) d (.okR (leBytes 1 k)) ∧ d.flash = c.flash ∧
          d.spn.xfer = some { length := n, bytes := [], slot := 2 } ∧ d.regs = c.regs ∧ d.mem = c.mem)) ∧
    (s.takes src 0x0C02 c r →
      (c.spn.xfer = none → ends (.fwImageData src) c (.fail .badState)) ∧
      (∀ x, c.spn.xfer = some x →
        (n ≠ x.bytes.length ∨ x.length < x.bytes.length + (r.payload.length - 4) → ends (.fwImageData src) c (.fail .badArg)) ∧
        (n = x.bytes.length → x.bytes.length + (r.payload.length - 4) ≤ x.length →
          let y := { x with bytes := x.bytes ++ r.payload.drop 4 }
          ends (.fwImageData src) (Chip.stageImage { c with spn := { c.spn with xfer := some y } } y) (.okR [])) ∧
        (n = x.bytes.length → x.bytes.length + (r.payload.length - 4) ≤ x.length → x.slot ≠ 2 →
          ends (.fwImageData src)
            { c with spn := { c.spn with xfer := some { x with bytes := x.bytes ++ r.payload.drop 4 } } } (.okR [])))) ∧
    (s.takes src 0x0C03 c r → ∀ ok : Bool,
      (c.spn.xfer = none → ends (.fwImageEnd src ok) c (.fail .badState)) ∧
      (∀ x, c.spn.xfer = some x → x.slot = 2 →
        let d : Chip := { c with spn := { c.spn with xfer := none } }
        (u.imageReason ⟨x.bytes, ok⟩ ≠ 0 →
          ends (.fwImageEnd src ok) (d.raise 0x1D4 0) { status := .badArg, result := leBytes 1 (u.imageReason ⟨x.bytes, ok⟩) }) ∧
        (u.imageReason ⟨x.bytes, ok⟩ = 0 →
          exec (.fwImageEnd src ok) s = .next { s with chip := (d.bootPushed ⟨x.bytes, ok⟩).conclude r (.runs .imageBoot) })) ∧
      (∀ x, c.spn.xfer = some x → x.slot ≠ 2 →
        (u.imageReason ⟨x.bytes, ok⟩ ≠ 0 → ∃ d : Chip, ends (.fwImageEnd src ok) d
          { status := .badArg, result := leBytes 1 (u.imageReason ⟨x.bytes, ok⟩) } ∧ d.flash = c.flash ∧ d.spn.xfer = none) ∧
        (u.imageReason ⟨x.bytes, ok⟩ = 0 → x.slot < 2 → ∃ d : Chip, ends (.fwImageEnd src ok) d (.okR (leBytes 1 0)) ∧
          d.spn.xfer = none ∧
          d.flash.image x.slot = some (Image.withSeq ⟨x.bytes, ok⟩ (max (c.flash.seqOf 0) (c.flash.seqOf 1) + 1))))) ∧
    (s.takes src 0x0C04 c r →
      (u.canActivate = false → ends (.fwActivate src) c (.fail .badState)) ∧
      (u.canActivate = true → ∃ t, exec (.fwActivate src) s = .next t ∧
        t.chip.spn.update = some ⟨u.idleSlot, 1 - u.idleSlot, s.dist.holder, .syncing⟩ ∧ t.dist.holder = s.dist.holder ∧
        t.dist.epoch = s.dist.epoch)) ∧
    (s.takes src 0x0C05 c r →
      ∃ (d : Chip) (a b : Nat), ends (.fwStatus src) d (.okR (leBytes 4 (spnStatus s.dist c).toNat ++ leBytes 4 a ++ leBytes 4 b ++
        leBytes 4 (c.spn.xfer.elim 0 (fun x => x.bytes.length)))) ∧ d.regs = c.regs ∧ d.mem = c.mem ∧
        (c.flash.present = true → a = (c.flash.image 0).elim 0xFFFFFFFF Image.seq ∧ b = (c.flash.image 1).elim 0xFFFFFFFF Image.seq))

/-- R327, R328, R474 to R478: DOFF_RUN, DOFF_RECORD and TEST_LANE that pass the checks of R306, and the shutdown list. A test that may not
run changes nothing; one that runs answers whether it passed and, if not, the failing address and bit. -/
def Obligations.TestCommands : Prop :=
  ∀ (s : State) (src : CmdSrc) (c : Chip) (r : Req),
    let u : State := { s with chip := c }
    let b := byteAt r.payload
    let ends := fun (j : Instr) (d : Chip) (y : Reply) => exec j s = .next { s with chip := d.conclude r (.done y) }
    (s.takes src 0x0D01 c r → ∀ result : Option (BitVec 32 × BitVec 8),
      (∀ st, u.doffStatus (b 0) (b 1) (b 2) = some st → ends (.doffRun src result) c (.fail st)) ∧
      (u.doffStatus (b 0) (b 1) (b 2) = none →
        (∀ x, result = some x → ∃ (t : State) (d : Chip), exec (.doffRun src result) s = .next t ∧ t.fuse = s.fuse ∧
          t.chip = d.conclude r (.done (.okR ([1#8, 0#8, 0#8, 0#8] ++ leBytes 4 x.1.toNat ++ [x.2]))) ∧
          (b 0 = 4 → t.dist = s.dist ∧ d = c.settle)) ∧
        (result = none → ∃ (t : State) (d : Chip) (x y : Nat), exec (.doffRun src result) s = .next t ∧ t.fuse = s.fuse ∧
          t.chip = d.conclude r (.done (.okR ([0#8, 0#8, 0#8, 0#8] ++ leBytes 4 x ++ leBytes 1 y)))) ∧
        (result = none → b 0 = 0 → b 2 ≤ 1 → c.pdOn (7 + b 1) = false →
          ∃ t, exec (.doffRun src result) s = .next t ∧ t.dist = s.dist ∧ bit (t.chip.fld GRD_DOFF_MARK.LINE) (b 1) = false))) ∧
    (s.takes src 0x0D02 c r →
      (1 < b 0 ∨ capOk (arg32 r.payload 4) 4096 = false → ends (.doffRecord src) c (.fail .badArg)) ∧
      (b 0 ≤ 1 → capOk (arg32 r.payload 4) 4096 = true → c.flash.present = true → c.pdOn 19 = true →
        ends (.doffRecord src) (c.writeBytes .capture (arg32 r.payload 4) (sectorBytes (c.flash.record (b 0))))
          (.okR (leBytes 1 (b2n ((c.flash.record (b 0)).elim false DoffRec.ok) +
            2 * b2n ((c.flash.record (b 0)).elim false (fun y => y.crcOk))))))) ∧
    (s.takes src 0x0D02 c r → b 0 ≤ 1 → capOk (arg32 r.payload 4) 4096 = true → c.flash.present = false ∨ c.pdOn 19 = false →
      ends (.doffRecord src) c (.fail .badState)) ∧
    (s.takes src 0x0D03 c r → 1 < b 0 ∨ (if b 0 = 0 then 15 else 8) < b 1 → ends (.testLane src) c (.fail .badArg)) ∧
    (s.takes src 0x0D03 c r → b 0 ≤ 1 →
      (b 1 ≤ (if b 0 = 0 then 15 else 8) →
        (b 2 = 0 → c.claimedLane (b 0) (b 1) = false → ends (.testLane src) c (.fail .badState)) ∧
        (b 2 = 0 → c.claimedLane (b 0) (b 1) = true → ∃ d : Chip, ends (.testLane src) d (.okR []) ∧ d.claimedLane (b 0) (b 1) = false) ∧
        (b 2 = 1 → c.claimStatus (b 0) (b 1) = none → c.claimedLane (b 0) (b 1) = false → c.pdOn (laneDomain (b 0) (b 1)) = true →
          ∃ d : Chip, ends (.testLane src) d (.okR []) ∧ d.claimedLane (b 0) (b 1) = true) ∧
        (b 2 = 1 → c.claimStatus (b 0) (b 1) = none → c.claimedLane (b 0) (b 1) = true → ends (.testLane src) c (.okR [])) ∧
        (b 2 = 1 → c.claimStatus (b 0) (b 1) = none → c.claimedLane (b 0) (b 1) = false → c.pdOn (laneDomain (b 0) (b 1)) = false →
          ∃ d : Chip, d.claimedLane (b 0) (b 1) = true ∧
            (c.analogOk = true → ends (.testLane src) d (.okR [])) ∧
            (c.analogOk = false → exec (.testLane src) s = .next { s with chip := d.conclude r (.runs (.testLane (b 0) (b 1))) })) ∧
        (∀ st, b 2 = 1 → c.claimStatus (b 0) (b 1) = some st → ends (.testLane src) c (.fail st))) ∧
      (1 < b 2 → ends (.testLane src) c (.fail .badArg))) ∧
    (∀ found : List DoffEntry, s.chip.pmu.entering = true → s.chip.flag GRD_DOFF_STATUS.RUNNING = true →
      ∃ t, exec (.shutdownList found) s = .next t ∧ t.chip.flag GRD_DOFF_STATUS.RUNNING = false ∧ t.fuse = s.fuse)
/-! ### Fleyth (spec/14) -/

/-- R351 to R353, R356, R358, R359, R366 to R368: what happens at the Fleyth ports of a powered FLY, each from the state that its rule names:
keepalives and the link, the sideband queue and the wake pattern, a message that comes in (none, a bad one, a REQUEST for this worker, a NOTIFY at the manager),
the worker's request queue, link changes to tell, and what wakes the part. -/
def Obligations.FleythLinks : Prop :=
  ∀ (s : State) (p : Fin 2),
    let x := s.chip.flyPort p.1
    (s.chip.flyWorks p.1 = false → exec (.keepalive p) s = .next s) ∧
    (s.chip.flyWorks p.1 = true →
      (∃ t, exec (.keepalive p) s = .next t ∧ t.chip.flyPort p.1 = { x with rd := (encGroups x.rd keepaliveChars).2 } ∧
        (∀ q, q ≠ p.1 → t.chip.flyPort q = s.chip.flyPort q) ∧ t.chip.regs = s.chip.regs ∧ t.chip.mem = s.chip.mem) ∧
      (∃ t, exec (.keepaliveReceived p) s = .next t ∧
        t.chip.flyUp p.1 = (s.chip.flyUp p.1 || decide (2 ≤ (x.hears.filter (fun h => decide (s.chip.evt.time ≤ h + 22155))).length)) ∧
        (∀ q, q ≠ p.1 → t.chip.flyUp q = s.chip.flyUp q) ∧ t.chip.fly.reqs = s.chip.fly.reqs ∧ t.chip.mem = s.chip.mem ∧
        (∀ a, a ≠ FLY_PORT_STATUS.addr → t.chip.reg a = s.chip.reg a)) ∧
      (∃ t, exec (.linkDown p) s = .next t ∧ t.chip.flyUp p.1 = false ∧ (∀ q, q ≠ p.1 → t.chip.flyUp q = s.chip.flyUp q) ∧
        t.chip.fly.notes = (if s.chip.flyUp p.1 && !s.chip.isManager && s.chip.flyAddr.isSome then s.chip.fly.notes ++ [(0, 2, p.1)]
          else s.chip.fly.notes) ∧ (∀ a, a ≠ FLY_PORT_STATUS.addr → t.chip.reg a = s.chip.reg a)) ∧
      (∀ m rest, x.sendWake = false → x.outq = m :: rest →
        ∃ t, exec (.sidebandTransmission p false) s = .next t ∧ t.chip.flyPort p.1 = { x with outq := rest, rd := (encGroups x.rd (messageChars m)).2 } ∧
          (∀ q, q ≠ p.1 → t.chip.flyPort q = s.chip.flyPort q) ∧ t.chip.regs = s.chip.regs) ∧
      (p.1 = 0 → exec (.sidebandTransmission p true) s = .next s) ∧
      (p.1 = 1 → exec (.sidebandTransmission p true) s = exec (.sidebandTransmission p false) s) ∧
      (x.sendWake = false → x.outq = [] → exec (.sidebandTransmission p false) s = .next s) ∧
      (x.sendWake = true → ∃ t, exec (.sidebandTransmission p false) s = .next t ∧ (t.chip.flyPort p.1).sendWake = false ∧
        (t.chip.flyPort p.1).outq = x.outq ∧ (∀ q, q ≠ p.1 → t.chip.flyPort q = s.chip.flyPort q) ∧ t.chip.regs = s.chip.regs) ∧
      (∀ l : List (BitVec 10), messageHeard false (heardChars l) = none → exec (.flyMessage (.sideband p l)) s = .next s) ∧
      (∀ (l : List (BitVec 10)) (b : List Byte) (sound : Bool), messageHeard false (heardChars l) = some (b, sound) →
        (sound = false ∨ parseFly b = none → ∃ t, exec (.flyMessage (.sideband p l)) s = .next t ∧
          t.chip.fld FLY_CNT_DROP.BAD = min (2 ^ FLY_CNT_DROP.BAD.w - 1) (s.chip.fld FLY_CNT_DROP.BAD + 1) ∧
          t.chip.fly.reqs = s.chip.fly.reqs ∧ t.chip.flyPort p.1 = x) ∧
        (∀ m, sound = true → parseFly b = some m → s.chip.flyAddr = some m.dst →
          (m.typ = 0 → s.chip.isManager = false → s.chip.fly.reqs.length < 8 → s.chip.firstPosted = none →
            (cmdRow (leAt m.body 4 2)).isSome = true → (∀ q ∈ s.chip.fly.reqs, (cmdRow q.opcode).isSome = true) →
            ∃ t, exec (.flyMessage (.sideband p l)) s = .next t ∧
              t.chip.fly.reqs = s.chip.fly.reqs ++ [⟨m.src, m.tag, m.priv, leAt m.body 0 4, leAt m.body 4 2, m.body.drop 8,
                decide (leAt m.body 6 2 ≤ 228) && decide (m.body.length = 8 + leAt m.body 6 2), false⟩] ∧
              t.chip.mbx.queue = s.chip.mbx.queue ++ [.fleyth]) ∧
          (m.typ = 6 → s.chip.isManager = true →
            ∃ t, exec (.flyMessage (.sideband p l)) s = .next t ∧
              t.chip.fly.notes = s.chip.fly.notes ++ [(m.src, byteAt m.body 0 % 16, byteAt m.body 1 % 16)] ∧
              t.chip.fly.reqs = s.chip.fly.reqs)))) ∧
    (∀ i : Fin 8,
      (s.chip.fly.reqs.length ≤ i.1 → exec (.requestExpiry i) s = .next s) ∧
      (i.1 < s.chip.fly.reqs.length → s.chip.firstPosted = none → (∀ q ∈ s.chip.fly.reqs, (cmdRow q.opcode).isSome = true) →
        ∃ t, exec (.requestExpiry i) s = .next t ∧
          t.chip.fly = { s.chip.fly with reqs := s.chip.fly.reqs.eraseIdx i.1 } ∧ t.chip.mbx.queue = dropFly i.1 s.chip.mbx.queue ∧
          t.chip.regs = s.chip.regs ∧ t.chip.mem = s.chip.mem)) ∧
    (∀ a k q l, s.chip.fly.notes = (a, k, q) :: l → s.chip.isManager = true →
      let c : Chip := { s.chip with fly := { s.chip.fly with notes := l } }
      exec .notify s = .next { s with chip := c.raise 0x146 (a + 2 ^ 20 * k + 2 ^ 24 * q) }) ∧
    (s.chip.fly.notes = [] → exec .notify s = .next s) ∧
    (∀ w : WakeSource,
      let place : Nat × Nat := match w with | .port q => (q.1, q.1) | .address => (16, 17)
      let cfg := if s.chip.pmu.lowPower then s.chip.pmu.wakeCfg else (s.chip.reg FLY_WAKE_CFG.addr).toNat
      (s.chip.pmu.lowPower = true ∨ s.chip.pmu.entering = true →
        (bit cfg place.2 = true → ∃ t, exec (.wakeActivity w) s = .next t ∧ t.chip.regs = s.chip.regs ∧
          t.chip.pmu = { s.chip.pmu with wakeLatched := s.chip.pmu.wakeLatched ||| 1, wakeDetail := setBitN s.chip.pmu.wakeDetail place.1 }) ∧
        (bit cfg place.2 = false → exec (.wakeActivity w) s = .next s))) ∧
    (s.chip.pmu.lowPower = false → s.chip.pmu.entering = false → ∀ w, exec (.wakeActivity w) s = .next s)

/-- R361 to R365, R370: the Fleyth commands that pass the checks of R306, and the end of a wait of a discovery: it probes the next port of the
node in hand, or with nothing left it is over. A discovery makes the next epoch, forgets addresses, roles and requests in flight, and starts the node table with the manager at address 0. -/
def Obligations.FleythCommands : Prop :=
  ∀ (s : State) (src : CmdSrc) (c : Chip) (r : Req),
    let b := byteAt r.payload
    let w := arg32 r.payload
    let ends := fun (j : Instr) (d : Chip) (y : Reply) => exec j s = .next { s with chip := d.conclude r (.done y) }
    (s.takes src 0x0A01 c r →
      (w 0 < 10 ∨ 10000000 < w 0 → ends (.flyDiscover src) c (.fail .badArg)) ∧
      (10 ≤ w 0 → w 0 ≤ 10000000 →
        (c.isManager = false ∨ c.pdOn 21 = false → ends (.flyDiscover src) c (.fail .badState)) ∧
        (c.isManager = true → c.pdOn 21 = true → c.fly.disc.isSome = true → ends (.flyDiscover src) c (.fail .busy)) ∧
        (c.isManager = true → c.pdOn 21 = true → c.fly.disc = none →
          ∃ d : Chip, exec (.flyDiscover src) s = .next { s with chip := d.conclude r (.runs .flyDiscover) } ∧
            d.fld FLY_EPOCH.EPOCH = (c.fld FLY_EPOCH.EPOCH + 1) % 65536 ∧ d.flag FLY_STATUS.DISC_RUN = true ∧
            d.flyAddr = some 0 ∧ d.fly.flight = [] ∧ d.fly.probes = [] ∧
            d.fly.nodes = [⟨0, 0x100000, c.unitIdent, 0, 0xFF, 0xFF, false, false⟩] ∧
            d.fly.disc = some ⟨w 0, [0], 0, [], [], [], 0, 0, .clear⟩ ∧ d.mem = c.mem))) ∧
    (s.takes src 0x0A02 c r →
      (∀ k, src = .fleyth k → ends (.flyRequest src) c (.fail .denied)) ∧
      (∀ i, src = .slot i → w 0 = 0 ∨ 0x100000 ≤ w 0 ∨ w 4 < 10 ∨ 10000000 < w 4 ∨ 228 < arg16 r.payload 10 ∨
        arg16 r.payload 10 + 12 ≠ r.payload.length → ends (.flyRequest src) c (.fail .badArg)) ∧
      (∀ i, src = .slot i → 0 < w 0 → w 0 < 0x100000 → 10 ≤ w 4 → w 4 ≤ 10000000 → arg16 r.payload 10 ≤ 228 →
        arg16 r.payload 10 + 12 = r.payload.length →
        (c.isManager = false ∨ c.flyAddr = none ∨ c.pdOn 21 = false → ends (.flyRequest src) c (.fail .badState)) ∧
        (c.isManager = true → c.flyAddr.isSome = true → c.pdOn 21 = true → c.fly.disc.isSome = true →
          ends (.flyRequest src) c (.fail .busy)) ∧
        (c.isManager = true → c.flyAddr.isSome = true → c.pdOn 21 = true → c.fly.disc = none →
          ∃ d : Chip, exec (.flyRequest src) s =
              .next { s with chip := d.conclude r (.runs (.flyRequest (i.1 + 16 * ((c.fly.seq + 1) % 4096)))) } ∧
            d.fly.flight = c.fly.flight ++ [(i.1 + 16 * ((c.fly.seq + 1) % 4096), w 0)] ∧ d.fly.seq = (c.fly.seq + 1) % 4096 ∧
            d.mem = c.mem))) ∧
    (s.takes src 0x0A03 c r → c.pdOn 21 = true →
      let en := b 0 % 4 + 4 * b 1
      ∃ d : Chip, ends (.flyCfg src) d (.okR []) ∧ d.fld FLY_PORT_CFG.EN = en ∧
        (∀ p, p < 10 → d.flyUp p = (c.flyUp p && bit en p)) ∧ d.mem = c.mem) ∧
    (s.takes src 0x0A03 c r → c.pdOn 21 = false →
      ∃ d : Chip, ends (.flyCfg src) d (.okR []) ∧ (∀ p, d.flyUp p = c.flyUp p) ∧ d.mem = c.mem) ∧
    (s.takes src 0x0A04 c r →
      (capOk (w 0) (w 4) = false → ends (.flyNodes src) c (.fail .badArg)) ∧
      (capOk (w 0) (w 4) = true → c.isManager = false ∨ c.pdOn 19 = false → ends (.flyNodes src) c (.fail .badState)) ∧
      (capOk (w 0) (w 4) = true → c.isManager = true → c.pdOn 19 = true →
        let l := c.fly.nodes.take (w 4 / 16)
        ends (.flyNodes src) (c.writeBytes .capture (w 0) (l.flatMap FlyNode.bytes)) (.okR (leBytes 4 l.length)))) ∧
    (s.chip.fly.disc = none → exec .discoveryTimeout s = .next s) ∧
    (∀ d p rest, s.chip.fly.disc = some d → d.ports = p :: rest → (d.node = 0 → s.chip.flyUp p = true) →
      ∃ t, exec .discoveryTimeout s = .next t ∧ t.chip.fly.disc = some { d with ports := rest, wait := .probe p } ∧
        t.chip.fly.nodes = s.chip.fly.nodes) ∧
    (∀ d, s.chip.fly.disc = some d → d.ports = [] → d.found = [] → d.toAssign = [] → d.queue = [] →
      ∃ t, exec .discoveryTimeout s = .next t ∧ t.chip.flag FLY_STATUS.DISC_RUN = false ∧ t.chip.fly.disc = none ∧
        t.chip.fly.nodes = s.chip.fly.nodes)
/-! ### Events (spec/13) -/

/-- R330, R332, R333, R338: a message of a pulse source makes the source pending at every consumer that masks it and writes a record at every
consumer that does not and whose skein has a free slot; a source sends the same from software through `EVT_DOORBELL`; a level that stands
already, and a reserved source, send nothing. -/
def Obligations.MessagesReachConsumers : Prop :=
  ∀ s : State,
    let reaches := fun (t : State) (n : Fin 512) => ∀ c : Fin 3,
      let k := s.chip.evt.prioOf c.1 n.1 % 16
      (bit512 s.chip.evt.cons[c.1].mask n.1 = true → bit512 t.chip.evt.cons[c.1].pend n.1 = true) ∧
        (bit512 s.chip.evt.cons[c.1].mask n.1 = false → ((s.chip.evt.cons[c.1].skeins.toList[k]?).getD {}).used < 32 →
          ((s.chip.evt.cons[c.1].skeins.toList[k]?).getD {}).waiting < ((t.chip.evt.cons[c.1].skeins.toList[k]?).getD {}).waiting)
    (∀ (n : Fin 512) (pay : BitVec 48), srcKind n.1 = .pulse → s.chip.evt.halted = false →
      ∃ t, exec (.eventMessage [(n, pay)]) s = .next t ∧ reaches t n ∧ t.chip.regs = s.chip.regs ∧ t.chip.mem = s.chip.mem) ∧
    (∀ (n : Fin 512) (pay : BitVec 48), srcKind n.1 = .reserved ∨ (srcKind n.1 = .level ∧ bit512 s.chip.evt.live n.1 = true) →
      exec (.eventMessage [(n, pay)]) s = .next s) ∧
    (∀ (m : Master) (v : Word) (n : Fin 512), s.admits m 0x020000 → getBits v 0 9 = n.1 →
      (srcKind n.1 ≠ .reserved → 0x1E0 ≤ n.1 ∨ s.chip.masterLevel m = 3 → s.chip.evt.halted = false →
        ∃ t, exec (.evtDoorbell m v) s = .next t ∧ reaches t n ∧ t.chip.regs = s.chip.regs ∧ t.chip.evt.dbErr = s.chip.evt.dbErr) ∧
      (n.1 < 0x1E0 → s.chip.masterLevel m ≠ 3 →
        ∃ t, exec (.evtDoorbell m v) s = .next t ∧ t.chip.evt.dbErr = min 0xFF (s.chip.evt.dbErr + 1) ∧ t.chip.regs = s.chip.regs))

/-- R332, R333, R336, R340 to R342: a master at the registers of the consumer that it owns. A claim takes the oldest record of the highest
skein that has one above the current level, an end of interrupt frees the record held at its level, and the mask, pending and arm
registers change as written. -/
def Obligations.ConsumerAccesses : Prop :=
  ∀ (s : State) (m : Master) (c : Fin 3), ownConsumer m = some c.1 →
    let co := s.chip.evt.cons[c.1]
    let after := fun (t : State) => t.chip.evt.cons[c.1]
    (s.readsAndClears m (consBase c.1) →
      (co.claimable = none → exec (.evtClaim m c) s = .next (s.answered m false)) ∧
      (∀ k : Fin 16, co.claimable = some k.1 → ∃ t, exec (.evtClaim m c) s = .next t ∧
        (after t).skeins[k.1] = { co.skeins[k.1] with head := (co.skeins[k.1].head + 1) % 32, waiting := co.skeins[k.1].waiting - 1, held := some co.skeins[k.1].head } ∧
        (∀ j : Fin 16, j ≠ k → (after t).skeins[j.1] = co.skeins[j.1]) ∧ (after t).mask = co.mask ∧ (after t).pend = co.pend ∧
        t.chip.regs = s.chip.regs ∧ t.chip.mem = s.chip.mem)) ∧
    (∀ x : Master, ownConsumer x ≠ some c.1 → s.admitsRead x (consBase c.1) → exec (.evtClaim x c) s = .next (s.answered x false)) ∧
    (∀ v : Word,
      (s.admits m (consBase c.1 + 0x004) → ∀ k : Fin 16, getBits v 0 4 = k.1 →
        ∃ t, exec (.evtEoi m c v) s = .next t ∧ (after t).skeins[k.1].held = none ∧ (after t).mask = co.mask ∧
          (∀ j : Fin 16, j ≠ k → (after t).skeins[j.1].held = co.skeins[j.1].held) ∧ t.chip.regs = s.chip.regs) ∧
      (∀ w : Fin 16,
        (s.admits m (consBase c.1 + (0x180 + 4 * w.1)) →
          ∃ t, exec (.evtMaskClr m c w v) s = .next t ∧ (after t).mask = co.mask &&& ~~~ (word512 w.1 v) ∧ t.chip.regs = s.chip.regs) ∧
        (s.admits m (consBase c.1 + (0x240 + 4 * w.1)) →
          ∃ t, exec (.evtPendSet m c w v) s = .next t ∧ (after t).mask = co.mask ∧ t.chip.regs = s.chip.regs ∧
            ∀ n ∈ wordSources w.1 v, bit512 co.mask n = true → bit512 (after t).pend n = true) ∧
        (s.admits m (consBase c.1 + (0x340 + 4 * w.1)) →
          ∃ t, exec (.evtArmSet m c w v) s = .next t ∧ (after t).mask = co.mask ∧ t.chip.regs = s.chip.regs ∧
            ∀ n ∈ wordSources w.1 v, srcKind n = .level → bit512 (after t).arm n = !(bit512 s.chip.evt.live n)))) ∧
    (s.admitsRead m 0x020008 →
      exec (.evtTimeLo m) s = .next { s with chip := Chip.answer { s.chip with evt := { s.chip.evt with timeHi := bitsOf s.chip.evt.time 32 16 } } m false (BitVec.ofNat 32 s.chip.evt.time) })

/-! ### ECC and DMA (spec/15, spec/16) -/

/-- R374, R376, R377, R380 to R382: the commands of the ECC block: a bucket leaks by one, freed log entries, the checker's test writes and
raw reads, and a step of the scrubber. -/
def Obligations.EccCommands : Prop :=
  ∀ s : State,
    (∀ b : Fin 3,
      (s.chip.fld (ECC_BUCKET_CFG.LEAK b.1) = 0 → exec (.bucketLeak b) s = .next s) ∧
      (s.chip.fld (ECC_BUCKET_CFG.LEAK b.1) ≠ 0 → ∃ t, exec (.bucketLeak b) s = .next t ∧ t.chip.ecc.lvl[b.1] = s.chip.ecc.lvl[b.1] - 1 ∧
        t.chip.mem = s.chip.mem ∧ ∀ j : Fin 3, j ≠ b → t.chip.ecc.lvl[j.1] = s.chip.ecc.lvl[j.1])) ∧
    (∀ (m : Master) (v : Word), s.admits m ECC_LOG_FREE.addr →
      ∃ t, exec (.logFree m v) s = .next t ∧ t.chip.reg ECC_LOG_FREE.addr = s.chip.reg ECC_LOG_FREE.addr &&& ~~~ v ∧
        (∀ a, a ≠ ECC_LOG_FREE.addr → t.chip.reg a = s.chip.reg a) ∧ t.chip.mem = s.chip.mem) ∧
    (∀ (m : Master) (v : Word), s.admits m ECC_TEST_CTRL.addr →
      (getBits v 0 1 = 1 → getBits v 1 1 = 0 →
        (s.chip.testTarget = none → ∃ t, exec (.commit m v) s = .next t ∧ t.chip.flag ECC_TEST_CTRL.REJ = true ∧ t.chip.mem = s.chip.mem) ∧
        (∀ x i, s.chip.testTarget = some (x, i) →
          (s.chip.commitOk x i = false → ∃ t, exec (.commit m v) s = .next t ∧ t.chip.flag ECC_TEST_CTRL.REJ = true ∧ t.chip.mem = s.chip.mem) ∧
          (s.chip.commitOk x i = true → (∀ n b, x ≠ .tension n b) → x ≠ .skein → ∃ t, exec (.commit m v) s = .next t ∧
            t.chip.flag ECC_TEST_CTRL.REJ = false ∧ t.chip.granValid x i = true ∧
            (∀ k, k < 8 → t.chip.byte (x.base + 8 * i + k) = BitVec.ofNat 8 (s.chip.testData / 2 ^ (8 * k))) ∧
            (∀ a, a < x.base + 8 * i ∨ x.base + 8 * i + 8 ≤ a → t.chip.byte a = s.chip.byte a)))) ∧
      (getBits v 0 1 = 0 → getBits v 1 1 = 1 → ∀ x i, s.chip.testTarget = some (x, i) → s.chip.pdOn x.pd = true →
        s.chip.granValid x i = true → tabGet (fun _ => 0) s.chip.flips (x.key i) = 0 →
        ∃ t, exec (.rawRead m v) s = .next t ∧ t.chip.mem = s.chip.mem ∧
          t.chip.fld ECC_TEST_DATA_LO.WORD = s.chip.granData x i % 2 ^ 32 ∧ t.chip.fld ECC_TEST_DATA_HI.WORD = s.chip.granData x i / 2 ^ 32)) ∧
    (s.chip.flag ECC_SCRUB_CFG.DIS = true → exec .scrubStep s = .next s) ∧
    (s.chip.flag ECC_SCRUB_CFG.DIS = false →
      (s.chip.nextScrub s.chip.ecc.scrubAt = none → s.chip.ecc.scrubAt ≠ 0 → ∃ t, exec .scrubStep s = .next t ∧
        t.chip.ecc.scrubAt = 0 ∧ t.chip.ecc.passFixed = 0 ∧ t.chip.mem = s.chip.mem ∧ t.dist = s.dist) ∧
      (∀ k, s.chip.nextScrub s.chip.ecc.scrubAt = some k → tabGet (fun _ => 0) s.chip.flips ((scrubTarget k).1.key (scrubTarget k).2) = 0 →
        ∃ t, exec .scrubStep s = .next t ∧ t.chip.ecc.scrubAt = (if (s.chip.nextScrub (k + 1)).isNone then 0 else k + 1) ∧
          t.chip.mem = s.chip.mem ∧ t.dist = s.dist))

/-- R388 to R394, R399: starts, aborts and requests of DMA channel `n`. A START of a channel that does not run begins its active set if that
passes the checks and enters ERROR if it does not; an ABORT of a running channel is an error with code 6; a request begins a burst of a
waiting channel and is held by, or overruns, a busy one. -/
def Obligations.DmaRequests : Prop :=
  ∀ (s : State) (n : Fin 16) (m : Master) (v : Word),
    let st := fun (t : State) => t.chip.fld (DMA_STATUS.STATE n.1)
    let asked := fun (t : State) => t.chip.mem = s.chip.mem ∧
      (st s = dmaWait → st t = dmaBusy ∧ (t.chip.dmaCh n.1).burst = s.chip.dmaBurst n.1) ∧
      (st s = dmaBusy → (s.chip.dmaCh n.1).held = false → (t.chip.dmaCh n.1).held = true ∧ st t = dmaBusy) ∧
      (st s = dmaBusy → (s.chip.dmaCh n.1).held = true → t.chip.flag (DMA_STATUS.REQ_OVR n.1) = true ∧ st t = dmaBusy) ∧
      (st s = dmaIdle → st t = dmaIdle ∧ (t.chip.dmaCh n.1).held = (s.chip.dmaCh n.1).held)
    (s.admits m (DMA_CTRL.addr n.1) → getBits v 2 1 = 0 →
      (getBits v 0 1 = 1 → getBits v 1 1 = 0 →
        (s.chip.dmaRuns n.1 = true → exec (.start m n v) s = .next (s.answered m false)) ∧
        (s.chip.dmaRuns n.1 = false → s.chip.dmaCheck n.1 = none → ∃ t, exec (.start m n v) s = .next t ∧ t.chip.mem = s.chip.mem ∧
          st t = (if s.chip.fld (DMA_CFG.REQ n.1) = 63 then dmaBusy else dmaWait) ∧ t.chip.fld (DMA_STATUS.ERR n.1) = 0 ∧
          t.chip.fld (DMA_STATUS.REMAIN n.1) = s.chip.fld (DMA_CNT.CNT n.1) ∧ (t.chip.dmaCh n.1).master = m ∧ (t.chip.dmaCh n.1).rd = 0 ∧
          (t.chip.dmaCh n.1).wr = 0 ∧ (t.chip.dmaCh n.1).staged = []) ∧
        (∀ e, s.chip.dmaRuns n.1 = false → s.chip.dmaCheck n.1 = some e → ∃ t, exec (.start m n v) s = .next t ∧ st t = dmaError ∧
          t.chip.fld (DMA_STATUS.ERR n.1) = e.no ∧ t.chip.mem = s.chip.mem)) ∧
      (getBits v 0 1 = 0 → getBits v 1 1 = 1 →
        (s.chip.dmaRuns n.1 = false → exec (.abort m n v) s = .next (s.answered m false)) ∧
        (s.chip.dmaRuns n.1 = true → ∃ t, exec (.abort m n v) s = .next t ∧ st t = dmaError ∧ t.chip.fld (DMA_STATUS.ERR n.1) = 6 ∧
          (t.chip.dmaCh n.1).staged = [] ∧ t.chip.mem = s.chip.mem))) ∧
    (∀ line : Fin 48, dmaLineReserved line.1 = true → exec (.dmaRequest line) s = .next s) ∧
    (∀ line : Fin 48, s.chip.pdOn 19 = true → dmaLineReserved line.1 = false → s.chip.fld (DMA_CFG.REQ n.1) = line.1 →
      ∃ t, exec (.dmaRequest line) s = .next t ∧ asked t) ∧
    (∀ k : Fin 8, s.admits m DMA_SWREQ.addr → s.chip.pdOn 19 = true → v.toNat = 2 ^ k.1 → s.chip.fld (DMA_CFG.REQ n.1) = 40 + k.1 →
      ∃ t, exec (.dmaSwreq m v) s = .next t ∧ asked t)

/-- R386, R388, R391, R393, R400: a beat of the engine with channel `n` served. It reads one granule of capture memory into the channel,
or writes the oldest one staged there; the last write of a set without COMMIT leaves the channel DONE. -/
def Obligations.DmaBeats : Prop :=
  ∀ (s : State) (n : Fin 16) (prio : Nat),
    let x := s.chip.dmaCh n.1
    let from_ := s.chip.dmaAddr n.1 (s.chip.fld (DMA_SRC.ADDR n.1)) (s.chip.flag (DMA_CFG.SRC_FIX n.1)) x.rd
    let at_ := s.chip.dmaAddr n.1 (s.chip.fld (DMA_DST.ADDR n.1)) (s.chip.flag (DMA_CFG.DST_FIX n.1)) x.wr
    (s.chip.pdOn 19 = true → s.chip.dmaPick = none → exec .dmaBeat s = .next s) ∧
    (s.chip.pdOn 19 = true → s.chip.dmaPick = some (prio, n.1) →
      (∀ i, s.chip.dmaReads n.1 = true → s.chip.fld (DMA_CFG.XFORM n.1) = 0 → x.wr < s.chip.fld (DMA_CNT.CNT n.1) → windowMem from_ = some (.capture, 8 * i) →
        (s.chip.checkAccess x.level from_ 32 false).isSome = true → tabGet (fun _ => 0) s.chip.flips (MemId.capture.key i) = 0 →
        s.chip.granValid .capture i = true →
        ∃ t, exec .dmaBeat s = .next t ∧ (t.chip.dmaCh n.1).rd = x.rd + 1 ∧ t.chip.mem = s.chip.mem ∧ t.dist = s.dist ∧
          (t.chip.dmaCh n.1).staged = x.staged ++ [BitVec.ofNat 64 (s.chip.granData .capture i)]) ∧
      (∀ i g l, s.chip.dmaReads n.1 = false → x.staged = g :: l → windowMem at_ = some (.capture, 8 * i) →
        (s.chip.checkAccess x.level at_ 32 true).isSome = true → s.chip.flag (DMA_CTRL.COMMIT n.1) = false →
        ∃ t, exec .dmaBeat s = .next t ∧ t.dist = s.dist ∧
          (∀ k, k < 8 → t.chip.byte (MemId.capture.base + 8 * i + k) = BitVec.ofNat 8 (g.toNat / 2 ^ (8 * k))) ∧
          (∀ a, a < MemId.capture.base + 8 * i ∨ MemId.capture.base + 8 * i + 8 ≤ a → t.chip.byte a = s.chip.byte a) ∧
          t.chip.fld (DMA_STATUS.REMAIN n.1) = s.chip.fld (DMA_CNT.CNT n.1) - (x.wr + 1) ∧
          (s.chip.fld (DMA_CNT.CNT n.1) ≤ x.wr + 1 → t.chip.fld (DMA_STATUS.STATE n.1) = dmaDone)) ∧
      (s.chip.dmaReads n.1 = true → s.chip.checkAccess x.level from_ 32 false = none →
        ∃ t, exec .dmaBeat s = .next t ∧ t.chip.fld (DMA_STATUS.STATE n.1) = dmaError ∧ t.chip.fld (DMA_STATUS.ERR n.1) = 1 ∧
          t.chip.fld (DMA_ERR_ADDR.ADDR n.1) = from_ % 2 ^ 24 ∧ t.chip.mem = s.chip.mem))
/-! ### Housekeeping converter, PWM and filters (spec/17) -/

/-- R404, R406 to R416: triggers of list `u` (the urgent list where `u` holds), the end of its delay, a conversion, and the converter's disable. A
trigger of an idle list starts its delay; one of a list that is already at work is an overrun. PWM channel `k`: at its enable and at each
period its PERIOD and DUTY take effect and its counter stands at 0, and its enable ends the clamp of R416; at the compare it stands
at DUTY; one that does not run does neither. -/
def Obligations.ConverterLists : Prop :=
  (∀ (s : State) (u : Bool) (m : Master) (v : Word),
     let x := s.chip.hkList u
     let idle := x.delaying = false ∧ x.waiting = false ∧ x.running = false
     let trig := getBits (s.chip.hkTrig u)
     let delays := fun (t : State) => t.chip.hkList u = { delaying := true } ∧ t.chip.mem = s.chip.mem ∧
       t.chip.flag (if u then HKA_STATUS.URG_BUSY else HKA_STATUS.SCAN_BUSY) = true
     (s.admits m HKA_SWTRIG.addr → getBits v 1 1 = b2n u → getBits v 0 1 = b2n (!u) →
       (s.chip.flag HKA_CTRL.EN = false → exec (.hkaSwtrig m v) s = .next (s.answered m false)) ∧
       (s.chip.flag HKA_CTRL.EN = true → idle → ∃ t, exec (.hkaSwtrig m v) s = .next t ∧ delays t ∧
         t.chip.hkList (!u) = s.chip.hkList (!u)) ∧
       (s.chip.flag HKA_CTRL.EN = true → ¬idle → ∃ t, exec (.hkaSwtrig m v) s = .next t ∧ t.chip.hkList u = x ∧
         t.chip.flag (if u then HKA_STATUS.URG_OVR else HKA_STATUS.SCAN_OVR) = true)) ∧
     (s.chip.pdOn 20 = true → s.chip.flag HKA_CTRL.EN = true → idle →
       (trig 0 3 = 1 → ∃ t, exec .listTimer s = .next t ∧ delays t) ∧
       (∀ r : Bool, trig 0 3 = 3 → bit (trig 8 2) (if r then 0 else 1) = true → ∃ t, exec (.hkTrigEdge r) s = .next t ∧ delays t)) ∧
     (∀ left : Fin 56, x.delaying = true →
       (s.chip.flag HKA_STATUS.CONV = true → ∃ t, exec (.triggerDelayEnd (!u) u left) s = .next t ∧
         t.chip.hkList u = { waiting := true, lag := 12 + left.1 } ∧ t.chip.hkList (!u) = s.chip.hkList (!u)) ∧
       (s.chip.flag HKA_STATUS.CONV = false → (s.chip.hkList (!u)).waiting = false → (s.chip.hkList (!u)).running = false →
         getBits (s.chip.reg (if u then HKA_URG_ENTRY.addr 0 else HKA_SCAN_ENTRY.addr 0)) 0 5 ≤ 21 →
         ∃ t, exec (.triggerDelayEnd (!u) u left) s = .next t ∧ t.chip.flag HKA_STATUS.CONV = true ∧ t.chip.hka.convUrg = u ∧
           (t.chip.hkList u).running = true ∧ (t.chip.hkList u).idx = 0 ∧ (t.chip.hkList u).sum = 0)) ∧
     (∀ y : Int, s.chip.pdOn 20 = true → s.chip.flag HKA_STATUS.CONV = true → s.chip.hka.convUrg = u → x.running = true →
       x.waiting = false → (s.chip.hkList (!u)).waiting = false → (s.chip.hkList (!u)).running = false →
       getBits (x.ents.getD x.idx 0) 0 5 ≤ 21 → x.done + 1 < entryConvs (x.ents.getD x.idx 0) →
       ∃ t, exec (.conversionDone y) s = .next t ∧ t.chip.hkList u = { x with done := x.done + 1, sum := x.sum + hkCodeOf x.channel y } ∧
         t.chip.flag HKA_STATUS.CONV = true ∧ t.chip.hka.convUrg = u ∧ t.chip.mem = s.chip.mem) ∧
     (∀ y : Int, s.chip.pdOn 20 = true → s.chip.flag HKA_STATUS.CONV = true → s.chip.hka.convUrg = u → x.running = false →
       (s.chip.hkList true).waiting = false → (s.chip.hkList false).waiting = false → (s.chip.hkList (!u)).running = false →
       ∃ t, exec (.conversionDone y) s = .next t ∧ t.chip.flag HKA_STATUS.CONV = false ∧ t.chip.hka = s.chip.hka) ∧
     (s.admits m HKA_CTRL.addr → getBits v 0 1 = 0 →
       ∃ t, exec (.converterDisable m v) s = .next t ∧ t.chip.flag HKA_CTRL.EN = false ∧ t.chip.hkList u = {} ∧
         t.chip.flag (if u then HKA_STATUS.URG_BUSY else HKA_STATUS.SCAN_BUSY) = false ∧ t.chip.hka.pwm = s.chip.hka.pwm)) ∧
  (∀ (s : State) (k : Fin 4) (m : Master) (v : Word),
     let loaded := fun (freed : Bool) => (⟨s.chip.fld (HKA_PWM_PERIOD.PERIOD k.1), s.chip.fld (HKA_PWM_DUTY.DUTY k.1), freed⟩ : Pwm)
     let others := fun (t : State) => ∀ j : Fin 4, j ≠ k → t.chip.hka.pwm[j.1] = s.chip.hka.pwm[j.1]
     (s.chip.pwmRuns k.1 = true →
       (∃ t, exec (.pwmPeriodStart k) s = .next t ∧ t.chip.hka.pwm[k.1] = loaded s.chip.hka.pwm[k.1].freed ∧ t.chip.fld (HKA_PWM_CNT.CNT k.1) = 0 ∧ others t ∧
         t.chip.mem = s.chip.mem) ∧
       (s.chip.hka.pwm[k.1].duty ≤ s.chip.hka.pwm[k.1].period →
         ∃ t, exec (.pwmCompare k) s = .next t ∧ t.chip.hka.pwm = s.chip.hka.pwm ∧ t.chip.mem = s.chip.mem ∧
           t.chip.fld (HKA_PWM_CNT.CNT k.1) = s.chip.hka.pwm[k.1].duty % 65536)) ∧
     (s.chip.pwmRuns k.1 = false → exec (.pwmPeriodStart k) s = .next s ∧ exec (.pwmCompare k) s = .next s) ∧
     (s.admits m (HKA_PWM_CFG.addr k.1) →
       (s.chip.flag (HKA_PWM_CFG.EN k.1) = false → getBits v 0 1 = 1 →
         ∃ t, exec (.pwmEnable m k v) s = .next t ∧ t.chip.flag (HKA_PWM_CFG.EN k.1) = true ∧ t.chip.hka.pwm[k.1] = loaded true ∧
           t.chip.fld (HKA_PWM_CNT.CNT k.1) = 0 ∧ others t ∧ t.chip.hka.scan = s.chip.hka.scan ∧ t.chip.hka.urg = s.chip.hka.urg) ∧
       (getBits v 0 1 = 0 → ∃ t, exec (.pwmEnable m k v) s = .next t ∧ t.chip.flag (HKA_PWM_CFG.EN k.1) = false ∧ t.chip.hka = s.chip.hka)))

/-- R305, R329, R417, R418, R421: filter channel `f` and the housekeeping commands. An input of an enabled channel enters the carded mean of
the current and the previous block; a restart empties its sums and makes its output invalid; a write to its configuration restarts
it in full. -/
def Obligations.FilterChannels : Prop :=
  ∀ (s : State) (f : Fin 31) (m : Master) (v : Word) (src : CmdSrc) (c : Chip) (r : Req),
    let x := s.chip.fltCh f.1
    let b := byteAt r.payload
    let ends := fun (j : Instr) (d : Chip) (y : Reply) => exec j s = .next { s with chip := d.conclude r (.done y) }
    (∀ y : BitVec 16,
      (s.chip.pdOn 20 = false ∨ s.chip.flag (FLT_CFG.EN f.1) = false ∨ (22 ≤ f.1 ∧ s.chip.pdOn (7 + (f.1 - 22)) = false) →
        exec (.filterInput f y) s = .next s) ∧
      (s.chip.pdOn 20 = true → s.chip.flag (FLT_CFG.EN f.1) = true → f.1 < 22 ∨ s.chip.pdOn (7 + (f.1 - 22)) = true →
        s.chip.flag (FLT_CARDED.VALID f.1) = false ∨ s.chip.fld (FLT_CFG.STEP_THR f.1) = 0 →
        ∃ t, exec (.filterInput f y) s = .next t ∧ t.chip.flag (FLT_CARDED.VALID f.1) = true ∧ t.chip.mem = s.chip.mem ∧
          t.chip.fld (FLT_CARDED.VALUE f.1) = roundDiv (x.prevSum + x.curSum + y.toNat) (x.prevCnt + x.curCnt + 1) % 65536 ∧
          ∀ g : Fin 31, g ≠ f → t.chip.fltCh g.1 = s.chip.fltCh g.1)) ∧
    (s.admits m FLT_RESTART.addr → ∃ t, exec (.fltRestart m v) s = .next t ∧ t.chip.mem = s.chip.mem ∧
      (v.getLsbD f.1 = true → t.chip.fltCh f.1 = { x with prevSum := 0, prevCnt := 0, curSum := 0, curCnt := 0 } ∧
        t.chip.flag (FLT_CARDED.VALID f.1) = false) ∧
      (v.getLsbD f.1 = false → t.chip.fltCh f.1 = x ∧ t.chip.reg (FLT_CARDED.addr f.1) = s.chip.reg (FLT_CARDED.addr f.1))) ∧
    (s.admits m (FLT_CFG.addr f.1) → ∃ t, exec (.fltCfgWrite m f v) s = .next t ∧ t.chip.fltCh f.1 = { satSeen := x.satSeen } ∧
      t.chip.flag (FLT_CARDED.VALID f.1) = false ∧ t.chip.flag (FLT_COMBED.VALID f.1) = false ∧
      t.chip.flag (FLT_CFG.EN f.1) = (getBits v 0 1 == 1) ∧ t.chip.fld (FLT_CFG.DEC f.1) = getBits v 2 4 ∧
      ∀ g : Fin 31, g ≠ f → t.chip.fltCh g.1 = s.chip.fltCh g.1) ∧
    (s.takes src 0x0E01 c r → ends (.hkRead src) c (if c.pdOn 20 then
      .okD ((List.range 22).flatMap (fun k => leBytes 2 (c.fld (FLT_COMBED.VALUE k)))) else .fail .badState)) ∧
    (s.takes src 0x0E02 c r →
      (21 < b 0 ∨ arg16 r.payload 6 < arg16 r.payload 4 → ends (.hkAlarmCfg src) c (.fail .badArg)) ∧
      (∀ k : Fin 22, b 0 = k.1 → arg16 r.payload 4 ≤ arg16 r.payload 6 → c.pdOn 20 = true →
        ∃ d : Chip, ends (.hkAlarmCfg src) d (.okR []) ∧ d.alarms[k.1].en = bit (b 1) 0 ∧ d.alarms[k.1].lo = arg16 r.payload 4 ∧
          d.alarms[k.1].hi = arg16 r.payload 6 ∧ (∀ j : Fin 22, j ≠ k → d.alarms[j.1] = c.alarms[j.1]) ∧ d.regs = c.regs) ∧
      (b 0 ≤ 21 → arg16 r.payload 4 ≤ arg16 r.payload 6 → c.pdOn 20 = false → ends (.hkAlarmCfg src) c (.fail .badState)))

/-! ### Counters and patterns (spec/04, spec/19) -/

/-- R447 to R453: a freeze and its release, a read of a counter, its selection, and the bandwidth meters at the end of their window. -/
def Obligations.CountersAndMeters : Prop :=
  ∀ (s : State) (m : Master) (v : Word) (i : Fin 256) (p : Fin 16),
    (s.admits m CNT_FREEZE.addr →
      (getBits v 0 1 = 1 → ∃ t, exec (.freeze m v) s = .next t ∧ t.chip.frozen = true ∧
        t.chip.cnt.shadow = s.chip.cnt.count ∧ (t.chip.reg CNT_FREEZE_TIME_LO.addr).toNat = s.chip.evt.time % 2 ^ 32 ∧
        t.chip.fld CNT_FREEZE_TIME_HI.TIME_HI = s.chip.evt.time / 2 ^ 32 % 2 ^ 16 ∧ t.chip.mem = s.chip.mem) ∧
      (getBits v 0 1 = 0 → getBits v 1 1 = 1 → ∃ t, exec (.freezeRelease m v) s = .next t ∧ t.chip.frozen = false ∧
        t.chip.cnt = s.chip.cnt ∧ ∀ a, a ≠ CNT_FREEZE.addr → t.chip.reg a = s.chip.reg a)) ∧
    (s.admitsRead m (cntAddr i.1) →
      let n := tabGet (fun _ => 0) (if s.chip.frozen then s.chip.cnt.shadow else s.chip.cnt.count) i.1
      ∃ t, exec (.cntLo m i) s = .next t ∧ t.chip.answers[(masterIdx m).1]'(masterIdx m).2 = ⟨false, BitVec.ofNat 32 n⟩ ∧
        tabGet (fun _ => 0) t.chip.cnt.hi i.1 = bitsOf n 32 16 ∧ t.chip.regs = s.chip.regs ∧
        (∀ j : Fin 256, j ≠ i → t.chip.cnt.get j.1 = s.chip.cnt.get j.1) ∧
        (s.admits m (cntAddr i.1) → t.chip.cnt.get i.1 = (s.chip.cnt.get i.1 + 2 ^ 48 - n) % 2 ^ 48)) ∧
    (s.admits m (cntAddr i.1 + 8) →
      ∃ t, exec (.cntSelWrite m i v) s = .next t ∧ t.chip.cnt.get i.1 = 0 ∧ tabGet (fun _ => 0) t.chip.cnt.sel i.1 = v &&& cntSelMask ∧
        (∀ j : Fin 256, j ≠ i → t.chip.cnt.get j.1 = s.chip.cnt.get j.1) ∧ t.chip.regs = s.chip.regs ∧ t.chip.mem = s.chip.mem) ∧
    (∀ rx tx : List Nat, s.chip.pdOn 19 = false ∨ s.chip.flag CNT_BW_CFG.EN = false → exec (.bwWindow rx tx) s = .next s) ∧
    (∀ rx tx : List Nat, s.chip.pdOn 19 = true → s.chip.flag CNT_BW_CFG.EN = true →
      ∃ t, exec (.bwWindow rx tx) s = .next t ∧ t.chip.mem = s.chip.mem ∧
        (t.chip.reg (CNT_BW_RX.addr p.1)).toNat = rx.getD p.1 0 / 16 % 2 ^ 32 ∧
        (t.chip.reg (CNT_BW_PEAK_RX.addr p.1)).toNat = max (s.chip.reg (CNT_BW_PEAK_RX.addr p.1)).toNat (rx.getD p.1 0 / 16 % 2 ^ 32) ∧
        (t.chip.reg (CNT_BW_TX.addr p.1)).toNat = tx.getD p.1 0 / 16 % 2 ^ 32 ∧
        t.chip.fld CNT_BW_SEQ.SEQ = (s.chip.fld CNT_BW_SEQ.SEQ + 1) % 2 ^ 32) ∧
    (s.admits m CNT_BW_CFG.addr →
      ∃ t, exec (.bwCfgWrite m v) s = .next t ∧ t.chip.flag CNT_BW_CFG.EN = (getBits v 31 1 == 1) ∧
        t.chip.fld CNT_BW_CFG.WINDOW = getBits v 0 27 ∧ ∀ a, a ≠ CNT_BW_CFG.addr → t.chip.reg a = s.chip.reg a)

/-- R109, R110, R136, R453 to R455: the pattern generator and checker of a lane. A generator that may run is enabled as written, one that may
not reads EN as 0, and an injected error waits for its next symbol; a checker that has found 64 right bits in a row is synchronised,
counts while it is, and loses its pattern at the 64th wrong bit of 1024, which sets LOST; a read of the bit count answers what it has
compared. -/
def Obligations.PatternLanes : Prop :=
  ∀ (s : State) (l : AnyLane) (m : Master) (v : Word),
    let a := genAddr l
    let st := chkStatusAddr l
    let chk := getBits (s.chip.reg (chkAddr l)) 0 1
    let sync := getBits (s.chip.reg st) 0 1
    (s.admits m a →
      (getBits v 0 1 = 1 → s.chip.genFree l = true → s.chip.codeOk l (getBits v 1 2) = true →
        ∃ t, exec (.patternGeneratorEnable m l v) s = .next t ∧ getBits (t.chip.reg a) 0 1 = 1 ∧ getBits (t.chip.reg a) 1 2 = getBits v 1 2 ∧
          ∀ b, b ≠ a → t.chip.reg b = s.chip.reg b) ∧
      (getBits v 0 1 = 1 → s.chip.genFree l = false ∨ s.chip.codeOk l (getBits v 1 2) = false →
        ∃ t, exec (.patternGeneratorEnable m l v) s = .next t ∧ getBits (t.chip.reg a) 0 1 = 0 ∧ ∀ b, b ≠ a → t.chip.reg b = s.chip.reg b) ∧
      (getBits v 0 1 = 0 → ∃ t, exec (.errInj m l v) s = .next t ∧ getBits (t.chip.reg a) 0 1 = 0 ∧
        getBits (t.chip.reg a) 4 1 = getBits (s.chip.reg a) 4 1 ∧ (getBits v 4 1 = 1 → (t.chip.genOf l).inj = true) ∧ ∀ b, b ≠ a → t.chip.reg b = s.chip.reg b)) ∧
    (∀ errs : List Bool, s.chip.laneOn l = false ∨ chk ≠ 1 → exec (.patChkSync l errs) s = .next s) ∧
    (s.chip.laneOn l = true → chk = 1 →
      let k := s.chip.chkOf l
      let same := fun (t : State) => (t.chip.reg (patErrAddr l)).toNat = (s.chip.reg (patErrAddr l)).toNat ∧ t.chip.bitCount l = s.chip.bitCount l ∧
        getBits (t.chip.reg st) 1 1 = getBits (s.chip.reg st) 1 1
      (sync = 0 → k.good < 63 → ∃ t, exec (.patChkSync l [false]) s = .next t ∧ getBits (t.chip.reg st) 0 1 = 0 ∧
        (t.chip.chkOf l).good = k.good + 1 ∧ same t) ∧
      (sync = 0 → ∃ t, exec (.patChkSync l [true]) s = .next t ∧ getBits (t.chip.reg st) 0 1 = 0 ∧ (t.chip.chkOf l).good = 0 ∧ same t) ∧
      (sync = 0 → k.good = 63 → ∃ t, exec (.patChkSync l [false]) s = .next t ∧ getBits (t.chip.reg st) 0 1 = 1 ∧ t.chip.chkOf l = {} ∧ same t) ∧
      (∀ errs : List Bool, sync = 1 → (errs.filter id).length + (k.window.filter id).length < 64 →
        ∃ t, exec (.patChkSync l errs) s = .next t ∧ getBits (t.chip.reg st) 0 1 = 1 ∧ t.chip.mem = s.chip.mem ∧
          getBits (t.chip.reg st) 1 1 = getBits (s.chip.reg st) 1 1 ∧
          (t.chip.reg (patErrAddr l)).toNat = min (2 ^ 32 - 1) ((s.chip.reg (patErrAddr l)).toNat + (errs.filter id).length) ∧
          (s.chip.bitCount l + errs.length < 2 ^ 48 → t.chip.bitCount l = s.chip.bitCount l + errs.length)) ∧
      (∀ e : Bool, sync = 1 → (k.follow e).lost = true →
        ∃ t, exec (.patChkSync l [e]) s = .next t ∧ getBits (t.chip.reg st) 0 1 = 0 ∧ getBits (t.chip.reg st) 1 1 = 1 ∧
          t.chip.chkOf l = {} ∧ t.chip.mem = s.chip.mem ∧
          (t.chip.reg (patErrAddr l)).toNat = min (2 ^ 32 - 1) ((s.chip.reg (patErrAddr l)).toNat + b2n e))) ∧
    (s.admitsRead m (bitsLoAddr l) →
      ∃ t, exec (.hlnPatBitsLo m l) s = .next t ∧ t.chip.mem = s.chip.mem ∧
        t.chip.answers[(masterIdx m).1]'(masterIdx m).2 = ⟨false, BitVec.ofNat 32 (s.chip.bitSeen l)⟩ ∧
        (t.chip.reg (bitsHiAddr l)).toNat = bitsOf (s.chip.bitSeen l) 32 16 ∧
        (s.admits m (bitsLoAddr l) → s.chip.frozen = false → t.chip.bitCount l = 0))

/-! ### Management accesses (spec/00, spec/01, spec/21) -/

/-- R4, R8, R19, R20, R46, R368, R373, R487, R496, R498: register writes and reads with no command of their own. A refused access answers the
master with a bus error and changes nothing else, but for WR_ERR of a write over I3C; none reaches the part from a host that is cut off. A
word written to capture memory stands there, a word read from it is answered, and a read of the error counts of MBX clears them; of the
reads of the host and of a spindle in one cycle the host's comes first and the other finds zero. The
common command codes of the I3C port: a part without a dynamic address takes one, RSTDAA takes it away, and a code that R498 does not
name is not acknowledged, nor is any while the Whorl is stopped. -/
def Obligations.RegisterAccesses : Prop :=
  (∀ (s : State) (m : Master) (a : BitVec 24) (width : Nat) (v : Word),
     let g := (a.toNat - MemId.capture.base) / 8
     let clean := tabGet (fun _ => 0) s.chip.flips (MemId.capture.key g) = 0
     (s.chip.cutOff m = true → ∀ i3c : Bool, exec (.registerWrite m i3c a width v []) s = .next s ∧ exec (.readToClear m i3c a width []) s = .next s) ∧
     (s.chip.pmu.lowPower = true →
       exec (.registerWrite .host true a width v []) s = .next s ∧ exec (.readToClear .host true a width []) s = .next s) ∧
     (s.refuses m a.toNat → exec (.registerWrite m false a 32 v []) s = .next (s.answered m true)) ∧
     (s.refuses .host a.toNat → s.chip.pmu.lowPower = false → ∃ t, exec (.registerWrite .host true a 32 v []) s = .next t ∧
       t.chip.i3c = { s.chip.i3c with wrErr := true } ∧ t.chip.regs = s.chip.regs ∧ t.chip.mem = s.chip.mem ∧ t.dist = s.dist) ∧
     (s.chip.cutOff m = false → s.chip.checkAccess (s.chip.masterLevel m) a.toNat 32 false = none →
       exec (.readToClear m false a 32 []) s = .next (s.answered m true)) ∧
     (s.admits m a.toNat → MemId.capture.base ≤ a.toNat → a.toNat < MemId.capture.base + 0x200000 → clean →
       ∃ t, exec (.registerWrite m false a 32 v []) s = .next t ∧ t.dist = s.dist ∧ t.chip.regs = s.chip.regs ∧
         (∀ k, k < 4 → t.chip.byte (a.toNat + k) = BitVec.ofNat 8 (v.toNat / 2 ^ (8 * k))) ∧
         (s.chip.granValid .capture g = true → ∀ x, x < a.toNat ∨ a.toNat + 4 ≤ x → t.chip.byte x = s.chip.byte x)) ∧
     (s.admitsRead m a.toNat → MemId.capture.base ≤ a.toNat → a.toNat < MemId.capture.base + 0x200000 → clean →
       s.chip.granValid .capture g = true →
       ∃ t, exec (.readToClear m false a 32 []) s = .next t ∧ t.chip.mem = s.chip.mem ∧ t.dist = s.dist ∧ t.chip.regs = s.chip.regs ∧
         t.chip.answers[(masterIdx m).1]'(masterIdx m).2 = ⟨false, BitVec.ofNat 32 (bitsOf (s.chip.granData .capture g) (32 * (a.toNat / 4 % 2)) 32)⟩) ∧
     (s.readsAndClears m MBX_ERR.addr →
       ∃ t, exec (.readToClear m false (BitVec.ofNat 24 MBX_ERR.addr) 32 []) s = .next t ∧ t.chip.mem = s.chip.mem ∧
         t.chip.answers[(masterIdx m).1]'(masterIdx m).2 = ⟨false, s.chip.reg MBX_ERR.addr⟩ ∧ t.chip.fld MBX_ERR.DB_BUSY = 0 ∧
         t.chip.fld MBX_ERR.SLOT_WRITE = 0 ∧ t.chip.fld MBX_ERR.FREE_ERR = 0 ∧ ∀ b, b ≠ MBX_ERR.addr → t.chip.reg b = s.chip.reg b) ∧
     (∀ x y : Master, (x = .host ∧ y = .spindleA) ∨ (x = .spindleA ∧ y = .host) → s.readsAndClears .host MBX_ERR.addr →
       s.readsAndClears .spindleA MBX_ERR.addr →
       ∃ t, exec (.readToClear x false (BitVec.ofNat 24 MBX_ERR.addr) 32 [⟨y, false, BitVec.ofNat 24 MBX_ERR.addr, 32, none⟩]) s = .next t ∧
         t.chip.answers[(masterIdx .host).1]'(masterIdx .host).2 = ⟨false, s.chip.reg MBX_ERR.addr⟩ ∧
         ∃ d : Word, t.chip.answers[(masterIdx .spindleA).1]'(masterIdx .spindleA).2 = ⟨false, d⟩ ∧
           getBits d MBX_ERR.DB_BUSY.lo MBX_ERR.DB_BUSY.w = 0 ∧ getBits d MBX_ERR.SLOT_WRITE.lo MBX_ERR.SLOT_WRITE.w = 0 ∧
           getBits d MBX_ERR.FREE_ERR.lo MBX_ERR.FREE_ERR.w = 0)) ∧
  (∀ (s : State) (x : Ccc),
     let ends := fun (p : I3c) => exec (.i3cCcc x) s = .next { s with chip := { s.chip with i3c := p } }
     let p := s.chip.i3c
     (s.chip.cutOff .host = true → exec (.i3cCcc x) s = .next s) ∧
     (s.chip.cutOff .host = false → s.chip.pmu.lowPower = true → ends { p with ack := false, answer := 0 }) ∧
     (s.chip.cutOff .host = false → s.chip.pmu.lowPower = false →
       (∀ a, x = .entdaa a → p.dyn = none → ends { p with dyn := some a.toNat, ack := true, answer := 0 }) ∧
       (∀ a d, x = .setdasa a d → p.dyn = none → a.toNat = s.chip.staticAddr → ends { p with dyn := some d.toNat, ack := true, answer := 0 }) ∧
       (x = .rstdaa → ends { p with dyn := none, ack := true, answer := 0 }) ∧
       (∀ a, x = .getpid a ∨ x = .getbcr a ∨ x = .getdcr a → p.dyn ≠ some a.toNat → ends { p with ack := false, answer := 0 }) ∧
       (∀ a, x = .getpid a → p.dyn = some a.toNat → ends { p with ack := true, answer := Config.i3cPid.toNat }) ∧
       (∀ k, x = .other k → ends { p with ack := false, answer := 0 })))
/-! ### The whole datapath, and rules of the fabric -/

/-- R9, R25: whatever a command of the datapath does, it leaves alone OTP, the distaff, power domains, thermal sensors, spindles, the
session, DMA, the converter and the filters, the pins, and every register of GLB (but the step of the start and the fray), PMU, THM, GRD,
CNT, HKA, FLT and DMA. Two of these commands can reach further, and are taken where they do not: the end of a capture whose request line a DMA
channel takes (R389), and the posting of a LOW_POWER's completion, with which that entry begins (R322). -/
def Obligations.DatapathLeavesTheRestAlone : Prop :=
  ∀ (i : Instr) (s : State), isDatapath i = true → reachesFurther s i = false →
    ∃ t, exec i s = .next t ∧ t.chip.still = s.chip.still ∧ t.fuse = s.fuse ∧ t.dist = s.dist ∧ t.pending = s.pending

/-- R4, R17: an access that is not 32 bits wide or not aligned, and one below VENDOR level to the upper half of a lane window, ends in a bus
error and changes no state, whatever the guard table holds (over I3C a write also leaves WR_ERR, which R498 gives the port). -/
def Obligations.MisplacedAccesses : Prop :=
  ∀ (s : State) (m : Master) (i3c : Bool) (a : BitVec 24) (width : Nat) (v : Word), s.chip.reaches m (overI3c m i3c) = true →
    let upper := (0x100000 ≤ a.toNat ∧ a.toNat < 0x200000 ∨ 0x200000 ≤ a.toNat ∧ a.toNat < 0x290000 ∨ 0x300000 ≤ a.toNat ∧ a.toNat < 0x390000) ∧
      0x8000 ≤ a.toNat % 0x10000 ∧ s.chip.masterLevel m < 3
    let error := fun (t : State) => t.fuse = s.fuse ∧ t.dist = s.dist ∧
      ∃ p : I3c, t.chip = { s.chip.answer m true 0 with i3c := p } ∧ p.dyn = s.chip.i3c.dyn
    (width ≠ 32 ∨ a.toNat % 4 ≠ 0 ∨ upper → ∃ t, exec (.registerWrite m i3c a width v []) s = .next t ∧ error t) ∧
    (width ≠ 32 ∨ a.toNat % 4 ≠ 0 ∨ upper → ∃ t, exec (.readToClear m i3c a width []) s = .next t ∧ error t)

/-- R398, R387: the bit-plane reshuffle of the DMA: from 40 granules that hold 64 native words of 40 bits, one after another from bit 0 of the
first granule on, it makes 40 granules in which bit i of granule b is bit b of word i. -/
def Obligations.BitPlaneReshuffle : Prop :=
  ∀ l : List (BitVec 64), l.length = 40 → (xform 2 l).length = 40 ∧
    ∀ b i, b < 40 → i < 64 → ((xform 2 l).getD b 0).getLsbD i = (l.getD ((40 * i + b) / 64) 0).getLsbD ((40 * i + b) % 64)

end Statements
end

