-- ==== Sys2Proof/Laws/Bits.lean ====
section
/-! SUPPORT. Bit fields of words and sparse tables: a field reads back what was put into it, other fields and other keys
stay, and every table operation keeps the canonical form. -/

namespace Sys2Proof.Machine

/-! ### Bit fields -/

/-- A field of a word has no more than its bits. -/
theorem getBits_lt (x : Word) (lo w : Nat) : getBits x lo w < 2 ^ w := Nat.mod_lt _ (Nat.two_pow_pos w)

/-- Bit `i` of a field. -/
theorem getBits_testBit (x : Word) (lo w i : Nat) :
    (getBits x lo w).testBit i = (decide (i < w) && x.getLsbD (lo + i)) := by
  simp [getBits, Nat.testBit_mod_two_pow, Nat.testBit_shiftRight, BitVec.getLsbD]

/-- Bit `j` of a mask. -/
theorem bitMask_getLsbD (lo w j : Nat) :
    (bitMask lo w).getLsbD j = (decide (j < 32) && decide (lo ≤ j) && decide (j < lo + w)) := by
  simp only [bitMask, BitVec.getLsbD_shiftLeft, BitVec.getLsbD_ofNat, Nat.testBit_two_pow_sub_one]
  by_cases h1 : j < 32
  · by_cases h2 : j < lo
    · simp [h1, h2, Nat.not_le.2 h2]
    · have h3 : j - lo < 32 := by omega
      by_cases h4 : j < lo + w
      · have h5 : j - lo < w := by omega
        simp [h1, h2, h3, h4, h5, Nat.not_lt.1 h2]
      · have h5 : ¬ j - lo < w := by omega
        simp [h2, h4, h5]
  · simp [h1]

/-- Bit `j` of a word in which a field was replaced. -/
theorem setBits_getLsbD (x : Word) (lo w v j : Nat) :
    (setBits x lo w v).getLsbD j =
      (decide (j < 32) && if lo ≤ j ∧ j < lo + w then v.testBit (j - lo) else x.getLsbD j) := by
  simp only [setBits, BitVec.getLsbD_or, BitVec.getLsbD_and, BitVec.getLsbD_not, bitMask_getLsbD,
    BitVec.getLsbD_shiftLeft, BitVec.getLsbD_ofNat, Nat.testBit_mod_two_pow]
  by_cases h1 : j < 32
  · by_cases h2 : lo ≤ j
    · by_cases h3 : j < lo + w
      · have h4 : j - lo < w := by omega
        have h5 : j - lo < 32 := by omega
        have h6 : ¬ j < lo := by omega
        simp [h1, h2, h3, h4, h5, h6]
      · have h4 : ¬ j - lo < w := by omega
        simp [h1, h2, h3, h4]
    · have h6 : j < lo := by omega
      simp [h1, h2, h6]
  · have : x.getLsbD j = false := BitVec.getLsbD_of_ge _ _ (by omega)
    simp [h1, this]

/-- A field reads back the low bits of what was put into it. -/
theorem getBits_setBits_same (x : Word) (lo w v : Nat) (h : lo + w ≤ 32) :
    getBits (setBits x lo w v) lo w = v % 2 ^ w := by
  apply Nat.eq_of_testBit_eq
  intro i
  rw [getBits_testBit, setBits_getLsbD, Nat.testBit_mod_two_pow]
  by_cases hi : i < w
  · have h1 : lo + i < 32 := by omega
    simp [hi, h1]
  · simp [hi]

/-- A field that shares no bit with the one replaced stays. -/
theorem getBits_setBits_other (x : Word) (lo w v lo' w' : Nat) (h : lo + w ≤ lo' ∨ lo' + w' ≤ lo) :
    getBits (setBits x lo w v) lo' w' = getBits x lo' w' := by
  apply Nat.eq_of_testBit_eq
  intro i
  rw [getBits_testBit, getBits_testBit, setBits_getLsbD]
  by_cases hi : i < w'
  · have h2 : ¬ (lo ≤ lo' + i ∧ lo' + i < lo + w) := by omega
    by_cases h1 : lo' + i < 32
    · simp [hi, h1, h2]
    · have : x.getLsbD (lo' + i) = false := BitVec.getLsbD_of_ge _ _ (by omega)
      simp [h1, this]
  · simp [hi]

/-! ### Sparse tables -/

variable {α : Type}

/-- An erased key reads as its default. -/
theorem tabGet_tabErase_same (d : Nat → α) (t : List (Nat × α)) (k : Nat) : tabGet d (tabErase t k) k = d k := by
  induction t with
  | nil => rfl
  | cons p t ih =>
    obtain ⟨k', v⟩ := p
    by_cases h : k' = k
    · simp only [tabErase, h, List.filter_cons, bne_self_eq_false] at *; simpa using ih
    · simp only [tabErase, List.filter_cons] at *
      simp [h, tabGet, ih]

/-- Other keys stay when one is erased. -/
theorem tabGet_tabErase_other (d : Nat → α) (t : List (Nat × α)) (k j : Nat) (h : j ≠ k) :
    tabGet d (tabErase t k) j = tabGet d t j := by
  induction t with
  | nil => rfl
  | cons p t ih =>
    obtain ⟨k', v⟩ := p
    by_cases h1 : k' = k
    · subst h1
      simp only [tabErase, List.filter_cons] at *
      simp [tabGet, ih, Ne.symm h]
    · simp only [tabErase, List.filter_cons] at *
      simp [h1, tabGet, ih]

/-- No pair of an erased table has the key. -/
theorem tabErase_ne (t : List (Nat × α)) (k : Nat) : ∀ p ∈ tabErase t k, p.1 ≠ k := by
  intro p hp
  simpa using (List.mem_filter.1 hp).2

/-- An inserted key reads its value. -/
theorem tabGet_tabIns_same (d : Nat → α) (k : Nat) (v : α) (t : List (Nat × α)) (h : ∀ p ∈ t, p.1 ≠ k) :
    tabGet d (tabIns k v t) k = v := by
  induction t with
  | nil => simp [tabIns, tabGet]
  | cons p t ih =>
    obtain ⟨k', v'⟩ := p
    have h1 : k' ≠ k := h (k', v') (by simp)
    unfold tabIns
    split
    · simp [tabGet]
    · simp only [tabGet, h1, if_false]
      exact ih (fun p hp => h p (List.mem_cons_of_mem _ hp))

/-- Other keys stay when one is inserted. -/
theorem tabGet_tabIns_other (d : Nat → α) (k : Nat) (v : α) (t : List (Nat × α)) (j : Nat) (h : j ≠ k) :
    tabGet d (tabIns k v t) j = tabGet d t j := by
  induction t with
  | nil => simp [tabIns, tabGet, Ne.symm h]
  | cons p t ih =>
    obtain ⟨k', v'⟩ := p
    unfold tabIns
    split
    · simp [tabGet, Ne.symm h]
    · simp [tabGet, ih]

variable [DecidableEq α]

/-- A key reads the value that was set. -/
@[simp] theorem tabGet_tabSet_same (d : Nat → α) (t : List (Nat × α)) (k : Nat) (v : α) :
    tabGet d (tabSet d t k v) k = v := by
  unfold tabSet
  split
  · rename_i h; rw [tabGet_tabErase_same, h]
  · exact tabGet_tabIns_same d k v _ (tabErase_ne t k)

/-- Setting one key leaves every other. -/
theorem tabGet_tabSet_other (d : Nat → α) (t : List (Nat × α)) (k j : Nat) (v : α) (h : j ≠ k) :
    tabGet d (tabSet d t k v) j = tabGet d t j := by
  unfold tabSet
  split
  · exact tabGet_tabErase_other d t k j h
  · rw [tabGet_tabIns_other d k v _ j h, tabGet_tabErase_other d t k j h]

/-- The canonical form may start from a smaller key, or from none. -/
theorem tabWfFrom_mono (d : Nat → α) (a b : Nat) (h : a ≤ b) (t : List (Nat × α)) :
    tabWfFrom d (some b) t = true → tabWfFrom d (some a) t = true := by
  cases t with
  | nil => simp [tabWfFrom]
  | cons p t =>
    obtain ⟨k, v⟩ := p
    simp only [tabWfFrom, Bool.and_eq_true, decide_eq_true_eq]
    rintro ⟨⟨h1, h2⟩, h3⟩
    exact ⟨⟨by omega, h2⟩, h3⟩

/-- The canonical form with a lower bound is the canonical form. -/
theorem tabWfFrom_none (d : Nat → α) (a : Nat) (t : List (Nat × α)) :
    tabWfFrom d (some a) t = true → tabWfFrom d none t = true := by
  cases t with
  | nil => simp [tabWfFrom]
  | cons p t =>
    obtain ⟨k, v⟩ := p
    simp only [tabWfFrom, Bool.and_eq_true]
    rintro ⟨⟨-, h2⟩, h3⟩
    exact ⟨⟨trivial, h2⟩, h3⟩

/-- A part of a table in canonical form, taken by a filter, is in canonical form. -/
theorem tabWfFrom_filter (d : Nat → α) (q : Nat × α → Bool) (lo : Option Nat) (t : List (Nat × α)) :
    tabWfFrom d lo t = true → tabWfFrom d lo (t.filter q) = true := by
  induction t generalizing lo with
  | nil => simp [tabWfFrom]
  | cons p t ih =>
    obtain ⟨k, v⟩ := p
    intro h
    have h' := h
    simp only [tabWfFrom, Bool.and_eq_true, decide_eq_true_eq] at h'
    obtain ⟨⟨h1, h2⟩, h3⟩ := h'
    rw [List.filter_cons]
    split
    · simp only [tabWfFrom, Bool.and_eq_true, decide_eq_true_eq]
      exact ⟨⟨h1, h2⟩, ih _ h3⟩
    · apply ih
      cases lo with
      | none => exact tabWfFrom_none d k t h3
      | some a =>
        have : a < k := by simpa using h1
        exact tabWfFrom_mono d a k (by omega) t h3

/-- The canonical form is kept by an insertion of a key that the table does not list. -/
theorem tabWfFrom_tabIns (d : Nat → α) (k : Nat) (v : α) (hv : v ≠ d k) (lo : Option Nat) (t : List (Nat × α))
    (hlo : ∀ a, lo = some a → a < k) (hk : ∀ p ∈ t, p.1 ≠ k) :
    tabWfFrom d lo t = true → tabWfFrom d lo (tabIns k v t) = true := by
  induction t generalizing lo with
  | nil =>
    intro _
    cases lo with
    | none => simp [tabIns, tabWfFrom, hv]
    | some a => simp [tabIns, tabWfFrom, hv, hlo a rfl]
  | cons p t ih =>
    obtain ⟨k', v'⟩ := p
    intro h
    simp only [tabWfFrom, Bool.and_eq_true, decide_eq_true_eq] at h
    obtain ⟨⟨h1, h2⟩, h3⟩ := h
    have hne : k' ≠ k := hk (k', v') (by simp)
    unfold tabIns
    split
    · rename_i hlt
      simp only [tabWfFrom, Bool.and_eq_true, decide_eq_true_eq]
      refine ⟨⟨?_, hv⟩, ⟨hlt, h2⟩, h3⟩
      cases lo with
      | none => trivial
      | some a => simpa using hlo a rfl
    · rename_i hnlt
      simp only [tabWfFrom, Bool.and_eq_true, decide_eq_true_eq]
      refine ⟨⟨h1, h2⟩, ih (some k') ?_ (fun p hp => hk p (List.mem_cons_of_mem _ hp)) h3⟩
      intro a ha
      injection ha with ha
      omega

/-- Setting a key keeps the canonical form. -/
theorem tabWf_tabSet (d : Nat → α) (t : List (Nat × α)) (k : Nat) (v : α) (h : tabWf d t = true) :
    tabWf d (tabSet d t k v) = true := by
  unfold tabWf tabSet at *
  split
  · exact tabWfFrom_filter d _ none t h
  · rename_i hv
    exact tabWfFrom_tabIns d k v hv none _ (by simp) (tabErase_ne t k) (tabWfFrom_filter d _ none t h)

/-- Erasing a key keeps the canonical form. -/
theorem tabWf_tabErase (d : Nat → α) (t : List (Nat × α)) (k : Nat) (h : tabWf d t = true) :
    tabWf d (tabErase t k) = true := tabWfFrom_filter d _ none t h

/-- Dropping entries keeps the canonical form. -/
theorem tabWf_filter (d : Nat → α) (t : List (Nat × α)) (q : Nat × α → Bool) (h : tabWf d t = true) :
    tabWf d (t.filter q) = true := tabWfFrom_filter d q none t h

end Sys2Proof.Machine
end

