-- ==== Sys2Proof/Laws/State.lean ====
section
/-! SUPPORT. What each update of the part leaves alone, one lemma per field (written by a script over the list of fields), and what a
register and a field read as after an update. -/

namespace Sys2Proof.Machine

variable (s : Chip)

/-! ### `Chip.setReg` -/

@[simp] theorem Chip.setReg_frz (a : Nat) (v : Word) : (s.setReg a v).frz = s.frz := rfl
@[simp] theorem Chip.setReg_evt (a : Nat) (v : Word) : (s.setReg a v).evt = s.evt := rfl
@[simp] theorem Chip.setReg_cnt (a : Nat) (v : Word) : (s.setReg a v).cnt = s.cnt := rfl
@[simp] theorem Chip.setReg_mem (a : Nat) (v : Word) : (s.setReg a v).mem = s.mem := rfl
@[simp] theorem Chip.setReg_valid (a : Nat) (v : Word) : (s.setReg a v).valid = s.valid := rfl
@[simp] theorem Chip.setReg_flips (a : Nat) (v : Word) : (s.setReg a v).flips = s.flips := rfl
@[simp] theorem Chip.setReg_ecc (a : Nat) (v : Word) : (s.setReg a v).ecc = s.ecc := rfl
@[simp] theorem Chip.setReg_pmu (a : Nat) (v : Word) : (s.setReg a v).pmu = s.pmu := rfl
@[simp] theorem Chip.setReg_thm (a : Nat) (v : Word) : (s.setReg a v).thm = s.thm := rfl
@[simp] theorem Chip.setReg_flash (a : Nat) (v : Word) : (s.setReg a v).flash = s.flash := rfl
@[simp] theorem Chip.setReg_cfg (a : Nat) (v : Word) : (s.setReg a v).cfg = s.cfg := rfl
@[simp] theorem Chip.setReg_mbx (a : Nat) (v : Word) : (s.setReg a v).mbx = s.mbx := rfl
@[simp] theorem Chip.setReg_spn (a : Nat) (v : Word) : (s.setReg a v).spn = s.spn := rfl
@[simp] theorem Chip.setReg_sess (a : Nat) (v : Word) : (s.setReg a v).sess = s.sess := rfl
@[simp] theorem Chip.setReg_alarms (a : Nat) (v : Word) : (s.setReg a v).alarms = s.alarms := rfl
@[simp] theorem Chip.setReg_ports (a : Nat) (v : Word) : (s.setReg a v).ports = s.ports := rfl
@[simp] theorem Chip.setReg_answers (a : Nat) (v : Word) : (s.setReg a v).answers = s.answers := rfl
@[simp] theorem Chip.setReg_host (a : Nat) (v : Word) : (s.setReg a v).host = s.host := rfl
@[simp] theorem Chip.setReg_quads (a : Nat) (v : Word) : (s.setReg a v).quads = s.quads := rfl
@[simp] theorem Chip.setReg_rx (a : Nat) (v : Word) : (s.setReg a v).rx = s.rx := rfl
@[simp] theorem Chip.setReg_tx (a : Nat) (v : Word) : (s.setReg a v).tx = s.tx := rfl
@[simp] theorem Chip.setReg_framer (a : Nat) (v : Word) : (s.setReg a v).framer = s.framer := rfl
@[simp] theorem Chip.setReg_hnk (a : Nat) (v : Word) : (s.setReg a v).hnk = s.hnk := rfl
@[simp] theorem Chip.setReg_ply (a : Nat) (v : Word) : (s.setReg a v).ply = s.ply := rfl
@[simp] theorem Chip.setReg_crl (a : Nat) (v : Word) : (s.setReg a v).crl = s.crl := rfl
@[simp] theorem Chip.setReg_fly (a : Nat) (v : Word) : (s.setReg a v).fly = s.fly := rfl
@[simp] theorem Chip.setReg_dma (a : Nat) (v : Word) : (s.setReg a v).dma = s.dma := rfl
@[simp] theorem Chip.setReg_hka (a : Nat) (v : Word) : (s.setReg a v).hka = s.hka := rfl
@[simp] theorem Chip.setReg_flt (a : Nat) (v : Word) : (s.setReg a v).flt = s.flt := rfl
@[simp] theorem Chip.setReg_jtag (a : Nat) (v : Word) : (s.setReg a v).jtag = s.jtag := rfl
@[simp] theorem Chip.setReg_i3c (a : Nat) (v : Word) : (s.setReg a v).i3c = s.i3c := rfl
@[simp] theorem Chip.setReg_start (a : Nat) (v : Word) : (s.setReg a v).start = s.start := rfl
@[simp] theorem Chip.setReg_straps (a : Nat) (v : Word) : (s.setReg a v).straps = s.straps := rfl
@[simp] theorem Chip.setReg_fwReadySeen (a : Nat) (v : Word) : (s.setReg a v).fwReadySeen = s.fwReadySeen := rfl
@[simp] theorem Chip.setReg_limited (a : Nat) (v : Word) : (s.setReg a v).limited = s.limited := rfl
@[simp] theorem Chip.setReg_fresh (a : Nat) (v : Word) : (s.setReg a v).fresh = s.fresh := rfl

/-! ### `Chip.setFld` -/

@[simp] theorem Chip.setFld_frz (f : Fld) (v : Nat) : (s.setFld f v).frz = s.frz := rfl
@[simp] theorem Chip.setFld_evt (f : Fld) (v : Nat) : (s.setFld f v).evt = s.evt := rfl
@[simp] theorem Chip.setFld_cnt (f : Fld) (v : Nat) : (s.setFld f v).cnt = s.cnt := rfl
@[simp] theorem Chip.setFld_mem (f : Fld) (v : Nat) : (s.setFld f v).mem = s.mem := rfl
@[simp] theorem Chip.setFld_valid (f : Fld) (v : Nat) : (s.setFld f v).valid = s.valid := rfl
@[simp] theorem Chip.setFld_flips (f : Fld) (v : Nat) : (s.setFld f v).flips = s.flips := rfl
@[simp] theorem Chip.setFld_ecc (f : Fld) (v : Nat) : (s.setFld f v).ecc = s.ecc := rfl
@[simp] theorem Chip.setFld_pmu (f : Fld) (v : Nat) : (s.setFld f v).pmu = s.pmu := rfl
@[simp] theorem Chip.setFld_thm (f : Fld) (v : Nat) : (s.setFld f v).thm = s.thm := rfl
@[simp] theorem Chip.setFld_flash (f : Fld) (v : Nat) : (s.setFld f v).flash = s.flash := rfl
@[simp] theorem Chip.setFld_cfg (f : Fld) (v : Nat) : (s.setFld f v).cfg = s.cfg := rfl
@[simp] theorem Chip.setFld_mbx (f : Fld) (v : Nat) : (s.setFld f v).mbx = s.mbx := rfl
@[simp] theorem Chip.setFld_spn (f : Fld) (v : Nat) : (s.setFld f v).spn = s.spn := rfl
@[simp] theorem Chip.setFld_sess (f : Fld) (v : Nat) : (s.setFld f v).sess = s.sess := rfl
@[simp] theorem Chip.setFld_alarms (f : Fld) (v : Nat) : (s.setFld f v).alarms = s.alarms := rfl
@[simp] theorem Chip.setFld_ports (f : Fld) (v : Nat) : (s.setFld f v).ports = s.ports := rfl
@[simp] theorem Chip.setFld_answers (f : Fld) (v : Nat) : (s.setFld f v).answers = s.answers := rfl
@[simp] theorem Chip.setFld_host (f : Fld) (v : Nat) : (s.setFld f v).host = s.host := rfl
@[simp] theorem Chip.setFld_quads (f : Fld) (v : Nat) : (s.setFld f v).quads = s.quads := rfl
@[simp] theorem Chip.setFld_rx (f : Fld) (v : Nat) : (s.setFld f v).rx = s.rx := rfl
@[simp] theorem Chip.setFld_tx (f : Fld) (v : Nat) : (s.setFld f v).tx = s.tx := rfl
@[simp] theorem Chip.setFld_framer (f : Fld) (v : Nat) : (s.setFld f v).framer = s.framer := rfl
@[simp] theorem Chip.setFld_hnk (f : Fld) (v : Nat) : (s.setFld f v).hnk = s.hnk := rfl
@[simp] theorem Chip.setFld_ply (f : Fld) (v : Nat) : (s.setFld f v).ply = s.ply := rfl
@[simp] theorem Chip.setFld_crl (f : Fld) (v : Nat) : (s.setFld f v).crl = s.crl := rfl
@[simp] theorem Chip.setFld_fly (f : Fld) (v : Nat) : (s.setFld f v).fly = s.fly := rfl
@[simp] theorem Chip.setFld_dma (f : Fld) (v : Nat) : (s.setFld f v).dma = s.dma := rfl
@[simp] theorem Chip.setFld_hka (f : Fld) (v : Nat) : (s.setFld f v).hka = s.hka := rfl
@[simp] theorem Chip.setFld_flt (f : Fld) (v : Nat) : (s.setFld f v).flt = s.flt := rfl
@[simp] theorem Chip.setFld_jtag (f : Fld) (v : Nat) : (s.setFld f v).jtag = s.jtag := rfl
@[simp] theorem Chip.setFld_i3c (f : Fld) (v : Nat) : (s.setFld f v).i3c = s.i3c := rfl
@[simp] theorem Chip.setFld_start (f : Fld) (v : Nat) : (s.setFld f v).start = s.start := rfl
@[simp] theorem Chip.setFld_straps (f : Fld) (v : Nat) : (s.setFld f v).straps = s.straps := rfl
@[simp] theorem Chip.setFld_fwReadySeen (f : Fld) (v : Nat) : (s.setFld f v).fwReadySeen = s.fwReadySeen := rfl
@[simp] theorem Chip.setFld_limited (f : Fld) (v : Nat) : (s.setFld f v).limited = s.limited := rfl
@[simp] theorem Chip.setFld_fresh (f : Fld) (v : Nat) : (s.setFld f v).fresh = s.fresh := rfl

/-! ### `Chip.setFlag` -/

@[simp] theorem Chip.setFlag_frz (f : Fld) (b : Bool) : (s.setFlag f b).frz = s.frz := rfl
@[simp] theorem Chip.setFlag_evt (f : Fld) (b : Bool) : (s.setFlag f b).evt = s.evt := rfl
@[simp] theorem Chip.setFlag_cnt (f : Fld) (b : Bool) : (s.setFlag f b).cnt = s.cnt := rfl
@[simp] theorem Chip.setFlag_mem (f : Fld) (b : Bool) : (s.setFlag f b).mem = s.mem := rfl
@[simp] theorem Chip.setFlag_valid (f : Fld) (b : Bool) : (s.setFlag f b).valid = s.valid := rfl
@[simp] theorem Chip.setFlag_flips (f : Fld) (b : Bool) : (s.setFlag f b).flips = s.flips := rfl
@[simp] theorem Chip.setFlag_ecc (f : Fld) (b : Bool) : (s.setFlag f b).ecc = s.ecc := rfl
@[simp] theorem Chip.setFlag_pmu (f : Fld) (b : Bool) : (s.setFlag f b).pmu = s.pmu := rfl
@[simp] theorem Chip.setFlag_thm (f : Fld) (b : Bool) : (s.setFlag f b).thm = s.thm := rfl
@[simp] theorem Chip.setFlag_flash (f : Fld) (b : Bool) : (s.setFlag f b).flash = s.flash := rfl
@[simp] theorem Chip.setFlag_cfg (f : Fld) (b : Bool) : (s.setFlag f b).cfg = s.cfg := rfl
@[simp] theorem Chip.setFlag_mbx (f : Fld) (b : Bool) : (s.setFlag f b).mbx = s.mbx := rfl
@[simp] theorem Chip.setFlag_spn (f : Fld) (b : Bool) : (s.setFlag f b).spn = s.spn := rfl
@[simp] theorem Chip.setFlag_sess (f : Fld) (b : Bool) : (s.setFlag f b).sess = s.sess := rfl
@[simp] theorem Chip.setFlag_alarms (f : Fld) (b : Bool) : (s.setFlag f b).alarms = s.alarms := rfl
@[simp] theorem Chip.setFlag_ports (f : Fld) (b : Bool) : (s.setFlag f b).ports = s.ports := rfl
@[simp] theorem Chip.setFlag_answers (f : Fld) (b : Bool) : (s.setFlag f b).answers = s.answers := rfl
@[simp] theorem Chip.setFlag_host (f : Fld) (b : Bool) : (s.setFlag f b).host = s.host := rfl
@[simp] theorem Chip.setFlag_quads (f : Fld) (b : Bool) : (s.setFlag f b).quads = s.quads := rfl
@[simp] theorem Chip.setFlag_rx (f : Fld) (b : Bool) : (s.setFlag f b).rx = s.rx := rfl
@[simp] theorem Chip.setFlag_tx (f : Fld) (b : Bool) : (s.setFlag f b).tx = s.tx := rfl
@[simp] theorem Chip.setFlag_framer (f : Fld) (b : Bool) : (s.setFlag f b).framer = s.framer := rfl
@[simp] theorem Chip.setFlag_hnk (f : Fld) (b : Bool) : (s.setFlag f b).hnk = s.hnk := rfl
@[simp] theorem Chip.setFlag_ply (f : Fld) (b : Bool) : (s.setFlag f b).ply = s.ply := rfl
@[simp] theorem Chip.setFlag_crl (f : Fld) (b : Bool) : (s.setFlag f b).crl = s.crl := rfl
@[simp] theorem Chip.setFlag_fly (f : Fld) (b : Bool) : (s.setFlag f b).fly = s.fly := rfl
@[simp] theorem Chip.setFlag_dma (f : Fld) (b : Bool) : (s.setFlag f b).dma = s.dma := rfl
@[simp] theorem Chip.setFlag_hka (f : Fld) (b : Bool) : (s.setFlag f b).hka = s.hka := rfl
@[simp] theorem Chip.setFlag_flt (f : Fld) (b : Bool) : (s.setFlag f b).flt = s.flt := rfl
@[simp] theorem Chip.setFlag_jtag (f : Fld) (b : Bool) : (s.setFlag f b).jtag = s.jtag := rfl
@[simp] theorem Chip.setFlag_i3c (f : Fld) (b : Bool) : (s.setFlag f b).i3c = s.i3c := rfl
@[simp] theorem Chip.setFlag_start (f : Fld) (b : Bool) : (s.setFlag f b).start = s.start := rfl
@[simp] theorem Chip.setFlag_straps (f : Fld) (b : Bool) : (s.setFlag f b).straps = s.straps := rfl
@[simp] theorem Chip.setFlag_fwReadySeen (f : Fld) (b : Bool) : (s.setFlag f b).fwReadySeen = s.fwReadySeen := rfl
@[simp] theorem Chip.setFlag_limited (f : Fld) (b : Bool) : (s.setFlag f b).limited = s.limited := rfl
@[simp] theorem Chip.setFlag_fresh (f : Fld) (b : Bool) : (s.setFlag f b).fresh = s.fresh := rfl

/-! ### `Chip.satInc` -/

@[simp] theorem Chip.satInc_frz (f : Fld) (n : Nat) : (s.satInc f n).frz = s.frz := rfl
@[simp] theorem Chip.satInc_evt (f : Fld) (n : Nat) : (s.satInc f n).evt = s.evt := rfl
@[simp] theorem Chip.satInc_cnt (f : Fld) (n : Nat) : (s.satInc f n).cnt = s.cnt := rfl
@[simp] theorem Chip.satInc_mem (f : Fld) (n : Nat) : (s.satInc f n).mem = s.mem := rfl
@[simp] theorem Chip.satInc_valid (f : Fld) (n : Nat) : (s.satInc f n).valid = s.valid := rfl
@[simp] theorem Chip.satInc_flips (f : Fld) (n : Nat) : (s.satInc f n).flips = s.flips := rfl
@[simp] theorem Chip.satInc_ecc (f : Fld) (n : Nat) : (s.satInc f n).ecc = s.ecc := rfl
@[simp] theorem Chip.satInc_pmu (f : Fld) (n : Nat) : (s.satInc f n).pmu = s.pmu := rfl
@[simp] theorem Chip.satInc_thm (f : Fld) (n : Nat) : (s.satInc f n).thm = s.thm := rfl
@[simp] theorem Chip.satInc_flash (f : Fld) (n : Nat) : (s.satInc f n).flash = s.flash := rfl
@[simp] theorem Chip.satInc_cfg (f : Fld) (n : Nat) : (s.satInc f n).cfg = s.cfg := rfl
@[simp] theorem Chip.satInc_mbx (f : Fld) (n : Nat) : (s.satInc f n).mbx = s.mbx := rfl
@[simp] theorem Chip.satInc_spn (f : Fld) (n : Nat) : (s.satInc f n).spn = s.spn := rfl
@[simp] theorem Chip.satInc_sess (f : Fld) (n : Nat) : (s.satInc f n).sess = s.sess := rfl
@[simp] theorem Chip.satInc_alarms (f : Fld) (n : Nat) : (s.satInc f n).alarms = s.alarms := rfl
@[simp] theorem Chip.satInc_ports (f : Fld) (n : Nat) : (s.satInc f n).ports = s.ports := rfl
@[simp] theorem Chip.satInc_answers (f : Fld) (n : Nat) : (s.satInc f n).answers = s.answers := rfl
@[simp] theorem Chip.satInc_host (f : Fld) (n : Nat) : (s.satInc f n).host = s.host := rfl
@[simp] theorem Chip.satInc_quads (f : Fld) (n : Nat) : (s.satInc f n).quads = s.quads := rfl
@[simp] theorem Chip.satInc_rx (f : Fld) (n : Nat) : (s.satInc f n).rx = s.rx := rfl
@[simp] theorem Chip.satInc_tx (f : Fld) (n : Nat) : (s.satInc f n).tx = s.tx := rfl
@[simp] theorem Chip.satInc_framer (f : Fld) (n : Nat) : (s.satInc f n).framer = s.framer := rfl
@[simp] theorem Chip.satInc_hnk (f : Fld) (n : Nat) : (s.satInc f n).hnk = s.hnk := rfl
@[simp] theorem Chip.satInc_ply (f : Fld) (n : Nat) : (s.satInc f n).ply = s.ply := rfl
@[simp] theorem Chip.satInc_crl (f : Fld) (n : Nat) : (s.satInc f n).crl = s.crl := rfl
@[simp] theorem Chip.satInc_fly (f : Fld) (n : Nat) : (s.satInc f n).fly = s.fly := rfl
@[simp] theorem Chip.satInc_dma (f : Fld) (n : Nat) : (s.satInc f n).dma = s.dma := rfl
@[simp] theorem Chip.satInc_hka (f : Fld) (n : Nat) : (s.satInc f n).hka = s.hka := rfl
@[simp] theorem Chip.satInc_flt (f : Fld) (n : Nat) : (s.satInc f n).flt = s.flt := rfl
@[simp] theorem Chip.satInc_jtag (f : Fld) (n : Nat) : (s.satInc f n).jtag = s.jtag := rfl
@[simp] theorem Chip.satInc_i3c (f : Fld) (n : Nat) : (s.satInc f n).i3c = s.i3c := rfl
@[simp] theorem Chip.satInc_start (f : Fld) (n : Nat) : (s.satInc f n).start = s.start := rfl
@[simp] theorem Chip.satInc_straps (f : Fld) (n : Nat) : (s.satInc f n).straps = s.straps := rfl
@[simp] theorem Chip.satInc_fwReadySeen (f : Fld) (n : Nat) : (s.satInc f n).fwReadySeen = s.fwReadySeen := rfl
@[simp] theorem Chip.satInc_limited (f : Fld) (n : Nat) : (s.satInc f n).limited = s.limited := rfl
@[simp] theorem Chip.satInc_fresh (f : Fld) (n : Nat) : (s.satInc f n).fresh = s.fresh := rfl

/-! ### `Chip.wrapInc` -/

@[simp] theorem Chip.wrapInc_frz (f : Fld) (n : Nat) : (s.wrapInc f n).frz = s.frz := rfl
@[simp] theorem Chip.wrapInc_evt (f : Fld) (n : Nat) : (s.wrapInc f n).evt = s.evt := rfl
@[simp] theorem Chip.wrapInc_cnt (f : Fld) (n : Nat) : (s.wrapInc f n).cnt = s.cnt := rfl
@[simp] theorem Chip.wrapInc_mem (f : Fld) (n : Nat) : (s.wrapInc f n).mem = s.mem := rfl
@[simp] theorem Chip.wrapInc_valid (f : Fld) (n : Nat) : (s.wrapInc f n).valid = s.valid := rfl
@[simp] theorem Chip.wrapInc_flips (f : Fld) (n : Nat) : (s.wrapInc f n).flips = s.flips := rfl
@[simp] theorem Chip.wrapInc_ecc (f : Fld) (n : Nat) : (s.wrapInc f n).ecc = s.ecc := rfl
@[simp] theorem Chip.wrapInc_pmu (f : Fld) (n : Nat) : (s.wrapInc f n).pmu = s.pmu := rfl
@[simp] theorem Chip.wrapInc_thm (f : Fld) (n : Nat) : (s.wrapInc f n).thm = s.thm := rfl
@[simp] theorem Chip.wrapInc_flash (f : Fld) (n : Nat) : (s.wrapInc f n).flash = s.flash := rfl
@[simp] theorem Chip.wrapInc_cfg (f : Fld) (n : Nat) : (s.wrapInc f n).cfg = s.cfg := rfl
@[simp] theorem Chip.wrapInc_mbx (f : Fld) (n : Nat) : (s.wrapInc f n).mbx = s.mbx := rfl
@[simp] theorem Chip.wrapInc_spn (f : Fld) (n : Nat) : (s.wrapInc f n).spn = s.spn := rfl
@[simp] theorem Chip.wrapInc_sess (f : Fld) (n : Nat) : (s.wrapInc f n).sess = s.sess := rfl
@[simp] theorem Chip.wrapInc_alarms (f : Fld) (n : Nat) : (s.wrapInc f n).alarms = s.alarms := rfl
@[simp] theorem Chip.wrapInc_ports (f : Fld) (n : Nat) : (s.wrapInc f n).ports = s.ports := rfl
@[simp] theorem Chip.wrapInc_answers (f : Fld) (n : Nat) : (s.wrapInc f n).answers = s.answers := rfl
@[simp] theorem Chip.wrapInc_host (f : Fld) (n : Nat) : (s.wrapInc f n).host = s.host := rfl
@[simp] theorem Chip.wrapInc_quads (f : Fld) (n : Nat) : (s.wrapInc f n).quads = s.quads := rfl
@[simp] theorem Chip.wrapInc_rx (f : Fld) (n : Nat) : (s.wrapInc f n).rx = s.rx := rfl
@[simp] theorem Chip.wrapInc_tx (f : Fld) (n : Nat) : (s.wrapInc f n).tx = s.tx := rfl
@[simp] theorem Chip.wrapInc_framer (f : Fld) (n : Nat) : (s.wrapInc f n).framer = s.framer := rfl
@[simp] theorem Chip.wrapInc_hnk (f : Fld) (n : Nat) : (s.wrapInc f n).hnk = s.hnk := rfl
@[simp] theorem Chip.wrapInc_ply (f : Fld) (n : Nat) : (s.wrapInc f n).ply = s.ply := rfl
@[simp] theorem Chip.wrapInc_crl (f : Fld) (n : Nat) : (s.wrapInc f n).crl = s.crl := rfl
@[simp] theorem Chip.wrapInc_fly (f : Fld) (n : Nat) : (s.wrapInc f n).fly = s.fly := rfl
@[simp] theorem Chip.wrapInc_dma (f : Fld) (n : Nat) : (s.wrapInc f n).dma = s.dma := rfl
@[simp] theorem Chip.wrapInc_hka (f : Fld) (n : Nat) : (s.wrapInc f n).hka = s.hka := rfl
@[simp] theorem Chip.wrapInc_flt (f : Fld) (n : Nat) : (s.wrapInc f n).flt = s.flt := rfl
@[simp] theorem Chip.wrapInc_jtag (f : Fld) (n : Nat) : (s.wrapInc f n).jtag = s.jtag := rfl
@[simp] theorem Chip.wrapInc_i3c (f : Fld) (n : Nat) : (s.wrapInc f n).i3c = s.i3c := rfl
@[simp] theorem Chip.wrapInc_start (f : Fld) (n : Nat) : (s.wrapInc f n).start = s.start := rfl
@[simp] theorem Chip.wrapInc_straps (f : Fld) (n : Nat) : (s.wrapInc f n).straps = s.straps := rfl
@[simp] theorem Chip.wrapInc_fwReadySeen (f : Fld) (n : Nat) : (s.wrapInc f n).fwReadySeen = s.fwReadySeen := rfl
@[simp] theorem Chip.wrapInc_limited (f : Fld) (n : Nat) : (s.wrapInc f n).limited = s.limited := rfl
@[simp] theorem Chip.wrapInc_fresh (f : Fld) (n : Nat) : (s.wrapInc f n).fresh = s.fresh := rfl

/-! ### `Chip.setFldBit` -/

@[simp] theorem Chip.setFldBit_frz (f : Fld) (i : Nat) (b : Bool) : (s.setFldBit f i b).frz = s.frz := rfl
@[simp] theorem Chip.setFldBit_evt (f : Fld) (i : Nat) (b : Bool) : (s.setFldBit f i b).evt = s.evt := rfl
@[simp] theorem Chip.setFldBit_cnt (f : Fld) (i : Nat) (b : Bool) : (s.setFldBit f i b).cnt = s.cnt := rfl
@[simp] theorem Chip.setFldBit_mem (f : Fld) (i : Nat) (b : Bool) : (s.setFldBit f i b).mem = s.mem := rfl
@[simp] theorem Chip.setFldBit_valid (f : Fld) (i : Nat) (b : Bool) : (s.setFldBit f i b).valid = s.valid := rfl
@[simp] theorem Chip.setFldBit_flips (f : Fld) (i : Nat) (b : Bool) : (s.setFldBit f i b).flips = s.flips := rfl
@[simp] theorem Chip.setFldBit_ecc (f : Fld) (i : Nat) (b : Bool) : (s.setFldBit f i b).ecc = s.ecc := rfl
@[simp] theorem Chip.setFldBit_pmu (f : Fld) (i : Nat) (b : Bool) : (s.setFldBit f i b).pmu = s.pmu := rfl
@[simp] theorem Chip.setFldBit_thm (f : Fld) (i : Nat) (b : Bool) : (s.setFldBit f i b).thm = s.thm := rfl
@[simp] theorem Chip.setFldBit_flash (f : Fld) (i : Nat) (b : Bool) : (s.setFldBit f i b).flash = s.flash := rfl
@[simp] theorem Chip.setFldBit_cfg (f : Fld) (i : Nat) (b : Bool) : (s.setFldBit f i b).cfg = s.cfg := rfl
@[simp] theorem Chip.setFldBit_mbx (f : Fld) (i : Nat) (b : Bool) : (s.setFldBit f i b).mbx = s.mbx := rfl
@[simp] theorem Chip.setFldBit_spn (f : Fld) (i : Nat) (b : Bool) : (s.setFldBit f i b).spn = s.spn := rfl
@[simp] theorem Chip.setFldBit_sess (f : Fld) (i : Nat) (b : Bool) : (s.setFldBit f i b).sess = s.sess := rfl
@[simp] theorem Chip.setFldBit_alarms (f : Fld) (i : Nat) (b : Bool) : (s.setFldBit f i b).alarms = s.alarms := rfl
@[simp] theorem Chip.setFldBit_ports (f : Fld) (i : Nat) (b : Bool) : (s.setFldBit f i b).ports = s.ports := rfl
@[simp] theorem Chip.setFldBit_answers (f : Fld) (i : Nat) (b : Bool) : (s.setFldBit f i b).answers = s.answers := rfl
@[simp] theorem Chip.setFldBit_host (f : Fld) (i : Nat) (b : Bool) : (s.setFldBit f i b).host = s.host := rfl
@[simp] theorem Chip.setFldBit_quads (f : Fld) (i : Nat) (b : Bool) : (s.setFldBit f i b).quads = s.quads := rfl
@[simp] theorem Chip.setFldBit_rx (f : Fld) (i : Nat) (b : Bool) : (s.setFldBit f i b).rx = s.rx := rfl
@[simp] theorem Chip.setFldBit_tx (f : Fld) (i : Nat) (b : Bool) : (s.setFldBit f i b).tx = s.tx := rfl
@[simp] theorem Chip.setFldBit_framer (f : Fld) (i : Nat) (b : Bool) : (s.setFldBit f i b).framer = s.framer := rfl
@[simp] theorem Chip.setFldBit_hnk (f : Fld) (i : Nat) (b : Bool) : (s.setFldBit f i b).hnk = s.hnk := rfl
@[simp] theorem Chip.setFldBit_ply (f : Fld) (i : Nat) (b : Bool) : (s.setFldBit f i b).ply = s.ply := rfl
@[simp] theorem Chip.setFldBit_crl (f : Fld) (i : Nat) (b : Bool) : (s.setFldBit f i b).crl = s.crl := rfl
@[simp] theorem Chip.setFldBit_fly (f : Fld) (i : Nat) (b : Bool) : (s.setFldBit f i b).fly = s.fly := rfl
@[simp] theorem Chip.setFldBit_dma (f : Fld) (i : Nat) (b : Bool) : (s.setFldBit f i b).dma = s.dma := rfl
@[simp] theorem Chip.setFldBit_hka (f : Fld) (i : Nat) (b : Bool) : (s.setFldBit f i b).hka = s.hka := rfl
@[simp] theorem Chip.setFldBit_flt (f : Fld) (i : Nat) (b : Bool) : (s.setFldBit f i b).flt = s.flt := rfl
@[simp] theorem Chip.setFldBit_jtag (f : Fld) (i : Nat) (b : Bool) : (s.setFldBit f i b).jtag = s.jtag := rfl
@[simp] theorem Chip.setFldBit_i3c (f : Fld) (i : Nat) (b : Bool) : (s.setFldBit f i b).i3c = s.i3c := rfl
@[simp] theorem Chip.setFldBit_start (f : Fld) (i : Nat) (b : Bool) : (s.setFldBit f i b).start = s.start := rfl
@[simp] theorem Chip.setFldBit_straps (f : Fld) (i : Nat) (b : Bool) : (s.setFldBit f i b).straps = s.straps := rfl
@[simp] theorem Chip.setFldBit_fwReadySeen (f : Fld) (i : Nat) (b : Bool) : (s.setFldBit f i b).fwReadySeen = s.fwReadySeen := rfl
@[simp] theorem Chip.setFldBit_limited (f : Fld) (i : Nat) (b : Bool) : (s.setFldBit f i b).limited = s.limited := rfl
@[simp] theorem Chip.setFldBit_fresh (f : Fld) (i : Nat) (b : Bool) : (s.setFldBit f i b).fresh = s.fresh := rfl

/-! ### `Chip.resetReg` -/

@[simp] theorem Chip.resetReg_frz (a : Nat) : (s.resetReg a).frz = s.frz := rfl
@[simp] theorem Chip.resetReg_evt (a : Nat) : (s.resetReg a).evt = s.evt := rfl
@[simp] theorem Chip.resetReg_cnt (a : Nat) : (s.resetReg a).cnt = s.cnt := rfl
@[simp] theorem Chip.resetReg_mem (a : Nat) : (s.resetReg a).mem = s.mem := rfl
@[simp] theorem Chip.resetReg_valid (a : Nat) : (s.resetReg a).valid = s.valid := rfl
@[simp] theorem Chip.resetReg_flips (a : Nat) : (s.resetReg a).flips = s.flips := rfl
@[simp] theorem Chip.resetReg_ecc (a : Nat) : (s.resetReg a).ecc = s.ecc := rfl
@[simp] theorem Chip.resetReg_pmu (a : Nat) : (s.resetReg a).pmu = s.pmu := rfl
@[simp] theorem Chip.resetReg_thm (a : Nat) : (s.resetReg a).thm = s.thm := rfl
@[simp] theorem Chip.resetReg_flash (a : Nat) : (s.resetReg a).flash = s.flash := rfl
@[simp] theorem Chip.resetReg_cfg (a : Nat) : (s.resetReg a).cfg = s.cfg := rfl
@[simp] theorem Chip.resetReg_mbx (a : Nat) : (s.resetReg a).mbx = s.mbx := rfl
@[simp] theorem Chip.resetReg_spn (a : Nat) : (s.resetReg a).spn = s.spn := rfl
@[simp] theorem Chip.resetReg_sess (a : Nat) : (s.resetReg a).sess = s.sess := rfl
@[simp] theorem Chip.resetReg_alarms (a : Nat) : (s.resetReg a).alarms = s.alarms := rfl
@[simp] theorem Chip.resetReg_ports (a : Nat) : (s.resetReg a).ports = s.ports := rfl
@[simp] theorem Chip.resetReg_answers (a : Nat) : (s.resetReg a).answers = s.answers := rfl
@[simp] theorem Chip.resetReg_host (a : Nat) : (s.resetReg a).host = s.host := rfl
@[simp] theorem Chip.resetReg_quads (a : Nat) : (s.resetReg a).quads = s.quads := rfl
@[simp] theorem Chip.resetReg_rx (a : Nat) : (s.resetReg a).rx = s.rx := rfl
@[simp] theorem Chip.resetReg_tx (a : Nat) : (s.resetReg a).tx = s.tx := rfl
@[simp] theorem Chip.resetReg_framer (a : Nat) : (s.resetReg a).framer = s.framer := rfl
@[simp] theorem Chip.resetReg_hnk (a : Nat) : (s.resetReg a).hnk = s.hnk := rfl
@[simp] theorem Chip.resetReg_ply (a : Nat) : (s.resetReg a).ply = s.ply := rfl
@[simp] theorem Chip.resetReg_crl (a : Nat) : (s.resetReg a).crl = s.crl := rfl
@[simp] theorem Chip.resetReg_fly (a : Nat) : (s.resetReg a).fly = s.fly := rfl
@[simp] theorem Chip.resetReg_dma (a : Nat) : (s.resetReg a).dma = s.dma := rfl
@[simp] theorem Chip.resetReg_hka (a : Nat) : (s.resetReg a).hka = s.hka := rfl
@[simp] theorem Chip.resetReg_flt (a : Nat) : (s.resetReg a).flt = s.flt := rfl
@[simp] theorem Chip.resetReg_jtag (a : Nat) : (s.resetReg a).jtag = s.jtag := rfl
@[simp] theorem Chip.resetReg_i3c (a : Nat) : (s.resetReg a).i3c = s.i3c := rfl
@[simp] theorem Chip.resetReg_start (a : Nat) : (s.resetReg a).start = s.start := rfl
@[simp] theorem Chip.resetReg_straps (a : Nat) : (s.resetReg a).straps = s.straps := rfl
@[simp] theorem Chip.resetReg_fwReadySeen (a : Nat) : (s.resetReg a).fwReadySeen = s.fwReadySeen := rfl
@[simp] theorem Chip.resetReg_limited (a : Nat) : (s.resetReg a).limited = s.limited := rfl
@[simp] theorem Chip.resetReg_fresh (a : Nat) : (s.resetReg a).fresh = s.fresh := rfl

/-! ### `Chip.emit` -/

@[simp] theorem Chip.emit_regs (ms : List Msg) : (s.emit ms).regs = s.regs := rfl
@[simp] theorem Chip.emit_frz (ms : List Msg) : (s.emit ms).frz = s.frz := rfl
@[simp] theorem Chip.emit_mem (ms : List Msg) : (s.emit ms).mem = s.mem := rfl
@[simp] theorem Chip.emit_valid (ms : List Msg) : (s.emit ms).valid = s.valid := rfl
@[simp] theorem Chip.emit_flips (ms : List Msg) : (s.emit ms).flips = s.flips := rfl
@[simp] theorem Chip.emit_ecc (ms : List Msg) : (s.emit ms).ecc = s.ecc := rfl
@[simp] theorem Chip.emit_pmu (ms : List Msg) : (s.emit ms).pmu = s.pmu := rfl
@[simp] theorem Chip.emit_thm (ms : List Msg) : (s.emit ms).thm = s.thm := rfl
@[simp] theorem Chip.emit_flash (ms : List Msg) : (s.emit ms).flash = s.flash := rfl
@[simp] theorem Chip.emit_cfg (ms : List Msg) : (s.emit ms).cfg = s.cfg := rfl
@[simp] theorem Chip.emit_mbx (ms : List Msg) : (s.emit ms).mbx = s.mbx := rfl
@[simp] theorem Chip.emit_spn (ms : List Msg) : (s.emit ms).spn = s.spn := rfl
@[simp] theorem Chip.emit_sess (ms : List Msg) : (s.emit ms).sess = s.sess := rfl
@[simp] theorem Chip.emit_alarms (ms : List Msg) : (s.emit ms).alarms = s.alarms := rfl
@[simp] theorem Chip.emit_ports (ms : List Msg) : (s.emit ms).ports = s.ports := rfl
@[simp] theorem Chip.emit_answers (ms : List Msg) : (s.emit ms).answers = s.answers := rfl
@[simp] theorem Chip.emit_host (ms : List Msg) : (s.emit ms).host = s.host := rfl
@[simp] theorem Chip.emit_quads (ms : List Msg) : (s.emit ms).quads = s.quads := rfl
@[simp] theorem Chip.emit_rx (ms : List Msg) : (s.emit ms).rx = s.rx := rfl
@[simp] theorem Chip.emit_tx (ms : List Msg) : (s.emit ms).tx = s.tx := rfl
@[simp] theorem Chip.emit_framer (ms : List Msg) : (s.emit ms).framer = s.framer := rfl
@[simp] theorem Chip.emit_hnk (ms : List Msg) : (s.emit ms).hnk = s.hnk := rfl
@[simp] theorem Chip.emit_ply (ms : List Msg) : (s.emit ms).ply = s.ply := rfl
@[simp] theorem Chip.emit_crl (ms : List Msg) : (s.emit ms).crl = s.crl := rfl
@[simp] theorem Chip.emit_fly (ms : List Msg) : (s.emit ms).fly = s.fly := rfl
@[simp] theorem Chip.emit_dma (ms : List Msg) : (s.emit ms).dma = s.dma := rfl
@[simp] theorem Chip.emit_hka (ms : List Msg) : (s.emit ms).hka = s.hka := rfl
@[simp] theorem Chip.emit_flt (ms : List Msg) : (s.emit ms).flt = s.flt := rfl
@[simp] theorem Chip.emit_jtag (ms : List Msg) : (s.emit ms).jtag = s.jtag := rfl
@[simp] theorem Chip.emit_i3c (ms : List Msg) : (s.emit ms).i3c = s.i3c := rfl
@[simp] theorem Chip.emit_start (ms : List Msg) : (s.emit ms).start = s.start := rfl
@[simp] theorem Chip.emit_straps (ms : List Msg) : (s.emit ms).straps = s.straps := rfl
@[simp] theorem Chip.emit_fwReadySeen (ms : List Msg) : (s.emit ms).fwReadySeen = s.fwReadySeen := rfl
@[simp] theorem Chip.emit_limited (ms : List Msg) : (s.emit ms).limited = s.limited := rfl
@[simp] theorem Chip.emit_fresh (ms : List Msg) : (s.emit ms).fresh = s.fresh := rfl

/-! ### `Chip.raise` -/

@[simp] theorem Chip.raise_regs (src pay : Nat) : (s.raise src pay).regs = s.regs := rfl
@[simp] theorem Chip.raise_frz (src pay : Nat) : (s.raise src pay).frz = s.frz := rfl
@[simp] theorem Chip.raise_mem (src pay : Nat) : (s.raise src pay).mem = s.mem := rfl
@[simp] theorem Chip.raise_valid (src pay : Nat) : (s.raise src pay).valid = s.valid := rfl
@[simp] theorem Chip.raise_flips (src pay : Nat) : (s.raise src pay).flips = s.flips := rfl
@[simp] theorem Chip.raise_ecc (src pay : Nat) : (s.raise src pay).ecc = s.ecc := rfl
@[simp] theorem Chip.raise_pmu (src pay : Nat) : (s.raise src pay).pmu = s.pmu := rfl
@[simp] theorem Chip.raise_thm (src pay : Nat) : (s.raise src pay).thm = s.thm := rfl
@[simp] theorem Chip.raise_flash (src pay : Nat) : (s.raise src pay).flash = s.flash := rfl
@[simp] theorem Chip.raise_cfg (src pay : Nat) : (s.raise src pay).cfg = s.cfg := rfl
@[simp] theorem Chip.raise_mbx (src pay : Nat) : (s.raise src pay).mbx = s.mbx := rfl
@[simp] theorem Chip.raise_spn (src pay : Nat) : (s.raise src pay).spn = s.spn := rfl
@[simp] theorem Chip.raise_sess (src pay : Nat) : (s.raise src pay).sess = s.sess := rfl
@[simp] theorem Chip.raise_alarms (src pay : Nat) : (s.raise src pay).alarms = s.alarms := rfl
@[simp] theorem Chip.raise_ports (src pay : Nat) : (s.raise src pay).ports = s.ports := rfl
@[simp] theorem Chip.raise_answers (src pay : Nat) : (s.raise src pay).answers = s.answers := rfl
@[simp] theorem Chip.raise_host (src pay : Nat) : (s.raise src pay).host = s.host := rfl
@[simp] theorem Chip.raise_quads (src pay : Nat) : (s.raise src pay).quads = s.quads := rfl
@[simp] theorem Chip.raise_rx (src pay : Nat) : (s.raise src pay).rx = s.rx := rfl
@[simp] theorem Chip.raise_tx (src pay : Nat) : (s.raise src pay).tx = s.tx := rfl
@[simp] theorem Chip.raise_framer (src pay : Nat) : (s.raise src pay).framer = s.framer := rfl
@[simp] theorem Chip.raise_hnk (src pay : Nat) : (s.raise src pay).hnk = s.hnk := rfl
@[simp] theorem Chip.raise_ply (src pay : Nat) : (s.raise src pay).ply = s.ply := rfl
@[simp] theorem Chip.raise_crl (src pay : Nat) : (s.raise src pay).crl = s.crl := rfl
@[simp] theorem Chip.raise_fly (src pay : Nat) : (s.raise src pay).fly = s.fly := rfl
@[simp] theorem Chip.raise_dma (src pay : Nat) : (s.raise src pay).dma = s.dma := rfl
@[simp] theorem Chip.raise_hka (src pay : Nat) : (s.raise src pay).hka = s.hka := rfl
@[simp] theorem Chip.raise_flt (src pay : Nat) : (s.raise src pay).flt = s.flt := rfl
@[simp] theorem Chip.raise_jtag (src pay : Nat) : (s.raise src pay).jtag = s.jtag := rfl
@[simp] theorem Chip.raise_i3c (src pay : Nat) : (s.raise src pay).i3c = s.i3c := rfl
@[simp] theorem Chip.raise_start (src pay : Nat) : (s.raise src pay).start = s.start := rfl
@[simp] theorem Chip.raise_straps (src pay : Nat) : (s.raise src pay).straps = s.straps := rfl
@[simp] theorem Chip.raise_fwReadySeen (src pay : Nat) : (s.raise src pay).fwReadySeen = s.fwReadySeen := rfl
@[simp] theorem Chip.raise_limited (src pay : Nat) : (s.raise src pay).limited = s.limited := rfl
@[simp] theorem Chip.raise_fresh (src pay : Nat) : (s.raise src pay).fresh = s.fresh := rfl

/-! ### `Chip.setLevel` -/

@[simp] theorem Chip.setLevel_regs (src : Nat) (b : Bool) (pay : Nat) : (s.setLevel src b pay).regs = s.regs := by cases b <;> rfl
@[simp] theorem Chip.setLevel_frz (src : Nat) (b : Bool) (pay : Nat) : (s.setLevel src b pay).frz = s.frz := by cases b <;> rfl
@[simp] theorem Chip.setLevel_mem (src : Nat) (b : Bool) (pay : Nat) : (s.setLevel src b pay).mem = s.mem := by cases b <;> rfl
@[simp] theorem Chip.setLevel_valid (src : Nat) (b : Bool) (pay : Nat) : (s.setLevel src b pay).valid = s.valid := by cases b <;> rfl
@[simp] theorem Chip.setLevel_flips (src : Nat) (b : Bool) (pay : Nat) : (s.setLevel src b pay).flips = s.flips := by cases b <;> rfl
@[simp] theorem Chip.setLevel_ecc (src : Nat) (b : Bool) (pay : Nat) : (s.setLevel src b pay).ecc = s.ecc := by cases b <;> rfl
@[simp] theorem Chip.setLevel_pmu (src : Nat) (b : Bool) (pay : Nat) : (s.setLevel src b pay).pmu = s.pmu := by cases b <;> rfl
@[simp] theorem Chip.setLevel_thm (src : Nat) (b : Bool) (pay : Nat) : (s.setLevel src b pay).thm = s.thm := by cases b <;> rfl
@[simp] theorem Chip.setLevel_flash (src : Nat) (b : Bool) (pay : Nat) : (s.setLevel src b pay).flash = s.flash := by cases b <;> rfl
@[simp] theorem Chip.setLevel_cfg (src : Nat) (b : Bool) (pay : Nat) : (s.setLevel src b pay).cfg = s.cfg := by cases b <;> rfl
@[simp] theorem Chip.setLevel_mbx (src : Nat) (b : Bool) (pay : Nat) : (s.setLevel src b pay).mbx = s.mbx := by cases b <;> rfl
@[simp] theorem Chip.setLevel_spn (src : Nat) (b : Bool) (pay : Nat) : (s.setLevel src b pay).spn = s.spn := by cases b <;> rfl
@[simp] theorem Chip.setLevel_sess (src : Nat) (b : Bool) (pay : Nat) : (s.setLevel src b pay).sess = s.sess := by cases b <;> rfl
@[simp] theorem Chip.setLevel_alarms (src : Nat) (b : Bool) (pay : Nat) : (s.setLevel src b pay).alarms = s.alarms := by cases b <;> rfl
@[simp] theorem Chip.setLevel_ports (src : Nat) (b : Bool) (pay : Nat) : (s.setLevel src b pay).ports = s.ports := by cases b <;> rfl
@[simp] theorem Chip.setLevel_answers (src : Nat) (b : Bool) (pay : Nat) : (s.setLevel src b pay).answers = s.answers := by cases b <;> rfl
@[simp] theorem Chip.setLevel_host (src : Nat) (b : Bool) (pay : Nat) : (s.setLevel src b pay).host = s.host := by cases b <;> rfl
@[simp] theorem Chip.setLevel_quads (src : Nat) (b : Bool) (pay : Nat) : (s.setLevel src b pay).quads = s.quads := by cases b <;> rfl
@[simp] theorem Chip.setLevel_rx (src : Nat) (b : Bool) (pay : Nat) : (s.setLevel src b pay).rx = s.rx := by cases b <;> rfl
@[simp] theorem Chip.setLevel_tx (src : Nat) (b : Bool) (pay : Nat) : (s.setLevel src b pay).tx = s.tx := by cases b <;> rfl
@[simp] theorem Chip.setLevel_framer (src : Nat) (b : Bool) (pay : Nat) : (s.setLevel src b pay).framer = s.framer := by cases b <;> rfl
@[simp] theorem Chip.setLevel_hnk (src : Nat) (b : Bool) (pay : Nat) : (s.setLevel src b pay).hnk = s.hnk := by cases b <;> rfl
@[simp] theorem Chip.setLevel_ply (src : Nat) (b : Bool) (pay : Nat) : (s.setLevel src b pay).ply = s.ply := by cases b <;> rfl
@[simp] theorem Chip.setLevel_crl (src : Nat) (b : Bool) (pay : Nat) : (s.setLevel src b pay).crl = s.crl := by cases b <;> rfl
@[simp] theorem Chip.setLevel_fly (src : Nat) (b : Bool) (pay : Nat) : (s.setLevel src b pay).fly = s.fly := by cases b <;> rfl
@[simp] theorem Chip.setLevel_dma (src : Nat) (b : Bool) (pay : Nat) : (s.setLevel src b pay).dma = s.dma := by cases b <;> rfl
@[simp] theorem Chip.setLevel_hka (src : Nat) (b : Bool) (pay : Nat) : (s.setLevel src b pay).hka = s.hka := by cases b <;> rfl
@[simp] theorem Chip.setLevel_flt (src : Nat) (b : Bool) (pay : Nat) : (s.setLevel src b pay).flt = s.flt := by cases b <;> rfl
@[simp] theorem Chip.setLevel_jtag (src : Nat) (b : Bool) (pay : Nat) : (s.setLevel src b pay).jtag = s.jtag := by cases b <;> rfl
@[simp] theorem Chip.setLevel_i3c (src : Nat) (b : Bool) (pay : Nat) : (s.setLevel src b pay).i3c = s.i3c := by cases b <;> rfl
@[simp] theorem Chip.setLevel_start (src : Nat) (b : Bool) (pay : Nat) : (s.setLevel src b pay).start = s.start := by cases b <;> rfl
@[simp] theorem Chip.setLevel_straps (src : Nat) (b : Bool) (pay : Nat) : (s.setLevel src b pay).straps = s.straps := by cases b <;> rfl
@[simp] theorem Chip.setLevel_fwReadySeen (src : Nat) (b : Bool) (pay : Nat) : (s.setLevel src b pay).fwReadySeen = s.fwReadySeen := by cases b <;> rfl
@[simp] theorem Chip.setLevel_limited (src : Nat) (b : Bool) (pay : Nat) : (s.setLevel src b pay).limited = s.limited := by cases b <;> rfl
@[simp] theorem Chip.setLevel_fresh (src : Nat) (b : Bool) (pay : Nat) : (s.setLevel src b pay).fresh = s.fresh := by cases b <;> rfl

/-! ### `Chip.count` -/

@[simp] theorem Chip.count_regs (sel : Nat → Nat → Bool) (n : Nat) : (s.count sel n).regs = s.regs := by unfold Chip.count; split <;> rfl
@[simp] theorem Chip.count_frz (sel : Nat → Nat → Bool) (n : Nat) : (s.count sel n).frz = s.frz := by unfold Chip.count; split <;> rfl
@[simp] theorem Chip.count_mem (sel : Nat → Nat → Bool) (n : Nat) : (s.count sel n).mem = s.mem := by unfold Chip.count; split <;> rfl
@[simp] theorem Chip.count_valid (sel : Nat → Nat → Bool) (n : Nat) : (s.count sel n).valid = s.valid := by unfold Chip.count; split <;> rfl
@[simp] theorem Chip.count_flips (sel : Nat → Nat → Bool) (n : Nat) : (s.count sel n).flips = s.flips := by unfold Chip.count; split <;> rfl
@[simp] theorem Chip.count_ecc (sel : Nat → Nat → Bool) (n : Nat) : (s.count sel n).ecc = s.ecc := by unfold Chip.count; split <;> rfl
@[simp] theorem Chip.count_pmu (sel : Nat → Nat → Bool) (n : Nat) : (s.count sel n).pmu = s.pmu := by unfold Chip.count; split <;> rfl
@[simp] theorem Chip.count_thm (sel : Nat → Nat → Bool) (n : Nat) : (s.count sel n).thm = s.thm := by unfold Chip.count; split <;> rfl
@[simp] theorem Chip.count_flash (sel : Nat → Nat → Bool) (n : Nat) : (s.count sel n).flash = s.flash := by unfold Chip.count; split <;> rfl
@[simp] theorem Chip.count_cfg (sel : Nat → Nat → Bool) (n : Nat) : (s.count sel n).cfg = s.cfg := by unfold Chip.count; split <;> rfl
@[simp] theorem Chip.count_mbx (sel : Nat → Nat → Bool) (n : Nat) : (s.count sel n).mbx = s.mbx := by unfold Chip.count; split <;> rfl
@[simp] theorem Chip.count_spn (sel : Nat → Nat → Bool) (n : Nat) : (s.count sel n).spn = s.spn := by unfold Chip.count; split <;> rfl
@[simp] theorem Chip.count_sess (sel : Nat → Nat → Bool) (n : Nat) : (s.count sel n).sess = s.sess := by unfold Chip.count; split <;> rfl
@[simp] theorem Chip.count_alarms (sel : Nat → Nat → Bool) (n : Nat) : (s.count sel n).alarms = s.alarms := by unfold Chip.count; split <;> rfl
@[simp] theorem Chip.count_ports (sel : Nat → Nat → Bool) (n : Nat) : (s.count sel n).ports = s.ports := by unfold Chip.count; split <;> rfl
@[simp] theorem Chip.count_answers (sel : Nat → Nat → Bool) (n : Nat) : (s.count sel n).answers = s.answers := by unfold Chip.count; split <;> rfl
@[simp] theorem Chip.count_host (sel : Nat → Nat → Bool) (n : Nat) : (s.count sel n).host = s.host := by unfold Chip.count; split <;> rfl
@[simp] theorem Chip.count_quads (sel : Nat → Nat → Bool) (n : Nat) : (s.count sel n).quads = s.quads := by unfold Chip.count; split <;> rfl
@[simp] theorem Chip.count_rx (sel : Nat → Nat → Bool) (n : Nat) : (s.count sel n).rx = s.rx := by unfold Chip.count; split <;> rfl
@[simp] theorem Chip.count_tx (sel : Nat → Nat → Bool) (n : Nat) : (s.count sel n).tx = s.tx := by unfold Chip.count; split <;> rfl
@[simp] theorem Chip.count_framer (sel : Nat → Nat → Bool) (n : Nat) : (s.count sel n).framer = s.framer := by unfold Chip.count; split <;> rfl
@[simp] theorem Chip.count_hnk (sel : Nat → Nat → Bool) (n : Nat) : (s.count sel n).hnk = s.hnk := by unfold Chip.count; split <;> rfl
@[simp] theorem Chip.count_ply (sel : Nat → Nat → Bool) (n : Nat) : (s.count sel n).ply = s.ply := by unfold Chip.count; split <;> rfl
@[simp] theorem Chip.count_crl (sel : Nat → Nat → Bool) (n : Nat) : (s.count sel n).crl = s.crl := by unfold Chip.count; split <;> rfl
@[simp] theorem Chip.count_fly (sel : Nat → Nat → Bool) (n : Nat) : (s.count sel n).fly = s.fly := by unfold Chip.count; split <;> rfl
@[simp] theorem Chip.count_dma (sel : Nat → Nat → Bool) (n : Nat) : (s.count sel n).dma = s.dma := by unfold Chip.count; split <;> rfl
@[simp] theorem Chip.count_hka (sel : Nat → Nat → Bool) (n : Nat) : (s.count sel n).hka = s.hka := by unfold Chip.count; split <;> rfl
@[simp] theorem Chip.count_flt (sel : Nat → Nat → Bool) (n : Nat) : (s.count sel n).flt = s.flt := by unfold Chip.count; split <;> rfl
@[simp] theorem Chip.count_jtag (sel : Nat → Nat → Bool) (n : Nat) : (s.count sel n).jtag = s.jtag := by unfold Chip.count; split <;> rfl
@[simp] theorem Chip.count_i3c (sel : Nat → Nat → Bool) (n : Nat) : (s.count sel n).i3c = s.i3c := by unfold Chip.count; split <;> rfl
@[simp] theorem Chip.count_start (sel : Nat → Nat → Bool) (n : Nat) : (s.count sel n).start = s.start := by unfold Chip.count; split <;> rfl
@[simp] theorem Chip.count_straps (sel : Nat → Nat → Bool) (n : Nat) : (s.count sel n).straps = s.straps := by unfold Chip.count; split <;> rfl
@[simp] theorem Chip.count_fwReadySeen (sel : Nat → Nat → Bool) (n : Nat) : (s.count sel n).fwReadySeen = s.fwReadySeen := by unfold Chip.count; split <;> rfl
@[simp] theorem Chip.count_limited (sel : Nat → Nat → Bool) (n : Nat) : (s.count sel n).limited = s.limited := by unfold Chip.count; split <;> rfl
@[simp] theorem Chip.count_fresh (sel : Nat → Nat → Bool) (n : Nat) : (s.count sel n).fresh = s.fresh := by unfold Chip.count; split <;> rfl

/-! ### `Chip.answer` -/

@[simp] theorem Chip.answer_regs (m : Master) (e : Bool) (w : Word) : (s.answer m e w).regs = s.regs := rfl
@[simp] theorem Chip.answer_frz (m : Master) (e : Bool) (w : Word) : (s.answer m e w).frz = s.frz := rfl
@[simp] theorem Chip.answer_evt (m : Master) (e : Bool) (w : Word) : (s.answer m e w).evt = s.evt := rfl
@[simp] theorem Chip.answer_cnt (m : Master) (e : Bool) (w : Word) : (s.answer m e w).cnt = s.cnt := rfl
@[simp] theorem Chip.answer_mem (m : Master) (e : Bool) (w : Word) : (s.answer m e w).mem = s.mem := rfl
@[simp] theorem Chip.answer_valid (m : Master) (e : Bool) (w : Word) : (s.answer m e w).valid = s.valid := rfl
@[simp] theorem Chip.answer_flips (m : Master) (e : Bool) (w : Word) : (s.answer m e w).flips = s.flips := rfl
@[simp] theorem Chip.answer_ecc (m : Master) (e : Bool) (w : Word) : (s.answer m e w).ecc = s.ecc := rfl
@[simp] theorem Chip.answer_pmu (m : Master) (e : Bool) (w : Word) : (s.answer m e w).pmu = s.pmu := rfl
@[simp] theorem Chip.answer_thm (m : Master) (e : Bool) (w : Word) : (s.answer m e w).thm = s.thm := rfl
@[simp] theorem Chip.answer_flash (m : Master) (e : Bool) (w : Word) : (s.answer m e w).flash = s.flash := rfl
@[simp] theorem Chip.answer_cfg (m : Master) (e : Bool) (w : Word) : (s.answer m e w).cfg = s.cfg := rfl
@[simp] theorem Chip.answer_mbx (m : Master) (e : Bool) (w : Word) : (s.answer m e w).mbx = s.mbx := rfl
@[simp] theorem Chip.answer_spn (m : Master) (e : Bool) (w : Word) : (s.answer m e w).spn = s.spn := rfl
@[simp] theorem Chip.answer_sess (m : Master) (e : Bool) (w : Word) : (s.answer m e w).sess = s.sess := rfl
@[simp] theorem Chip.answer_alarms (m : Master) (e : Bool) (w : Word) : (s.answer m e w).alarms = s.alarms := rfl
@[simp] theorem Chip.answer_ports (m : Master) (e : Bool) (w : Word) : (s.answer m e w).ports = s.ports := rfl
@[simp] theorem Chip.answer_host (m : Master) (e : Bool) (w : Word) : (s.answer m e w).host = s.host := rfl
@[simp] theorem Chip.answer_quads (m : Master) (e : Bool) (w : Word) : (s.answer m e w).quads = s.quads := rfl
@[simp] theorem Chip.answer_rx (m : Master) (e : Bool) (w : Word) : (s.answer m e w).rx = s.rx := rfl
@[simp] theorem Chip.answer_tx (m : Master) (e : Bool) (w : Word) : (s.answer m e w).tx = s.tx := rfl
@[simp] theorem Chip.answer_framer (m : Master) (e : Bool) (w : Word) : (s.answer m e w).framer = s.framer := rfl
@[simp] theorem Chip.answer_hnk (m : Master) (e : Bool) (w : Word) : (s.answer m e w).hnk = s.hnk := rfl
@[simp] theorem Chip.answer_ply (m : Master) (e : Bool) (w : Word) : (s.answer m e w).ply = s.ply := rfl
@[simp] theorem Chip.answer_crl (m : Master) (e : Bool) (w : Word) : (s.answer m e w).crl = s.crl := rfl
@[simp] theorem Chip.answer_fly (m : Master) (e : Bool) (w : Word) : (s.answer m e w).fly = s.fly := rfl
@[simp] theorem Chip.answer_dma (m : Master) (e : Bool) (w : Word) : (s.answer m e w).dma = s.dma := rfl
@[simp] theorem Chip.answer_hka (m : Master) (e : Bool) (w : Word) : (s.answer m e w).hka = s.hka := rfl
@[simp] theorem Chip.answer_flt (m : Master) (e : Bool) (w : Word) : (s.answer m e w).flt = s.flt := rfl
@[simp] theorem Chip.answer_jtag (m : Master) (e : Bool) (w : Word) : (s.answer m e w).jtag = s.jtag := rfl
@[simp] theorem Chip.answer_i3c (m : Master) (e : Bool) (w : Word) : (s.answer m e w).i3c = s.i3c := rfl
@[simp] theorem Chip.answer_start (m : Master) (e : Bool) (w : Word) : (s.answer m e w).start = s.start := rfl
@[simp] theorem Chip.answer_straps (m : Master) (e : Bool) (w : Word) : (s.answer m e w).straps = s.straps := rfl
@[simp] theorem Chip.answer_fwReadySeen (m : Master) (e : Bool) (w : Word) : (s.answer m e w).fwReadySeen = s.fwReadySeen := rfl
@[simp] theorem Chip.answer_limited (m : Master) (e : Bool) (w : Word) : (s.answer m e w).limited = s.limited := rfl
@[simp] theorem Chip.answer_fresh (m : Master) (e : Bool) (w : Word) : (s.answer m e w).fresh = s.fresh := rfl

/-! ### `Chip.setPd` -/

@[simp] theorem Chip.setPd_regs (d : Nat) (p : Power) : (s.setPd d p).regs = s.regs := by unfold Chip.setPd; split <;> rfl
@[simp] theorem Chip.setPd_frz (d : Nat) (p : Power) : (s.setPd d p).frz = s.frz := by unfold Chip.setPd; split <;> rfl
@[simp] theorem Chip.setPd_evt (d : Nat) (p : Power) : (s.setPd d p).evt = s.evt := by unfold Chip.setPd; split <;> rfl
@[simp] theorem Chip.setPd_cnt (d : Nat) (p : Power) : (s.setPd d p).cnt = s.cnt := by unfold Chip.setPd; split <;> rfl
@[simp] theorem Chip.setPd_mem (d : Nat) (p : Power) : (s.setPd d p).mem = s.mem := by unfold Chip.setPd; split <;> rfl
@[simp] theorem Chip.setPd_valid (d : Nat) (p : Power) : (s.setPd d p).valid = s.valid := by unfold Chip.setPd; split <;> rfl
@[simp] theorem Chip.setPd_flips (d : Nat) (p : Power) : (s.setPd d p).flips = s.flips := by unfold Chip.setPd; split <;> rfl
@[simp] theorem Chip.setPd_ecc (d : Nat) (p : Power) : (s.setPd d p).ecc = s.ecc := by unfold Chip.setPd; split <;> rfl
@[simp] theorem Chip.setPd_thm (d : Nat) (p : Power) : (s.setPd d p).thm = s.thm := by unfold Chip.setPd; split <;> rfl
@[simp] theorem Chip.setPd_flash (d : Nat) (p : Power) : (s.setPd d p).flash = s.flash := by unfold Chip.setPd; split <;> rfl
@[simp] theorem Chip.setPd_cfg (d : Nat) (p : Power) : (s.setPd d p).cfg = s.cfg := by unfold Chip.setPd; split <;> rfl
@[simp] theorem Chip.setPd_mbx (d : Nat) (p : Power) : (s.setPd d p).mbx = s.mbx := by unfold Chip.setPd; split <;> rfl
@[simp] theorem Chip.setPd_spn (d : Nat) (p : Power) : (s.setPd d p).spn = s.spn := by unfold Chip.setPd; split <;> rfl
@[simp] theorem Chip.setPd_sess (d : Nat) (p : Power) : (s.setPd d p).sess = s.sess := by unfold Chip.setPd; split <;> rfl
@[simp] theorem Chip.setPd_alarms (d : Nat) (p : Power) : (s.setPd d p).alarms = s.alarms := by unfold Chip.setPd; split <;> rfl
@[simp] theorem Chip.setPd_ports (d : Nat) (p : Power) : (s.setPd d p).ports = s.ports := by unfold Chip.setPd; split <;> rfl
@[simp] theorem Chip.setPd_answers (d : Nat) (p : Power) : (s.setPd d p).answers = s.answers := by unfold Chip.setPd; split <;> rfl
@[simp] theorem Chip.setPd_host (d : Nat) (p : Power) : (s.setPd d p).host = s.host := by unfold Chip.setPd; split <;> rfl
@[simp] theorem Chip.setPd_quads (d : Nat) (p : Power) : (s.setPd d p).quads = s.quads := by unfold Chip.setPd; split <;> rfl
@[simp] theorem Chip.setPd_rx (d : Nat) (p : Power) : (s.setPd d p).rx = s.rx := by unfold Chip.setPd; split <;> rfl
@[simp] theorem Chip.setPd_tx (d : Nat) (p : Power) : (s.setPd d p).tx = s.tx := by unfold Chip.setPd; split <;> rfl
@[simp] theorem Chip.setPd_framer (d : Nat) (p : Power) : (s.setPd d p).framer = s.framer := by unfold Chip.setPd; split <;> rfl
@[simp] theorem Chip.setPd_hnk (d : Nat) (p : Power) : (s.setPd d p).hnk = s.hnk := by unfold Chip.setPd; split <;> rfl
@[simp] theorem Chip.setPd_ply (d : Nat) (p : Power) : (s.setPd d p).ply = s.ply := by unfold Chip.setPd; split <;> rfl
@[simp] theorem Chip.setPd_crl (d : Nat) (p : Power) : (s.setPd d p).crl = s.crl := by unfold Chip.setPd; split <;> rfl
@[simp] theorem Chip.setPd_fly (d : Nat) (p : Power) : (s.setPd d p).fly = s.fly := by unfold Chip.setPd; split <;> rfl
@[simp] theorem Chip.setPd_dma (d : Nat) (p : Power) : (s.setPd d p).dma = s.dma := by unfold Chip.setPd; split <;> rfl
@[simp] theorem Chip.setPd_hka (d : Nat) (p : Power) : (s.setPd d p).hka = s.hka := by unfold Chip.setPd; split <;> rfl
@[simp] theorem Chip.setPd_flt (d : Nat) (p : Power) : (s.setPd d p).flt = s.flt := by unfold Chip.setPd; split <;> rfl
@[simp] theorem Chip.setPd_jtag (d : Nat) (p : Power) : (s.setPd d p).jtag = s.jtag := by unfold Chip.setPd; split <;> rfl
@[simp] theorem Chip.setPd_i3c (d : Nat) (p : Power) : (s.setPd d p).i3c = s.i3c := by unfold Chip.setPd; split <;> rfl
@[simp] theorem Chip.setPd_start (d : Nat) (p : Power) : (s.setPd d p).start = s.start := by unfold Chip.setPd; split <;> rfl
@[simp] theorem Chip.setPd_straps (d : Nat) (p : Power) : (s.setPd d p).straps = s.straps := by unfold Chip.setPd; split <;> rfl
@[simp] theorem Chip.setPd_fwReadySeen (d : Nat) (p : Power) : (s.setPd d p).fwReadySeen = s.fwReadySeen := by unfold Chip.setPd; split <;> rfl
@[simp] theorem Chip.setPd_limited (d : Nat) (p : Power) : (s.setPd d p).limited = s.limited := by unfold Chip.setPd; split <;> rfl
@[simp] theorem Chip.setPd_fresh (d : Nat) (p : Power) : (s.setPd d p).fresh = s.fresh := by unfold Chip.setPd; split <;> rfl

/-! ### Registers and fields -/

/-- A register reads the word that was put into it. -/
@[simp] theorem Chip.reg_setReg (a : Nat) (v : Word) : (s.setReg a v).reg a = v := tabGet_tabSet_same _ _ _ _

/-- Other registers stay. -/
theorem Chip.reg_setReg_other (a b : Nat) (v : Word) (h : b ≠ a) : (s.setReg a v).reg b = s.reg b :=
  tabGet_tabSet_other _ _ _ _ _ h

/-- A register is a matter of the register table alone. -/
theorem Chip.reg_congr {s t : Chip} (h : s.regs = t.regs) (a : Nat) : s.reg a = t.reg a := by
  unfold Chip.reg; rw [h]

/-- So is a field. -/
theorem Chip.fld_congr {s t : Chip} (h : s.regs = t.regs) (f : Fld) : s.fld f = t.fld f := by
  unfold Chip.fld; rw [Chip.reg_congr h]

/-- So is a flag. -/
theorem Chip.flag_congr {s t : Chip} (h : s.regs = t.regs) (f : Fld) : s.flag f = t.flag f := by
  unfold Chip.flag; rw [Chip.fld_congr h]

/-- Do two fields share no bit? -/
def Fld.apart (f g : Fld) : Bool := decide (f.lo + f.w ≤ g.lo) || decide (g.lo + g.w ≤ f.lo) || f.addr != g.addr

/-- Fields of two registers share none. -/
theorem Fld.apart_addr {f g : Fld} (h : f.addr ≠ g.addr) : f.apart g = true := by simp [Fld.apart, h]

/-- Does a field lie in a word? -/
def Fld.fits (f : Fld) : Bool := decide (f.lo + f.w ≤ 32)

/-- A field reads the low bits of what was put into it. -/
theorem Chip.fld_setFld (f : Fld) (v : Nat) (h : f.fits = true) : (s.setFld f v).fld f = v % 2 ^ f.w := by
  have h : f.lo + f.w ≤ 32 := by simpa [Fld.fits] using h
  simp [Chip.fld, Chip.setFld, getBits_setBits_same _ _ _ _ h]

/-- A field that shares no bit with the one that was set stays. -/
theorem Chip.fld_setFld_other (f g : Fld) (v : Nat) (h : f.apart g = true) : (s.setFld f v).fld g = s.fld g := by
  unfold Chip.fld Chip.setFld
  by_cases ha : g.addr = f.addr
  · rw [ha, Chip.reg_setReg, getBits_setBits_other]
    simp [Fld.apart, ha] at h
    omega
  · rw [Chip.reg_setReg_other _ _ _ _ ha]

/-- A register other than the field's stays. -/
theorem Chip.reg_setFld_other (f : Fld) (v b : Nat) (h : b ≠ f.addr) : (s.setFld f v).reg b = s.reg b :=
  Chip.reg_setReg_other s _ _ _ h

/-- A field reads the truth value that was put into it. -/
theorem Chip.flag_setFlag (f : Fld) (b : Bool) (h : f.fits = true) (hw : f.w = 1) : (s.setFlag f b).flag f = b := by
  unfold Chip.flag Chip.setFlag
  rw [Chip.fld_setFld s f _ h, hw]
  cases b <;> rfl

/-- A flag that shares no bit with the one that was set stays. -/
theorem Chip.flag_setFlag_other (f g : Fld) (b : Bool) (h : f.apart g = true) : (s.setFlag f b).flag g = s.flag g := by
  unfold Chip.flag Chip.setFlag
  rw [Chip.fld_setFld_other s f g _ h]

/-- A flag that shares no bit with the field that was set stays. -/
theorem Chip.flag_setFld_other (f g : Fld) (v : Nat) (h : f.apart g = true) : (s.setFld f v).flag g = s.flag g := by
  unfold Chip.flag
  rw [Chip.fld_setFld_other s f g _ h]

/-- A field that shares no bit with the flag that was set stays. -/
theorem Chip.fld_setFlag_other (f g : Fld) (b : Bool) (h : f.apart g = true) : (s.setFlag f b).fld g = s.fld g :=
  Chip.fld_setFld_other s f g _ h

@[simp] theorem Chip.emit_reg (ms : List Msg) (x : Nat) : (s.emit ms).reg x = s.reg x := Chip.reg_congr (by simp) x
@[simp] theorem Chip.emit_fld (ms : List Msg) (g : Fld) : (s.emit ms).fld g = s.fld g := Chip.fld_congr (by simp) g
@[simp] theorem Chip.emit_flag (ms : List Msg) (g : Fld) : (s.emit ms).flag g = s.flag g := Chip.flag_congr (by simp) g
@[simp] theorem Chip.raise_reg (src pay : Nat) (x : Nat) : (s.raise src pay).reg x = s.reg x := Chip.reg_congr (by simp) x
@[simp] theorem Chip.raise_fld (src pay : Nat) (g : Fld) : (s.raise src pay).fld g = s.fld g := Chip.fld_congr (by simp) g
@[simp] theorem Chip.raise_flag (src pay : Nat) (g : Fld) : (s.raise src pay).flag g = s.flag g := Chip.flag_congr (by simp) g
@[simp] theorem Chip.setLevel_reg (src : Nat) (b : Bool) (pay : Nat) (x : Nat) : (s.setLevel src b pay).reg x = s.reg x := Chip.reg_congr (by simp) x
@[simp] theorem Chip.setLevel_fld (src : Nat) (b : Bool) (pay : Nat) (g : Fld) : (s.setLevel src b pay).fld g = s.fld g := Chip.fld_congr (by simp) g
@[simp] theorem Chip.setLevel_flag (src : Nat) (b : Bool) (pay : Nat) (g : Fld) : (s.setLevel src b pay).flag g = s.flag g := Chip.flag_congr (by simp) g
@[simp] theorem Chip.count_reg (sel : Nat → Nat → Bool) (n : Nat) (x : Nat) : (s.count sel n).reg x = s.reg x := Chip.reg_congr (by simp) x
@[simp] theorem Chip.count_fld (sel : Nat → Nat → Bool) (n : Nat) (g : Fld) : (s.count sel n).fld g = s.fld g := Chip.fld_congr (by simp) g
@[simp] theorem Chip.count_flag (sel : Nat → Nat → Bool) (n : Nat) (g : Fld) : (s.count sel n).flag g = s.flag g := Chip.flag_congr (by simp) g
@[simp] theorem Chip.answer_reg (m : Master) (e : Bool) (w : Word) (x : Nat) : (s.answer m e w).reg x = s.reg x := Chip.reg_congr (by simp) x
@[simp] theorem Chip.answer_fld (m : Master) (e : Bool) (w : Word) (g : Fld) : (s.answer m e w).fld g = s.fld g := Chip.fld_congr (by simp) g
@[simp] theorem Chip.answer_flag (m : Master) (e : Bool) (w : Word) (g : Fld) : (s.answer m e w).flag g = s.flag g := Chip.flag_congr (by simp) g
@[simp] theorem Chip.setPd_reg (d : Nat) (p : Power) (x : Nat) : (s.setPd d p).reg x = s.reg x := Chip.reg_congr (by simp) x
@[simp] theorem Chip.setPd_fld (d : Nat) (p : Power) (g : Fld) : (s.setPd d p).fld g = s.fld g := Chip.fld_congr (by simp) g
@[simp] theorem Chip.setPd_flag (d : Nat) (p : Power) (g : Fld) : (s.setPd d p).flag g = s.flag g := Chip.flag_congr (by simp) g

end Sys2Proof.Machine
end

