-- ==== Sys2Proof/Laws/Memory.lean ====
section
/-! SUPPORT. The memories: a byte reads back what was stored, other bytes stay, and every operation on memory keeps its canonical
form. -/

namespace Sys2Proof.Machine

/-! ### Bytes -/

/-- A byte reads what was put there. -/
@[simp] theorem Chip.byte_setByte (s : Chip) (a : Nat) (v : Byte) : (s.setByte a v).byte a = v := tabGet_tabSet_same _ _ _ _

/-- Other bytes stay. -/
theorem Chip.byte_setByte_other (s : Chip) (a b : Nat) (v : Byte) (h : b ≠ a) : (s.setByte a v).byte b = s.byte b :=
  tabGet_tabSet_other _ _ _ _ _ h

/-- Bytes outside the stored ones stay. -/
theorem storeBytes_other (l : List Byte) (a b : Nat) (m : List Host.Cell) (h : b < a ∨ a + l.length ≤ b) :
    tabGet Memory.unlisted (storeBytes a l m) b = tabGet Memory.unlisted m b := by
  induction l generalizing a m with
  | nil => rfl
  | cons x l ih =>
    simp only [List.length_cons] at h
    rw [storeBytes, ih (a + 1) _ (by omega), tabGet_tabSet_other _ _ _ _ _ (by omega)]

/-- The stored bytes read back. -/
theorem storeBytes_same (l : List Byte) (a i : Nat) (m : List Host.Cell) (h : i < l.length) :
    tabGet Memory.unlisted (storeBytes a l m) (a + i) = l[i] := by
  induction l generalizing a m i with
  | nil => simp at h
  | cons x l ih =>
    rw [storeBytes]
    cases i with
    | zero =>
      rw [storeBytes_other _ _ _ _ (by omega)]
      simp
    | succ i =>
      have := ih (a + 1) i (tabSet Memory.unlisted m a x) (by simpa using h)
      rw [show a + (i + 1) = a + 1 + i by omega, this]
      rfl

/-- Storing bytes keeps the canonical form. -/
theorem storeBytes_wf (l : List Byte) (a : Nat) (m : List Host.Cell) (h : Memory.wf m = true) :
    Memory.wf (storeBytes a l m) = true := by
  induction l generalizing a m with
  | nil => exact h
  | cons x l ih => exact ih (a + 1) _ (tabWf_tabSet _ _ _ _ h)

/-- A byte is a matter of the memory alone. -/
theorem Chip.byte_congr {s t : Chip} (h : s.mem = t.mem) (a : Nat) : s.byte a = t.byte a := by
  unfold Chip.byte; rw [h]

/-- The bytes that `setBytes` stores read back. -/
theorem Chip.byte_setBytes (s : Chip) (l : List Byte) (a i : Nat) (h : i < l.length) : (s.setBytes a l).byte (a + i) = l[i] :=
  storeBytes_same l a i s.mem h

/-- Every other byte stays. -/
theorem Chip.byte_setBytes_other (s : Chip) (l : List Byte) (a b : Nat) (h : b < a ∨ a + l.length ≤ b) :
    (s.setBytes a l).byte b = s.byte b := storeBytes_other l a b s.mem h

/-! ### Granules -/

/-- Is a memory one whose granules lie in the byte memory? -/
def MemId.plain : MemId → Bool
  | .tension _ _ | .skein => false
  | _ => true

/-- Writing a granule changes the eight bytes of that granule alone. -/
theorem Chip.byte_putGran_other (s : Chip) (m : MemId) (i v b : Nat)
    (h : m.plain = false ∨ b < m.base + 8 * i ∨ m.base + 8 * i + 8 ≤ b) : (s.putGran m i v).byte b = s.byte b := by
  cases m with
  | tension n sh => unfold Chip.putGran; simp only; split <;> rfl
  | skein => rfl
  | _ =>
    simp only [MemId.plain, Bool.true_eq_false, false_or] at h
    exact Chip.byte_setBytes_other _ _ _ _ (by simpa [leBytes] using h)

/-- Writing a granule keeps the canonical form. -/
theorem Chip.putGran_wf (s : Chip) (m : MemId) (i v : Nat) (h : Memory.wf s.mem = true) :
    Memory.wf (s.putGran m i v).mem = true := by
  cases m with
  | tension n sh => unfold Chip.putGran; simp only; split <;> exact h
  | skein => exact h
  | _ => exact storeBytes_wf _ _ _ h

/-- Clearing a memory keeps the canonical form. -/
theorem Chip.clearMemory_wf (s : Chip) (m : MemId) (h : Memory.wf s.mem = true) : Memory.wf (s.clearMemory m).mem = true := by
  cases m with
  | tension n sh => unfold Chip.clearMemory; simp only; split <;> exact h
  | skein => exact h
  | _ => exact tabWf_filter _ _ _ h

/-! ### Errors: the log and the buckets change no memory -/

@[simp] theorem Chip.logFullLevel_mem (s : Chip) : s.logFullLevel.mem = s.mem := by simp [Chip.logFullLevel]

@[simp] theorem Chip.logEcc_mem (s : Chip) (q g : Nat) (k : EccKind) (b : Nat) : (s.logEcc q g k b).mem = s.mem := by
  unfold Chip.logEcc
  simp only
  split
  · simp
  · split <;> simp

@[simp] theorem Chip.setBucket_mem (s : Chip) (b : Fin 3) (v : Nat) : (s.setBucket b v).mem = s.mem := rfl

@[simp] theorem Chip.fillBucket_mem (s : Chip) (b : Fin 3) : (s.fillBucket b).mem = s.mem := by
  unfold Chip.fillBucket
  simp only
  split <;> simp

/-! ### Reads and writes -/

/-- Reading a granule keeps the canonical form. -/
theorem Chip.readGran_wf (s : Chip) (m : MemId) (i : Nat) (h : Memory.wf s.mem = true) :
    Memory.wf (s.readGran m i).1.mem = true := by
  unfold Chip.readGran
  split
  · exact h
  · simp only
    split
    · exact h
    · split
      · split
        · exact h
        · simpa using Chip.putGran_wf _ _ _ _ h
      · simpa using h

/-- A 32-bit read keeps the canonical form. -/
theorem Chip.readMem32_wf (s : Chip) (m : MemId) (off : Nat) (h : Memory.wf s.mem = true) :
    Memory.wf (s.readMem32 m off).1.mem = true := Chip.readGran_wf s m _ h

/-- A 32-bit write keeps the canonical form. -/
theorem Chip.writeMem32_wf (s : Chip) (m : MemId) (off : Nat) (v : Word) (h : Memory.wf s.mem = true) :
    Memory.wf (s.writeMem32 m off v).1.mem = true := by
  have h1 := Chip.readGran_wf s m (off / 8) h
  unfold Chip.writeMem32
  simp only
  split
  · exact h1
  · exact Chip.putGran_wf _ _ _ _ h1

/-- Writing granules keeps the canonical form. -/
theorem Chip.putBytes_wf (i : Nat) (m : MemId) (l : List Nat) (s : Chip) (h : Memory.wf s.mem = true) :
    Memory.wf (Chip.putBytes i m l s).mem = true := by
  induction l generalizing i s with
  | nil => exact h
  | cons v t ih => exact ih _ _ (Chip.putGran_wf _ _ _ _ h)

/-- Writing bytes keeps the canonical form. -/
theorem Chip.writeBytes_wf (s : Chip) (m : MemId) (off : Nat) (l : List Byte) (h : Memory.wf s.mem = true) :
    Memory.wf (s.writeBytes m off l).mem = true := Chip.putBytes_wf _ _ _ _ h

/-- Reading granules keeps the canonical form. -/
theorem Chip.readGrans_wf (n : Nat) (m : MemId) (i : Nat) (s : Chip) (h : Memory.wf s.mem = true) :
    Memory.wf (Chip.readGrans n m i s).1.mem = true := by
  induction n generalizing i s with
  | zero => exact h
  | succ n ih => exact ih _ _ (Chip.readGran_wf _ _ _ h)

/-- Reading bytes keeps the canonical form. -/
theorem Chip.readBytes_wf (s : Chip) (m : MemId) (off n : Nat) (h : Memory.wf s.mem = true) :
    Memory.wf (s.readBytes m off n).1.mem = true := Chip.readGrans_wf _ _ _ _ h

/-- A granule that is not flipped reads as it stands, and nothing changes. -/
theorem Chip.readGran_sound (s : Chip) (m : MemId) (i : Nat) (hv : s.granValid m i = true)
    (hf : tabGet (fun _ => 0) s.flips (m.key i) = 0) : s.readGran m i = (s, some (s.granData m i)) := by
  simp [Chip.readGran, hv, hf]

/-- A granule that is not valid reads as zero, R374. -/
theorem Chip.readGran_invalid (s : Chip) (m : MemId) (i : Nat) (hv : s.granValid m i = false) :
    s.readGran m i = (s, some 0) := by
  simp [Chip.readGran, hv]

end Sys2Proof.Machine
end

