-- ==== Sys2Proof/Laws/Calm.lean ====
section
/-! SUPPORT. What the shared operations can do: serving the mailbox and settling the ports touch only the registers named here and none of
the state of the lanes, the domains, the spindles and the engines. -/

namespace Sys2Proof.Machine

/-- The part `t` differs from `s` in no register but those that `P` names, and in none of the state listed here. -/
structure Calm (P : Nat → Bool) (s t : Chip) : Prop where
  reg : ∀ a, P a = false → t.reg a = s.reg a
  frz : t.frz = s.frz
  pmu : t.pmu = s.pmu
  thm : t.thm = s.thm
  spn : t.spn = s.spn
  sess : t.sess = s.sess
  alarms : t.alarms = s.alarms
  answers : t.answers = s.answers
  host : t.host = s.host
  quads : t.quads = s.quads
  rx : t.rx = s.rx
  tx : t.tx = s.tx
  framer : t.framer = s.framer
  hnk : t.hnk = s.hnk
  ply : t.ply = s.ply
  dma : t.dma = s.dma
  hka : t.hka = s.hka
  flt : t.flt = s.flt
  jtag : t.jtag = s.jtag
  i3c : t.i3c = s.i3c
  start : t.start = s.start
  straps : t.straps = s.straps
  fwReadySeen : t.fwReadySeen = s.fwReadySeen
  limited : t.limited = s.limited

/-- Nothing differs from itself. -/
theorem Calm.refl (P : Nat → Bool) (s : Chip) : Calm P s s := by constructor <;> simp

/-- Two calm changes make a calm one. -/
theorem Calm.trans {P : Nat → Bool} {s t u : Chip} (h : Calm P s t) (k : Calm P t u) : Calm P s u := by
  constructor
  · intro a ha; rw [k.reg a ha, h.reg a ha]
  · exact k.frz.trans h.frz
  · exact k.pmu.trans h.pmu
  · exact k.thm.trans h.thm
  · exact k.spn.trans h.spn
  · exact k.sess.trans h.sess
  · exact k.alarms.trans h.alarms
  · exact k.answers.trans h.answers
  · exact k.host.trans h.host
  · exact k.quads.trans h.quads
  · exact k.rx.trans h.rx
  · exact k.tx.trans h.tx
  · exact k.framer.trans h.framer
  · exact k.hnk.trans h.hnk
  · exact k.ply.trans h.ply
  · exact k.dma.trans h.dma
  · exact k.hka.trans h.hka
  · exact k.flt.trans h.flt
  · exact k.jtag.trans h.jtag
  · exact k.i3c.trans h.i3c
  · exact k.start.trans h.start
  · exact k.straps.trans h.straps
  · exact k.fwReadySeen.trans h.fwReadySeen
  · exact k.limited.trans h.limited

/-- A change within fewer registers is one within more. -/
theorem Calm.mono {P Q : Nat → Bool} {s t : Chip} (hPQ : ∀ a, P a = true → Q a = true) (h : Calm P s t) : Calm Q s t where
  reg a ha := h.reg a (by cases hp : P a with | false => rfl | true => rw [hPQ a hp] at ha; cases ha)
  frz := h.frz
  pmu := h.pmu
  thm := h.thm
  spn := h.spn
  sess := h.sess
  alarms := h.alarms
  answers := h.answers
  host := h.host
  quads := h.quads
  rx := h.rx
  tx := h.tx
  framer := h.framer
  hnk := h.hnk
  ply := h.ply
  dma := h.dma
  hka := h.hka
  flt := h.flt
  jtag := h.jtag
  i3c := h.i3c
  start := h.start
  straps := h.straps
  fwReadySeen := h.fwReadySeen
  limited := h.limited

/-- A field outside the named registers stays. -/
theorem Calm.fld {P : Nat → Bool} {s t : Chip} (h : Calm P s t) (f : Fld) (hf : P f.addr = false) : t.fld f = s.fld f := by
  unfold Chip.fld; rw [h.reg _ hf]

/-- So does a flag. -/
theorem Calm.flag {P : Nat → Bool} {s t : Chip} (h : Calm P s t) (f : Fld) (hf : P f.addr = false) : t.flag f = s.flag f := by
  unfold Chip.flag; rw [h.fld f hf]

/-- A change of nothing but the named registers' words is calm. -/
theorem Calm.setReg (P : Nat → Bool) (s : Chip) (a : Nat) (v : Word) (ha : P a = true) : Calm P s (s.setReg a v) := by
  constructor
  · intro b hb
    exact Chip.reg_setReg_other s a b v (by rintro rfl; rw [ha] at hb; cases hb)
  all_goals rfl

theorem Calm.setFld (P : Nat → Bool) (s : Chip) (f : Fld) (v : Nat) (ha : P f.addr = true) : Calm P s (s.setFld f v) :=
  Calm.setReg P s _ _ ha

theorem Calm.setFlag (P : Nat → Bool) (s : Chip) (f : Fld) (b : Bool) (ha : P f.addr = true) : Calm P s (s.setFlag f b) :=
  Calm.setReg P s _ _ ha

theorem Calm.satInc (P : Nat → Bool) (s : Chip) (f : Fld) (n : Nat) (ha : P f.addr = true) : Calm P s (s.satInc f n) :=
  Calm.setReg P s _ _ ha

theorem Calm.setFldBit (P : Nat → Bool) (s : Chip) (f : Fld) (i : Nat) (b : Bool) (ha : P f.addr = true) :
    Calm P s (s.setFldBit f i b) := Calm.setReg P s _ _ ha

/-- Events are calm. -/
theorem Calm.emit (P : Nat → Bool) (s : Chip) (ms : List Msg) : Calm P s (s.emit ms) := by constructor <;> simp

theorem Calm.raise (P : Nat → Bool) (s : Chip) (src pay : Nat) : Calm P s (s.raise src pay) := Calm.emit P s _

theorem Calm.setLevel (P : Nat → Bool) (s : Chip) (src : Nat) (b : Bool) (pay : Nat) : Calm P s (s.setLevel src b pay) := by
  constructor <;> simp

theorem Calm.count (P : Nat → Bool) (s : Chip) (sel : Nat → Nat → Bool) (n : Nat) : Calm P s (s.count sel n) := by
  constructor <;> simp

/-- A fold of calm changes is calm. -/
theorem Calm.forAll {α : Type} (P : Nat → Bool) (l : List α) (f : Chip → α → Chip) (hf : ∀ s x, Calm P s (f s x)) (s : Chip) :
    Calm P s (s.forAll l f) := by
  unfold Chip.forAll
  induction l generalizing s with
  | nil => exact Calm.refl P s
  | cons x l ih => exact (hf s x).trans (ih (f s x))

/-- A change made where a condition holds. -/
theorem Calm.ite (P : Nat → Bool) {s t u : Chip} (c : Prop) [Decidable c] (ht : Calm P s t) (hu : Calm P s u) :
    Calm P s (if c then t else u) := by split <;> assumption

/-! ### Memory -/

/-- Writing a granule of a memory other than a tension table is calm. -/
theorem Calm.putGran (P : Nat → Bool) (s : Chip) (m : MemId) (i v : Nat) (hm : ∀ n sh, m ≠ .tension n sh) :
    Calm P s (s.putGran m i v) := by
  cases m with
  | tension n sh => exact absurd rfl (hm n sh)
  | _ => constructor <;> intros <;> rfl

theorem Calm.putBytes (P : Nat → Bool) (m : MemId) (hm : ∀ n sh, m ≠ .tension n sh) (l : List Nat) (i : Nat) (s : Chip) :
    Calm P s (Chip.putBytes i m l s) := by
  induction l generalizing i s with
  | nil => exact Calm.refl P s
  | cons v t ih => exact (Calm.putGran P s m i v hm).trans (ih _ _)

theorem Calm.writeBytes (P : Nat → Bool) (s : Chip) (m : MemId) (off : Nat) (l : List Byte) (hm : ∀ n sh, m ≠ .tension n sh) :
    Calm P s (s.writeBytes m off l) := Calm.putBytes P m hm _ _ s

theorem eccReg_log0 (i : Nat) (hi : i < 32) : eccReg (0xB0100 + 8 * i) = true := by simp [eccReg]; omega

theorem eccReg_log1 (i : Nat) (hi : i < 32) : eccReg (0xB0104 + 8 * i) = true := by simp [eccReg]; omega

theorem eccReg_status : eccReg ECC_STATUS.addr = true := by decide

theorem eccReg_free : eccReg ECC_LOG_FREE.addr = true := by decide

theorem Calm.logFullLevel (P : Nat → Bool) (s : Chip) : Calm P s s.logFullLevel := Calm.setLevel P s _ _ _

/-- A new entry of the address log touches the ECC registers alone. -/
theorem Calm.logEcc (s : Chip) (q g : Nat) (k : EccKind) (b : Nat) : Calm eccReg s (s.logEcc q g k b) := by
  unfold Chip.logEcc
  simp only
  split
  · rename_i i hi
    have hi : i < 32 := List.mem_range.1 (List.mem_of_find?_eq_some hi)
    exact Calm.satInc _ _ _ _ (eccReg_log1 i hi)
  · split
    · rename_i i hi
      have hi : i < 32 := List.mem_range.1 (List.mem_of_find?_eq_some hi)
      refine Calm.trans ?_ (Calm.logFullLevel _ _)
      refine Calm.trans ?_ (Calm.setFldBit _ _ _ _ _ eccReg_free)
      refine Calm.trans ?_ (Calm.setFld _ _ _ _ (eccReg_log1 i hi))
      refine Calm.trans ?_ (Calm.setFld _ _ _ _ (eccReg_log1 i hi))
      refine Calm.trans ?_ (Calm.setFld _ _ _ _ (eccReg_log0 i hi))
      refine Calm.trans ?_ (Calm.setFld _ _ _ _ (eccReg_log0 i hi))
      exact Calm.setFld _ _ _ _ (eccReg_log0 i hi)
    · exact Calm.trans (Calm.satInc _ _ _ _ (by decide)) (Calm.logFullLevel _ _)

theorem lvlFld_ecc (b : Nat) : eccReg (lvlFld b).addr = true := by
  unfold lvlFld; split <;> decide

theorem Calm.setBucket (s : Chip) (b : Fin 3) (v : Nat) : Calm eccReg s (s.setBucket b v) := by
  refine Calm.trans ?_ (Calm.setFld _ _ _ _ (lvlFld_ecc b.1))
  constructor <;> intros <;> rfl

theorem Calm.fillBucket (s : Chip) (b : Fin 3) : Calm eccReg s (s.fillBucket b) := by
  unfold Chip.fillBucket
  simp only
  split
  · exact ((Calm.setBucket _ _ _).trans (Calm.setFldBit _ _ _ _ _ eccReg_status)).trans (Calm.raise _ _ _ _)
  · exact Calm.setBucket _ _ _

/-- A read of a granule touches the ECC registers alone. -/
theorem Calm.readGran (s : Chip) (m : MemId) (i : Nat) (hm : ∀ n sh, m ≠ .tension n sh) :
    Calm eccReg s (s.readGran m i).1 := by
  unfold Chip.readGran
  split
  · exact Calm.refl _ _
  · simp only
    split
    · exact Calm.refl _ _
    · split
      · split
        · exact Calm.refl _ _
        · exact ((Calm.putGran _ _ _ _ _ hm).trans (Calm.logEcc _ _ _ _ _)).trans (Calm.fillBucket _ _)
      · exact (Calm.logEcc _ _ _ _ _).trans (Calm.raise _ _ _ _)

theorem Calm.readGrans (m : MemId) (hm : ∀ n sh, m ≠ .tension n sh) (n i : Nat) (s : Chip) :
    Calm eccReg s (Chip.readGrans n m i s).1 := by
  induction n generalizing i s with
  | zero => exact Calm.refl _ _
  | succ n ih => exact (Calm.readGran s m i hm).trans (ih _ _)

theorem Calm.readBytes (s : Chip) (m : MemId) (off n : Nat) (hm : ∀ n sh, m ≠ .tension n sh) :
    Calm eccReg s (s.readBytes m off n).1 := Calm.readGrans m hm _ _ s

theorem MemId.mailbox_plain : ∀ n sh, MemId.mailbox ≠ .tension n sh := by intro n sh h; cases h

/-! ### The mailbox and the Fleyth answers of the worker -/

theorem serveReg_of_ecc (a : Nat) (h : eccReg a = true) : serveReg a = true := by simp [serveReg, h]

theorem Calm.ofEcc {s t : Chip} (h : Calm eccReg s t) : Calm serveReg s t := h.mono serveReg_of_ecc

theorem Calm.flyMod (P : Nat → Bool) (s : Chip) (p : Nat) (f : FlyPort → FlyPort) : Calm P s (s.flyMod p f) := by
  unfold Chip.flyMod
  split
  · constructor <;> intros <;> rfl
  · exact Calm.refl _ _

theorem Calm.flyDrop (s : Chip) (r : FlyDrop) : Calm serveReg s (s.flyDrop r) := by
  unfold Chip.flyDrop
  simp only
  split
  · exact Calm.satInc _ _ _ _ (by cases r <;> decide)
  · refine Calm.trans ?_ (Calm.raise _ _ _ _)
    refine Calm.trans (Calm.satInc _ s r.fld 1 (by cases r <;> decide)) ?_
    constructor <;> intros <;> rfl

theorem Calm.flyQueue (s : Chip) (p : Nat) (m : List Byte × Bool) : Calm serveReg s (s.flyQueue p m) :=
  Calm.ite _ _ (Calm.flyMod _ _ _ _) (Calm.flyDrop _ _)

theorem Calm.flySend (s : Chip) (p : Nat) (m : FlyMsg) : Calm serveReg s (s.flySend p m) := Calm.flyQueue _ _ _

theorem Calm.flyForward (s : Chip) (m : FlyMsg) (o : Option Nat) : Calm serveReg s (s.flyForward m o) := by
  unfold Chip.flyForward
  split
  · exact Calm.flyDrop _ _
  · exact Calm.ite _ _ (Calm.flyDrop _ _) (Calm.flySend _ _ _)

theorem Calm.flyOriginate (s : Chip) (m : FlyMsg) : Calm serveReg s (s.flyOriginate m) := by
  unfold Chip.flyOriginate
  split
  · exact Calm.flyDrop _ _
  · exact Calm.flyForward _ _ _

theorem Calm.setSlot (P : Nat → Bool) (s : Chip) (i : Nat) (st : SlotState) : Calm P s (s.setSlot i st) := by
  unfold Chip.setSlot
  split
  · constructor <;> intros <;> rfl
  · exact Calm.refl _ _

theorem Calm.withMbx (P : Nat → Bool) (s : Chip) (x : Mailbox) : Calm P s { s with mbx := x } := by
  constructor <;> intros <;> rfl

theorem Calm.signalCpl (P : Nat → Bool) (s : Chip) : Calm P s s.signalCpl := by
  unfold Chip.signalCpl
  split
  · exact Calm.refl _ _
  · exact (Calm.withMbx P s _).trans (Calm.raise _ _ _ _)

/-- Signalling or not after a change of the mailbox's own state. -/
theorem Calm.posted (s t : Chip) (x : Mailbox) (b : Prop) [Decidable b] (h : Calm serveReg s t) :
    Calm serveReg s (if b then Chip.signalCpl { t with mbx := x } else { t with mbx := x }) := by
  have h1 := h.trans (Calm.withMbx serveReg t x)
  split
  · exact h1.trans (Calm.signalCpl _ _)
  · exact h1

theorem Calm.postCpl (s : Chip) (c : Completion) : Calm serveReg s (s.postCpl c) := by
  have h : Calm serveReg s (((s.writeBytes .mailbox (0x1000 + 0x20 * (s.prod % 64))
      (c.bytes (1 - s.prod / 64) s.evt.time)).setReg MBX_CPL_PROD.addr (BitVec.ofNat 32 ((s.prod + 1) % 128))).setSlot c.slot
      .done) :=
    ((Calm.writeBytes serveReg s .mailbox _ _ MemId.mailbox_plain).trans
      (Calm.setReg _ _ MBX_CPL_PROD.addr _ (by decide))).trans (Calm.setSlot _ _ c.slot .done)
  unfold Chip.postCpl
  exact Calm.posted s _ _ _ h

theorem Calm.complete (s : Chip) (c : Completion) : Calm serveReg s (s.complete c) := by
  unfold Chip.complete
  split
  · exact Calm.withMbx _ _ _
  · exact Calm.postCpl _ _

theorem Calm.finish (s : Chip) (src : CmdSrc) (op tag fl : Nat) (r : Reply) : Calm serveReg s (s.finish src op tag fl r) := by
  unfold Chip.finish
  cases src with
  | slot i =>
    simp only
    split
    · exact Calm.complete _ _
    · exact (Calm.writeBytes _ _ _ _ _ MemId.mailbox_plain).trans (Calm.complete _ _)
  | fleyth =>
    simp only
    split
    · exact Calm.flyOriginate _ _
    · exact Calm.flyOriginate _ _

theorem Calm.slotReq (s : Chip) (i : Fin 16) : Calm serveReg s (s.slotReq i).1 := by
  have h := Calm.readBytes s .mailbox (0x100 * i.1) 256 MemId.mailbox_plain
  unfold Chip.slotReq
  revert h
  generalize s.readBytes .mailbox (0x100 * i.1) 256 = r
  intro h
  obtain ⟨u, l⟩ := r
  cases l <;> exact Calm.ofEcc h

theorem Calm.begin (P : Nat → Bool) (s : Chip) (src : CmdSrc) : Calm P s (s.begin src) := by
  unfold Chip.begin
  cases src with
  | slot i => exact (Calm.withMbx P s _).trans (Calm.setSlot _ _ _ _)
  | fleyth k => constructor <;> intros <;> rfl

/-- A request that waits. -/
theorem Calm.holdFly (P : Nat → Bool) (s : Chip) (k : Nat) : Calm P s (s.holdFly k) := by constructor <;> intros <;> rfl

theorem Calm.finishReq (s : Chip) (r : Req) (y : Reply) : Calm serveReg s (s.finishReq r y) := Calm.finish _ _ _ _ _ _

theorem Calm.serveFront (n : Nat) (s : Chip) : Calm serveReg s (Chip.serveFront n s) := by
  induction n generalizing s with
  | zero => exact Calm.refl _ _
  | succ n ih =>
    unfold Chip.serveFront
    split
    · exact Calm.refl _ _
    · simp only
      split
      · exact (((Calm.slotReq _ _).trans (Calm.begin _ _ _)).trans (Calm.finish _ _ _ _ _ _)).trans (ih _)
      · exact Calm.refl _ _

theorem Calm.serveFly (n : Nat) (s : Chip) : Calm serveReg s (Chip.serveFly n s) := by
  induction n generalizing s with
  | zero => exact Calm.refl _ _
  | succ n ih =>
    unfold Chip.serveFly
    split
    · exact Calm.refl _ _
    · split
      · exact Calm.refl _ _
      · exact Calm.ite _ _ (((Calm.begin _ _ _).trans (Calm.finishReq _ _ _)).trans (ih _)) (Calm.refl _ _)

/-- Serving the requests that the holder completes by itself. -/
theorem Calm.serve (s : Chip) : Calm serveReg s s.serve := (Calm.serveFront _ s).trans (Calm.serveFly _ _)

theorem Calm.endCmd (s : Chip) (e : ExecCmd) (y : Reply) : Calm serveReg s (s.endCmd e y) := by
  unfold Chip.endCmd
  exact ((Calm.withMbx _ s _).trans (Calm.finish _ _ _ _ _ _)).trans (Calm.serve _)

theorem Calm.endWait (s : Chip) (p : Wait → Bool) (y : Reply) : Calm serveReg s (s.endWait p y) := by
  unfold Chip.endWait
  split
  · exact Calm.refl _ _
  · exact Calm.endCmd _ _ _

/-- Ending a taken command, at once or later. -/
theorem Calm.conclude (s : Chip) (r : Req) (v : Verdict) : Calm serveReg s (s.conclude r v) := by
  unfold Chip.conclude
  cases v with
  | done y => exact (Calm.finish _ _ _ _ _ _).trans (Calm.serve _)
  | runs w => exact (Calm.withMbx _ s _).trans (Calm.serve _)

theorem Calm.reqOf (s : Chip) (src : CmdSrc) : Calm serveReg s (s.reqOf src).1 := by
  cases src with
  | slot i => exact Calm.slotReq s i
  | fleyth => exact Calm.refl _ _

/-- Taking a command. -/
theorem Calm.accept (s : Chip) (src : CmdSrc) (op : Nat) : Calm serveReg s (s.accept src op).1 := by
  unfold Chip.accept
  have h := Calm.reqOf s src
  split
  · exact Calm.refl _ _
  · split
    · exact Calm.refl _ _
    · rename_i s1 r heq
      rw [heq] at h
      split
      · exact Calm.refl _ _
      · split
        · cases src with
          | slot i => exact h.trans (Calm.setSlot _ _ _ _)
          | fleyth k => exact h.trans (Calm.holdFly _ _ _)
        · split
          · exact ((h.trans (Calm.begin _ _ _)).trans (Calm.finish _ _ _ _ _ _)).trans (Calm.serve _)
          · exact h.trans (Calm.begin _ _ _)

end Sys2Proof.Machine
end

