-- ==== Sys2Proof/Laws/Events.lean ====
section
/-! SUPPORT. Messages leave the timestamp alone (R330, R336), and what a cycle with no command does. -/

namespace Sys2Proof.Machine

theorem writeRecord_time (e : EvtBlk) (c : Fin 3) (src pay : Nat) (coal : Bool) (time : Nat) :
    (writeRecord e c src pay coal time).1.time = e.time := by
  unfold writeRecord; simp only []; repeat' split
  all_goals rfl

theorem deliver_time (e : EvtBlk) (c : Fin 3) (m : Msg) : (deliver e c m).1.time = e.time := by
  unfold deliver; simp only []; repeat' split
  all_goals first | rfl | exact writeRecord_time ..

theorem deliverAll_time (m : Msg) (l : List (Fin 3)) : ∀ e : EvtBlk, (deliverAll e m l).1.time = e.time := by
  induction l with
  | nil => intro e; rfl
  | cons c l ih => intro e; simp only [deliverAll]; rw [ih, deliver_time]

theorem sense_time (on : Bool) (n : Nat) : ∀ (l : List Msg) (e : EvtBlk) (c : CntBlk), (sense on n l e c).1.time = e.time := by
  induction n with
  | zero => intro l e c; rfl
  | succ n ih =>
    intro l e c
    cases l with
    | nil => rfl
    | cons m l => simp only [sense]; rw [ih, deliverAll_time]

@[simp] theorem Chip.emit_time (s : Chip) (ms : List Msg) : (s.emit ms).evt.time = s.evt.time := sense_time ..

@[simp] theorem Chip.count_time (s : Chip) (sel : Nat → Nat → Bool) (n : Nat) : (s.count sel n).evt.time = s.evt.time := by
  unfold Chip.count; split
  · exact Chip.emit_time ..
  · rfl

theorem Chip.tick_time (s : Chip) : s.tick.evt.time = (s.evt.time + s.tickLength) % 2 ^ 48 := by
  unfold Chip.tick; simp only []; split
  · rfl
  · exact Chip.count_time ..

theorem Chip.tick_regs (s : Chip) : s.tick.regs = s.regs := by unfold Chip.tick; simp only []; split <;> simp

theorem Chip.tick_mem (s : Chip) : s.tick.mem = s.mem := by unfold Chip.tick; simp only []; split <;> simp

end Sys2Proof.Machine
end

