-- ==== Sys2Proof/Laws/Settle.lean ====
section
/-! SUPPORT. Settling after a change of a lane: the registers it touches, and that no lane's own state changes. -/

namespace Sys2Proof.Machine

set_option linter.unusedSimpArgs false

theorem lanesReg_of_serve (a : Nat) (h : serveReg a = true) : lanesReg a = true := by simp [lanesReg, h]

theorem settleReg_of_lanes (a : Nat) (h : lanesReg a = true) : settleReg a = true := by simp [settleReg, h]

theorem settleReg_of_serve (a : Nat) (h : serveReg a = true) : settleReg a = true := settleReg_of_lanes a (lanesReg_of_serve a h)

/-- Serving is a part of settling. -/
theorem Calm.ofServeLanes {s t : Chip} (h : Calm serveReg s t) : Calm lanesReg s t := h.mono lanesReg_of_serve

/-- Serving is a part of settling. -/
theorem Calm.ofServe {s t : Chip} (h : Calm serveReg s t) : Calm settleReg s t := h.mono settleReg_of_serve

theorem Calm.portMod (P : Nat → Bool) (s : Chip) (p : Nat) (f : Port → Port) : Calm P s (s.portMod p f) := by
  unfold Chip.portMod
  split
  · constructor <;> intros <;> rfl
  · exact Calm.refl _ _

theorem Calm.crlMod (P : Nat → Bool) (s : Chip) (n : Nat) (f : CrlLane → CrlLane) : Calm P s (s.crlMod n f) := by
  unfold Chip.crlMod
  split
  · constructor <;> intros <;> rfl
  · exact Calm.refl _ _

theorem Calm.refreshPort (P : Nat → Bool) (s : Chip) (p : Nat) : Calm P s (s.refreshPort p) := by
  unfold Chip.refreshPort
  split
  · exact Calm.ite _ _ (Calm.refl _ _) (Calm.portMod _ _ _ _)
  · exact Calm.ite _ _ (Calm.refl _ _) (Calm.portMod _ _ _ _)
  · exact Calm.ite _ _ (Calm.portMod _ _ _ _) (Calm.refl _ _)
  · exact Calm.refl _ _

theorem Calm.refreshPorts (P : Nat → Bool) (s : Chip) : Calm P s s.refreshPorts :=
  Calm.forAll P _ _ (fun s p => Calm.refreshPort P s p) s

/-- A fold of changes that are calm for the elements of the list. -/
theorem Calm.forAllMem {α : Type} (P : Nat → Bool) (l : List α) (f : Chip → α → Chip) (hf : ∀ s, ∀ x ∈ l, Calm P s (f s x))
    (s : Chip) : Calm P s (s.forAll l f) := by
  unfold Chip.forAll
  induction l generalizing s with
  | nil => exact Calm.refl P s
  | cons x l ih =>
    exact (hf s x (by simp)).trans (ih (fun s y hy => hf s y (List.mem_cons_of_mem _ hy)) (f s x))

theorem lanesReg_lane (c : Nat) (h : c < 9) : lanesReg (0x410200 + 0x20 * c) = true := by
  simp [lanesReg]; omega

/-- Judging the modes touches the lane status registers of TWF alone. -/
theorem Calm.judgeModes (s : Chip) : Calm lanesReg s s.judgeModes := by
  unfold Chip.judgeModes
  refine Calm.trans (Calm.trans ?_ (Calm.forAll _ _ _ (fun s p => Calm.portMod _ _ _ _) _)) (Calm.setLevel _ _ _ _ _)
  refine Calm.forAllMem _ _ _ (fun s c hc => ?_) _
  exact Calm.setFlag _ _ _ _ (lanesReg_lane c (List.mem_range.1 hc))

theorem lanesReg_fly (a : Nat) (h1 : 0xC0000 ≤ a) (h2 : a < 0xD0000) : lanesReg a = true := by
  simp [lanesReg, h1, h2]

theorem lanesReg_crl (a : Nat) (h1 : 0x400000 ≤ a) (h2 : a < 0x410000) : lanesReg a = true := by
  simp [lanesReg, h1, h2]

theorem Calm.withFly (P : Nat → Bool) (s : Chip) (x : Fly) : Calm P s { s with fly := x } := by
  constructor <;> intros <;> rfl

theorem Calm.flySetLink (P : Nat → Bool) (hP : P FLY_PORT_STATUS.addr = true) (s : Chip) (p : Nat) (up : Bool) :
    Calm P s (s.flySetLink p up) := by
  unfold Chip.flySetLink
  split
  · exact Calm.refl _ _
  · simp only
    have h1 : Calm P s (s.setFldBit FLY_PORT_STATUS.LINK_UP p up) := Calm.setFldBit _ _ _ _ _ hP
    have h2 : ∀ t, Calm P t (if up = true then t else t.flyMod p (fun x => { x with hears := [] })) :=
      fun t => Calm.ite _ _ (Calm.refl _ _) (Calm.flyMod _ _ _ _)
    have h3 := (h1.trans (h2 _)).trans (Calm.raise P _ (if up = true then 0x140 else 0x141) p)
    exact Calm.ite _ _ h3 (h3.trans (Calm.withFly _ _ _))

theorem Calm.inbandLost (s : Chip) (p : Nat) : Calm lanesReg s (s.inbandLost p) :=
  (Calm.flyMod _ _ _ _).trans (Calm.flySetLink _ (by decide) _ _ _)

theorem Calm.refreshInband (s : Chip) : Calm lanesReg s s.refreshInband :=
  Calm.forAll _ _ _ (fun _ _ => Calm.ite _ _ (Calm.inbandLost _ _) (Calm.refl _ _)) s

theorem Calm.crlStart (P : Nat → Bool) (s : Chip) (n : Nat) : Calm P s (s.crlStart n) := by
  unfold Chip.crlStart Chip.draw
  refine Calm.trans ?_ (Calm.crlMod _ _ _ _)
  constructor <;> intros <;> rfl

theorem Calm.withCrl (P : Nat → Bool) (s : Chip) (x : Creel) : Calm P s { s with crl := x } := by
  constructor <;> intros <;> rfl

theorem Calm.crlStop (s : Chip) (n : Nat) (hn : n < 9) : Calm lanesReg s (s.crlStop n) := by
  have h := Calm.withCrl lanesReg s { s.crl with cws := s.crl.cws.filter (fun w => w.lane != n) }
  exact (h.trans (Calm.setFlag _ _ _ _ (lanesReg_crl _ (by simp [CRL_LANE_STATUS.SLUB, CRL_LANE_STATUS.addr]; omega)
    (by simp [CRL_LANE_STATUS.SLUB, CRL_LANE_STATUS.addr]; omega)))).trans (Calm.setLevel _ _ _ _ _)

theorem Calm.crlRefresh (s : Chip) : Calm lanesReg s s.crlRefresh := by
  unfold Chip.crlRefresh
  split
  · exact Calm.refl _ _
  · simp only
    have hs : ∀ (f : Nat → Nat) (t : Chip), Calm lanesReg t (t.forAll (List.range 9)
        (fun s n => s.setFld (CRL_LANE_STATUS.SLOTS n) (f n))) := fun f t =>
      Calm.forAllMem _ _ _ (fun s n hn => Calm.setFld _ _ _ _ (by
        have := List.mem_range.1 hn
        exact lanesReg_crl _ (by simp [CRL_LANE_STATUS.SLOTS, CRL_LANE_STATUS.addr]; omega)
          (by simp [CRL_LANE_STATUS.SLOTS, CRL_LANE_STATUS.addr]; omega))) t
    refine Calm.trans ?_ (Calm.setLevel _ _ _ _ _)
    refine Calm.trans ?_ (Calm.setFlag _ _ _ _ (by decide))
    refine Calm.trans ?_ (Calm.setFld _ _ _ _ (by decide))
    refine Calm.trans ?_ (Calm.setFld _ _ _ _ (by decide))
    refine Calm.trans ?_ (hs _ _)
    refine Calm.trans ?_ (Calm.withCrl _ _ _)
    refine Calm.trans ?_ (Calm.forAllMem _ _ _ (fun s n hn => Calm.crlStop s n (List.mem_range.1 (List.mem_filter.1 hn).1)) _)
    exact Calm.forAll _ _ _ (fun s n => Calm.crlStart _ s n) _

theorem Calm.saveShadow (P : Nat → Bool) (s : Chip) : Calm P s s.saveShadow := by
  unfold Chip.saveShadow
  simp only
  split
  · constructor <;> intros <;> rfl
  · constructor <;> intros <;> rfl

theorem Calm.addPortDone (s : Chip) (e : ExecCmd) : Calm lanesReg s (s.addPortDone e) := by
  unfold Chip.addPortDone
  split
  · split
    · exact ((Calm.portMod _ _ _ _).trans ((Calm.refreshPort _ _ _).trans (Calm.saveShadow _ _))).trans
        (Calm.endCmd _ _ _).ofServeLanes
    · exact Calm.refl _ _
  · exact Calm.refl _ _

theorem Calm.startSteps (s : Chip) : Calm settleReg s s.startSteps := by
  unfold Chip.startSteps
  simp only
  exact Calm.ite _ _ (Calm.ite _ _ (Calm.setFld _ _ _ _ (by decide)) (Calm.refl _ _)) (Calm.refl _ _)

/-- The fray condition touches its two registers. -/
theorem Calm.setFray (P : Nat → Bool) (h1 : P GLB_FRAY_STATUS.addr = true) (h2 : P GLB_FRAY_HIST.addr = true) (s : Chip)
    (x : Nat) : Calm P s (s.setFray x) := by
  unfold Chip.setFray
  simp only
  have h : ∀ (l : List Nat) (t : Chip), Calm P t (t.forAll l (fun s _ => s.raise 0x1AB 0)) :=
    fun l t => Calm.forAll _ _ _ (fun _ _ => Calm.raise _ _ _ _) t
  refine Calm.ite _ _ (Calm.trans ?_ (Calm.raise _ _ _ _)) ?_
  all_goals exact Calm.trans (Calm.trans (Calm.setReg _ _ _ _ h1) (Calm.setReg _ _ _ _ h2)) (h _ _)

theorem Calm.evalFray (s : Chip) : Calm settleReg s s.evalFray := Calm.setFray _ (by decide) (by decide) _ _

/-- Settling, up to the steps of the start. -/
def Chip.settleLanes (s : Chip) : Chip :=
  let s := s.judgeModes.refreshPorts.refreshInband.crlRefresh
  s.forAll s.mbx.exec Chip.addPortDone

theorem Chip.settle_eq (s : Chip) : s.settle = s.settleLanes.startSteps.evalFray := rfl

theorem Calm.settleLanes (s : Chip) : Calm lanesReg s s.settleLanes :=
  ((((Calm.judgeModes s).trans (Calm.refreshPorts _ _)).trans (Calm.refreshInband _)).trans (Calm.crlRefresh _)).trans
    (Calm.forAll _ _ _ (fun s e => Calm.addPortDone s e) _)

/-- Settling. -/
theorem Calm.settle (s : Chip) : Calm settleReg s s.settle :=
  (((Calm.settleLanes s).mono settleReg_of_lanes).trans (Calm.startSteps _)).trans (Calm.evalFray _)

end Sys2Proof.Machine
end

