-- ==== Sys2Proof/Laws/Steps.lean ====
section
/-! SUPPORT. The commands' common forms: a register write that is admitted or refused, a Krelin command that is taken, the outcome of an
evaluation of the distaff, a change of the session. -/

namespace Sys2Proof.Machine

set_option linter.unusedSimpArgs false

/-! ### Register writes -/

/-- An admitted write is answered and then has its effect. -/
theorem State.rowWrite_admits (s : State) (m : Master) (a : Nat) (f : State → State) (h : s.admits m a) :
    s.rowWrite m a f = f (s.answered m false) := by
  obtain ⟨h1, h2⟩ := h
  obtain ⟨b, hb⟩ := Option.isSome_iff_exists.1 h2
  simp [State.rowWrite, h1, hb, State.answered]

/-- A refused write only answers with an error. -/
theorem State.rowWrite_refuses (s : State) (m : Master) (a : Nat) (f : State → State) (h : s.refuses m a) :
    s.rowWrite m a f = s.answered m true := by
  obtain ⟨h1, h2⟩ := h
  simp [State.rowWrite, h1, h2, State.answered]

/-- The same of a register whose effect lies in the part alone. -/
theorem Chip.rowWrite_admits (s : State) (m : Master) (a : Nat) (f : Chip → Chip) (h : s.admits m a) :
    s.onChip (fun c => c.rowWrite m a f) = { s with chip := f (s.chip.answer m false 0) } := by
  obtain ⟨h1, h2⟩ := h
  obtain ⟨b, hb⟩ := Option.isSome_iff_exists.1 h2
  simp [State.onChip, Chip.rowWrite, h1, hb]

theorem Chip.rowWrite_refuses (s : State) (m : Master) (a : Nat) (f : Chip → Chip) (h : s.refuses m a) :
    s.onChip (fun c => c.rowWrite m a f) = s.answered m true := by
  obtain ⟨h1, h2⟩ := h
  simp [State.onChip, Chip.rowWrite, h1, h2, State.answered]

/-! ### Krelin commands -/

/-- A taken command is carried out and then ends or goes on. -/
theorem Chip.krelin_takes (s : State) (src : CmdSrc) (op : Nat) (c : Chip) (r : Req) (f : Chip → Req → Chip × Verdict)
    (h : s.takes src op c r) : s.chip.krelin src op f = (f c r).1.conclude r (f c r).2 := by
  unfold Chip.krelin
  rw [h]

/-! ### The session and the distaff -/

/-- A change of the session's level touches `GRD_SESSION` alone. -/
theorem Calm.setSession (P : Nat → Bool) (hP : P GRD_SESSION.LEVEL.addr = true) (s : Chip) (l : Nat) : Calm P s (s.setSession l) :=
  Calm.ite _ _ (Calm.refl _ _) ((Calm.setFld _ _ _ _ hP).trans (Calm.raise _ _ _ _))

/-- So does a new base, beside what changes it. -/
theorem Calm.rebase (P : Nat → Bool) (hP : P GRD_SESSION.LEVEL.addr = true) (s : Chip) (f : Chip → Chip) (hf : Calm P s (f s)) :
    Calm P s (s.rebase f) := hf.trans (Calm.setSession P hP _ _)

/-- The registers that an evaluation of the distaff may touch. -/
def distReg (a : Nat) : Bool :=
  a == GRD_SESSION.LEVEL.addr || a == GRD_LC.DEBUG_IMAGE.addr || a == MBX_STATUS.OPEN.addr || a == GRD_CLAIM_RESULT.RESULT_A.addr

@[simp] theorem State.showDebug_dist (s : State) : s.showDebug.dist = s.dist := by
  unfold State.showDebug; simp only; split <;> rfl

@[simp] theorem State.showDebug_fuse (s : State) : s.showDebug.fuse = s.fuse := by
  unfold State.showDebug; simp only; split <;> rfl

@[simp] theorem State.showDebug_pending (s : State) : s.showDebug.pending = s.pending := by
  unfold State.showDebug; simp only; split <;> rfl

/-- The registers that show a debug image and the session. -/
def sessReg (a : Nat) : Bool := a == GRD_SESSION.LEVEL.addr || a == GRD_LC.DEBUG_IMAGE.addr

theorem Calm.showDebug (s : State) : Calm sessReg s.chip s.showDebug.chip := by
  have h := fun b => Calm.rebase sessReg (by decide) s.chip (fun c => c.setFlag GRD_LC.DEBUG_IMAGE b)
    (Calm.setFlag sessReg s.chip GRD_LC.DEBUG_IMAGE b (by decide))
  unfold State.showDebug
  simp only
  split
  · exact Calm.refl _ _
  · exact h _

/-- The evaluation's distaff is the state's. -/
@[simp] theorem State.applyDist_dist (s : State) (o : DistOut) : (s.applyDist o).dist = o.dist := by
  unfold State.applyDist; simp

@[simp] theorem State.applyDist_fuse (s : State) (o : DistOut) : (s.applyDist o).fuse = s.fuse := by
  unfold State.applyDist; simp

@[simp] theorem State.applyDist_pending (s : State) (o : DistOut) : (s.applyDist o).pending = s.pending := by
  unfold State.applyDist; simp

/-- A role is in no register. -/
@[simp] theorem Chip.setRole_reg (s : Chip) (b : Nat) (r : Role) (a : Nat) : (s.setRole b r).reg a = s.reg a := by
  unfold Chip.setRole; split <;> rfl

@[simp] theorem Chip.resync_reg (s : Chip) (old new : Distaff) (a : Nat) : (s.resync old new).reg a = s.reg a := by
  unfold Chip.resync Chip.forAll; simp only [List.foldl]; split_ifs <;> simp

/-- A new holder touches no register but `MBX_STATUS`. -/
theorem Chip.newHolder_reg (s : Chip) (h : Nat) (b : Bool) (a : Nat) (ha : a ≠ MBX_STATUS.addr) : (s.newHolder h b).reg a = s.reg a := by
  have k : ∀ c : Chip, ((c.setFlag MBX_STATUS.OPEN false).setFlag MBX_STATUS.QUIESCED false).reg a = c.reg a := fun c => by
    unfold Chip.setFlag; rw [Chip.reg_setFld_other _ _ _ _ ha, Chip.reg_setFld_other _ _ _ _ ha]
  unfold Chip.newHolder; simp only; split_ifs <;> first | exact k s | exact (Chip.setRole_reg ..).trans (k s)

/-- The evaluation's results stand in `GRD_CLAIM_RESULT`. -/
theorem State.applyDist_result (s : State) (o : DistOut) :
    (s.applyDist o).chip.reg GRD_CLAIM_RESULT.addr =
      ((s.chip.claimResult GRD_CLAIM_RESULT.RESULT_A o.resA).claimResult GRD_CLAIM_RESULT.RESULT_B o.resB).reg GRD_CLAIM_RESULT.addr := by
  unfold State.applyDist
  simp only
  rw [(Calm.showDebug _).reg GRD_CLAIM_RESULT.addr (by decide)]
  rw [Chip.resync_reg]
  split_ifs <;> simp only [Chip.newHolder_reg _ _ _ GRD_CLAIM_RESULT.addr (by decide), Chip.raise_reg]

end Sys2Proof.Machine
end

