-- ==== Sys2Proof/Laws/Kept.lean ====
section
/-! SUPPORT. What every operation on the whole state keeps: the queue, the OTP bits that are programmed, a legal distaff and its epoch. -/

namespace Sys2Proof.Machine

set_option linter.unusedSimpArgs false

/-! ### The distaff -/

/-- A distaff that follows another: its epoch is no lower, and it is legal where the other was. -/
def Distaff.follows (d e : Distaff) : Prop := d.epoch ≤ e.epoch ∧ (d.legal = true → e.legal = true)

theorem Distaff.follows_refl (d : Distaff) : d.follows d := ⟨Nat.le_refl _, id⟩

theorem Distaff.follows_trans {a b c : Distaff} (h : a.follows b) (k : b.follows c) : a.follows c :=
  ⟨Nat.le_trans h.1 k.1, fun x => k.2 (h.2 x)⟩

/-- The legal distaff, as arithmetic. -/
theorem Distaff.legal_iff (d : Distaff) :
    d.legal = true ↔ d.holder ≤ 2 ∧ (d.holder = 1 → d.fencedA = false) ∧ (d.holder = 2 → d.fencedB = false) ∧ d.epoch ≤ 0xFFFFFFFF := by
  simp only [Distaff.legal, epochMax, Bool.and_eq_true, decide_eq_true_eq, Bool.not_eq_true', Bool.and_eq_false_iff, beq_eq_false_iff_ne]
  constructor
  · rintro ⟨⟨⟨h1, h2⟩, h3⟩, h4⟩
    exact ⟨h1, fun h => h2.resolve_left (by simp [h]), fun h => h3.resolve_left (by simp [h]), of_decide_eq_true h4⟩
  · rintro ⟨h1, h2, h3, h4⟩
    refine ⟨⟨⟨h1, ?_⟩, ?_⟩, decide_eq_true h4⟩
    · by_cases h : d.holder = 1
      · exact Or.inr (h2 h)
      · exact Or.inl h
    · by_cases h : d.holder = 2
      · exact Or.inr (h3 h)
      · exact Or.inl h

theorem Distaff.follows_released (d : Distaff) : d.follows d.released := by
  refine ⟨Nat.le_refl _, fun h => ?_⟩
  rw [Distaff.legal_iff] at *
  simp [Distaff.released, h.2.2.2]

theorem Distaff.follows_resetOne (d : Distaff) (x : Nat) (hx : x = 1 ∨ x = 2) (r : Bool) : d.follows (d.resetOne x r) := by
  obtain ⟨ho, ep, fa, fb⟩ := d
  rcases hx with rfl | rfl <;>
  · unfold Distaff.resetOne Distaff.setFence Distaff.fenced Distaff.follows
    simp only [Distaff.legal_iff, epochMax]
    split_ifs <;> simp_all

theorem Distaff.follows_resets (d : Distaff) (a b sa sb : Bool) : d.follows (d.resets a b sa sb) := by
  unfold Distaff.resets
  split_ifs
  · exact d.follows_released
  · exact d.follows_resetOne 1 (Or.inl rfl) _
  · exact d.follows_resetOne 2 (Or.inr rfl) _
  · exact d.follows_refl

theorem masterSpindle_cases (m : Master) : masterSpindle m = 0 ∨ masterSpindle m = 1 ∨ masterSpindle m = 2 := by
  cases m <;> simp [masterSpindle]

theorem DistOut.follows_control (o : DistOut) (x : Nat) (hx : x = 0 ∨ x = 1 ∨ x = 2) (v : Word) (r : Bool) :
    o.dist.follows (o.control x v r).dist := by
  obtain ⟨⟨ho, ep, fa, fb⟩, ra, rb, co, ha⟩ := o
  rcases hx with rfl | rfl | rfl <;>
  · unfold DistOut.control Distaff.fenced Distaff.follows
    simp only [Distaff.legal_iff, Bool.and_eq_true, decide_eq_true_eq]
    simp only [epochMax]
    split_ifs <;> simp_all

theorem DistOut.result_dist (o : DistOut) (x : Nat) (r : ClaimResult) : (o.result x r).dist = o.dist := by
  unfold DistOut.result; split <;> rfl

theorem DistOut.follows_win (o : DistOut) (x : Nat) (hx : x = 1 ∨ x = 2) (e : Word) (b : Bool)
    (hf : o.dist.fenced x = false) (he : o.dist.epoch < e.toNat) : o.dist.follows (o.win x e b).dist := by
  have hlt : e.toNat < 2 ^ 32 := e.isLt
  obtain ⟨⟨ho, ep, fa, fb⟩, ra, rb, co, ha⟩ := o
  rcases hx with rfl | rfl <;>
  · unfold DistOut.win DistOut.result Distaff.setFence Distaff.follows
    simp only [Distaff.legal_iff, Distaff.fenced] at *
    split_ifs <;> simp_all <;> omega

theorem DistOut.follows_claims (o : DistOut) (a b : Option Word) : o.dist.follows (o.claims a b).dist := by
  have key : ∀ (x : Nat) (c : Option Word), (o.dist.validClaim x c = true) → o.dist.fenced x = false ∧ o.dist.epoch < (c.getD 0).toNat := by
    intro x c h
    cases c with
    | none => simp [Distaff.validClaim] at h
    | some e => simpa [Distaff.validClaim] using h
  unfold DistOut.claims
  simp only
  have hr : ∀ (o' : DistOut), o'.dist = o.dist → ∀ (x : Nat) (c : Option Word) (q : Bool), (x = 1 ∨ x = 2) →
      (o.dist.validClaim x c = true) → o.dist.follows (o'.win x (c.getD 0) q).dist := by
    intro o' ho x c q hx hv
    have := key x c hv
    rw [← ho] at this ⊢
    exact o'.follows_win x hx _ q this.1 this.2
  have h2 : ∀ (p q : Bool), (if q = true then (if p = true then o.result 1 .stale else o).result 2 .stale
      else (if p = true then o.result 1 .stale else o)).dist = o.dist := by
    intro p q; cases p <;> cases q <;> simp [DistOut.result_dist]
  split_ifs
  all_goals first
    | exact hr _ (by simp [DistOut.result_dist]) 1 a _ (Or.inl rfl) (by simp_all)
    | exact hr _ (by simp [DistOut.result_dist]) 2 b _ (Or.inr rfl) (by simp_all)
    | (simp [DistOut.result_dist, Distaff.follows_refl])

/-- One evaluation of the distaff. -/
theorem follows_evalDistaff (d : Distaff) (a b : Bool) (c : DistCycle) : d.follows (evalDistaff d a b c).dist := by
  unfold evalDistaff
  simp only
  refine Distaff.follows_trans ?_ (DistOut.follows_claims _ _ _)
  refine Distaff.follows_trans (d.follows_resets c.resetA c.resetB (a && !c.resetA) (b && !c.resetB)) ?_
  split
  · exact Distaff.follows_refl _
  · rename_i m v _
    exact DistOut.follows_control ⟨_, none, none, false, false⟩ _ (masterSpindle_cases m) _ _

/-! ### The whole state -/

/-- OTP as it may go on: bits are only programmed. -/
structure Otp.follows (a b : Otp) : Prop where
  lifecycle : a.lifecycle ≤ b.lifecycle
  unitId : b.unitId = a.unitId
  coreTarget : b.coreTarget = a.coreTarget
  coreFused : b.coreFused = a.coreFused
  ownerKey : ∀ k, a.ownerKey = some k → b.ownerKey = some k
  keyKilled : a.keyKilled = true → b.keyKilled = true

theorem Otp.follows_refl (a : Otp) : a.follows a := ⟨Nat.le_refl _, rfl, rfl, rfl, fun _ h => h, fun h => h⟩

theorem Otp.follows_trans {a b c : Otp} (h : a.follows b) (k : b.follows c) : a.follows c :=
  ⟨Nat.le_trans h.1 k.1, k.2.trans h.2, k.3.trans h.3, k.4.trans h.4, fun x e => k.5 x (h.5 x e), fun e => k.6 (h.6 e)⟩

/-- What every operation but a power-on reset keeps of the state. -/
structure Kept (s t : State) : Prop where
  pending : t.pending = s.pending
  fuse : s.fuse.follows t.fuse
  dist : s.dist.follows t.dist

theorem Kept.refl (s : State) : Kept s s := ⟨rfl, Otp.follows_refl _, Distaff.follows_refl _⟩

theorem Kept.trans {s t u : State} (h : Kept s t) (k : Kept t u) : Kept s u :=
  ⟨k.1.trans h.1, Otp.follows_trans h.2 k.2, Distaff.follows_trans h.3 k.3⟩

theorem Kept.chip (s : State) (c : Chip) : Kept s { s with chip := c } := ⟨rfl, Otp.follows_refl _, Distaff.follows_refl _⟩

theorem Kept.onChip (s : State) (f : Chip → Chip) : Kept s (s.onChip f) := Kept.chip s _

theorem Kept.ite {s t u : State} (c : Prop) [Decidable c] (ht : Kept s t) (hu : Kept s u) : Kept s (if c then t else u) := by
  split <;> assumption

theorem Kept.foldl {α : Type} (l : List α) (f : State → α → State) (hf : ∀ s x, Kept s (f s x)) (s : State) :
    Kept s (l.foldl f s) := by
  induction l generalizing s with
  | nil => exact Kept.refl s
  | cons x l ih => exact (hf s x).trans (ih (f s x))

/-- An evaluation that takes effect after a change of the part. -/
theorem Kept.applyEval (s : State) (f : Chip → Chip) (a b : Bool) (c : DistCycle) :
    Kept s ((s.onChip f).applyDist (evalDistaff s.dist a b c)) :=
  ⟨by simp [State.onChip], by simp [State.onChip, Otp.follows_refl], by simpa using follows_evalDistaff s.dist a b c⟩

theorem Kept.distCycle (s : State) (c : DistCycle) : Kept s (s.distCycle c) := Kept.applyEval s id _ _ _

theorem Kept.rowWrite (s : State) (m : Master) (a : Nat) (f : State → State) (hf : ∀ u, Kept u (f u)) :
    Kept s (s.rowWrite m a f) := by
  unfold State.rowWrite
  split
  · exact Kept.refl s
  · split
    · exact Kept.chip s _
    · exact (Kept.chip s _).trans (hf _)

theorem clearFence_follows (d : Distaff) (m : Master) (v : Word) : d.follows (clearFence d m v) := by
  unfold clearFence Distaff.follows
  cases m <;> simp only <;> (try split) <;> simp [Distaff.legal_iff] <;> tauto

theorem Kept.clearFence (s : State) (m : Master) (v : Word) : Kept s { s with dist := clearFence s.dist m v } :=
  ⟨rfl, Otp.follows_refl _, clearFence_follows _ _ _⟩

theorem Kept.rebootBy (s : State) (b : Nat) (f : Chip → Chip) : Kept s (s.rebootBy b f) := Kept.applyEval s _ _ _ _

theorem Kept.restart (s : State) (o k : Nat) : Kept s (s.restart o k) := Kept.rebootBy s _ _

theorem Kept.restartLike (s : State) (o : Nat) : Kept s (s.restartLike o) := Kept.rebootBy s _ _

theorem Kept.spnCtrl (s : State) (m : Master) (v : Word) : Kept s (s.spnCtrl m v) :=
  Kept.ite _ (Kept.restart s _ _) (Kept.refl s)

theorem Kept.updateFailed (s : State) (u : Update) : Kept s (s.updateFailed u) := (Kept.onChip s _).trans (Kept.restartLike _ _)

theorem Kept.watchdog (s : State) (x : Spindle) (also : DistCycle) : Kept s (s.watchdog x also) := by
  unfold State.watchdog
  simp only
  have h := fun f d => Kept.applyEval s f (s.standby 0) (s.standby 1) d
  split
  · exact h _ _
  · exact Kept.ite _ ((h _ _).trans (Kept.updateFailed _ _)) (h _ _)

/-! ### Resets -/

theorem Kept.chipReset (s : State) (r : ResetSource) (k : Option Nat) : Kept s (s.chipReset r k) :=
  ⟨rfl, Otp.follows_refl _, s.dist.follows_released⟩

/-- A reset that is not a power-on reset. -/
theorem Kept.resetBy (s : State) (r : ResetSource) (also : List ResetSource) (k v : Nat) (hw : widest r also ≠ .por) :
    Kept s (s.resetBy r also k v) := by
  unfold State.resetBy
  refine Kept.trans ?_ (Kept.onChip _ _)
  cases h : widest r also with
  | por => exact absurd h hw
  | pin => exact Kept.chipReset s _ _
  | soft => exact Kept.chipReset s _ _
  | supply => exact ⟨rfl, Otp.follows_refl _, s.dist.follows_released⟩
  | whorl => exact ⟨rfl, Otp.follows_refl _, s.dist.follows_released⟩
  | watchdogA => exact Kept.refl s
  | watchdogB => exact Kept.refl s

/-- The widest of sources without a power-on reset is none. -/
theorem widest_ne_por (r : ResetSource) (l : List ResetSource) (hr : r ≠ .por) (hl : ∀ x ∈ l, x ≠ .por) : widest r l ≠ .por := by
  unfold widest
  induction l generalizing r with
  | nil => exact hr
  | cons x l ih =>
    refine ih _ ?_ (fun y hy => hl y (List.mem_cons_of_mem _ hy))
    dsimp only
    split
    · exact hl x (by simp)
    · exact hr

/-- A power-on reset is the widest of all. -/
theorem widest_por (l : List ResetSource) : widest .por l = .por := by
  unfold widest
  induction l with
  | nil => rfl
  | cons x l ih => cases x <;> exact ih

theorem Kept.softReset (s : State) (v : Word) (also : List ResetSource) : Kept s (s.softReset v also) :=
  Kept.ite _ (Kept.resetBy s _ _ _ _ (widest_ne_por _ _ (by decide) (by simp; intros; simp_all))) (Kept.refl s)

/-! ### Power -/

theorem Kept.leave (s : State) (d : Nat) (go : Chip → Chip) : Kept s (s.leave d go) := by
  have h := Kept.applyEval s go (s.standby 0) (s.standby 1) (resetCycle (d - 1))
  unfold State.leave
  exact Kept.ite _ (Kept.ite _ (h.trans (Kept.onChip _ _)) h) (Kept.onChip s go)

theorem Kept.grpCommit (s : State) (g : GrpReq) : Kept s (s.grpCommit g) := by
  unfold State.grpCommit
  refine Kept.trans (Kept.foldl _ _ (fun s d => ?_) s) (Kept.onChip _ _)
  exact Kept.leave s d _

theorem Kept.grpNext (s : State) (g : GrpReq) : Kept s (s.grpNext g) := by
  unfold State.grpNext
  split
  · exact Kept.grpCommit s g
  · exact Kept.onChip s _

theorem Kept.groupRequest (s : State) (mask target rq : Nat) (src : Option CmdSrc) : Kept s (s.groupRequest mask target rq src).1 := by
  unfold State.groupRequest
  split
  · dsimp only
    with_reducible exact Kept.onChip s _
  · dsimp only
    split
    · split
      · dsimp only
        with_reducible exact Kept.onChip s _
      · dsimp only
        with_reducible exact Kept.onChip s _
    · refine Kept.trans ?_ (Kept.grpNext _ _)
      with_reducible refine Kept.ite _ ?_ ?_
      · exact Kept.refl s
      · with_reducible exact Kept.onChip s _

theorem Kept.grpWrite (s : State) (rq : Nat) (v : Word) : Kept s (s.grpWrite rq v) :=
  Kept.ite _ (Kept.refl s) (Kept.groupRequest s _ _ _ _)

theorem Kept.blackout (s : State) : Kept s s.blackout := by
  unfold State.blackout
  refine Kept.trans (Kept.trans (Kept.onChip s Chip.cutGroup) (Kept.foldl _ _ (fun s d => ?_) _)) (Kept.onChip _ _)
  exact Kept.ite _ (Kept.refl s) (Kept.leave s d _)

theorem Kept.lpEnter (s : State) (m : Master) (v : Word) : Kept s (s.lpEnter m v) :=
  Kept.ite _ ((Kept.blackout s).trans (Kept.onChip _ _)) (Kept.refl s)

/-! ### Memories, tests, limits -/

theorem Kept.eccReact (s : State) (m : MemId) (i : Nat) : Kept s (s.eccReact m i) := by
  unfold State.eccReact
  split
  · exact Kept.ite _ (Kept.rebootBy s _ _) (Kept.refl s)
  · exact Kept.onChip s _
  · exact Kept.onChip s _
  · exact Kept.onChip s _
  · exact Kept.onChip s _
  · exact Kept.refl s

theorem Kept.scrub (s : State) : Kept s s.scrub := by
  unfold State.scrub
  split
  · with_reducible refine Kept.ite _ (Kept.refl s) ?_
    with_reducible exact Kept.onChip s _
  · rename_i k _
    dsimp only
    generalize hc : ({ s with chip := _ } : State) = s1
    have h1 : Kept s s1 := by rw [← hc]; exact Kept.chip s _
    generalize hu : (if (s.chip.readGran (scrubTarget k).1 (scrubTarget k).2).2.isNone = true then
      s1.eccReact (scrubTarget k).1 (scrubTarget k).2 else s1) = s2
    have h2 : Kept s s2 := by
      rw [← hu]
      with_reducible refine Kept.ite _ ?_ h1
      exact h1.trans (Kept.eccReact _ _ _)
    with_reducible refine Kept.ite _ ?_ h2
    exact h2.trans (Kept.onChip _ _)

theorem Kept.doffSram (s : State) (q : Nat) (p : Bool) : Kept s (s.doffSram q p) := by
  unfold State.doffSram
  with_reducible refine Kept.ite _ (Kept.refl s) ?_
  dsimp only
  with_reducible refine Kept.ite _ ?_ (Kept.onChip s _)
  exact (Kept.onChip s _).trans (Kept.rebootBy _ _ _)

theorem Kept.doffTarget (s : State) (cls i : Nat) (p l : Bool) : Kept s (s.doffTarget cls i p l) := by
  unfold State.doffTarget
  split
  all_goals first
    | (with_reducible exact Kept.onChip s _)
    | (with_reducible exact Kept.doffSram s _ _)
    | (with_reducible exact Kept.ite _ (Kept.refl s) (Kept.onChip s _))
    | (with_reducible exact Kept.refl s)

theorem Kept.activateLimit (s : State) (e : ExecCmd) : Kept s (s.activateLimit e) := by
  unfold State.activateLimit
  split
  · exact Kept.refl s
  · dsimp only
    with_reducible refine Kept.ite _ (Kept.refl s) ?_
    refine Kept.trans (Kept.trans ?_ (Kept.restartLike _ _)) (Kept.onChip _ _)
    with_reducible exact Kept.onChip s _

theorem Kept.runningLimit (s : State) (e : ExecCmd) : Kept s (s.runningLimit e) := by
  unfold State.runningLimit
  split
  all_goals first
    | (with_reducible exact Kept.onChip s _)
    | (with_reducible exact Kept.activateLimit s _)
    | (with_reducible exact Kept.refl s)

/-! ### The fabric -/

theorem Kept.writeMbx (s : State) (p : Party) (a off : Nat) (v : Word) : Kept s (s.writeMbx p a off v).1 := by
  unfold State.writeMbx
  split
  · dsimp only
    with_reducible refine Kept.ite _ ?_ ?_
    · exact Kept.chip s _
    · exact (Kept.chip s _).trans (Kept.eccReact _ _ _)
  · dsimp only
    with_reducible exact Kept.onChip s _

theorem Kept.writePmu (s : State) (p : Party) (a off : Nat) (v : Word) : Kept s (s.writePmu p a off v) := by
  unfold State.writePmu
  with_reducible refine Kept.ite _ (Kept.grpWrite s _ _) ?_
  with_reducible refine Kept.ite _ (Kept.lpEnter s _ _) ?_
  with_reducible exact Kept.ite _ (Kept.onChip s _) (Kept.onChip s _)

theorem Kept.writeGrd (s : State) (p : Party) (a off : Nat) (v : Word) : Kept s (s.writeGrd p a off v) := by
  unfold State.writeGrd
  dsimp only
  with_reducible refine Kept.ite _ (Kept.clearFence s _ _) ?_
  with_reducible refine Kept.ite _ (Kept.distCycle s _) ?_
  with_reducible refine Kept.ite _ (Kept.distCycle s _) ?_
  with_reducible refine Kept.ite _ (Kept.spnCtrl s _ _) ?_
  with_reducible refine Kept.ite _ (Kept.onChip s _) ?_
  with_reducible refine Kept.ite _ (Kept.onChip s _) ?_
  with_reducible exact Kept.ite _ (Kept.onChip s _) (Kept.onChip s _)

theorem Kept.writeTt (s : State) (n i : Nat) (v : Word) : Kept s (s.writeTt n i v).1 := by
  unfold State.writeTt
  dsimp only
  split
  · exact Kept.chip s _
  · exact Kept.chip s _

theorem Kept.writeReg (s : State) (p : Party) (b : Blk) (a : Nat) (v : Word) : Kept s (s.writeReg p b a v).1 := by
  unfold State.writeReg
  dsimp only
  split
  · dsimp only
    with_reducible exact Kept.ite _ (Kept.softReset s _ _) (Kept.onChip s _)
  · exact Kept.writeMbx s _ _ _ _
  · dsimp only
    with_reducible exact Kept.ite _ (Kept.onChip s _) (Kept.refl s)
  · dsimp only
    with_reducible exact Kept.writePmu s _ _ _ _
  · dsimp only
    with_reducible exact Kept.writeGrd s _ _ _ _
  all_goals first
    | (dsimp only; with_reducible exact Kept.refl s)
    | (dsimp only; with_reducible exact Kept.onChip s _)
    | (dsimp only; with_reducible exact Kept.ite _ (Kept.onChip s _) (Kept.refl s))
    | (dsimp only; with_reducible exact Kept.ite _ (Kept.onChip s _) (Kept.ite _ (Kept.onChip s _) (Kept.refl s)))
    | skip
  split_ifs
  · dsimp only
    with_reducible exact Kept.onChip s _
  · exact Kept.refl s
  · exact Kept.writeTt s _ _ _
  · dsimp only
    with_reducible exact Kept.onChip s _

theorem Kept.writeMem (s : State) (p : Party) (m : MemId) (off a : Nat) (v : Word) : Kept s (s.writeMem p m off a v).1 := by
  unfold State.writeMem
  split
  · exact (Kept.chip s _).trans (Kept.ite _ (Kept.refl _) (Kept.eccReact _ _ _))
  · exact Kept.refl s

theorem Kept.storeWord (s : State) (p : Party) (a w : Nat) (v : Word) : Kept s (s.storeWord p a w v).1 := by
  unfold State.storeWord
  split
  · exact Kept.refl s
  · split
    · exact Kept.writeReg s _ _ _ _
    · exact Kept.writeMem s _ _ _ _ _
    · exact Kept.writeReg s _ _ _ _

theorem Kept.readReg (s : State) (p : Party) (b : Blk) (a : Nat) (c : Bool) : Kept s (s.readReg p b a c).1 := by
  unfold State.readReg
  simp only
  split
  · exact Kept.chip s _
  · split
    · exact Kept.chip s _
    · split
      · exact Kept.chip s _
      · exact Kept.ite _ (Kept.chip s _) (Kept.refl s)

theorem Kept.loadWord (s : State) (p : Party) (a w : Nat) : Kept s (s.loadWord p a w).1 := by
  unfold State.loadWord
  split
  · exact Kept.refl s
  · split
    · exact (Kept.chip s _).trans (Kept.ite _ (Kept.refl _) (Kept.eccReact _ _ _))
    · exact Kept.readReg s _ _ _ _

theorem Kept.busWrite (s : State) (m : Master) (i : Bool) (a w : Nat) (v : Word) : Kept s (s.busWrite m i a w v) :=
  Kept.ite _ ((Kept.storeWord s _ _ _ _).trans (Kept.onChip _ _)) (Kept.refl s)

theorem Kept.busRead (s : State) (m : Master) (i : Bool) (a w : Nat) : Kept s (s.busRead m i a w) :=
  Kept.ite _ ((Kept.loadWord s _ _ _).trans (Kept.onChip _ _)) (Kept.refl s)

theorem Kept.busAccess (s : State) (x : BusAccess) : Kept s (s.busAccess x) := by
  unfold State.busAccess
  split
  · exact Kept.busRead _ _ _ _ _
  · exact Kept.busWrite _ _ _ _ _ _

/-- The accesses of a cycle. -/
theorem Kept.fabricCycle (s : State) (l : List BusAccess) : Kept s (s.fabricCycle l) := Kept.foldl _ _ Kept.busAccess s

/-- A cycle with one access. -/
theorem State.fabricCycle_one (s : State) (x : BusAccess) : s.fabricCycle [x] = s.busAccess x := by
  have h : cycleOrder [x] = [x] := by
    cases hf : freezesCounts x <;> obtain ⟨m, i, a, w, v⟩ := x <;> cases m <;> cases v <;> simp [cycleOrder, fabricOrder, hf]
  unfold State.fabricCycle; rw [h]; rfl

theorem Kept.dmaLoad (s : State) (p : Party) (a : Nat) : Kept s (s.dmaLoad p a).1 := by
  unfold State.dmaLoad
  split
  · split
    · exact Kept.refl s
    · exact (Kept.chip s _).trans (Kept.ite _ (Kept.refl _) (Kept.eccReact _ _ _))
  · simp only
    split
    · exact Kept.loadWord s _ _ _
    · exact (Kept.loadWord s _ _ _).trans (Kept.loadWord _ _ _ _)

theorem Kept.dmaStore (s : State) (p : Party) (a : Nat) (g : BitVec 64) : Kept s (s.dmaStore p a g).1 := by
  unfold State.dmaStore
  split
  · split
    · exact Kept.refl s
    · exact Kept.ite _ (Kept.onChip s _) (Kept.refl s)
  · simp only
    split
    · exact (Kept.storeWord s _ _ _ _).trans (Kept.storeWord _ _ _ _ _)
    · exact Kept.storeWord s _ _ _ _

theorem Kept.dmaReadBeat (s : State) (prio n : Nat) : Kept s (s.dmaReadBeat prio n) := by
  unfold State.dmaReadBeat
  dsimp only
  refine Kept.trans (Kept.trans ?_ (Kept.dmaLoad _ _ _)) (Kept.onChip _ _)
  with_reducible exact Kept.onChip s _

theorem Kept.dmaWriteBeat (s : State) (prio n : Nat) : Kept s (s.dmaWriteBeat prio n) := by
  unfold State.dmaWriteBeat
  dsimp only
  exact (Kept.dmaStore s _ _ _).trans (Kept.onChip _ _)

theorem Kept.dmaBeat (s : State) : Kept s s.dmaBeat := by
  unfold State.dmaBeat
  split
  · exact Kept.refl s
  · split
    · exact Kept.refl s
    · split
      · exact Kept.dmaReadBeat s _ _
      · exact Kept.dmaWriteBeat s _ _

end Sys2Proof.Machine
end

