-- ==== Sys2Proof/Laws/Exec.lean ====
section
/-! SUPPORT. Every command answers a next state that keeps the queue, the programmed OTP bits and a legal distaff; a power-on reset clears
the distaff. -/

namespace Sys2Proof.Machine

set_option linter.unusedSimpArgs false

/-- A command whose effect lies in the part alone. -/
theorem kept_chipNext (s : State) (f : Chip → Chip) : ∃ t, chipNext s f = .next t ∧ Kept s t := ⟨_, rfl, Kept.onChip s f⟩

/-- A command with an effect on the whole state. -/
theorem kept_next (s t : State) (h : Kept s t) : ∃ u, (Host.Outcome.next t : Host.Outcome State Fault Refusal) = .next u ∧ Kept s u :=
  ⟨t, rfl, h⟩

theorem kept_execResetN (straps : Fin 8) (also : List ResetSource) (s : State) : ∃ t, execResetN straps also s = .next t ∧ Kept s t := by
  unfold execResetN
  exact kept_next s _ (Kept.resetBy s _ _ _ _ (widest_ne_por _ _ (by decide) (by intro x hx; simpa using (List.mem_filter.1 hx).2)))

theorem kept_execSoftwareChipReset (m : Master) (v : Word) (also : List ResetSource) (s : State) : ∃ t, execSoftwareChipReset m v also s = .next t ∧ Kept s t := by
  unfold execSoftwareChipReset
  exact kept_next s _ (Kept.rowWrite s _ _ _ (fun u => Kept.softReset u _ _))

theorem kept_execCoreSupplyLoss (also : List ResetSource) (s : State) : ∃ t, execCoreSupplyLoss also s = .next t ∧ Kept s t := by
  unfold execCoreSupplyLoss
  exact kept_next s _ (Kept.ite _ (Kept.resetBy s _ _ _ _ (widest_ne_por _ _ (by decide) (by intro x hx h; subst h; simp [resetRank] at hx))) (Kept.refl s))

theorem kept_execWhorlRestart (also : List ResetSource) (s : State) : ∃ t, execWhorlRestart also s = .next t ∧ Kept s t := by
  unfold execWhorlRestart
  exact kept_next s _ (Kept.ite _ (Kept.resetBy s _ _ _ _ (widest_ne_por _ _ (by decide) (by intro x hx h; subst h; simp [resetRank] at hx))) (Kept.refl s))

theorem kept_execSpindleWatchdog (x : Spindle) (also : DistCycle) (s : State) : ∃ t, execSpindleWatchdog x also s = .next t ∧ Kept s t := by
  unfold execSpindleWatchdog
  exact kept_next s _ (Kept.ite _ (Kept.ite _ ((Kept.watchdog s _ _).trans (Kept.onChip _ _)) (Kept.ite _ ((Kept.watchdog s _ _).trans (Kept.onChip _ _)) (Kept.watchdog s _ _))) (Kept.refl s))

theorem kept_execWdtKick (m : Master) (_v : Word) (s : State) : ∃ t, execWdtKick m _v s = .next t ∧ Kept s t := by
  unfold execWdtKick
  exact kept_next s _ (Kept.rowWrite s _ _ _ (fun u => Kept.refl u))

theorem kept_execKrelinStart (s : State) : ∃ t, execKrelinStart s = .next t ∧ Kept s t := by
  unfold execKrelinStart
  refine kept_next s _ ?_
  with_reducible refine Kept.ite _ ?_ (Kept.refl s)
  exact ((Kept.onChip s _).trans (Kept.distCycle _ _)).trans (Kept.onChip _ _)

theorem kept_execClaim (m : Master) (e : Word) (also : DistCycle) (s : State) : ∃ t, execClaim m e also s = .next t ∧ Kept s t := by
  unfold execClaim
  exact kept_next s _ (Kept.rowWrite s _ _ _ (fun u => Kept.distCycle u _))

theorem kept_execRelease (m : Master) (v : Word) (also : DistCycle) (s : State) : ∃ t, execRelease m v also s = .next t ∧ Kept s t := by
  unfold execRelease
  exact kept_next s _ (Kept.rowWrite s _ _ _ (fun u => Kept.distCycle u _))

theorem kept_execHandover (m : Master) (v : Word) (also : DistCycle) (s : State) : ∃ t, execHandover m v also s = .next t ∧ Kept s t := by
  unfold execHandover
  exact kept_next s _ (Kept.rowWrite s _ _ _ (fun u => Kept.distCycle u _))

theorem kept_execFenceClear (m : Master) (v : Word) (also : DistCycle) (s : State) : ∃ t, execFenceClear m v also s = .next t ∧ Kept s t := by
  unfold execFenceClear
  exact kept_next s _ (Kept.rowWrite s _ _ _ (fun u => (Kept.distCycle u _).trans (Kept.clearFence _ _ _)))

theorem kept_execSpindleRestart (m : Master) (v : Word) (s : State) : ∃ t, execSpindleRestart m v s = .next t ∧ Kept s t := by
  unfold execSpindleRestart
  exact kept_next s _ (Kept.rowWrite s _ _ _ (fun u => Kept.spnCtrl u _ _))

theorem kept_execHolderlessClaim (a b : Bool) (s : State) : ∃ t, execHolderlessClaim a b s = .next t ∧ Kept s t := by
  unfold execHolderlessClaim
  exact kept_next s _ (Kept.ite _ (Kept.distCycle s _) (Kept.refl s))

theorem kept_execProbationEnd (s : State) : ∃ t, execProbationEnd s = .next t ∧ Kept s t := by
  unfold execProbationEnd
  refine kept_next s _ ?_
  split
  · exact Kept.refl s
  · with_reducible refine Kept.ite _ ?_ (Kept.refl s)
    exact (Kept.onChip s _).trans (Kept.restart _ _ _)

theorem kept_execPwrSet (src : CmdSrc) (s : State) : ∃ t, execPwrSet src s = .next t ∧ Kept s t := by
  unfold execPwrSet
  refine kept_next s _ ?_
  split
  · exact Kept.chip s _
  · rename_i c r _
    refine (Kept.chip s c).trans ?_
    dsimp only
    with_reducible refine Kept.ite _ (Kept.onChip _ _) ?_
    with_reducible refine Kept.ite _ ?_ ?_
    · exact (Kept.groupRequest _ _ _ _ _).trans (Kept.onChip _ _)
    · exact (Kept.onChip _ _).trans (Kept.groupRequest _ _ _ _ _)

theorem kept_execLifecycleAdvance (src : CmdSrc) (lasting : Bool) (s : State) : ∃ t, execLifecycleAdvance src lasting s = .next t ∧ Kept s t := by
  unfold execLifecycleAdvance
  refine kept_next s _ ?_
  split
  · exact Kept.chip s _
  · rename_i c r _
    refine (Kept.chip s c).trans ?_
    dsimp only
    split
    · with_reducible exact Kept.onChip _ _
    · rename_i hs
      have h : Kept { s with chip := c } (State.advance { s with chip := c } (byteAt r.payload 0)) := by
        have ht : byteAt r.payload 0 = s.fuse.lifecycle + 1 := by
          unfold State.advanceStatus at hs
          dsimp only at hs
          split at hs
          · cases hs
          · rename_i hn
            exact Decidable.byContradiction (fun hc => hn (Or.inl hc))
        refine ⟨rfl, ⟨?_, rfl, rfl, rfl, fun _ e => e, fun e => ?_⟩, Distaff.follows_refl _⟩
        · show s.fuse.lifecycle ≤ byteAt r.payload 0
          omega
        · show (s.fuse.keyKilled || _) = true
          have e : s.fuse.keyKilled = true := e
          simp [e]
      with_reducible refine Kept.ite _ ?_ ?_
      · exact h.trans (Kept.onChip _ _)
      · exact h.trans (Kept.onChip _ _)

theorem kept_execReturnedReset (s : State) : ∃ t, execReturnedReset s = .next t ∧ Kept s t := by
  unfold execReturnedReset
  refine kept_next s _ ?_
  with_reducible refine Kept.ite _ ?_ (Kept.refl s)
  exact (Kept.onChip s _).trans (Kept.chipReset _ _ _)

theorem kept_execOwnerKeySet (src : CmdSrc) (lasting : Bool) (s : State) : ∃ t, execOwnerKeySet src lasting s = .next t ∧ Kept s t := by
  unfold execOwnerKeySet
  refine kept_next s _ ?_
  split
  · exact Kept.chip s _
  · rename_i c r _
    refine (Kept.chip s c).trans ?_
    dsimp only
    split
    · with_reducible exact Kept.onChip _ _
    · rename_i hn
      with_reducible refine Kept.ite _ (Kept.onChip _ _) ?_
      refine Kept.trans (t := { s with fuse := { s.fuse with ownerKey := some r.payload, digestOk := true }, chip := c })
        ⟨rfl, ⟨Nat.le_refl _, rfl, rfl, rfl, fun k hk => ?_, id⟩, Distaff.follows_refl _⟩ (Kept.onChip _ _)
      have hk : s.fuse.ownerKey = some k := hk
      exact absurd (Or.inr (by simp [hk])) hn

theorem kept_execFwActivate (src : CmdSrc) (s : State) : ∃ t, execFwActivate src s = .next t ∧ Kept s t := by
  unfold execFwActivate
  refine kept_next s _ ?_
  split
  · exact Kept.chip s _
  · rename_i c r _
    refine (Kept.chip s c).trans ?_
    dsimp only
    with_reducible refine Kept.ite _ (Kept.onChip _ _) ?_
    exact (Kept.onChip _ _).trans (Kept.restart _ _ _)

theorem kept_execDoffRun (src : CmdSrc) (result : Option (BitVec 32 × BitVec 8)) (s : State) : ∃ t, execDoffRun src result s = .next t ∧ Kept s t := by
  unfold execDoffRun
  refine kept_next s _ ?_
  split
  · exact Kept.chip s _
  · rename_i c r _
    refine (Kept.chip s c).trans ?_
    dsimp only
    split
    · with_reducible exact Kept.onChip _ _
    · refine Kept.trans (Kept.trans ?_ (Kept.doffTarget _ _ _ _ _)) (Kept.onChip _ _)
      with_reducible exact Kept.ite _ (Kept.onChip _ _) (Kept.refl _)

theorem kept_execScrubStep (s : State) : ∃ t, execScrubStep s = .next t ∧ Kept s t := by
  unfold execScrubStep
  exact kept_next s _ (Kept.ite _ (Kept.refl s) (Kept.scrub s))

theorem kept_execDmaBeat (s : State) : ∃ t, execDmaBeat s = .next t ∧ Kept s t := by
  unfold execDmaBeat
  exact kept_next s _ (Kept.dmaBeat s)

theorem kept_execGroupRequest (m : Master) (v : Word) (s : State) : ∃ t, execGroupRequest m v s = .next t ∧ Kept s t := by
  unfold execGroupRequest
  exact kept_next s _ (Kept.rowWrite s _ _ _ (fun u => Kept.grpWrite u _ _))

theorem kept_execQuiesceVote (inTime : Bool) (s : State) : ∃ t, execQuiesceVote inTime s = .next t ∧ Kept s t := by
  unfold execQuiesceVote
  refine kept_next s _ ?_
  split
  · exact Kept.refl s
  · split
    · exact Kept.refl s
    · with_reducible exact Kept.ite _ (Kept.onChip s _) (Kept.grpNext s _)

theorem kept_execLowPowerEnter (m : Master) (v : Word) (s : State) : ∃ t, execLowPowerEnter m v s = .next t ∧ Kept s t := by
  unfold execLowPowerEnter
  exact kept_next s _ (Kept.rowWrite s _ _ _ (fun u => Kept.lpEnter u _ _))

theorem kept_execShutdownList (found : List DoffEntry) (s : State) : ∃ t, execShutdownList found s = .next t ∧ Kept s t := by
  unfold execShutdownList
  refine kept_next s _ ?_
  with_reducible refine Kept.ite _ ?_ (Kept.refl s)
  dsimp only
  refine Kept.trans (Kept.foldl _ _ (fun s p => ?_) s) (Kept.onChip _ _)
  exact Kept.doffTarget s _ _ _ _

theorem kept_execThermalSample (v : Vector (Option Int) 14) (s : State) : ∃ t, execThermalSample v s = .next t ∧ Kept s t := by
  unfold execThermalSample
  dsimp only
  split
  · exact kept_next s _ (Kept.chip s _)
  · exact kept_next s _ ((Kept.chip s _).trans (Kept.blackout _))

theorem kept_execRegisterWrite (m : Master) (i3c : Bool) (a : BitVec 24) (width : Nat) (v : Word) (also : List BusAccess) (s : State) :
    ∃ t, execRegisterWrite m i3c a width v also s = .next t ∧ Kept s t := kept_next s _ (Kept.fabricCycle s _)

theorem kept_execCommandTimeLimit (o : Overdue) (s : State) : ∃ t, execCommandTimeLimit o s = .next t ∧ Kept s t := by
  unfold execCommandTimeLimit
  refine kept_next s _ ?_
  split
  · split
    · exact Kept.refl s
    · exact Kept.runningLimit s _
  · with_reducible exact Kept.onChip s _

theorem kept_execReadToClear (m : Master) (i3c : Bool) (a : BitVec 24) (width : Nat) (also : List BusAccess) (s : State) :
    ∃ t, execReadToClear m i3c a width also s = .next t ∧ Kept s t := kept_next s _ (Kept.fabricCycle s _)

/-- A power-on reset keeps the queue and OTP, and the distaff after it is that of POR. -/
theorem kept_por (straps : Fin 8) (supplies : Fin 32) (also : List ResetSource) (s : State) :
    ∃ t, execPowerOnReset straps supplies also s = .next t ∧ t.pending = s.pending ∧ t.fuse = s.fuse ∧ t.dist = ⟨0, 0, false, false⟩ := by
  refine ⟨_, rfl, ?_⟩
  unfold State.resetBy
  rw [widest_por]
  exact ⟨rfl, rfl, rfl⟩

/-- Every command but a power-on reset keeps what `Kept` says. -/
theorem exec_kept (i : Instr) (s : State) :
    (∃ a b c, i = .powerOnReset a b c) ∨ ∃ t, exec i s = .next t ∧ Kept s t := by
  cases i with
  | powerOnReset a b c => exact Or.inl ⟨a, b, c, rfl⟩
  | resetN straps also => exact Or.inr (kept_execResetN straps also s)
  | softwareChipReset m v also => exact Or.inr (kept_execSoftwareChipReset m v also s)
  | coreSupplyLoss also => exact Or.inr (kept_execCoreSupplyLoss also s)
  | whorlRestart also => exact Or.inr (kept_execWhorlRestart also s)
  | jtagTapReset => exact Or.inr (kept_chipNext s _)
  | spindleWatchdog x also => exact Or.inr (kept_execSpindleWatchdog x also s)
  | wdtKick m v => exact Or.inr (kept_execWdtKick m v s)
  | holdover => exact Or.inr (kept_chipNext s _)
  | refclkReturn _ => exact Or.inr (kept_chipNext s _)
  | whorlRecovered => exact Or.inr (kept_chipNext s _)
  | whorlLock => exact Or.inr (kept_chipNext s _)
  | rdyReg => exact Or.inr (kept_chipNext s _)
  | doffRecordSelect => exact Or.inr (kept_chipNext s _)
  | startUpCheck _ => exact Or.inr (kept_chipNext s _)
  | selectImage => exact Or.inr (kept_chipNext s _)
  | krelinStart => exact Or.inr (kept_execKrelinStart  s)
  | coreVoltageCheck _ _ => exact Or.inr (kept_chipNext s _)
  | portDomainsUp _ => exact Or.inr (kept_chipNext s _)
  | trafficReady => exact Or.inr (kept_chipNext s _)
  | analogSupplyLoss _ _ => exact Or.inr (kept_chipNext s _)
  | analogSupplyRestored _ _ _ => exact Or.inr (kept_chipNext s _)
  | hqUnlock _ => exact Or.inr (kept_chipNext s _)
  | hqRelock _ _ => exact Or.inr (kept_chipNext s _)
  | hostLos _ => exact Or.inr (kept_chipNext s _)
  | hostSignalReturn _ => exact Or.inr (kept_chipNext s _)
  | hostRelock _ => exact Or.inr (kept_chipNext s _)
  | hostWatchExpiry _ _ => exact Or.inr (kept_chipNext s _)
  | twistHFrame _ _ _ => exact Or.inr (kept_chipNext s _)
  | handoff _ _ => exact Or.inr (kept_chipNext s _)
  | echoTimeout _ _ => exact Or.inr (kept_chipNext s _)
  | trainingTimeout _ => exact Or.inr (kept_chipNext s _)
  | trainingRetry _ _ => exact Or.inr (kept_chipNext s _)
  | ieeeTrainingFrame _ _ _ => exact Or.inr (kept_chipNext s _)
  | trainingFallback _ => exact Or.inr (kept_chipNext s _)
  | fixedTrained _ _ _ => exact Or.inr (kept_chipNext s _)
  | dataFrame _ _ => exact Or.inr (kept_chipNext s _)
  | hostTxShort _ _ _ => exact Or.inr (kept_chipNext s _)
  | patChkSync _ _ => exact Or.inr (kept_chipNext s _)
  | foregroundCalibrationDone _ => exact Or.inr (kept_chipNext s _)
  | lineSignal _ => exact Or.inr (kept_chipNext s _)
  | lineLos _ => exact Or.inr (kept_chipNext s _)
  | snrWindow _ _ => exact Or.inr (kept_chipNext s _)
  | adcCalUpdate _ _ => exact Or.inr (kept_chipNext s _)
  | llrScaleUpdate _ _ => exact Or.inr (kept_chipNext s _)
  | lineLocked _ => exact Or.inr (kept_chipNext s _)
  | lockLoss _ => exact Or.inr (kept_chipNext s _)
  | goodSet _ => exact Or.inr (kept_chipNext s _)
  | voltStep _ => exact Or.inr (kept_chipNext s _)
  | voltReturn _ => exact Or.inr (kept_chipNext s _)
  | restoreWindowExpiry _ => exact Or.inr (kept_chipNext s _)
  | retrainTimeout _ => exact Or.inr (kept_chipNext s _)
  | tapWord _ => exact Or.inr (kept_chipNext s _)
  | tapChange _ => exact Or.inr (kept_chipNext s _)
  | ttSwap _ => exact Or.inr (kept_chipNext s _)
  | tapTimeout _ => exact Or.inr (kept_chipNext s _)
  | lineTxShort _ _ => exact Or.inr (kept_chipNext s _)
  | snapshot _ => exact Or.inr (kept_chipNext s _)
  | snapshotGuardEnd _ => exact Or.inr (kept_chipNext s _)
  | checkpoint _ => exact Or.inr (kept_chipNext s _)
  | checkpointCommit _ => exact Or.inr (kept_chipNext s _)
  | pageInStart => exact Or.inr (kept_chipNext s _)
  | pageInDone _ => exact Or.inr (kept_chipNext s _)
  | frameSend _ _ => exact Or.inr (kept_chipNext s _)
  | twistFrame _ _ => exact Or.inr (kept_chipNext s _)
  | multiframe _ => exact Or.inr (kept_chipNext s _)
  | portRateFault _ => exact Or.inr (kept_chipNext s _)
  | rateFaultClear _ => exact Or.inr (kept_chipNext s _)
  | ieeeAlignLoss _ => exact Or.inr (kept_chipNext s _)
  | portSkew _ _ => exact Or.inr (kept_chipNext s _)
  | codewordArrival _ _ => exact Or.inr (kept_chipNext s _)
  | slotBoundary _ _ _ _ => exact Or.inr (kept_chipNext s _)
  | spareRotation => exact Or.inr (kept_chipNext s _)
  | codewordRelease _ _ => exact Or.inr (kept_chipNext s _)
  | rsCodeword _ _ => exact Or.inr (kept_chipNext s _)
  | statsWindow _ => exact Or.inr (kept_chipNext s _)
  | substWaitTimeout => exact Or.inr (kept_chipNext s _)
  | plyDown => exact Or.inr (kept_chipNext s _)
  | laneLost _ => exact Or.inr (kept_chipNext s _)
  | claim m e also => exact Or.inr (kept_execClaim m e also s)
  | release m v also => exact Or.inr (kept_execRelease m v also s)
  | handover m v also => exact Or.inr (kept_execHandover m v also s)
  | fenceClear m v also => exact Or.inr (kept_execFenceClear m v also s)
  | spindleRestart m v => exact Or.inr (kept_execSpindleRestart m v s)
  | spindleSyncDone _ => exact Or.inr (kept_chipNext s _)
  | spindleDown _ => exact Or.inr (kept_chipNext s _)
  | holderlessClaim a b => exact Or.inr (kept_execHolderlessClaim a b s)
  | takeover => exact Or.inr (kept_chipNext s _)
  | mbxOpen => exact Or.inr (kept_chipNext s _)
  | probationEnd => exact Or.inr (kept_execProbationEnd  s)
  | doorbell _ _ => exact Or.inr (kept_chipNext s _)
  | slotWrite _ _ _ _ => exact Or.inr (kept_chipNext s _)
  | slotFree _ _ => exact Or.inr (kept_chipNext s _)
  | heldCompletionPost => exact Or.inr (kept_chipNext s _)
  | moderationTimeout => exact Or.inr (kept_chipNext s _)
  | hostSleep _ _ => exact Or.inr (kept_chipNext s _)
  | sysInfo _ => exact Or.inr (kept_chipNext s _)
  | sysEcho _ => exact Or.inr (kept_chipNext s _)
  | sysTime _ => exact Or.inr (kept_chipNext s _)
  | sysCfgSave _ => exact Or.inr (kept_chipNext s _)
  | addPort _ _ => exact Or.inr (kept_chipNext s _)
  | removePort _ => exact Or.inr (kept_chipNext s _)
  | enablePort _ => exact Or.inr (kept_chipNext s _)
  | disablePort _ => exact Or.inr (kept_chipNext s _)
  | getPortMap _ => exact Or.inr (kept_chipNext s _)
  | hostTrainCfg _ => exact Or.inr (kept_chipNext s _)
  | hostRetrain _ _ => exact Or.inr (kept_chipNext s _)
  | hostLaneStatus _ => exact Or.inr (kept_chipNext s _)
  | hostTxSet _ => exact Or.inr (kept_chipNext s _)
  | lineRxStatus _ => exact Or.inr (kept_chipNext s _)
  | lineRxCfg _ => exact Or.inr (kept_chipNext s _)
  | lineRetrain _ => exact Or.inr (kept_chipNext s _)
  | lineCapture _ => exact Or.inr (kept_chipNext s _)
  | captureEnd _ _ => exact Or.inr (kept_chipNext s _)
  | lineTxStatus _ => exact Or.inr (kept_chipNext s _)
  | lineTxCfg _ => exact Or.inr (kept_chipNext s _)
  | lineTxTable _ => exact Or.inr (kept_chipNext s _)
  | hankPolicy _ => exact Or.inr (kept_chipNext s _)
  | hankStatus _ => exact Or.inr (kept_chipNext s _)
  | hankRead _ => exact Or.inr (kept_chipNext s _)
  | hankWrite _ => exact Or.inr (kept_chipNext s _)
  | hankPin _ => exact Or.inr (kept_chipNext s _)
  | hankUnpin _ => exact Or.inr (kept_chipNext s _)
  | hankLoad _ => exact Or.inr (kept_chipNext s _)
  | hankFlush _ => exact Or.inr (kept_chipNext s _)
  | creelCfg _ => exact Or.inr (kept_chipNext s _)
  | creelStatus _ => exact Or.inr (kept_chipNext s _)
  | creelStats _ => exact Or.inr (kept_chipNext s _)
  | creelRsStats _ => exact Or.inr (kept_chipNext s _)
  | plyCfg _ => exact Or.inr (kept_chipNext s _)
  | plyStatus _ => exact Or.inr (kept_chipNext s _)
  | plyMirror _ => exact Or.inr (kept_chipNext s _)
  | plySubst _ => exact Or.inr (kept_chipNext s _)
  | pwrSet src => exact Or.inr (kept_execPwrSet src s)
  | pwrStatus _ => exact Or.inr (kept_chipNext s _)
  | lowPower src => exact Or.inr (kept_chipNext s _)
  | telTemp _ => exact Or.inr (kept_chipNext s _)
  | telPort _ => exact Or.inr (kept_chipNext s _)
  | flyDiscover _ => exact Or.inr (kept_chipNext s _)
  | flyRequest _ => exact Or.inr (kept_chipNext s _)
  | flyCfg _ => exact Or.inr (kept_chipNext s _)
  | flyNodes _ => exact Or.inr (kept_chipNext s _)
  | secChallenge _ => exact Or.inr (kept_chipNext s _)
  | secAuth _ => exact Or.inr (kept_chipNext s _)
  | secLogout _ => exact Or.inr (kept_chipNext s _)
  | guardSet _ => exact Or.inr (kept_chipNext s _)
  | guardGet _ => exact Or.inr (kept_chipNext s _)
  | lifecycleAdvance src lasting => exact Or.inr (kept_execLifecycleAdvance src lasting s)
  | returnedReset => exact Or.inr (kept_execReturnedReset  s)
  | ownerKeySet src lasting => exact Or.inr (kept_execOwnerKeySet src lasting s)
  | fwImageBegin _ => exact Or.inr (kept_chipNext s _)
  | fwImageData _ => exact Or.inr (kept_chipNext s _)
  | fwImageEnd _ _ => exact Or.inr (kept_chipNext s _)
  | fwActivate src => exact Or.inr (kept_execFwActivate src s)
  | fwStatus _ => exact Or.inr (kept_chipNext s _)
  | doffRun src result => exact Or.inr (kept_execDoffRun src result s)
  | doffRecord _ => exact Or.inr (kept_chipNext s _)
  | testLane _ => exact Or.inr (kept_chipNext s _)
  | hkRead _ => exact Or.inr (kept_chipNext s _)
  | hkAlarmCfg _ => exact Or.inr (kept_chipNext s _)
  | eventMessage _ => exact Or.inr (kept_chipNext s _)
  | evtDoorbell _ _ => exact Or.inr (kept_chipNext s _)
  | evtClaim _ _ => exact Or.inr (kept_chipNext s _)
  | evtEoi _ _ _ => exact Or.inr (kept_chipNext s _)
  | evtMaskClr _ _ _ _ => exact Or.inr (kept_chipNext s _)
  | evtPendSet _ _ _ _ => exact Or.inr (kept_chipNext s _)
  | evtArmSet _ _ _ _ => exact Or.inr (kept_chipNext s _)
  | evtTimeLo _ => exact Or.inr (kept_chipNext s _)
  | flyMessage _ => exact Or.inr (kept_chipNext s _)
  | requestExpiry _ => exact Or.inr (kept_chipNext s _)
  | discoveryTimeout => exact Or.inr (kept_chipNext s _)
  | keepalive _ => exact Or.inr (kept_chipNext s _)
  | linkDown _ => exact Or.inr (kept_chipNext s _)
  | notify => exact Or.inr (kept_chipNext s _)
  | wakeActivity _ => exact Or.inr (kept_chipNext s _)
  | bucketLeak _ => exact Or.inr (kept_chipNext s _)
  | scrubStep => exact Or.inr (kept_execScrubStep  s)
  | logFree _ _ => exact Or.inr (kept_chipNext s _)
  | commit _ _ => exact Or.inr (kept_chipNext s _)
  | rawRead _ _ => exact Or.inr (kept_chipNext s _)
  | start _ _ _ => exact Or.inr (kept_chipNext s _)
  | abort _ _ _ => exact Or.inr (kept_chipNext s _)
  | dmaRequest _ => exact Or.inr (kept_chipNext s _)
  | dmaSwreq _ _ => exact Or.inr (kept_chipNext s _)
  | dmaBeat => exact Or.inr (kept_execDmaBeat  s)
  | conversionDone _ => exact Or.inr (kept_chipNext s _)
  | hkaSwtrig _ _ => exact Or.inr (kept_chipNext s _)
  | listTimer => exact Or.inr (kept_chipNext s _)
  | hkTrigEdge _ => exact Or.inr (kept_chipNext s _)
  | triggerDelayEnd _ _ _ => exact Or.inr (kept_chipNext s _)
  | converterDisable _ _ => exact Or.inr (kept_chipNext s _)
  | pwmPeriodStart _ => exact Or.inr (kept_chipNext s _)
  | pwmCompare _ => exact Or.inr (kept_chipNext s _)
  | pwmEnable _ _ _ => exact Or.inr (kept_chipNext s _)
  | filterInput _ _ => exact Or.inr (kept_chipNext s _)
  | fltRestart _ _ => exact Or.inr (kept_chipNext s _)
  | fltCfgWrite _ _ _ => exact Or.inr (kept_chipNext s _)
  | groupRequest m v => exact Or.inr (kept_execGroupRequest m v s)
  | quiesceVote inTime => exact Or.inr (kept_execQuiesceVote inTime s)
  | ladderRung _ => exact Or.inr (kept_chipNext s _)
  | ladderComplete _ => exact Or.inr (kept_chipNext s _)
  | lowPowerEnter m v => exact Or.inr (kept_execLowPowerEnter m v s)
  | shutdownList found => exact Or.inr (kept_execShutdownList found s)
  | wakeReq _ _ => exact Or.inr (kept_chipNext s _)
  | lpWake => exact Or.inr (kept_chipNext s _)
  | thermalSample v => exact Or.inr (kept_execThermalSample v s)
  | freeze _ _ => exact Or.inr (kept_chipNext s _)
  | freezeRelease _ _ => exact Or.inr (kept_chipNext s _)
  | cntLo _ _ => exact Or.inr (kept_chipNext s _)
  | cntSelWrite _ _ _ => exact Or.inr (kept_chipNext s _)
  | bwWindow _ _ => exact Or.inr (kept_chipNext s _)
  | bwCfgWrite _ _ => exact Or.inr (kept_chipNext s _)
  | hlnPatBitsLo _ _ => exact Or.inr (kept_chipNext s _)
  | patternGeneratorEnable _ _ _ => exact Or.inr (kept_chipNext s _)
  | errInj _ _ _ => exact Or.inr (kept_chipNext s _)
  | lockoutEnd => exact Or.inr (kept_chipNext s _)
  | nonceExpiry => exact Or.inr (kept_chipNext s _)
  | i3cCcc _ => exact Or.inr (kept_chipNext s _)
  | registerWrite m i3c a width v also => exact Or.inr (kept_execRegisterWrite m i3c a width v also s)
  | blindAdaptationDone _ => exact Or.inr (kept_chipNext s _)
  | adaptationWindow _ _ => exact Or.inr (kept_chipNext s _)
  | keepaliveReceived _ => exact Or.inr (kept_chipNext s _)
  | sidebandTransmission _ _ => exact Or.inr (kept_chipNext s _)
  | commandTimeLimit o => exact Or.inr (kept_execCommandTimeLimit o s)
  | coreSupplyGood => exact Or.inr (kept_chipNext s _)
  | vddioLoss => exact Or.inr (kept_chipNext s _)
  | vddioRestored _ => exact Or.inr (kept_chipNext s _)
  | readToClear m i3c a w also => exact Or.inr (kept_execReadToClear m i3c a w also s)

theorem kept_idle (s : State) : Kept s s.idle := Kept.onChip s _

/-- What a step answers. -/
theorem step_kept (s : State) :
    (∃ a b c q, s.pending = .powerOnReset a b c :: q) ∨ ∃ t, step s = .next t ∧ s.fuse.follows t.fuse ∧ s.dist.follows t.dist := by
  cases h : s.pending with
  | nil => exact Or.inr ⟨s.idle, by unfold step; rw [h], (kept_idle s).fuse, (kept_idle s).dist⟩
  | cons c q =>
    rcases exec_kept c (s.withPending q) with ⟨a, b, d, rfl⟩ | ⟨t, h1, h2⟩
    · exact Or.inl ⟨a, b, d, q, rfl⟩
    · exact Or.inr ⟨t, by simp [step, h, h1], h2.fuse, h2.dist⟩

end Sys2Proof.Machine
end

