-- ==== Sys2Proof/Laws/Fields.lean ====
section
/-! SUPPORT. What a register, a field and a flag read as after an update of the part's other state: as before. -/

namespace Sys2Proof.Machine

/-- A register of a table of register words. -/
def regIn (r : List (Nat × Word)) (a : Nat) : Word := tabGet resetWord r a

/-- A field of a table of register words. -/
def fldIn (r : List (Nat × Word)) (f : Fld) : Nat := getBits (regIn r f.addr) f.lo f.w

/-- A flag of a table of register words. -/
def flagIn (r : List (Nat × Word)) (f : Fld) : Bool := fldIn r f == 1

@[simp] theorem regIn_regs (s : Chip) (a : Nat) : regIn s.regs a = s.reg a := Eq.trans rfl rfl
@[simp] theorem fldIn_regs (s : Chip) (f : Fld) : fldIn s.regs f = s.fld f := Eq.trans rfl rfl
@[simp] theorem flagIn_regs (s : Chip) (f : Fld) : flagIn s.regs f = s.flag f := Eq.trans rfl rfl

@[simp] theorem Chip.reg_mk (r) (x1 x2 x3 x4 x5 x6 x7 x8 x9 x10 x11 x12 x13 x14 x15 x16 x17 x18 x19 x20 x21 x22 x23 x24 x25 x26 x27 x28 x29 x30 x31 x32 x33 x34 x35 x36) (a) :
    Chip.reg ⟨r, x1, x2, x3, x4, x5, x6, x7, x8, x9, x10, x11, x12, x13, x14, x15, x16, x17, x18, x19, x20, x21, x22, x23, x24, x25, x26, x27, x28, x29, x30, x31, x32, x33, x34, x35, x36⟩ a = regIn r a := Eq.trans rfl rfl
@[simp] theorem Chip.fld_mk (r) (x1 x2 x3 x4 x5 x6 x7 x8 x9 x10 x11 x12 x13 x14 x15 x16 x17 x18 x19 x20 x21 x22 x23 x24 x25 x26 x27 x28 x29 x30 x31 x32 x33 x34 x35 x36) (f) :
    Chip.fld ⟨r, x1, x2, x3, x4, x5, x6, x7, x8, x9, x10, x11, x12, x13, x14, x15, x16, x17, x18, x19, x20, x21, x22, x23, x24, x25, x26, x27, x28, x29, x30, x31, x32, x33, x34, x35, x36⟩ f = fldIn r f := Eq.trans rfl rfl
@[simp] theorem Chip.flag_mk (r) (x1 x2 x3 x4 x5 x6 x7 x8 x9 x10 x11 x12 x13 x14 x15 x16 x17 x18 x19 x20 x21 x22 x23 x24 x25 x26 x27 x28 x29 x30 x31 x32 x33 x34 x35 x36) (f) :
    Chip.flag ⟨r, x1, x2, x3, x4, x5, x6, x7, x8, x9, x10, x11, x12, x13, x14, x15, x16, x17, x18, x19, x20, x21, x22, x23, x24, x25, x26, x27, x28, x29, x30, x31, x32, x33, x34, x35, x36⟩ f = flagIn r f := Eq.trans rfl rfl

end Sys2Proof.Machine
end

