-- ==== Sys2Proof/Machine/Outputs.lean ====
section
/-! DEFINITION. What leaves the part, as functions of its state: the open-drain pins (R42, R271, R340, R443), the converter codes
of a line transmitter (R144, R150, R163) and the frames of a 400 Gb/s host lane (R77, R78, R80 to R83, R91). No command reads
them. -/

namespace Sys2Proof.Machine

/-! ### Pins -/

/-- The level of `INT_N`: low while the host's interrupt is asserted, from FW_READY or WAIT_HOST on (R42, R340).
Log 126 (DESIGN CHOICE). -/
def Chip.intN (s : Chip) : Bool := !(s.evt.driven && s.evt.cons[0].interrupt)

/-- The level of `FRAY_N` (R42, R271). Log 126 (DESIGN CHOICE). -/
def Chip.frayN (s : Chip) : Bool := !s.frayDriven

/-- The level of `THERMTRIP_N`: low while the trip latch stands (R33, R42, R443). Log 126 (DESIGN CHOICE). -/
def Chip.thermtripN (s : Chip) : Bool := !(s.flag THM_STATUS.TRIP)

/-! ### The management interfaces (R495, R496, R498, R499) -/

/-- The word accesses of an SPI frame by its command byte, its address and its words: 0x02 writes them, 0x0B reads as many, each
further one 4 beyond the last; any other command byte makes none (R495). Log 120 (DEDUCED). -/
def spiFrame (cmd : Byte) (a : BitVec 24) (words : List Word) : List BusAccess :=
  let at_ := fun (p : Word × Nat) => a + BitVec.ofNat 24 (4 * p.2)
  if cmd = 0x02#8 then words.zipIdx.map (fun p => ⟨.host, false, at_ p, 32, some p.1⟩)
  else if cmd = 0x0B#8 then words.zipIdx.map (fun p => ⟨.host, false, at_ p, 32, none⟩)
  else []

/-- The word accesses of an I3C or I2C transfer (R498): words written, or as many read. Log 120 (DEDUCED). -/
def i3cTransfer (write : Bool) (a : BitVec 24) (words : List Word) : List BusAccess :=
  words.zipIdx.map (fun p => ⟨.host, true, a + BitVec.ofNat 24 (4 * p.2), 32, if write then some p.1 else none⟩)

/-- A status byte: WAIT, WR_ERR, BUS_ERR (R496). -/
def statusByte (wait wrErr busErr : Bool) : Byte := BitVec.ofNat 8 (0x80 + 4 * b2n wait + 2 * b2n wrErr + b2n busErr)

/-- The status byte of the host's last access over SPI, once it has completed (R495, R496). -/
def Chip.spiStatus (s : Chip) : Byte := statusByte false false s.answers[0].err

/-- The status byte of the host's last read over I3C/I2C (R498). -/
def Chip.i3cStatus (s : Chip) : Byte := statusByte false s.i3c.shown s.answers[0].err

/-- The data bytes of the host's last read, zero after a bus error (R496). -/
def Chip.readData (s : Chip) : List Byte := leBytes 4 (if s.answers[0].err then 0 else s.answers[0].data.toNat)

/-- The TAP's identification register (R499); bit 0 is 1 as IEEE 1149.1 has it. Log 8 (PRESUMED), 28 (DESIGN CHOICE). -/
def idcode : Word := BitVec.ofNat 32 (2 ^ 28 + 2 ^ 12 * 0x6408 + 2 * Config.manufacturer.toNat + 1)

/-! ### The line transmitter (R144, R150, R163) -/

/-- The level index of a PAM4 symbol given as its bit pair, 0 for the level -3 to 3 for +3 (spec/04, "Gray code"). -/
def levelIndex (x : Nat) : Nat := if x = 3 then 2 else if x = 2 then 3 else x

/-- The entry of the tension table for a symbol with the three before it, newest first (R144). -/
def ttIndex (l : List Nat) : Nat :=
  64 * levelIndex (l.getD 0 0) + 16 * levelIndex (l.getD 1 0) + 4 * levelIndex (l.getD 2 0) + levelIndex (l.getD 3 0)

/-- The sum of the FFE of lane `n` for a symbol: twelve symbols, newest first, from the third after it to the eighth before
it (spec/06, "FFE and DAC"). -/
def Chip.ffeSum (s : Chip) (n : Nat) (l : List Nat) : Int :=
  ((s.txTaps n).zipIdx.map (fun c => c.1 * ttGet (s.txOf n).active (ttIndex (l.drop c.2)))).foldl (· + ·) 0

/-- A sum as a code of the converter: divided by 512, rounded half to even and clamped (R150). -/
def dacOf (y : Int) : Int :=
  let q := y / 512
  let r := y % 512
  clampInt (-128) 127 (if r < 256 then q else if 256 < r then q + 1 else q + q % 2)

/-- The code that lane `n` puts out for a symbol: that of the FFE in DATA and PATTERN, 0 in every other output state
(R150, R163, R164). Log 125 (DESIGN CHOICE). -/
def Chip.dacCode (s : Chip) (n : Nat) (l : List Nat) : Int :=
  let st := getBits (s.ltxStatusWord n) 29 3
  if st = 2 ∨ st = 3 then dacOf (s.ffeSum n l) else 0

/-- The codes that lane `n` puts out for a symbol, at 226.875 GS/s: twice the same at 113.4375 GBd (R150). -/
def Chip.dacCodes (s : Chip) (n : Nat) (l : List Nat) : List Int :=
  let c := s.dacCode n l
  if s.flag (LTX_STATUS.RATE n) then [c] else [c, c]

/-- The full-scale swing of lane `n` in mV p-p: a SWING outside 30 to 90 counts as the nearer bound (R162, R170). -/
def Chip.swing (s : Chip) (n : Nat) : Nat := 10 * clampNat 30 90 (s.fld (LTX_TX_CFG.SWING n))

/-- The differential output of lane `n` for a code, in 1/254 mV: code 127 is the positive end of the swing (R150). -/
def Chip.lineOut (s : Chip) (n : Nat) (code : Int) : Int := code * s.swing n

/-- Symbol `i` since its port's RS codeword began that lane `n` sends in an IEEE line mode: the whole codeword in the concatenated inner
FEC (R12, R218). Log 145 (DESIGN CHOICE). -/
def Chip.ieeeSymbol (s : Chip) (n i : Nat) : Nat :=
  Config.ieeeInner s.fresh n ((s.tribPort n 0).elim [] (fun p => (s.port p).toLine)) i % 4

/-! ### A 400 Gb/s host lane (R77 to R83, R91) -/

/-- The seed of a lane's training pattern by its LANE_ID (R80). Log 128 (PRESUMED). -/
def prbsSeed (code id : Nat) : Nat :=
  if code = 0 then [0x0AD5, 0x0F11, 0x1E65, 0x1659].getD id 0
  else [0x7FFFFFFF, 0x5A5A5A5A, 0x3C3C3C3C, 0x69966996].getD id 0

/-- A bit of the marker or a count word: +3 for 1, -3 for 0 (R91). -/
def outerSyms (l : List Bool) : List Nat := l.map binarySym

/-- The symbols of a message block, R78. -/
def messageSyms (w : Nat) : List Nat :=
  (msbBits 64 w).flatMap (fun b => outerSyms (List.replicate 4 (!b) ++ List.replicate 4 b))

/-- The control field that lane `h` sends (R82, R84): its request while the echo is awaited, then HOLD with the same TAP and SEQ.
Log 129 (DESIGN CHOICE). -/
def Chip.hostControl (s : Chip) (h : Nat) : Nat :=
  let x := s.hostOf h
  let free := Config.hostUnsaid h
  let tap := if x.reqOut.req = 0 then free.2.1 else x.reqOut.tap
  let req := if x.echoWait then x.reqOut else ⟨0, tap, 0⟩
  req.req % 16 * 2 ^ 20 + req.tap % 8 * 2 ^ 17 + req.arg % 16 * 2 ^ 13 + x.farId.getD free.1 % 4 * 2 ^ 11 + x.seqOut % 256

/-- HO_COUNT of lane `h`'s next training frame, R88. -/
def Chip.hostCount (s : Chip) (h : Nat) : Option Nat :=
  let x := s.hostOf h
  match x.countdown with
  | some k => some (k - 1)
  | none => if x.readySent && decide (3 ≤ x.farReady) then some 7 else none

/-- The status field that lane `h` sends in its next frame (R83, R85, R88). Log 129 (DESIGN CHOICE). -/
def Chip.hostReport (s : Chip) (h : Nat) : Nat :=
  let x := s.hostOf h
  let free := Config.hostUnsaid h
  let tap := if x.seqIn.isSome then x.respTap else free.2.1
  let count := s.hostCount h
  x.respOut % 16 * 2 ^ 20 + tap % 8 * 2 ^ 17 + b2n x.rxReady * 2 ^ 16 + h % 4 * 2 ^ 14 + b2n count.isSome * 2 ^ 13 +
    count.getD 0 % 8 * 2 ^ 10 + x.pattern % 4 * 2 ^ 8 + x.seqIn.getD free.2.2 % 256

/-- The 64-bit message block of lane `h`'s next training frame, with its CRC-16 (R81). -/
def Chip.hostBlock (s : Chip) (h : Nat) : Nat :=
  let body := (s.hostControl h % 2 ^ 24) * 2 ^ 24 + s.hostReport h % 2 ^ 24
  body * 2 ^ 16 + crcBits 16 0x1021 0xFFFF (msbBits 48 body)

/-- The training pattern of lane `h`'s next frame, R80: the generator goes on from where the last frame left it.
Log 128 (PRESUMED). -/
def Chip.hostPattern (s : Chip) (h : Nat) : List Nat :=
  let x := s.hostOf h
  pairSyms (prbsBits x.pattern (2 * patternPart) (prbsAfter x.pattern (2 * x.sent) (prbsSeed x.pattern (h % 4))))

/-- A Twist-H training frame of lane `h` as its state stands, R77. Log 125 (DESIGN CHOICE). -/
def Chip.trainingFrame (s : Chip) (h : Nat) : List Nat :=
  outerSyms (List.replicate 32 true ++ List.replicate 32 false) ++ messageSyms (s.hostBlock h) ++ s.hostPattern h

/-- A count word, R91. -/
def countWord (count : Nat) : Nat :=
  let top := count % 2 ^ 12 * 16
  top * 2 ^ 16 + crcBits 16 0x1021 0xFFFF (msbBits 16 top)

/-- A data frame of a host lane (R90, R91): `rs` are the RS symbols, one for each of the first slots; the other slots carry
`fill`. Log 125 (DESIGN CHOICE). -/
def dataFrameOf (rs : List Nat) (fill : List Bool) : List Nat :=
  outerSyms (msbBits 32 dataMarker) ++ outerSyms (msbBits 32 (countWord rs.length)) ++
    pairSyms ((rs.flatMap (msbBits 10) ++ fill).take 32640)

/-- The next data frame of lane `h`: its COUNT of the symbols that wait, and the fill sequence of its LANE_ID from where the last frame
left it. Log 125 (DESIGN CHOICE). -/
def Chip.hostDataFrame (s : Chip) (h : Nat) : List Nat :=
  let k := s.hostCountNow h
  let x := (s.hostNeed h k).hostOf h
  dataFrameOf (x.out.take k) (prbsBits 0 (10 * (dataSlots - k)) (prbsAfter 0 (10 * x.filled) (prbsSeed 0 (h % 4))))

/-- The RS symbols of the PCS lanes of a 400 Gb/s host lane, one from each in ascending order (R90): `l` has the lane's symbols in the
order of the data frames, and PCS lane `i` of the lane's sixteen has every sixteenth. -/
def pcsLane (l : List Nat) (i : Nat) : List Nat := (l.zipIdx.filter (fun c => c.2 % 16 == i)).map (fun c => c.1)

/-- What a host transmitter puts out: electrical idle, a pattern, training frames or data. -/
inductive HostOut where
  | idle | pattern | training | data
  deriving DecidableEq, Repr

/-- What lane `h` puts out: nothing before its training starts (R42), its pattern where its generator runs (R109), training frames until
its transmit direction has handed off (R88), and then data. In FAILED it is taken as idle. Log 125 (DESIGN CHOICE). -/
def Chip.hostOut (s : Chip) (h : HLane) : HostOut :=
  let x := s.hostOf h.1
  if !(s.hostOn h.1) then .idle
  else if s.genRuns (.host h) then .pattern
  else if s.hostData h.1 || x.txDone then .data
  else if s.hostTrains h.1 then (if x.countdown = some 0 then .data else .training)
  else .idle

/-- Precoded PAM4 symbols: each level is what the last one sent lacks to the new one, modulo 4 (R74; the precoder of IEEE 802.3).
Log 137 (PRESUMED). -/
def precoded : Nat → List Nat → List Nat
  | _, [] => []
  | last, x :: t => let y := (x + 4 - last % 4) % 4; y :: precoded y t

/-- The next frame of a 400 Gb/s host lane: a training frame, a data frame, or none. Log 125 (DESIGN CHOICE). -/
def Chip.hostFrameOut (s : Chip) (h : HLane) : List Nat :=
  match s.hostOut h with
  | .training => s.trainingFrame h.1
  | .data => s.hostDataFrame h.1
  | _ => []

/-- The RS symbols that a host lane below 400 Gb/s sends of the last codeword, as bits paired to PAM4 symbols, precoded where the far
end asked for it (R74, R90). -/
def Chip.hostSymsOut (s : Chip) (h : Nat) : List Nat :=
  let x := s.hostOf h
  let l := pairSyms (x.out.flatMap (msbBits 10))
  if x.precode then (precoded 0 (l.map levelIndex)).map levelIndex else l

/-! ### The periods that the timers run with

The ends of these periods come as commands; the fields count as their tables say. -/

/-- The snapshot and checkpoint periods and the snapshot guard, in µs (R177, R178, R190). -/
def Chip.snapPeriod (s : Chip) : Nat := 10000 * max 1 (s.fld HNK_CFG.SNAP_PERIOD)

def Chip.ckptPeriod (s : Chip) : Nat := 1000 * max 1 (s.fld HNK_CFG.CKPT_PERIOD)

def Chip.snapGuard (s : Chip) : Nat := max 8 (s.fld HNK_CFG.GUARD)

/-- The creel's rotation period in ms (R229, R255). -/
def Chip.rotPeriod (s : Chip) : Nat := max 1 (s.fld CRL_FLOAT_CFG.ROT_PERIOD)

/-- A spindle's watchdog period in µs (R302). -/
def Chip.watchdogPeriod (s : Chip) (b : Nat) : Nat :=
  10 * clampNat 1 40 (s.fld (if b = 0 then GRD_SPN_WDT.PERIOD_A else GRD_SPN_WDT.PERIOD_B))

/-- The time from a posted completion to the host's interrupt in µs; 0 for none (R298, R303). -/
def Chip.modTime (s : Chip) : Nat := min 1000 (s.fld MBX_MOD_CFG.TIME)

/-- The scrubber's cycles per granule (R380), the list timer's period (R409) and the meters' window (R449), in CLK_PER cycles. -/
def Chip.scrubInterval (s : Chip) : Nat := max 16 (s.fld ECC_SCRUB_CFG.INTERVAL)

def Chip.listPeriod (s : Chip) : Nat := max 56 (s.fld HKA_TIMER.PERIOD)

def Chip.meterWindow (s : Chip) : Nat := clampNat 111 110778809 (s.fld CNT_BW_CFG.WINDOW)

end Sys2Proof.Machine
end

