-- ==== Sys2Proof/Laws/Outputs.lean ====
section
/-! SUPPORT. What the part sends is what a receiver of its own kind accepts. -/

namespace Sys2Proof.Machine

/-- One step of a CRC stays below the CRC's width. -/
theorem crcBits_lt (w poly : Nat) (hp : poly < 2 ^ w) :
    ∀ (l : List Bool) (init : Nat), init < 2 ^ w → crcBits w poly init l < 2 ^ w := by
  intro l
  induction l with
  | nil => intro i h; exact h
  | cons b t ih =>
    intro i _
    refine ih _ ?_
    have h2 : i * 2 % 2 ^ w < 2 ^ w := Nat.mod_lt _ (Nat.two_pow_pos w)
    show (if (i.testBit (w - 1) != b) = true then i * 2 % 2 ^ w ^^^ poly else i * 2 % 2 ^ w) < 2 ^ w
    split
    · exact Nat.xor_lt_two_pow h2 hp
    · exact h2

/-- Every message block that a host lane sends has a right CRC (R81). -/
theorem hostBlock_crcOk (s : Chip) (h : Nat) : hostCrcOk (s.hostBlock h) = true := by
  have hc : ∀ b : Nat, crcBits 16 0x1021 0xFFFF (msbBits 48 b) < 2 ^ 16 := fun b =>
    crcBits_lt 16 0x1021 (by decide) _ _ (by decide)
  have split : ∀ a b : Nat, b < 2 ^ 16 → (a * 2 ^ 16 + b) / 2 ^ 16 = a ∧ (a * 2 ^ 16 + b) % 2 ^ 16 = b := by
    intro a b hb
    omega
  unfold hostCrcOk Chip.hostBlock
  obtain ⟨h1, h2⟩ := split _ _ (hc ((s.hostControl h % 2 ^ 24) * 2 ^ 24 + s.hostReport h % 2 ^ 24))
  rw [h1, h2]
  exact beq_self_eq_true _

/-- Every count word that a host lane may send is accepted (R91). -/
theorem countWord_ok (c : Nat) (h1 : 3040 ≤ c) (h2 : c ≤ 3100) : countWordOk (countWord c) = true := by
  have hc : ∀ b : Nat, crcBits 16 0x1021 0xFFFF (msbBits 16 b) < 2 ^ 16 := fun b =>
    crcBits_lt 16 0x1021 (by decide) _ _ (by decide)
  have split : ∀ a b : Nat, b < 2 ^ 16 → (a * 2 ^ 16 + b) / 2 ^ 16 = a ∧ (a * 2 ^ 16 + b) % 2 ^ 16 = b ∧ (a * 2 ^ 16 + b) / 2 ^ 20 = a / 16 := by
    intro a b hb
    omega
  have ht : c % 2 ^ 12 * 16 / 16 = c := by omega
  unfold countWordOk countWord
  obtain ⟨e1, e2, e3⟩ := split (c % 2 ^ 12 * 16) _ (hc (c % 2 ^ 12 * 16))
  simp only [e1, e2, e3, ht, beq_self_eq_true, Bool.true_and, h1, h2, decide_true, Bool.and_self]

end Sys2Proof.Machine
end

