-- ==== Sys2Proof/Laws/Still.lean ====
section
/-! SUPPORT. The part of the chip that the datapath, the mailbox and the Fleyth network leave alone: power, thermal, DMA, converter, filters,
the spindles, the session, and the registers of their windows. -/

namespace Sys2Proof.Machine

set_option linter.unusedSimpArgs false

/-- An address from 0xB0000 on lies in none of them. -/
theorem quiet_ge (a : Nat) (h : 0xB0000 ≤ a) : quiet a = false := by
  simp only [quiet, Bool.or_eq_false_iff, Bool.and_eq_false_iff, decide_eq_false_iff_not]
  omega

/-- An update of other state. -/
theorem Chip.upd_still (X : Chip) (frz evt cnt mem valid flips ecc flash cfg mbx ports host quads rx tx framer hnk ply crl fly start fresh) :
    Chip.still ⟨X.regs, frz, evt, cnt, mem, valid, flips, ecc, X.pmu, X.thm, flash, cfg, mbx, X.spn, X.sess, X.alarms, ports, X.answers,
      host, quads, rx, tx, framer, hnk, ply, crl, fly, X.dma, X.hka, X.flt, X.jtag, X.i3c, start, X.straps, X.fwReadySeen, X.limited,
      fresh⟩ = X.still := Eq.trans rfl rfl

/-- An update of the datapath's records of retired bobbins and failed lanes. -/
theorem Chip.updPmu_still (X : Chip) (retired failed frz evt cnt mem valid flips ecc flash cfg mbx ports host quads rx tx framer hnk ply crl fly start
    fresh) :
    Chip.still ⟨X.regs, frz, evt, cnt, mem, valid, flips, ecc, { X.pmu with retired, failed }, X.thm, flash, cfg, mbx, X.spn, X.sess,
      X.alarms, ports, X.answers, host, quads, rx, tx, framer, hnk, ply, crl, fly, X.dma, X.hka, X.flt, X.jtag, X.i3c, start, X.straps,
      X.fwReadySeen, X.limited, fresh⟩ = X.still := Eq.trans rfl rfl

/-- The registers of those windows decide. -/
theorem Chip.still_of {s t : Chip} (h : ∀ a, quiet a = true → t.reg a = s.reg a)
    (k : t.pmu = s.pmu ∧ t.thm = s.thm ∧ t.spn = s.spn ∧ t.sess = s.sess ∧ t.alarms = s.alarms ∧ t.answers = s.answers ∧ t.dma = s.dma ∧
      t.hka = s.hka ∧ t.flt = s.flt ∧ t.jtag = s.jtag ∧ t.i3c = s.i3c ∧ t.straps = s.straps ∧ t.fwReadySeen = s.fwReadySeen ∧
      t.limited = s.limited) : t.still = s.still := by
  obtain ⟨h1, h2, h3, h4, h5, h6, h7, h8, h9, h10, h11, h12, h13, h14⟩ := k
  have hr : (fun a => if quiet a = true then t.reg a else 0) = fun a => if quiet a = true then s.reg a else 0 := by
    funext a
    split
    · exact h a ‹_›
    · rfl
  unfold Chip.still
  rw [hr, h1, h2, h3, h4, h5, h6, h7, h8, h9, h10, h11, h12, h13, h14]

/-- A quiet register is not one of the others. -/
theorem quiet_ne {a b : Nat} (ha : quiet a = true) (hb : quiet b = false) : a ≠ b := by
  rintro rfl; rw [ha] at hb; cases hb

theorem Chip.setReg_still (s : Chip) (a : Nat) (v : Word) (h : quiet a = false) : (s.setReg a v).still = s.still :=
  Chip.still_of (fun b hb => Chip.reg_setReg_other s a b v (quiet_ne hb h)) (by simp)

theorem Chip.setFld_still (s : Chip) (f : Fld) (v : Nat) (h : quiet f.addr = false) : (s.setFld f v).still = s.still :=
  Chip.setReg_still s _ _ h

theorem Chip.setFlag_still (s : Chip) (f : Fld) (b : Bool) (h : quiet f.addr = false) : (s.setFlag f b).still = s.still :=
  Chip.setReg_still s _ _ h

theorem Chip.satInc_still (s : Chip) (f : Fld) (n : Nat) (h : quiet f.addr = false) : (s.satInc f n).still = s.still :=
  Chip.setReg_still s _ _ h

theorem Chip.wrapInc_still (s : Chip) (f : Fld) (n : Nat) (h : quiet f.addr = false) : (s.wrapInc f n).still = s.still :=
  Chip.setReg_still s _ _ h

theorem Chip.setFldBit_still (s : Chip) (f : Fld) (i : Nat) (b : Bool) (h : quiet f.addr = false) : (s.setFldBit f i b).still = s.still :=
  Chip.setReg_still s _ _ h

theorem Chip.resetReg_still (s : Chip) (a : Nat) (h : quiet a = false) : (s.resetReg a).still = s.still :=
  Chip.still_of (fun b hb => tabGet_tabErase_other _ _ _ _ (quiet_ne hb h)) (by simp)

/-- A filtered table of registers. -/
theorem regIn_filter (l : List (Nat × Word)) (p : Nat → Bool) (a : Nat) :
    regIn (l.filter (fun x => p x.1)) a = if p a then regIn l a else resetWord a := by
  induction l with
  | nil => simp [regIn, tabGet]
  | cons x l ih =>
    obtain ⟨k, v⟩ := x
    simp only [regIn, tabGet] at ih ⊢
    by_cases hk : p k = true
    · rw [List.filter_cons_of_pos (by simpa using hk)]
      simp only [tabGet]
      by_cases h : k = a
      · subst h; simp [hk]
      · simp [h, ih]
    · rw [List.filter_cons_of_neg (by simpa using hk), ih]
      by_cases h : k = a
      · subst h; simp [hk]
      · simp [h]

theorem Chip.resetRegs_still (s : Chip) (q : Nat → Bool) (h : ∀ a, q a = true → quiet a = false) : (s.resetRegs q).still = s.still := by
  refine Chip.still_of (fun a ha => ?_) (by unfold Chip.resetRegs; simp)
  have hq : q a = false := by
    cases hq : q a with
    | false => rfl
    | true => rw [h a hq] at ha; cases ha
  have := regIn_filter s.regs (fun a => !(q a)) a
  simp only [hq, Bool.not_false, if_true] at this
  exact this

theorem Chip.emit_still (s : Chip) (ms : List Msg) : (s.emit ms).still = s.still := Chip.upd_still s ..

theorem Chip.raise_still (s : Chip) (src pay : Nat) : (s.raise src pay).still = s.still := Chip.emit_still s _

theorem Chip.setLevel_still (s : Chip) (src : Nat) (b : Bool) (pay : Nat) : (s.setLevel src b pay).still = s.still := by
  unfold Chip.setLevel
  split
  · rw [Chip.emit_still, Chip.upd_still]
  · rw [Chip.upd_still]

theorem Chip.count_still (s : Chip) (sel : Nat → Nat → Bool) (n : Nat) : (s.count sel n).still = s.still := by
  unfold Chip.count
  split
  · rw [Chip.emit_still, Chip.upd_still]
  · rfl

/-- A fold of such changes. -/
theorem Chip.forAll_still {α : Type} (s : Chip) (l : List α) (f : Chip → α → Chip) (h : ∀ s x, (f s x).still = s.still) :
    (s.forAll l f).still = s.still := by
  unfold Chip.forAll
  induction l generalizing s with
  | nil => rfl
  | cons x l ih => rw [List.foldl_cons, ih, h]

theorem Chip.foldl_still {α : Type} (f : Chip → α → Chip) (s : Chip) (l : List α) (h : ∀ s x, (f s x).still = s.still) :
    (l.foldl f s).still = s.still := Chip.forAll_still s l f h

theorem Chip.when_still (s : Chip) (b : Bool) (f : Chip → Chip) (h : ∀ s, (f s).still = s.still) : (s.when b f).still = s.still := by
  unfold Chip.when
  split
  · exact h s
  · rfl

/-- A change made where a condition holds. -/
theorem Chip.ite_still (c : Prop) [Decidable c] (s t u : Chip) (ht : t.still = s.still) (hu : u.still = s.still) :
    (if c then t else u).still = s.still := by split <;> assumption

/-- A calm change of other registers. -/
theorem Calm.still {P : Nat → Bool} {s t : Chip} (h : Calm P s t) (hP : ∀ a, quiet a = true → P a = false) : t.still = s.still :=
  Chip.still_of (fun a ha => h.reg a (hP a ha)) ⟨h.pmu, h.thm, h.spn, h.sess, h.alarms, h.answers, h.dma, h.hka, h.flt, h.jtag, h.i3c,
    h.straps, h.fwReadySeen, h.limited⟩

/-- None of the registers that settling touches is quiet. -/
theorem settleReg_quiet (a : Nat) (h : quiet a = true) : settleReg a = false := by
  have hk : (a < 0x10000 ∧ a ≠ GLB_BOOT_STATUS.addr ∧ a ≠ GLB_FRAY_STATUS.addr ∧ a ≠ GLB_FRAY_HIST.addr) ∨
      (0x30000 ≤ a ∧ a < 0x50000) ∨ (0x60000 ≤ a ∧ a < 0xB0000) := by
    simpa only [quiet, Bool.or_eq_true, Bool.and_eq_true, decide_eq_true_eq, bne_iff_ne, and_assoc, or_assoc] using h
  have c : 0x10000 ≤ MBX_CPL_PROD.addr ∧ MBX_CPL_PROD.addr < 0x30000 ∧ GLB_BOOT_STATUS.addr < 0x30000 ∧ GLB_FRAY_STATUS.addr < 0x30000 ∧
    GLB_FRAY_HIST.addr < 0x30000 ∧ 0xB0000 ≤ FLY_CNT_DROP.addr := by decide
  obtain ⟨c0, c1, c2, c3, c4, c5⟩ := c
  simp only [settleReg, lanesReg, serveReg, eccReg, Bool.or_eq_false_iff, Bool.and_eq_false_iff, decide_eq_false_iff_not,
    beq_eq_false_iff_ne]
  omega

theorem serveReg_quiet (a : Nat) (h : quiet a = true) : serveReg a = false := by
  cases hs : serveReg a with
  | false => rfl
  | true => rw [← settleReg_of_serve a hs, settleReg_quiet a h]

theorem Chip.settle_still (s : Chip) : s.settle.still = s.still := (Calm.settle s).still settleReg_quiet
theorem Chip.evalFray_still (s : Chip) : s.evalFray.still = s.still := (Calm.evalFray s).still settleReg_quiet
theorem Chip.serve_still (s : Chip) : s.serve.still = s.still := (Calm.serve s).still serveReg_quiet
theorem Chip.endCmd_still (s : Chip) (e : ExecCmd) (y : Reply) : (s.endCmd e y).still = s.still := (Calm.endCmd s e y).still serveReg_quiet
theorem Chip.endWait_still (s : Chip) (p : Wait → Bool) (y : Reply) : (s.endWait p y).still = s.still :=
  (Calm.endWait s p y).still serveReg_quiet
theorem Chip.conclude_still (s : Chip) (r : Req) (v : Verdict) : (s.conclude r v).still = s.still :=
  (Calm.conclude s r v).still serveReg_quiet
theorem Chip.accept_still (s : Chip) (src : CmdSrc) (op : Nat) : (s.accept src op).1.still = s.still :=
  (Calm.accept s src op).still serveReg_quiet
theorem Chip.complete_still (s : Chip) (c : Completion) : (s.complete c).still = s.still := (Calm.complete s c).still serveReg_quiet
theorem Chip.setSlot_still (s : Chip) (i : Nat) (x : SlotState) : (s.setSlot i x).still = s.still :=
  (Calm.setSlot (fun _ => false) s i x).still (fun _ _ => rfl)
theorem Chip.portMod_still (s : Chip) (p : Nat) (f : Port → Port) : (s.portMod p f).still = s.still :=
  (Calm.portMod (fun _ => false) s p f).still (fun _ _ => rfl)
theorem Chip.saveShadow_still (s : Chip) : s.saveShadow.still = s.still := (Calm.saveShadow (fun _ => false) s).still (fun _ _ => rfl)

end Sys2Proof.Machine
end

