-- ==== Sys2Proof/Laws/StillLanes.lean ====
section
/-! SUPPORT. The shared operations of memory, lanes, Fleyth, mailbox and hanks leave alone what the datapath leaves alone, one lemma each. -/

namespace Sys2Proof.Machine

set_option linter.unusedSimpArgs false

theorem Chip.draw_still (s : Chip) : s.draw.2.still = s.still := Chip.upd_still s ..

theorem Chip.setByte_still (s : Chip) (a : Nat) (v : Byte) : (Chip.setByte s a v).still = s.still := by
  unfold Chip.setByte
  simp only [Chip.upd_still]

theorem Chip.setBytes_still (s : Chip) (a : Nat) (l : List Byte) : (Chip.setBytes s a l).still = s.still := by
  unfold Chip.setBytes
  simp only [Chip.upd_still]

theorem Chip.putGran_still (s : Chip) (m : MemId) (i v : Nat) : (Chip.putGran s m i v).still = s.still := by
  unfold Chip.putGran
  dsimp only
  (repeat' split) <;> simp only [Chip.upd_still, Chip.setBytes_still]

theorem Chip.clearMemory_still (s : Chip) (m : MemId) : (Chip.clearMemory s m).still = s.still := by
  unfold Chip.clearMemory
  dsimp only
  (repeat' split) <;> simp only [Chip.upd_still]

theorem Chip.logFullLevel_still (s : Chip) : (Chip.logFullLevel s).still = s.still := by
  unfold Chip.logFullLevel
  simp only [Chip.setLevel_still]

theorem eccReg_quiet (a : Nat) (h : quiet a = true) : eccReg a = false := by
  cases hs : eccReg a with
  | false => rfl
  | true => rw [← serveReg_of_ecc a hs, serveReg_quiet a h]

theorem lanesReg_quiet (a : Nat) (h : quiet a = true) : lanesReg a = false := by
  cases hs : lanesReg a with
  | false => rfl
  | true => rw [← settleReg_of_lanes a hs, settleReg_quiet a h]

theorem Chip.logEcc_still (s : Chip) (q g : Nat) (k : EccKind) (b : Nat) : (s.logEcc q g k b).still = s.still :=
  (Calm.logEcc s q g k b).still eccReg_quiet

theorem Chip.setBucket_still (s : Chip) (b : Fin 3) (v : Nat) :
  (s.setBucket b v).still = s.still := (Calm.setBucket s b v).still eccReg_quiet

theorem Chip.fillBucket_still (s : Chip) (b : Fin 3) : (Chip.fillBucket s b).still = s.still := by
  unfold Chip.fillBucket
  dsimp only
  split <;> simp (disch := decide) only [Chip.raise_still, Chip.setBucket_still, Chip.setFldBit_still]

theorem Chip.readGran_still (s : Chip) (m : MemId) (i : Nat) : (Chip.readGran s m i).1.still = s.still := by
  unfold Chip.readGran
  dsimp only
  (repeat' split) <;> simp only [Chip.upd_still, Chip.fillBucket_still, Chip.logEcc_still, Chip.putGran_still, Chip.raise_still]

theorem Chip.readMem32_still (s : Chip) (m : MemId) (off : Nat) : (Chip.readMem32 s m off).1.still = s.still := by
  unfold Chip.readMem32
  simp only [Chip.readGran_still]

theorem Chip.writeMem32_still (s : Chip) (m : MemId) (off : Nat) (v : Word) : (Chip.writeMem32 s m off v).1.still = s.still := by
  unfold Chip.writeMem32
  dsimp only
  split <;> simp only [Chip.upd_still, Chip.putGran_still, Chip.readGran_still]

theorem Chip.putBytes_still (i : Nat) (m : MemId) (l : List Nat) (s : Chip) : (Chip.putBytes i m l s).still = s.still := by
  induction l generalizing i s with
  | nil => rfl
  | cons v t ih => exact (ih _ _).trans (Chip.putGran_still s m i v)

theorem Chip.writeBytes_still (s : Chip) (m : MemId) (off : Nat) (l : List Byte) : (s.writeBytes m off l).still = s.still :=
  Chip.putBytes_still _ _ _ _

theorem Chip.readGrans_still (n : Nat) (m : MemId) (i : Nat) (s : Chip) : (Chip.readGrans n m i s).1.still = s.still := by
  induction n generalizing i s with
  | zero => rfl
  | succ n ih => exact (ih _ _).trans (Chip.readGran_still s m i)

theorem Chip.readBytes_still (s : Chip) (m : MemId) (off n : Nat) : (s.readBytes m off n).1.still = s.still :=
  Chip.readGrans_still _ _ _ _

theorem Chip.rxMod_still (s : Chip) (n : Nat) (f : LineRx → LineRx) : (Chip.rxMod s n f).still = s.still := by
  unfold Chip.rxMod
  try dsimp only
  (repeat' split) <;> (first | with_reducible rfl | simp (disch := first | decide) only [Chip.upd_still])

theorem Chip.txMod_still (s : Chip) (n : Nat) (f : LineTx → LineTx) : (Chip.txMod s n f).still = s.still := by
  unfold Chip.txMod
  try dsimp only
  (repeat' split) <;> (first | with_reducible rfl | simp (disch := first | decide) only [Chip.upd_still])

theorem Chip.framerMod_still (s : Chip) (n : Nat) (f : Framer → Framer) : (Chip.framerMod s n f).still = s.still := by
  unfold Chip.framerMod
  try dsimp only
  (repeat' split) <;> (first | with_reducible rfl | simp (disch := first | decide) only [Chip.upd_still])

theorem Chip.hostMod_still (s : Chip) (h : Nat) (f : HostLane → HostLane) : (Chip.hostMod s h f).still = s.still := by
  unfold Chip.hostMod
  try dsimp only
  (repeat' split) <;> (first | with_reducible rfl | simp (disch := first | decide) only [Chip.upd_still])

theorem Chip.quadMod_still (s : Chip) (q : Nat) (f : QuadSt → QuadSt) : (Chip.quadMod s q f).still = s.still := by
  unfold Chip.quadMod
  try dsimp only
  (repeat' split) <;> (first | with_reducible rfl | simp (disch := first | decide) only [Chip.upd_still])

theorem Chip.crlMod_still (s : Chip) (n : Nat) (f : CrlLane → CrlLane) : (Chip.crlMod s n f).still = s.still := by
  unfold Chip.crlMod
  dsimp only
  split <;> simp only [Chip.upd_still]

theorem Chip.setRxState_still (s : Chip) (n st : Nat) : (Chip.setRxState s n st).still = s.still := by
  unfold Chip.setRxState
  simp (disch := (apply quiet_ge; dsimp only [LRX_STATUS.STATE, LRX_STATUS.addr]; omega)) only [Chip.setFld_still, Chip.setLevel_still]

theorem Chip.refreshPort_still (s : Chip) (p : Nat) : (Chip.refreshPort s p).still = s.still := by
  unfold Chip.refreshPort
  try dsimp only
  (repeat' split) <;> (first | with_reducible rfl | simp (disch := first | decide) only [Chip.upd_still, Chip.portMod_still])

theorem Chip.refreshPorts_still (s : Chip) :
  s.refreshPorts.still = s.still := (Calm.refreshPorts (fun _ => false) s).still (fun _ _ => rfl)

theorem Chip.setFray_still (s : Chip) (new : Nat) : (Chip.setFray s new).still = s.still :=
  (Calm.setFray settleReg (by decide) (by decide) s new).still settleReg_quiet

theorem Chip.keepConfig_still (s : Chip) : (Chip.keepConfig s).still = s.still := by
  unfold Chip.keepConfig
  simp only [Chip.upd_still]

theorem Chip.keepFw_still (s : Chip) (a : Nat) : (Chip.keepFw s a).still = s.still := by
  unfold Chip.keepFw
  simp only [Chip.upd_still]

theorem Chip.addPortDone_still (s : Chip) (e : ExecCmd) : (Chip.addPortDone s e).still = s.still := by
  unfold Chip.addPortDone
  dsimp only
  (repeat' split) <;> simp only [Chip.upd_still, Chip.endCmd_still, Chip.portMod_still, Chip.refreshPort_still, Chip.saveShadow_still]

theorem Chip.judgeModes_still (s : Chip) : s.judgeModes.still = s.still := (Calm.judgeModes s).still lanesReg_quiet

theorem Chip.refreshInband_still (s : Chip) : s.refreshInband.still = s.still := (Calm.refreshInband s).still lanesReg_quiet

theorem Chip.crlStart_still (s : Chip) (n : Nat) :
  (s.crlStart n).still = s.still := (Calm.crlStart (fun _ => false) s n).still (fun _ _ => rfl)

theorem Chip.crlStop_still (s : Chip) (n : Nat) : (Chip.crlStop s n).still = s.still := by
  unfold Chip.crlStop
  simp (disch := (apply quiet_ge; dsimp only [CRL_LANE_STATUS.SLUB, CRL_LANE_STATUS.addr]; omega)) only [Chip.upd_still, Chip.setFlag_still, Chip.setLevel_still]

theorem Chip.crlRefresh_still (s : Chip) : s.crlRefresh.still = s.still := (Calm.crlRefresh s).still lanesReg_quiet

theorem Chip.startSteps_still (s : Chip) : (Chip.startSteps s).still = s.still := by
  unfold Chip.startSteps
  dsimp only
  (repeat' split) <;> simp (disch := decide) only [Chip.setFld_still]

theorem Chip.flyMod_still (s : Chip) (p : Nat) (f : FlyPort → FlyPort) : (Chip.flyMod s p f).still = s.still := by
  unfold Chip.flyMod
  dsimp only
  split <;> simp only [Chip.upd_still]

theorem Chip.flyDrop_still (s : Chip) (r : FlyDrop) : (s.flyDrop r).still = s.still := (Calm.flyDrop s r).still serveReg_quiet

theorem Chip.flyQueue_still (s : Chip) (p : Nat) (m : List Byte × Bool) : (s.flyQueue p m).still = s.still :=
  (Calm.flyQueue s p m).still serveReg_quiet

theorem Chip.flySend_still (s : Chip) (p : Nat) (m : FlyMsg) : (s.flySend p m).still = s.still := Chip.flyQueue_still _ _ _

theorem Chip.flyForward_still (s : Chip) (m : FlyMsg) (from_ : Option Nat) : (s.flyForward m from_).still = s.still :=
  (Calm.flyForward s m from_).still serveReg_quiet

theorem Chip.flyCutThrough_still (s : Chip) (p : Nat) (l : List Byte) : (s.flyCutThrough p l).still = s.still := by
  unfold Chip.flyCutThrough
  dsimp only
  (repeat' split) <;> first | rfl | exact Chip.flyQueue_still _ _ _

theorem Chip.flyOriginate_still (s : Chip) (m : FlyMsg) : (Chip.flyOriginate s m).still = s.still := by
  unfold Chip.flyOriginate
  try dsimp only
  (repeat' split) <;> (first | with_reducible rfl | simp (disch := first | decide) only [Chip.upd_still, Chip.flyDrop_still,
    Chip.flyForward_still])

theorem Chip.flyLinkLocal_still (s : Chip) (p typ : Nat) (body : List Byte) : (Chip.flyLinkLocal s p typ body).still = s.still := by
  unfold Chip.flyLinkLocal
  simp only [Chip.flySend_still]

theorem Chip.flyRespond_still (s : Chip) (dst tag status : Nat) (hasData : Bool) (respLen : Nat) (l : List Byte) :
  (Chip.flyRespond s dst tag status hasData respLen l).still = s.still := by
  unfold Chip.flyRespond
  simp only [Chip.flyOriginate_still]

theorem Chip.flySetLink_still (s : Chip) (p : Nat) (up : Bool) : (Chip.flySetLink s p up).still = s.still := by
  unfold Chip.flySetLink
  dsimp only
  (repeat' split) <;> simp (disch := decide) only [Chip.upd_still, Chip.flyMod_still, Chip.raise_still, Chip.setFldBit_still]

theorem Chip.flyCount_still (s : Chip) (p : Nat) : (Chip.flyCount s p).still = s.still := by
  unfold Chip.flyCount
  simp only [Chip.count_still]

theorem Chip.inbandByte_still (s : Chip) (p : Nat) : (Chip.inbandByte s p).1.still = s.still := by
  unfold Chip.inbandByte
  dsimp only
  (repeat' split) <;> simp only [Chip.upd_still, Chip.flyCount_still, Chip.flyMod_still]

theorem Chip.inbandFrame_still (s : Chip) (p : Nat) (ok : Bool) (a b : Byte) : (Chip.inbandFrame s p ok a b).still = s.still := by
  unfold Chip.inbandFrame
  dsimp only
  (repeat' split) <;> first | with_reducible rfl | simp (disch := (intros; simp only [Chip.upd_still, Chip.flyDrop_still,
    Chip.flyMod_still, Chip.flySetLink_still, Chip.when_still])) only [Chip.upd_still, Chip.flyDrop_still, Chip.flyMod_still,
    Chip.flySetLink_still, Chip.when_still]

theorem Chip.inbandLost_still (s : Chip) (p : Nat) : (Chip.inbandLost s p).still = s.still := by
  unfold Chip.inbandLost
  simp only [Chip.upd_still, Chip.flyMod_still, Chip.flySetLink_still]

theorem Chip.signalCpl_still (s : Chip) : (Chip.signalCpl s).still = s.still := by
  unfold Chip.signalCpl
  dsimp only
  split <;> simp only [Chip.upd_still, Chip.raise_still]

theorem Chip.postCpl_still (s : Chip) (c : Completion) : (Chip.postCpl s c).still = s.still := by
  unfold Chip.postCpl
  dsimp only
  split <;> simp (disch := decide) only [Chip.upd_still, Chip.count_still, Chip.setReg_still, Chip.setSlot_still,
    Chip.signalCpl_still, Chip.writeBytes_still]

theorem Chip.writeResp_still (s : Chip) (i : Nat) (l : List Byte) : (Chip.writeResp s i l).still = s.still := by
  unfold Chip.writeResp
  simp only [Chip.writeBytes_still]

theorem Chip.finish_still (s : Chip) (src : CmdSrc) (opcode tag flySrc : Nat) (r : Reply) :
  (Chip.finish s src opcode tag flySrc r).still = s.still := by
  unfold Chip.finish
  dsimp only
  (repeat' split) <;> simp only [Chip.upd_still, Chip.complete_still, Chip.flyRespond_still, Chip.writeResp_still]

theorem Chip.slotReq_still (s : Chip) (i : Fin 16) : (s.slotReq i).1.still = s.still := (Calm.slotReq s i).still serveReg_quiet

theorem Chip.begin_still (s : Chip) (src : CmdSrc) : (Chip.begin s src).still = s.still := by
  exact (Calm.begin (fun _ => false) s src).still (fun _ _ => rfl)

theorem Chip.finishReq_still (s : Chip) (r : Req) (y : Reply) : (Chip.finishReq s r y).still = s.still := by
  unfold Chip.finishReq
  simp only [Chip.finish_still]

theorem Chip.reqOf_still (s : Chip) (src : CmdSrc) : (Chip.reqOf s src).1.still = s.still := by
  unfold Chip.reqOf
  dsimp only
  split <;> simp only [Chip.upd_still, Chip.slotReq_still]

theorem Chip.krelin_still (s : Chip) (src : CmdSrc) (op : Nat) (f : Chip → Req → Chip × Verdict)
    (h : ∀ c r, (f c r).1.still = c.still) : (s.krelin src op f).still = s.still := by
  unfold Chip.krelin
  have ha := Chip.accept_still s src op
  revert ha
  generalize s.accept src op = q
  intro ha
  obtain ⟨c, r⟩ := q
  cases r with
  | none => exact ha
  | some r => exact (Chip.conclude_still _ _ _).trans ((h c r).trans ha)

theorem Chip.setHankSlot_still (s : Chip) (i : Nat) (x : HankSlot) : (Chip.setHankSlot s i x).still = s.still := by
  unfold Chip.setHankSlot
  simp only [Chip.upd_still]

theorem Chip.hankSlotMod_still (s : Chip) (i : Nat) (f : HankSlot → HankSlot) : (Chip.hankSlotMod s i f).still = s.still := by
  unfold Chip.hankSlotMod
  simp only [Chip.setHankSlot_still]

theorem Chip.touchSlot_still (s : Chip) (i : Nat) : (Chip.touchSlot s i).still = s.still := by
  unfold Chip.touchSlot
  simp only [Chip.upd_still, Chip.hankSlotMod_still]

theorem Chip.freeHank_still (s : Chip) (i : Nat) : (Chip.freeHank s i).still = s.still := by
  unfold Chip.freeHank
  simp only [Chip.setHankSlot_still]

theorem Chip.unbusy_still (s : Chip) (i : Nat) : (Chip.unbusy s i).still = s.still := by
  unfold Chip.unbusy
  simp only [Chip.upd_still, Chip.hankSlotMod_still]

theorem Chip.dropLastGood_still (s : Chip) (n : Nat) : (Chip.dropLastGood s n).still = s.still := by
  unfold Chip.dropLastGood
  try dsimp only
  (repeat' split) <;> (first | with_reducible rfl | simp (disch := first | decide | (apply quiet_ge; dsimp only [HNK_LANE_STATUS.LAST_GOOD, HNK_LANE_STATUS.LG_VALID, HNK_LANE_STATUS.addr]; omega)) only [Chip.upd_still, Chip.hankSlotMod_still, Chip.setFlag_still, Chip.setFld_still])

theorem Chip.dropActive_still (s : Chip) (n : Nat) : (Chip.dropActive s n).still = s.still := by
  unfold Chip.dropActive
  try dsimp only
  (repeat' split) <;> (first | with_reducible rfl | simp (disch := first | decide | (apply quiet_ge; dsimp only [HNK_LANE_STATUS.ACTIVE, HNK_LANE_STATUS.ACT_VALID, HNK_LANE_STATUS.addr]; omega)) only [Chip.upd_still, Chip.hankSlotMod_still, Chip.setFlag_still, Chip.setFld_still])

theorem Chip.dropPins_still (s : Chip) (n : Nat) : (Chip.dropPins s n).still = s.still := by
  unfold Chip.dropPins
  simp only [Chip.dropActive_still, Chip.dropLastGood_still]

theorem Chip.pinLastGood_still (s : Chip) (n i : Nat) : (Chip.pinLastGood s n i).still = s.still := by
  unfold Chip.pinLastGood
  simp (disch := (apply quiet_ge; dsimp only [HNK_LANE_STATUS.LAST_GOOD, HNK_LANE_STATUS.LG_VALID, HNK_LANE_STATUS.addr]; omega)) only [Chip.upd_still, Chip.dropLastGood_still, Chip.hankSlotMod_still, Chip.setFlag_still, Chip.setFld_still]

theorem Chip.pinActive_still (s : Chip) (n i : Nat) : (Chip.pinActive s n i).still = s.still := by
  unfold Chip.pinActive
  simp (disch := (apply quiet_ge; dsimp only [HNK_LANE_STATUS.ACTIVE, HNK_LANE_STATUS.ACT_VALID, HNK_LANE_STATUS.addr]; omega)) only [Chip.upd_still, Chip.dropActive_still, Chip.hankSlotMod_still, Chip.setFlag_still, Chip.setFld_still]

theorem Chip.markBad_still (s : Chip) (i : Nat) : (Chip.markBad s i).still = s.still := by
  unfold Chip.markBad
  simp (disch := (intros; (repeat' split) <;> simp only [Chip.dropActive_still, Chip.dropLastGood_still, Chip.forAll_still,
    Chip.raise_still, Chip.setHankSlot_still])) only [Chip.dropActive_still, Chip.dropLastGood_still, Chip.forAll_still,
    Chip.raise_still, Chip.setHankSlot_still]

theorem tapFlds_quiet (n : Nat) : ∀ f ∈ tapFlds n, quiet f.addr = false := by
  intro f hf
  apply quiet_ge
  simp only [tapFlds, List.mem_cons, List.not_mem_nil, or_false] at hf
  rcases hf with h | h | h | h | h | h | h | h | h <;> subst h <;>
    dsimp only [LTX_TAPS0.CM3, LTX_TAPS0.CM2, LTX_TAPS0.CM1, LTX_TAPS1.C0, LTX_TAPS1.CP1, LTX_TAPS1.CP2, LTX_TAPS2.CP3, LTX_TAPS2.CP4,
      LTX_TAPS2.CP5, LTX_TAPS0.addr, LTX_TAPS1.addr, LTX_TAPS2.addr] <;> omega

theorem Chip.setTxTaps_still (s : Chip) (n : Nat) (l : List Int) : (s.setTxTaps n l).still = s.still := by
  have h : ∀ (l : List (Fld × Int)) (s : Chip), (∀ p ∈ l, quiet p.1.addr = false) →
      (s.forAll l (fun s p => s.setFld p.1 (unsignedOf 9 p.2))).still = s.still := by
    intro l
    unfold Chip.forAll
    induction l with
    | nil => intro s _; rfl
    | cons x l ih =>
      intro s hl
      rw [List.foldl_cons, ih _ (fun p hp => hl p (List.mem_cons_of_mem _ hp)), Chip.setFld_still _ _ _ (hl x (by simp))]
  exact h _ _ (fun p hp => tapFlds_quiet n p.1 (List.of_mem_zip hp).1)

theorem Chip.writeHank_still (s t : Chip) (img : List Byte) (i : Nat) (h : s.writeHank img = some (t, i)) : t.still = s.still := by
  unfold Chip.writeHank at h
  split at h
  · cases h
  · cases h
    simp only [Chip.touchSlot_still, Chip.writeBytes_still, Chip.setHankSlot_still]

theorem Chip.readHank_still (s : Chip) (i : Nat) : (s.readHank i).1.still = s.still := by
  unfold Chip.readHank
  have h := Chip.readBytes_still s .hankStore (hankOff i) 2048
  revert h
  generalize s.readBytes .hankStore (hankOff i) 2048 = r
  intro h
  exact h

theorem Chip.shieldHank_still (s : Chip) (i : Nat) : (Chip.shieldHank s i).still = s.still := by
  unfold Chip.shieldHank
  dsimp only
  split <;> simp only [Chip.upd_still, Chip.setHankSlot_still]

theorem Chip.capture_still (s : Chip) (n kind : Nat) : (s.capture n kind).still = s.still := by
  unfold Chip.capture
  dsimp only
  split
  · rfl
  · rename_i h
    have h := Chip.writeHank_still _ _ _ _ h
    simp (disch := first | decide | (apply quiet_ge; dsimp only [HNK_LANE_STATUS.LIMITED, HNK_LANE_STATUS.addr]; omega)) only [Chip.upd_still, Chip.raise_still, Chip.setFlag_still, Chip.hankSlotMod_still, h]

theorem Chip.dropSnap_still (s : Chip) (x : Snap) : (Chip.dropSnap s x).still = s.still := by
  unfold Chip.dropSnap
  simp only [Chip.upd_still]

theorem Chip.killSnapshot_still (s : Chip) (n : Nat) : (Chip.killSnapshot s n).still = s.still := by
  unfold Chip.killSnapshot
  try dsimp only
  (repeat' split) <;> (first | with_reducible rfl | simp (disch := first | decide) only [Chip.upd_still, Chip.dropSnap_still,
    Chip.freeHank_still])

theorem Chip.snapshot_still (s : Chip) (n : Nat) : (Chip.snapshot s n).still = s.still := by
  unfold Chip.snapshot
  try dsimp only
  (repeat' split) <;> (first | with_reducible rfl | simp (disch := first | decide | (apply quiet_ge; dsimp only [LRX_STATUS.GOOD, LRX_STATUS.addr]; omega)) only [Chip.upd_still, Chip.capture_still])

theorem Chip.commitSnapshot_still (s : Chip) (n : Nat) : (Chip.commitSnapshot s n).still = s.still := by
  unfold Chip.commitSnapshot
  dsimp only
  (repeat' split) <;> simp (disch := (apply quiet_ge; dsimp only [HNK_LANE_STATUS.FAR_CHANGED, HNK_LANE_STATUS.LIMITED, HNK_LANE_STATUS.addr]; omega)) only [Chip.upd_still, Chip.dropSnap_still, Chip.pinLastGood_still, Chip.readHank_still, Chip.setFlag_still, Chip.unbusy_still, Chip.writeBytes_still]

theorem Chip.checkpoint_still (s : Chip) (n : Nat) : (Chip.checkpoint s n).still = s.still := by
  unfold Chip.checkpoint
  try dsimp only
  (repeat' split) <;> (first | with_reducible rfl | simp (disch := first | decide) only [Chip.upd_still, Chip.capture_still])

theorem Chip.commitCheckpoint_still (s : Chip) (n : Nat) : (Chip.commitCheckpoint s n).still = s.still := by
  unfold Chip.commitCheckpoint
  try dsimp only
  (repeat' split) <;> (first | with_reducible rfl | simp (disch := first | decide) only [Chip.upd_still, Chip.dropSnap_still,
    Chip.pinActive_still, Chip.unbusy_still])

theorem Chip.queuePage_still (s : Chip) (r : PageReq) : (Chip.queuePage s r).still = s.still := by
  unfold Chip.queuePage
  simp only [Chip.upd_still]

theorem Chip.withdrawPages_still (s : Chip) (n : Nat) : (Chip.withdrawPages s n).still = s.still := by
  unfold Chip.withdrawPages
  dsimp only
  split <;> simp only [Chip.upd_still, Chip.endWait_still]

theorem Chip.setOutcome_still (s : Chip) (n o : Nat) : (Chip.setOutcome s n o).still = s.still := by
  unfold Chip.setOutcome
  simp (disch := (apply quiet_ge; dsimp only [HNK_LANE_STATUS.OUTCOME, HNK_LANE_STATUS.addr]; omega)) only [Chip.setFld_still]

theorem Chip.takeHold_still (s : Chip) (n : Nat) : (Chip.takeHold s n).still = s.still := by
  unfold Chip.takeHold
  simp only [Chip.upd_still]

theorem Chip.leaveHold_still (s : Chip) (n : Nat) : (Chip.leaveHold s n).still = s.still := by
  unfold Chip.leaveHold
  simp only [Chip.upd_still]

theorem Chip.queueRestore_still (s : Chip) (n : Nat) : (Chip.queueRestore s n).still = s.still := by
  unfold Chip.queueRestore
  try dsimp only
  (repeat' split) <;> (first | with_reducible rfl | simp (disch := first | decide) only [Chip.upd_still, Chip.queuePage_still])

theorem Chip.hankHold_still (s : Chip) (n : Nat) : (Chip.hankHold s n).1.still = s.still := by
  unfold Chip.hankHold
  dsimp only
  (repeat' split) <;> simp only [Chip.leaveHold_still, Chip.queueRestore_still, Chip.setOutcome_still, Chip.takeHold_still]

theorem Chip.countRestore_still (s : Chip) (n : Nat) : (Chip.countRestore s n).still = s.still := by
  unfold Chip.countRestore
  dsimp only
  split <;> simp (disch := (apply quiet_ge; dsimp only [HNK_CFG.RESTORE_LIMIT, HNK_CFG.addr, HNK_LANE_STATUS.LIMITED, HNK_LANE_STATUS.addr]; omega)) only [Chip.upd_still, Chip.raise_still, Chip.setFlag_still]

theorem Chip.startPage_still (s : Chip) : (Chip.startPage s).still = s.still := by
  unfold Chip.startPage
  dsimp only
  (repeat' split) <;> simp only [Chip.upd_still, Chip.countRestore_still, Chip.hankSlotMod_still, Chip.touchSlot_still]

theorem Chip.flushLane_still (s : Chip) (n : Nat) : (Chip.flushLane s n).1.still = s.still := by
  unfold Chip.flushLane
  simp (disch := (intros; simp only [Chip.upd_still, Chip.dropPins_still, Chip.forAll_still, Chip.freeHank_still])) only
    [Chip.upd_still, Chip.dropPins_still, Chip.forAll_still, Chip.freeHank_still]

theorem Chip.flushWaiting_still (s : Chip) (n : Nat) : (Chip.flushWaiting s n).still = s.still := by
  unfold Chip.flushWaiting
  dsimp only
  split <;> simp only [Chip.upd_still, Chip.endWait_still, Chip.flushLane_still]

theorem Chip.takeShadows_still (s : Chip) (p : Nat → Bool) : (Chip.takeShadows s p).still = s.still := by
  unfold Chip.takeShadows
  simp only [Chip.upd_still, Chip.count_still, Chip.foldl_still]

theorem Chip.clearCount_still (s : Chip) (a : Nat) (h : quiet a = false) : (s.clearCount a).still = s.still := by
  unfold Chip.clearCount
  dsimp only
  exact (Chip.upd_still (s.setReg a _) ..).trans (Chip.setReg_still _ _ _ h)

/-- A list of counts cleared. -/
theorem Chip.clearCounts_still (l : List Nat) (hl : ∀ a ∈ l, quiet a = false) (s : Chip) :
  (s.forAll l Chip.clearCount).still = s.still := by
  unfold Chip.forAll
  induction l generalizing s with
  | nil => rfl
  | cons x l ih =>
    rw [List.foldl_cons, ih (fun a ha => hl a (List.mem_cons_of_mem _ ha)), Chip.clearCount_still _ _ (hl x (by simp))]

end Sys2Proof.Machine
end

