-- ==== Sys2Proof/Laws/StillLines.lean ====
section
/-! SUPPORT. So do those of the line lanes and the hank commands, one lemma each. -/

namespace Sys2Proof.Machine

set_option linter.unusedSimpArgs false
set_option linter.unusedTactic false
set_option linter.unnecessarySeqFocus false
set_option linter.unreachableTactic false

theorem lossFlag_quiet (n c : Nat) : quiet (lossFlag n c).addr = false := by
  apply quiet_ge
  unfold lossFlag
  split <;> dsimp only [LRX_FAULT.LOS, LRX_FAULT.CDR_UNLOCK, LRX_FAULT.SNR_LOSS, LRX_FAULT.FRAME_LOSS, LRX_FAULT.addr] <;> omega

theorem Chip.lossFaults_still (s : Chip) (n causes : Nat) : (s.lossFaults n causes).still = s.still :=
  Chip.forAll_still _ _ _ (fun s c => Chip.setFlag_still s _ _ (lossFlag_quiet n c))

theorem Chip.losLevel_still (s : Chip) (n : Nat) : (Chip.losLevel s n).still = s.still := by
  unfold Chip.losLevel
  simp only [Chip.setLevel_still]

theorem Chip.loseFrame_still (s : Chip) (n : Nat) : (s.loseFrame n).still = s.still := by
  unfold Chip.loseFrame
  try dsimp only
  (repeat' split) <;> first | with_reducible rfl | simp (disch := first | decide | (apply quiet_ge; dsimp only [LRX_STATUS.FRAME_LOCK, LRX_STATUS.addr, TWF_LANE_STATUS.FRAME_LOCK, TWF_LANE_STATUS.FRAMING, TWF_LANE_STATUS.SEEK, TWF_LANE_STATUS.addr]; omega) | (intros; (try dsimp only); (repeat' split) <;> first | with_reducible rfl | simp (disch := first | decide | (apply quiet_ge; dsimp only [LRX_STATUS.FRAME_LOCK, LRX_STATUS.addr, TWF_LANE_STATUS.FRAME_LOCK, TWF_LANE_STATUS.FRAMING, TWF_LANE_STATUS.SEEK, TWF_LANE_STATUS.addr]; omega)) only [Chip.upd_still, Chip.framerMod_still, Chip.setFlag_still, Chip.txMod_still])) only [Chip.upd_still, Chip.framerMod_still, Chip.setFlag_still, Chip.txMod_still]

theorem Chip.clearGood_still (s : Chip) (n : Nat) : (Chip.clearGood s n).still = s.still := by
  unfold Chip.clearGood
  simp (disch := (apply quiet_ge; dsimp only [LRX_STATUS.GOOD, LRX_STATUS.addr]; omega)) only [Chip.killSnapshot_still, Chip.setFlag_still]

theorem Chip.restartLock_still (s : Chip) (n : Nat) : (s.restartLock n).still = s.still := by
  unfold Chip.restartLock
  try dsimp only
  (repeat' split) <;> first | with_reducible rfl | simp (disch := first | decide | (apply quiet_ge; dsimp only [LRX_STATUS.CDR_LOCK, LRX_STATUS.EQ_CONV, LRX_STATUS.addr]; omega) | (intros; (try dsimp only); (repeat' split) <;> first | with_reducible rfl | simp (disch := first | decide | (apply quiet_ge; dsimp only [LRX_STATUS.CDR_LOCK, LRX_STATUS.EQ_CONV, LRX_STATUS.addr]; omega)) only [Chip.upd_still, Chip.loseFrame_still, Chip.rxMod_still, Chip.setFlag_still])) only [Chip.upd_still, Chip.loseFrame_still, Chip.rxMod_still, Chip.setFlag_still]

theorem Chip.restartCriteria_still (s : Chip) (n : Nat) : (s.restartCriteria n).still = s.still := by
  unfold Chip.restartCriteria
  try dsimp only
  (repeat' split) <;> first | with_reducible rfl | simp (disch := first | decide | (apply quiet_ge; dsimp only [LRX_SNR.SNR_AVG, LRX_SNR.addr]; omega) | (intros; (try dsimp only); (repeat' split) <;> first | with_reducible rfl | simp (disch := first | decide | (apply quiet_ge; dsimp only [LRX_SNR.SNR_AVG, LRX_SNR.addr]; omega)) only [Chip.upd_still, Chip.restartLock_still, Chip.rxMod_still, Chip.setFld_still])) only [Chip.upd_still, Chip.restartLock_still, Chip.rxMod_still, Chip.setFld_still]

theorem Chip.adcJudge_still (s : Chip) (n : Nat) (was : List (Int × Int × Int)) : (s.adcJudge n was).still = s.still := by
  unfold Chip.adcJudge
  try dsimp only
  (repeat' split) <;> first | with_reducible rfl | simp (disch := first | decide | (apply quiet_ge; dsimp only [LRX_ADC_CAL.AT_LIMIT, LRX_ADC_CAL.SUB, LRX_ADC_CAL.addr, LRX_FAULT.ADC_CAL, LRX_FAULT.addr]; omega) | (intros; (try dsimp only); (repeat' split) <;> first | with_reducible rfl | simp (disch := first | decide | (apply quiet_ge; dsimp only [LRX_ADC_CAL.AT_LIMIT, LRX_ADC_CAL.SUB, LRX_ADC_CAL.addr, LRX_FAULT.ADC_CAL, LRX_FAULT.addr]; omega)) only [Chip.upd_still, Chip.setFlag_still, Chip.setFld_still, Chip.setLevel_still])) only [Chip.upd_still, Chip.setFlag_still, Chip.setFld_still, Chip.setLevel_still]

theorem Chip.setLive_still (s : Chip) (n : Nat) (x : Live) : (s.setLive n x).still = s.still := by
  unfold Chip.setLive
  try dsimp only
  (repeat' split) <;> first | with_reducible rfl | simp (disch := first | decide | (intros; (try dsimp only); (repeat' split) <;> first | with_reducible rfl | simp (disch := decide) only [Chip.upd_still, Chip.adcJudge_still, Chip.rxMod_still])) only [Chip.upd_still, Chip.adcJudge_still, Chip.rxMod_still]

theorem Chip.retrain_still (s : Chip) (n : Nat) : (s.retrain n).still = s.still := by
  unfold Chip.retrain
  try dsimp only
  (repeat' split) <;> first | with_reducible rfl | simp (disch := first | decide | (apply quiet_ge; dsimp only [LRX_STATUS.HOLD_CAUSE, LRX_STATUS.addr]; omega) | (intros; (try dsimp only); (repeat' split) <;> first | with_reducible rfl | simp (disch := first | decide | (apply quiet_ge; dsimp only [LRX_STATUS.HOLD_CAUSE, LRX_STATUS.addr]; omega)) only [Chip.upd_still, Chip.clearGood_still, Chip.leaveHold_still, Chip.restartCriteria_still, Chip.rxMod_still, Chip.setFld_still, Chip.setLive_still, Chip.setRxState_still])) only [Chip.upd_still, Chip.clearGood_still, Chip.leaveHold_still, Chip.restartCriteria_still, Chip.rxMod_still, Chip.setFld_still, Chip.setLive_still, Chip.setRxState_still]

theorem Chip.startRx_still (s : Chip) (n rate : Nat) (why : Option PageWhy) : (Chip.startRx s n rate why).still = s.still := by
  unfold Chip.startRx
  simp (disch := (apply quiet_ge; dsimp only [LRX_STATUS.RATE, LRX_STATUS.VOLT_SET, LRX_STATUS.addr]; omega)) only [Chip.upd_still, Chip.retrain_still, Chip.rxMod_still, Chip.setFld_still]

theorem Chip.rxToOff_still (s : Chip) (n : Nat) : (s.rxToOff n).still = s.still := by
  unfold Chip.rxToOff
  try dsimp only
  (repeat' split) <;> first | with_reducible rfl | simp (disch := first | decide | (apply quiet_ge; dsimp only [LRX_STATUS.HOLD_CAUSE, LRX_STATUS.MARGIN_LOW, LRX_STATUS.RX_SNR, LRX_STATUS.addr]; omega) | (intros; (try dsimp only); (repeat' split) <;> first | with_reducible rfl | simp (disch := first | decide | (apply quiet_ge; dsimp only [LRX_STATUS.HOLD_CAUSE, LRX_STATUS.MARGIN_LOW, LRX_STATUS.RX_SNR, LRX_STATUS.addr]; omega)) only [Chip.upd_still, Chip.capture_still, Chip.clearGood_still, Chip.flushWaiting_still, Chip.framerMod_still, Chip.leaveHold_still, Chip.losLevel_still, Chip.restartLock_still, Chip.rxMod_still, Chip.setFlag_still, Chip.setFld_still, Chip.setLevel_still, Chip.setLive_still, Chip.setRxState_still, Chip.withdrawPages_still])) only [Chip.upd_still, Chip.capture_still, Chip.clearGood_still, Chip.flushWaiting_still, Chip.framerMod_still, Chip.leaveHold_still, Chip.losLevel_still, Chip.restartLock_still, Chip.rxMod_still, Chip.setFlag_still, Chip.setFld_still, Chip.setLevel_still, Chip.setLive_still, Chip.setRxState_still, Chip.withdrawPages_still]

theorem Chip.putHold_still (s : Chip) (n : Nat) : (s.putHold n).still = s.still := by
  unfold Chip.putHold
  try dsimp only
  (repeat' split) <;> first | with_reducible rfl | simp (disch := first | decide | (apply quiet_ge; dsimp only [LRX_STATUS.HOLD_CAUSE, LRX_STATUS.addr]; omega)) only [Chip.upd_still, Chip.setFld_still, Chip.setRxState_still]

theorem Chip.triggerCapture_still (s : Chip) (n : Nat) : (Chip.triggerCapture s n).still = s.still := by
  unfold Chip.triggerCapture
  simp only [Chip.upd_still, Chip.capture_still, Chip.rxMod_still]

theorem Chip.toHold_still (s : Chip) (n : Nat) : (s.toHold n).still = s.still := by
  unfold Chip.toHold
  try dsimp only
  (repeat' split) <;> first | with_reducible rfl | simp (disch := first | decide | (apply quiet_ge; dsimp only [LRX_LOCK_CNT.LOSS_CNT, LRX_LOCK_CNT.addr]; omega) | (intros; (try dsimp only); (repeat' split) <;> first | with_reducible rfl | simp (disch := first | decide | (apply quiet_ge; dsimp only [LRX_LOCK_CNT.LOSS_CNT, LRX_LOCK_CNT.addr]; omega)) only [Chip.upd_still, Chip.putHold_still, Chip.satInc_still, Chip.triggerCapture_still, Chip.when_still])) only [Chip.upd_still, Chip.putHold_still, Chip.satInc_still, Chip.triggerCapture_still, Chip.when_still]

theorem Chip.enterHold_still (s : Chip) (n causes : Nat) : (s.enterHold n causes).still = s.still := by
  unfold Chip.enterHold
  try dsimp only
  (repeat' split) <;> first | with_reducible rfl | simp (disch := first | decide | (apply quiet_ge; dsimp only [LRX_STATUS.CDR_LOCK, LRX_STATUS.EQ_CONV, LRX_STATUS.addr]; omega) | (intros; (try dsimp only); (repeat' split) <;> first | with_reducible rfl | simp (disch := first | decide | (apply quiet_ge; dsimp only [LRX_STATUS.CDR_LOCK, LRX_STATUS.EQ_CONV, LRX_STATUS.addr]; omega)) only [Chip.upd_still, Chip.clearGood_still, Chip.loseFrame_still, Chip.lossFaults_still, Chip.rxMod_still, Chip.setFlag_still, Chip.toHold_still, Chip.when_still, Chip.withdrawPages_still])) only [Chip.upd_still, Chip.clearGood_still, Chip.loseFrame_still, Chip.lossFaults_still, Chip.rxMod_still, Chip.setFlag_still, Chip.toHold_still, Chip.when_still, Chip.withdrawPages_still]

theorem Chip.closeWindow_still (s : Chip) (n : Nat) : (Chip.closeWindow s n).still = s.still := by
  unfold Chip.closeWindow
  simp only [Chip.upd_still, Chip.rxMod_still, Chip.toHold_still]

theorem Chip.showLive_still (s : Chip) (n : Nat) : (Chip.showLive s n).still = s.still := by
  unfold Chip.showLive
  simp (disch := (apply quiet_ge; dsimp only [LRX_CDR.FREQ_OFS, LRX_CDR.PHASE, LRX_CDR.addr]; omega)) only [Chip.setFld_still]

theorem Chip.swapIn_still (s : Chip) (n : Nat) (why : PageWhy) (l : List Byte) : (s.swapIn n why l).still = s.still := by
  unfold Chip.swapIn
  try dsimp only
  (repeat' split) <;> first | with_reducible rfl | simp (disch := first | decide | (apply quiet_ge; dsimp only [LRX_STATUS.HOLD_CAUSE, LRX_STATUS.addr]; omega) | (intros; (try dsimp only); (repeat' split) <;> first | with_reducible rfl | simp (disch := first | decide | (apply quiet_ge; dsimp only [LRX_STATUS.HOLD_CAUSE, LRX_STATUS.addr]; omega)) only [Chip.upd_still, Chip.clearGood_still, Chip.restartCriteria_still, Chip.rxMod_still, Chip.setFld_still, Chip.setLive_still, Chip.setRxState_still, Chip.showLive_still, Chip.toHold_still])) only [Chip.upd_still, Chip.clearGood_still, Chip.restartCriteria_still, Chip.rxMod_still, Chip.setFld_still, Chip.setLive_still, Chip.setRxState_still, Chip.showLive_still, Chip.toHold_still]

theorem Chip.offIfUnused_still (s : Chip) (n : Nat) : (Chip.offIfUnused s n).still = s.still := by
  unfold Chip.offIfUnused
  try dsimp only
  (repeat' split) <;> (first | with_reducible rfl | simp (disch := first | decide) only [Chip.upd_still, Chip.rxToOff_still])

theorem Chip.setVolt_still (s : Chip) (n v : Nat) : (s.setVolt n v).still = s.still := by
  unfold Chip.setVolt
  try dsimp only
  (repeat' split) <;> first | with_reducible rfl | simp (disch := first | decide | (apply quiet_ge; dsimp only [LRX_STATUS.VOLT_SET, LRX_STATUS.addr]; omega) | (intros; (try dsimp only); (repeat' split) <;> first | with_reducible rfl | simp (disch := first | decide | (apply quiet_ge; dsimp only [LRX_STATUS.VOLT_SET, LRX_STATUS.addr]; omega)) only [Chip.upd_still, Chip.raise_still, Chip.rxMod_still, Chip.setFld_still])) only [Chip.upd_still, Chip.raise_still, Chip.rxMod_still, Chip.setFld_still]

theorem Chip.setPlyRx_still (s : Chip) (st : Nat) : (Chip.setPlyRx s st).still = s.still := by
  unfold Chip.setPlyRx
  simp (disch := decide) only [Chip.setFld_still]

theorem Chip.request_still (s : Chip) (n : Nat) (ply : Bool) : (Chip.request s n ply).still = s.still := by
  unfold Chip.request
  simp (disch := first | (apply quiet_ge; dsimp only [TWF_PLY_STATUS.RX_LANE, TWF_PLY_STATUS.addr]; omega) | (intros; simp (disch := (apply quiet_ge; dsimp only [TWF_PLY_STATUS.RX_LANE, TWF_PLY_STATUS.addr]; omega)) only [Chip.upd_still, Chip.dropPins_still, Chip.setFld_still, Chip.when_still])) only [Chip.upd_still, Chip.dropPins_still, Chip.setFld_still, Chip.when_still]

theorem Chip.requestNone_still (s : Chip) : (Chip.requestNone s).still = s.still := by
  unfold Chip.requestNone
  simp only [Chip.request_still, Chip.setPlyRx_still]

theorem Chip.setPaired_still (s : Chip) (p : Option Nat) : (Chip.setPaired s p).still = s.still := by
  unfold Chip.setPaired
  dsimp only
  (repeat' split) <;> first | with_reducible rfl | simp (disch := first | (apply quiet_ge; dsimp only [CRL_LANE_CFG.DEADLINE, CRL_LANE_CFG.addr, CRL_LANE_STATUS.PAIRED, CRL_LANE_STATUS.addr]; omega) | (intros; simp (disch := (apply quiet_ge; dsimp only [CRL_LANE_CFG.DEADLINE, CRL_LANE_CFG.addr, CRL_LANE_STATUS.PAIRED, CRL_LANE_STATUS.addr]; omega)) only [Chip.upd_still, Chip.forAll_still, Chip.setFlag_still, Chip.setFld_still])) only [Chip.upd_still, Chip.forAll_still, Chip.setFlag_still, Chip.setFld_still]

theorem Chip.commitSubst_still (s : Chip) (n : Nat) : (s.commitSubst n).still = s.still := by
  unfold Chip.commitSubst
  try dsimp only
  (repeat' split) <;> first | with_reducible rfl | simp (disch := first | decide | (apply quiet_ge; dsimp only [TWF_LANE_FAILED.FAILED, TWF_LANE_FAILED.addr, TWF_PLY_CNT.SUBST_CNT, TWF_PLY_CNT.addr]; omega) | (intros; (try dsimp only); (repeat' split) <;> first | with_reducible rfl | simp (disch := first | decide | (apply quiet_ge; dsimp only [TWF_LANE_FAILED.FAILED, TWF_LANE_FAILED.addr, TWF_PLY_CNT.SUBST_CNT, TWF_PLY_CNT.addr]; omega)) only [Chip.upd_still, Chip.updPmu_still, Chip.clearGood_still, Chip.endWait_still, Chip.flushWaiting_still, Chip.forAll_still, Chip.leaveHold_still, Chip.portMod_still, Chip.raise_still, Chip.request_still, Chip.rxMod_still, Chip.satInc_still, Chip.setFldBit_still, Chip.setPaired_still, Chip.setPlyRx_still, Chip.toHold_still, Chip.withdrawPages_still])) only [Chip.upd_still, Chip.updPmu_still, Chip.clearGood_still, Chip.endWait_still, Chip.flushWaiting_still, Chip.forAll_still, Chip.leaveHold_still, Chip.portMod_still, Chip.raise_still, Chip.request_still, Chip.rxMod_still, Chip.satInc_still, Chip.setFldBit_still, Chip.setPaired_still, Chip.setPlyRx_still, Chip.toHold_still, Chip.withdrawPages_still]

theorem Chip.evalPairing_still (s : Chip) : (Chip.evalPairing s).still = s.still := by
  unfold Chip.evalPairing
  dsimp only
  (repeat' split) <;> simp only [Chip.upd_still, Chip.commitSubst_still, Chip.setPaired_still, Chip.setPlyRx_still]

theorem Chip.plyUnavailable_still (s : Chip) (n : Nat) : (Chip.plyUnavailable s n).still = s.still := by
  unfold Chip.plyUnavailable
  simp (disch := decide) only [Chip.upd_still, Chip.raise_still, Chip.satInc_still]

theorem Chip.requestSubst_still (s : Chip) (n : Nat) : (Chip.requestSubst s n).still = s.still := by
  unfold Chip.requestSubst
  simp only [Chip.upd_still, Chip.evalPairing_still, Chip.request_still, Chip.setPlyRx_still]

theorem Chip.retrainHeld_still (s : Chip) (n : Nat) : (Chip.retrainHeld s n).still = s.still := by
  unfold Chip.retrainHeld
  try dsimp only
  (repeat' split) <;> (first | with_reducible rfl | simp (disch := first | decide) only [Chip.upd_still, Chip.retrain_still])

theorem Chip.decideHold_still (s : Chip) (n : Nat) : (Chip.decideHold s n).still = s.still := by
  unfold Chip.decideHold
  dsimp only
  (repeat' split) <;> simp only [Chip.upd_still, Chip.hankHold_still, Chip.plyUnavailable_still, Chip.requestSubst_still,
    Chip.retrainHeld_still]

theorem Chip.l8Left_still (s : Chip) : (Chip.l8Left s).still = s.still := by
  unfold Chip.l8Left
  dsimp only
  split <;> simp (disch := decide) only [Chip.upd_still, Chip.evalPairing_still, Chip.setFlag_still, Chip.setPlyRx_still]

theorem Chip.lockLoss_still (s : Chip) (l : List (Nat × Nat)) : (Chip.lockLoss s l).still = s.still := by
  unfold Chip.lockLoss
  dsimp only
  (repeat' split) <;> first | with_reducible rfl | simp (disch := (intros; (repeat' split) <;> simp only [Chip.upd_still,
    Chip.commitSubst_still, Chip.decideHold_still, Chip.enterHold_still, Chip.evalPairing_still, Chip.forAll_still,
    Chip.l8Left_still, Chip.lossFaults_still, Chip.settle_still])) only [Chip.upd_still, Chip.commitSubst_still,
    Chip.decideHold_still, Chip.enterHold_still, Chip.evalPairing_still, Chip.forAll_still, Chip.l8Left_still, Chip.lossFaults_still,
    Chip.settle_still]

theorem Chip.restoreFailed_still (s : Chip) (n : Nat) : (Chip.restoreFailed s n).still = s.still := by
  unfold Chip.restoreFailed
  dsimp only
  (repeat' split) <;> simp only [Chip.upd_still, Chip.plyUnavailable_still, Chip.requestSubst_still, Chip.retrainHeld_still,
    Chip.setOutcome_still]

theorem Chip.noRestore_still (s : Chip) (n : Nat) : (Chip.noRestore s n).still = s.still := by
  unfold Chip.noRestore
  dsimp only
  (repeat' split) <;> simp only [Chip.upd_still, Chip.leaveHold_still, Chip.plyUnavailable_still, Chip.requestSubst_still,
    Chip.retrainHeld_still, Chip.setOutcome_still]

theorem Chip.holdSignalLost_still (s : Chip) (n : Nat) : (s.holdSignalLost n).still = s.still := by
  unfold Chip.holdSignalLost
  try dsimp only
  (repeat' split) <;> first | with_reducible rfl | simp (disch := first | decide | (intros; (try dsimp only); (repeat' split) <;> first | with_reducible rfl | simp (disch := decide) only [Chip.upd_still, Chip.closeWindow_still, Chip.decideHold_still, Chip.plyUnavailable_still, Chip.requestSubst_still, Chip.withdrawPages_still])) only [Chip.upd_still, Chip.closeWindow_still, Chip.decideHold_still, Chip.plyUnavailable_still, Chip.requestSubst_still, Chip.withdrawPages_still]

theorem Chip.holdSignalBack_still (s : Chip) (n : Nat) : (Chip.holdSignalBack s n).still = s.still := by
  unfold Chip.holdSignalBack
  try dsimp only
  (repeat' split) <;> (first | with_reducible rfl | simp (disch := first | decide) only [Chip.upd_still, Chip.noRestore_still,
    Chip.queueRestore_still])

theorem Chip.plyLocked_still (s : Chip) (n : Nat) : (Chip.plyLocked s n).still = s.still := by
  unfold Chip.plyLocked
  dsimp only
  (repeat' split) <;> simp (disch := decide) only [Chip.upd_still, Chip.evalPairing_still, Chip.request_still, Chip.setFlag_still,
    Chip.setPlyRx_still]

theorem Chip.plyDrop_still (s : Chip) (n : Nat) : (Chip.plyDrop s n).still = s.still := by
  unfold Chip.plyDrop
  dsimp only
  split <;> simp only [Chip.upd_still, Chip.evalPairing_still, Chip.l8Left_still]

theorem Chip.plyRelease_still (s : Chip) (n : Nat) : (Chip.plyRelease s n).still = s.still := by
  unfold Chip.plyRelease
  try dsimp only
  (repeat' split) <;> (first | with_reducible rfl | simp (disch := first | decide) only [Chip.upd_still, Chip.plyDrop_still,
    Chip.requestNone_still])

theorem Chip.showRisks_still (s : Chip) : (Chip.showRisks s).still = s.still := by
  unfold Chip.showRisks
  simp (disch := first | (apply quiet_ge; dsimp only [TWF_PLY_RISK.ABOVE_FRAY, TWF_PLY_RISK.ELIGIBLE, TWF_PLY_RISK.RISK, TWF_PLY_RISK.addr, TWF_PLY_THR.FRAY_THR, TWF_PLY_THR.addr]; omega) | (intros; simp (disch := (apply quiet_ge; dsimp only [TWF_PLY_RISK.ABOVE_FRAY, TWF_PLY_RISK.ELIGIBLE, TWF_PLY_RISK.RISK, TWF_PLY_RISK.addr, TWF_PLY_THR.FRAY_THR, TWF_PLY_THR.addr]; omega)) only [Chip.forAll_still, Chip.setFlag_still, Chip.setFld_still])) only [Chip.forAll_still, Chip.setFlag_still, Chip.setFld_still]

theorem Chip.moveMirror_still (s : Chip) (n : Nat) : (Chip.moveMirror s n).still = s.still := by
  unfold Chip.moveMirror
  dsimp only
  split <;> simp (disch := decide) only [Chip.evalPairing_still, Chip.raise_still, Chip.request_still, Chip.satInc_still,
    Chip.setPlyRx_still]

theorem Chip.chooseMirror_still (s : Chip) : (Chip.chooseMirror s).still = s.still := by
  unfold Chip.chooseMirror
  dsimp only
  (repeat' split) <;> simp only [Chip.upd_still, Chip.moveMirror_still]

theorem Chip.substTimeout_still (s : Chip) : (Chip.substTimeout s).still = s.still := by
  unfold Chip.substTimeout
  dsimp only
  (repeat' split) <;> simp only [Chip.plyUnavailable_still, Chip.requestNone_still, Chip.retrainHeld_still]

theorem Chip.tapByte_still (s : Chip) (n fn : Nat) (err : Int) : (Chip.tapByte s n fn err).1.still = s.still := by
  unfold Chip.tapByte
  dsimp only
  split <;> simp only [Chip.upd_still, Chip.txMod_still]

theorem Chip.issueRequest_still (s : Chip) (n : Nat) (q : TapAsk) : (s.issueRequest n q).still = s.still := by
  unfold Chip.issueRequest
  try dsimp only
  (repeat' split) <;> first | with_reducible rfl | simp (disch := first | decide | (apply quiet_ge; dsimp only [LTX_TAP_CHAN.OUT_REQ, LTX_TAP_CHAN.OUT_SEQ, LTX_TAP_CHAN.addr]; omega) | (intros; (try dsimp only); (repeat' split) <;> first | with_reducible rfl | simp (disch := first | decide | (apply quiet_ge; dsimp only [LTX_TAP_CHAN.OUT_REQ, LTX_TAP_CHAN.OUT_SEQ, LTX_TAP_CHAN.addr]; omega)) only [Chip.upd_still, Chip.setFld_still, Chip.txMod_still])) only [Chip.upd_still, Chip.setFld_still, Chip.txMod_still]

theorem Chip.setSweep_still (s : Chip) (n : Nat) (no : Nat) (w : Option (List Int)) : (Chip.setSweep s n no w).still = s.still := by
  unfold Chip.setSweep
  simp (disch := (apply quiet_ge; dsimp only [LTX_TT_STATUS.SWEEP_ACTIVE, LTX_TT_STATUS.SWEEP_POS, LTX_TT_STATUS.addr]; omega)) only [Chip.upd_still, Chip.setFlag_still, Chip.setFld_still, Chip.txMod_still]

theorem Chip.sweepDone_still (s : Chip) (n : Nat) (acc : List Int) : (Chip.sweepDone s n acc).still = s.still := by
  unfold Chip.sweepDone
  dsimp only
  split <;> simp only [Chip.upd_still, Chip.setSweep_still, Chip.txMod_still]

theorem Chip.reportSlot_still (s : Chip) (n : Nat) (w : Option Nat) : (Chip.reportSlot s n w).still = s.still := by
  unfold Chip.reportSlot
  dsimp only
  (repeat' split) <;> simp only [Chip.upd_still, Chip.setSweep_still, Chip.sweepDone_still]

theorem Chip.responseSlot_still (s : Chip) (n w : Nat) : (Chip.responseSlot s n w).still = s.still := by
  unfold Chip.responseSlot
  dsimp only
  split <;> simp (disch := (apply quiet_ge; dsimp only [LTX_TAP_CHAN.IN_RESP, LTX_TAP_CHAN.addr]; omega)) only [Chip.upd_still, Chip.setFld_still, Chip.txMod_still]

theorem Chip.requestSlot_still (s : Chip) (n w : Nat) : (Chip.requestSlot s n w).still = s.still := by
  unfold Chip.requestSlot
  dsimp only
  split <;> simp only [Chip.upd_still, Chip.txMod_still]

theorem Chip.tapWordRx_still (s : Chip) (n : Nat) : (Chip.tapWordRx s n).still = s.still := by
  unfold Chip.tapWordRx
  dsimp only
  (repeat' split) <;> simp only [Chip.upd_still, Chip.reportSlot_still, Chip.requestSlot_still, Chip.responseSlot_still, Chip.txMod_still]

theorem Chip.tapChange_still (s : Chip) (n : Nat) : (Chip.tapChange s n).still = s.still := by
  unfold Chip.tapChange
  dsimp only
  (repeat' split) <;> simp (disch := (apply quiet_ge; dsimp only [LTX_TAP_CHAN.IN_REQ, LTX_TAP_CHAN.IN_SEQ, LTX_TAP_CHAN.OUT_RESP, LTX_TAP_CHAN.addr, LTX_TX_CFG.ACCEPT_REQ, LTX_TX_CFG.addr]; omega)) only [Chip.upd_still, Chip.setFld_still, Chip.setTxTaps_still, Chip.txMod_still]

theorem Chip.ttSwap_still (s : Chip) (n : Nat) : (Chip.ttSwap s n).still = s.still := by
  unfold Chip.ttSwap
  dsimp only
  (repeat' split) <;> simp (disch := (apply quiet_ge; dsimp only [LTX_FAULT.TT_LIMIT, LTX_FAULT.addr, LTX_STATUS.TT_AT_LIMIT, LTX_STATUS.addr, LTX_TT_STATUS.SRC_LAST, LTX_TT_STATUS.SWAP_CNT, LTX_TT_STATUS.addr]; omega)) only [Chip.upd_still, Chip.raise_still, Chip.satInc_still, Chip.setFlag_still, Chip.txMod_still]

theorem Chip.tapTimeout_still (s : Chip) (n : Nat) : (Chip.tapTimeout s n).still = s.still := by
  unfold Chip.tapTimeout
  dsimp only
  split <;> simp (disch := (apply quiet_ge; dsimp only [LTX_FAULT.TAP_TIMEOUT, LTX_FAULT.addr]; omega)) only [Chip.upd_still, Chip.raise_still, Chip.setFlag_still, Chip.txMod_still]

theorem Chip.lineTxShort_still (s : Chip) (n : Nat) (on : Bool) : (Chip.lineTxShort s n on).still = s.still := by
  unfold Chip.lineTxShort
  dsimp only
  (repeat' split) <;> first | with_reducible rfl | simp (disch := first | (apply quiet_ge; dsimp only [LTX_FAULT.SHORT, LTX_FAULT.addr, LTX_STATUS.SHORT, LTX_STATUS.addr]; omega) | (intros; simp (disch := (apply quiet_ge; dsimp only [LTX_FAULT.SHORT, LTX_FAULT.addr, LTX_STATUS.SHORT, LTX_STATUS.addr]; omega)) only [Chip.setFlag_still, Chip.setLevel_still, Chip.when_still])) only [Chip.setFlag_still, Chip.setLevel_still, Chip.when_still]

theorem Chip.setupTx_still (s : Chip) (n rate : Nat) (hank : Option (List Byte)) : (Chip.setupTx s n rate hank).still = s.still := by
  unfold Chip.setupTx
  dsimp only
  split <;> simp (disch := (apply quiet_ge; dsimp only [LTX_PAT_GEN.EN, LTX_PAT_GEN.addr, LTX_STATUS.RATE, LTX_STATUS.addr, LTX_TAP_CHAN.addr]; omega)) only [Chip.upd_still, Chip.setFlag_still, Chip.setFld_still, Chip.setReg_still, Chip.setSweep_still, Chip.setTxTaps_still, Chip.txMod_still]

theorem Chip.fwWrite_still (s : Chip) (d a : Nat) (v : Word) (h : quiet a = false) : (s.fwWrite d a v).still = s.still := by
  unfold Chip.fwWrite
  dsimp only
  split
  · rw [Chip.setReg_still _ _ _ h, Chip.upd_still]
  · rw [Chip.upd_still]

theorem Chip.lineTxCfg_still (s : Chip) (n : Nat) (apply : Bool) (v : Nat) : (Chip.lineTxCfg s n apply v).1.still = s.still := by
  unfold Chip.lineTxCfg
  dsimp only
  (repeat' split) <;> simp (disch := (apply quiet_ge; dsimp only [LTX_TX_CFG.addr]; omega)) only [Chip.upd_still, Chip.fwWrite_still, Chip.txMod_still]

theorem Chip.lineTxTable_still (s : Chip) (n a : Nat) : (Chip.lineTxTable s n a).1.still = s.still := by
  unfold Chip.lineTxTable
  dsimp only
  (repeat' split) <;> simp only [Chip.upd_still, Chip.capture_still, Chip.readBytes_still, Chip.setSweep_still, Chip.txMod_still,
    Chip.foldl_still]

theorem Chip.toAcquire_still (s : Chip) (n : Nat) : (Chip.toAcquire s n).still = s.still := by
  unfold Chip.toAcquire
  simp only [Chip.upd_still, Chip.setRxState_still, Chip.txMod_still]

theorem Chip.pageBack_still (s : Chip) (n : Nat) : (Chip.pageBack s n).still = s.still := by
  unfold Chip.pageBack
  try dsimp only
  (repeat' split) <;> (first | with_reducible rfl | simp (disch := first | decide) only [Chip.upd_still, Chip.queuePage_still])

theorem Chip.calDone_still (s : Chip) (n : Nat) : (Chip.calDone s n).still = s.still := by
  unfold Chip.calDone
  dsimp only
  (repeat' split) <;> simp (disch := (apply quiet_ge; dsimp only [LRX_STATUS.CAL_DONE, LRX_STATUS.addr]; omega)) only [Chip.upd_still, Chip.pageBack_still, Chip.queuePage_still, Chip.rxMod_still, Chip.setFlag_still, Chip.setRxState_still, Chip.toAcquire_still]

theorem Chip.lineSignal_still (s : Chip) (n : Nat) : (Chip.lineSignal s n).still = s.still := by
  unfold Chip.lineSignal
  dsimp only
  (repeat' split) <;> simp (disch := (apply quiet_ge; dsimp only [LRX_STATUS.SIGNAL, LRX_STATUS.addr]; omega)) only [Chip.holdSignalBack_still, Chip.losLevel_still, Chip.setFlag_still, Chip.settle_still, Chip.toAcquire_still]

theorem Chip.signalLostUnlocked_still (s : Chip) (n : Nat) : (s.signalLostUnlocked n).still = s.still := by
  unfold Chip.signalLostUnlocked
  try dsimp only
  (repeat' split) <;> first | with_reducible rfl | simp (disch := first | decide | (apply quiet_ge; dsimp only [LRX_FAULT.LOS, LRX_FAULT.addr]; omega)) only [Chip.upd_still, Chip.flushWaiting_still, Chip.holdSignalLost_still, Chip.restartLock_still, Chip.setFlag_still, Chip.setRxState_still]

theorem Chip.lineLos_still (s : Chip) (n : Nat) : (Chip.lineLos s n).still = s.still := by
  unfold Chip.lineLos
  dsimp only
  (repeat' split) <;> simp (disch := (apply quiet_ge; dsimp only [LRX_STATUS.SIGNAL, LRX_STATUS.addr]; omega)) only [Chip.lockLoss_still, Chip.losLevel_still, Chip.setFlag_still, Chip.settle_still, Chip.signalLostUnlocked_still]

theorem Chip.blindDone_still (s : Chip) (n : Nat) : (Chip.blindDone s n).still = s.still := by
  unfold Chip.blindDone
  try dsimp only
  (repeat' split) <;> (first | with_reducible rfl | simp (disch := first | decide) only [Chip.upd_still, Chip.setRxState_still])

theorem Chip.adaptWindow_still (s : Chip) (n : Nat) (a : AdaptIn) : (s.adaptWindow n a).still = s.still := by
  unfold Chip.adaptWindow
  try dsimp only
  (repeat' split) <;> first | with_reducible rfl | simp (disch := first | decide | (apply quiet_ge; dsimp only [LRX_STATUS.CDR_LOCK, LRX_STATUS.VOLT_SET, LRX_STATUS.addr]; omega) | (intros; (try dsimp only); (repeat' split) <;> first | with_reducible rfl | simp (disch := first | decide | (apply quiet_ge; dsimp only [LRX_STATUS.CDR_LOCK, LRX_STATUS.VOLT_SET, LRX_STATUS.addr]; omega)) only [Chip.upd_still, Chip.issueRequest_still, Chip.rxMod_still, Chip.setFlag_still, Chip.showLive_still])) only [Chip.upd_still, Chip.issueRequest_still, Chip.rxMod_still, Chip.setFlag_still, Chip.showLive_still]

theorem Chip.adcUpdate_still (s : Chip) (n : Nat) (a : AdcIn) : (s.adcUpdate n a).still = s.still := by
  unfold Chip.adcUpdate
  try dsimp only
  (repeat' split) <;> first | with_reducible rfl | simp (disch := first | decide | (apply quiet_ge; dsimp only [LRX_ADC_CAL.GAIN_RES, LRX_ADC_CAL.OFFSET_RES, LRX_ADC_CAL.SKEW_RES, LRX_ADC_CAL.addr]; omega)) only [Chip.upd_still, Chip.setFld_still, Chip.setLive_still]

theorem Chip.llrUpdate_still (s : Chip) (n t : Nat) : (Chip.llrUpdate s n t).still = s.still := by
  unfold Chip.llrUpdate
  dsimp only
  split <;> simp only [Chip.upd_still, Chip.rxMod_still]

theorem Chip.marginLow_still (s : Chip) (n : Nat) : (Chip.marginLow s n).still = s.still := by
  unfold Chip.marginLow
  dsimp only
  (repeat' split) <;> simp (disch := (apply quiet_ge; dsimp only [LRX_STATUS.MARGIN_LOW, LRX_STATUS.addr]; omega)) only [Chip.setFlag_still, Chip.setLevel_still]

theorem Chip.takeThresholds_still (s : Chip) (n : Nat) : (s.takeThresholds n).still = s.still := by
  unfold Chip.takeThresholds
  try dsimp only
  (repeat' split) <;> first | with_reducible rfl | simp (disch := first | decide | (apply quiet_ge; dsimp only [LRX_RX_CFG.LOCK_THR, LRX_RX_CFG.LOSS_THR, LRX_RX_CFG.MARGIN_WARN, LRX_RX_CFG.addr]; omega) | (intros; (try dsimp only); (repeat' split) <;> first | with_reducible rfl | simp (disch := first | decide | (apply quiet_ge; dsimp only [LRX_RX_CFG.LOCK_THR, LRX_RX_CFG.LOSS_THR, LRX_RX_CFG.MARGIN_WARN, LRX_RX_CFG.addr]; omega)) only [Chip.upd_still, Chip.rxMod_still])) only [Chip.upd_still, Chip.rxMod_still]

theorem Chip.snrWindow_still (s : Chip) (n snr : Nat) : (s.snrWindow n snr).still = s.still := by
  unfold Chip.snrWindow
  try dsimp only
  (repeat' split) <;> first | with_reducible rfl | simp (disch := first | decide | (apply quiet_ge; dsimp only [LRX_SNR.SNR_AVG, LRX_SNR.addr, LRX_STATUS.EQ_CONV, LRX_STATUS.RX_SNR, LRX_STATUS.addr]; omega) | (intros; (try dsimp only); (repeat' split) <;> first | with_reducible rfl | simp (disch := first | decide | (apply quiet_ge; dsimp only [LRX_SNR.SNR_AVG, LRX_SNR.addr, LRX_STATUS.EQ_CONV, LRX_STATUS.RX_SNR, LRX_STATUS.addr]; omega)) only [Chip.upd_still, Chip.clearGood_still, Chip.lockLoss_still, Chip.lossFaults_still, Chip.marginLow_still, Chip.rxMod_still, Chip.setFlag_still, Chip.setFld_still, Chip.setRxState_still, Chip.takeThresholds_still])) only [Chip.upd_still, Chip.clearGood_still, Chip.lockLoss_still, Chip.lossFaults_still, Chip.marginLow_still, Chip.rxMod_still, Chip.setFlag_still, Chip.setFld_still, Chip.setRxState_still, Chip.takeThresholds_still]

theorem Chip.lineRetrain_still (s : Chip) (n : Nat) : (s.lineRetrain n).1.still = s.still := by
  unfold Chip.lineRetrain
  try dsimp only
  (repeat' split) <;> first | with_reducible rfl | simp (disch := decide) only [Chip.upd_still, Chip.flushWaiting_still, Chip.plyDrop_still, Chip.retrain_still, Chip.settle_still, Chip.withdrawPages_still]

theorem Chip.endRetrain_still (s : Chip) (n : Nat) (st : Status) : (Chip.endRetrain s n st).still = s.still := by
  unfold Chip.endRetrain
  simp only [Chip.endWait_still]

theorem Chip.ieeeAlign_still (s : Chip) (n : Nat) : (Chip.ieeeAlign s n).still = s.still := by
  unfold Chip.ieeeAlign
  try dsimp only
  (repeat' split) <;> (first | with_reducible rfl | simp (disch := first | decide | (apply quiet_ge; dsimp only [LRX_STATUS.FRAME_LOCK, LRX_STATUS.addr, TWF_LANE_STATUS.FRAME_LOCK, TWF_LANE_STATUS.FRAMING, TWF_LANE_STATUS.SEEK, TWF_LANE_STATUS.addr]; omega)) only [Chip.upd_still, Chip.setFlag_still])

theorem Chip.lineLocked_still (s : Chip) (n : Nat) : (Chip.lineLocked s n).still = s.still := by
  unfold Chip.lineLocked
  dsimp only
  (repeat' split) <;> simp (disch := (apply quiet_ge; dsimp only [LRX_LOCK_CNT.RESTORE_CNT, LRX_LOCK_CNT.RETRAIN_CNT, LRX_LOCK_CNT.addr]; omega)) only [Chip.upd_still, Chip.endRetrain_still, Chip.flushWaiting_still, Chip.ieeeAlign_still, Chip.leaveHold_still, Chip.plyLocked_still, Chip.raise_still, Chip.retrain_still, Chip.rxMod_still, Chip.satInc_still, Chip.setOutcome_still, Chip.setRxState_still, Chip.settle_still]

theorem Chip.goodSet_still (s : Chip) (n : Nat) : (Chip.goodSet s n).still = s.still := by
  unfold Chip.goodSet
  try dsimp only
  (repeat' split) <;> (first | with_reducible rfl | simp (disch := first | decide | (apply quiet_ge; dsimp only [LRX_STATUS.GOOD, LRX_STATUS.addr]; omega)) only [Chip.upd_still, Chip.setFlag_still, Chip.snapshot_still])

theorem Chip.voltStep_still (s : Chip) (n : Nat) : (Chip.voltStep s n).still = s.still := by
  unfold Chip.voltStep
  dsimp only
  (repeat' split) <;> simp only [Chip.upd_still, Chip.rxMod_still, Chip.setVolt_still]

theorem Chip.voltReturn_still (s : Chip) (n : Nat) : (Chip.voltReturn s n).still = s.still := by
  unfold Chip.voltReturn
  try dsimp only
  (repeat' split) <;> (first | with_reducible rfl | simp (disch := first | decide) only [Chip.upd_still, Chip.rxMod_still,
    Chip.setVolt_still])

theorem Chip.thermalVolt_still (s : Chip) (n : Nat) (req : Option Nat) : (Chip.thermalVolt s n req).still = s.still := by
  unfold Chip.thermalVolt
  try dsimp only
  (repeat' split) <;> (first | with_reducible rfl | simp (disch := first | decide | (apply quiet_ge; dsimp only [LRX_STATUS.VOLT_SET, LRX_STATUS.addr]; omega)) only [Chip.upd_still, Chip.rxMod_still])

theorem Chip.noteRetrained_still (s : Chip) (n : Nat) : (Chip.noteRetrained s n).still = s.still := by
  unfold Chip.noteRetrained
  simp only [Chip.upd_still]

theorem Chip.windowExpiry_still (s : Chip) (n : Nat) : (Chip.windowExpiry s n).still = s.still := by
  unfold Chip.windowExpiry
  dsimp only
  (repeat' split) <;> simp (disch := (apply quiet_ge; dsimp only [LRX_FAULT.RESTORE_FAIL, LRX_FAULT.addr]; omega)) only [Chip.upd_still, Chip.closeWindow_still, Chip.dropLastGood_still, Chip.flushWaiting_still, Chip.noteRetrained_still, Chip.restoreFailed_still, Chip.retrain_still, Chip.setFlag_still, Chip.settle_still]

theorem Chip.voltFall_still (s : Chip) (n : Nat) : (s.voltFall n).still = s.still := by
  unfold Chip.voltFall
  try dsimp only
  (repeat' split) <;> first | with_reducible rfl | simp (disch := first | decide | (apply quiet_ge; dsimp only [LRX_STATUS.VOLT_SET, LRX_STATUS.addr]; omega)) only [Chip.upd_still, Chip.voltStep_still]

theorem Chip.lineRxCfg_still (s : Chip) (l : List Byte) : (s.lineRxCfg l).1.still = s.still := by
  unfold Chip.lineRxCfg
  try dsimp only
  (repeat' split) <;> first | with_reducible rfl | simp (disch := first | decide | (apply quiet_ge; dsimp only [LRX_RX_CFG.addr]; omega) | (intros; (try dsimp only); (repeat' split) <;> first | with_reducible rfl | simp (disch := first | decide | (apply quiet_ge; dsimp only [LRX_RX_CFG.addr]; omega)) only [Chip.upd_still, Chip.fwWrite_still, Chip.voltFall_still])) only [Chip.upd_still, Chip.fwWrite_still, Chip.voltFall_still]

theorem Chip.lineCapture_still (s : Chip) (r : Req) : (Chip.lineCapture s r).1.still = s.still := by
  unfold Chip.lineCapture
  dsimp only
  (repeat' split) <;> simp only [Chip.upd_still, Chip.capture_still, Chip.rxMod_still]

theorem Chip.afterFlight_still (s : Chip) (n : Nat) : (Chip.afterFlight s n).still = s.still := by
  unfold Chip.afterFlight
  try dsimp only
  (repeat' split) <;> (first | with_reducible rfl | simp (disch := first | decide) only [Chip.upd_still, Chip.noRestore_still,
    Chip.queueRestore_still])

theorem Chip.pageAbandoned_still (s : Chip) (r : PageReq) : (Chip.pageAbandoned s r).still = s.still := by
  unfold Chip.pageAbandoned
  try dsimp only
  (repeat' split) <;> (first | with_reducible rfl | simp (disch := first | decide) only [Chip.upd_still, Chip.afterFlight_still,
    Chip.dropLastGood_still, Chip.endWait_still, Chip.noteRetrained_still, Chip.pageBack_still, Chip.restoreFailed_still,
    Chip.retrain_still])

theorem Chip.pageSwap_still (s : Chip) (r : PageReq) (l : List Byte) : (Chip.pageSwap s r l).still = s.still := by
  unfold Chip.pageSwap
  dsimp only
  (repeat' split) <;> simp only [Chip.afterFlight_still, Chip.endWait_still, Chip.offIfUnused_still, Chip.plyDrop_still,
    Chip.raise_still, Chip.swapIn_still]

theorem Chip.pageDone_still (s : Chip) (n : Nat) : (Chip.pageDone s n).still = s.still := by
  unfold Chip.pageDone
  dsimp only
  (repeat' split) <;> simp only [Chip.upd_still, Chip.flushWaiting_still, Chip.markBad_still, Chip.offIfUnused_still,
    Chip.pageAbandoned_still, Chip.pageSwap_still, Chip.readHank_still, Chip.settle_still, Chip.unbusy_still]

theorem Chip.hankReadCmd_still (s : Chip) (slot a : Nat) : (Chip.hankReadCmd s slot a).1.still = s.still := by
  unfold Chip.hankReadCmd
  dsimp only
  (repeat' split) <;> simp only [Chip.upd_still, Chip.capture_still, Chip.markBad_still, Chip.readHank_still, Chip.touchSlot_still,
    Chip.writeBytes_still]

theorem Chip.hankWriteCmd_still (s : Chip) (keep : Bool) (a : Nat) : (s.hankWriteCmd keep a).1.still = s.still := by
  unfold Chip.hankWriteCmd
  dsimp only
  have hr := Chip.readBytes_still s .capture a 2048
  revert hr
  generalize s.readBytes .capture a 2048 = q
  intro hr
  split
  · rfl
  · split
    · rfl
    · split
      · exact hr
      · split
        · exact hr
        · split
          · exact hr
          · split
            · exact hr
            · rename_i h
              have h := Chip.writeHank_still _ _ _ _ h
              simp only [Chip.hankSlotMod_still, Chip.unbusy_still, h, hr]

theorem Chip.hankPinCmd_still (s : Chip) (slot : Nat) : (Chip.hankPinCmd s slot).1.still = s.still := by
  unfold Chip.hankPinCmd
  dsimp only
  (repeat' split) <;> simp only [Chip.upd_still, Chip.hankSlotMod_still]

theorem Chip.hankUnpinCmd_still (s : Chip) (slot : Nat) : (Chip.hankUnpinCmd s slot).1.still = s.still := by
  unfold Chip.hankUnpinCmd
  try dsimp only
  (repeat' split) <;> (first | with_reducible rfl | simp (disch := first | decide) only [Chip.upd_still, Chip.hankSlotMod_still])

theorem Chip.hankLoadCmd_still (s : Chip) (n : Nat) (force : Bool) (slot : Nat) :
  (Chip.hankLoadCmd s n force slot).1.still = s.still := by
  unfold Chip.hankLoadCmd
  dsimp only
  (repeat' split) <;> simp only [Chip.upd_still, Chip.queuePage_still]

theorem Chip.hankFlushCmd_still (s : Chip) (n : Nat) : (Chip.hankFlushCmd s n).1.still = s.still := by
  unfold Chip.hankFlushCmd
  dsimp only
  (repeat' split) <;> simp only [Chip.upd_still, Chip.flushLane_still]

theorem Chip.plyStatus_still (s : Chip) (r : Req) : (Chip.plyStatus s r).1.still = s.still := by
  unfold Chip.plyStatus
  dsimp only
  (repeat' split) <;> simp (disch := decide) only [Chip.clearCount_still]

theorem Chip.plyMirrorCmd_still (s : Chip) (n : Nat) : (Chip.plyMirrorCmd s n).1.still = s.still := by
  unfold Chip.plyMirrorCmd
  dsimp only
  split <;> simp (disch := decide) only [Chip.upd_still, Chip.fwWrite_still]

theorem Chip.plySubstCmd_still (s : Chip) (n : Nat) : (Chip.plySubstCmd s n).1.still = s.still := by
  unfold Chip.plySubstCmd
  dsimp only
  (repeat' split) <;> simp only [Chip.upd_still, Chip.commitSubst_still, Chip.moveMirror_still, Chip.settle_still]

theorem Chip.plySubstTimeout_still (s : Chip) (n : Nat) : (s.plySubstTimeout n).still = s.still := by
  unfold Chip.plySubstTimeout
  try dsimp only
  (repeat' split) <;> first | with_reducible rfl | simp (disch := first | decide | (apply quiet_ge; dsimp only [TWF_PLY_CFG.addr]; omega) | (intros; (try dsimp only); (repeat' split) <;> first | with_reducible rfl | simp (disch := first | decide | (apply quiet_ge; dsimp only [TWF_PLY_CFG.addr]; omega)) only [Chip.upd_still, Chip.endWait_still, Chip.fwWrite_still])) only [Chip.upd_still, Chip.endWait_still, Chip.fwWrite_still]

end Sys2Proof.Machine
end

