-- ==== Sys2Proof/Laws/StillPorts.lean ====
section
/-! SUPPORT. So do those of the host lanes, framing, the creel, the ports and the Fleyth engine, one lemma each. -/

namespace Sys2Proof.Machine

set_option linter.unusedSimpArgs false
set_option linter.unusedTactic false
set_option linter.unnecessarySeqFocus false
set_option linter.unreachableTactic false

theorem hostTapFlds_quiet (n : Nat) : ∀ f ∈ hostTapFlds n, quiet f.addr = false := by
  intro f hf
  apply quiet_ge
  simp only [hostTapFlds, List.mem_cons, List.not_mem_nil, or_false] at hf
  rcases hf with h | h | h | h | h | h <;> subst h <;>
    dsimp only [HLN_TX_TAPS0.PRE3, HLN_TX_TAPS0.PRE2, HLN_TX_TAPS1.PRE1, HLN_TX_TAPS1.MAIN, HLN_TX_TAPS2.POST1, HLN_TX_TAPS2.POST2,
      HLN_TX_TAPS0.addr, HLN_TX_TAPS1.addr, HLN_TX_TAPS2.addr] <;> omega

theorem Chip.setHostTaps_still (s : Chip) (h : Nat) (l : List Int) : (s.setHostTaps h l).still = s.still := by
  have hf : ∀ (l : List (Fld × Int)) (s : Chip), (∀ p ∈ l, quiet p.1.addr = false) →
      (s.forAll l (fun s p => s.setFld p.1 (unsignedOf 9 p.2))).still = s.still := by
    intro l
    unfold Chip.forAll
    induction l with
    | nil => intro s _; rfl
    | cons x l ih =>
      intro s hl
      rw [List.foldl_cons, ih _ (fun p hp => hl p (List.mem_cons_of_mem _ hp)), Chip.setFld_still _ _ _ (hl x (by simp))]
  exact hf _ _ (fun p hp => hostTapFlds_quiet h p.1 (List.of_mem_zip hp).1)

theorem Chip.setHt_still (s : Chip) (h st : Nat) : (Chip.setHt s h st).still = s.still := by
  unfold Chip.setHt
  simp (disch := (apply quiet_ge; dsimp only [HLN_STATUS.TRAIN_STATE, HLN_STATUS.addr]; omega)) only [Chip.setFld_still]

theorem Chip.showHostEq_still (s : Chip) (h : Nat) (q : HostEqIn) (ctle : Bool) : (Chip.showHostEq s h q ctle).still = s.still := by
  unfold Chip.showHostEq
  dsimp only
  split <;> simp (disch := (apply quiet_ge; dsimp only [HLN_RX_EQ.AGC, HLN_RX_EQ.CTLE, HLN_RX_EQ.addr, HLN_STATUS.CDR_LOCK, HLN_STATUS.RX_SNR, HLN_STATUS.addr]; omega)) only [Chip.upd_still, Chip.hostMod_still, Chip.setFld_still]

theorem Chip.hostUnlock_still (s : Chip) (h : Nat) : (Chip.hostUnlock s h).still = s.still := by
  unfold Chip.hostUnlock
  dsimp only
  split <;> simp (disch := (apply quiet_ge; dsimp only [HLN_FAULT.CDR_UNLOCK, HLN_FAULT.addr, HLN_STATUS.CDR_LOCK, HLN_STATUS.RX_SNR, HLN_STATUS.addr]; omega)) only [Chip.setFlag_still, Chip.setFld_still]

theorem Chip.hostNoClock_still (s : Chip) (h : Nat) : (Chip.hostNoClock s h).still = s.still := by
  unfold Chip.hostNoClock
  simp (disch := (apply quiet_ge; dsimp only [HLN_STATUS.CDR_LOCK, HLN_STATUS.RX_SNR, HLN_STATUS.addr]; omega)) only [Chip.setFlag_still, Chip.setFld_still]

theorem Chip.senseLegs_still (s : Chip) (h openLegs : Nat) : (Chip.senseLegs s h openLegs).still = s.still := by
  unfold Chip.senseLegs
  dsimp only
  split <;> simp (disch := (apply quiet_ge; dsimp only [HLN_FAULT.TX_OPEN, HLN_FAULT.addr, HLN_STATUS.TX_OPEN, HLN_STATUS.addr]; omega)) only [Chip.raise_still, Chip.setFlag_still]

theorem Chip.hostStart_still (s : Chip) (h openLegs : Nat) : (s.hostStart h openLegs).still = s.still := by
  unfold Chip.hostStart
  try dsimp only
  (repeat' split) <;> first | with_reducible rfl | simp (disch := first | decide | (apply quiet_ge; dsimp only [HLN_STATUS.POL_INV, HLN_STATUS.TRAINED, HLN_STATUS.addr]; omega) | (intros; (try dsimp only); (repeat' split) <;> first | with_reducible rfl | simp (disch := first | decide | (apply quiet_ge; dsimp only [HLN_STATUS.POL_INV, HLN_STATUS.TRAINED, HLN_STATUS.addr]; omega)) only [Chip.upd_still, Chip.hostMod_still, Chip.hostNoClock_still, Chip.quadMod_still, Chip.senseLegs_still, Chip.setFlag_still, Chip.setHostTaps_still, Chip.setHt_still])) only [Chip.upd_still, Chip.hostMod_still, Chip.hostNoClock_still, Chip.quadMod_still, Chip.senseLegs_still, Chip.setFlag_still, Chip.setHostTaps_still, Chip.setHt_still]

theorem Chip.hostRestart_still (s : Chip) (h openLegs : Nat) : (Chip.hostRestart s h openLegs).still = s.still := by
  unfold Chip.hostRestart
  simp (disch := (apply quiet_ge; dsimp only [HLN_TRAIN_STATUS.RESTART_CNT, HLN_TRAIN_STATUS.addr]; omega)) only [Chip.hostStart_still, Chip.satInc_still, Chip.settle_still]

theorem Chip.hostStop_still (s : Chip) (h : Nat) : (Chip.hostStop s h).still = s.still := by
  unfold Chip.hostStop
  simp (disch := (apply quiet_ge; dsimp only [HLN_STATUS.TRAINED, HLN_STATUS.addr]; omega)) only [Chip.hostMod_still, Chip.hostNoClock_still, Chip.setFlag_still, Chip.setHt_still]

theorem Chip.orderBad_still (s : Chip) (q : Nat) (marks : List Nat) : (s.orderBad q marks).still = s.still := by
  unfold Chip.orderBad
  try dsimp only
  (repeat' split) <;> first | with_reducible rfl | simp (disch := first | decide | (apply quiet_ge; dsimp only [HLN_FAULT.ORDER_FAULT, HLN_FAULT.addr]; omega) | (intros; (try dsimp only); (repeat' split) <;> first | with_reducible rfl | simp (disch := first | decide | (apply quiet_ge; dsimp only [HLN_FAULT.ORDER_FAULT, HLN_FAULT.addr]; omega)) only [Chip.upd_still, Chip.forAll_still, Chip.quadMod_still, Chip.raise_still, Chip.setFlag_still])) only [Chip.upd_still, Chip.forAll_still, Chip.quadMod_still, Chip.raise_still, Chip.setFlag_still]

theorem Chip.orderFound_still (s : Chip) (q openLegs : Nat) : (s.orderFound q openLegs).still = s.still := by
  unfold Chip.orderFound
  try dsimp only
  (repeat' split) <;> first | with_reducible rfl | simp (disch := first | decide | (intros; (try dsimp only); (repeat' split) <;> first | with_reducible rfl | simp (disch := decide) only [Chip.upd_still, Chip.forAll_still, Chip.hostMod_still, Chip.hostStart_still, Chip.hostStop_still, Chip.quadMod_still])) only [Chip.upd_still, Chip.forAll_still, Chip.hostMod_still, Chip.hostStart_still, Chip.hostStop_still, Chip.quadMod_still]

theorem Chip.judgeOrder_still (s : Chip) (q openLegs : Nat) : (s.judgeOrder q openLegs).still = s.still := by
  unfold Chip.judgeOrder
  try dsimp only
  (repeat' split) <;> first | with_reducible rfl | simp (disch := first | decide | (apply quiet_ge; dsimp only [HLN_STATUS.ORDER_REV, HLN_STATUS.addr]; omega) | (intros; (try dsimp only); (repeat' split) <;> first | with_reducible rfl | simp (disch := first | decide | (apply quiet_ge; dsimp only [HLN_STATUS.ORDER_REV, HLN_STATUS.addr]; omega)) only [Chip.upd_still, Chip.forAll_still, Chip.orderBad_still, Chip.orderFound_still, Chip.quadMod_still, Chip.setFlag_still])) only [Chip.upd_still, Chip.forAll_still, Chip.orderBad_still, Chip.orderFound_still, Chip.quadMod_still, Chip.setFlag_still]

theorem Chip.hearId_still (s : Chip) (h id openLegs : Nat) : (s.hearId h id openLegs).still = s.still := by
  unfold Chip.hearId
  try dsimp only
  (repeat' split) <;> first | with_reducible rfl | simp (disch := first | decide | (apply quiet_ge; dsimp only [HLN_STATUS.FAR_LANE_ID, HLN_STATUS.addr]; omega) | (intros; (try dsimp only); (repeat' split) <;> first | with_reducible rfl | simp (disch := first | decide | (apply quiet_ge; dsimp only [HLN_STATUS.FAR_LANE_ID, HLN_STATUS.addr]; omega)) only [Chip.upd_still, Chip.hostMod_still, Chip.judgeOrder_still, Chip.setFld_still])) only [Chip.upd_still, Chip.hostMod_still, Chip.judgeOrder_still, Chip.setFld_still]

theorem Chip.hostTrained_still (s : Chip) (h : Nat) : (Chip.hostTrained s h).still = s.still := by
  unfold Chip.hostTrained
  simp (disch := (apply quiet_ge; dsimp only [HLN_STATUS.TRAINED, HLN_STATUS.addr]; omega)) only [Chip.upd_still, Chip.endWait_still, Chip.hostMod_still, Chip.setFlag_still, Chip.settle_still]

theorem Chip.hostFarReq_still (s : Chip) (h ctrl : Nat) : (Chip.hostFarReq s h ctrl).still = s.still := by
  unfold Chip.hostFarReq
  dsimp only
  (repeat' split) <;> simp only [Chip.upd_still, Chip.hostMod_still, Chip.setHostTaps_still]

theorem Chip.hostFarStatus_still (s : Chip) (h st : Nat) : (Chip.hostFarStatus s h st).still = s.still := by
  unfold Chip.hostFarStatus
  simp (disch := (apply quiet_ge; dsimp only [HLN_TRAIN_STATUS.LAST_RESP, HLN_TRAIN_STATUS.addr]; omega)) only [Chip.upd_still, Chip.hostMod_still, Chip.setFld_still]

theorem Chip.hostAsk_still (s : Chip) (h : Nat) (a : Option HostAsk) : (s.hostAsk h a).still = s.still := by
  unfold Chip.hostAsk
  try dsimp only
  (repeat' split) <;> first | with_reducible rfl | simp (disch := first | decide | (apply quiet_ge; dsimp only [HLN_TRAIN_STATUS.LAST_REQ, HLN_TRAIN_STATUS.LAST_SEQ, HLN_TRAIN_STATUS.addr]; omega) | (intros; (try dsimp only); (repeat' split) <;> first | with_reducible rfl | simp (disch := first | decide | (apply quiet_ge; dsimp only [HLN_TRAIN_STATUS.LAST_REQ, HLN_TRAIN_STATUS.LAST_SEQ, HLN_TRAIN_STATUS.addr]; omega)) only [Chip.upd_still, Chip.hostMod_still, Chip.setFld_still])) only [Chip.upd_still, Chip.hostMod_still, Chip.setFld_still]

theorem Chip.hostMarker_still (s : Chip) (h : Nat) (mark : Option Bool) : (s.hostMarker h mark).still = s.still := by
  unfold Chip.hostMarker
  try dsimp only
  (repeat' split) <;> first | with_reducible rfl | simp (disch := first | decide | (apply quiet_ge; dsimp only [HLN_STATUS.CDR_LOCK, HLN_STATUS.POL_INV, HLN_STATUS.addr]; omega) | (intros; (try dsimp only); (repeat' split) <;> first | with_reducible rfl | simp (disch := first | decide | (apply quiet_ge; dsimp only [HLN_STATUS.CDR_LOCK, HLN_STATUS.POL_INV, HLN_STATUS.addr]; omega)) only [Chip.upd_still, Chip.hostMod_still, Chip.setFlag_still, Chip.setHt_still])) only [Chip.upd_still, Chip.hostMod_still, Chip.setFlag_still, Chip.setHt_still]

theorem Chip.handOver_still (s : Chip) (h : Nat) (tx : Bool) : (s.handOver h tx).still = s.still := by
  unfold Chip.handOver
  try dsimp only
  (repeat' split) <;> first | with_reducible rfl | simp (disch := first | decide | (intros; (try dsimp only); (repeat' split) <;> first | with_reducible rfl | simp (disch := decide) only [Chip.upd_still, Chip.hostMod_still, Chip.hostTrained_still, Chip.setHt_still])) only [Chip.upd_still, Chip.hostMod_still, Chip.hostTrained_still, Chip.setHt_still]

theorem Chip.standIn_still (s : Chip) (p : Nat) : (s.standIn p).2.still = s.still := by
  unfold Chip.standIn
  try dsimp only
  (repeat' split) <;> first | with_reducible rfl | simp (disch := first | decide | (intros; (try dsimp only); (repeat' split) <;> first | with_reducible rfl | simp (disch := decide) only [Chip.upd_still, Chip.draw_still])) only [Chip.upd_still, Chip.draw_still]

theorem Chip.toHost_still (s : Chip) (p : Nat) (cw : List Nat) : (s.toHost p cw).still = s.still := by
  unfold Chip.toHost
  try dsimp only
  (repeat' split) <;> first | with_reducible rfl | simp (disch := first | decide | (apply quiet_ge; dsimp only [HLN_STATUS.RATE, HLN_STATUS.addr]; omega) | (intros; (try dsimp only); (repeat' split) <;> first | with_reducible rfl | simp (disch := first | decide | (apply quiet_ge; dsimp only [HLN_STATUS.RATE, HLN_STATUS.addr]; omega)) only [Chip.upd_still, Chip.forAll_still, Chip.hostMod_still, Chip.portMod_still])) only [Chip.upd_still, Chip.forAll_still, Chip.hostMod_still, Chip.portMod_still]

theorem Chip.hostFill_still (p h k b : Nat) (s : Chip) : (Chip.hostFill p h k b s).still = s.still := by
  induction b generalizing s with
  | zero => rfl
  | succ b ih =>
    unfold Chip.hostFill
    dsimp only
    split <;> first | rfl | simp only [ih, Chip.toHost_still, Chip.standIn_still]

theorem Chip.hostNeed_still (s : Chip) (h k : Nat) : (s.hostNeed h k).still = s.still := by
  unfold Chip.hostNeed
  cases s.portOfHost (s.physHost h) <;> simp only [Option.elim, Chip.hostFill_still]

theorem Chip.hostDataSent_still (s : Chip) (h : Nat) : (s.hostDataSent h).still = s.still := by
  unfold Chip.hostDataSent
  try dsimp only
  (repeat' split) <;> first | with_reducible rfl | simp (disch := first | decide | (intros; (try dsimp only); (repeat' split) <;> first | with_reducible rfl | simp (disch := decide) only [Chip.upd_still, Chip.hostMod_still, Chip.hostNeed_still])) only [Chip.upd_still, Chip.hostMod_still, Chip.hostNeed_still]

theorem Chip.hostSent_still (s : Chip) (h : Nat) : (s.hostSent h).still = s.still := by
  unfold Chip.hostSent
  try dsimp only
  (repeat' split) <;> first | with_reducible rfl | simp (disch := first | decide | (intros; (try dsimp only); (repeat' split) <;> first | with_reducible rfl | simp (disch := decide) only [Chip.upd_still, Chip.handOver_still, Chip.hostDataSent_still, Chip.hostMod_still, Chip.setHt_still])) only [Chip.upd_still, Chip.handOver_still, Chip.hostDataSent_still, Chip.hostMod_still, Chip.setHt_still]

theorem Chip.hostMessage_still (s : Chip) (h w openLegs : Nat) : (s.hostMessage h w openLegs).still = s.still := by
  unfold Chip.hostMessage
  try dsimp only
  (repeat' split) <;> first | with_reducible rfl | simp (disch := first | decide | (intros; (try dsimp only); (repeat' split) <;> first | with_reducible rfl | simp (disch := decide) only [Chip.upd_still, Chip.hearId_still, Chip.hostFarReq_still, Chip.hostFarStatus_still, Chip.hostMod_still])) only [Chip.upd_still, Chip.hearId_still, Chip.hostFarReq_still, Chip.hostFarStatus_still, Chip.hostMod_still]

theorem Chip.hostMarkersInData_still (s : Chip) (h : Nat) (openLegs : Nat) : (s.hostMarkersInData h openLegs).still = s.still := by
  unfold Chip.hostMarkersInData
  try dsimp only
  (repeat' split) <;> first | with_reducible rfl | simp (disch := first | decide | (apply quiet_ge; dsimp only [HLN_STATUS.CDR_LOCK, HLN_STATUS.addr]; omega) | (intros; (try dsimp only); (repeat' split) <;> first | with_reducible rfl | simp (disch := first | decide | (apply quiet_ge; dsimp only [HLN_STATUS.CDR_LOCK, HLN_STATUS.addr]; omega)) only [Chip.upd_still, Chip.hostMod_still, Chip.hostRestart_still, Chip.setFlag_still, Chip.setHt_still])) only [Chip.upd_still, Chip.hostMod_still, Chip.hostRestart_still, Chip.setFlag_still, Chip.setHt_still]

theorem Chip.hostFarTime_still (s : Chip) (h : Nat) : (s.hostFarTime h).still = s.still := by
  unfold Chip.hostFarTime
  try dsimp only
  (repeat' split) <;> first | with_reducible rfl | simp (disch := first | decide | (intros; (try dsimp only); (repeat' split) <;> first | with_reducible rfl | simp (disch := decide) only [Chip.upd_still, Chip.handOver_still, Chip.hostMod_still])) only [Chip.upd_still, Chip.handOver_still, Chip.hostMod_still]

theorem Chip.hostFrameInData_still (s : Chip) (h : Nat) (mark : Option Bool) (openLegs : Nat) : (s.hostFrameInData h mark openLegs).still
    = s.still := by
  unfold Chip.hostFrameInData
  try dsimp only
  (repeat' split) <;> first | with_reducible rfl | simp (disch := first | decide | (intros; (try dsimp only); (repeat' split) <;> first | with_reducible rfl | simp (disch := decide) only [Chip.upd_still, Chip.hostMarkersInData_still, Chip.hostMod_still, Chip.hostSent_still])) only [Chip.upd_still, Chip.hostMarkersInData_still, Chip.hostMod_still, Chip.hostSent_still]

theorem Chip.hostFrameInTraining_still (s : Chip) (h : Nat) (f : HFrameIn) (mark : Option Bool) (openLegs : Nat) :
    (s.hostFrameInTraining h f mark openLegs).still = s.still := by
  unfold Chip.hostFrameInTraining
  extract_lets s1 placed s2 s3 s4
  have h1 : s1.still = s.still := by simp only [s1, Chip.hostSent_still, Chip.hostMarker_still]
  have h2 : s2.still = s1.still := Chip.ite_still _ s1 _ _ (Chip.satInc_still _ _ _ (by apply quiet_ge; dsimp only [HLN_TRAIN_STATUS.CRC_ERR_CNT, HLN_TRAIN_STATUS.addr]; omega)) rfl
  have h3 : s3.still = s2.still := Chip.ite_still _ s2 _ _ (Chip.hostMessage_still ..) rfl
  have h4 : s4.still = s3.still := Chip.ite_still _ s3 _ _ (by simp only [Chip.setHt_still, Chip.hostMod_still]) (Chip.hostAsk_still ..)
  simp only [Chip.settle_still, Chip.showHostEq_still, h4, h3, h2, h1]

theorem Chip.hostFrame_still (s : Chip) (h : Nat) (f : HFrameIn) (openLegs : Nat) : (s.hostFrame h f openLegs).still = s.still := by
  unfold Chip.hostFrame
  extract_lets st mark s1
  have h1 : s1.still = s.still := Chip.hostFarTime_still ..
  split
  · rfl
  · split
    · exact Chip.ite_still _ s _ _ (Chip.hostMessage_still ..) rfl
    · split
      · rw [Chip.hostFrameInData_still, h1]
      · rw [Chip.hostFrameInTraining_still, h1]

theorem Chip.handoff_still (s : Chip) (h : Nat) (tx : Bool) : (s.handoff h tx).still = s.still := by
  unfold Chip.handoff
  try dsimp only
  (repeat' split) <;> first | with_reducible rfl | simp (disch := decide) only [Chip.upd_still, Chip.handOver_still]

theorem Chip.ieeeAsk_still (s : Chip) (h : Nat) (a : IeeeAsk) : (s.ieeeAsk h a).still = s.still := by
  unfold Chip.ieeeAsk
  try dsimp only
  (repeat' split) <;> first | with_reducible rfl | simp (disch := first | decide | (apply quiet_ge; dsimp only [HLN_STATUS.RATE, HLN_STATUS.addr]; omega) | (intros; (try dsimp only); (repeat' split) <;> first | with_reducible rfl | simp (disch := first | decide | (apply quiet_ge; dsimp only [HLN_STATUS.RATE, HLN_STATUS.addr]; omega)) only [Chip.upd_still, Chip.hostMod_still, Chip.setHostTaps_still])) only [Chip.upd_still, Chip.hostMod_still, Chip.setHostTaps_still]

theorem Chip.ieeeFrame_still (s : Chip) (h : Nat) (f : IeeeIn) (openLegs : Nat) : (s.ieeeFrame h f openLegs).still = s.still := by
  unfold Chip.ieeeFrame
  split
  · rfl
  · extract_lets s1 s2 s3 s4 s5 s6 s7
    have h1 : s1.still = s.still := by dsimp only [s1]; cases f.pos <;> first | rfl | exact Chip.hearId_still ..
    have h2 : s2.still = s1.still := Chip.ite_still _ s1 _ _ (Chip.hostRestart_still ..) rfl
    split
    · have h3 : s3.still = s2.still := by
        simp (disch := (apply quiet_ge; dsimp only [HLN_STATUS.CDR_LOCK, HLN_STATUS.POL_INV, HLN_STATUS.addr]; omega)) only [s3, Chip.setFlag_still]
      have h4 : s4.still = s3.still := Chip.hostMod_still ..
      have h5 : s5.still = s4.still := Chip.ite_still _ s4 _ _ (Chip.setHt_still ..) rfl
      have h6 : s6.still = s5.still := by dsimp only [s6]; cases f.ask <;> first | rfl | exact Chip.ieeeAsk_still ..
      have h7 : s7.still = s6.still := Chip.ite_still _ s6 _ _ (Chip.setHt_still ..) rfl
      simp only [Chip.settle_still, Chip.showHostEq_still, h7, h6, h5, h4, h3, h2, h1]
    · rw [h2, h1]

theorem Chip.fixedTrained_still (s : Chip) (h : Nat) (f : FixedIn) (openLegs : Nat) : (s.fixedTrained h f openLegs).still = s.still := by
  unfold Chip.fixedTrained
  try dsimp only
  (repeat' split) <;> first | with_reducible rfl | simp (disch := first | decide | (apply quiet_ge; dsimp only [HLN_STATUS.CDR_LOCK, HLN_STATUS.POL_INV, HLN_STATUS.SIGNAL, HLN_STATUS.TRAINED, HLN_STATUS.addr]; omega)) only [Chip.upd_still, Chip.hearId_still, Chip.hostTrained_still, Chip.setFlag_still, Chip.showHostEq_still]

theorem Chip.dataFrame_still (s : Chip) (h : Nat) (f : DataFrameIn) : (s.dataFrame h f).still = s.still := by
  unfold Chip.dataFrame
  try dsimp only
  (repeat' split) <;> first | with_reducible rfl | simp (disch := first | decide | (apply quiet_ge; dsimp only [HLN_STATUS.POL_INV, HLN_STATUS.TRAINED, HLN_STATUS.addr, HLN_TRAIN_STATUS.CRC_ERR_CNT, HLN_TRAIN_STATUS.addr]; omega) | (intros; (try dsimp only); (repeat' split) <;> first | with_reducible rfl | simp (disch := first | decide | (apply quiet_ge; dsimp only [HLN_STATUS.POL_INV, HLN_STATUS.TRAINED, HLN_STATUS.addr, HLN_TRAIN_STATUS.CRC_ERR_CNT, HLN_TRAIN_STATUS.addr]; omega)) only [Chip.upd_still, Chip.hostMod_still, Chip.hostSent_still, Chip.satInc_still, Chip.setFlag_still, Chip.settle_still, Chip.showHostEq_still, Chip.when_still])) only [Chip.upd_still, Chip.hostMod_still, Chip.hostSent_still, Chip.satInc_still, Chip.setFlag_still, Chip.settle_still, Chip.showHostEq_still, Chip.when_still]

theorem Chip.hostTxSet_still (s : Chip) (l : List Byte) : (Chip.hostTxSet s l).1.still = s.still := by
  unfold Chip.hostTxSet
  dsimp only
  (repeat' split) <;> simp only [Chip.upd_still, Chip.hostMod_still, Chip.setHostTaps_still]

theorem Chip.plyBoundary_still (s : Chip) (fn : Nat) : (Chip.plyBoundary s fn).still = s.still := by
  unfold Chip.plyBoundary
  dsimp only
  split <;> simp (disch := decide) only [Chip.upd_still, Chip.evalFray_still, Chip.setFld_still]

theorem Chip.sendOn_still (s : Chip) (n laneByte : Nat) (err : Int) (f : FrameShared) :
  (Chip.sendOn s n laneByte err f).still = s.still := by
  unfold Chip.sendOn
  dsimp only
  (repeat' split) <;> first | with_reducible rfl | simp (disch := first | (apply quiet_ge; dsimp only [TWF_LANE_STATUS.SCR_OFS_TX, TWF_LANE_STATUS.addr, TWF_RATE.JUST_TX, TWF_RATE.addr, TWF_RUN_OVF.TX_OVF, TWF_RUN_OVF.addr, TWF_STUFF_CNT.TX_STUFF, TWF_STUFF_CNT.addr]; omega) | (intros; simp (disch := (apply quiet_ge; dsimp only [TWF_LANE_STATUS.SCR_OFS_TX, TWF_LANE_STATUS.addr, TWF_RATE.JUST_TX, TWF_RATE.addr, TWF_RUN_OVF.TX_OVF, TWF_RUN_OVF.addr, TWF_STUFF_CNT.TX_STUFF, TWF_STUFF_CNT.addr]; omega)) only [Chip.upd_still, Chip.framerMod_still, Chip.raise_still, Chip.satInc_still, Chip.setFld_still, Chip.tapByte_still, Chip.txMod_still, Chip.when_still])) only [Chip.upd_still, Chip.framerMod_still, Chip.raise_still, Chip.satInc_still, Chip.setFld_still, Chip.tapByte_still, Chip.txMod_still, Chip.when_still]

theorem Chip.sendLane_still (s : Chip) (n : Nat) (errs : List Int) (g : GroupFrame) (syms : List Nat) : (s.sendLane n errs g syms).still =
    s.still := by
  unfold Chip.sendLane
  try dsimp only
  (repeat' split) <;> first | with_reducible rfl | simp (disch := first | decide | (apply quiet_ge; dsimp only [TWF_RATE.BUF_FILL, TWF_RATE.addr]; omega) | (intros; (try dsimp only); (repeat' split) <;> first | with_reducible rfl | simp (disch := first | decide | (apply quiet_ge; dsimp only [TWF_RATE.BUF_FILL, TWF_RATE.addr]; omega)) only [Chip.upd_still, Chip.framerMod_still, Chip.inbandByte_still, Chip.plyBoundary_still, Chip.sendOn_still, Chip.setFld_still])) only [Chip.upd_still, Chip.framerMod_still, Chip.inbandByte_still, Chip.plyBoundary_still, Chip.sendOn_still, Chip.setFld_still]

theorem Chip.sendIdle_still (s : Chip) (f : FrameOut) : (Chip.sendIdle s f).still = s.still := by
  unfold Chip.sendIdle
  dsimp only
  split <;> simp (disch := decide) only [Chip.plyBoundary_still, Chip.sendOn_still, Chip.setFld_still]

theorem Chip.recvLocked_still (s : Chip) (n : Nat) (l : List SoftSym) : (Chip.recvLocked s n l).still = s.still := by
  unfold Chip.recvLocked
  dsimp only
  (repeat' split) <;> first | with_reducible rfl | simp (disch := first | (apply quiet_ge; dsimp only [TWF_LANE_STATUS.FN_RX, TWF_LANE_STATUS.JUST_RX, TWF_LANE_STATUS.LF0_RX, TWF_LANE_STATUS.LF1_RX, TWF_LANE_STATUS.OH_OK, TWF_LANE_STATUS.RUN_OVF_RX, TWF_LANE_STATUS.SCR_OFS_RX, TWF_LANE_STATUS.addr, TWF_OH_ERR.OH_CRC, TWF_OH_ERR.addr, TWF_RUN_OVF.RX_OVF, TWF_RUN_OVF.addr, TWF_STUFF_CNT.RX_STUFF, TWF_STUFF_CNT.addr]; omega) | (intros; simp (disch := (apply quiet_ge; dsimp only [TWF_LANE_STATUS.FN_RX, TWF_LANE_STATUS.JUST_RX, TWF_LANE_STATUS.LF0_RX, TWF_LANE_STATUS.LF1_RX, TWF_LANE_STATUS.OH_OK, TWF_LANE_STATUS.RUN_OVF_RX, TWF_LANE_STATUS.SCR_OFS_RX, TWF_LANE_STATUS.addr, TWF_OH_ERR.OH_CRC, TWF_OH_ERR.addr, TWF_RUN_OVF.RX_OVF, TWF_RUN_OVF.addr, TWF_STUFF_CNT.RX_STUFF, TWF_STUFF_CNT.addr]; omega)) only [Chip.upd_still, Chip.framerMod_still, Chip.inbandFrame_still, Chip.satInc_still, Chip.setFlag_still, Chip.setFld_still, Chip.txMod_still, Chip.when_still])) only [Chip.upd_still, Chip.framerMod_still, Chip.inbandFrame_still, Chip.satInc_still, Chip.setFlag_still, Chip.setFld_still, Chip.txMod_still, Chip.when_still]

theorem Chip.frameLost_still (s : Chip) (n : Nat) : (Chip.frameLost s n).still = s.still := by
  unfold Chip.frameLost
  simp only [Chip.lockLoss_still, Chip.loseFrame_still]

theorem Chip.seekFrame_still (s : Chip) (n : Nat) (l : List SoftSym) : (Chip.seekFrame s n l).still = s.still := by
  unfold Chip.seekFrame
  dsimp only
  (repeat' split) <;> simp (disch := (apply quiet_ge; dsimp only [LRX_STATUS.FRAME_LOCK, LRX_STATUS.addr, TWF_LANE_STATUS.FRAME_LOCK, TWF_LANE_STATUS.POL_INV, TWF_LANE_STATUS.SEEK, TWF_LANE_STATUS.addr]; omega)) only [Chip.upd_still, Chip.framerMod_still, Chip.recvLocked_still, Chip.setFlag_still]

theorem Chip.twistFrame_still (s : Chip) (n : Nat) (raw : List (LlrIn × LlrIn)) : (s.twistFrame n raw).still = s.still := by
  unfold Chip.twistFrame
  try dsimp only
  (repeat' split) <;> first | with_reducible rfl | simp (disch := first | decide | (apply quiet_ge; dsimp only [TWF_LANE_STATUS.FRAME_LOCK, TWF_LANE_STATUS.FRAMING, TWF_LANE_STATUS.POL_INV, TWF_LANE_STATUS.addr]; omega) | (intros; (try dsimp only); (repeat' split) <;> first | with_reducible rfl | simp (disch := first | decide | (apply quiet_ge; dsimp only [TWF_LANE_STATUS.FRAME_LOCK, TWF_LANE_STATUS.FRAMING, TWF_LANE_STATUS.POL_INV, TWF_LANE_STATUS.addr]; omega)) only [Chip.upd_still, Chip.frameLost_still, Chip.framerMod_still, Chip.recvLocked_still, Chip.seekFrame_still])) only [Chip.upd_still, Chip.frameLost_still, Chip.framerMod_still, Chip.recvLocked_still, Chip.seekFrame_still]

theorem Chip.checkFar_still (s : Chip) (n : Nat) : (Chip.checkFar s n).still = s.still := by
  unfold Chip.checkFar
  dsimp only
  (repeat' split) <;> simp (disch := (apply quiet_ge; dsimp only [HNK_LANE_STATUS.FAR_CHANGED, HNK_LANE_STATUS.addr, TWF_FAR_ID_HI.FAR_HI, TWF_FAR_ID_HI.addr, TWF_FAR_ID_LO.FAR_LO, TWF_FAR_ID_LO.addr]; omega)) only [Chip.upd_still, Chip.dropPins_still, Chip.framerMod_still, Chip.markBad_still, Chip.noteRetrained_still, Chip.raise_still, Chip.readHank_still, Chip.retrain_still, Chip.rxMod_still, Chip.setFlag_still]

theorem Chip.l8Multiframe_still (s : Chip) (k laneByte : Nat) : (Chip.l8Multiframe s k laneByte).still = s.still := by
  unfold Chip.l8Multiframe
  dsimp only
  split <;> simp (disch := decide) only [Chip.upd_still, Chip.evalPairing_still, Chip.raise_still, Chip.satInc_still, Chip.setFld_still]

theorem Chip.multiframe_still (s : Chip) (n : Nat) : (Chip.multiframe s n).still = s.still := by
  unfold Chip.multiframe
  dsimp only
  (repeat' split) <;> simp (disch := (apply quiet_ge; dsimp only [TWF_FAR_ID_HI.FAR_HI, TWF_FAR_ID_HI.addr, TWF_FAR_ID_LO.FAR_LO, TWF_FAR_ID_LO.addr, TWF_FAR_INFO.addr, TWF_LANE_STATUS.MF_VALID, TWF_LANE_STATUS.addr, TWF_OH_ERR.MF_CRC, TWF_OH_ERR.addr]; omega)) only [Chip.upd_still, Chip.checkFar_still, Chip.framerMod_still, Chip.l8Multiframe_still, Chip.satInc_still, Chip.setFlag_still, Chip.setFld_still, Chip.setReg_still, Chip.settle_still]

theorem Chip.setCws_still (s : Chip) (l : List Codeword) : (Chip.setCws s l).still = s.still := by
  unfold Chip.setCws
  simp only [Chip.upd_still]

theorem Chip.slubStep_still (s : Chip) (n u : Nat) : (Chip.slubStep s n u).still = s.still := by
  unfold Chip.slubStep
  dsimp only
  (repeat' split) <;> simp (disch := (apply quiet_ge; dsimp only [CRL_LANE_SLUB.SLUB_CNT, CRL_LANE_SLUB.SLUB_LONGEST, CRL_LANE_SLUB.addr, CRL_LANE_STATUS.SLUB, CRL_LANE_STATUS.addr, CRL_SLUB_CFG.END, CRL_SLUB_CFG.THR, CRL_SLUB_CFG.addr]; omega)) only [Chip.upd_still, Chip.crlMod_still, Chip.satInc_still, Chip.setFlag_still, Chip.setFld_still, Chip.setLevel_still]

theorem Chip.enterCreel_still (s : Chip) (n : Nat) (w : Codeword) : (Chip.enterCreel s n w).still = s.still := by
  unfold Chip.enterCreel
  dsimp only
  (repeat' split) <;> simp only [Chip.upd_still, Chip.setCws_still]

theorem Chip.codewordArrival_still (s : Chip) (n at_ : Nat) : (Chip.codewordArrival s n at_).still = s.still := by
  unfold Chip.codewordArrival
  dsimp only
  (repeat' split) <;> simp only [Chip.upd_still, Chip.crlMod_still, Chip.enterCreel_still, Chip.framerMod_still, Chip.slubStep_still]

theorem Chip.spareGone_still (s : Chip) : (Chip.spareGone s).still = s.still := by
  unfold Chip.spareGone
  simp (disch := decide) only [Chip.upd_still, Chip.evalFray_still, Chip.setFlag_still, Chip.setFld_still, Chip.setLevel_still]

theorem Chip.dropBobbin_still (s : Chip) (b : Nat) : (s.dropBobbin b).still = s.still := by
  unfold Chip.dropBobbin
  try dsimp only
  (repeat' split) <;> first | with_reducible rfl | simp (disch := first | decide | (apply quiet_ge; dsimp only [CRL_BOBBIN_FAIL.RETIRED, CRL_BOBBIN_FAIL.addr, CRL_STATUS.IN_SERVICE, CRL_STATUS.SPARE, CRL_STATUS.addr]; omega)) only [Chip.upd_still, Chip.setFld_still, Chip.setFldBit_still, Chip.spareGone_still]

theorem Chip.retireBobbin_still (s : Chip) (b : Nat) : (s.retireBobbin b).still = s.still := by
  unfold Chip.retireBobbin
  try dsimp only
  (repeat' split) <;> first | with_reducible rfl | simp (disch := first | decide | (apply quiet_ge; dsimp only [CRL_BOBBIN_FAIL.RETIRED, CRL_BOBBIN_FAIL.addr]; omega)) only [Chip.upd_still, Chip.updPmu_still, Chip.dropBobbin_still, Chip.raise_still]

theorem Chip.rotateSpare_still (s : Chip) : (Chip.rotateSpare s).still = s.still := by
  unfold Chip.rotateSpare
  dsimp only
  split <;> simp (disch := decide) only [Chip.upd_still, Chip.setFld_still]

theorem Chip.lightErrors_still (s : Chip) (w : Codeword) (units : List Nat) : (s.lightErrors w units).still = s.still := by
  refine Chip.forAll_still _ _ _ (fun s u => ?_)
  dsimp only
  rw [Chip.fillBucket_still, Chip.when_still _ _ _ (fun s => Chip.logEcc_still _ _ _ _ _)]

theorem Chip.settlePairs_still (s : Chip) : (Chip.settlePairs s).still = s.still := by
  unfold Chip.settlePairs
  simp only [Chip.upd_still, Chip.setCws_still]

theorem Chip.grantSlot_still (s : Chip) : (Chip.grantSlot s).still = s.still := by
  unfold Chip.grantSlot
  simp (disch := first | (apply quiet_ge; dsimp only [CRL_FLOAT_CFG.LANE_FLOAT_MAX, CRL_FLOAT_CFG.addr, CRL_LANE_STATUS.DEMAND, CRL_LANE_STATUS.FLOAT_NOW, CRL_LANE_STATUS.addr, CRL_STATUS.FLOAT_EFF, CRL_STATUS.IN_SERVICE, CRL_STATUS.addr]; omega) | (intros; simp (disch := (apply quiet_ge; dsimp only [CRL_FLOAT_CFG.LANE_FLOAT_MAX, CRL_FLOAT_CFG.addr, CRL_LANE_STATUS.DEMAND, CRL_LANE_STATUS.FLOAT_NOW, CRL_LANE_STATUS.addr, CRL_STATUS.FLOAT_EFF, CRL_STATUS.IN_SERVICE, CRL_STATUS.addr]; omega)) only [Chip.upd_still, Chip.count_still, Chip.forAll_still, Chip.setCws_still, Chip.setFld_still, Chip.foldl_still])) only [Chip.upd_still, Chip.count_still, Chip.forAll_still, Chip.setCws_still, Chip.setFld_still, Chip.foldl_still]

theorem Chip.badRecords_still (s : Chip) (l : List Nat) : (s.badRecords l).still = s.still := by
  unfold Chip.badRecords
  try dsimp only
  (repeat' split) <;> first | with_reducible rfl | simp (disch := first | decide | (intros; (try dsimp only); (repeat' split) <;> first | with_reducible rfl | simp (disch := decide) only [Chip.upd_still, Chip.forAll_still, Chip.logEcc_still, Chip.raise_still, Chip.setCws_still])) only [Chip.upd_still, Chip.forAll_still, Chip.logEcc_still, Chip.raise_still, Chip.setCws_still]

theorem Chip.slotBoundary_still (s : Chip) (tests : List Nat) (residues : List (Nat × Nat)) (parity : List (Nat × Nat)) (records : List
    Nat) : (s.slotBoundary tests residues parity records).still = s.still := by
  unfold Chip.slotBoundary
  try dsimp only
  (repeat' split) <;> first | with_reducible rfl | simp (disch := first | decide | (apply quiet_ge; dsimp only [CRL_BOBBIN_FAIL.RETIRED, CRL_BOBBIN_FAIL.addr, CRL_STATUS.SPARE, CRL_STATUS.addr]; omega) | (intros; (try dsimp only); (repeat' split) <;> first | with_reducible rfl | simp (disch := first | decide | (apply quiet_ge; dsimp only [CRL_BOBBIN_FAIL.RETIRED, CRL_BOBBIN_FAIL.addr, CRL_STATUS.SPARE, CRL_STATUS.addr]; omega)) only [Chip.upd_still, Chip.badRecords_still, Chip.crlRefresh_still, Chip.forAll_still, Chip.grantSlot_still, Chip.lightErrors_still, Chip.retireBobbin_still, Chip.rotateSpare_still, Chip.setCws_still, Chip.settlePairs_still])) only [Chip.upd_still, Chip.badRecords_still, Chip.crlRefresh_still, Chip.forAll_still, Chip.grantSlot_still, Chip.lightErrors_still, Chip.retireBobbin_still, Chip.rotateSpare_still, Chip.setCws_still, Chip.settlePairs_still]

theorem Chip.histInc_still (s : Chip) (n b : Nat) : (Chip.histInc s n b).still = s.still := by
  unfold Chip.histInc
  simp (disch := (apply quiet_ge; dsimp only [CRL_HIST.COUNT, CRL_HIST.addr]; omega)) only [Chip.satInc_still]

theorem Chip.countVoid_still (s : Chip) (n : Nat) : (Chip.countVoid s n).still = s.still := by
  unfold Chip.countVoid
  simp (disch := (apply quiet_ge; dsimp only [CRL_LANE_MISS.VOID, CRL_LANE_MISS.addr]; omega)) only [Chip.histInc_still, Chip.satInc_still]

theorem Chip.countMiss_still (s : Chip) (n : Nat) : (Chip.countMiss s n).still = s.still := by
  unfold Chip.countMiss
  dsimp only
  split <;> simp (disch := (apply quiet_ge; dsimp only [CRL_LANE_MISS.DL_MISS, CRL_LANE_MISS.addr]; omega)) only [Chip.upd_still, Chip.crlMod_still, Chip.histInc_still, Chip.raise_still, Chip.satInc_still]

theorem Chip.fromLine_still (s : Chip) (p : Nat) (l : List Nat) : (s.fromLine p l).still = s.still := by
  unfold Chip.fromLine
  try dsimp only
  (repeat' split) <;> first | with_reducible rfl | simp (disch := first | decide | (intros; (try dsimp only); (repeat' split) <;> first | with_reducible rfl | simp (disch := decide) only [Chip.upd_still, Chip.portMod_still])) only [Chip.upd_still, Chip.portMod_still]

theorem Chip.deliver_still (s : Chip) (n fn : Nat) (l : List Nat) : (s.deliver n fn l).still = s.still := by
  unfold Chip.deliver
  dsimp only
  have h : ∀ (c : Chip) (o : Option Nat), (o.elim c (fun q => c.fromLine q (s.unweave n 1 l))).still = c.still := by
    intro c o; cases o <;> simp only [Option.elim, Chip.fromLine_still]
  have h' : ∀ (c : Chip) (q : Nat) (o : Option Nat),
      (o.elim (c.fromLine q (s.unweave n 0 l)) (fun r => (c.fromLine q (s.unweave n 0 l)).fromLine r
        ((c.fromLine q (s.unweave n 0 l)).unweave n 1 l))).still = c.still := by
    intro c q o; cases o <;> simp only [Option.elim, Chip.fromLine_still]
  (repeat' split) <;> simp only [h, h', Chip.portMod_still, Chip.fromLine_still]

theorem Chip.releaseTo_still (s : Chip) (w : Codeword) : (s.releaseTo w).still = s.still := by
  unfold Chip.releaseTo
  try dsimp only
  (repeat' split) <;> first | with_reducible rfl | simp (disch := decide) only [Chip.upd_still, Chip.deliver_still]

theorem Chip.releaseCw_still (s : Chip) (i : Nat) (w : Codeword) (units : List Nat) : (s.releaseCw i w units).still = s.still := by
  unfold Chip.releaseCw
  try dsimp only
  (repeat' split) <;> first | with_reducible rfl | simp (disch := first | decide | (intros; (try dsimp only); (repeat' split) <;> first | with_reducible rfl | simp (disch := decide) only [Chip.upd_still, Chip.countMiss_still, Chip.countVoid_still, Chip.crlMod_still, Chip.histInc_still, Chip.lightErrors_still, Chip.releaseTo_still, Chip.setCws_still])) only [Chip.upd_still, Chip.countMiss_still, Chip.countVoid_still, Chip.crlMod_still, Chip.histInc_still, Chip.lightErrors_still, Chip.releaseTo_still, Chip.setCws_still]

theorem Chip.windowMean_still (s : Chip) (a b : Nat) : (s.windowMean a b).2.still = s.still := by
  unfold Chip.windowMean
  split
  · exact Chip.draw_still s
  · rfl

theorem Chip.trend_still (s : Chip) (n : Nat) : (s.trend n).2.still = s.still := by
  unfold Chip.trend
  dsimp only
  (repeat' split) <;> first | rfl | exact Chip.draw_still s

theorem Chip.windowLane_still (s : Chip) (n : Nat) : (Chip.windowLane s n).still = s.still := by
  unfold Chip.windowLane
  simp (disch := (apply quiet_ge; dsimp only [CRL_LANE_BER.BER, CRL_LANE_BER.addr, CRL_LANE_ITER.ITER_AVG, CRL_LANE_ITER.UNSAT_AVG, CRL_LANE_ITER.addr, CRL_LANE_MARGIN.TREND, CRL_LANE_MARGIN.UNSAT_SLOW, CRL_LANE_MARGIN.addr]; omega)) only [Chip.upd_still, Chip.crlMod_still, Chip.setFld_still, Chip.trend_still, Chip.windowMean_still]

theorem Chip.newDeadline_still (s : Chip) (p d : Nat) : (Chip.newDeadline s p d).still = s.still := by
  unfold Chip.newDeadline
  simp (disch := first | (apply quiet_ge; dsimp only [CRL_LANE_CFG.addr]; omega) | (intros; simp (disch := (apply quiet_ge; dsimp only [CRL_LANE_CFG.addr]; omega)) only [Chip.upd_still, Chip.crlRefresh_still, Chip.forAll_still, Chip.fwWrite_still, Chip.setCws_still])) only [Chip.upd_still, Chip.crlRefresh_still, Chip.forAll_still, Chip.fwWrite_still, Chip.setCws_still]

theorem Chip.creelCfg_still (s : Chip) (l : List Byte) : (Chip.creelCfg s l).1.still = s.still := by
  unfold Chip.creelCfg
  dsimp only
  (repeat' split) <;> simp (disch := decide) only [Chip.fwWrite_still, Chip.newDeadline_still]

theorem Chip.clearCreelLane_still (s : Chip) (n : Nat) : (s.clearCreelLane n).still = s.still := by
  unfold Chip.clearCreelLane
  dsimp only
  rw [Chip.forAll_still _ _ _ (fun s b => Chip.clearCount_still _ _ (by apply quiet_ge; dsimp only [CRL_HIST.addr]; omega)),
    Chip.clearCounts_still]
  intro a ha
  simp only [List.mem_cons, List.not_mem_nil, or_false] at ha
  rcases ha with h | h <;> subst h <;> apply quiet_ge <;> dsimp only [CRL_LANE_MISS.addr, CRL_LANE_SLUB.addr] <;> omega

theorem Chip.creelStats_still (s : Chip) (r : Req) : (Chip.creelStats s r).1.still = s.still := by
  unfold Chip.creelStats
  dsimp only
  (repeat' split) <;> first | with_reducible rfl | simp (disch := (intros; simp only [Chip.clearCreelLane_still,
    Chip.when_still])) only [Chip.clearCreelLane_still, Chip.when_still]

theorem rsRegs_quiet (p : Nat) : ∀ a ∈ rsRegs p, quiet a = false := by
  intro a ha
  simp only [rsRegs, List.mem_cons, List.not_mem_nil, or_false] at ha
  rcases ha with h | h | h | h <;> subst h <;> apply quiet_ge <;>
    dsimp only [CRL_RS_CW.addr, CRL_RS_CORR.addr, CRL_RS_UNCORR.addr, CRL_RS_TX_ERR.addr] <;> omega

theorem Chip.creelRsStats_still (s : Chip) (r : Req) : (s.creelRsStats r).1.still = s.still := by
  unfold Chip.creelRsStats
  dsimp only
  (repeat' split) <;> first | rfl | exact Chip.when_still _ _ _ (Chip.clearCounts_still _ (rsRegs_quiet _))

theorem Chip.clearLive_still (s : Chip) (a : Nat) (h : quiet a = false) : (s.clearLive a).still = s.still := Chip.setReg_still _ _ _ h

/-- A list of live counts cleared. -/
theorem Chip.clearLives_still (l : List Nat) (hl : ∀ a ∈ l, quiet a = false) (s : Chip) :
  (s.forAll l Chip.clearLive).still = s.still := by
  unfold Chip.forAll
  induction l generalizing s with
  | nil => rfl
  | cons x l ih =>
    rw [List.foldl_cons, ih (fun a ha => hl a (List.mem_cons_of_mem _ ha)), Chip.clearLive_still _ _ (hl x (by simp))]

theorem Chip.openHost_still (s : Chip) (openLegs h : Nat) : (Chip.openHost s openLegs h).still = s.still := by
  unfold Chip.openHost
  dsimp only
  split <;> simp (disch := (apply quiet_ge; dsimp only [HLN_PAT_GEN.EN, HLN_PAT_GEN.addr]; omega)) only [Chip.upd_still, Chip.hostMod_still, Chip.hostStart_still, Chip.setFlag_still]

theorem Chip.dropOtherMode_still (s : Chip) (n mode : Nat) : (Chip.dropOtherMode s n mode).still = s.still := by
  unfold Chip.dropOtherMode
  dsimp only
  split <;> simp only [Chip.upd_still, Chip.dropPins_still, Chip.readHank_still]

theorem Chip.laneDefaults_still (s : Chip) (n : Nat) (twist : Bool) : (Chip.laneDefaults s n twist).still = s.still := by
  unfold Chip.laneDefaults
  simp (disch := (apply quiet_ge; dsimp only [CRL_LANE_CFG.addr, LRX_RX_CFG.CDR_BW, LRX_RX_CFG.VOLT_MAX, LRX_RX_CFG.addr]; omega)) only [Chip.fwWrite_still]

theorem Chip.freshFramer_still (s : Chip) (n framing : Nat) : (Chip.freshFramer s n framing).still = s.still := by
  unfold Chip.freshFramer
  simp (disch := (apply quiet_ge; dsimp only [TWF_LANE_STATUS.FRAMING, TWF_LANE_STATUS.addr]; omega)) only [Chip.framerMod_still, Chip.setFld_still, Chip.setReg_still]

theorem Chip.setEnable_still (s : Chip) (p : Nat) (on : Bool) : (Chip.setEnable s p on).1.still = s.still := by
  unfold Chip.setEnable
  dsimp only
  (repeat' split) <;> simp only [Chip.upd_still, Chip.portMod_still, Chip.refreshPort_still, Chip.saveShadow_still]

theorem Chip.flyHear_still (s : Chip) (p : Nat) : (Chip.flyHear s p).still = s.still := by
  unfold Chip.flyHear
  dsimp only
  split <;> simp only [Chip.upd_still, Chip.flyMod_still, Chip.flySetLink_still]

theorem Chip.flySendClears_still (s : Chip) (but : Option Nat) : (Chip.flySendClears s but).still = s.still := by
  unfold Chip.flySendClears
  simp (disch := (intros; simp only [Chip.flyLinkLocal_still, Chip.forAll_still])) only [Chip.flyLinkLocal_still, Chip.forAll_still]

theorem Chip.flySetChild_still (s : Chip) (p base size : Nat) : (Chip.flySetChild s p base size).still = s.still := by
  unfold Chip.flySetChild
  simp (disch := (apply quiet_ge; dsimp only [FLY_PORT_ROLE.ROLE, FLY_PORT_ROLE.addr, FLY_ROUTE_BASE.BASE, FLY_ROUTE_BASE.VALID, FLY_ROUTE_BASE.addr, FLY_ROUTE_SIZE.SIZE, FLY_ROUTE_SIZE.addr]; omega)) only [Chip.upd_still, Chip.flyMod_still, Chip.setFlag_still, Chip.setFld_still]

theorem Chip.flyLinkAssign_still (s : Chip) (p : Nat) (l : List Byte) : (Chip.flyLinkAssign s p l).still = s.still := by
  unfold Chip.flyLinkAssign
  dsimp only
  split <;> simp (disch := (apply quiet_ge; dsimp only [FLY_EPOCH.EPOCH, FLY_EPOCH.addr, FLY_PORT_ROLE.ROLE, FLY_PORT_ROLE.addr, FLY_RANGE.SIZE, FLY_RANGE.addr, FLY_STATUS.ADDR, FLY_STATUS.ADDR_VALID, FLY_STATUS.addr]; omega)) only [Chip.upd_still, Chip.flyMod_still, Chip.flyOriginate_still, Chip.raise_still, Chip.setFlag_still, Chip.setFld_still]

theorem Chip.setDisc_still (s : Chip) (d : Option Disc) : (Chip.setDisc s d).still = s.still := by
  unfold Chip.setDisc
  simp only [Chip.upd_still]

theorem Chip.addNode_still (s : Chip) (n : FlyNode) : (Chip.addNode s n).still = s.still := by
  unfold Chip.addNode
  simp only [Chip.upd_still]

theorem Chip.discEnd_still (s : Chip) : (Chip.discEnd s).still = s.still := by
  unfold Chip.discEnd
  simp (disch := decide) only [Chip.endWait_still, Chip.raise_still, Chip.setDisc_still, Chip.setFlag_still]

theorem Chip.discProbe_still (s : Chip) (node p : Nat) : (Chip.discProbe s node p).1.still = s.still := by
  unfold Chip.discProbe
  try dsimp only
  (repeat' split) <;> (first | with_reducible rfl | simp (disch := first | decide) only [Chip.upd_still, Chip.flyLinkLocal_still,
    Chip.flyOriginate_still])

theorem Chip.discAssign_still (s : Chip) (node p base size : Nat) : (Chip.discAssign s node p base size).still = s.still := by
  unfold Chip.discAssign
  dsimp only
  split <;> simp only [Chip.upd_still, Chip.flyLinkLocal_still, Chip.flyOriginate_still]

theorem Chip.flyRequestIn_still (s : Chip) (m : FlyMsg) : (Chip.flyRequestIn s m).still = s.still := by
  unfold Chip.flyRequestIn
  dsimp only
  (repeat' split) <;> simp only [Chip.upd_still, Chip.flyRespond_still, Chip.serve_still]

theorem Chip.flyResponseIn_still (s : Chip) (m : FlyMsg) : (Chip.flyResponseIn s m).still = s.still := by
  unfold Chip.flyResponseIn
  dsimp only
  split <;> simp only [Chip.upd_still, Chip.endWait_still]

theorem Chip.flyProbeIn_still (s : Chip) (m : FlyMsg) : (Chip.flyProbeIn s m).still = s.still := by
  unfold Chip.flyProbeIn
  dsimp only
  split <;> simp only [Chip.upd_still, Chip.flyLinkLocal_still, Chip.flyOriginate_still]

theorem Chip.flyAssignIn_still (s : Chip) (m : FlyMsg) : (Chip.flyAssignIn s m).still = s.still := by
  unfold Chip.flyAssignIn
  dsimp only
  split <;> simp only [Chip.upd_still, Chip.flyLinkLocal_still]

theorem Chip.flyAckPass_still (s : Chip) (p : Nat) (m : FlyMsg) : (Chip.flyAckPass s p m).still = s.still := by
  unfold Chip.flyAckPass
  dsimp only
  split <;> simp only [Chip.upd_still, Chip.flySetChild_still]

theorem Chip.flyRequestCmd_still (s : Chip) (r : Req) : (Chip.flyRequestCmd s r).1.still = s.still := by
  unfold Chip.flyRequestCmd
  dsimp only
  (repeat' split) <;> simp only [Chip.upd_still, Chip.flyOriginate_still]

theorem Chip.flyCfg_still (s : Chip) (en : Nat) : (Chip.flyCfg s en).1.still = s.still := by
  unfold Chip.flyCfg
  dsimp only
  (repeat' split) <;> first | with_reducible rfl | simp (disch := first | (apply quiet_ge; dsimp only [FLY_PORT_CFG.addr]; omega) | (intros; simp (disch := (apply quiet_ge; dsimp only [FLY_PORT_CFG.addr]; omega)) only [Chip.flySetLink_still, Chip.forAll_still, Chip.fwWrite_still])) only [Chip.flySetLink_still, Chip.forAll_still, Chip.fwWrite_still]

theorem Chip.flyNodes_still (s : Chip) (a len : Nat) : (Chip.flyNodes s a len).1.still = s.still := by
  unfold Chip.flyNodes
  dsimp only
  (repeat' split) <;> simp only [Chip.capture_still, Chip.writeBytes_still]

theorem Chip.countRs_still (s : Chip) (p kind : Nat) : (s.countRs p kind).still = s.still := by
  unfold Chip.countRs
  try dsimp only
  (repeat' split) <;> first | with_reducible rfl | simp (disch := first | decide | (intros; (try dsimp only); (repeat' split) <;> first | with_reducible rfl | simp (disch := decide) only [Chip.upd_still, Chip.count_still, Chip.when_still])) only [Chip.upd_still, Chip.count_still, Chip.when_still]

theorem Chip.toLine_still (s : Chip) (p : Nat) (cw : List Nat) : (s.toLine p cw).still = s.still := by
  unfold Chip.toLine
  try dsimp only
  (repeat' split) <;> first | with_reducible rfl | simp (disch := first | decide | (intros; (try dsimp only); (repeat' split) <;> first | with_reducible rfl | simp (disch := decide) only [Chip.upd_still, Chip.portMod_still])) only [Chip.upd_still, Chip.portMod_still]

theorem Chip.lineFill_still (p k b : Nat) (s : Chip) : (Chip.lineFill p k b s).still = s.still := by
  induction b generalizing s with
  | zero => rfl
  | succ b ih =>
    unfold Chip.lineFill
    dsimp only
    split <;> first | rfl | simp only [ih, Chip.toLine_still, Chip.standIn_still]

theorem Chip.takeLine_still (s : Chip) (p k : Nat) : (s.takeLine p k).2.still = s.still := by
  unfold Chip.takeLine
  simp only [Chip.portMod_still, Chip.lineFill_still]

theorem Chip.takeTrib_still (s : Chip) (n t : Nat) : (s.takeTrib n t).2.still = s.still := by
  unfold Chip.takeTrib
  try dsimp only
  (repeat' split) <;> first | with_reducible rfl | simp (disch := decide) only [Chip.upd_still, Chip.takeLine_still]

theorem Chip.drawRound_still (s : Chip) (n : Nat) : (s.drawRound n).2.still = s.still := by
  unfold Chip.drawRound
  try dsimp only
  (repeat' split) <;> first | with_reducible rfl | simp (disch := first | decide | (intros; (try dsimp only); (repeat' split) <;> first | with_reducible rfl | simp (disch := decide) only [Chip.upd_still, Chip.takeLine_still, Chip.takeTrib_still])) only [Chip.upd_still, Chip.takeLine_still, Chip.takeTrib_still]

theorem Chip.outgoing_still (s : Chip) (p : Nat) (cw : List Nat) : (s.outgoing p cw).2.still = s.still := by
  unfold Chip.outgoing
  try dsimp only
  (repeat' split) <;> first | with_reducible rfl | simp (disch := decide) only [Chip.upd_still, Chip.standIn_still]

theorem Chip.steer_still (s : Chip) (p : Nat) : (s.steer p).still = s.still := by
  unfold Chip.steer
  try dsimp only
  (repeat' split) <;> first | with_reducible rfl | simp (disch := first | decide | (apply quiet_ge; dsimp only [HLN_STATUS.RATE, HLN_STATUS.addr, TWF_RATE.FOLLOW, TWF_RATE.addr]; omega) | (intros; (try dsimp only); (repeat' split) <;> first | with_reducible rfl | simp (disch := first | decide | (apply quiet_ge; dsimp only [HLN_STATUS.RATE, HLN_STATUS.addr, TWF_RATE.FOLLOW, TWF_RATE.addr]; omega)) only [Chip.upd_still, Chip.draw_still, Chip.forAll_still, Chip.setFld_still])) only [Chip.upd_still, Chip.draw_still, Chip.forAll_still, Chip.setFld_still]

theorem Chip.rsFromHost_still (s : Chip) (p : Nat) (cw : List Nat) : (s.rsFromHost p cw).still = s.still := by
  unfold Chip.rsFromHost
  try dsimp only
  (repeat' split) <;> first | with_reducible rfl | simp (disch := first | decide | (apply quiet_ge; dsimp only [CRL_RS_TX_ERR.COUNT, CRL_RS_TX_ERR.addr]; omega) | (intros; (try dsimp only); (repeat' split) <;> first | with_reducible rfl | simp (disch := first | decide | (apply quiet_ge; dsimp only [CRL_RS_TX_ERR.COUNT, CRL_RS_TX_ERR.addr]; omega)) only [Chip.upd_still, Chip.countRs_still, Chip.outgoing_still, Chip.portMod_still, Chip.satInc_still, Chip.steer_still, Chip.toLine_still, Chip.when_still])) only [Chip.upd_still, Chip.countRs_still, Chip.outgoing_still, Chip.portMod_still, Chip.satInc_still, Chip.steer_still, Chip.toLine_still, Chip.when_still]

theorem Chip.hostCodeword_still (s : Chip) (p skip : Nat) (lanes : List (Nat × List Nat)) : (s.hostCodeword p skip lanes).still = s.still
    := by
  unfold Chip.hostCodeword
  try dsimp only
  (repeat' split) <;> first | with_reducible rfl | simp (disch := first | decide | (intros; (try dsimp only); (repeat' split) <;> first | with_reducible rfl | simp (disch := decide) only [Chip.upd_still, Chip.forAll_still, Chip.hostMod_still, Chip.rsFromHost_still])) only [Chip.upd_still, Chip.forAll_still, Chip.hostMod_still, Chip.rsFromHost_still]

theorem Chip.quadRelock_still (s : Chip) (h openLegs : Nat) : (s.quadRelock h openLegs).still = s.still := by
  unfold Chip.quadRelock
  try dsimp only
  (repeat' split) <;> first | with_reducible rfl | simp (disch := first | decide | (apply quiet_ge; dsimp only [HLN_STATUS.CDR_LOCK, HLN_STATUS.SIGNAL, HLN_STATUS.TRAINED, HLN_STATUS.addr]; omega) | (intros; (try dsimp only); (repeat' split) <;> first | with_reducible rfl | simp (disch := first | decide | (apply quiet_ge; dsimp only [HLN_STATUS.CDR_LOCK, HLN_STATUS.SIGNAL, HLN_STATUS.TRAINED, HLN_STATUS.addr]; omega)) only [Chip.upd_still, Chip.hostMod_still, Chip.hostRestart_still, Chip.setFlag_still])) only [Chip.upd_still, Chip.hostMod_still, Chip.hostRestart_still, Chip.setFlag_still]

theorem Chip.quadUnlock_still (s : Chip) (h : Nat) : (s.quadUnlock h).still = s.still := by
  unfold Chip.quadUnlock
  try dsimp only
  (repeat' split) <;> first | with_reducible rfl | simp (disch := first | decide | (apply quiet_ge; dsimp only [HLN_STATUS.TRAINED, HLN_STATUS.addr]; omega) | (intros; (try dsimp only); (repeat' split) <;> first | with_reducible rfl | simp (disch := first | decide | (apply quiet_ge; dsimp only [HLN_STATUS.TRAINED, HLN_STATUS.addr]; omega)) only [Chip.upd_still, Chip.hostMod_still, Chip.hostUnlock_still, Chip.setFlag_still, Chip.when_still])) only [Chip.upd_still, Chip.hostMod_still, Chip.hostUnlock_still, Chip.setFlag_still, Chip.when_still]

theorem Chip.recentre_still (s : Chip) (p : Nat) : (s.recentre p).still = s.still := by
  unfold Chip.recentre
  try dsimp only
  (repeat' split) <;> first | with_reducible rfl | simp (disch := first | decide | (intros; (try dsimp only); (repeat' split) <;> first | with_reducible rfl | simp (disch := decide) only [Chip.upd_still, Chip.forAll_still, Chip.framerMod_still, Chip.hostMod_still])) only [Chip.upd_still, Chip.forAll_still, Chip.framerMod_still, Chip.hostMod_still]

theorem Chip.rateFault_still (s : Chip) (p : Nat) : (s.rateFault p).still = s.still := by
  unfold Chip.rateFault
  try dsimp only
  (repeat' split) <;> first | with_reducible rfl | simp (disch := first | decide | (intros; (try dsimp only); (repeat' split) <;> first | with_reducible rfl | simp (disch := decide) only [Chip.upd_still, Chip.portMod_still, Chip.raise_still, Chip.recentre_still, Chip.settle_still])) only [Chip.upd_still, Chip.portMod_still, Chip.raise_still, Chip.recentre_still, Chip.settle_still]

theorem Chip.rsUncorrectable_still (s : Chip) (p : Nat) : (s.rsUncorrectable p).still = s.still := by
  unfold Chip.rsUncorrectable
  try dsimp only
  (repeat' split) <;> first | with_reducible rfl | simp (disch := first | decide | (apply quiet_ge; dsimp only [CRL_RS_UNCORR.COUNT, CRL_RS_UNCORR.addr]; omega)) only [Chip.upd_still, Chip.raise_still, Chip.satInc_still]

theorem Chip.rsFromLine_still (s : Chip) (p : Nat) (w : List Nat) : (s.rsFromLine p w).still = s.still := by
  unfold Chip.rsFromLine
  try dsimp only
  (repeat' split) <;> first | with_reducible rfl | simp (disch := first | decide | (apply quiet_ge; dsimp only [CRL_RS_CORR.COUNT, CRL_RS_CORR.addr, CRL_RS_CW.COUNT, CRL_RS_CW.addr]; omega) | (intros; (try dsimp only); (repeat' split) <;> first | with_reducible rfl | simp (disch := first | decide | (apply quiet_ge; dsimp only [CRL_RS_CORR.COUNT, CRL_RS_CORR.addr, CRL_RS_CW.COUNT, CRL_RS_CW.addr]; omega)) only [Chip.upd_still, Chip.countRs_still, Chip.outgoing_still, Chip.portMod_still, Chip.rsUncorrectable_still, Chip.satInc_still, Chip.settle_still, Chip.steer_still, Chip.toHost_still, Chip.when_still])) only [Chip.upd_still, Chip.countRs_still, Chip.outgoing_still, Chip.portMod_still, Chip.rsUncorrectable_still, Chip.satInc_still, Chip.settle_still, Chip.steer_still, Chip.toHost_still, Chip.when_still]

theorem Chip.sendGroup_still (s : Chip) (n : Nat) (f : FrameOut) : (s.sendGroup n f).still = s.still := by
  unfold Chip.sendGroup
  extract_lets g s1 x j fr r s2
  split
  · rfl
  · have h1 : s1.still = s.still := Chip.forAll_still _ _ _ (fun _ _ => Chip.framerMod_still ..)
    have hr : r.2.still = s1.still := by dsimp only [r]; split <;> first | rfl | exact Chip.drawRound_still ..
    have h2 : s2.still = r.2.still := Chip.forAll_still _ _ _ (fun _ _ => Chip.sendLane_still ..)
    cases s2.tribLost n <;> simp only [Option.elim, Chip.rateFault_still, h2, hr, h1]

theorem Chip.sidebandSent_still (s : Chip) (p : Nat) (l : List SbChar) : (s.sidebandSent p l).still = s.still := by
  unfold Chip.sidebandSent
  try dsimp only
  (repeat' split) <;> first | with_reducible rfl | simp (disch := first | decide | (intros; (try dsimp only); (repeat' split) <;> first | with_reducible rfl | simp (disch := decide) only [Chip.upd_still, Chip.flyMod_still])) only [Chip.upd_still, Chip.flyMod_still]

theorem Chip.takeFly_still (s : Chip) (k : Nat) : (s.takeFly k).still = s.still := by
  unfold Chip.takeFly
  try dsimp only
  (repeat' split) <;> first | with_reducible rfl | simp (disch := decide) only [Chip.upd_still]

theorem Chip.twistCodeword_still (s : Chip) (p skip : Nat) : (s.twistCodeword p skip).still = s.still := by
  unfold Chip.twistCodeword
  try dsimp only
  (repeat' split) <;> first | with_reducible rfl | simp (disch := first | decide | (intros; (try dsimp only); (repeat' split) <;> first | with_reducible rfl | simp (disch := decide) only [Chip.upd_still, Chip.fromLine_still, Chip.portMod_still, Chip.rsFromLine_still])) only [Chip.upd_still, Chip.fromLine_still, Chip.portMod_still, Chip.rsFromLine_still]

end Sys2Proof.Machine
end

