-- ==== Sys2Proof/Laws/StillRows.lean ====
section
/-! SUPPORT. The commands of the datapath leave alone power, thermal, DMA, converter, filters, spindles and session, one lemma per command. -/

namespace Sys2Proof.Machine

set_option linter.unusedSimpArgs false

theorem execTwistHFrame_still (h : HLane) (f : HFrameIn) (openLegs : BitVec 16) (s : State) : ∃ t,
  execTwistHFrame h f openLegs s = .next t ∧ t.chip.still = s.chip.still :=
  ⟨_, rfl, Chip.hostFrame_still ..⟩

theorem execHandoff_still (h : HLane) (tx : Bool) (s : State) : ∃ t, execHandoff h tx s = .next t ∧ t.chip.still = s.chip.still :=
  ⟨_, rfl, Chip.handoff_still ..⟩

theorem execEchoTimeout_still (h : HLane) (openLegs : BitVec 16) (s : State) : ∃ t,
  execEchoTimeout h openLegs s = .next t ∧ t.chip.still = s.chip.still := by
  refine ⟨_, rfl, ?_⟩
  dsimp only [State.onChip]
  split <;> simp only [Chip.hostRestart_still]

theorem execTrainingTimeout_still (h : HLane) (s : State) : ∃ t, execTrainingTimeout h s = .next t ∧ t.chip.still = s.chip.still := by
  refine ⟨_, rfl, ?_⟩
  dsimp only [State.onChip]
  split <;> simp (disch := (apply quiet_ge; dsimp only [HLN_FAULT.TRAIN_FAIL, HLN_FAULT.addr]; omega)) only [Chip.hostUnlock_still, Chip.raise_still, Chip.setFlag_still, Chip.setHt_still]

theorem execTrainingRetry_still (h : HLane) (openLegs : BitVec 16) (s : State) : ∃ t,
  execTrainingRetry h openLegs s = .next t ∧ t.chip.still = s.chip.still := by
  refine ⟨_, rfl, ?_⟩
  dsimp only [State.onChip]
  split <;> simp only [Chip.hostRestart_still]

theorem execIeeeTrainingFrame_still (h : HLane) (f : IeeeIn) (openLegs : BitVec 16) (s : State) : ∃ t,
  execIeeeTrainingFrame h f openLegs s = .next t ∧ t.chip.still = s.chip.still :=
  ⟨_, rfl, Chip.ieeeFrame_still ..⟩

theorem execTrainingFallback_still (h : HLane) (s : State) : ∃ t, execTrainingFallback h s = .next t ∧ t.chip.still = s.chip.still := by
  refine ⟨_, rfl, ?_⟩
  dsimp only [State.onChip]
  split <;> simp (disch := (apply quiet_ge; dsimp only [HLN_STATUS.CDR_LOCK, HLN_STATUS.SIGNAL, HLN_STATUS.addr]; omega)) only [Chip.upd_still, Chip.hostMod_still, Chip.setFlag_still, Chip.setHt_still]

theorem execFixedTrained_still (h : HLane) (f : FixedIn) (openLegs : BitVec 16) (s : State) :
    ∃ t, execFixedTrained h f openLegs s = .next t ∧ t.chip.still = s.chip.still :=
  ⟨_, rfl, Chip.fixedTrained_still ..⟩

theorem execDataFrame_still (h : HLane) (f : DataFrameIn) (s : State) : ∃ t,
  execDataFrame h f s = .next t ∧ t.chip.still = s.chip.still :=
  ⟨_, rfl, Chip.dataFrame_still ..⟩

theorem execHostLos_still (h : HLane) (s : State) : ∃ t, execHostLos h s = .next t ∧ t.chip.still = s.chip.still := by
  refine ⟨_, rfl, ?_⟩
  dsimp only [State.onChip]
  (repeat' split) <;> simp (disch := (apply quiet_ge; dsimp only [HLN_FAULT.LOS, HLN_FAULT.addr, HLN_STATUS.SIGNAL, HLN_STATUS.TRAINED, HLN_STATUS.addr]; omega)) only [Chip.upd_still, Chip.hostMod_still, Chip.hostUnlock_still, Chip.setFlag_still, Chip.setLevel_still, Chip.settle_still]

theorem execHostSignalReturn_still (h : HLane) (s : State) : ∃ t, execHostSignalReturn h s = .next t ∧ t.chip.still = s.chip.still := by
  refine ⟨_, rfl, ?_⟩
  dsimp only [State.onChip]
  split <;> simp (disch := (apply quiet_ge; dsimp only [HLN_STATUS.SIGNAL, HLN_STATUS.addr]; omega)) only [Chip.upd_still, Chip.hostMod_still, Chip.setFlag_still, Chip.setLevel_still, Chip.settle_still]

theorem execHostRelock_still (h : HLane) (s : State) : ∃ t, execHostRelock h s = .next t ∧ t.chip.still = s.chip.still := by
  refine ⟨_, rfl, ?_⟩
  dsimp only [State.onChip]
  split <;> simp (disch := (apply quiet_ge; dsimp only [HLN_STATUS.CDR_LOCK, HLN_STATUS.TRAINED, HLN_STATUS.addr]; omega)) only [Chip.upd_still, Chip.hostMod_still, Chip.setFlag_still, Chip.settle_still]

theorem execHostWatchExpiry_still (h : HLane) (openLegs : BitVec 16) (s : State) : ∃ t,
  execHostWatchExpiry h openLegs s = .next t ∧ t.chip.still = s.chip.still := by
  refine ⟨_, rfl, ?_⟩
  dsimp only [State.onChip]
  split <;> simp only [Chip.hostRestart_still]

theorem execHostTxShort_still (h : HLane) (on : Bool) (openLegs : BitVec 16) (s : State) : ∃ t,
  execHostTxShort h on openLegs s = .next t ∧ t.chip.still = s.chip.still := by
  refine ⟨_, rfl, ?_⟩
  dsimp only [State.onChip]
  (repeat' split) <;> simp (disch := (apply quiet_ge; dsimp only [HLN_FAULT.TX_SHORT, HLN_FAULT.addr, HLN_STATUS.TX_SHORT, HLN_STATUS.addr]; omega)) only [Chip.hostRestart_still, Chip.raise_still, Chip.setFlag_still]

theorem execHqUnlock_still (q : Quad) (s : State) : ∃ t, execHqUnlock q s = .next t ∧ t.chip.still = s.chip.still := by
  refine ⟨_, rfl, ?_⟩
  dsimp only [State.onChip]
  split
  · rw [Chip.settle_still, Chip.raise_still, Chip.forAll_still _ _ _ (fun c h => Chip.quadUnlock_still c h), Chip.quadMod_still,
      Chip.setFldBit_still _ _ _ _ (by decide)]
  · rfl

theorem execHqRelock_still (q : Quad) (openLegs : BitVec 16) (s : State) : ∃ t,
    execHqRelock q openLegs s = .next t ∧ t.chip.still = s.chip.still := by
  refine ⟨_, rfl, ?_⟩
  dsimp only [State.onChip]
  split
  · rw [Chip.settle_still, Chip.forAll_still _ _ _ (fun c h => Chip.quadRelock_still c h _), Chip.quadMod_still,
      Chip.setFldBit_still _ _ _ _ (by decide)]
  · rfl

theorem execHostRetrain_still (src : CmdSrc) (openLegs : BitVec 16) (s : State) : ∃ t,
  execHostRetrain src openLegs s = .next t ∧ t.chip.still = s.chip.still := by
  refine ⟨_, rfl, Chip.krelin_still _ _ _ _ (fun c r => ?_)⟩
  dsimp only
  (repeat' split) <;> simp only [Chip.hostRestart_still, Chip.krelin_still]

theorem execHostLaneStatus_still (src : CmdSrc) (s : State) : ∃ t, execHostLaneStatus src s = .next t ∧ t.chip.still = s.chip.still :=
  ⟨_, rfl, Chip.krelin_still _ _ _ _ (fun _ _ => rfl)⟩

theorem execHostTxSet_still (src : CmdSrc) (s : State) : ∃ t, execHostTxSet src s = .next t ∧ t.chip.still = s.chip.still :=
  ⟨_, rfl, Chip.krelin_still _ _ _ _ (fun _ _ => Chip.hostTxSet_still ..)⟩

theorem execForegroundCalibrationDone_still (n : LLane) (s : State) : ∃ t,
  execForegroundCalibrationDone n s = .next t ∧ t.chip.still = s.chip.still :=
  ⟨_, rfl, Chip.calDone_still ..⟩

theorem execLineSignal_still (n : LLane) (s : State) : ∃ t, execLineSignal n s = .next t ∧ t.chip.still = s.chip.still :=
  ⟨_, rfl, Chip.lineSignal_still ..⟩

theorem execBlindAdaptationDone_still (n : LLane) (s : State) : ∃ t,
  execBlindAdaptationDone n s = .next t ∧ t.chip.still = s.chip.still :=
  ⟨_, rfl, Chip.blindDone_still ..⟩

theorem execAdaptationWindow_still (n : LLane) (a : AdaptIn) (s : State) : ∃ t,
  execAdaptationWindow n a s = .next t ∧ t.chip.still = s.chip.still :=
  ⟨_, rfl, Chip.adaptWindow_still ..⟩

theorem execAdcCalUpdate_still (n : LLane) (a : AdcIn) (s : State) : ∃ t,
  execAdcCalUpdate n a s = .next t ∧ t.chip.still = s.chip.still :=
  ⟨_, rfl, Chip.adcUpdate_still ..⟩

theorem execSnrWindow_still (n : LLane) (snr : Fin 256) (s : State) : ∃ t,
  execSnrWindow n snr s = .next t ∧ t.chip.still = s.chip.still :=
  ⟨_, rfl, Chip.snrWindow_still ..⟩

theorem execGoodSet_still (n : LLane) (s : State) : ∃ t, execGoodSet n s = .next t ∧ t.chip.still = s.chip.still :=
  ⟨_, rfl, Chip.goodSet_still ..⟩

theorem execVoltStep_still (n : LLane) (s : State) : ∃ t, execVoltStep n s = .next t ∧ t.chip.still = s.chip.still :=
  ⟨_, rfl, Chip.voltStep_still ..⟩

theorem execVoltReturn_still (n : LLane) (s : State) : ∃ t, execVoltReturn n s = .next t ∧ t.chip.still = s.chip.still :=
  ⟨_, rfl, Chip.voltReturn_still ..⟩

theorem execLineRxStatus_still (src : CmdSrc) (s : State) : ∃ t, execLineRxStatus src s = .next t ∧ t.chip.still = s.chip.still :=
  ⟨_, rfl, Chip.krelin_still _ _ _ _ (fun _ _ => rfl)⟩

theorem execLineRxCfg_still (src : CmdSrc) (s : State) : ∃ t, execLineRxCfg src s = .next t ∧ t.chip.still = s.chip.still :=
  ⟨_, rfl, Chip.krelin_still _ _ _ _ (fun _ _ => Chip.lineRxCfg_still ..)⟩

theorem execLineRetrain_still (src : CmdSrc) (s : State) : ∃ t, execLineRetrain src s = .next t ∧ t.chip.still = s.chip.still :=
  ⟨_, rfl, Chip.krelin_still _ _ _ _ (fun _ _ => Chip.lineRetrain_still ..)⟩

theorem execLineCapture_still (src : CmdSrc) (s : State) : ∃ t, execLineCapture src s = .next t ∧ t.chip.still = s.chip.still :=
  ⟨_, rfl, Chip.krelin_still _ _ _ _ (fun _ _ => Chip.lineCapture_still ..)⟩

/-- Equal such parts have equal registers of those windows. -/
theorem Chip.fld_of_still {s t : Chip} (h : t.still = s.still) (f : Fld) (hq : quiet f.addr = true) : t.fld f = s.fld f := by
  have hr : t.reg f.addr = s.reg f.addr := by
    have := congrFun (congrArg Still.regs h) f.addr
    simpa only [Chip.still, hq, if_true] using this
  unfold Chip.fld
  rw [hr]

/-- A request line that no channel takes changes nothing. -/
theorem Chip.dmaLine_of_none (s : Chip) (line : Nat) (h : ∀ k < 16, s.fld (DMA_CFG.REQ k) ≠ line) : s.dmaLine line = s := by
  unfold Chip.dmaLine
  split
  · have : ∀ (l : List Nat), (∀ k ∈ l, k < 16) → s.forAll l (fun s n => s.dmaReqCh line n) = s := by
      intro l
      unfold Chip.forAll
      induction l with
      | nil => intro _; rfl
      | cons x l ih =>
        intro hl
        have hx : s.dmaReqCh line x = s := by
          unfold Chip.dmaReqCh
          rw [if_pos (Or.inl (h x (hl x (by simp))))]
        rw [List.foldl_cons, hx, ih (fun k hk => hl k (List.mem_cons_of_mem _ hk))]
    exact this _ (fun k hk => List.mem_range.mp hk)
  · rfl

theorem DMA_CFG_quiet (k : Nat) (h : k < 16) : quiet (DMA_CFG.REQ k).addr = true := by
  revert k; decide

/-- The end of a capture, where no DMA channel takes its line. -/
theorem Chip.captureEnd_still (s : Chip) (n : Nat) (d : TapData) (h : ∀ k < 16, s.fld (DMA_CFG.REQ k) ≠ n) :
    (s.captureEnd n d).still = s.still := by
  have line : ∀ t : Chip, t.still = s.still → (t.dmaLine n).still = s.still := by
    intro t ht
    rw [Chip.dmaLine_of_none t n (fun k hk => by rw [Chip.fld_of_still ht _ (DMA_CFG_quiet k hk)]; exact h k hk), ht]
  unfold Chip.captureEnd
  dsimp only
  split
  · rw [Chip.endWait_still]
  · split
    · rw [Chip.endWait_still]
      refine line _ ?_
      split
      · rw [Chip.writeBytes_still, Chip.rxMod_still]
      · rw [Chip.rxMod_still]
    · rw [Chip.endWait_still]
      exact line _ (Chip.rxMod_still ..)

theorem execCaptureEnd_still (n : LLane) (data : TapData) (s : State) (h : reachesFurther s (.captureEnd n data) = false) : ∃ t,
    execCaptureEnd n data s = .next t ∧ t.chip.still = s.chip.still := by
  refine ⟨_, rfl, Chip.captureEnd_still _ _ _ (fun k hk hc => ?_)⟩
  have : reachesFurther s (.captureEnd n data) = true :=
    List.any_eq_true.mpr ⟨k, List.mem_range.mpr hk, by simp [hc]⟩
  rw [h] at this
  cases this

theorem execTapWord_still (n : LLane) (s : State) : ∃ t, execTapWord n s = .next t ∧ t.chip.still = s.chip.still :=
  ⟨_, rfl, Chip.tapWordRx_still ..⟩

theorem execTapChange_still (n : LLane) (s : State) : ∃ t, execTapChange n s = .next t ∧ t.chip.still = s.chip.still :=
  ⟨_, rfl, Chip.tapChange_still ..⟩

theorem execTtSwap_still (n : LLane) (s : State) : ∃ t, execTtSwap n s = .next t ∧ t.chip.still = s.chip.still :=
  ⟨_, rfl, Chip.ttSwap_still ..⟩

theorem execTapTimeout_still (n : LLane) (s : State) : ∃ t, execTapTimeout n s = .next t ∧ t.chip.still = s.chip.still :=
  ⟨_, rfl, Chip.tapTimeout_still ..⟩

theorem execLineTxShort_still (n : LLane) (on : Bool) (s : State) : ∃ t, execLineTxShort n on s = .next t ∧ t.chip.still = s.chip.still :=
  ⟨_, rfl, Chip.lineTxShort_still ..⟩

theorem execLineTxStatus_still (src : CmdSrc) (s : State) : ∃ t, execLineTxStatus src s = .next t ∧ t.chip.still = s.chip.still :=
  ⟨_, rfl, Chip.krelin_still _ _ _ _ (fun _ _ => rfl)⟩

theorem execLineTxCfg_still (src : CmdSrc) (s : State) : ∃ t, execLineTxCfg src s = .next t ∧ t.chip.still = s.chip.still := by
  refine ⟨_, rfl, Chip.krelin_still _ _ _ _ (fun c r => ?_)⟩
  simp only [Chip.krelin_still, Chip.lineTxCfg_still]

theorem execLineTxTable_still (src : CmdSrc) (s : State) : ∃ t, execLineTxTable src s = .next t ∧ t.chip.still = s.chip.still :=
  ⟨_, rfl, Chip.krelin_still _ _ _ _ (fun _ _ => Chip.lineTxTable_still ..)⟩

theorem execSnapshot_still (n : LLane) (s : State) : ∃ t, execSnapshot n s = .next t ∧ t.chip.still = s.chip.still :=
  ⟨_, rfl, Chip.snapshot_still ..⟩

theorem execSnapshotGuardEnd_still (n : LLane) (s : State) : ∃ t, execSnapshotGuardEnd n s = .next t ∧ t.chip.still = s.chip.still :=
  ⟨_, rfl, Chip.commitSnapshot_still ..⟩

theorem execCheckpoint_still (n : LLane) (s : State) : ∃ t, execCheckpoint n s = .next t ∧ t.chip.still = s.chip.still :=
  ⟨_, rfl, Chip.checkpoint_still ..⟩

theorem execCheckpointCommit_still (n : LLane) (s : State) : ∃ t, execCheckpointCommit n s = .next t ∧ t.chip.still = s.chip.still :=
  ⟨_, rfl, Chip.commitCheckpoint_still ..⟩

theorem execPageInStart_still (s : State) : ∃ t, execPageInStart s = .next t ∧ t.chip.still = s.chip.still := by
  refine ⟨_, rfl, ?_⟩
  dsimp only [State.onChip]
  simp only [Chip.startPage_still]

theorem execHankPolicy_still (src : CmdSrc) (s : State) : ∃ t, execHankPolicy src s = .next t ∧ t.chip.still = s.chip.still := by
  refine ⟨_, rfl, Chip.krelin_still _ _ _ _ (fun c r => ?_)⟩
  dsimp only
  (repeat' split) <;> simp (disch := (apply quiet_ge; dsimp only [HNK_CFG.addr, HNK_LANE_CFG.addr]; omega)) only [Chip.fwWrite_still, Chip.krelin_still]

theorem execHankStatus_still (src : CmdSrc) (s : State) : ∃ t, execHankStatus src s = .next t ∧ t.chip.still = s.chip.still :=
  ⟨_, rfl, Chip.krelin_still _ _ _ _ (fun _ _ => rfl)⟩

theorem execHankRead_still (src : CmdSrc) (s : State) : ∃ t, execHankRead src s = .next t ∧ t.chip.still = s.chip.still :=
  ⟨_, rfl, Chip.krelin_still _ _ _ _ (fun _ _ => Chip.hankReadCmd_still ..)⟩

theorem execHankWrite_still (src : CmdSrc) (s : State) : ∃ t, execHankWrite src s = .next t ∧ t.chip.still = s.chip.still :=
  ⟨_, rfl, Chip.krelin_still _ _ _ _ (fun _ _ => Chip.hankWriteCmd_still ..)⟩

theorem execHankPin_still (src : CmdSrc) (s : State) : ∃ t, execHankPin src s = .next t ∧ t.chip.still = s.chip.still :=
  ⟨_, rfl, Chip.krelin_still _ _ _ _ (fun _ _ => Chip.hankPinCmd_still ..)⟩

theorem execHankUnpin_still (src : CmdSrc) (s : State) : ∃ t, execHankUnpin src s = .next t ∧ t.chip.still = s.chip.still :=
  ⟨_, rfl, Chip.krelin_still _ _ _ _ (fun _ _ => Chip.hankUnpinCmd_still ..)⟩

theorem execHankLoad_still (src : CmdSrc) (s : State) : ∃ t, execHankLoad src s = .next t ∧ t.chip.still = s.chip.still := by
  refine ⟨_, rfl, Chip.krelin_still _ _ _ _ (fun c r => ?_)⟩
  simp only [Chip.hankLoadCmd_still, Chip.krelin_still]

theorem execHankFlush_still (src : CmdSrc) (s : State) : ∃ t, execHankFlush src s = .next t ∧ t.chip.still = s.chip.still :=
  ⟨_, rfl, Chip.krelin_still _ _ _ _ (fun _ _ => Chip.hankFlushCmd_still ..)⟩

theorem execFrameSend_still (n : LLane) (f : FrameOut) (s : State) : ∃ t,
    execFrameSend n f s = .next t ∧ t.chip.still = s.chip.still := by
  refine ⟨_, rfl, ?_⟩
  dsimp only [State.onChip]
  (repeat' split) <;> first | with_reducible rfl | exact Chip.sendIdle_still .. | exact Chip.sendGroup_still ..

theorem execTwistFrame_still (n : LLane) (l : List (LlrIn × LlrIn)) (s : State) : ∃ t,
    execTwistFrame n l s = .next t ∧ t.chip.still = s.chip.still :=
  ⟨_, rfl, Chip.twistFrame_still ..⟩

theorem execPortRateFault_still (p : PortNo) (s : State) : ∃ t, execPortRateFault p s = .next t ∧ t.chip.still = s.chip.still :=
  ⟨_, rfl, Chip.rateFault_still ..⟩

theorem execRateFaultClear_still (p : PortNo) (s : State) : ∃ t, execRateFaultClear p s = .next t ∧ t.chip.still = s.chip.still := by
  refine ⟨_, rfl, ?_⟩
  dsimp only [State.onChip]
  simp only [Chip.upd_still, Chip.portMod_still, Chip.settle_still]

theorem execPortSkew_still (p : PortNo) (beyond : Bool) (s : State) : ∃ t,
  execPortSkew p beyond s = .next t ∧ t.chip.still = s.chip.still := by
  refine ⟨_, rfl, ?_⟩
  dsimp only [State.onChip]
  (repeat' split) <;> first | with_reducible rfl | simp (disch := (intros; simp only [Chip.upd_still, Chip.portMod_still,
    Chip.raise_still, Chip.settle_still, Chip.when_still])) only [Chip.upd_still, Chip.portMod_still, Chip.raise_still,
    Chip.settle_still, Chip.when_still]

theorem execIeeeAlignLoss_still (n : LLane) (s : State) : ∃ t, execIeeeAlignLoss n s = .next t ∧ t.chip.still = s.chip.still := by
  refine ⟨_, rfl, ?_⟩
  dsimp only [State.onChip]
  split <;> simp only [Chip.frameLost_still]

theorem execCodewordArrival_still (n : LLane) (at_ : Fin 64) (s : State) : ∃ t,
  execCodewordArrival n at_ s = .next t ∧ t.chip.still = s.chip.still :=
  ⟨_, rfl, Chip.codewordArrival_still ..⟩

theorem execSpareRotation_still (s : State) : ∃ t, execSpareRotation s = .next t ∧ t.chip.still = s.chip.still := by
  refine ⟨_, rfl, ?_⟩
  dsimp only [State.onChip]
  split <;> simp only [Chip.upd_still]

theorem execSlotBoundary_still (tests : List (Fin 25)) (residues : List (Fin 25 × Nat)) (parity : List (Nat × Fin 16384))
    (records : List Nat) (s : State) : ∃ t,
    execSlotBoundary tests residues parity records s = .next t ∧ t.chip.still = s.chip.still :=
  ⟨_, rfl, Chip.slotBoundary_still ..⟩

theorem execCodewordRelease_still (n : LLane) (parity : List (Fin 16384)) (s : State) : ∃ t,
  execCodewordRelease n parity s = .next t ∧ t.chip.still = s.chip.still := by
  refine ⟨_, rfl, ?_⟩
  dsimp only [State.onChip]
  (repeat' split) <;> simp only [Chip.upd_still, Chip.releaseCw_still]

theorem execRsCodeword_still (p : PortNo) (x : RsIn) (s : State) : ∃ t,
    execRsCodeword p x s = .next t ∧ t.chip.still = s.chip.still := by
  refine ⟨_, rfl, ?_⟩
  dsimp only [State.onChip]
  split
  · rfl
  · cases x
    · exact Chip.hostCodeword_still ..
    · exact Chip.ite_still _ _ _ _ (Chip.twistCodeword_still ..) rfl
    · exact Chip.ite_still _ _ _ _ rfl (Chip.rsFromLine_still ..)

theorem execCreelCfg_still (src : CmdSrc) (s : State) : ∃ t, execCreelCfg src s = .next t ∧ t.chip.still = s.chip.still :=
  ⟨_, rfl, Chip.krelin_still _ _ _ _ (fun _ _ => Chip.creelCfg_still ..)⟩

theorem execCreelStatus_still (src : CmdSrc) (s : State) : ∃ t, execCreelStatus src s = .next t ∧ t.chip.still = s.chip.still :=
  ⟨_, rfl, Chip.krelin_still _ _ _ _ (fun _ _ => rfl)⟩

theorem execCreelStats_still (src : CmdSrc) (s : State) : ∃ t, execCreelStats src s = .next t ∧ t.chip.still = s.chip.still :=
  ⟨_, rfl, Chip.krelin_still _ _ _ _ (fun _ _ => Chip.creelStats_still ..)⟩

theorem execCreelRsStats_still (src : CmdSrc) (s : State) : ∃ t, execCreelRsStats src s = .next t ∧ t.chip.still = s.chip.still :=
  ⟨_, rfl, Chip.krelin_still _ _ _ _ (fun _ _ => Chip.creelRsStats_still ..)⟩

theorem execPlyDown_still (s : State) : ∃ t, execPlyDown s = .next t ∧ t.chip.still = s.chip.still := by
  refine ⟨_, rfl, ?_⟩
  dsimp only [State.onChip]
  split <;> simp only [Chip.upd_still, Chip.evalFray_still]

theorem execLaneLost_still (n : Fin 8) (s : State) : ∃ t, execLaneLost n s = .next t ∧ t.chip.still = s.chip.still := by
  refine ⟨_, rfl, ?_⟩
  dsimp only [State.onChip]
  split <;> simp only [Chip.upd_still, Chip.evalFray_still]

theorem execPlyStatus_still (src : CmdSrc) (s : State) : ∃ t, execPlyStatus src s = .next t ∧ t.chip.still = s.chip.still :=
  ⟨_, rfl, Chip.krelin_still _ _ _ _ (fun _ _ => Chip.plyStatus_still ..)⟩

theorem execPlyMirror_still (src : CmdSrc) (s : State) : ∃ t, execPlyMirror src s = .next t ∧ t.chip.still = s.chip.still :=
  ⟨_, rfl, Chip.krelin_still _ _ _ _ (fun _ _ => Chip.plyMirrorCmd_still ..)⟩

theorem execPlySubst_still (src : CmdSrc) (s : State) : ∃ t, execPlySubst src s = .next t ∧ t.chip.still = s.chip.still :=
  ⟨_, rfl, Chip.krelin_still _ _ _ _ (fun _ _ => Chip.plySubstCmd_still ..)⟩

theorem execEnablePort_still (src : CmdSrc) (s : State) : ∃ t, execEnablePort src s = .next t ∧ t.chip.still = s.chip.still :=
  ⟨_, rfl, Chip.krelin_still _ _ _ _ (fun _ _ => Chip.setEnable_still ..)⟩

theorem execDisablePort_still (src : CmdSrc) (s : State) : ∃ t, execDisablePort src s = .next t ∧ t.chip.still = s.chip.still :=
  ⟨_, rfl, Chip.krelin_still _ _ _ _ (fun _ _ => Chip.setEnable_still ..)⟩

theorem execGetPortMap_still (src : CmdSrc) (s : State) : ∃ t, execGetPortMap src s = .next t ∧ t.chip.still = s.chip.still :=
  ⟨_, rfl, Chip.krelin_still _ _ _ _ (fun _ _ => rfl)⟩

theorem execTelPort_still (src : CmdSrc) (s : State) : ∃ t, execTelPort src s = .next t ∧ t.chip.still = s.chip.still :=
  ⟨_, rfl, Chip.krelin_still _ _ _ _ (fun _ _ => rfl)⟩

theorem execSysInfo_still (src : CmdSrc) (s : State) : ∃ t, execSysInfo src s = .next t ∧ t.chip.still = s.chip.still :=
  ⟨_, rfl, Chip.krelin_still _ _ _ _ (fun _ _ => rfl)⟩

theorem execSysEcho_still (src : CmdSrc) (s : State) : ∃ t, execSysEcho src s = .next t ∧ t.chip.still = s.chip.still :=
  ⟨_, rfl, Chip.krelin_still _ _ _ _ (fun _ _ => rfl)⟩

theorem execSysTime_still (src : CmdSrc) (s : State) : ∃ t, execSysTime src s = .next t ∧ t.chip.still = s.chip.still :=
  ⟨_, rfl, Chip.krelin_still _ _ _ _ (fun _ _ => rfl)⟩

theorem execSysCfgSave_still (src : CmdSrc) (s : State) : ∃ t, execSysCfgSave src s = .next t ∧ t.chip.still = s.chip.still := by
  refine ⟨_, rfl, ?_⟩
  dsimp only [State.onChip]
  simp (disch := (intros; split <;> simp only [Chip.krelin_still, Chip.saveShadow_still])) only [Chip.krelin_still, Chip.saveShadow_still]

theorem execHeldCompletionPost_still (s : State) (h : reachesFurther s .heldCompletionPost = false) : ∃ t,
    execHeldCompletionPost s = .next t ∧ t.chip.still = s.chip.still := by
  refine ⟨_, rfl, ?_⟩
  dsimp only [State.onChip]
  split
  · rfl
  · rename_i x l hx
    have hl : x.lowPower = false := by
      have : reachesFurther s .heldCompletionPost = x.lowPower := by unfold reachesFurther; rw [hx]; rfl
      rw [← this, h]
    split
    · rfl
    · rw [hl, if_neg (by decide), Chip.postCpl_still, Chip.upd_still]

theorem execModerationTimeout_still (s : State) : ∃ t, execModerationTimeout s = .next t ∧ t.chip.still = s.chip.still := by
  refine ⟨_, rfl, ?_⟩
  dsimp only [State.onChip]
  split <;> simp only [Chip.signalCpl_still]

theorem execKeepaliveReceived_still (p : Fin 2) (s : State) : ∃ t, execKeepaliveReceived p s = .next t ∧ t.chip.still = s.chip.still := by
  refine ⟨_, rfl, ?_⟩
  dsimp only [State.onChip]
  split <;> simp only [Chip.flyHear_still]

theorem execLinkDown_still (p : Fin 2) (s : State) : ∃ t, execLinkDown p s = .next t ∧ t.chip.still = s.chip.still := by
  refine ⟨_, rfl, ?_⟩
  dsimp only [State.onChip]
  split <;> simp only [Chip.flySetLink_still]

theorem execSidebandTransmission_still (p : Fin 2) (collision : Bool) (s : State) : ∃ t,
    execSidebandTransmission p collision s = .next t ∧ t.chip.still = s.chip.still := by
  refine ⟨_, rfl, ?_⟩
  dsimp only [State.onChip]
  (repeat' split) <;> first | with_reducible rfl | simp only [Chip.flyCount_still, Chip.flyMod_still, Chip.sidebandSent_still]

theorem execRequestExpiry_still (i : Fin 8) (s : State) : ∃ t, execRequestExpiry i s = .next t ∧ t.chip.still = s.chip.still := by
  refine ⟨_, rfl, ?_⟩
  dsimp only [State.onChip]
  split
  · rw [Chip.serve_still, Chip.takeFly_still]
  · rfl

theorem execNotify_still (s : State) : ∃ t, execNotify s = .next t ∧ t.chip.still = s.chip.still := by
  refine ⟨_, rfl, ?_⟩
  dsimp only [State.onChip]
  (repeat' split) <;> simp only [Chip.upd_still, Chip.flyOriginate_still, Chip.raise_still]

theorem execFlyRequest_still (src : CmdSrc) (s : State) : ∃ t, execFlyRequest src s = .next t ∧ t.chip.still = s.chip.still :=
  ⟨_, rfl, Chip.krelin_still _ _ _ _ (fun _ _ => Chip.flyRequestCmd_still ..)⟩

theorem execFlyCfg_still (src : CmdSrc) (s : State) : ∃ t, execFlyCfg src s = .next t ∧ t.chip.still = s.chip.still :=
  ⟨_, rfl, Chip.krelin_still _ _ _ _ (fun _ _ => Chip.flyCfg_still ..)⟩

theorem execFlyNodes_still (src : CmdSrc) (s : State) : ∃ t, execFlyNodes src s = .next t ∧ t.chip.still = s.chip.still :=
  ⟨_, rfl, Chip.krelin_still _ _ _ _ (fun _ _ => Chip.flyNodes_still ..)⟩

theorem execHkRead_still (src : CmdSrc) (s : State) : ∃ t, execHkRead src s = .next t ∧ t.chip.still = s.chip.still :=
  ⟨_, rfl, Chip.krelin_still _ _ _ _ (fun _ _ => rfl)⟩

theorem execGuardGet_still (src : CmdSrc) (s : State) : ∃ t, execGuardGet src s = .next t ∧ t.chip.still = s.chip.still :=
  ⟨_, rfl, Chip.krelin_still _ _ _ _ (fun _ _ => rfl)⟩

theorem execLlrScaleUpdate_still (n : LLane) (x : Fin 65536) (s : State) :
    ∃ t, execLlrScaleUpdate n x s = .next t ∧ t.chip.still = s.chip.still :=
  ⟨_, rfl, Chip.llrUpdate_still _ _ _⟩

theorem execHostTrainCfg_still (src : CmdSrc) (s : State) : ∃ t, execHostTrainCfg src s = .next t ∧ t.chip.still = s.chip.still := by
  refine ⟨_, rfl, Chip.krelin_still _ _ _ _ (fun c r => ?_)⟩
  dsimp only
  split
  · rfl
  · rw [Chip.keepConfig_still, Chip.forAll_still _ _ _ (fun c h => Chip.hostMod_still _ _ _), Chip.quadMod_still]

end Sys2Proof.Machine
end

