-- ==== Sys2Proof/Laws/Reset.lean ====
section
/-! SUPPORT. What the chip resets leave: the part after a power-on reset and after a reset with the reach of `RESET_N`. -/

namespace Sys2Proof.Machine

set_option linter.unusedSimpArgs false


/-- Other registers stay. -/
theorem noteResets_reg (s : Chip) (l : List ResetSource) (a : Nat) (h : a ≠ GLB_RST_STATUS.addr) : (s.noteResets l).reg a = s.reg a := by
  unfold Chip.noteResets Chip.forAll
  induction l generalizing s with
  | nil => rfl
  | cons x l ih => 
    simp only [List.foldl_cons]; rw [ih]
    have : (resetFlag x).addr = GLB_RST_STATUS.addr := by cases x <;> rfl
    exact Chip.reg_setFld_other _ _ _ _ (by rw [this]; exact h)

/-- Noting the sources of a reset touches `GLB_RST_STATUS` alone. -/
theorem noteResets_calm (s : Chip) (l : List ResetSource) : Calm (fun a => a == GLB_RST_STATUS.addr) s (s.noteResets l) := by
  unfold Chip.noteResets
  refine Calm.forAll _ _ _ (fun s x => ?_) s
  exact Calm.setFlag _ _ _ _ (by cases x <;> rfl)

/-- It leaves flash, memory and mailbox alone. -/
theorem noteResets_other (s : Chip) (l : List ResetSource) : (s.noteResets l).flash = s.flash ∧ (s.noteResets l).mem = s.mem ∧ (s.noteResets l).mbx = s.mbx := by
  unfold Chip.noteResets Chip.forAll
  induction l generalizing s with
  | nil => simp
  | cons x l ih => simp only [List.foldl_cons]; have := ih (s.setFlag (resetFlag x) true); simpa using this

/-- Every source noted has its bit set. -/
theorem noteResets_flag (s : Chip) (l : List ResetSource) (r) (h : r ∈ l ∨ s.flag (resetFlag r) = true) : (s.noteResets l).flag (resetFlag r) = true := by
  unfold Chip.noteResets Chip.forAll
  induction l generalizing s with
  | nil => simpa using h
  | cons x l ih => 
    simp only [List.foldl_cons]; apply ih
    by_cases hx : x = r
    · right; subst hx; rw [Chip.flag_setFlag _ _ _ (by cases x <;> decide) (by cases x <;> rfl)]
    · rcases h with h | h
      · left; simpa [Ne.symm hx] using h
      · right; rw [Chip.flag_setFlag_other _ _ _ _ (by revert hx; cases x <;> cases r <;> decide), h]



/-- The part at a power-on reset before its supply level and step are set. -/
abbrev porBase (o : Otp) (fl : Flash) (k v : Nat) (x : Nat) : Chip := { Chip.atPor o fl k v with fresh := x }

/-- With nothing changed every register reads its reset value. -/
theorem regIn_nil (a : Nat) : regIn [] a = resetWord a := by simp only [regIn, tabGet]

/-- The trip latch resets to 0. -/
theorem trip0 : resetWord THM_STATUS.addr = 0 := by decide +kernel

/-- The trip latch is clear after a power-on reset. -/
theorem por_trip (o fl k v x) : (porBase o fl k v x).flag THM_STATUS.TRIP = false := by
  simp only [porBase, Chip.flag_mk, flagIn_regs]
  unfold Chip.atPor Chip.startSession Chip.showOtp Chip.flag Chip.fld
  simp (disch := decide) only [Chip.reg_setFld_other, Chip.reg_setReg_other, Chip.setFlag, Chip.reg_mk, regIn_regs, regIn_nil]
  rw [show THM_STATUS.TRIP.addr = THM_STATUS.addr from rfl, trip0]; decide

/-- The part after a power-on reset, written out. -/
theorem porReset_chip (s : State) (k v) : (s.porReset k v).chip = ((porBase s.fuse s.chip.flash k (2*v+1) s.chip.fresh).supplyLevel).setFld GLB_BOOT_STATUS.STEP 1 := by
  show Chip.step1 (porBase s.fuse s.chip.flash k (2*v+1) s.chip.fresh).supplyLevel = _
  unfold Chip.step1 
  rw [if_neg]
  unfold Chip.supplyLevel
  rw [Chip.setLevel_flag, por_trip]; decide

/-- The state beside the registers after a power-on reset. -/
theorem por_other (o fl k v x) : let n := (porBase o fl k v x).supplyLevel; n.flash = fl ∧ n.mem = [] ∧ n.mbx = {} ∧ n.pmu = {} ∧ n.limited = true ∧ n.straps = k := by
  unfold Chip.supplyLevel porBase Chip.atPor Chip.startSession Chip.showOtp; simp

/-- The registers after a power-on reset. -/
theorem por_reg (o fl k v x a) (h2 : a ≠ GLB_SUPPLY_STATUS.addr) (h3 : a ≠ GLB_STRAPS.addr) (h4 : a ≠ GLB_AVS.addr) (h6 : a ≠ GRD_LC.addr)
   (h7 : a ≠ GRD_SESSION.addr) (h8 : a ≠ TWF_UNIT_ID_LO.addr) (h9 : a ≠ TWF_UNIT_ID_HI.addr) : (porBase o fl k v x).supplyLevel.reg a = resetWord a := by
    unfold Chip.supplyLevel
    rw [Chip.setLevel_reg]
    rw [porBase, Chip.reg_mk, regIn_regs]
    unfold Chip.atPor Chip.startSession Chip.showOtp 
    simp only [Chip.reg_mk, regIn_regs, Chip.setFlag, Chip.reg_setReg_other _ _ _ _ h2,
     fun (s : Chip) v => Chip.reg_setFld_other s GRD_SESSION.LEVEL v _ h7,
     fun (s : Chip) v => Chip.reg_setFld_other s GLB_AVS.TARGET v _ h4,fun (s : Chip) v => Chip.reg_setFld_other s GLB_AVS.FUSED v _ h4,
     fun (s : Chip) v => Chip.reg_setFld_other s TWF_UNIT_ID_LO.ID_LO v _ h8, fun (s : Chip) v => Chip.reg_setFld_other s TWF_UNIT_ID_HI.ID_HI v _ h9,
     fun (s : Chip) v => Chip.reg_setFld_other s GRD_LC.KEY_OK v _ h6, fun (s : Chip) v => Chip.reg_setFld_other s GRD_LC.STATE v _ h6,
     fun (s : Chip) v => Chip.reg_setFld_other s GLB_STRAPS.MGR_SEL v _ h3, regIn_nil]

/-- The supply monitors after a power-on reset. -/
theorem por_supply (o fl k v x) (hv : v < 64) : ((porBase o fl k v x).supplyLevel.reg GLB_SUPPLY_STATUS.addr).toNat = v := by
    unfold Chip.supplyLevel
    rw [Chip.setLevel_reg]
    rw [porBase, Chip.reg_mk, regIn_regs]
    unfold Chip.atPor Chip.startSession Chip.showOtp 
    simp (disch := decide) [Chip.reg_setFld_other, Chip.setFlag]
    omega

/-- A power-on reset is what its cycle performs. -/
theorem resetBy_por (s : State) (also k v) : s.resetBy .por also k v = (s.porReset k v).onChip (fun c => c.noteResets (.por :: also)) := by
    unfold State.resetBy; simp only [widest_por, ne_eq, not_true_eq_false, decide_false, Bool.and_false, Bool.false_eq_true, if_false]

/-! ### The reach of `RESET_N` -/

/-- A filtered memory. -/
theorem byte_filter (l : List Host.Cell) (p : Nat → Bool) (a : Nat) :
    tabGet Memory.unlisted (l.filter (fun x => p x.1)) a = if p a then tabGet Memory.unlisted l a else 0 := by
  induction l with
  | nil => simp [tabGet, Memory.unlisted]
  | cons x l ih =>
    obtain ⟨k, v⟩ := x
    by_cases hk : p k = true
    · rw [List.filter_cons_of_pos (by simpa using hk)]
      simp only [tabGet]
      by_cases h : k = a
      · subst h; simp [hk]
      · simp [h, ih]
    · rw [List.filter_cons_of_neg (by simpa using hk), ih]
      by_cases h : k = a
      · subst h; simp [hk]
      · simp [h, tabGet]

/-- Raising a list of events leaves memory, flash and mailbox alone. -/
theorem raises_other {α : Type} (l : List α) (f : Chip → α → Chip) (hf : ∀ s x, (f s x).mem = s.mem ∧ (f s x).flash = s.flash ∧
    (f s x).mbx = s.mbx) (s : Chip) : (s.forAll l f).mem = s.mem ∧ (s.forAll l f).flash = s.flash ∧ (s.forAll l f).mbx = s.mbx := by
  unfold Chip.forAll
  induction l generalizing s with
  | nil => exact ⟨rfl, rfl, rfl⟩
  | cons x l ih =>
    obtain ⟨a, b, c⟩ := ih (f s x)
    obtain ⟨d, e, g⟩ := hf s x
    exact ⟨a.trans d, b.trans e, c.trans g⟩

/-- The fray condition leaves memory, flash and mailbox alone. -/
theorem setFray_other (s : Chip) (x : Nat) : (s.setFray x).mem = s.mem ∧ (s.setFray x).flash = s.flash ∧ (s.setFray x).mbx = s.mbx := by
  unfold Chip.setFray
  dsimp only
  have h := fun (l : List Nat) (t : Chip) => raises_other l (fun (s : Chip) _ => s.raise 0x1AB 0) (fun s _ => by simp) t
  split
  · simp only [Chip.raise_mem, Chip.raise_flash, Chip.raise_mbx, h, Chip.setReg_mem, Chip.setReg_flash, Chip.setReg_mbx, and_self]
  · simp only [h, Chip.setReg_mem, Chip.setReg_flash, Chip.setReg_mbx, and_self]

theorem evalFray_other (s : Chip) : s.evalFray.mem = s.mem ∧ s.evalFray.flash = s.flash ∧ s.evalFray.mbx = s.mbx :=
  setFray_other _ _

/-- The state beside the registers after a reset with the reach of `RESET_N`. -/
theorem pin_other (s : Chip) (o : Otp) (f : Fld) :
    (s.pinReset o f).flash = s.flash ∧ (s.pinReset o f).mbx = {} ∧ (s.pinReset o f).limited = true ∧
      (s.pinReset o f).mem = shadowCells s.mem := by
  unfold Chip.pinReset Chip.supplyLevel Chip.logFullLevel Chip.startSession Chip.showOtp Chip.atPor
  dsimp only
  split_ifs <;> simp [Chip.startSession, Chip.showOtp]

/-- The registers after it. -/
theorem pin_reg (s : Chip) (o : Otp) (f : Fld) (a : Nat) (hf : a ≠ f.addr) (h : keptByPin a = true) (h4 : a ≠ GLB_AVS.addr)
    (h6 : a ≠ GRD_LC.addr) (h7 : a ≠ GRD_SESSION.addr) (h8 : a ≠ TWF_UNIT_ID_LO.addr) (h9 : a ≠ TWF_UNIT_ID_HI.addr)
    (h1 : a ≠ THM_STATUS.addr) (h2 : a ≠ PMU_GRP_STATUS.addr) : (s.pinReset o f).reg a = s.reg a := by
  unfold Chip.pinReset Chip.supplyLevel Chip.logFullLevel
  dsimp only
  unfold Chip.startSession Chip.showOtp
  dsimp only
  split_ifs <;>
  simp only [Chip.setLevel_reg, Chip.reg_mk, regIn_regs, Chip.setFlag, fun (s : Chip) v => Chip.reg_setFld_other s f v _ hf,
    fun (s : Chip) v => Chip.reg_setFld_other s PMU_GRP_STATUS.RESULT v _ h2,
    fun (s : Chip) v => Chip.reg_setFld_other s PMU_GRP_STATUS.REFUSER v _ h2,
    fun (s : Chip) v => Chip.reg_setFld_other s THM_STATUS.TRIP v _ h1,
    fun (s : Chip) v => Chip.reg_setFld_other s GRD_SESSION.LEVEL v _ h7,
    fun (s : Chip) v => Chip.reg_setFld_other s GLB_AVS.TARGET v _ h4, fun (s : Chip) v => Chip.reg_setFld_other s GLB_AVS.FUSED v _ h4,
    fun (s : Chip) v => Chip.reg_setFld_other s TWF_UNIT_ID_LO.ID_LO v _ h8,
    fun (s : Chip) v => Chip.reg_setFld_other s TWF_UNIT_ID_HI.ID_HI v _ h9,
    fun (s : Chip) v => Chip.reg_setFld_other s GRD_LC.KEY_OK v _ h6, fun (s : Chip) v => Chip.reg_setFld_other s GRD_LC.STATE v _ h6,
    regIn_filter, h, if_true]

/-- Its source's bit is set. -/
theorem pin_flag (s : Chip) (o : Otp) (r : ResetSource) : (s.pinReset o (resetFlag r)).flag (resetFlag r) = true := by
  have h1 : ∀ (t : Chip) v, (t.setFld PMU_GRP_STATUS.RESULT v).flag (resetFlag r) = t.flag (resetFlag r) := fun t v =>
    Chip.flag_setFld_other _ _ _ _ (by cases r <;> decide)
  have h2 : ∀ (t : Chip) v, (t.setFld PMU_GRP_STATUS.REFUSER v).flag (resetFlag r) = t.flag (resetFlag r) := fun t v =>
    Chip.flag_setFld_other _ _ _ _ (by cases r <;> decide)
  have h3 : ∀ (t : Chip) v, (t.setFlag THM_STATUS.TRIP v).flag (resetFlag r) = t.flag (resetFlag r) := fun t v =>
    Chip.flag_setFlag_other _ _ _ _ (by cases r <;> decide)
  have h4 : ∀ (t : Chip), (t.setFlag (resetFlag r) true).flag (resetFlag r) = true := fun t =>
    Chip.flag_setFlag _ _ _ (by cases r <;> decide) (by cases r <;> rfl)
  unfold Chip.pinReset Chip.supplyLevel Chip.logFullLevel
  dsimp only
  split_ifs <;> simp only [h1, h2, h3, h4, Chip.setLevel_flag]

/-! ### A Whorl restart -/

/-- A spindle's role alone changes. -/
theorem setRole_rest (c : Chip) (b r) : (c.setRole b r).pmu = c.pmu ∧ (c.setRole b r).mem = c.mem ∧ (c.setRole b r).flash = c.flash ∧ (c.setRole b r).mbx = c.mbx ∧ (c.setRole b r).regs = c.regs := by unfold Chip.setRole; split <;> simp

/-- A domain whose blocks are reset keeps power states, memory and flash, and the slots stay. -/
theorem resetBlocks_rest (c : Chip) (d) : (c.resetBlocks d).pmu = c.pmu ∧ (c.resetBlocks d).mem = c.mem ∧
    (c.resetBlocks d).flash = c.flash ∧ (c.resetBlocks d).mbx.slots = c.mbx.slots := by
  have key : ∀ x : Chip, x.pmu = c.pmu ∧ x.mem = c.mem ∧ x.flash = c.flash ∧ x.mbx.slots = c.mbx.slots →
      (let y := x.resetBlocks d; y.pmu = x.pmu ∧ y.mem = x.mem ∧ y.flash = x.flash ∧ y.mbx.slots = x.mbx.slots) := by
    intro x _
    unfold Chip.resetBlocks
    dsimp only
    (repeat' split) <;> exact ⟨rfl, rfl, rfl, rfl⟩
  exact key c ⟨rfl, rfl, rfl, rfl⟩

/-- So does a domain whose logic is reset. -/
theorem resetLogic_rest (c : Chip) (d) : (c.resetLogic d).pmu = c.pmu ∧ (c.resetLogic d).mem = c.mem ∧
    (c.resetLogic d).flash = c.flash ∧ (c.resetLogic d).mbx.slots = c.mbx.slots := by
  have hf : ∀ (x : Chip) k, (x.freeHeld k).pmu = x.pmu ∧ (x.freeHeld k).mem = x.mem ∧ (x.freeHeld k).flash = x.flash ∧
      (x.freeHeld k).mbx = x.mbx := fun _ _ => ⟨rfl, rfl, rfl, rfl⟩
  have h := resetBlocks_rest c d
  unfold Chip.resetLogic
  generalize c.resetBlocks d = x at h ⊢
  dsimp only
  split
  · obtain ⟨a1, a2, a3, a4⟩ := hf x (if d = 1 then 1 else 2)
    rw [a1, a2, a3, a4]; exact h
  · exact h

/-- Clearing the tables of a lane touches no byte of memory. -/
theorem clearMem_line (c : Chip) (d) (h : 3 ≤ d ∧ d ≤ 15) : (c.clearMemories d).pmu = c.pmu ∧ (c.clearMemories d).mem = c.mem ∧ (c.clearMemories d).flash = c.flash ∧ (c.clearMemories d).mbx = c.mbx := by
  have ht : ∀ (c : Chip) n b, (c.clearMemory (.tension n b)).pmu = c.pmu ∧ (c.clearMemory (.tension n b)).mem = c.mem ∧ (c.clearMemory (.tension n b)).flash = c.flash ∧ (c.clearMemory (.tension n b)).mbx = c.mbx := by
    intro c n b; unfold Chip.clearMemory; dsimp only; split <;> simp
  unfold Chip.clearMemories memoriesOf Chip.forAll
  rw [if_neg (by omega), if_neg (by omega)]
  split_ifs with h1
  · simp [ht]
  all_goals (first | omega | simp)

/-- Powering a host or line domain off keeps memory, flash and slots. -/
theorem powerOff_rest (c : Chip) (d) (h : 3 ≤ d ∧ d ≤ 15) : (c.powerOff d).mem = c.mem ∧ (c.powerOff d).flash = c.flash ∧ (c.powerOff d).mbx.slots = c.mbx.slots := by
  unfold Chip.powerOff; dsimp only
  rw [if_neg (by omega)]
  obtain ⟨a1, a2, a3, a4⟩ := clearMem_line (c.resetLogic d) d h
  obtain ⟨b1, b2, b3, b4⟩ := resetLogic_rest c d
  simp [a2, a3, a4, b2, b3, b4]

/-- The state of a domain after one is set. -/
theorem pdOf_setPd (c : Chip) (d e p) (he : 0 < e ∧ e < 22) : (c.setPd e p).pdOf d = if d = e then p else c.pdOf d := by
  unfold Chip.setPd Chip.pdOf
  rw [dif_pos he.2]
  by_cases h : d = e
  · subst h; rw [if_neg (by omega), if_pos rfl]
    simp [he.2]
  · rw [if_neg h]
    by_cases h0 : d = 0
    · simp [h0]
    · rw [if_neg h0, if_neg h0]
      simp only [Vector.toList_set]
      rw [List.getElem?_set_ne (Ne.symm h)]

/-- The domains are part of the power unit. -/
theorem pdOf_congr {c d : Chip} (h : c.pmu.pd = d.pmu.pd) (e) : c.pdOf e = d.pdOf e := by unfold Chip.pdOf; rw [h]

/-- The states of the domains after one is powered off. -/
theorem pdOf_powerOff (c : Chip) (d e) (h : 3 ≤ e ∧ e ≤ 15) : (c.powerOff e).pdOf d = if d = e then .off else c.pdOf d := by
  unfold Chip.powerOff; dsimp only
  rw [if_neg (by omega), pdOf_setPd _ _ _ _ (by omega)]
  split
  · rfl
  · exact pdOf_congr (congrArg Pmu.pd ((clearMem_line _ e h).1.trans (resetLogic_rest c e).1)) d

/-- Several host and line domains powered off. -/
theorem powerOffs (l : List Nat) (hl : ∀ e ∈ l, 3 ≤ e ∧ e ≤ 15) (c : Chip) : let t := c.forAll l Chip.powerOff
   t.mem = c.mem ∧ t.flash = c.flash ∧ t.mbx.slots = c.mbx.slots ∧ ∀ d, t.pdOf d = if d ∈ l then .off else c.pdOf d := by
  unfold Chip.forAll
  induction l generalizing c with
  | nil => simp
  | cons x l ih =>
    simp only [List.foldl_cons]
    obtain ⟨a1, a2, a3, a4⟩ := ih (fun e he => hl e (by simp [he])) (c.powerOff x)
    obtain ⟨b1, b2, b3⟩ := powerOff_rest c x (hl x (by simp))
    refine ⟨a1.trans b1, a2.trans b2, a3.trans b3, ?_⟩
    intro d
    rw [a4 d, pdOf_powerOff c d x (hl x (by simp))]
    by_cases h1 : d ∈ l <;> by_cases h2 : d = x <;> simp [h1, h2]

/-- The blocks of several domains reset. -/
theorem resetBlocksAll (l : List Nat) (c : Chip) : let t := c.forAll l Chip.resetBlocks
   t.mem = c.mem ∧ t.flash = c.flash ∧ t.mbx.slots = c.mbx.slots ∧ t.pmu = c.pmu := by
  unfold Chip.forAll
  induction l generalizing c with
  | nil => simp
  | cons x l ih =>
    simp only [List.foldl_cons]
    obtain ⟨a1, a2, a3, a4⟩ := ih (c.resetBlocks x)
    obtain ⟨b1, b2, b3, b4⟩ := resetBlocks_rest c x
    exact ⟨a1.trans b2, a2.trans b3, a3.trans b4, a4.trans b1⟩

/-- A group request cut short keeps memory, flash and mailbox. -/
theorem cutGroup_rest (c : Chip) : (c.cutGroup).mem = c.mem ∧ (c.cutGroup).flash = c.flash ∧ (c.cutGroup).mbx = c.mbx := by
  unfold Chip.cutGroup; split <;> simp

/-- Another register stays at the reset of one. -/
theorem reg_resetReg_other (c : Chip) (a : Nat) (b : Nat) (h : b ≠ a) : (c.resetReg a).reg b = c.reg b := tabGet_tabErase_other _ _ _ _ h

/-- A register that was reset reads its reset value. -/
theorem reg_resetReg (c : Chip) (a : Nat) : (c.resetReg a).reg a = resetWord a := tabGet_tabErase_same _ _ _
theorem fld_resetReg_other (c : Chip) (a : Nat) (f : Fld) (h : f.addr ≠ a) : (c.resetReg a).fld f = c.fld f := by unfold Chip.fld; rw [reg_resetReg_other _ _ _ h]


/-- What a Whorl restart leaves of memory, slots and flash, and what it sets. -/
theorem whorlReset_spec (c : Chip) : let t := c.whorlReset
   t.mem = c.mem ∧ t.flash = c.flash ∧ t.mbx.slots = c.mbx.slots ∧ t.limited = true ∧ t.flag GLB_RST_STATUS.WHORL = true ∧
   t.fld GLB_BOOT_STATUS.STEP = 2 ∧ ∀ d, 3 ≤ d → d ≤ 15 → t.pdOf d = .off := by
  unfold Chip.whorlReset
  dsimp only
  obtain ⟨a1, a2, a3⟩ := cutGroup_rest c
  have h1 := powerOffs ((List.range 13).map (fun k => 3 + k)) (by simp; omega) c.cutGroup
  generalize c.cutGroup.forAll _ Chip.powerOff = t1 at h1 ⊢
  obtain ⟨b1, b2, b3, b4⟩ := h1
  have h2 := resetBlocksAll [1, 2, 16, 17, 18, 19, 20, 21] t1
  generalize t1.forAll _ Chip.resetBlocks = t2 at h2 ⊢
  obtain ⟨c1, c2, c3, c4⟩ := h2
  obtain ⟨d1, d2, d3, d4, -⟩ := setRole_rest t2 0 .off
  obtain ⟨e1, e2, e3, e4, -⟩ := setRole_rest (t2.setRole 0 .off) 1 .off
  generalize (t2.setRole 0 .off).setRole 1 .off = t3 at e1 e2 e3 e4 ⊢
  refine ⟨?_, ?_, ?_, ?_, ?_, ?_, ?_⟩
  · simp [a1, b1, c1, d2, e2]
  · simp [a2, b2, c2, d3, e3]
  · simp [a3, b3, c3, d4, e4]
  · simp
  · simp (disch := decide) [Chip.fld_setFld, Chip.fld_setFld_other, Chip.flag_setFlag, Chip.flag_setFlag_other, Chip.flag_setFld_other,
      Chip.fld_setFlag_other]
  · simp (disch := decide) [Chip.fld_setFld, Chip.fld_setFld_other, Chip.flag_setFlag, Chip.flag_setFlag_other, Chip.flag_setFld_other,
      Chip.fld_setFlag_other, fld_resetReg_other]
    rfl
  · intro d h3 h4
    rw [pdOf_congr (d := t1) ?_ d, b4 d, if_pos]
    · simp; exact ⟨d - 3, by omega, by omega⟩
    · simp [e1, d1, c4]

end Sys2Proof.Machine
end

