-- ==== Sys2Proof/Laws/Through.lean ====
section
/-! SUPPORT. What a register, a field and a flag read as after a change of a lane, a quad, a port or the creel, and after settling: as before;
what the changed lane holds. -/

namespace Sys2Proof.Machine

set_option linter.unusedSimpArgs false

theorem Chip.hostMod_regs (s : Chip) (h : Nat) (f : HostLane → HostLane) : (s.hostMod h f).regs = s.regs := by unfold Chip.hostMod; split <;> rfl
@[simp] theorem Chip.hostMod_reg (s : Chip) (h : Nat) (f : HostLane → HostLane) (x : Nat) : (s.hostMod h f).reg x = s.reg x := Chip.reg_congr (Chip.hostMod_regs ..) x
@[simp] theorem Chip.hostMod_fld (s : Chip) (h : Nat) (f : HostLane → HostLane) (g : Fld) : (s.hostMod h f).fld g = s.fld g := Chip.fld_congr (Chip.hostMod_regs ..) g
@[simp] theorem Chip.hostMod_flag (s : Chip) (h : Nat) (f : HostLane → HostLane) (g : Fld) : (s.hostMod h f).flag g = s.flag g := Chip.flag_congr (Chip.hostMod_regs ..) g
theorem Chip.quadMod_regs (s : Chip) (q : Nat) (f : QuadSt → QuadSt) : (s.quadMod q f).regs = s.regs := by unfold Chip.quadMod; split <;> rfl
@[simp] theorem Chip.quadMod_reg (s : Chip) (q : Nat) (f : QuadSt → QuadSt) (x : Nat) : (s.quadMod q f).reg x = s.reg x := Chip.reg_congr (Chip.quadMod_regs ..) x
@[simp] theorem Chip.quadMod_fld (s : Chip) (q : Nat) (f : QuadSt → QuadSt) (g : Fld) : (s.quadMod q f).fld g = s.fld g := Chip.fld_congr (Chip.quadMod_regs ..) g
@[simp] theorem Chip.quadMod_flag (s : Chip) (q : Nat) (f : QuadSt → QuadSt) (g : Fld) : (s.quadMod q f).flag g = s.flag g := Chip.flag_congr (Chip.quadMod_regs ..) g
theorem Chip.rxMod_regs (s : Chip) (n : Nat) (f : LineRx → LineRx) : (s.rxMod n f).regs = s.regs := by unfold Chip.rxMod; split <;> rfl
@[simp] theorem Chip.rxMod_reg (s : Chip) (n : Nat) (f : LineRx → LineRx) (x : Nat) : (s.rxMod n f).reg x = s.reg x := Chip.reg_congr (Chip.rxMod_regs ..) x
@[simp] theorem Chip.rxMod_fld (s : Chip) (n : Nat) (f : LineRx → LineRx) (g : Fld) : (s.rxMod n f).fld g = s.fld g := Chip.fld_congr (Chip.rxMod_regs ..) g
@[simp] theorem Chip.rxMod_flag (s : Chip) (n : Nat) (f : LineRx → LineRx) (g : Fld) : (s.rxMod n f).flag g = s.flag g := Chip.flag_congr (Chip.rxMod_regs ..) g
theorem Chip.txMod_regs (s : Chip) (n : Nat) (f : LineTx → LineTx) : (s.txMod n f).regs = s.regs := by unfold Chip.txMod; split <;> rfl
@[simp] theorem Chip.txMod_reg (s : Chip) (n : Nat) (f : LineTx → LineTx) (x : Nat) : (s.txMod n f).reg x = s.reg x := Chip.reg_congr (Chip.txMod_regs ..) x
@[simp] theorem Chip.txMod_fld (s : Chip) (n : Nat) (f : LineTx → LineTx) (g : Fld) : (s.txMod n f).fld g = s.fld g := Chip.fld_congr (Chip.txMod_regs ..) g
@[simp] theorem Chip.txMod_flag (s : Chip) (n : Nat) (f : LineTx → LineTx) (g : Fld) : (s.txMod n f).flag g = s.flag g := Chip.flag_congr (Chip.txMod_regs ..) g
theorem Chip.framerMod_regs (s : Chip) (n : Nat) (f : Framer → Framer) : (s.framerMod n f).regs = s.regs := by unfold Chip.framerMod; split <;> rfl
@[simp] theorem Chip.framerMod_reg (s : Chip) (n : Nat) (f : Framer → Framer) (x : Nat) : (s.framerMod n f).reg x = s.reg x := Chip.reg_congr (Chip.framerMod_regs ..) x
@[simp] theorem Chip.framerMod_fld (s : Chip) (n : Nat) (f : Framer → Framer) (g : Fld) : (s.framerMod n f).fld g = s.fld g := Chip.fld_congr (Chip.framerMod_regs ..) g
@[simp] theorem Chip.framerMod_flag (s : Chip) (n : Nat) (f : Framer → Framer) (g : Fld) : (s.framerMod n f).flag g = s.flag g := Chip.flag_congr (Chip.framerMod_regs ..) g
theorem Chip.portMod_regs (s : Chip) (p : Nat) (f : Port → Port) : (s.portMod p f).regs = s.regs := by unfold Chip.portMod; split <;> rfl
@[simp] theorem Chip.portMod_reg (s : Chip) (p : Nat) (f : Port → Port) (x : Nat) : (s.portMod p f).reg x = s.reg x := Chip.reg_congr (Chip.portMod_regs ..) x
@[simp] theorem Chip.portMod_fld (s : Chip) (p : Nat) (f : Port → Port) (g : Fld) : (s.portMod p f).fld g = s.fld g := Chip.fld_congr (Chip.portMod_regs ..) g
@[simp] theorem Chip.portMod_flag (s : Chip) (p : Nat) (f : Port → Port) (g : Fld) : (s.portMod p f).flag g = s.flag g := Chip.flag_congr (Chip.portMod_regs ..) g
theorem Chip.crlMod_regs (s : Chip) (n : Nat) (f : CrlLane → CrlLane) : (s.crlMod n f).regs = s.regs := by unfold Chip.crlMod; split <;> rfl
@[simp] theorem Chip.crlMod_reg (s : Chip) (n : Nat) (f : CrlLane → CrlLane) (x : Nat) : (s.crlMod n f).reg x = s.reg x := Chip.reg_congr (Chip.crlMod_regs ..) x
@[simp] theorem Chip.crlMod_fld (s : Chip) (n : Nat) (f : CrlLane → CrlLane) (g : Fld) : (s.crlMod n f).fld g = s.fld g := Chip.fld_congr (Chip.crlMod_regs ..) g
@[simp] theorem Chip.crlMod_flag (s : Chip) (n : Nat) (f : CrlLane → CrlLane) (g : Fld) : (s.crlMod n f).flag g = s.flag g := Chip.flag_congr (Chip.crlMod_regs ..) g
theorem Chip.flyMod_regs (s : Chip) (p : Nat) (f : FlyPort → FlyPort) : (s.flyMod p f).regs = s.regs := by unfold Chip.flyMod; split <;> rfl
@[simp] theorem Chip.flyMod_reg (s : Chip) (p : Nat) (f : FlyPort → FlyPort) (x : Nat) : (s.flyMod p f).reg x = s.reg x := Chip.reg_congr (Chip.flyMod_regs ..) x
@[simp] theorem Chip.flyMod_fld (s : Chip) (p : Nat) (f : FlyPort → FlyPort) (g : Fld) : (s.flyMod p f).fld g = s.fld g := Chip.fld_congr (Chip.flyMod_regs ..) g
@[simp] theorem Chip.flyMod_flag (s : Chip) (p : Nat) (f : FlyPort → FlyPort) (g : Fld) : (s.flyMod p f).flag g = s.flag g := Chip.flag_congr (Chip.flyMod_regs ..) g
@[simp] theorem Chip.hostMod_evt (s : Chip) (h : Nat) (f : HostLane → HostLane) : (s.hostMod h f).evt = s.evt := by unfold Chip.hostMod; split <;> rfl
@[simp] theorem Chip.hostMod_cnt (s : Chip) (h : Nat) (f : HostLane → HostLane) : (s.hostMod h f).cnt = s.cnt := by unfold Chip.hostMod; split <;> rfl
@[simp] theorem Chip.hostMod_mem (s : Chip) (h : Nat) (f : HostLane → HostLane) : (s.hostMod h f).mem = s.mem := by unfold Chip.hostMod; split <;> rfl
@[simp] theorem Chip.hostMod_pmu (s : Chip) (h : Nat) (f : HostLane → HostLane) : (s.hostMod h f).pmu = s.pmu := by unfold Chip.hostMod; split <;> rfl
@[simp] theorem Chip.hostMod_flash (s : Chip) (h : Nat) (f : HostLane → HostLane) : (s.hostMod h f).flash = s.flash := by unfold Chip.hostMod; split <;> rfl
@[simp] theorem Chip.hostMod_cfg (s : Chip) (h : Nat) (f : HostLane → HostLane) : (s.hostMod h f).cfg = s.cfg := by unfold Chip.hostMod; split <;> rfl
@[simp] theorem Chip.hostMod_mbx (s : Chip) (h : Nat) (f : HostLane → HostLane) : (s.hostMod h f).mbx = s.mbx := by unfold Chip.hostMod; split <;> rfl
@[simp] theorem Chip.hostMod_spn (s : Chip) (h : Nat) (f : HostLane → HostLane) : (s.hostMod h f).spn = s.spn := by unfold Chip.hostMod; split <;> rfl
@[simp] theorem Chip.hostMod_ports (s : Chip) (h : Nat) (f : HostLane → HostLane) : (s.hostMod h f).ports = s.ports := by unfold Chip.hostMod; split <;> rfl
@[simp] theorem Chip.hostMod_quads (s : Chip) (h : Nat) (f : HostLane → HostLane) : (s.hostMod h f).quads = s.quads := by unfold Chip.hostMod; split <;> rfl
@[simp] theorem Chip.hostMod_rx (s : Chip) (h : Nat) (f : HostLane → HostLane) : (s.hostMod h f).rx = s.rx := by unfold Chip.hostMod; split <;> rfl
@[simp] theorem Chip.hostMod_tx (s : Chip) (h : Nat) (f : HostLane → HostLane) : (s.hostMod h f).tx = s.tx := by unfold Chip.hostMod; split <;> rfl
@[simp] theorem Chip.hostMod_framer (s : Chip) (h : Nat) (f : HostLane → HostLane) : (s.hostMod h f).framer = s.framer := by unfold Chip.hostMod; split <;> rfl
@[simp] theorem Chip.hostMod_hnk (s : Chip) (h : Nat) (f : HostLane → HostLane) : (s.hostMod h f).hnk = s.hnk := by unfold Chip.hostMod; split <;> rfl
@[simp] theorem Chip.hostMod_ply (s : Chip) (h : Nat) (f : HostLane → HostLane) : (s.hostMod h f).ply = s.ply := by unfold Chip.hostMod; split <;> rfl
@[simp] theorem Chip.hostMod_crl (s : Chip) (h : Nat) (f : HostLane → HostLane) : (s.hostMod h f).crl = s.crl := by unfold Chip.hostMod; split <;> rfl
@[simp] theorem Chip.hostMod_fly (s : Chip) (h : Nat) (f : HostLane → HostLane) : (s.hostMod h f).fly = s.fly := by unfold Chip.hostMod; split <;> rfl
@[simp] theorem Chip.hostMod_ecc (s : Chip) (h : Nat) (f : HostLane → HostLane) : (s.hostMod h f).ecc = s.ecc := by unfold Chip.hostMod; split <;> rfl
@[simp] theorem Chip.quadMod_evt (s : Chip) (q : Nat) (f : QuadSt → QuadSt) : (s.quadMod q f).evt = s.evt := by unfold Chip.quadMod; split <;> rfl
@[simp] theorem Chip.quadMod_cnt (s : Chip) (q : Nat) (f : QuadSt → QuadSt) : (s.quadMod q f).cnt = s.cnt := by unfold Chip.quadMod; split <;> rfl
@[simp] theorem Chip.quadMod_mem (s : Chip) (q : Nat) (f : QuadSt → QuadSt) : (s.quadMod q f).mem = s.mem := by unfold Chip.quadMod; split <;> rfl
@[simp] theorem Chip.quadMod_pmu (s : Chip) (q : Nat) (f : QuadSt → QuadSt) : (s.quadMod q f).pmu = s.pmu := by unfold Chip.quadMod; split <;> rfl
@[simp] theorem Chip.quadMod_flash (s : Chip) (q : Nat) (f : QuadSt → QuadSt) : (s.quadMod q f).flash = s.flash := by unfold Chip.quadMod; split <;> rfl
@[simp] theorem Chip.quadMod_cfg (s : Chip) (q : Nat) (f : QuadSt → QuadSt) : (s.quadMod q f).cfg = s.cfg := by unfold Chip.quadMod; split <;> rfl
@[simp] theorem Chip.quadMod_mbx (s : Chip) (q : Nat) (f : QuadSt → QuadSt) : (s.quadMod q f).mbx = s.mbx := by unfold Chip.quadMod; split <;> rfl
@[simp] theorem Chip.quadMod_spn (s : Chip) (q : Nat) (f : QuadSt → QuadSt) : (s.quadMod q f).spn = s.spn := by unfold Chip.quadMod; split <;> rfl
@[simp] theorem Chip.quadMod_ports (s : Chip) (q : Nat) (f : QuadSt → QuadSt) : (s.quadMod q f).ports = s.ports := by unfold Chip.quadMod; split <;> rfl
@[simp] theorem Chip.quadMod_host (s : Chip) (q : Nat) (f : QuadSt → QuadSt) : (s.quadMod q f).host = s.host := by unfold Chip.quadMod; split <;> rfl
@[simp] theorem Chip.quadMod_rx (s : Chip) (q : Nat) (f : QuadSt → QuadSt) : (s.quadMod q f).rx = s.rx := by unfold Chip.quadMod; split <;> rfl
@[simp] theorem Chip.quadMod_tx (s : Chip) (q : Nat) (f : QuadSt → QuadSt) : (s.quadMod q f).tx = s.tx := by unfold Chip.quadMod; split <;> rfl
@[simp] theorem Chip.quadMod_framer (s : Chip) (q : Nat) (f : QuadSt → QuadSt) : (s.quadMod q f).framer = s.framer := by unfold Chip.quadMod; split <;> rfl
@[simp] theorem Chip.quadMod_hnk (s : Chip) (q : Nat) (f : QuadSt → QuadSt) : (s.quadMod q f).hnk = s.hnk := by unfold Chip.quadMod; split <;> rfl
@[simp] theorem Chip.quadMod_ply (s : Chip) (q : Nat) (f : QuadSt → QuadSt) : (s.quadMod q f).ply = s.ply := by unfold Chip.quadMod; split <;> rfl
@[simp] theorem Chip.quadMod_crl (s : Chip) (q : Nat) (f : QuadSt → QuadSt) : (s.quadMod q f).crl = s.crl := by unfold Chip.quadMod; split <;> rfl
@[simp] theorem Chip.quadMod_fly (s : Chip) (q : Nat) (f : QuadSt → QuadSt) : (s.quadMod q f).fly = s.fly := by unfold Chip.quadMod; split <;> rfl
@[simp] theorem Chip.quadMod_ecc (s : Chip) (q : Nat) (f : QuadSt → QuadSt) : (s.quadMod q f).ecc = s.ecc := by unfold Chip.quadMod; split <;> rfl
@[simp] theorem Chip.rxMod_evt (s : Chip) (n : Nat) (f : LineRx → LineRx) : (s.rxMod n f).evt = s.evt := by unfold Chip.rxMod; split <;> rfl
@[simp] theorem Chip.rxMod_cnt (s : Chip) (n : Nat) (f : LineRx → LineRx) : (s.rxMod n f).cnt = s.cnt := by unfold Chip.rxMod; split <;> rfl
@[simp] theorem Chip.rxMod_mem (s : Chip) (n : Nat) (f : LineRx → LineRx) : (s.rxMod n f).mem = s.mem := by unfold Chip.rxMod; split <;> rfl
@[simp] theorem Chip.rxMod_pmu (s : Chip) (n : Nat) (f : LineRx → LineRx) : (s.rxMod n f).pmu = s.pmu := by unfold Chip.rxMod; split <;> rfl
@[simp] theorem Chip.rxMod_flash (s : Chip) (n : Nat) (f : LineRx → LineRx) : (s.rxMod n f).flash = s.flash := by unfold Chip.rxMod; split <;> rfl
@[simp] theorem Chip.rxMod_cfg (s : Chip) (n : Nat) (f : LineRx → LineRx) : (s.rxMod n f).cfg = s.cfg := by unfold Chip.rxMod; split <;> rfl
@[simp] theorem Chip.rxMod_mbx (s : Chip) (n : Nat) (f : LineRx → LineRx) : (s.rxMod n f).mbx = s.mbx := by unfold Chip.rxMod; split <;> rfl
@[simp] theorem Chip.rxMod_spn (s : Chip) (n : Nat) (f : LineRx → LineRx) : (s.rxMod n f).spn = s.spn := by unfold Chip.rxMod; split <;> rfl
@[simp] theorem Chip.rxMod_ports (s : Chip) (n : Nat) (f : LineRx → LineRx) : (s.rxMod n f).ports = s.ports := by unfold Chip.rxMod; split <;> rfl
@[simp] theorem Chip.rxMod_host (s : Chip) (n : Nat) (f : LineRx → LineRx) : (s.rxMod n f).host = s.host := by unfold Chip.rxMod; split <;> rfl
@[simp] theorem Chip.rxMod_quads (s : Chip) (n : Nat) (f : LineRx → LineRx) : (s.rxMod n f).quads = s.quads := by unfold Chip.rxMod; split <;> rfl
@[simp] theorem Chip.rxMod_tx (s : Chip) (n : Nat) (f : LineRx → LineRx) : (s.rxMod n f).tx = s.tx := by unfold Chip.rxMod; split <;> rfl
@[simp] theorem Chip.rxMod_framer (s : Chip) (n : Nat) (f : LineRx → LineRx) : (s.rxMod n f).framer = s.framer := by unfold Chip.rxMod; split <;> rfl
@[simp] theorem Chip.rxMod_hnk (s : Chip) (n : Nat) (f : LineRx → LineRx) : (s.rxMod n f).hnk = s.hnk := by unfold Chip.rxMod; split <;> rfl
@[simp] theorem Chip.rxMod_ply (s : Chip) (n : Nat) (f : LineRx → LineRx) : (s.rxMod n f).ply = s.ply := by unfold Chip.rxMod; split <;> rfl
@[simp] theorem Chip.rxMod_crl (s : Chip) (n : Nat) (f : LineRx → LineRx) : (s.rxMod n f).crl = s.crl := by unfold Chip.rxMod; split <;> rfl
@[simp] theorem Chip.rxMod_fly (s : Chip) (n : Nat) (f : LineRx → LineRx) : (s.rxMod n f).fly = s.fly := by unfold Chip.rxMod; split <;> rfl
@[simp] theorem Chip.rxMod_ecc (s : Chip) (n : Nat) (f : LineRx → LineRx) : (s.rxMod n f).ecc = s.ecc := by unfold Chip.rxMod; split <;> rfl
@[simp] theorem Chip.txMod_evt (s : Chip) (n : Nat) (f : LineTx → LineTx) : (s.txMod n f).evt = s.evt := by unfold Chip.txMod; split <;> rfl
@[simp] theorem Chip.txMod_cnt (s : Chip) (n : Nat) (f : LineTx → LineTx) : (s.txMod n f).cnt = s.cnt := by unfold Chip.txMod; split <;> rfl
@[simp] theorem Chip.txMod_mem (s : Chip) (n : Nat) (f : LineTx → LineTx) : (s.txMod n f).mem = s.mem := by unfold Chip.txMod; split <;> rfl
@[simp] theorem Chip.txMod_pmu (s : Chip) (n : Nat) (f : LineTx → LineTx) : (s.txMod n f).pmu = s.pmu := by unfold Chip.txMod; split <;> rfl
@[simp] theorem Chip.txMod_flash (s : Chip) (n : Nat) (f : LineTx → LineTx) : (s.txMod n f).flash = s.flash := by unfold Chip.txMod; split <;> rfl
@[simp] theorem Chip.txMod_cfg (s : Chip) (n : Nat) (f : LineTx → LineTx) : (s.txMod n f).cfg = s.cfg := by unfold Chip.txMod; split <;> rfl
@[simp] theorem Chip.txMod_mbx (s : Chip) (n : Nat) (f : LineTx → LineTx) : (s.txMod n f).mbx = s.mbx := by unfold Chip.txMod; split <;> rfl
@[simp] theorem Chip.txMod_spn (s : Chip) (n : Nat) (f : LineTx → LineTx) : (s.txMod n f).spn = s.spn := by unfold Chip.txMod; split <;> rfl
@[simp] theorem Chip.txMod_ports (s : Chip) (n : Nat) (f : LineTx → LineTx) : (s.txMod n f).ports = s.ports := by unfold Chip.txMod; split <;> rfl
@[simp] theorem Chip.txMod_host (s : Chip) (n : Nat) (f : LineTx → LineTx) : (s.txMod n f).host = s.host := by unfold Chip.txMod; split <;> rfl
@[simp] theorem Chip.txMod_quads (s : Chip) (n : Nat) (f : LineTx → LineTx) : (s.txMod n f).quads = s.quads := by unfold Chip.txMod; split <;> rfl
@[simp] theorem Chip.txMod_rx (s : Chip) (n : Nat) (f : LineTx → LineTx) : (s.txMod n f).rx = s.rx := by unfold Chip.txMod; split <;> rfl
@[simp] theorem Chip.txMod_framer (s : Chip) (n : Nat) (f : LineTx → LineTx) : (s.txMod n f).framer = s.framer := by unfold Chip.txMod; split <;> rfl
@[simp] theorem Chip.txMod_hnk (s : Chip) (n : Nat) (f : LineTx → LineTx) : (s.txMod n f).hnk = s.hnk := by unfold Chip.txMod; split <;> rfl
@[simp] theorem Chip.txMod_ply (s : Chip) (n : Nat) (f : LineTx → LineTx) : (s.txMod n f).ply = s.ply := by unfold Chip.txMod; split <;> rfl
@[simp] theorem Chip.txMod_crl (s : Chip) (n : Nat) (f : LineTx → LineTx) : (s.txMod n f).crl = s.crl := by unfold Chip.txMod; split <;> rfl
@[simp] theorem Chip.txMod_fly (s : Chip) (n : Nat) (f : LineTx → LineTx) : (s.txMod n f).fly = s.fly := by unfold Chip.txMod; split <;> rfl
@[simp] theorem Chip.txMod_ecc (s : Chip) (n : Nat) (f : LineTx → LineTx) : (s.txMod n f).ecc = s.ecc := by unfold Chip.txMod; split <;> rfl
@[simp] theorem Chip.framerMod_evt (s : Chip) (n : Nat) (f : Framer → Framer) : (s.framerMod n f).evt = s.evt := by unfold Chip.framerMod; split <;> rfl
@[simp] theorem Chip.framerMod_cnt (s : Chip) (n : Nat) (f : Framer → Framer) : (s.framerMod n f).cnt = s.cnt := by unfold Chip.framerMod; split <;> rfl
@[simp] theorem Chip.framerMod_mem (s : Chip) (n : Nat) (f : Framer → Framer) : (s.framerMod n f).mem = s.mem := by unfold Chip.framerMod; split <;> rfl
@[simp] theorem Chip.framerMod_pmu (s : Chip) (n : Nat) (f : Framer → Framer) : (s.framerMod n f).pmu = s.pmu := by unfold Chip.framerMod; split <;> rfl
@[simp] theorem Chip.framerMod_flash (s : Chip) (n : Nat) (f : Framer → Framer) : (s.framerMod n f).flash = s.flash := by unfold Chip.framerMod; split <;> rfl
@[simp] theorem Chip.framerMod_cfg (s : Chip) (n : Nat) (f : Framer → Framer) : (s.framerMod n f).cfg = s.cfg := by unfold Chip.framerMod; split <;> rfl
@[simp] theorem Chip.framerMod_mbx (s : Chip) (n : Nat) (f : Framer → Framer) : (s.framerMod n f).mbx = s.mbx := by unfold Chip.framerMod; split <;> rfl
@[simp] theorem Chip.framerMod_spn (s : Chip) (n : Nat) (f : Framer → Framer) : (s.framerMod n f).spn = s.spn := by unfold Chip.framerMod; split <;> rfl
@[simp] theorem Chip.framerMod_ports (s : Chip) (n : Nat) (f : Framer → Framer) : (s.framerMod n f).ports = s.ports := by unfold Chip.framerMod; split <;> rfl
@[simp] theorem Chip.framerMod_host (s : Chip) (n : Nat) (f : Framer → Framer) : (s.framerMod n f).host = s.host := by unfold Chip.framerMod; split <;> rfl
@[simp] theorem Chip.framerMod_quads (s : Chip) (n : Nat) (f : Framer → Framer) : (s.framerMod n f).quads = s.quads := by unfold Chip.framerMod; split <;> rfl
@[simp] theorem Chip.framerMod_rx (s : Chip) (n : Nat) (f : Framer → Framer) : (s.framerMod n f).rx = s.rx := by unfold Chip.framerMod; split <;> rfl
@[simp] theorem Chip.framerMod_tx (s : Chip) (n : Nat) (f : Framer → Framer) : (s.framerMod n f).tx = s.tx := by unfold Chip.framerMod; split <;> rfl
@[simp] theorem Chip.framerMod_hnk (s : Chip) (n : Nat) (f : Framer → Framer) : (s.framerMod n f).hnk = s.hnk := by unfold Chip.framerMod; split <;> rfl
@[simp] theorem Chip.framerMod_ply (s : Chip) (n : Nat) (f : Framer → Framer) : (s.framerMod n f).ply = s.ply := by unfold Chip.framerMod; split <;> rfl
@[simp] theorem Chip.framerMod_crl (s : Chip) (n : Nat) (f : Framer → Framer) : (s.framerMod n f).crl = s.crl := by unfold Chip.framerMod; split <;> rfl
@[simp] theorem Chip.framerMod_fly (s : Chip) (n : Nat) (f : Framer → Framer) : (s.framerMod n f).fly = s.fly := by unfold Chip.framerMod; split <;> rfl
@[simp] theorem Chip.framerMod_ecc (s : Chip) (n : Nat) (f : Framer → Framer) : (s.framerMod n f).ecc = s.ecc := by unfold Chip.framerMod; split <;> rfl
@[simp] theorem Chip.portMod_evt (s : Chip) (p : Nat) (f : Port → Port) : (s.portMod p f).evt = s.evt := by unfold Chip.portMod; split <;> rfl
@[simp] theorem Chip.portMod_cnt (s : Chip) (p : Nat) (f : Port → Port) : (s.portMod p f).cnt = s.cnt := by unfold Chip.portMod; split <;> rfl
@[simp] theorem Chip.portMod_mem (s : Chip) (p : Nat) (f : Port → Port) : (s.portMod p f).mem = s.mem := by unfold Chip.portMod; split <;> rfl
@[simp] theorem Chip.portMod_pmu (s : Chip) (p : Nat) (f : Port → Port) : (s.portMod p f).pmu = s.pmu := by unfold Chip.portMod; split <;> rfl
@[simp] theorem Chip.portMod_flash (s : Chip) (p : Nat) (f : Port → Port) : (s.portMod p f).flash = s.flash := by unfold Chip.portMod; split <;> rfl
@[simp] theorem Chip.portMod_cfg (s : Chip) (p : Nat) (f : Port → Port) : (s.portMod p f).cfg = s.cfg := by unfold Chip.portMod; split <;> rfl
@[simp] theorem Chip.portMod_mbx (s : Chip) (p : Nat) (f : Port → Port) : (s.portMod p f).mbx = s.mbx := by unfold Chip.portMod; split <;> rfl
@[simp] theorem Chip.portMod_spn (s : Chip) (p : Nat) (f : Port → Port) : (s.portMod p f).spn = s.spn := by unfold Chip.portMod; split <;> rfl
@[simp] theorem Chip.portMod_host (s : Chip) (p : Nat) (f : Port → Port) : (s.portMod p f).host = s.host := by unfold Chip.portMod; split <;> rfl
@[simp] theorem Chip.portMod_quads (s : Chip) (p : Nat) (f : Port → Port) : (s.portMod p f).quads = s.quads := by unfold Chip.portMod; split <;> rfl
@[simp] theorem Chip.portMod_rx (s : Chip) (p : Nat) (f : Port → Port) : (s.portMod p f).rx = s.rx := by unfold Chip.portMod; split <;> rfl
@[simp] theorem Chip.portMod_tx (s : Chip) (p : Nat) (f : Port → Port) : (s.portMod p f).tx = s.tx := by unfold Chip.portMod; split <;> rfl
@[simp] theorem Chip.portMod_framer (s : Chip) (p : Nat) (f : Port → Port) : (s.portMod p f).framer = s.framer := by unfold Chip.portMod; split <;> rfl
@[simp] theorem Chip.portMod_hnk (s : Chip) (p : Nat) (f : Port → Port) : (s.portMod p f).hnk = s.hnk := by unfold Chip.portMod; split <;> rfl
@[simp] theorem Chip.portMod_ply (s : Chip) (p : Nat) (f : Port → Port) : (s.portMod p f).ply = s.ply := by unfold Chip.portMod; split <;> rfl
@[simp] theorem Chip.portMod_crl (s : Chip) (p : Nat) (f : Port → Port) : (s.portMod p f).crl = s.crl := by unfold Chip.portMod; split <;> rfl
@[simp] theorem Chip.portMod_fly (s : Chip) (p : Nat) (f : Port → Port) : (s.portMod p f).fly = s.fly := by unfold Chip.portMod; split <;> rfl
@[simp] theorem Chip.portMod_ecc (s : Chip) (p : Nat) (f : Port → Port) : (s.portMod p f).ecc = s.ecc := by unfold Chip.portMod; split <;> rfl
@[simp] theorem Chip.crlMod_evt (s : Chip) (n : Nat) (f : CrlLane → CrlLane) : (s.crlMod n f).evt = s.evt := by unfold Chip.crlMod; split <;> rfl
@[simp] theorem Chip.crlMod_cnt (s : Chip) (n : Nat) (f : CrlLane → CrlLane) : (s.crlMod n f).cnt = s.cnt := by unfold Chip.crlMod; split <;> rfl
@[simp] theorem Chip.crlMod_mem (s : Chip) (n : Nat) (f : CrlLane → CrlLane) : (s.crlMod n f).mem = s.mem := by unfold Chip.crlMod; split <;> rfl
@[simp] theorem Chip.crlMod_pmu (s : Chip) (n : Nat) (f : CrlLane → CrlLane) : (s.crlMod n f).pmu = s.pmu := by unfold Chip.crlMod; split <;> rfl
@[simp] theorem Chip.crlMod_flash (s : Chip) (n : Nat) (f : CrlLane → CrlLane) : (s.crlMod n f).flash = s.flash := by unfold Chip.crlMod; split <;> rfl
@[simp] theorem Chip.crlMod_cfg (s : Chip) (n : Nat) (f : CrlLane → CrlLane) : (s.crlMod n f).cfg = s.cfg := by unfold Chip.crlMod; split <;> rfl
@[simp] theorem Chip.crlMod_mbx (s : Chip) (n : Nat) (f : CrlLane → CrlLane) : (s.crlMod n f).mbx = s.mbx := by unfold Chip.crlMod; split <;> rfl
@[simp] theorem Chip.crlMod_spn (s : Chip) (n : Nat) (f : CrlLane → CrlLane) : (s.crlMod n f).spn = s.spn := by unfold Chip.crlMod; split <;> rfl
@[simp] theorem Chip.crlMod_ports (s : Chip) (n : Nat) (f : CrlLane → CrlLane) : (s.crlMod n f).ports = s.ports := by unfold Chip.crlMod; split <;> rfl
@[simp] theorem Chip.crlMod_host (s : Chip) (n : Nat) (f : CrlLane → CrlLane) : (s.crlMod n f).host = s.host := by unfold Chip.crlMod; split <;> rfl
@[simp] theorem Chip.crlMod_quads (s : Chip) (n : Nat) (f : CrlLane → CrlLane) : (s.crlMod n f).quads = s.quads := by unfold Chip.crlMod; split <;> rfl
@[simp] theorem Chip.crlMod_rx (s : Chip) (n : Nat) (f : CrlLane → CrlLane) : (s.crlMod n f).rx = s.rx := by unfold Chip.crlMod; split <;> rfl
@[simp] theorem Chip.crlMod_tx (s : Chip) (n : Nat) (f : CrlLane → CrlLane) : (s.crlMod n f).tx = s.tx := by unfold Chip.crlMod; split <;> rfl
@[simp] theorem Chip.crlMod_framer (s : Chip) (n : Nat) (f : CrlLane → CrlLane) : (s.crlMod n f).framer = s.framer := by unfold Chip.crlMod; split <;> rfl
@[simp] theorem Chip.crlMod_hnk (s : Chip) (n : Nat) (f : CrlLane → CrlLane) : (s.crlMod n f).hnk = s.hnk := by unfold Chip.crlMod; split <;> rfl
@[simp] theorem Chip.crlMod_ply (s : Chip) (n : Nat) (f : CrlLane → CrlLane) : (s.crlMod n f).ply = s.ply := by unfold Chip.crlMod; split <;> rfl
@[simp] theorem Chip.crlMod_fly (s : Chip) (n : Nat) (f : CrlLane → CrlLane) : (s.crlMod n f).fly = s.fly := by unfold Chip.crlMod; split <;> rfl
@[simp] theorem Chip.crlMod_ecc (s : Chip) (n : Nat) (f : CrlLane → CrlLane) : (s.crlMod n f).ecc = s.ecc := by unfold Chip.crlMod; split <;> rfl
@[simp] theorem Chip.flyMod_evt (s : Chip) (p : Nat) (f : FlyPort → FlyPort) : (s.flyMod p f).evt = s.evt := by unfold Chip.flyMod; split <;> rfl
@[simp] theorem Chip.flyMod_cnt (s : Chip) (p : Nat) (f : FlyPort → FlyPort) : (s.flyMod p f).cnt = s.cnt := by unfold Chip.flyMod; split <;> rfl
@[simp] theorem Chip.flyMod_mem (s : Chip) (p : Nat) (f : FlyPort → FlyPort) : (s.flyMod p f).mem = s.mem := by unfold Chip.flyMod; split <;> rfl
@[simp] theorem Chip.flyMod_pmu (s : Chip) (p : Nat) (f : FlyPort → FlyPort) : (s.flyMod p f).pmu = s.pmu := by unfold Chip.flyMod; split <;> rfl
@[simp] theorem Chip.flyMod_flash (s : Chip) (p : Nat) (f : FlyPort → FlyPort) : (s.flyMod p f).flash = s.flash := by unfold Chip.flyMod; split <;> rfl
@[simp] theorem Chip.flyMod_cfg (s : Chip) (p : Nat) (f : FlyPort → FlyPort) : (s.flyMod p f).cfg = s.cfg := by unfold Chip.flyMod; split <;> rfl
@[simp] theorem Chip.flyMod_mbx (s : Chip) (p : Nat) (f : FlyPort → FlyPort) : (s.flyMod p f).mbx = s.mbx := by unfold Chip.flyMod; split <;> rfl
@[simp] theorem Chip.flyMod_spn (s : Chip) (p : Nat) (f : FlyPort → FlyPort) : (s.flyMod p f).spn = s.spn := by unfold Chip.flyMod; split <;> rfl
@[simp] theorem Chip.flyMod_ports (s : Chip) (p : Nat) (f : FlyPort → FlyPort) : (s.flyMod p f).ports = s.ports := by unfold Chip.flyMod; split <;> rfl
@[simp] theorem Chip.flyMod_host (s : Chip) (p : Nat) (f : FlyPort → FlyPort) : (s.flyMod p f).host = s.host := by unfold Chip.flyMod; split <;> rfl
@[simp] theorem Chip.flyMod_quads (s : Chip) (p : Nat) (f : FlyPort → FlyPort) : (s.flyMod p f).quads = s.quads := by unfold Chip.flyMod; split <;> rfl
@[simp] theorem Chip.flyMod_rx (s : Chip) (p : Nat) (f : FlyPort → FlyPort) : (s.flyMod p f).rx = s.rx := by unfold Chip.flyMod; split <;> rfl
@[simp] theorem Chip.flyMod_tx (s : Chip) (p : Nat) (f : FlyPort → FlyPort) : (s.flyMod p f).tx = s.tx := by unfold Chip.flyMod; split <;> rfl
@[simp] theorem Chip.flyMod_framer (s : Chip) (p : Nat) (f : FlyPort → FlyPort) : (s.flyMod p f).framer = s.framer := by unfold Chip.flyMod; split <;> rfl
@[simp] theorem Chip.flyMod_hnk (s : Chip) (p : Nat) (f : FlyPort → FlyPort) : (s.flyMod p f).hnk = s.hnk := by unfold Chip.flyMod; split <;> rfl
@[simp] theorem Chip.flyMod_ply (s : Chip) (p : Nat) (f : FlyPort → FlyPort) : (s.flyMod p f).ply = s.ply := by unfold Chip.flyMod; split <;> rfl
@[simp] theorem Chip.flyMod_crl (s : Chip) (p : Nat) (f : FlyPort → FlyPort) : (s.flyMod p f).crl = s.crl := by unfold Chip.flyMod; split <;> rfl
@[simp] theorem Chip.flyMod_ecc (s : Chip) (p : Nat) (f : FlyPort → FlyPort) : (s.flyMod p f).ecc = s.ecc := by unfold Chip.flyMod; split <;> rfl

theorem vec_get_vmod {α : Type} {n : Nat} (v : Vector α n) (i : Fin n) (f : α → α) (k : Nat) (d : α) :
    ((vmod v i f).toList[k]?).getD d = if k = i.1 then f ((v.toList[k]?).getD d) else (v.toList[k]?).getD d := by
  unfold vmod
  simp only [Vector.toList, Vector.toArray_set, Array.toList_set, List.getElem?_set]
  by_cases h : k = i.1
  · subst h; simp
  · simp [h, Ne.symm h]

theorem Chip.hostOf_congr {s t : Chip} (h : t.host = s.host) (k : Nat) : t.hostOf k = s.hostOf k := by unfold Chip.hostOf; rw [h]
theorem Chip.hostOf_hostMod (s : Chip) (h : Nat) (f : HostLane → HostLane) (hb : h < 16) : (s.hostMod h f).hostOf h = f (s.hostOf h) := by
  unfold Chip.hostMod Chip.hostOf; rw [dif_pos hb, vec_get_vmod]; simp
theorem Chip.hostOf_hostMod_other (s : Chip) (h k : Nat) (f : HostLane → HostLane) (hb : k ≠ h) : (s.hostMod h f).hostOf k = s.hostOf k := by
  unfold Chip.hostMod Chip.hostOf; split
  · rw [vec_get_vmod]; simp [hb]
  · rfl

theorem Chip.quad_congr {s t : Chip} (h : t.quads = s.quads) (k : Nat) : t.quad k = s.quad k := by unfold Chip.quad; rw [h]
theorem Chip.quad_quadMod (s : Chip) (q : Nat) (f : QuadSt → QuadSt) (hb : q < 4) : (s.quadMod q f).quad q = f (s.quad q) := by
  unfold Chip.quadMod Chip.quad; rw [dif_pos hb, vec_get_vmod]; simp
theorem Chip.quad_quadMod_other (s : Chip) (q k : Nat) (f : QuadSt → QuadSt) (hb : k ≠ q) : (s.quadMod q f).quad k = s.quad k := by
  unfold Chip.quadMod Chip.quad; split
  · rw [vec_get_vmod]; simp [hb]
  · rfl

theorem Chip.rxOf_congr {s t : Chip} (h : t.rx = s.rx) (k : Nat) : t.rxOf k = s.rxOf k := by unfold Chip.rxOf; rw [h]
theorem Chip.rxOf_rxMod (s : Chip) (n : Nat) (f : LineRx → LineRx) (hb : n < 9) : (s.rxMod n f).rxOf n = f (s.rxOf n) := by
  unfold Chip.rxMod Chip.rxOf; rw [dif_pos hb, vec_get_vmod]; simp
theorem Chip.rxOf_rxMod_other (s : Chip) (n k : Nat) (f : LineRx → LineRx) (hb : k ≠ n) : (s.rxMod n f).rxOf k = s.rxOf k := by
  unfold Chip.rxMod Chip.rxOf; split
  · rw [vec_get_vmod]; simp [hb]
  · rfl

theorem Chip.txOf_congr {s t : Chip} (h : t.tx = s.tx) (k : Nat) : t.txOf k = s.txOf k := by unfold Chip.txOf; rw [h]
theorem Chip.txOf_txMod (s : Chip) (n : Nat) (f : LineTx → LineTx) (hb : n < 9) : (s.txMod n f).txOf n = f (s.txOf n) := by
  unfold Chip.txMod Chip.txOf; rw [dif_pos hb, vec_get_vmod]; simp
theorem Chip.txOf_txMod_other (s : Chip) (n k : Nat) (f : LineTx → LineTx) (hb : k ≠ n) : (s.txMod n f).txOf k = s.txOf k := by
  unfold Chip.txMod Chip.txOf; split
  · rw [vec_get_vmod]; simp [hb]
  · rfl

theorem Chip.framerOf_congr {s t : Chip} (h : t.framer = s.framer) (k : Nat) : t.framerOf k = s.framerOf k := by unfold Chip.framerOf; rw [h]
theorem Chip.framerOf_framerMod (s : Chip) (n : Nat) (f : Framer → Framer) (hb : n < 9) : (s.framerMod n f).framerOf n = f (s.framerOf n) := by
  unfold Chip.framerMod Chip.framerOf; rw [dif_pos hb, vec_get_vmod]; simp
theorem Chip.framerOf_framerMod_other (s : Chip) (n k : Nat) (f : Framer → Framer) (hb : k ≠ n) : (s.framerMod n f).framerOf k = s.framerOf k := by
  unfold Chip.framerMod Chip.framerOf; split
  · rw [vec_get_vmod]; simp [hb]
  · rfl

theorem Chip.port_congr {s t : Chip} (h : t.ports = s.ports) (k : Nat) : t.port k = s.port k := by unfold Chip.port; rw [h]
theorem Chip.port_portMod (s : Chip) (p : Nat) (f : Port → Port) (hb : p < 16) : (s.portMod p f).port p = f (s.port p) := by
  unfold Chip.portMod Chip.port; rw [dif_pos hb, vec_get_vmod]; simp
theorem Chip.port_portMod_other (s : Chip) (p k : Nat) (f : Port → Port) (hb : k ≠ p) : (s.portMod p f).port k = s.port k := by
  unfold Chip.portMod Chip.port; split
  · rw [vec_get_vmod]; simp [hb]
  · rfl
@[simp] theorem Chip.setReg_hostOf (s : Chip) (a : Nat) (v : Word) (k : Nat) : (s.setReg a v).hostOf k = s.hostOf k := Chip.hostOf_congr (by simp) k
@[simp] theorem Chip.setFld_hostOf (s : Chip) (f : Fld) (v : Nat) (k : Nat) : (s.setFld f v).hostOf k = s.hostOf k := Chip.hostOf_congr (by simp) k
@[simp] theorem Chip.setFlag_hostOf (s : Chip) (f : Fld) (b : Bool) (k : Nat) : (s.setFlag f b).hostOf k = s.hostOf k := Chip.hostOf_congr (by simp) k
@[simp] theorem Chip.satInc_hostOf (s : Chip) (f : Fld) (n : Nat) (k : Nat) : (s.satInc f n).hostOf k = s.hostOf k := Chip.hostOf_congr (by simp) k
@[simp] theorem Chip.setFldBit_hostOf (s : Chip) (f : Fld) (i : Nat) (b : Bool) (k : Nat) : (s.setFldBit f i b).hostOf k = s.hostOf k := Chip.hostOf_congr (by simp) k
@[simp] theorem Chip.raise_hostOf (s : Chip) (a b : Nat) (k : Nat) : (s.raise a b).hostOf k = s.hostOf k := Chip.hostOf_congr (by simp) k
@[simp] theorem Chip.setLevel_hostOf (s : Chip) (a : Nat) (b : Bool) (p : Nat) (k : Nat) : (s.setLevel a b p).hostOf k = s.hostOf k := Chip.hostOf_congr (by simp) k
@[simp] theorem Chip.emit_hostOf (s : Chip) (l : List Msg) (k : Nat) : (s.emit l).hostOf k = s.hostOf k := Chip.hostOf_congr (by simp) k
@[simp] theorem Chip.quadMod_hostOf (s : Chip) (q : Nat) (f : QuadSt → QuadSt) (k : Nat) : (s.quadMod q f).hostOf k = s.hostOf k := Chip.hostOf_congr (by simp) k
@[simp] theorem Chip.rxMod_hostOf (s : Chip) (n : Nat) (f : LineRx → LineRx) (k : Nat) : (s.rxMod n f).hostOf k = s.hostOf k := Chip.hostOf_congr (by simp) k
@[simp] theorem Chip.txMod_hostOf (s : Chip) (n : Nat) (f : LineTx → LineTx) (k : Nat) : (s.txMod n f).hostOf k = s.hostOf k := Chip.hostOf_congr (by simp) k
@[simp] theorem Chip.framerMod_hostOf (s : Chip) (n : Nat) (f : Framer → Framer) (k : Nat) : (s.framerMod n f).hostOf k = s.hostOf k := Chip.hostOf_congr (by simp) k
@[simp] theorem Chip.portMod_hostOf (s : Chip) (p : Nat) (f : Port → Port) (k : Nat) : (s.portMod p f).hostOf k = s.hostOf k := Chip.hostOf_congr (by simp) k
@[simp] theorem Chip.crlMod_hostOf (s : Chip) (n : Nat) (f : CrlLane → CrlLane) (k : Nat) : (s.crlMod n f).hostOf k = s.hostOf k := Chip.hostOf_congr (by simp) k
@[simp] theorem Chip.flyMod_hostOf (s : Chip) (p : Nat) (f : FlyPort → FlyPort) (k : Nat) : (s.flyMod p f).hostOf k = s.hostOf k := Chip.hostOf_congr (by simp) k
@[simp] theorem Chip.setReg_quad (s : Chip) (a : Nat) (v : Word) (k : Nat) : (s.setReg a v).quad k = s.quad k := Chip.quad_congr (by simp) k
@[simp] theorem Chip.setFld_quad (s : Chip) (f : Fld) (v : Nat) (k : Nat) : (s.setFld f v).quad k = s.quad k := Chip.quad_congr (by simp) k
@[simp] theorem Chip.setFlag_quad (s : Chip) (f : Fld) (b : Bool) (k : Nat) : (s.setFlag f b).quad k = s.quad k := Chip.quad_congr (by simp) k
@[simp] theorem Chip.satInc_quad (s : Chip) (f : Fld) (n : Nat) (k : Nat) : (s.satInc f n).quad k = s.quad k := Chip.quad_congr (by simp) k
@[simp] theorem Chip.setFldBit_quad (s : Chip) (f : Fld) (i : Nat) (b : Bool) (k : Nat) : (s.setFldBit f i b).quad k = s.quad k := Chip.quad_congr (by simp) k
@[simp] theorem Chip.raise_quad (s : Chip) (a b : Nat) (k : Nat) : (s.raise a b).quad k = s.quad k := Chip.quad_congr (by simp) k
@[simp] theorem Chip.setLevel_quad (s : Chip) (a : Nat) (b : Bool) (p : Nat) (k : Nat) : (s.setLevel a b p).quad k = s.quad k := Chip.quad_congr (by simp) k
@[simp] theorem Chip.emit_quad (s : Chip) (l : List Msg) (k : Nat) : (s.emit l).quad k = s.quad k := Chip.quad_congr (by simp) k
@[simp] theorem Chip.hostMod_quad (s : Chip) (h : Nat) (f : HostLane → HostLane) (k : Nat) : (s.hostMod h f).quad k = s.quad k := Chip.quad_congr (by simp) k
@[simp] theorem Chip.rxMod_quad (s : Chip) (n : Nat) (f : LineRx → LineRx) (k : Nat) : (s.rxMod n f).quad k = s.quad k := Chip.quad_congr (by simp) k
@[simp] theorem Chip.txMod_quad (s : Chip) (n : Nat) (f : LineTx → LineTx) (k : Nat) : (s.txMod n f).quad k = s.quad k := Chip.quad_congr (by simp) k
@[simp] theorem Chip.framerMod_quad (s : Chip) (n : Nat) (f : Framer → Framer) (k : Nat) : (s.framerMod n f).quad k = s.quad k := Chip.quad_congr (by simp) k
@[simp] theorem Chip.portMod_quad (s : Chip) (p : Nat) (f : Port → Port) (k : Nat) : (s.portMod p f).quad k = s.quad k := Chip.quad_congr (by simp) k
@[simp] theorem Chip.crlMod_quad (s : Chip) (n : Nat) (f : CrlLane → CrlLane) (k : Nat) : (s.crlMod n f).quad k = s.quad k := Chip.quad_congr (by simp) k
@[simp] theorem Chip.flyMod_quad (s : Chip) (p : Nat) (f : FlyPort → FlyPort) (k : Nat) : (s.flyMod p f).quad k = s.quad k := Chip.quad_congr (by simp) k
@[simp] theorem Chip.setReg_rxOf (s : Chip) (a : Nat) (v : Word) (k : Nat) : (s.setReg a v).rxOf k = s.rxOf k := Chip.rxOf_congr (by simp) k
@[simp] theorem Chip.setFld_rxOf (s : Chip) (f : Fld) (v : Nat) (k : Nat) : (s.setFld f v).rxOf k = s.rxOf k := Chip.rxOf_congr (by simp) k
@[simp] theorem Chip.setFlag_rxOf (s : Chip) (f : Fld) (b : Bool) (k : Nat) : (s.setFlag f b).rxOf k = s.rxOf k := Chip.rxOf_congr (by simp) k
@[simp] theorem Chip.satInc_rxOf (s : Chip) (f : Fld) (n : Nat) (k : Nat) : (s.satInc f n).rxOf k = s.rxOf k := Chip.rxOf_congr (by simp) k
@[simp] theorem Chip.setFldBit_rxOf (s : Chip) (f : Fld) (i : Nat) (b : Bool) (k : Nat) : (s.setFldBit f i b).rxOf k = s.rxOf k := Chip.rxOf_congr (by simp) k
@[simp] theorem Chip.raise_rxOf (s : Chip) (a b : Nat) (k : Nat) : (s.raise a b).rxOf k = s.rxOf k := Chip.rxOf_congr (by simp) k
@[simp] theorem Chip.setLevel_rxOf (s : Chip) (a : Nat) (b : Bool) (p : Nat) (k : Nat) : (s.setLevel a b p).rxOf k = s.rxOf k := Chip.rxOf_congr (by simp) k
@[simp] theorem Chip.emit_rxOf (s : Chip) (l : List Msg) (k : Nat) : (s.emit l).rxOf k = s.rxOf k := Chip.rxOf_congr (by simp) k
@[simp] theorem Chip.hostMod_rxOf (s : Chip) (h : Nat) (f : HostLane → HostLane) (k : Nat) : (s.hostMod h f).rxOf k = s.rxOf k := Chip.rxOf_congr (by simp) k
@[simp] theorem Chip.quadMod_rxOf (s : Chip) (q : Nat) (f : QuadSt → QuadSt) (k : Nat) : (s.quadMod q f).rxOf k = s.rxOf k := Chip.rxOf_congr (by simp) k
@[simp] theorem Chip.txMod_rxOf (s : Chip) (n : Nat) (f : LineTx → LineTx) (k : Nat) : (s.txMod n f).rxOf k = s.rxOf k := Chip.rxOf_congr (by simp) k
@[simp] theorem Chip.framerMod_rxOf (s : Chip) (n : Nat) (f : Framer → Framer) (k : Nat) : (s.framerMod n f).rxOf k = s.rxOf k := Chip.rxOf_congr (by simp) k
@[simp] theorem Chip.portMod_rxOf (s : Chip) (p : Nat) (f : Port → Port) (k : Nat) : (s.portMod p f).rxOf k = s.rxOf k := Chip.rxOf_congr (by simp) k
@[simp] theorem Chip.crlMod_rxOf (s : Chip) (n : Nat) (f : CrlLane → CrlLane) (k : Nat) : (s.crlMod n f).rxOf k = s.rxOf k := Chip.rxOf_congr (by simp) k
@[simp] theorem Chip.flyMod_rxOf (s : Chip) (p : Nat) (f : FlyPort → FlyPort) (k : Nat) : (s.flyMod p f).rxOf k = s.rxOf k := Chip.rxOf_congr (by simp) k
@[simp] theorem Chip.setReg_txOf (s : Chip) (a : Nat) (v : Word) (k : Nat) : (s.setReg a v).txOf k = s.txOf k := Chip.txOf_congr (by simp) k
@[simp] theorem Chip.setFld_txOf (s : Chip) (f : Fld) (v : Nat) (k : Nat) : (s.setFld f v).txOf k = s.txOf k := Chip.txOf_congr (by simp) k
@[simp] theorem Chip.setFlag_txOf (s : Chip) (f : Fld) (b : Bool) (k : Nat) : (s.setFlag f b).txOf k = s.txOf k := Chip.txOf_congr (by simp) k
@[simp] theorem Chip.satInc_txOf (s : Chip) (f : Fld) (n : Nat) (k : Nat) : (s.satInc f n).txOf k = s.txOf k := Chip.txOf_congr (by simp) k
@[simp] theorem Chip.setFldBit_txOf (s : Chip) (f : Fld) (i : Nat) (b : Bool) (k : Nat) : (s.setFldBit f i b).txOf k = s.txOf k := Chip.txOf_congr (by simp) k
@[simp] theorem Chip.raise_txOf (s : Chip) (a b : Nat) (k : Nat) : (s.raise a b).txOf k = s.txOf k := Chip.txOf_congr (by simp) k
@[simp] theorem Chip.setLevel_txOf (s : Chip) (a : Nat) (b : Bool) (p : Nat) (k : Nat) : (s.setLevel a b p).txOf k = s.txOf k := Chip.txOf_congr (by simp) k
@[simp] theorem Chip.emit_txOf (s : Chip) (l : List Msg) (k : Nat) : (s.emit l).txOf k = s.txOf k := Chip.txOf_congr (by simp) k
@[simp] theorem Chip.hostMod_txOf (s : Chip) (h : Nat) (f : HostLane → HostLane) (k : Nat) : (s.hostMod h f).txOf k = s.txOf k := Chip.txOf_congr (by simp) k
@[simp] theorem Chip.quadMod_txOf (s : Chip) (q : Nat) (f : QuadSt → QuadSt) (k : Nat) : (s.quadMod q f).txOf k = s.txOf k := Chip.txOf_congr (by simp) k
@[simp] theorem Chip.rxMod_txOf (s : Chip) (n : Nat) (f : LineRx → LineRx) (k : Nat) : (s.rxMod n f).txOf k = s.txOf k := Chip.txOf_congr (by simp) k
@[simp] theorem Chip.framerMod_txOf (s : Chip) (n : Nat) (f : Framer → Framer) (k : Nat) : (s.framerMod n f).txOf k = s.txOf k := Chip.txOf_congr (by simp) k
@[simp] theorem Chip.portMod_txOf (s : Chip) (p : Nat) (f : Port → Port) (k : Nat) : (s.portMod p f).txOf k = s.txOf k := Chip.txOf_congr (by simp) k
@[simp] theorem Chip.crlMod_txOf (s : Chip) (n : Nat) (f : CrlLane → CrlLane) (k : Nat) : (s.crlMod n f).txOf k = s.txOf k := Chip.txOf_congr (by simp) k
@[simp] theorem Chip.flyMod_txOf (s : Chip) (p : Nat) (f : FlyPort → FlyPort) (k : Nat) : (s.flyMod p f).txOf k = s.txOf k := Chip.txOf_congr (by simp) k
@[simp] theorem Chip.setReg_framerOf (s : Chip) (a : Nat) (v : Word) (k : Nat) : (s.setReg a v).framerOf k = s.framerOf k := Chip.framerOf_congr (by simp) k
@[simp] theorem Chip.setFld_framerOf (s : Chip) (f : Fld) (v : Nat) (k : Nat) : (s.setFld f v).framerOf k = s.framerOf k := Chip.framerOf_congr (by simp) k
@[simp] theorem Chip.setFlag_framerOf (s : Chip) (f : Fld) (b : Bool) (k : Nat) : (s.setFlag f b).framerOf k = s.framerOf k := Chip.framerOf_congr (by simp) k
@[simp] theorem Chip.satInc_framerOf (s : Chip) (f : Fld) (n : Nat) (k : Nat) : (s.satInc f n).framerOf k = s.framerOf k := Chip.framerOf_congr (by simp) k
@[simp] theorem Chip.setFldBit_framerOf (s : Chip) (f : Fld) (i : Nat) (b : Bool) (k : Nat) : (s.setFldBit f i b).framerOf k = s.framerOf k := Chip.framerOf_congr (by simp) k
@[simp] theorem Chip.raise_framerOf (s : Chip) (a b : Nat) (k : Nat) : (s.raise a b).framerOf k = s.framerOf k := Chip.framerOf_congr (by simp) k
@[simp] theorem Chip.setLevel_framerOf (s : Chip) (a : Nat) (b : Bool) (p : Nat) (k : Nat) : (s.setLevel a b p).framerOf k = s.framerOf k := Chip.framerOf_congr (by simp) k
@[simp] theorem Chip.emit_framerOf (s : Chip) (l : List Msg) (k : Nat) : (s.emit l).framerOf k = s.framerOf k := Chip.framerOf_congr (by simp) k
@[simp] theorem Chip.hostMod_framerOf (s : Chip) (h : Nat) (f : HostLane → HostLane) (k : Nat) : (s.hostMod h f).framerOf k = s.framerOf k := Chip.framerOf_congr (by simp) k
@[simp] theorem Chip.quadMod_framerOf (s : Chip) (q : Nat) (f : QuadSt → QuadSt) (k : Nat) : (s.quadMod q f).framerOf k = s.framerOf k := Chip.framerOf_congr (by simp) k
@[simp] theorem Chip.rxMod_framerOf (s : Chip) (n : Nat) (f : LineRx → LineRx) (k : Nat) : (s.rxMod n f).framerOf k = s.framerOf k := Chip.framerOf_congr (by simp) k
@[simp] theorem Chip.txMod_framerOf (s : Chip) (n : Nat) (f : LineTx → LineTx) (k : Nat) : (s.txMod n f).framerOf k = s.framerOf k := Chip.framerOf_congr (by simp) k
@[simp] theorem Chip.portMod_framerOf (s : Chip) (p : Nat) (f : Port → Port) (k : Nat) : (s.portMod p f).framerOf k = s.framerOf k := Chip.framerOf_congr (by simp) k
@[simp] theorem Chip.crlMod_framerOf (s : Chip) (n : Nat) (f : CrlLane → CrlLane) (k : Nat) : (s.crlMod n f).framerOf k = s.framerOf k := Chip.framerOf_congr (by simp) k
@[simp] theorem Chip.flyMod_framerOf (s : Chip) (p : Nat) (f : FlyPort → FlyPort) (k : Nat) : (s.flyMod p f).framerOf k = s.framerOf k := Chip.framerOf_congr (by simp) k
@[simp] theorem Chip.setReg_port (s : Chip) (a : Nat) (v : Word) (k : Nat) : (s.setReg a v).port k = s.port k := Chip.port_congr (by simp) k
@[simp] theorem Chip.setFld_port (s : Chip) (f : Fld) (v : Nat) (k : Nat) : (s.setFld f v).port k = s.port k := Chip.port_congr (by simp) k
@[simp] theorem Chip.setFlag_port (s : Chip) (f : Fld) (b : Bool) (k : Nat) : (s.setFlag f b).port k = s.port k := Chip.port_congr (by simp) k
@[simp] theorem Chip.satInc_port (s : Chip) (f : Fld) (n : Nat) (k : Nat) : (s.satInc f n).port k = s.port k := Chip.port_congr (by simp) k
@[simp] theorem Chip.setFldBit_port (s : Chip) (f : Fld) (i : Nat) (b : Bool) (k : Nat) : (s.setFldBit f i b).port k = s.port k := Chip.port_congr (by simp) k
@[simp] theorem Chip.raise_port (s : Chip) (a b : Nat) (k : Nat) : (s.raise a b).port k = s.port k := Chip.port_congr (by simp) k
@[simp] theorem Chip.setLevel_port (s : Chip) (a : Nat) (b : Bool) (p : Nat) (k : Nat) : (s.setLevel a b p).port k = s.port k := Chip.port_congr (by simp) k
@[simp] theorem Chip.emit_port (s : Chip) (l : List Msg) (k : Nat) : (s.emit l).port k = s.port k := Chip.port_congr (by simp) k
@[simp] theorem Chip.hostMod_port (s : Chip) (h : Nat) (f : HostLane → HostLane) (k : Nat) : (s.hostMod h f).port k = s.port k := Chip.port_congr (by simp) k
@[simp] theorem Chip.quadMod_port (s : Chip) (q : Nat) (f : QuadSt → QuadSt) (k : Nat) : (s.quadMod q f).port k = s.port k := Chip.port_congr (by simp) k
@[simp] theorem Chip.rxMod_port (s : Chip) (n : Nat) (f : LineRx → LineRx) (k : Nat) : (s.rxMod n f).port k = s.port k := Chip.port_congr (by simp) k
@[simp] theorem Chip.txMod_port (s : Chip) (n : Nat) (f : LineTx → LineTx) (k : Nat) : (s.txMod n f).port k = s.port k := Chip.port_congr (by simp) k
@[simp] theorem Chip.framerMod_port (s : Chip) (n : Nat) (f : Framer → Framer) (k : Nat) : (s.framerMod n f).port k = s.port k := Chip.port_congr (by simp) k
@[simp] theorem Chip.crlMod_port (s : Chip) (n : Nat) (f : CrlLane → CrlLane) (k : Nat) : (s.crlMod n f).port k = s.port k := Chip.port_congr (by simp) k
@[simp] theorem Chip.flyMod_port (s : Chip) (p : Nat) (f : FlyPort → FlyPort) (k : Nat) : (s.flyMod p f).port k = s.port k := Chip.port_congr (by simp) k

/-! ### Settling -/

theorem Chip.settle_reg (s : Chip) (a : Nat) (h : settleReg a = false) : s.settle.reg a = s.reg a := (Calm.settle s).reg a h
theorem Chip.settle_fld (s : Chip) (f : Fld) (h : settleReg f.addr = false) : s.settle.fld f = s.fld f := (Calm.settle s).fld f h
theorem Chip.settle_flag (s : Chip) (f : Fld) (h : settleReg f.addr = false) : s.settle.flag f = s.flag f := (Calm.settle s).flag f h
@[simp] theorem Chip.settle_hostOf (s : Chip) (k : Nat) : s.settle.hostOf k = s.hostOf k := Chip.hostOf_congr (Calm.settle s).host k
@[simp] theorem Chip.settle_quad (s : Chip) (k : Nat) : s.settle.quad k = s.quad k := Chip.quad_congr (Calm.settle s).quads k
@[simp] theorem Chip.settle_rxOf (s : Chip) (k : Nat) : s.settle.rxOf k = s.rxOf k := Chip.rxOf_congr (Calm.settle s).rx k
@[simp] theorem Chip.settle_txOf (s : Chip) (k : Nat) : s.settle.txOf k = s.txOf k := Chip.txOf_congr (Calm.settle s).tx k
@[simp] theorem Chip.settle_framerOf (s : Chip) (k : Nat) : s.settle.framerOf k = s.framerOf k := Chip.framerOf_congr (Calm.settle s).framer k
@[simp] theorem Chip.settle_pmu (s : Chip) : s.settle.pmu = s.pmu := (Calm.settle s).pmu
@[simp] theorem Chip.settle_hnk (s : Chip) : s.settle.hnk = s.hnk := (Calm.settle s).hnk
@[simp] theorem Chip.settle_ply (s : Chip) : s.settle.ply = s.ply := (Calm.settle s).ply

/-- A register from 0x100000 to 0x3FFFFF or from 0x420000 on is none of those that settling touches. -/
theorem settleReg_lane (a : Nat) (h : 0x100000 ≤ a) (k : a < 0x400000 ∨ 0x420000 ≤ a) : settleReg a = false := by
  have c : MBX_CPL_PROD.addr < 0x100000 ∧ GLB_BOOT_STATUS.addr < 0x100000 ∧ GLB_FRAY_STATUS.addr < 0x100000 ∧
    GLB_FRAY_HIST.addr < 0x100000 ∧ FLY_CNT_DROP.addr < 0x100000 := by decide
  obtain ⟨c0, c1, c2, c3, c4⟩ := c
  simp only [settleReg, lanesReg, serveReg, eccReg, Bool.or_eq_false_iff, Bool.and_eq_false_iff, decide_eq_false_iff_not,
    beq_eq_false_iff_ne]
  omega

end Sys2Proof.Machine
end

