-- ==== Sys2Proof/WellFormed.lean ====
section
/-! DEFINITION. Which commands are well formed: the operands that bring what a block measures or finds have the sizes and ranges that
the rules of spec/ give them. Every operand is checked by one named test, and `Instr.wf` says which command has which. The meanings
are total and do not rest on it. -/

namespace Sys2Proof

/-- A value below a bound. -/
def below (b x : Nat) : Bool := decide (x < b)

/-- Every value of a list in a signed range. -/
def allWithin (lo hi : Int) (l : List Int) : Bool := l.all (fun x => decide (lo ≤ x) && decide (x ≤ hi))

/-- Each element of a list once. -/
def noRepeats {α : Type} [DecidableEq α] : List α → Bool
  | [] => true
  | x :: t => !(t.contains x) && noRepeats t

/-- What a host receiver's equaliser shows: 8 bits of SNR and gain code, 4 bits of peaking, 24 taps (R106, R108). -/
def HostEqIn.wf (q : HostEqIn) : Bool := below 256 q.snr && below 256 q.agc && below 16 q.ctle && q.ffe.length == 24

/-- A training frame's operands: the decisions on 33 symbols (R79). -/
def HFrameIn.wf (f : HFrameIn) : Bool := f.marks.length == 33 && f.eq.wf

/-- A data frame's operands: 3264 slots (R91). -/
def DataFrameIn.wf (f : DataFrameIn) : Bool := f.slots.length == 3264 && f.eq.wf

/-- A calibration update: a step of at most 1 and 8-bit residues (R112, R141). -/
def AdcIn.wf (a : AdcIn) : Bool :=
  decide (-1 ≤ a.step) && decide (a.step ≤ 1) && below 256 a.offsetRes && below 256 a.gainRes && below 256 a.skewRes

/-- An adaptation window: 65 FFE taps of 12 bits, the 120 terms of the Volterra stage of 10 bits, and the 64 MLSE targets
(spec/05 "The chain"). -/
def AdaptIn.wf (a : AdaptIn) : Bool :=
  a.ffe.length == 65 && allWithin (-2048) 2047 a.ffe && a.volt.length == 120 && allWithin (-512) 511 a.volt &&
    a.targets.length == 64

/-- A capture's data: raw ADC codes in blocks of 256 (R397), and four symbols to each word of LLRs (R119). -/
def TapData.wf (d : TapData) : Bool := d.codes.length % 256 == 0 && d.llrs.all (fun g => g.elim true (fun l => l.length == 4))

/-- A frame time brings no more than a frame and its margin can take, 4096 RS symbols, and an error for each lane (R202, R206). -/
def FrameOut.wf (f : FrameOut) : Bool := below 4096 f.arrived0 && below 4096 f.arrived1 && f.errs.length == 9

/-- An RS codeword has 544 symbols (R247), and each host lane brings its share once. -/
def RsIn.wf : RsIn → Bool
  | .fromHost _ lanes => noRepeats (lanes.map (fun l => l.1))
  | .fromTwist _ => true
  | .fromIeee syms => syms.length == 544

/-- A transmission on a sideband has at least one code group (R352). -/
def FlyArrival.wf : FlyArrival → Bool
  | .sideband _ groups => decide (0 < groups.length)
  | .inband _ => true

/-- An entry of a doff record: class, index and test in a byte each, a 24-bit address, and a bit of 0 to 79 or 0xFF (R478). -/
def DoffEntry.wf (e : DoffEntry) : Bool :=
  below 256 e.cls && below 256 e.index && below 256 e.test && below 16777216 e.addr && (below 80 e.failBit || e.failBit == 255)

/-- What a test list found fits a record: at most 509 entries, each well formed (R478). -/
def foundWf (l : List DoffEntry) : Bool := decide (l.length ≤ 509) && l.all DoffEntry.wf

/-- Is a command well formed? The types of its operands say all there is to check of the commands of the last arm.
Log 124 (DESIGN CHOICE). -/
def Instr.wf : Instr → Bool
  | .refclkReturn off => decide (off.natAbs ≤ 1000000)
  | .startUpCheck found => foundWf found
  | .shutdownList found => foundWf found
  | .twistHFrame _ f _ => f.wf
  | .ieeeTrainingFrame _ f _ => f.eq.wf
  | .fixedTrained _ f _ => f.eq.wf
  | .dataFrame _ f => f.wf
  | .adcCalUpdate _ a => a.wf
  | .adaptationWindow _ a => a.wf
  | .lockLoss l => noRepeats l
  | .frameSend _ f => f.wf
  | .rsCodeword _ x => x.wf
  | .slotBoundary tests residues _ records => noRepeats tests && noRepeats (residues.map (fun e => e.1)) && noRepeats records
  | .statsWindow ieee => noRepeats (ieee.map (fun e => e.1))
  | .captureEnd _ data => data.wf
  | .twistFrame _ l => l.length == 16384
  | .ladderRung bad => noRepeats bad
  | .ladderComplete bad => noRepeats bad
  | .bwWindow rx tx => decide (rx.length ≤ 16) && decide (tx.length ≤ 16)
  | .flyMessage f => f.wf
  | .powerOnReset .. | .resetN .. | .softwareChipReset .. | .coreSupplyLoss .. | .whorlRestart .. | .jtagTapReset ..
  | .spindleWatchdog .. | .wdtKick .. | .holdover .. | .whorlRecovered .. | .whorlLock .. | .rdyReg .. | .doffRecordSelect ..
  | .selectImage .. | .krelinStart .. | .coreVoltageCheck .. | .portDomainsUp .. | .trafficReady .. | .analogSupplyLoss .. | .analogSupplyRestored ..
  | .hqUnlock .. | .hqRelock .. | .hostLos .. | .hostSignalReturn .. | .hostRelock .. | .hostWatchExpiry .. | .handoff ..
  | .echoTimeout .. | .trainingTimeout .. | .trainingRetry .. | .trainingFallback .. | .hostTxShort ..
  | .foregroundCalibrationDone .. | .lineSignal .. | .lineLos .. | .snrWindow .. | .llrScaleUpdate .. | .lineLocked ..
  | .goodSet .. | .voltStep .. | .voltReturn .. | .restoreWindowExpiry .. | .retrainTimeout .. | .tapWord .. | .tapChange ..
  | .ttSwap .. | .tapTimeout .. | .lineTxShort .. | .snapshot .. | .snapshotGuardEnd .. | .checkpoint .. | .checkpointCommit ..
  | .pageInStart .. | .pageInDone .. | .multiframe .. | .portRateFault .. | .rateFaultClear ..
  | .ieeeAlignLoss .. | .portSkew .. | .codewordArrival .. | .spareRotation .. | .codewordRelease ..
  | .substWaitTimeout .. | .plyDown .. | .laneLost .. | .claim .. | .release .. | .handover .. | .fenceClear ..
  | .spindleRestart .. | .spindleSyncDone .. | .spindleDown .. | .holderlessClaim .. | .takeover .. | .mbxOpen ..
  | .probationEnd .. | .doorbell .. | .slotWrite .. | .slotFree .. | .heldCompletionPost .. | .moderationTimeout ..
  | .hostSleep .. | .sysInfo .. | .sysEcho .. | .sysTime .. | .sysCfgSave .. | .addPort .. | .removePort .. | .enablePort ..
  | .disablePort .. | .getPortMap .. | .hostTrainCfg .. | .hostRetrain .. | .hostLaneStatus .. | .hostTxSet ..
  | .lineRxStatus .. | .lineRxCfg .. | .lineRetrain .. | .lineCapture .. | .lineTxStatus .. | .lineTxCfg .. | .lineTxTable ..
  | .hankPolicy .. | .hankStatus .. | .hankRead .. | .hankWrite .. | .hankPin .. | .hankUnpin .. | .hankLoad .. | .hankFlush ..
  | .creelCfg .. | .creelStatus .. | .creelStats .. | .creelRsStats .. | .plyCfg .. | .plyStatus .. | .plyMirror ..
  | .plySubst .. | .pwrSet .. | .pwrStatus .. | .lowPower .. | .telTemp .. | .telPort .. | .flyDiscover .. | .flyRequest ..
  | .flyCfg .. | .flyNodes .. | .secChallenge .. | .secAuth .. | .secLogout .. | .guardSet .. | .guardGet ..
  | .lifecycleAdvance .. | .returnedReset .. | .ownerKeySet .. | .fwImageBegin .. | .fwImageData .. | .fwImageEnd ..
  | .fwActivate .. | .fwStatus .. | .doffRun .. | .doffRecord .. | .testLane .. | .hkRead .. | .hkAlarmCfg ..
  | .eventMessage .. | .evtDoorbell .. | .evtClaim .. | .evtEoi .. | .evtMaskClr .. | .evtPendSet .. | .evtArmSet ..
  | .evtTimeLo .. | .requestExpiry .. | .discoveryTimeout .. | .keepalive .. | .linkDown .. | .notify .. | .wakeActivity ..
  | .bucketLeak .. | .patChkSync .. | .scrubStep .. | .logFree .. | .commit .. | .rawRead .. | .start .. | .abort .. | .dmaRequest ..
  | .dmaSwreq .. | .dmaBeat .. | .conversionDone .. | .hkaSwtrig .. | .listTimer .. | .hkTrigEdge .. | .triggerDelayEnd ..
  | .converterDisable .. | .pwmPeriodStart .. | .pwmCompare .. | .pwmEnable .. | .filterInput .. | .fltRestart ..
  | .fltCfgWrite .. | .groupRequest .. | .quiesceVote .. | .lowPowerEnter .. | .wakeReq .. | .lpWake .. | .thermalSample ..
  | .freeze .. | .freezeRelease .. | .cntLo .. | .cntSelWrite .. | .bwCfgWrite .. | .hlnPatBitsLo ..
  | .patternGeneratorEnable .. | .errInj .. | .lockoutEnd .. | .nonceExpiry .. | .i3cCcc .. | .registerWrite ..
  | .blindAdaptationDone .. | .keepaliveReceived .. | .sidebandTransmission .. | .commandTimeLimit .. | .coreSupplyGood ..
  | .vddioLoss .. | .vddioRestored .. | .readToClear .. => true

end Sys2Proof
end

