-- ==== Sys2Proof/Tests/Slice0.lean ====
section
/-! SUPPORT. The model's own tests: small states, one command each, with the results that the rules of spec/ give; and for every statement
of Certificates/Slice0/Obligations.lean states and operands that meet its hypotheses. -/

namespace Sys2Proof.Tests

open Sys2Proof Sys2Proof.Machine

set_option Elab.async false

/-! ### Small states -/

/-- The state after a command (the state itself where the command does not answer a next state). -/
def after (i : Instr) (s : State) : State :=
  match exec i s with
  | .next t => t
  | .fault _ | .refused _ => s

/-- `s` with its part changed. -/
def on (s : State) (f : Chip → Chip) : State := { s with chip := f s.chip }

/-- A part past its start: every domain ON, the Whorl locked, Krelin ready, Spindle A the holder, the mailbox open, L8
populated, the session at level 3. -/
def awake : State :=
  let c : Chip := { State.reset.chip with limited := false, pmu := { pd := Vector.ofFn (fun _ => Power.on) } }
  let c := (c.setFlag CLK_WHORL_STATUS.LOCK true).setFlag CLK_WHORL_STATUS.REFCLK_OK true
  let c := (c.setFlag CLK_WHORL_STATUS.RING_OSC_ON false).setFld GLB_BOOT_STATUS.STEP 13
  let c := (c.setFlag GLB_BOOT_STATUS.FW_READY true).setFlag MBX_STATUS.OPEN true
  let c := c.setFlag TWF_PLY_CFG.POPULATED true
  { State.reset with dist := ⟨1, 1, false, false⟩, chip := c.setFld GRD_SESSION.LEVEL 3 }

/-- `awake` with its session at a level. -/
def atLevel (n : Nat) : State := on awake (fun c => c.setFld GRD_SESSION.LEVEL n)

/-- `s` with a request of an opcode and a payload in slot 0, posted at level `lv`. -/
def postedAt (lv : Nat) (s : State) (op : Nat) (payload : List Nat) : State :=
  let l : List Byte := leBytes 2 op ++ leBytes 2 0x1234 ++ leBytes 2 payload.length ++ List.replicate 10 0#8 ++ payload.map (BitVec.ofNat 8)
  let cells := ((List.range l.length).zip l).filter (fun p => p.2 != 0#8)
  { s with chip := { s.chip with
      valid := (List.range 32).map (fun i => (MemId.mailbox.key i, true)) ++ s.chip.valid
      mem := cells.map (fun p => ⟨MemId.mailbox.base + p.1, p.2⟩) ++ s.chip.mem
      mbx := { s.chip.mbx with slots := s.chip.mbx.slots.set 0 .posted, priv := s.chip.mbx.priv.set 0 lv, queue := [.slot 0] } } }

/-- The part as it takes the posted request, and the request. -/
def taken (lv : Nat) (s : State) (op : Nat) (payload : List Nat) : Option (Chip × Req) :=
  match (postedAt lv s op payload).chip.accept (.slot 0) op with
  | (c, some r) => some (c, r)
  | (_, none) => none

/-- The request is taken, and the part and the request then meet `p`. -/
def meetsAt (lv : Nat) (s : State) (op : Nat) (payload : List Nat) (p : Chip → Req → Bool) : Bool :=
  (taken lv s op payload).elim false (fun x => p x.1 x.2)

/-- As `meetsAt`, at level 3. -/
def meets (s : State) (op : Nat) (payload : List Nat) (p : Chip → Req → Bool) : Bool := meetsAt 3 s op payload p

/-- What `meetsAt` shows is the premise of the statements about commands. -/
theorem takes_of_meetsAt (lv : Nat) (s : State) (op : Nat) (payload : List Nat) (p : Chip → Req → Bool) (h : meetsAt lv s op payload p = true) :
    ∃ c r, (postedAt lv s op payload).takes (.slot 0) op c r ∧ p c r = true := by
  unfold meetsAt taken at h
  unfold State.takes
  split at h
  · next c r e => exact ⟨c, r, e, h⟩
  · cases h

/-- The status (byte 4) and the first result bytes of the completion that the posted command leaves in the ring. -/
def answer (s : State) (op : Nat) (payload : List Nat) (i : Instr) (k : Nat) : List Nat :=
  let t := after i (postedAt 3 s op payload)
  (t.chip.byte (MemId.mailbox.base + 0x1004)).toNat ::
    (List.range k).map (fun j => (t.chip.byte (MemId.mailbox.base + 0x1010 + j)).toNat)

/-! ### The machine, the distaff and the spindles -/

/-- Both spindles boot. -/
def bootB : State := on awake (fun c => { c with spn := { c.spn with role := Vector.ofFn (fun _ => Role.boot) } })

/-- Spindle B boots with a sound image. -/
def soundB : State := on bootB (fun c => { c with spn := { c.spn with fit := c.spn.fit.set 1 true } })

/-- The state after a step (the state itself where it does not answer a next state). -/
def cycled (s : State) : State :=
  match step s with
  | .next t => t
  | .fault _ | .refused _ => s

theorem witness_EmptyQueueLetsOneCyclePass : State.reset.pending = [] ∧ State.reset.chip.flag CLK_WHORL_STATUS.RING_OSC_ON = true ∧
    awake.chip.flag CLK_WHORL_STATUS.RING_OSC_ON = false ∧ soundB.chip.mayStart 1 = true ∧ soundB.chip.mayStart 0 = false := by decide +kernel

theorem witness_EveryStepKeepsDistaffLegal : State.reset.dist.legal = true ∧ ∃ t, step State.reset = .next t := ⟨by decide, _, rfl⟩

theorem witness_EpochNeverFalls : ∃ t, exec .jtagTapReset awake = .next t := ⟨_, rfl⟩

theorem witness_OtpIsNeverErased : ∃ s : State, s.fuse.ownerKey = some [1#8] ∧ s.fuse.keyKilled = true ∧ ∃ t, step s = .next t :=
  ⟨{ State.reset with fuse := { State.reset.fuse with ownerKey := some [1#8], keyKilled := true } }, rfl, rfl, _, rfl⟩

theorem witness_RefusedRegisterWrites : State.reset.refuses .host MBX_DOORBELL.addr ∧ State.reset.refuses .host (0x11000 + 0x100 * 15 + 4 * 63) ∧
    State.reset.refuses .host MBX_SLOT_FREE.addr ∧ State.reset.refuses .host GRD_CLAIM.addr ∧ State.reset.refuses .host GRD_DISTAFF_CTRL.addr ∧
    State.reset.refuses .host GLB_RST_CTRL.addr ∧ State.reset.refuses .host PMU_GRP_REQ.addr ∧
    (on awake (fun c => c.setFlag GLB_SUPPLY_STATUS.IO_OK false)).chip.flag GLB_SUPPLY_STATUS.IO_OK = false := by
  simp only [State.refuses]; decide +kernel

/-- Spindle B fenced. -/
def fencedB : State := { awake with dist := { awake.dist with fencedB := true } }

theorem witness_ClaimIsWonOrStale : awake.admits Spindle.b.master GRD_CLAIM.addr ∧
    (awake.dist.fenced (spNum .b) = false ∧ awake.dist.epoch < (2#32).toNat) ∧ (1#32).toNat ≤ awake.dist.epoch ∧
    fencedB.admits Spindle.b.master GRD_CLAIM.addr ∧ fencedB.dist.fenced (spNum .b) = true ∧
    awake.admits .spindleA GRD_CLAIM.addr ∧ awake.dist.fencedA = false ∧ awake.dist.fencedB = false ∧ awake.dist.epoch < (0xFFFFFFFF#32).toNat := by
  simp only [State.admits]; decide +kernel

theorem test_claim_wins : (after (.claim .spindleB 2#32 {}) awake).dist = ⟨2, 2, true, false⟩ := by decide +kernel

theorem test_claim_stale : (after (.claim .spindleB 1#32 {}) awake).dist = awake.dist := by decide +kernel

/-- Spindle B ready to take over. -/
def standbyB : State := on awake (fun c => { c with spn := { c.spn with role := Vector.ofFn (fun _ => Role.standby) } })

theorem witness_ReleaseAndHandover : awake.admits Spindle.a.master GRD_DISTAFF_CTRL.addr ∧ awake.dist.holder = spNum .a ∧
    getBits (0xD1570001#32) 16 16 = 0xD157 ∧ getBits (0xD1570001#32) 1 1 = 0 ∧ getBits (0xD1570001#32) 0 1 = 1 ∧
    getBits (0xD1570002#32) 16 16 = 0xD157 ∧ getBits (0xD1570002#32) 1 1 = 1 ∧
    standbyB.admits Spindle.a.master GRD_DISTAFF_CTRL.addr ∧ standbyB.dist.holder = spNum .a ∧ standbyB.chip.roleOf 1 = .standby ∧
    standbyB.dist.fenced (spNum Spindle.a.other) = false ∧ standbyB.dist.epoch < 0xFFFFFFFF ∧ awake.chip.roleOf 1 ≠ .standby ∧
    awake.admits Spindle.b.master GRD_DISTAFF_CTRL.addr ∧ awake.dist.holder ≠ spNum .b := by
  simp only [State.admits]; decide +kernel

theorem test_handover : (after (.handover .spindleA 0xD1570002#32 {}) standbyB).dist = ⟨2, 2, false, false⟩ := by decide +kernel

theorem witness_WatchdogAtTheDistaff : standbyB.chip.pdOn (spNum .a) = true ∧ standbyB.chip.spn.update = none ∧ standbyB.dist.holder = spNum .a ∧
    standbyB.chip.roleOf (spNum Spindle.a.other - 1) = .standby ∧ awake.chip.pdOn (spNum .b) = true ∧ awake.dist.holder ≠ spNum .b ∧
    awake.chip.spn.update = none ∧ awake.chip.roleOf (spNum Spindle.a.other - 1) ≠ .standby := by decide +kernel

theorem test_watchdog_of_holder : (after (.spindleWatchdog .a {}) standbyB).dist = ⟨2, 2, false, false⟩ := by decide +kernel

/-- Nobody holds the distaff. -/
def holderless : State := { standbyB with dist := ⟨0, 1, false, false⟩ }

theorem witness_FenceClaimAndRestart : fencedB.admits Spindle.b.master GRD_DISTAFF.addr ∧ getBits (32#32) 5 1 = 1 ∧ holderless.dist.holder = 0 ∧
    holderless.dist.epoch < 0xFFFFFFFF ∧ holderless.chip.flag GLB_BOOT_STATUS.FW_READY = true ∧ holderless.dist.fencedA = false ∧
    holderless.chip.roleOf 0 ≠ .off ∧ holderless.chip.pdOn 1 = true ∧ awake.admits Spindle.a.master GRD_WDT_KICK.addr ∧
    awake.admits Spindle.b.master GRD_SPN_CTRL.addr ∧ awake.dist.holder ≠ spNum .b ∧ awake.admits Spindle.a.master GRD_SPN_CTRL.addr ∧
    awake.dist.holder = spNum .a ∧ getBits (0xD1570002#32) 16 16 = 0xD157 ∧ getBits (0xD1570002#32) 0 1 = 0 ∧
    getBits (0xD1570002#32) 1 1 = 1 ∧ awake.chip.pdOn (spNum Spindle.a.other) = true := by
  simp only [State.admits]; decide +kernel

theorem test_fence_clear : (after (.fenceClear .spindleB 32#32 {}) fencedB).dist = awake.dist := by decide +kernel

theorem test_restart_of_the_other : (after (.spindleRestart .spindleA 0xD1570002#32) standbyB).chip.roleOf 1 = .boot := by decide +kernel

/-- An update in probation: Spindle B holds the distaff, A is the old holder. -/
def probation : State :=
  { on bootB (fun c => { c with spn := { c.spn with update := some ⟨0, 1, 1, .probation⟩ } }) with dist := ⟨2, 2, false, false⟩ }

theorem witness_SpindlesComeAndGo : (cycled soundB).chip.roleOf (spNum .b - 1) = .sync ∧ (cycled soundB).chip.pdOn (spNum .b) = true ∧
    soundB.chip.mayStart (spNum .b - 1) = true ∧ (cycled soundB).chip.spn.update = none ∧ bootB.chip.pdOn (spNum .b) = true ∧ bootB.chip.spn.update = none ∧
    bootB.standby (spNum .b - 1) = false ∧ bootB.dist.holder ≠ spNum .b ∧ bootB.dist.holder ≠ 0 ∧ bootB.chip.spn.takeover = false ∧
    (on bootB (fun c => c.setFlag MBX_STATUS.OPEN false)).chip.flag MBX_STATUS.OPEN = false ∧
    (on bootB (fun c => { c with spn := { c.spn with takeover := true } })).chip.spn.takeover = true ∧
    (∀ i, i < 16 → bootB.chip.slot i ≠ .executing) ∧ probation.chip.spn.update = some ⟨0, 1, 1, .probation⟩ ∧
    probation.dist.holder = 2 := by decide +kernel

theorem test_sync_done : (after (.spindleSyncDone .b) (cycled soundB)).chip.roleOf 1 = .standby ∧
    (after (.spindleSyncDone .b) bootB).chip.roleOf 1 = .boot := by decide +kernel

theorem test_probation_end : (after .probationEnd probation).chip.spn.update = some ⟨0, 1, 1, .finishing⟩ := by decide +kernel

/-! ### Resets, clocks and the start -/

theorem witness_PowerOnResetState : ResetSource.watchdogB ∈ [ResetSource.watchdogA, .watchdogB] ∧ ResetSource.watchdogB ≠ .por := by decide

theorem test_power_on_reset : (after (.powerOnReset 7 31 []) awake).chip.fld GLB_BOOT_STATUS.STEP = 1 ∧
    (after (.powerOnReset 7 31 []) awake).chip.straps = 7 := by decide +kernel

theorem witness_PinSoftAndSupplyResets : awake.admits .host GLB_RST_CTRL.addr ∧ getBits (0x64080001#32) 16 16 = 0x6408 ∧
    getBits (0x64080001#32) 0 1 = 1 ∧ getBits (0x64090001#32) 16 16 ≠ 0x6408 ∧ getBits (0x64080000#32) 0 1 = 0 ∧
    awake.chip.flag GLB_SUPPLY_STATUS.CORE_OK = true := by
  simp only [State.admits]; decide +kernel

theorem test_soft_reset_keeps_epoch : (after (.softwareChipReset .host 0x64080001#32 []) awake).dist = ⟨0, 1, false, false⟩ ∧
    (after (.softwareChipReset .host 0x64090001#32 []) awake).dist = ⟨1, 1, false, false⟩ := by decide +kernel

theorem witness_WhorlRestartKeepsMailbox :
    awake.chip.flag CLK_WHORL_STATUS.LOCK = true ∧ awake.chip.flag CLK_WHORL_STATUS.REFCLK_OK = true := by decide +kernel

/-- The Whorl in HOLDOVER, slewing back. -/
def slewing : State := on awake (fun c => { c.setFlag CLK_WHORL_STATUS.HOLDOVER true with start := { c.start with slew := true } })

/-- The start before the Whorl has locked: at step `n`. -/
def starting (n : Nat) : State := on State.reset (fun c => c.setFld GLB_BOOT_STATUS.STEP n)

theorem witness_ClocksAndSupplyFlags : awake.chip.flag CLK_WHORL_STATUS.LOCK = true ∧ awake.chip.flag CLK_WHORL_STATUS.HOLDOVER = false ∧
    slewing.chip.flag CLK_WHORL_STATUS.HOLDOVER = true ∧ slewing.chip.start.slew = true ∧
    (starting 2).chip.fld GLB_BOOT_STATUS.STEP = 2 ∧ (starting 2).chip.flag CLK_WHORL_STATUS.LOCK = false := by decide +kernel

theorem test_whorl_lock : (after .whorlLock (starting 2)).chip.fld GLB_BOOT_STATUS.STEP = 3 ∧
    (after .whorlLock (starting 2)).chip.flag CLK_WHORL_STATUS.RING_OSC_ON = false := by decide +kernel

theorem test_holdover : (after .holdover awake).chip.flag CLK_WHORL_STATUS.HOLDOVER = true ∧
    (after .whorlRecovered slewing).chip.flag CLK_WHORL_STATUS.HOLDOVER = false := by decide +kernel

theorem test_hv_loss : (after (.analogSupplyLoss false true) awake).chip.pdOf 15 = .off ∧
    (after (.analogSupplyLoss false true) awake).chip.pdOf 16 = .on := by decide +kernel

/-- A good image with sequence number 7 by the header of R471: MAGIC, HDR_VER 1, LENGTH and PROG_LEN at their least. -/
def goodImage : Image :=
  ⟨leBytes 4 0x4B524C4E ++ leBytes 4 1 ++ leBytes 4 7 ++ leBytes 4 4352 ++ leBytes 6 0 ++ leBytes 4 4096, true⟩

/-- The start at step 6 with that image in slot B. -/
def withImage : State := on (starting 6) (fun c => { c with flash := { c.flash with imgB := some goodImage } })

/-- The start at step 9 with a core target of 750 mV. -/
def at750 : State := on (starting 9) (fun c => { c.setFld GLB_AVS.TARGET 750 with pmu := awake.chip.pmu })

theorem witness_StartUpSteps : ((starting 1).chip.fld GLB_BOOT_STATUS.STEP ≤ 1 ∧ (starting 1).chip.flag GLB_SUPPLY_STATUS.CORE_OK = true ∧
      (starting 1).chip.flag THM_STATUS.TRIP = false ∧ (starting 1).chip.pmu.lowPower = false ∧
      (starting 1).chip.flag CLK_WHORL_STATUS.LOCK = false) ∧
    (starting 3).chip.fld GLB_BOOT_STATUS.STEP = 3 ∧
    ((starting 5).chip.fld GLB_BOOT_STATUS.STEP = 5 ∧ (starting 5).chip.flag GLB_BOOT_STATUS.DOFF_VALID = false) ∧
    (withImage.chip.fld GLB_BOOT_STATUS.STEP = 6 ∧ withImage.chip.flag GLB_BOOT_STATUS.WAIT_HOST = false ∧
      withImage.chip.candidates withImage.fuse = [(1, goodImage)] ∧ goodImage.sigOk = true) ∧
    (starting 6).chip.candidates (starting 6).fuse = [] ∧
    ((starting 8).chip.fld GLB_BOOT_STATUS.STEP = 8 ∧ (starting 8).dist.holder = 0 ∧ (starting 8).dist.fencedA = false ∧
      (starting 8).dist.epoch < 0xFFFFFFFF) ∧
    (at750.chip.fld GLB_BOOT_STATUS.STEP = 9 ∧ at750.chip.flag GLB_BOOT_STATUS.NO_CFG = false ∧ at750.chip.start.checked = false ∧
      at750.chip.pdOn 20 = true ∧ coreInRange (at750.chip.fld GLB_AVS.TARGET) (hkCodeOf 17 751000) = true ∧
      coreInRange (at750.chip.fld GLB_AVS.TARGET) (hkCodeOf 17 700000) = false) ∧
    (on (starting 9) (fun c => { c with start := { c.start with checked := true } })).chip.start.checked = true ∧
    ((starting 12).chip.fld GLB_BOOT_STATUS.STEP = 12 ∧ (starting 10).chip.fld GLB_BOOT_STATUS.STEP = 10) := by decide +kernel

theorem test_select_image : (after .selectImage withImage).chip.fld GLB_BOOT_STATUS.STEP = 8 ∧
    (after .selectImage withImage).chip.fld GLB_BOOT_STATUS.SRC = 2 ∧
    (after .selectImage (starting 6)).chip.flag GLB_BOOT_STATUS.WAIT_HOST = true := by decide +kernel

theorem test_core_voltage : (after (.coreVoltageCheck 751000 false) at750).chip.start.checked = true ∧
    (after (.coreVoltageCheck 700000 false) at750).chip.start.checked = false ∧
    (after (.coreVoltageCheck 700000 true) at750).chip.flag GLB_AVS.OFF_TARGET = true := by decide +kernel

theorem test_krelin_start : (after .krelinStart (starting 8)).dist = ⟨1, 1, false, false⟩ := by decide +kernel

theorem test_traffic_ready : (after .trafficReady (starting 12)).chip.fld GLB_BOOT_STATUS.STEP = 13 := by decide +kernel

/-! ### Host lanes -/

/-- Port P0, mode 0x01 (Twist), on host lane H0 and line lane L0, in a state; L0's receiver in state `rx` with its signal. -/
def withPort (st : PortSt) (rx : Nat) : State :=
  on awake (fun c =>
    let c := c.portMod 0 (fun _ => { mode := 1, st := st, hostCount := 1, lineMask := 1 })
    (c.setFld (LRX_STATUS.STATE 0) rx).setFlag (LRX_STATUS.SIGNAL 0) true)

/-- Host lane `h` with a signal, at 400 Gb/s, in training state `st`. -/
def hostAt (h st : Nat) : State :=
  on awake (fun c => ((c.setFlag (HLN_STATUS.SIGNAL h) true).setFld (HLN_STATUS.RATE h) 5).setFld (HLN_STATUS.TRAIN_STATE h) st)

/-- That lane with its hidden state changed. -/
def hostWith (h st : Nat) (f : HostLane → HostLane) : State := on (hostAt h st) (fun c => c.hostMod h f)

theorem witness_HostSignalLossAndReturn : (hostAt 15 5).chip.hostOn 15 = true ∧ (hostAt 15 5).chip.flag (HLN_STATUS.SIGNAL 15) = true ∧
    (awake.chip.hostOn 0 = true ∧ awake.chip.flag (HLN_STATUS.SIGNAL 0) = false) ∧
    (let s := hostWith 15 5 (fun x => { x with watch := true })
     (s.chip.hostOf 15).watch = true ∧ s.chip.hostData 15 = true ∧ s.chip.hostOn 15 = true) ∧
    awake.chip.flag (HLN_STATUS.TX_SHORT 15) = false ∧
    (let s := on (hostAt 15 1) (fun c => c.setFlag (HLN_STATUS.TX_SHORT 15) true)
     s.chip.flag (HLN_STATUS.TX_SHORT 15) = true ∧ s.chip.htState 15 ≠ 0) := by decide +kernel

theorem test_host_los : (after (.hostLos 15) (hostAt 15 5)).chip.flag (HLN_FAULT.LOS 15) = true ∧
    (after (.hostLos 15) (hostAt 15 5)).chip.flag (HLN_STATUS.SIGNAL 15) = false := by decide +kernel

theorem test_host_tx_short : (after (.hostTxShort 0 true 0#16) awake).chip.flag (HLN_FAULT.TX_SHORT 0) = true := by decide +kernel

theorem witness_HostTrainingOutcomes : (hostAt 15 4).chip.hostOn 15 = true ∧ (hostAt 15 4).chip.hostTrains 15 = true ∧
    (hostAt 0 1).chip.hostTrains 0 = true ∧ ((hostWith 15 4 (fun x => { x with echoWait := true })).chip.hostOf 15).echoWait = true ∧
    (hostAt 15 4).chip.host400 15 = true ∧ ((hostWith 15 4 (fun x => { x with countdown := some 0 })).chip.hostOf 15).countdown = some 0 ∧
    ((hostWith 15 4 (fun x => { x with farLeft := some 0 })).chip.hostOf 15).farLeft = some 0 ∧ ((hostAt 15 4).chip.hostOf 15).txDone = false ∧
    ((hostAt 15 4).chip.hostOf 15).rxDone = false ∧
    (let s := on (hostAt 15 3) (fun c => c.setFld (HLN_STATUS.RATE 15) 4)
     s.chip.hostTrains 15 = true ∧ s.chip.host400 15 = false ∧ 3 ≤ s.chip.htState 15) ∧ (hostAt 15 6).chip.htState 15 = 6 ∧
    (let s := on (hostAt 15 1) (fun c => c.setFld (HLN_STATUS.RATE 15) 4)
     s.chip.htState 15 = 1 ∧ s.chip.host400 15 = false ∧ s.chip.flag (HLN_STATUS.SIGNAL 15) = true ∧ s.chip.hostOn 15 = true) ∧
    (let s := on (hostAt 15 7) (fun c => c.setFld (HLN_STATUS.RATE 15) 4)
     s.chip.htState 15 = 7 ∧ s.chip.host400 15 = false ∧ s.chip.flag (HLN_STATUS.SIGNAL 15) = true ∧
     s.chip.flag (HLN_STATUS.TRAINED 15) = false ∧ s.chip.hostOn 15 = true ∧
     ((on s (fun c => c.quadMod 3 (fun q => { q with orderKnown := true }))).chip.quad 3).orderKnown = true) ∧
    awake.chip.pdOn (3 + 3) = true ∧ bit ((on awake (fun c => c.setFld CLK_HQ_STATUS.LOCK 15)).chip.fld CLK_HQ_STATUS.LOCK) 3 = true ∧
    ((on awake (fun c => c.quadMod 3 (fun q => { q with relocking := true }))).chip.quad 3).relocking = true := by decide +kernel

theorem test_training_timeout : (after (.trainingTimeout 15) (hostAt 15 4)).chip.htState 15 = 6 := by decide +kernel

theorem test_handoff : (after (.handoff 15 true) (hostWith 15 4 (fun x => { x with countdown := some 0, rxDone := true }))).chip.htState 15 = 5 := by
  decide +kernel

/-- A training frame with its marker, inverted or not, and a wrong CRC. -/
def badFrame (inv : Bool) : HFrameIn := ⟨List.replicate 32 (if inv then 0 else 2) ++ [if inv then 2 else 0], 1#64, false, none, ⟨40, 3, 2, []⟩⟩

/-- A data frame with its marker as decided and a wrong count word. -/
def dataIn (marker : BitVec 32) : DataFrameIn := ⟨marker, 1#32, [], ⟨40, 3, 2, []⟩⟩

/-- A valid IEEE training frame. -/
def ieeeIn : IeeeIn := ⟨true, false, none, true, none, ⟨40, 3, 13, []⟩⟩

theorem witness_HostFrameTimes : (hostAt 15 1).chip.hostOn 15 = true ∧ (hostAt 15 1).chip.host400 15 = true ∧ (hostAt 15 1).chip.htState 15 = 1 ∧
    (∀ inv, markerIn ((badFrame inv).marks.map (fun v => v.1)) = some inv) ∧ hostCrcOk (badFrame true).word.toNat = false ∧
    (badFrame true).ready = false ∧ ((hostAt 15 1).chip.hostOf 15).frameLock = false ∧ ((hostAt 15 1).chip.hostOf 15).farLeft = none ∧
    ((hostAt 15 1).chip.hostOf 15).rxDone = false ∧
    ((hostAt 15 1).chip.hostOf 15).countdown = none ∧ ((hostAt 15 1).chip.hostOf 15).readySent = false ∧
    (hostAt 15 5).chip.hostData 15 = true ∧ (hostAt 15 5).chip.host400 15 = true ∧ countWordOk (dataIn 3).word.toNat = false ∧
    ((hostAt 15 7).chip.hostData 15 = true ∧ (hostAt 15 7).chip.htState 15 = 7) ∧
    (∃ w : BitVec 32, countWordOk w.toNat = true) ∧
    (let s := on (hostAt 15 1) (fun c => c.setFld (HLN_STATUS.RATE 15) 4)
     s.chip.hostOn 15 = true ∧ s.chip.host400 15 = false ∧ s.chip.htState 15 = 1) ∧
    ieeeIn.valid = true ∧ ieeeIn.pos = none ∧ ieeeIn.ask = none := by
  refine ⟨?_, ?_, ?_, ?_, ?_, ?_, ?_, ?_, ?_, ?_, ?_, ?_, ?_, ?_, ?_, ⟨BitVec.ofNat 32 (3072 * 2 ^ 20 + 2907), ?_⟩, ?_⟩ <;> decide +kernel

/-- The marker of R91 with up to 3 decisions wrong, or with 29 to 32 of them, inverted. -/
theorem test_data_marker : [0x9D2C5AE3, 0x9D2C5AE4, 0x9D2C5AFC, 0x62D3A51C].map dataMarkerIn = [some false, some false, none, some true] := by
  decide +kernel

theorem test_third_marker_locks :
    (after (.twistHFrame 15 (badFrame true) 0#16) (hostWith 15 1 (fun x => { x with markers := 2 }))).chip.htState 15 = 2 ∧
    (after (.twistHFrame 15 (badFrame false) 0#16) (hostWith 15 1 (fun x => { x with markers := 1 }))).chip.htState 15 = 1 := by decide +kernel

theorem test_data_frame_lock :
    ((after (.dataFrame 15 (dataIn 0x9D2C5AE4#32)) (hostWith 15 5 (fun x => { x with dataMarkers := 2 }))).chip.hostOf 15).dataLock = true ∧
    ((after (.dataFrame 15 (dataIn 0x9D2C5AFC#32)) (hostWith 15 5 (fun x => { x with dataMisses := 3, dataLock := true }))).chip.hostOf 15).dataLock = false := by
  decide +kernel

theorem test_ieee_training : (after (.ieeeTrainingFrame 15 ieeeIn 0#16) (on (hostAt 15 1) (fun c => c.setFld (HLN_STATUS.RATE 15) 4))).chip.htState 15 = 3 := by
  decide +kernel

theorem witness_HostLaneCommands : meets awake 0x0301 [3, 1, 4, 1] (fun _ r => let b := byteAt r.payload
      decide (b 0 ≤ 3 ∧ b 1 ≤ 1 ∧ 1 ≤ b 2 ∧ b 2 ≤ 4 ∧ b 3 ≤ 1)) = true ∧
    meets awake 0x0301 [4, 0, 1, 0] (fun _ r => decide (3 < byteAt r.payload 0)) = true ∧
    meets awake 0x0302 [16, 0, 0, 0] (fun _ r => decide (15 < byteAt r.payload 0)) = true ∧
    meets awake 0x0302 [15, 0, 0, 0] (fun c r => let h := byteAt r.payload 0
      decide (h ≤ 15 ∧ (c.hostUsed h && c.pdOn (3 + quadOf h)) = false)) = true ∧
    meets (withPort .ready 6) 0x0302 [0, 0, 0, 0] (fun c r => let h := byteAt r.payload 0
      decide (h ≤ 15) && c.hostUsed h && c.pdOn (3 + quadOf h)) = true ∧
    meets awake 0x0303 [15, 0, 0, 0] (fun _ _ => true) = true ∧
    meets (hostAt 15 7) 0x0304 ([15, 4] ++ List.replicate 14 0) (fun c r => let b := byteAt r.payload
      decide (b 0 ≤ 15 ∧ 1 ≤ b 1 ∧ b 1 ≤ 4) && c.hostFixed (b 0) && c.pdOn (3 + quadOf (b 0))) = true ∧
    meets awake 0x0304 ([15, 5] ++ List.replicate 14 0) (fun _ r => decide (byteAt r.payload 0 ≤ 15 ∧ 4 < byteAt r.payload 1)) = true ∧
    meets (hostAt 15 5) 0x0304 ([15, 4] ++ List.replicate 14 0) (fun c r => let b := byteAt r.payload
      decide (b 0 ≤ 15 ∧ b 1 ≤ 4 ∧ b 1 ≠ 0) && !(c.hostFixed (b 0))) = true := by decide +kernel

theorem test_host_tx_set : answer (hostAt 15 5) 0x0304 ([15, 4] ++ List.replicate 14 0) (.hostTxSet (.slot 0)) 0 = [4] ∧
    answer awake 0x0304 ([15, 5] ++ List.replicate 14 0) (.hostTxSet (.slot 0)) 0 = [3] := by decide +kernel

/-! ### Line lanes -/

/-- Line lane `n` with a signal, its receiver in state `st`. -/
def lineAt (n st : Nat) : State := on awake (fun c => (c.setFld (LRX_STATUS.STATE n) st).setFlag (LRX_STATUS.SIGNAL n) true)

/-- That lane with its hidden receiver state changed. -/
def lineWith (n st : Nat) (f : LineRx → LineRx) : State := on (lineAt n st) (fun c => c.rxMod n f)

/-- Lane L8 with every criterion of lock, in FRAME_SEEK. -/
def lockable : State :=
  on (lineAt 8 5) (fun c => ((c.setFlag (LRX_STATUS.CDR_LOCK 8) true).setFlag (LRX_STATUS.EQ_CONV 8) true).setFlag (LRX_STATUS.FRAME_LOCK 8) true)

theorem witness_LineReceiverStates : (lineAt 8 1).chip.pdOn (7 + 8) = true ∧ (lineAt 8 1).chip.rxState 8 = 1 ∧
    awake.chip.signal 0 = false ∧ awake.chip.rxState 0 ≠ 7 ∧ (lineAt 8 3).chip.rxState 8 = 3 ∧ lockable.chip.mbx.exec = [] ∧ lockable.chip.ply.planned = none ∧ lockable.chip.plyRx ≠ plySubstWait ∧
    lockable.chip.lockCriteria 8 = true ∧ lockable.chip.rxState 8 = 5 ∧ (lineAt 8 6).chip.signal 8 = true ∧ (lineAt 8 6).chip.rxState 8 = 6 ∧
    (lineAt 8 5).chip.rxState 8 = 5 ∧ ((lineAt 8 5).chip.rxOf 8).window = none ∧
    ((lineWith 8 5 (fun x => { x with retrain := true })).chip.rxOf 8).retrain = true ∧
    ((lineWith 8 5 (fun x => { x with window := some .restore })).chip.rxOf 8).window.isSome = true := by decide +kernel

theorem test_calibration_done : (after (.foregroundCalibrationDone 8) (lineAt 8 1)).chip.rxState 8 = 3 ∧
    (after (.foregroundCalibrationDone 0) (lineAt 8 1)).chip.rxState 8 = 1 := by decide +kernel

theorem test_line_locked : (after (.lineLocked 8) lockable).chip.rxState 8 = 6 ∧ (after (.lineLocked 8) (lineAt 8 5)).chip.rxState 8 = 5 := by
  decide +kernel

theorem test_line_los : (after (.lineLos 8) (lineAt 8 6)).chip.flag (LRX_FAULT.LOS 8) = true ∧
    (after (.lineLos 8) (lineAt 8 5)).chip.flag (LRX_FAULT.LOS 8) = false := by decide +kernel

/-- The end of an adaptation window without a request. -/
def adaptIn : AdaptIn := ⟨0, 200, [], [], [], 0, 0, none⟩

/-- An update of the offset of sub-ADC 63, upwards. -/
def adcIn : AdcIn := ⟨63, .offset, 1, 3, 0, 0⟩

theorem witness_LineReceiverLoops : (lineAt 8 5).chip.pdOn (7 + 8) = true ∧ (lineAt 8 5).chip.rxState 8 = 5 ∧ (lineAt 8 3).chip.rxState 8 = 3 ∧
    adaptIn.ask = none ∧ (lineAt 8 6).chip.signal 8 = true ∧ (lineAt 8 6).chip.rxState 8 = 6 ∧
    (let s := lineWith 8 6 (fun x => { x with live := { x.live with adc := (adcAll x.live.adc).set 63 (255, 0, 0) } })
     (adcGet .offset ((adcAll (s.chip.rxOf 8).live.adc).getD 63 (0, 0, 0))).natAbs < (adcEnd .offset).natAbs ∧
       (clampInt (-adcEnd .offset) (adcEnd .offset) (adcGet .offset ((adcAll (s.chip.rxOf 8).live.adc).getD 63 (0, 0, 0)) + 1)).natAbs
         = (adcEnd .offset).natAbs) ∧
    ((adcAll ((lineAt 8 6).chip.rxOf 8).live.adc).set 63 (adcPut .offset (0, 0, 0) 1)).all adcInside = true ∧
    freqSteady ((adaptIn.freq :: (List.replicate 15 (0 : Int))).take 16) = true ∧
    ((lineAt 8 7).chip.signal 8 = true ∧ (lineAt 8 7).chip.rxState 8 = 7) ∧
    (let s := on (lineAt 8 6) (fun c => c.setFld (LRX_SNR.SNR_AVG 8) 65535)
     s.chip.rxState 8 = 6 ∧ s.chip.lockThr 8 + 256 ≤ s.chip.snrAvg 8 ∧ s.chip.flag (LRX_STATUS.GOOD 8) = false) ∧
    (let s := on (lineAt 8 6) (fun c => (c.setFld (LRX_STATUS.VOLT_SET 8) 2).setFld (LRX_RX_CFG.VOLT_MAX 8) 1)
     s.chip.rxState 8 ≠ 0 ∧ s.chip.voltLimit 8 < s.chip.fld (LRX_STATUS.VOLT_SET 8)) ∧
    (let s := on (lineAt 8 6) (fun c => (c.setFld (LRX_STATUS.VOLT_SET 8) 1).setFld (LRX_RX_CFG.VOLT_MAX 8) 2)
     s.chip.rxState 8 ≠ 0 ∧ s.chip.fld (LRX_STATUS.VOLT_SET 8) < s.chip.voltTarget 8 ∧ (s.chip.rxOf 8).thermLow = false) ∧
    (let s := lineWith 8 6 (fun x => { x with dropFrom := some 2 })
     (s.chip.rxOf 8).dropFrom = some 2 ∧ s.chip.snrAvg 8 < s.chip.lockThr 8 + 256) := by decide +kernel

theorem test_good_set : (after (.goodSet 8) (on (lineAt 8 6) (fun c => c.setFld (LRX_SNR.SNR_AVG 8) 65535))).chip.flag (LRX_STATUS.GOOD 8) = true ∧
    (after (.goodSet 8) (lineAt 8 6)).chip.flag (LRX_STATUS.GOOD 8) = false := by decide +kernel

theorem test_adc_offset : (((after (.adcCalUpdate 8 adcIn) (lineAt 8 6)).chip.rxOf 8).live.adc.getD 63 (9, 9, 9)) = (1, 0, 0) := by decide +kernel

theorem test_volt_step : (after (.voltStep 8) (on (lineAt 8 6) (fun c => (c.setFld (LRX_STATUS.VOLT_SET 8) 2).setFld (LRX_RX_CFG.VOLT_MAX 8) 1))).chip.fld
    (LRX_STATUS.VOLT_SET 8) = 1 := by decide +kernel

/-- A free capture of 64 bytes at the start of capture memory, triggered at once. -/
def captureArgs : List Nat := [8, 2, 0, 0, 0, 0, 0, 0, 64, 0, 0, 0, 0, 0, 0, 0]

theorem witness_LineReceiverCommands : meets awake 0x0401 [8, 0, 0, 0] (fun _ _ => true) = true ∧
    meets awake 0x0402 [8, 25, 24, 15, 3, 2, 0, 0] (fun _ r => decide (byteAt r.payload 1 < byteAt r.payload 2 + 2)) = true ∧
    meets awake 0x0402 [8, 120, 118, 15, 3, 2, 0, 0] (fun c r => let b := byteAt r.payload
      decide (b 0 ≤ 8 ∧ 24 ≤ b 1 ∧ b 1 ≤ 120 ∧ 24 ≤ b 2 ∧ b 2 + 2 ≤ b 1 ∧ b 3 ≤ 15 ∧ b 4 ≤ 3 ∧ b 5 ≤ 2) && c.pdOn (7 + b 0)) = true ∧
    meets awake 0x0403 [9, 0, 0, 0] (fun _ r => decide (8 < byteAt r.payload 0)) = true ∧
    meets awake 0x0403 [8, 0, 0, 0] (fun c r => decide (byteAt r.payload 0 ≤ 8) && !(c.carriesPort (byteAt r.payload 0))) = true ∧
    meets (withPort .ready 6) 0x0403 [0, 0, 0, 0] (fun c r => let n := byteAt r.payload 0
      decide (n ≤ 8) && c.carriesPort n && !(c.onL8 n) && c.pdOn (7 + n)) = true ∧
    meets awake 0x0404 captureArgs (fun c r => let b := byteAt r.payload
      decide (b 0 ≤ 8 ∧ b 1 ≤ 2 ∧ b 2 = 0 ∧ arg32 r.payload 8 % 8 = 0 ∧ 64 ≤ arg32 r.payload 8 ∧ arg32 r.payload 8 ≤ 2097152) &&
        capOk (arg32 r.payload 4) (arg32 r.payload 8) && c.pdOn (7 + b 0) && c.pdOn 19 && (c.rxOf (b 0)).capture.isNone) = true ∧
    meets (lineWith 8 6 (fun x => { x with capture := some ⟨0, 0, 0, 64, .slot 1, true⟩ })) 0x0404 captureArgs (fun c r =>
      (c.rxOf (byteAt r.payload 0)).capture.isSome) = true ∧
    ((lineWith 8 6 (fun x => { x with capture := some ⟨0, 0, 0, 64, .slot 1, true⟩ })).chip.rxOf 8).capture = some ⟨0, 0, 0, 64, .slot 1, true⟩ ∧
    (lineWith 8 6 (fun x => { x with capture := some ⟨0, 0, 0, 64, .slot 1, true⟩ })).chip.mbx.exec = [] := by decide +kernel

/-- Raw ADC codes come as bytes, sample 0 of sub-ADC 1 in byte 4, sign-extended (R397); nothing is written of a capture not triggered. -/
theorem test_capture_end :
    (let d : TapData := ⟨[1#7, 0x7F#7] ++ List.replicate 254 0#7, [], []⟩
     let t := fun (b : Bool) => after (.captureEnd 8 d) (lineWith 8 6 (fun x => { x with capture := some ⟨0, 0, 0, 64, .slot 1, b⟩ }))
     (t true).chip.byte MemId.capture.base = 1#8 ∧ (t true).chip.byte (MemId.capture.base + 4) = 0xFF#8 ∧
       (t false).chip.byte MemId.capture.base = 0#8) := by decide +kernel

theorem test_line_rx_cfg : answer awake 0x0402 [8, 120, 118, 15, 3, 2, 0, 0] (.lineRxCfg (.slot 0)) 0 = [0] ∧
    answer awake 0x0402 [8, 120, 119, 15, 3, 2, 0, 0] (.lineRxCfg (.slot 0)) 0 = [3] := by decide +kernel

theorem test_line_retrain : (after (.lineRetrain (.slot 0)) (postedAt 3 (withPort .ready 6) 0x0403 [0, 0, 0, 0])).chip.rxState 0 = 1 ∧
    answer awake 0x0403 [8, 0, 0, 0] (.lineRetrain (.slot 0)) 0 = [4] := by decide +kernel

/-- The transmitter of L0 of a Twist port, its hidden state changed. -/
def txWith (f : LineTx → LineTx) : State := on (withPort .ready 6) (fun c => { c with tx := c.tx.set 0 (f c.tx[0]) })

theorem witness_LineTransmitterSteps :
    (let s := txWith (fun x => { x with rxWords := [(1, 0, true), (0, 0, false)] })
     (s.chip.txOf 0).rxWords = (1, 0, true) :: [(0, 0, false)] ∧ s.chip.laneTwist 0 = true) ∧
    tapWordOk (tapWord 0x0400AA) = true ∧ bitsOf (tapWord 0x0400AA) 30 2 = 0 ∧ bitsOf (tapWord 0x0400AA) 26 4 ≠ 0 ∧
    ((txWith id).chip.txOf 0).seqIn ≠ some (bitsOf (tapWord 0x0400AA) 8 8) ∧
    tapWordOk (tapWord 0x4400AA) = true ∧ bitsOf (tapWord 0x4400AA) 30 2 = 1 ∧
    (let s := txWith (fun x => { x with pend := { x.pend with preset := some 4 } })
     (s.chip.txOf 0).pend.preset = some 4 ∧ (s.chip.txOf 0).pend.req = none) ∧
    (let s := txWith (fun x => { x with pend := { x.pend with req := some (1, 8, 0, 255) } })
     (s.chip.txOf 0).pend.preset = none ∧ (s.chip.txOf 0).pend.req = some (1, 8, 0, 255)) ∧
    ((txWith (fun x => { x with pend := { x.pend with swap := true } })).chip.txOf 0).pend.swap = true ∧
    ((txWith (fun x => { x with echoWait := true })).chip.txOf 0).echoWait = true ∧ awake.chip.pdOn (7 + 8) = true := by decide +kernel

theorem test_tap_request_taken :
    ((after (.tapWord 0) (txWith (fun x => { x with rxWords := [(0, tapWord 0x0400AA, false)] }))).chip.txOf 0).pend.req = some (1, 0, 0, 0xAA) ∧
    ((after (.tapWord 0) (txWith (fun x => { x with rxWords := [(0, tapWord 0x0400AA + 1, false)] }))).chip.txOf 0).pend.req = none := by
  decide +kernel

theorem test_tension_swap : (after (.ttSwap 0) (txWith (fun x => { x with pend := { x.pend with swap := true } }))).chip.fld (LTX_TT_STATUS.SWAP_CNT 0) = 1 := by
  decide +kernel

theorem witness_LineTransmitterCommands : meets awake 0x0405 [8, 0, 0, 0] (fun _ _ => true) = true ∧
    meets awake 0x0406 [8, 0, 0, 0, 64, 0, 0, 0] (fun _ r => decide (bitsOf (arg32 r.payload 4) 0 7 ≠ 0)) = true ∧
    meets awake 0x0406 [8, 1, 0, 0, 128, 0, 0, 0] (fun c r => let v := arg32 r.payload 4
      decide (byteAt r.payload 0 ≤ 8 ∧ bitsOf v 24 8 = 0 ∧ bitsOf v 0 7 = 0) && bit (byteAt r.payload 1) 0 && c.pdOn (7 + byteAt r.payload 0)) = true ∧
    meets (on awake (fun c => c.setPd 15 .off)) 0x0406 [8, 1, 0, 0, 128, 0, 0, 0] (fun c r =>
      bit (byteAt r.payload 1) 0 && !(c.pdOn (7 + byteAt r.payload 0))) = true ∧
    meets awake 0x0407 [9, 0, 0, 0, 0, 0, 0, 0] (fun _ r => decide (8 < byteAt r.payload 0)) = true ∧
    meets (on awake (fun c => { c with valid := (List.range 64).map (fun i => (MemId.capture.key i, true)) })) 0x0407 [8, 0, 0, 0, 0, 0, 0, 0]
      (fun c r => decide (byteAt r.payload 0 ≤ 8) && capOk (arg32 r.payload 4) 512 && c.pdOn 19 && c.pdOn (7 + byteAt r.payload 0) &&
        (match (c.readBytes .capture (arg32 r.payload 4) 512).2 with
         | some l => (sx16s l 0 256).all (fun e => decide (-512 ≤ e) && decide (e ≤ 511))
         | none => false)) = true := by decide +kernel

theorem test_line_tx_table_bad_arg : answer awake 0x0407 [9, 0, 0, 0, 0, 0, 0, 0] (.lineTxTable (.slot 0)) 0 = [3] := by decide +kernel

/-! ### The hank engine and framing -/

/-- L0 of a Twist port, LOCKED and good, with slot 2047 held. -/
def hanked : State :=
  on (withPort .ready 6) (fun c => (c.setFlag (LRX_STATUS.GOOD 0) true).setHankSlot 2047 { st := .held })

/-- `hanked` with its engine changed. -/
def engine (f : Hnk → Hnk) : State := on hanked (fun c => { c with hnk := f c.hnk })

theorem witness_HankEngineSteps : hanked.chip.pdOn 18 = true ∧ hanked.chip.flag (LRX_STATUS.GOOD 0) = true ∧ hanked.chip.snapOf 0 0 = none ∧
    hanked.chip.pickSlot = some 0 ∧ (engine (fun x => { x with snaps := [⟨0, 2047, 0, true⟩] })).chip.snapOf 0 0 = some ⟨0, 2047, 0, true⟩ ∧
    hanked.chip.rxState 0 = 6 ∧ hanked.chip.snapOf 0 1 = none ∧ (hanked.chip.snapOf 0 0).all (fun x => x.written) = true ∧
    ((engine (fun x => { x with snaps := [⟨0, 2047, 0, true⟩] })).chip.snapOf 0 0).all (fun x => x.written) = true ∧
    (engine (fun x => { x with snaps := [⟨0, 2047, 1, true⟩] })).chip.snapOf 0 1 = some ⟨0, 2047, 1, true⟩ ∧
    (let s := engine (fun x => { x with queue := [⟨0, 2047, .load⟩], chans := [⟨1, 0, .load⟩, ⟨2, 1, .load⟩] })
     s.chip.hnk.chans.length < 3 ∧
       s.chip.hnk.queue.find? (fun q => s.chip.pageMayStart q.lane) = some (⟨0, 2047, .load⟩ : PageReq)) ∧
    (let s := engine (fun x => { x with chans := [⟨0, 2047, .load⟩] })
     s.chip.mbx.exec = [] ∧ s.chip.inFlight 0 = some ⟨0, 2047, .load⟩) := by decide +kernel

theorem test_snapshot_commits : (after (.snapshotGuardEnd 0) (engine (fun x => { x with snaps := [⟨0, 2047, 0, true⟩] }))).chip.lastGood 0 = some 2047 := by
  decide +kernel

theorem test_page_in_start : (after .pageInStart (engine (fun x => { x with queue := [⟨0, 2047, .load⟩] }))).chip.hnk.chans = [⟨0, 2047, .load⟩] := by
  decide +kernel

/-- The bytes of a hank of L8 before its CRC. -/
def hankBody : List Byte := leBytes 2 0x484B ++ [1, 0, 8, 7, 1, 1] ++ zeros 2036

/-- The CRC-32 of R173 byte by byte, its value looked at at every byte so that the kernel keeps it short. -/
def crcEvenly : List Byte → Nat → Nat
  | [], c => c
  | b :: l, c => if c = 0 then crcEvenly l (crc32Byte c b) else crcEvenly l (crc32Byte c b)

theorem crcEvenly_eq (l : List Byte) : ∀ c, crcEvenly l c = l.foldl crc32Byte c := by
  induction l with
  | nil => intro c; rfl
  | cons b l ih => intro c; simp only [crcEvenly, ite_self, List.foldl_cons, ih]

/-- A sound hank of L8, logical lane 7, rate 1. -/
def soundHank : List Byte := hankBody ++ leBytes 4 2168705772

theorem crcEvenly_hankBody : crcEvenly hankBody 0xFFFFFFFF = 2126261523 := by decide +kernel

theorem crc32_eq (l : List Byte) : crc32 l = crcEvenly l 0xFFFFFFFF ^^^ 0xFFFFFFFF := by unfold crc32; rw [crcEvenly_eq]

theorem crc32_hankBody : crc32 hankBody = 2168705772 := by
  rw [crc32_eq]; generalize hx : crcEvenly hankBody 0xFFFFFFFF = x
  rw [crcEvenly_hankBody] at hx; subst hx; rfl

theorem hankBody_length : hankBody.length = 0x7FC := by
  unfold hankBody zeros; rw [List.length_append, List.length_append, List.length_replicate]; rfl

theorem soundHank_fields : hankPhys soundHank = 8 ∧ hankLogical soundHank = 7 ∧ hankRate soundHank = 1 := by decide +kernel

theorem soundHank_take : soundHank.take 0x7FC = hankBody := by unfold soundHank; rw [← hankBody_length]; exact List.take_left

theorem soundHank_drop : soundHank.drop 0x7FC = leBytes 4 2168705772 := by unfold soundHank; rw [← hankBody_length]; exact List.drop_left

theorem soundHank_length : soundHank.length = 2048 := by unfold soundHank; rw [List.length_append, hankBody_length]; rfl

theorem soundHank_head : leNat ((soundHank.drop 0).take 2) = 0x484B ∧ byteAt soundHank 2 = 1 := by decide +kernel

theorem soundHank_sound : hankSound soundHank = true := by
  unfold hankSound leAt
  rw [soundHank_take, crc32_hankBody, soundHank_drop, soundHank_length, soundHank_head.1, soundHank_head.2]
  decide

/-- `hanked` with mode code 1 in slot 2047. -/
def ofMode1 : State :=
  on hanked (fun c => { c with
    mem := [⟨MemId.hankStore.base + hankOff 2047 + 6, 1⟩] })

/-- `hanked` with bytes of its own in slot 2047. -/
def ownHank : State := on hanked (fun c => c.hankSlotMod 2047 (fun x => { x with own := some soundHank }))

theorem witness_HankCommands : meets awake 0x0501 [255, 0, 0, 0, 1, 0, 0, 0] (fun c r => decide (byteAt r.payload 0 = 0xFF) && c.pdOn 18) = true ∧
    meets awake 0x0501 [8, 0, 0, 0, 31, 0, 0, 0] (fun c r => decide (byteAt r.payload 0 ≤ 8) && c.pdOn 18) = true ∧
    meets awake 0x0501 [9, 0, 0, 0, 31, 0, 0, 0] (fun c r => decide (8 < byteAt r.payload 0 ∧ byteAt r.payload 0 ≠ 0xFF) && c.pdOn 18) = true ∧
    meets awake 0x0502 [8, 0, 0, 0] (fun _ _ => true) = true ∧
    meets hanked 0x0503 [0, 8, 0, 0, 0, 0, 0, 0] (fun _ r => decide (2048 ≤ arg16 r.payload 0)) = true ∧
    meets ownHank 0x0503 [255, 7, 0, 0, 0, 0, 0, 0] (fun c r => let i := arg16 r.payload 0
      decide (i < 2048 ∧ (c.hankSlot i).st = .held) && capOk (arg32 r.payload 4) 2048 && c.pdOn 19 && c.pdOn 18 && (c.readHank i).2.isSome) = true ∧
    meets hanked 0x0504 [1, 0, 0, 0, 1, 0, 0, 0] (fun _ r => !(capOk (arg32 r.payload 4) 2048)) = true ∧
    meets hanked 0x0505 [255, 7, 0, 0] (fun c r => let i := arg16 r.payload 0
      decide (i < 2048 ∧ (c.hankSlot i).st = .held ∧ (c.hankSlot i).keep = false ∧ c.keeps (c.hankSlot i).lane < c.keepMax (c.hankSlot i).lane) &&
        c.pdOn 18) = true ∧
    meets (on hanked (fun c => c.setFld (HNK_LANE_CFG.KEEP_MAX 0) 0)) 0x0505 [255, 7, 0, 0] (fun c r => let i := arg16 r.payload 0
      decide ((c.hankSlot i).keep = false ∧ c.keepMax (c.hankSlot i).lane ≤ c.keeps (c.hankSlot i).lane)) = true ∧
    meets (on hanked (fun c => c.hankSlotMod 2047 (fun x => { x with keep := true }))) 0x0506 [255, 7, 0, 0] (fun c r =>
      decide (arg16 r.payload 0 < 2048) && (c.hankSlot (arg16 r.payload 0)).keep) = true ∧
    meets hanked 0x0506 [255, 7, 0, 0] (fun c r => !(c.hankSlot (arg16 r.payload 0)).keep) = true ∧
    meets ofMode1 0x0507 [0, 0, 255, 7] (fun c r => let n := byteAt r.payload 0
      let i := arg16 r.payload 2
      let l := c.bytesAt (MemId.hankStore.base + hankOff i) 2048
      decide (n ≤ 8 ∧ i < 2048 ∧ (c.hankSlot i).st = .held ∧ (c.hankSlot i).own = none ∧ hankPhys l = n ∧ hankMode l = c.carriedMode n ∧
        hankRate l = c.fld (LRX_STATUS.RATE n)) && c.pdOn 18 && c.carriesPort n && !(c.laneFailed n) && !(c.laneUp n)) = true ∧
    meets hanked 0x0507 [0, 0, 255, 7] (fun c r => let l := c.bytesAt (MemId.hankStore.base + hankOff (arg16 r.payload 2)) 2048
      decide (hankMode l ≠ c.carriedMode (byteAt r.payload 0))) = true ∧
    meets hanked 0x0508 [9, 0, 0, 0] (fun _ r => decide (8 < byteAt r.payload 0)) = true ∧
    meets hanked 0x0508 [8, 0, 0, 0] (fun c r => decide (byteAt r.payload 0 ≤ 8) && c.pdOn 18 && !(c.restoring (byteAt r.payload 0))) = true := by
  decide +kernel

theorem test_hank_pin : answer hanked 0x0505 [255, 7, 0, 0] (.hankPin (.slot 0)) 0 = [0] ∧
    answer hanked 0x0506 [255, 7, 0, 0] (.hankUnpin (.slot 0)) 0 = [4] := by decide +kernel

/-- L0 of a Twist port with its framer in lock and set up to send. -/
def framed (f : Framer → Framer) : State :=
  on (withPort .up 6) (fun c => { (c.setFld (TWF_LANE_STATUS.FRAMING 0) 1).setFlag (TWF_LANE_STATUS.FRAME_LOCK 0) true with
    framer := c.framer.set 0 (f c.framer[0]) })

/-- Reliabilities near zero, their bits as given. -/
def soft (b : Bool) : LlrIn × LlrIn := (⟨0, b⟩, ⟨0, b⟩)

/-- The symbols of a frame whose FAW comes with its first `k` symbols wrong. -/
def frameIn (k : Nat) : List (LlrIn × LlrIn) :=
  (List.range 31).map (fun i => soft (fawBits.getD i false != decide (i < k))) ++ List.replicate 16353 (soft false)

theorem frameIn_length (k : Nat) : (frameIn k).length = 16384 := by
  unfold frameIn; rw [List.length_append, List.length_replicate, List.length_map, List.length_range]

/-- L8 of the Ply lane, seeking frames. -/
def seeking : State := on (lineAt 8 3) (fun c => c.setFld (TWF_LANE_STATUS.FRAMING 8) 1)

theorem witness_FramingSteps_faw : [3, 4, 27].map (fun k => fawWrong ((frameIn k).map (seeking.chip.softOf 8))) = [3, 4, 27] := by decide +kernel

/-- The nibbles of a multiframe with FAR_ID 0x000000000001 and its CRC-16 (calculated apart from the model). -/
def goodNibs : List Nat := [0, 0, 0, 0, 0, 0, 0, 0, 0, 0, 0, 1, 0, 0, 0, 0, 0, 0, 0, 0] ++ [4, 11, 6, 8]

/-- L0 with that multiframe complete, its LAST_GOOD hank not there. -/
def farSeen (bad : Bool) : State := framed (fun x => { x with mfDone := some (goodNibs, bad), mfFails := 1 })

theorem witness_FramingSteps : (framed id).chip.sendsFrames 0 = true ∧ ((framed id).chip.frameGroup 0).head? = some 0 ∧
    (let s := on (framed id) (fun c => (c.portMod 0 (fun x => { x with mode := 0x12, lineMask := 3 })).setFld (TWF_LANE_STATUS.FRAMING 1) 1)
     s.chip.sendsFrames 1 = true ∧ s.chip.frameGroup 1 = [0, 1]) ∧
    (seeking.chip.sendsFrames 8 = true ∧ seeking.chip.plyCarry (seeking.chip.framerOf 8).fn = noLane) ∧
    (seeking.chip.pdOn 17 = true ∧ seeking.chip.fld (TWF_LANE_STATUS.FRAMING 8) = 1 ∧ seeking.chip.rxState 8 = 3 ∧
      seeking.chip.flag (TWF_LANE_STATUS.FRAME_LOCK 8) = false) ∧
    ((framed (fun x => { x with matches_ := 2 })).chip.framerOf 0).matches_ = 2 ∧ ((framed id).chip.framerOf 0).invMatches = 0 ∧
    ((farSeen true).chip.framerOf 0).mfDone = some (goodNibs, true) ∧ (farSeen true).chip.mbx.exec = [] ∧
    (((farSeen false).chip.framerOf 0).mfDone = some (goodNibs, false) ∧
      (let b := fun i => 16 * goodNibs.getD (2 * i) 0 + goodNibs.getD (2 * i + 1) 0
       mfCrc ((List.range 10).map b) = 256 * b 10 + b 11) ∧ (farSeen false).chip.lastGood 0 = none) ∧
    (framed id).chip.portRuns 0 = true ∧
    (let s := on (framed id) (fun c => c.setFld (TWF_LANE_STATUS.FRAMING 0) 2)
     s.chip.fld (TWF_LANE_STATUS.FRAMING 0) = 2 ∧ s.chip.flag (TWF_LANE_STATUS.FRAME_LOCK 0) = true) := by decide +kernel

theorem test_multiframe : (after (.multiframe 0) (farSeen false)).chip.fld (TWF_FAR_ID_LO.FAR_LO 0) = 1 ∧
    (after (.multiframe 0) (farSeen false)).chip.flag (TWF_LANE_STATUS.MF_VALID 0) = true ∧
    (after (.multiframe 0) (farSeen true)).chip.fld (TWF_OH_ERR.MF_CRC 0) = 1 := by decide +kernel

theorem test_port_rate_fault : ((after (.portRateFault 0) (framed id)).chip.port 0).st = .fault := by decide +kernel

theorem test_ieee_align_loss :
    (after (.ieeeAlignLoss 0) (on (framed id) (fun c => c.setFld (TWF_LANE_STATUS.FRAMING 0) 2))).chip.flag (TWF_LANE_STATUS.SEEK 0) = true := by
  decide +kernel

/-- The sound hank at the start of capture memory. -/
def hankInCapture : State :=
  on awake (fun c => { c with
    mem := (((List.range 2048).zip soundHank).filter (fun p => p.2 != 0#8)).map (fun p => ⟨MemId.capture.base + p.1, p.2⟩)
    valid := (List.range 256).map (fun i => (MemId.capture.key i, true)) })

theorem witness_HankCommands_write : meets hankInCapture 0x0504 [0, 0, 0, 0, 0, 0, 0, 0] (fun c r =>
    capOk (arg32 r.payload 4) 2048 && c.pdOn 19 && c.pdOn 18 && !(bit (byteAt r.payload 0) 0) &&
      (c.readBytes .capture (arg32 r.payload 4) 2048).2 == some soundHank &&
      (c.readBytes .capture (arg32 r.payload 4) 2048).1.pickSlot == some 0) = true := by decide +kernel

/-! ### The creel -/

/-- A codeword of lane `n` that is released at cycle `at_`. -/
def word (n : Nat) (conv : Bool) (at_ : Nat) : Codeword := ⟨n, 0, n, false, [], [], 0, 0, 8, conv, false, 0, at_, false, none, []⟩

/-- The Twist port's lane L0 with the creel changed. -/
def creeled (f : Creel → Creel) : State := on (withPort .up 6) (fun c => { c with crl := f c.crl })

/-- L0 with a codeword complete, its lanes mirrored or not, and codewords in the creel. -/
def arriving (pair : Option Nat) (l : List Codeword) : State :=
  on (framed (fun x => { x with words := [⟨3, []⟩] })) (fun c => { c with crl := { c.crl with paired := pair, cws := l } })

theorem witness_CreelSteps_arrival : ((arriving none []).chip.framerOf 0).words = [⟨3, []⟩] ∧ (arriving none []).chip.pdOn 16 = true ∧
    (arriving none []).chip.crlActive 0 = true ∧ (arriving none []).chip.crl.paired ≠ some 0 ∧
    ((arriving (some 0) []).chip.crl.paired = some 0 ∧ (arriving (some 0) []).chip.waitingFor 8 3 0 = none) ∧
    (let o := { word 8 false 63 with fn := 3, wait := true }
     (arriving (some 0) [o]).chip.waitingFor 8 3 0 = some 0 ∧ (arriving (some 0) [o]).chip.crl.cws[0]? = some o) := by decide +kernel

theorem witness_CreelSteps :
    (let s := on awake (fun c => (c.setFlag CRL_FLOAT_CFG.ROT_EN true).setFld CRL_STATUS.SPARE 24)
     s.chip.flag CRL_FLOAT_CFG.ROT_EN = true ∧ s.chip.fld CRL_STATUS.SPARE ≠ 31 ∧ s.chip.fld CRL_STATUS.SPARE = 24 ∧
       bit (s.chip.fld CRL_BOBBIN_FAIL.RETIRED) 24 = false ∧ s.chip.pdOn 16 = true) ∧
    (let s := creeled (fun x => { x with cws := [word 0 true 63], active := 1 })
     s.chip.crl.active = maskOf 9 s.chip.crlActive ∧ s.chip.pdOn 16 = true ∧ ∀ w ∈ s.chip.crl.cws, w.wait = false) ∧
    (∀ conv : Bool, let s := creeled (fun x => { x with cws := [word 1 false 0, word 0 conv 63] })
     s.chip.crl.cws[1]? = some (word 0 conv 63) ∧
     argMin (fun k => (s.chip.crl.cws[k]?).elim 0 (fun x => x.release)) ((List.range s.chip.crl.cws.length).filter (fun k =>
        (s.chip.crl.cws[k]?).elim false (fun x => x.lane == 0 && decide (x.release < s.chip.crl.cyc + 64)))) = some 1 ∧
     s.chip.tribPort 0 0 = some 0 ∧ (s.chip.port 0).bundle = false ∧ s.chip.wholeLane 0 = true) ∧
    ({ word 0 false 63 with void := true } : Codeword).void = true ∧
    (creeled id).chip.portRuns 0 = true ∧ (creeled id).chip.pdOn 16 = true ∧
    (let s := creeled (fun x => { x with lanes := x.lanes.set 0 { win := ⟨2, 7, 1, 8, 0, 0⟩ } })
     s.chip.crlActive 0 = true ∧ (s.chip.crlOf 0).win.released ≠ 0 ∧ (s.chip.crlOf 0).win.arrived ≠ 0) := by decide +kernel

/-- The Twist port with the symbols of a codeword released on its line: all zero but the first `n`. -/
def received (n : Nat) : State :=
  on (withPort .up 6) (fun c => c.portMod 0 (fun x => { x with fromLine := List.replicate n 1 ++ List.replicate (540 - n) 0 }))

/-- A host symbol stream of an all-zero codeword, and the port without Twist framing. -/
def fromHost : State := on (withPort .up 6) (fun c => c.hostMod 0 (fun x => { x with got := List.replicate 544 0 }))

theorem witness_CreelSteps_rs : ((received 0).chip.port 0).twist = true ∧ 540 ≤ (((received 0).chip.port 0).fromLine.drop 0).length ∧
    ((on (withPort .up 6) (fun c => c.portMod 0 (fun x => { x with mode := 0x19 }))).chip.port 0).twist = false ∧
    (let s := on fromHost (fun c => c.setFld (HLN_STATUS.RATE 0) 5)
     (s.chip.port 0).hostLanes.zipIdx.all (fun l =>
       decide ((s.chip.port 0).muxShare l.2 ≤ (s.chip.hostSyms 0 [] (s.chip.physHost l.1)).length)) = true) := by decide +kernel

theorem test_codeword_arrives : (after (.codewordArrival 0 5) (arriving none [])).chip.crl.cws.map (fun w => (w.lane, w.fn, w.arrive, w.wait)) = [(0, 3, 5, false)] ∧
    (after (.codewordArrival 0 5) (arriving (some 0) [])).chip.crl.cws.map (fun w => w.wait) = [true] := by decide +kernel

theorem test_release : (after (.codewordRelease 0 []) (creeled (fun x => { x with cws := [word 0 true 63] }))).chip.fld (CRL_HIST.COUNT 0 8) = 1 ∧
    (after (.codewordRelease 0 []) (creeled (fun x => { x with cws := [word 0 false 63] }))).chip.fld (CRL_LANE_MISS.DL_MISS 0) = 1 := by
  decide +kernel

/-- The product and the inverse of R247's field. -/
theorem test_rs_field : gfMul 512 2 = 9 ∧ (List.range 16).all (fun a => a == 0 || gfMul a (gfInv a) == 1) = true := by decide +kernel

/-- The generator of RS(544,514) as IEEE 802.3 prints it, its lowest and highest coefficients. -/
theorem test_rs_generator : rsGenerator.take 4 = [523, 834, 128, 158] ∧ rsGenerator.drop 28 = [552, 575, 1] := by decide +kernel

theorem test_spare_retires : (after (.slotBoundary [24] [] [] []) (on awake (fun c => c.setFld CRL_STATUS.SPARE 24))).chip.flag CRL_STATUS.NO_SPARE = true := by
  decide +kernel

/-- CREEL_CFG of the shared fields: spare, least and most iterations, and the slub word. -/
def creelArgs (f : Nat) : List Nat := [0, 0, 0, 0, f % 256, f / 256 % 256, f / 65536 % 256, f / 16777216, 0, 0, 0, 0]

theorem witness_CreelCommands : meets awake 0x0601 (creelArgs (23 + 0x2000)) (fun _ r => decide (byteAt r.payload 0 = 0 ∧ 22 < bitsOf (arg32 r.payload 4) 0 5)) = true ∧
    meets awake 0x0601 (creelArgs (22 + 0x2800)) (fun c r => let f := arg32 r.payload 4
      decide (byteAt r.payload 0 = 0 ∧ bitsOf f 0 5 ≤ 22 ∧ 2 ≤ bitsOf f 12 4 ∧ bitsOf f 12 4 ≤ 8 ∧ bitsOf f 8 4 ≤ 8) && c.pdOn 16) = true ∧
    meets awake 0x0601 [1, 15, 32, 0, 0, 0, 0, 0, 0, 0, 0, 0] (fun c r => let b := byteAt r.payload
      decide (b 0 = 1 ∧ b 1 ≤ 15 ∧ 8 ≤ b 2 ∧ b 2 ≤ 32 ∧ (c.port (b 1)).st ≠ .ready)) = true ∧
    meets (withPort .ready 6) 0x0601 [1, 0, 8, 0, 0, 0, 0, 0, 0, 0, 0, 0] (fun c r => let b := byteAt r.payload
      decide (b 0 = 1 ∧ 8 ≤ b 2 ∧ (c.port (b 1)).st = .ready) && (c.port (b 1)).twist && c.pdOn 16 &&
        !((c.port (b 1)).lineLanes.any (fun n => (c.portsOn n).any (fun q => decide ((c.port q).st = .up))))) = true ∧
    meets awake 0x0602 [] (fun _ _ => true) = true ∧ meets awake 0x0603 [9, 0, 0, 0] (fun _ r => decide (8 < byteAt r.payload 0)) = true ∧
    meetsAt 0 awake 0x0603 [8, 1, 0, 0] (fun _ r => decide (byteAt r.payload 0 ≤ 8 ∧ r.level = 0) && bit (byteAt r.payload 1) 0) = true ∧
    meets awake 0x0603 [8, 0, 0, 0] (fun _ r => !(bit (byteAt r.payload 1) 0)) = true ∧
    meetsAt 1 awake 0x0603 [8, 1, 0, 0] (fun _ r => decide (r.level ≠ 0) && bit (byteAt r.payload 1) 0) = true ∧
    meets awake 0x0604 [16, 0, 0, 0] (fun _ r => decide (15 < byteAt r.payload 0)) = true ∧
    meets awake 0x0604 [15, 0, 0, 0] (fun _ r => decide (byteAt r.payload 0 ≤ 15) && !(bit (byteAt r.payload 1) 0)) = true ∧
    meetsAt 1 awake 0x0604 [15, 1, 0, 0] (fun _ r => decide (r.level ≠ 0) && bit (byteAt r.payload 1) 0) = true := by decide +kernel

theorem test_creel_cfg : answer awake 0x0601 (creelArgs (23 + 0x2000)) (.creelCfg (.slot 0)) 0 = [3] ∧
    answer awake 0x0601 [1, 15, 32, 0, 0, 0, 0, 0, 0, 0, 0, 0] (.creelCfg (.slot 0)) 0 = [4] := by decide +kernel

/-! ### The Ply lane, ports and system commands -/

/-- A part whose Ply receiver shows a state and a lane. -/
def plyAt (s : State) (st lane : Nat) : State := on s (fun c => (c.setFld TWF_PLY_STATUS.RX_STATE st).setFld TWF_PLY_STATUS.RX_LANE lane)

/-- A part with one executing command. -/
def executing (s : State) (w : Wait) : State :=
  on s (fun c => { c with mbx := { c.mbx with exec := [(⟨.slot 1, 0, 7, 0, w⟩ : ExecCmd)], slots := c.mbx.slots.set 1 .executing } })

theorem witness_PlyCommands : awake.chip.plyFitted = true ∧ awake.chip.locked 8 = false ∧
    (let s := on (withPort .fault 7) (fun c => { c with ply := { c.ply with unavail := [0] } })
     s.chip.plyBeyond 0 = true ∧ s.chip.twistFault 0 = true ∧ s.chip.ply.lost.contains 0 = false) ∧
    (let s := plyAt awake plySubstWait 7
     s.chip.plyRx = plySubstWait ∧ s.chip.plyLane ≤ 7 ∧ s.chip.mbx.exec = []) ∧
    meets (plyAt awake plySubst 7) 0x0701 [64, 0, 0, 0, 0, 0, 0, 0] (fun c r => decide (c.plyRx = plySubst) && c.plyFitted && !(bit (arg32 r.payload 0) 8)) = true ∧
    meets (on (plyAt awake plySubst 7) (fun c => c.setFlag TWF_PLY_CFG.SUBST_EN true)) 0x0701 [0, 1, 0, 0, 0, 0, 0, 0] (fun c r =>
      decide (c.plyRx = plySubst) && c.flag TWF_PLY_CFG.SUBST_EN && !(bit (arg32 r.payload 0) 6)) = true ∧
    meets awake 0x0701 [64, 1, 0, 0, 0, 0, 0, 0] (fun c r => decide (c.plyRx ≠ plySubst ∧ c.plyRx ≠ plySubstWait) && c.pdOn 17 &&
      bit (arg32 r.payload 0) 8 == c.plyFitted) = true ∧
    meets awake 0x0702 [0, 0, 0, 0] (fun _ r => !(bit (byteAt r.payload 0) 0)) = true ∧
    meetsAt 0 awake 0x0702 [1, 0, 0, 0] (fun _ r => bit (byteAt r.payload 0) 0 && r.level == 0) = true ∧
    meetsAt 1 awake 0x0702 [1, 0, 0, 0] (fun _ r => bit (byteAt r.payload 0) 0 && r.level != 0) = true ∧
    meets awake 0x0703 [9, 0, 0, 0] (fun _ r => decide (7 < byteAt r.payload 0 ∧ byteAt r.payload 0 ≠ 0xFF)) = true ∧
    meets (executing awake (.plySubst 3)) 0x0703 [7, 0, 0, 0] (fun c r => decide (byteAt r.payload 0 ≤ 7) && c.substRuns) = true ∧
    meets (plyAt awake plySubstWait 7) 0x0703 [255, 0, 0, 0] (fun c r => decide (byteAt r.payload 0 = 0xFF ∧ c.plyRx = plySubstWait) && !c.substRuns) = true ∧
    meets awake 0x0703 [255, 0, 0, 0] (fun c r => decide (byteAt r.payload 0 = 0xFF ∧ c.plyRx ≠ plySubst ∧ c.plyRx ≠ plySubstWait) && c.pdOn 17 &&
      !c.substRuns) = true ∧
    meets (withPort .ready 6) 0x0703 [0, 0, 0, 0] (fun c r => c.eligible (byteAt r.payload 0) && c.pdOn 17 && !c.substRuns &&
      decide (c.plyRx ≠ plySubst ∧ c.plyRx ≠ plySubstWait)) = true ∧
    meets awake 0x0704 [8, 0, 0, 0] (fun _ r => decide (7 < byteAt r.payload 0)) = true ∧
    meets (executing awake (.plySubst 3)) 0x0704 [7, 0, 0, 0] (fun c r => decide (byteAt r.payload 0 ≤ 7) && c.substRuns) = true ∧
    meets (plyAt (withPort .ready 6) 3 0) 0x0704 [0, 0, 0, 0] (fun c r => let n := byteAt r.payload 0
      !c.substRuns && c.eligible n && decide (c.crl.paired ≠ some n ∧ c.plyLane = n ∧ c.plyRx ≠ plySubst ∧ c.plyRx ≠ plySubstWait)) = true := by
  decide +kernel

theorem test_ply_mirror : answer awake 0x0703 [255, 0, 0, 0] (.plyMirror (.slot 0)) 0 = [0] ∧
    answer awake 0x0703 [9, 0, 0, 0] (.plyMirror (.slot 0)) 0 = [3] := by decide +kernel

/-- ADD_PORT of P15, mode 0x18 on H0 to H7 and L0 to L7. -/
def addArgs (port code mask : Nat) : List Nat := [port, code, 0, 0, mask, 0, 0, 0]

theorem witness_PortCommands : meets awake 0x0201 (addArgs 15 0x19 255) (fun _ r => (addReqOf r.payload).mode.isNone) = true ∧
    meets (withPort .ready 6) 0x0201 (addArgs 15 1 1) (fun c r => match (addReqOf r.payload).mode with
      | some m => !(c.canAdd (addReqOf r.payload) m)
      | none => false) = true ∧
    meets awake 0x0201 (addArgs 15 0x18 255) (fun c r => match (addReqOf r.payload).mode with
      | some m => c.canAdd (addReqOf r.payload) m
      | none => false) = true ∧
    meets awake 0x0202 [16, 0, 0, 0] (fun _ r => decide (15 < byteAt r.payload 0)) = true ∧
    meets awake 0x0202 [15, 0, 0, 0] (fun c r => decide (byteAt r.payload 0 ≤ 15 ∧ (c.port (byteAt r.payload 0)).st = .absent)) = true ∧
    meets (withPort .ready 6) 0x0202 [0, 0, 0, 0] (fun c r => decide ((c.port (byteAt r.payload 0)).st ≠ .absent ∧ c.mbx.exec = []) &&
      !(c.removalWaits (byteAt r.payload 0))) = true ∧
    meets awake 0x0203 [16, 0, 0, 0] (fun _ r => decide (15 < byteAt r.payload 0)) = true ∧
    meets awake 0x0203 [15, 0, 0, 0] (fun c r => decide ((c.port (byteAt r.payload 0)).st = .absent)) = true ∧
    meets (withPort .ready 6) 0x0203 [0, 0, 0, 0] (fun c r => decide ((c.port (byteAt r.payload 0)).st ≠ .absent ∧
      (c.port (byteAt r.payload 0)).st ≠ .configuring)) = true ∧
    meets awake 0x0204 [16, 0, 0, 0] (fun _ r => decide (15 < byteAt r.payload 0)) = true ∧
    meets (withPort .configuring 6) 0x0204 [0, 0, 0, 0] (fun c r => decide ((c.port (byteAt r.payload 0)).st = .configuring)) = true ∧
    meets (withPort .up 6) 0x0204 [0, 0, 0, 0] (fun c r => decide ((c.port (byteAt r.payload 0)).st ≠ .absent)) = true ∧
    meets awake 0x0205 [] (fun _ _ => true) = true := by decide +kernel

theorem test_remove_port : ((after (.removePort (.slot 0)) (postedAt 3 (withPort .ready 6) 0x0202 [0, 0, 0, 0])).chip.port 0).st = .absent ∧
    answer awake 0x0202 [15, 0, 0, 0] (.removePort (.slot 0)) 0 = [4] := by decide +kernel

theorem test_add_port_bad_arg : answer awake 0x0201 (addArgs 15 0x19 255) (.addPort (.slot 0) 0#16) 0 = [3] := by decide +kernel

theorem witness_SystemCommands : meets awake 0x0101 [] (fun _ _ => true) = true ∧ meets awake 0x0102 [1, 2, 255] (fun _ _ => true) = true ∧
    meets awake 0x0103 [] (fun _ _ => true) = true ∧ meets awake 0x0104 [] (fun c _ => c.flash.present) = true ∧
    meets (on awake (fun c => { c with flash := {} })) 0x0104 [] (fun c _ => !c.flash.present) = true ∧
    meets awake 0x0902 [15, 0, 0, 0] (fun _ _ => true) = true ∧ awake.chip.mbx.exec[0]? = none ∧
    (executing awake (.hostRetrain 15)).chip.mbx.exec[0]? = some ⟨.slot 1, 0, 7, 0, .hostRetrain 15⟩ ∧
    (executing awake (.lineRetrain 8)).chip.mbx.exec[0]? = some ⟨.slot 1, 0, 7, 0, .lineRetrain 8⟩ ∧
    (executing awake (.lineRetrain 8)).chip.rxState 8 ≠ 2 ∧
    (executing awake (.plySubst 7)).chip.mbx.exec[0]? = some ⟨.slot 1, 0, 7, 0, .plySubst 7⟩ ∧
    (executing awake (.flyRequest 5)).chip.mbx.exec[0]? = some ⟨.slot 1, 0, 7, 0, .flyRequest 5⟩ ∧
    (executing (withPort .configuring 1) (.addPort 0 0 1)).chip.mbx.exec[0]? = some ⟨.slot 1, 0, 7, 0, .addPort 0 0 1⟩ := by decide +kernel

theorem test_sys_info : answer awake 0x0101 [] (.sysInfo (.slot 0)) 7 = [0, 0xB0, 0x43, 0x08, 0x64, 0x41, 0, 1] := by decide +kernel

theorem test_time_limit : (after (.commandTimeLimit (.running 0)) (executing awake (.hostRetrain 15))).chip.slot 1 = .done := by decide +kernel

/-! ### The mailbox -/

/-- A part that takes no command. -/
def closed : State := on awake (fun c => c.setFlag MBX_STATUS.OPEN false)

/-- A completion of slot `n`. -/
def cpl (n : Nat) : Completion := ⟨0x0103, 7, 0, n, false, false, 0, [5#8]⟩

/-- A part with that completion held, its ring as the producer index says. -/
def holding (prod : Nat) : State :=
  on awake (fun c => { c.setFld ⟨MBX_CPL_PROD.addr, 0, 7⟩ prod with
    mbx := { c.mbx with held := [cpl 15], slots := c.mbx.slots.set 15 .executing } })

theorem witness_MailboxAccesses : closed.admits .host MBX_DOORBELL.addr ∧ getBits (15#32) 0 4 = 15 ∧ closed.chip.slot 15 = .free ∧
    closed.chip.served = false ∧ (holding 0).admits .host MBX_DOORBELL.addr ∧ (holding 0).chip.slot 15 ≠ .free ∧
    (holding 0).admits .host (MemId.mailbox.base + 0x100 * 15 + 4 * 63) ∧ masterSpindle .host ≠ (holding 0).dist.holder ∧
    awake.admits .host MBX_SLOT_FREE.addr ∧ awake.admits .host MBX_HOST_SLEEP.addr ∧ awake.chip.slot 0 = .free ∧
    awake.admits .host (MemId.mailbox.base + 0x100 * 0 + 4 * 0) ∧
    ((awake.chip.answer .host false 0).writeMem32 .mailbox (0x100 * 0 + 4 * 0) 5#32).2 = true := by
  simp only [State.admits]; decide +kernel

theorem test_doorbell : (after (.doorbell .host 15#32) closed).chip.slot 15 = .posted ∧
    (after (.doorbell .host 15#32) (holding 0)).chip.fld MBX_ERR.DB_BUSY = 1 := by decide +kernel

theorem test_slot_write : (after (.slotWrite .host 0 0 0x04030201#32) awake).chip.byte (MemId.mailbox.base + 3) = 4#8 := by decide +kernel

theorem witness_CompletionsArePosted : (holding 63).chip.mbx.held = cpl 15 :: [] ∧ (holding 63).chip.ringFull = false ∧ (cpl 15).slot < 16 ∧
    (holding 64).chip.ringFull = true ∧
    (on awake (fun c => { c with mbx := { c.mbx with pend := [⟨4, true⟩] } })).chip.mbx.pend = ⟨4, true⟩ :: [] ∧
    (on awake (fun c => { c with spn := { c.spn with takeover := true } })).chip.spn.takeover = true ∧ awake.dist.holder ≠ 0 ∧
    (∀ i, i < 16 → awake.chip.slot i ≠ .executing) ∧ (cpl 15).lowPower = false ∧
    ({ cpl 15 with opcode := 0x0803 } : Completion).lowPower = true := by decide +kernel

theorem test_held_post : (after .heldCompletionPost (holding 63)).chip.slot 15 = .done ∧ (after .heldCompletionPost (holding 63)).chip.prod = 64 ∧
    (after .heldCompletionPost (holding 64)).chip.slot 15 = .executing := by decide +kernel

/-! ### Power, low power and temperature -/

/-- A group request in its vote, one domain asked and one still to ask. -/
def voting : State := on awake (fun c => { c with pmu := { c.pmu with grp := some ⟨0x300000, 1, 1, none, .quiesce, [20], [21], [], 0, []⟩ } })

/-- A group request on the ladder. -/
def climbing (rung : Nat) : State :=
  on awake (fun c => { c.setPd 19 .off with pmu := { (c.setPd 19 .off).pmu with grp := some ⟨0x80000, 2, 1, none, .ladder, [], [], [19], rung, []⟩ } })

theorem witness_GroupRequestStarts : awake.admits .spindleA PMU_GRP_REQ.addr ∧ getBits (0x03000002#32) 24 2 = 3 ∧ getBits (0x02000001#32) 0 22 % 2 = 1 ∧
    voting.admits .spindleA PMU_GRP_REQ.addr ∧ voting.chip.pmu.grp.isSome = true ∧ getBits (0x02080000#32) 0 22 = 0x80000 ∧
    (let s := on awake (fun c => c.setPd 19 .off)
     s.chip.pmu.grp = none ∧ (domainsOf 0x80000).any (fun d => !(s.chip.pdOn d)) = true) ∧
    getBits (0x01080000#32) 24 2 = 1 ∧ awake.chip.toAsk 0x80000 1 ≠ [] := by
  simp only [State.admits]; decide +kernel

theorem test_group_request_busy : (after (.groupRequest .spindleA 0x02080000#32) voting).chip.fld PMU_GRP_STATUS.RESULT = 3 ∧
    (after (.groupRequest .spindleA 0x01080000#32) awake).chip.fld PMU_GRP_STATUS.PHASE = 1 := by decide +kernel

theorem witness_GroupRequestEnds : voting.chip.pmu.grp = some ⟨0x300000, 1, 1, none, .quiesce, [20], [21], [], 0, []⟩ ∧
    voting.chip.votesNo voting.dist.holder 21 = false ∧ (∀ e ∈ [20] ++ [21], 0 < e ∧ e < 22) ∧
    (let s := withPort .up 6
     s.chip.votesNo s.dist.holder 7 = true) ∧
    (climbing 2).chip.pmu.grp = some ⟨0x80000, 2, 1, none, .ladder, [], [], [19], 2, []⟩ ∧ (climbing 2).chip.suppliesFor [19] = true ∧
    (climbing 3).chip.pmu.grp = some ⟨0x80000, 2, 1, none, .ladder, [], [], [19], 3, []⟩ ∧ (climbing 3).chip.suppliesFor [19] = true := by decide +kernel

theorem test_last_vote : (after (.quiesceVote true) voting).chip.pdOf 20 = .ret ∧ (after (.quiesceVote false) voting).chip.pdOf 20 = .on := by
  decide +kernel

theorem test_ladder_complete : (after (.ladderComplete []) (climbing 3)).chip.pdOf 19 = .on ∧
    (after (.ladderRung []) (climbing 2)).chip.fld PMU_GRP_STATUS.RUNG = 3 := by decide +kernel

/-- A part in module low power with a wake latched. -/
def asleep (w : Nat) : State := on awake (fun c => { c with pmu := { c.pmu with lowPower := true, wakeLatched := w } })

theorem witness_PowerCommands : meets awake 0x0801 [0, 0, 8, 0, 3, 0, 0, 0] (fun _ r => decide (2 < byteAt r.payload 4)) = true ∧
    meets (on awake (fun c => c.setPd 19 .off)) 0x0801 [0, 0, 8, 0, 2, 0, 0, 0] (fun c r => let mask := arg32 r.payload 0
      decide (mask ≠ 0 ∧ mask % 2 = 0 ∧ mask < 2 ^ 22 ∧ byteAt r.payload 4 = 2) && c.pmu.grp.isNone && (domainsOf mask).any (fun d => !(c.pdOn d))) = true ∧
    meets awake 0x0802 [] (fun _ _ => true) = true ∧
    meets (withPort .up 6) 0x0803 [0, 0, 0, 0] (fun c r => (List.range 16).any (fun p => decide ((c.port p).st = .up)) && byteAt r.payload 0 % 2 == 0) = true ∧
    meets awake 0x0803 [0, 0, 0, 0] (fun c r => !((List.range 16).any (fun p => decide ((c.port p).st = .up))) &&
      !((c.saveShadow.conclude r (.done (.okR []))).mbx.held.any Completion.lowPower)) = true ∧
    meets (holding 64) 0x0803 [0, 0, 0, 0] (fun c r => !((List.range 16).any (fun p => decide ((c.port p).st = .up))) &&
      (c.saveShadow.conclude r (.done (.okR []))).mbx.held.any Completion.lowPower) = true ∧
    meets (withPort .up 6) 0x0803 [1, 0, 0, 0] (fun _ r => byteAt r.payload 0 % 2 == 1) = true := by decide +kernel

theorem witness_PowerCommands_wake : awake.admits .spindleA PMU_LP_CTRL.addr ∧ masterSpindle .spindleA ≠ 0 ∧ masterSpindle .spindleA = awake.dist.holder ∧
    getBits (0x4C500001#32) 16 16 = 0x4C50 ∧ getBits (0x4C500001#32) 0 1 = 1 ∧ awake.admits .spindleB PMU_LP_CTRL.addr ∧
    masterSpindle .spindleB ≠ awake.dist.holder ∧ getBits (0x4B570001#32) 16 16 = 0x4B57 ∧ getBits (0x4B570001#32) 0 1 = 1 ∧
    (asleep 0).admits .host PMU_WAKE_REQ.addr ∧ (asleep 3).chip.pmu.lowPower = true ∧ (asleep 3).chip.pmu.wakeLatched ≠ 0 ∧
    (asleep 3).chip.pmu.wakeLatched < 4 := by
  simp only [State.admits]; decide +kernel

theorem test_low_power : (after (.lowPowerEnter .spindleA 0x4C500001#32) awake).chip.pmu.lowPower = true ∧
    (after (.lowPowerEnter .spindleB 0x4C500001#32) awake).chip.pmu.lowPower = false := by decide +kernel

theorem test_wake : (after .lpWake (asleep 3)).chip.pmu.lowPower = false ∧ (after .lpWake (asleep 0)).chip.pmu.lowPower = true := by decide +kernel

/-- A sample of one reading at every sensor. -/
def sample (x : Option Int) : Vector (Option Int) 14 := Vector.ofFn (fun _ => x)

theorem witness_ThermalSamples : (let c := awake.chip.takeSample (sample (some 1249));
      (∀ i, i < 14 → c.sensorBroken i = false → c.judgeSensor i = 0) ∧ ∀ i, i < 14 → (c.validNow i).elim true (fun x => decide (x < 1250)) = true) ∧
    (let c := awake.chip.takeSample (sample (some 1250));
      (∀ i, i < 14 → c.sensorBroken i = false → c.judgeSensor i = 0) ∧ c.validNow 13 = some 1250) ∧ awake.chip.flag THM_STATUS.TRIP = false ∧
    meets awake 0x0901 [] (fun _ _ => true) = true := by decide +kernel

theorem test_trip : (after (.thermalSample (sample (some 1250))) awake).chip.flag THM_STATUS.TRIP = true ∧
    (after (.thermalSample (sample (some 1250))) awake).chip.pdOf 21 = .off := by decide +kernel

/-! ### Security, firmware and tests -/

/-- A part in PROBE with an owner key of 32 bytes 2, KEY_OK, and a nonce of 16 bytes 1. -/
def owned : State :=
  let s := on awake (fun c => { c.setFlag GRD_LC.KEY_OK true with sess := { c.sess with nonce := some (List.replicate 16 1#8) } })
  { s with fuse := { s.fuse with lifecycle := 1, ownerKey := some (List.replicate 32 2#8), digestOk := true } }

/-- HMAC-SHA256 with that key over the nonce, a unit identity of 0 and the lifecycle code 0 (calculated apart from the model). -/
def goodDigest : List Nat :=
  [212, 180, 10, 199, 190, 111, 252, 177, 246, 39, 194, 217, 217, 122, 209, 29, 131, 190, 163, 183, 255, 116, 47, 53, 24,
   151, 201, 230, 33, 69, 158, 74]

theorem witness_SessionAndGuard_good : meets owned 0x0B02 goodDigest (fun c r => c.authGood owned.fuse r.payload) = true := by decide +kernel

/-- An entry of KIND 0 at GLB for SEC commands: index, and words that are well formed or not. -/
def guardArgs (i k : Nat) : List Nat := [i, 0, 0, 0, 0, 0, 0, k, 4, 0, 0, 0, 0, 0, 0, 0]

theorem witness_SessionAndGuard : meets awake 0x0B01 [] (fun c _ => !c.flag GRD_SESSION.LOCKOUT) = true ∧
    meets (on awake (fun c => c.setFlag GRD_SESSION.LOCKOUT true)) 0x0B01 [] (fun c _ => c.flag GRD_SESSION.LOCKOUT) = true ∧
    meets awake 0x0B02 (List.replicate 32 0) (fun c r => !c.authGood awake.fuse r.payload) = true ∧
    meets awake 0x0B03 [] (fun _ _ => true) = true ∧
    meets awake 0x0B04 (guardArgs 64 0x80) (fun _ r => decide (63 < byteAt r.payload 0)) = true ∧
    meets awake 0x0B04 (guardArgs 63 0x83) (fun _ r => !guardFormed (arg32 r.payload 4) (arg32 r.payload 8) (arg32 r.payload 12)) = true ∧
    meets awake 0x0B04 (guardArgs 63 0x80) (fun _ r => decide (byteAt r.payload 0 ≤ 63) &&
      guardFormed (arg32 r.payload 4) (arg32 r.payload 8) (arg32 r.payload 12)) = true ∧
    meets awake 0x0B05 [63, 0, 0, 0] (fun _ _ => true) = true := by decide +kernel

theorem test_sec_auth : answer (on owned (fun c => c.setFld GRD_SESSION.LEVEL 0)) 0x0B02 goodDigest (.secAuth (.slot 0)) 1 = [0, 2] := by decide +kernel

theorem test_failed_auth : answer awake 0x0B02 (List.replicate 32 0) (.secAuth (.slot 0)) 0 = [2] ∧
    (after (.secAuth (.slot 0)) (postedAt 3 awake 0x0B02 (List.replicate 32 0))).chip.fld GRD_SESSION.FAIL_CNT = 1 := by decide +kernel

theorem test_lockout_end : (after .lockoutEnd (on awake (fun c => c.setFlag GRD_SESSION.LOCKOUT true))).chip.flag GRD_SESSION.LOCKOUT = false := by decide +kernel

/-- A part with a unit identity, or in another lifecycle state. -/
def unit (lc id : Nat) : State := { awake with fuse := { awake.fuse with lifecycle := lc, unitId := id } }

/-- LIFECYCLE_ADVANCE with its confirmation word. -/
def advanceArgs (target : Nat) : List Nat := [target, 0, 0, 0, 0x43, 0x59, 0x43, 0x4C]

theorem witness_LifecycleAndOwnerKey : meets (unit 0 5) 0x0B06 (advanceArgs 2) (fun _ r => decide (byteAt r.payload 0 ≠ (unit 0 5).fuse.lifecycle + 1)) = true ∧
    meetsAt 2 (unit 0 5) 0x0B06 (advanceArgs 1) (fun _ r => decide (byteAt r.payload 0 ≤ 2 ∧ r.level < 3 ∧ arg32 r.payload 4 = 0x4C435943)) = true ∧
    meets (unit 0 5) 0x0B06 (advanceArgs 1) (fun c r => decide (3 ≤ r.level) &&
      State.advanceReady { unit 0 5 with chip := c } (byteAt r.payload 0) && c.energyOk true) = true ∧
    meets (unit 3 5) 0x0B06 (advanceArgs 4) (fun c r => decide (2 < byteAt r.payload 0 ∧ byteAt r.payload 0 = (unit 3 5).fuse.lifecycle + 1) &&
      State.advanceReady { unit 3 5 with chip := c } (byteAt r.payload 0) && c.energyOk true) = true ∧
    meets (unit 0 5) 0x0B07 (List.replicate 32 7) (fun _ _ => true) = true ∧ (unit 0 5).fuse.lifecycle ≠ 1 ∧
    meets (unit 1 5) 0x0B07 (List.replicate 32 7) (fun c _ => c.energyOk true) = true ∧ (unit 1 5).fuse.ownerKey = none ∧
    (on awake (fun c => { c with start := { c.start with returning := true } })).chip.start.returning = true := by decide +kernel

theorem test_lifecycle_advance : (after (.lifecycleAdvance (.slot 0) true) (postedAt 3 (unit 0 5) 0x0B06 (advanceArgs 1))).fuse.lifecycle = 1 ∧
    answer (unit 0 5) 0x0B06 (advanceArgs 2) (.lifecycleAdvance (.slot 0) true) 0 = [3] := by decide +kernel

/-- A transfer under way, with its first bytes. -/
def transfer (x : Transfer) : State := on awake (fun c => { c with spn := { c.spn with xfer := some x } })

/-- A good image of 4352 bytes as the transfer has received it. -/
def wholeImage : List Byte := goodImage.bytes ++ zeros 4326

/-- A part whose flash holds a newer image in the slot that the holder does not run. -/
def newer : State := on standbyB (fun c => { c with flash := { c.flash with imgB := some goodImage } })

theorem witness_FirmwareCommands : meets awake 0x0C01 [255, 15, 0, 0] (fun _ r => decide (arg32 r.payload 0 < 4096)) = true ∧
    meets awake 0x0C01 [0, 16, 0, 0] (fun c r => decide (4096 ≤ arg32 r.payload 0) && !c.waitsHost && !c.updating && c.flash.present) = true ∧
    meets awake 0x0C02 [0, 0, 0, 0, 1] (fun c _ => c.spn.xfer.isNone) = true ∧
    meets (transfer ⟨4096, [], 1⟩) 0x0C02 [1, 0, 0, 0, 1] (fun c r => c.spn.xfer.isSome && arg32 r.payload 0 != 0) = true ∧
    meets (transfer ⟨4096, [], 1⟩) 0x0C02 [0, 0, 0, 0, 1] (fun c r => match c.spn.xfer with
      | some x => decide (arg32 r.payload 0 = x.bytes.length ∧ x.bytes.length + (r.payload.length - 4) ≤ x.length ∧ x.slot ≠ 2)
      | none => false) = true ∧
    meets awake 0x0C03 [] (fun c _ => c.spn.xfer.isNone) = true ∧
    meets (transfer ⟨4096, [], 1⟩) 0x0C03 [] (fun c _ => match c.spn.xfer with
      | some x => decide (State.imageReason { awake with chip := c } ⟨x.bytes, true⟩ ≠ 0 ∧ x.slot ≠ 2)
      | none => false) = true ∧
    meets awake 0x0C04 [] (fun c _ => !(State.canActivate { awake with chip := c })) = true ∧
    meets newer 0x0C04 [] (fun c _ => State.canActivate { newer with chip := c }) = true ∧
    meets awake 0x0C05 [] (fun c _ => c.flash.present) = true := by decide +kernel

theorem wholeImage_length : wholeImage.length = 4352 := by
  unfold wholeImage zeros; rw [List.length_append, List.length_replicate]; rfl

theorem witness_FirmwareCommands_end : State.imageReason awake ⟨wholeImage, true⟩ = 0 := by
  unfold State.imageReason
  have h : Image.headerOk ⟨wholeImage, true⟩ awake.fuse.unitId awake.endConsent = true := by decide +kernel
  have l : Image.length ⟨wholeImage, true⟩ = 4352 := by decide +kernel
  rw [h, l]; simp only [wholeImage_length]; decide

theorem test_fw_image_begin : answer awake 0x0C01 [255, 15, 0, 0] (.fwImageBegin (.slot 0)) 0 = [3] ∧
    answer awake 0x0C02 [0, 0, 0, 0, 1] (.fwImageData (.slot 0)) 0 = [4] := by decide +kernel

theorem test_fw_activate : (after (.fwActivate (.slot 0)) (postedAt 3 newer 0x0C04 [])).chip.spn.update = some ⟨1, 0, 1, .syncing⟩ := by decide +kernel

theorem witness_TestCommands : meets awake 0x0D01 [9, 0, 0, 0] (fun c r =>
      (State.doffStatus { awake with chip := c } (byteAt r.payload 0) (byteAt r.payload 1) (byteAt r.payload 2)).isSome) = true ∧
    meets awake 0x0D01 [0, 8, 0, 0] (fun c r =>
      (State.doffStatus { awake with chip := c } (byteAt r.payload 0) (byteAt r.payload 1) (byteAt r.payload 2)).isNone) = true ∧
    meets (on awake (fun c => c.setPd 15 .off)) 0x0D01 [0, 8, 1, 0] (fun c r => let b := byteAt r.payload
      (State.doffStatus { awake with chip := c } (b 0) (b 1) (b 2)).isNone && decide (b 0 = 0 ∧ b 2 ≤ 1) && !c.pdOn (7 + b 1)) = true ∧
    meets awake 0x0D02 [2, 0, 0, 0, 0, 0, 0, 0] (fun _ r => decide (1 < byteAt r.payload 0)) = true ∧
    meets awake 0x0D02 [1, 0, 0, 0, 0, 0, 0, 0] (fun c r => decide (byteAt r.payload 0 ≤ 1) && capOk (arg32 r.payload 4) 4096 && c.flash.present &&
      c.pdOn 19) = true ∧
    meets awake 0x0D03 [0, 15, 0, 0] (fun c r => !c.claimedLane (byteAt r.payload 0) (byteAt r.payload 1)) = true ∧
    meets (on awake (fun c => c.setClaim 1 8 true)) 0x0D03 [1, 8, 0, 0] (fun c r => c.claimedLane (byteAt r.payload 0) (byteAt r.payload 1)) = true ∧
    meets awake 0x0D03 [0, 15, 1, 0] (fun c r => let b := byteAt r.payload
      (c.claimStatus (b 0) (b 1)).isNone && !c.claimedLane (b 0) (b 1) && c.pdOn (laneDomain (b 0) (b 1))) = true ∧
    meets (withPort .ready 6) 0x0D03 [0, 0, 1, 0] (fun c r => (c.claimStatus (byteAt r.payload 0) (byteAt r.payload 1)).isSome) = true ∧
    meets awake 0x0D03 [0, 15, 2, 0] (fun _ r => decide (1 < byteAt r.payload 2)) = true ∧
    (let s := on awake (fun c => { c.setFlag GRD_DOFF_STATUS.RUNNING true with pmu := { c.pmu with entering := true } })
     s.chip.pmu.entering = true ∧ s.chip.flag GRD_DOFF_STATUS.RUNNING = true) := by decide +kernel

theorem test_doff_run : answer awake 0x0D01 [9, 0, 0, 0] (.doffRun (.slot 0) none) 0 = [3] ∧
    answer awake 0x0D01 [4, 0, 0, 0] (.doffRun (.slot 0) (some (0x20, 5))) 9 = [0, 1, 0, 0, 0, 0x20, 0, 0, 0, 5] := by decide +kernel

theorem test_test_lane : (after (.testLane (.slot 0)) (postedAt 3 awake 0x0D03 [0, 15, 1, 0])).chip.claimedLane 0 15 = true ∧
    answer (withPort .ready 6) 0x0D03 [0, 0, 1, 0] (.testLane (.slot 0)) 0 = [7] := by decide +kernel

/-! ### Fleyth -/

/-- A part with Fleyth port `p` enabled and its link up. -/
def linked (p : Nat) : State := on awake (fun c => (c.setFldBit FLY_PORT_CFG.EN p true).setFldBit FLY_PORT_STATUS.LINK_UP p true)

/-- A manager with an address. -/
def manager : State := on awake (fun c => (c.setFlag GLB_STRAPS.MGR_SEL true).setFlag FLY_STATUS.ADDR_VALID true)

/-- `s` with the network's state changed. -/
def flyWith (s : State) (f : Fly → Fly) : State := on s (fun c => { c with fly := f c.fly })

/-- A worker's request. -/
def flyReq0 : FlyReq := ⟨5, 1, 3, 100, 0x0103, [], true, false⟩

/-- The worker with address 5, its sideband port 1 enabled and up. -/
def worker : State := on (linked 1) (fun c => (c.setFlag FLY_STATUS.ADDR_VALID true).setFld FLY_STATUS.ADDR 5)

/-- The manager with its sideband port 1 enabled and up. -/
def managing : State := on (linked 1) (fun c => (c.setFlag GLB_STRAPS.MGR_SEL true).setFlag FLY_STATUS.ADDR_VALID true)

/-- A REQUEST of SYS_TIME for address 5, and a NOTIFY for the manager. -/
def requestMsg : FlyMsg := { typ := 0, dst := 5, src := 0, tag := 7, priv := 2, body := leBytes 4 100 ++ leBytes 2 0x0103 ++ leBytes 2 0 }
def notifyMsg : FlyMsg := { typ := 6, dst := 0, src := 9, body := [1, 3] }

/-- The code groups of a message's transmission. -/
def onPair (m : FlyMsg) : List (BitVec 10) := (encGroups false (messageChars (m.bytes, false))).1

theorem witness_FleythLinks : State.reset.chip.flyWorks 1 = false ∧ (linked 1).chip.flyWorks 1 = true ∧
    (let s := on (linked 1) (fun c => c.flyMod 1 (fun x => { x with outq := [([1#8], false)] }))
     (s.chip.flyPort 1).sendWake = false ∧ (s.chip.flyPort 1).outq = ([1#8], false) :: [] ∧ s.chip.flyWorks 1 = true) ∧
    (linked 0).chip.flyWorks 0 = true ∧
    (let s := flyWith awake (fun x => { x with reqs := List.replicate 8 flyReq0 })
     7 < s.chip.fly.reqs.length ∧ s.chip.firstPosted = none ∧ ∀ q ∈ s.chip.fly.reqs, (cmdRow q.opcode).isSome = true) ∧
    awake.chip.fly.reqs.length ≤ 0 ∧
    (flyWith manager (fun x => { x with notes := [(5, 1, 9)] })).chip.fly.notes = (5, 1, 9) :: [] ∧ manager.chip.isManager = true ∧
    (let s := on (asleep 0) (fun c => { c with pmu := { c.pmu with wakeCfg := 0x200 } })
     s.chip.pmu.lowPower = true ∧ bit s.chip.pmu.wakeCfg 9 = true) ∧ awake.chip.pmu.lowPower = false ∧ awake.chip.pmu.entering = false := by decide +kernel

theorem witness_FleythLinks_message : messageHeard false (heardChars [0x0FA#10, 0x3A8#10]) = none ∧
    messageHeard false (heardChars (onPair requestMsg)) = some (requestMsg.bytes, true) ∧
    parseFly requestMsg.bytes = some requestMsg ∧ worker.chip.flyAddr = some 5 ∧ worker.chip.isManager = false ∧
    worker.chip.fly.reqs.length < 8 ∧ worker.chip.firstPosted = none ∧ (cmdRow (leAt requestMsg.body 4 2)).isSome = true ∧
    parseFly (requestMsg.bytes.drop 1) = none ∧
    messageHeard false (heardChars (onPair notifyMsg)) = some (notifyMsg.bytes, true) ∧
    parseFly notifyMsg.bytes = some notifyMsg ∧ managing.chip.flyAddr = some 0 ∧ managing.chip.isManager = true := by decide +kernel

/-- K28.5 and its inverse, SOM, EOM, D21.5 and the other block of 7 in D17.7, as IEEE 802.3 Clause 36 prints them. -/
theorem test_code_groups : (encGroup false .comma).1 = 0b0011111010#10 ∧ (encGroup true .comma).1 = 0b1100000101#10 ∧
    (encGroup false .som).1 = 0b1101101000#10 ∧ (encGroup false .eom).1 = 0b1011101000#10 ∧
    (encGroup false (.data 0xB5#8)).1 = 0b1010101010#10 ∧ (encGroup false (.data 0xF1#8)).1 = 0b1000110111#10 := by decide +kernel

theorem test_request_in : ((after (.flyMessage (.sideband 1 (onPair requestMsg))) worker).chip.fly.reqs.map (fun q => (q.src, q.tag, q.opcode))) = [(0, 7, 0x0103)] ∧
    (after (.flyMessage (.sideband 1 (onPair notifyMsg))) managing).chip.fly.notes = [(9, 1, 3)] := by decide +kernel

theorem test_link_down : (after (.linkDown 1) (linked 1)).chip.flyUp 1 = false ∧ (after (.linkDown 0) (linked 1)).chip.flyUp 1 = true := by decide +kernel

theorem test_wake_activity : (after (.wakeActivity (.port 9)) (on (asleep 0) (fun c => { c with pmu := { c.pmu with wakeCfg := 0x200 } }))).chip.pmu.wakeLatched = 1 ∧
    (after (.wakeActivity (.port 9)) awake).chip.pmu.wakeLatched = 0 := by decide +kernel

/-- FLY_REQUEST to address 1 with a time limit of 10 and an inner command of no payload. -/
def requestArgs (addr timeout : Nat) : List Nat := [addr, 0, 0, 0, timeout, 0, 0, 0, 3, 1, 0, 0]

/-- A discovery of node 0 with nothing left to probe. -/
def lastProbe : Disc := ⟨10, [], 0, [], [], [], 0, 0, .clear⟩

theorem witness_FleythCommands : meets manager 0x0A01 [9, 0, 0, 0] (fun _ r => decide (arg32 r.payload 0 < 10)) = true ∧
    meets awake 0x0A01 [10, 0, 0, 0] (fun c r => decide (10 ≤ arg32 r.payload 0) && !c.isManager) = true ∧
    meets (flyWith manager (fun x => { x with disc := some lastProbe })) 0x0A01 [0x80, 0x96, 0x98, 0] (fun c r => c.isManager && c.pdOn 21 &&
      c.fly.disc.isSome && decide (arg32 r.payload 0 = 10000000)) = true ∧
    meets manager 0x0A01 [10, 0, 0, 0] (fun c _ => c.isManager && c.pdOn 21 && c.fly.disc.isNone) = true ∧
    meets manager 0x0A02 (requestArgs 0 10) (fun _ r => decide (arg32 r.payload 0 = 0)) = true ∧
    meets awake 0x0A02 (requestArgs 1 10) (fun c r => let w := arg32 r.payload
      decide (0 < w 0 ∧ w 0 < 0x100000 ∧ 10 ≤ w 4 ∧ w 4 ≤ 10000000 ∧ arg16 r.payload 10 ≤ 228 ∧ arg16 r.payload 10 + 12 = r.payload.length) &&
        !c.isManager) = true ∧
    meets manager 0x0A02 (requestArgs 1 10) (fun c r => let w := arg32 r.payload
      decide (0 < w 0 ∧ w 0 < 0x100000 ∧ 10 ≤ w 4 ∧ w 4 ≤ 10000000 ∧ arg16 r.payload 10 ≤ 228 ∧ arg16 r.payload 10 + 12 = r.payload.length) &&
        c.isManager && c.flyAddr.isSome && c.pdOn 21 && c.fly.disc.isNone) = true ∧
    meets awake 0x0A03 [3, 255, 0, 0] (fun c _ => c.pdOn 21) = true ∧
    meets awake 0x0A04 [1, 0, 0, 0, 16, 0, 0, 0] (fun _ r => !(capOk (arg32 r.payload 0) (arg32 r.payload 4))) = true ∧
    meets manager 0x0A04 [0, 0, 0, 0, 16, 0, 0, 0] (fun c r => capOk (arg32 r.payload 0) (arg32 r.payload 4) && c.isManager && c.pdOn 19) = true ∧
    (let s := flyWith manager (fun x => { x with disc := some lastProbe })
     s.chip.fly.disc = some lastProbe ∧ lastProbe.ports = [] ∧ lastProbe.found = [] ∧ lastProbe.toAssign = [] ∧ lastProbe.queue = []) ∧
    manager.chip.fly.disc = none ∧
    (let s := flyWith managing (fun x => { x with disc := some { lastProbe with ports := [1, 2] } })
     s.chip.fly.disc = some { lastProbe with ports := [1, 2] } ∧ s.chip.flyUp 1 = true) := by decide +kernel

theorem test_discovery_probes : (after .discoveryTimeout (flyWith managing (fun x => { x with disc := some { lastProbe with ports := [0, 1, 2] } }))).chip.fly.disc =
    some { lastProbe with ports := [2], wait := .probe 1 } := by decide +kernel

/-- A worker with a request of FLY_REQUEST in its queue. -/
def nested : State :=
  on awake (fun c => { c.setFld FLY_PORT_CFG.PRIV_CAP 3 with
    fly := { c.fly with reqs := [⟨5, 1, 3, 100, 0x0A02, (requestArgs 1 10).map (BitVec.ofNat 8), true, false⟩] }, mbx := { c.mbx with queue := [.fleyth] } })

theorem witness_FleythCommands_nested : (nested.chip.accept (.fleyth 0) 0x0A02).2.isSome = true := by decide +kernel

theorem test_fly_discover : answer awake 0x0A01 [10, 0, 0, 0] (.flyDiscover (.slot 0)) 0 = [4] ∧
    (after (.flyDiscover (.slot 0)) (postedAt 3 manager 0x0A01 [10, 0, 0, 0])).chip.fld FLY_EPOCH.EPOCH = 1 := by decide +kernel

theorem test_fly_request_bad_arg : answer manager 0x0A02 (requestArgs 0 10) (.flyRequest (.slot 0)) 0 = [3] := by decide +kernel

/-! ### Events -/

/-- A part whose host consumer takes every source. -/
def unmasked : State := on awake (fun c => { c with evt := { c.evt with cons := c.evt.cons.map (fun x => { x with mask := 0 }) } })

theorem witness_MessagesReachConsumers : srcKind 0x1FF = .pulse ∧ awake.chip.evt.halted = false ∧ bit512 awake.chip.evt.cons[0].mask 0x1FF = true ∧
    bit512 unmasked.chip.evt.cons[0].mask 0x1FF = false ∧ ((unmasked.chip.evt.cons[0].skeins.toList[0]?).getD ({} : Skein)).used < 32 ∧
    srcKind 55 = .reserved ∧ srcKind 0 = .level ∧ bit512 (on awake (fun c => c.setLevel 0 true 0)).chip.evt.live 0 = true ∧
    awake.admits .host 0x020000 ∧ awake.chip.masterLevel .host = 3 ∧ getBits (0x1FF#32) 0 9 = 0x1FF ∧
    (atLevel 2).admits .host 0x020000 ∧ (atLevel 2).chip.masterLevel .host ≠ 3 := by
  simp only [State.admits]; decide +kernel

theorem test_event_pends : bit512 (after (.eventMessage [(0x1FF, 5#48)]) awake).chip.evt.cons[0].pend 0x1FF = true ∧
    bit512 (after (.eventMessage [(0x1FF, 5#48)]) unmasked).chip.evt.cons[0].pend 0x1FF = false := by decide +kernel

theorem test_evt_doorbell : (after (.evtDoorbell .host 0x1DF#32) (atLevel 2)).chip.evt.dbErr = 1 ∧
    bit512 (after (.evtDoorbell .host 0x1FF#32) (atLevel 2)).chip.evt.cons[0].pend 0x1FF = true := by decide +kernel

/-- The host's consumer with a record waiting in its top skein. -/
def waiting15 : State :=
  on awake (fun c => { c with evt := { c.evt with cons := c.evt.cons.map (fun x => { x with skeins := x.skeins.set 15 { head := 31, waiting := 1 } }) } })

theorem witness_ConsumerAccesses : ownConsumer .host = some 0 ∧ awake.readsAndClears .host (consBase 0) ∧ awake.chip.evt.cons[0].claimable = none ∧
    waiting15.readsAndClears .host (consBase 0) ∧ waiting15.chip.evt.cons[0].claimable = some 15 ∧ ownConsumer .spindleA ≠ some 0 ∧
    awake.admitsRead .spindleA (consBase 0) ∧ awake.admits .host (consBase 0 + 0x004) ∧ getBits (15#32) 0 4 = 15 ∧
    awake.admits .host (consBase 0 + (0x180 + 4 * 15)) ∧ awake.admits .host (consBase 0 + (0x240 + 4 * 15)) ∧
    awake.admits .host (consBase 0 + (0x340 + 4 * 15)) ∧ wordSources 15 0x80000000#32 = [511] ∧ bit512 awake.chip.evt.cons[0].mask 511 = true ∧
    wordSources 0 (BitVec.ofNat 32 (2 ^ 0)) = [0] ∧ awake.admitsRead .host 0x020008 := by
  simp only [State.admits, State.admitsRead, State.readsAndClears]; decide +kernel

theorem test_claim_record : (after (.evtClaim .host 0) waiting15).chip.evt.cons[0].skeins[15] = { head := 0, waiting := 0, held := some 31 } := by decide +kernel

theorem test_eoi : (after (.evtEoi .host 0 15#32) (after (.evtClaim .host 0) waiting15)).chip.evt.cons[0].skeins[15].held = none := by decide +kernel

/-! ### ECC and DMA -/

/-- The checker pointed at granule `i` of the capture memory's first SRAM, or at no SRAM. -/
def tester (sram i : Nat) : State := on awake (fun c => (c.setFld ECC_TEST_ADDR.SRAM sram).setFld ECC_TEST_ADDR.GRANULE i)

theorem witness_EccCommands : awake.chip.fld (ECC_BUCKET_CFG.LEAK 2) ≠ 0 ∧
    (on awake (fun c => c.setFld (ECC_BUCKET_CFG.LEAK 2) 0)).chip.fld (ECC_BUCKET_CFG.LEAK 2) = 0 ∧ awake.admits .host ECC_LOG_FREE.addr ∧
    (tester 127 0).admits .host ECC_TEST_CTRL.addr ∧ (tester 127 0).chip.testTarget = none ∧ getBits (1#32) 0 1 = 1 ∧ getBits (1#32) 1 1 = 0 ∧
    (tester 62 0).admits .host ECC_TEST_CTRL.addr ∧ (tester 62 0).chip.testTarget = some (.capture, 0) ∧
    (tester 62 0).chip.commitOk .capture 0 = true ∧
    (on (tester 62 0) (fun c => c.setPd 19 .off)).chip.commitOk .capture 0 = false ∧ getBits (2#32) 0 1 = 0 ∧ getBits (2#32) 1 1 = 1 ∧
    (let s := on (tester 62 0) (fun c => { c with valid := [(MemId.capture.key 0, true)] })
     s.chip.granValid .capture 0 = true ∧ tabGet (fun _ => 0) s.chip.flips (MemId.capture.key 0) = 0 ∧ s.chip.pdOn 19 = true) ∧
    (on awake (fun c => c.setFlag ECC_SCRUB_CFG.DIS true)).chip.flag ECC_SCRUB_CFG.DIS = true ∧ awake.chip.flag ECC_SCRUB_CFG.DIS = false ∧
    (let s := on awake (fun c => { c with ecc := { c.ecc with scrubAt := 1000000000 } })
     s.chip.nextScrub s.chip.ecc.scrubAt = none ∧ s.chip.ecc.scrubAt ≠ 0) ∧
    awake.chip.nextScrub awake.chip.ecc.scrubAt = some 33554432 ∧
    tabGet (fun _ => 0) awake.chip.flips ((scrubTarget 33554432).1.key (scrubTarget 33554432).2) = 0 := by
  simp only [State.admits]; decide +kernel

theorem test_commit_rejected : (after (.commit .host 1#32) (tester 127 0)).chip.flag ECC_TEST_CTRL.REJ = true ∧
    (after (.commit .host 1#32) (tester 62 0)).chip.flag ECC_TEST_CTRL.REJ = false := by decide +kernel

/-- DMA channel 15 set up for capture memory to capture memory, in a state. -/
def dma15 (st cnt req : Nat) : State :=
  on awake (fun c => ((((c.setFld (DMA_STATUS.STATE 15) st).setFld (DMA_CNT.CNT 15) cnt).setFld (DMA_CFG.REQ 15) req).setFld
    (DMA_SRC.ADDR 15) MemId.capture.base).setFld (DMA_DST.ADDR 15) (MemId.capture.base + 0x1000))

/-- The channel with its hidden state changed. -/
def dmaWith (s : State) (f : DmaCh → DmaCh) : State := on s (fun c => c.dmaMod 15 f)

theorem witness_DmaRequests : (dma15 dmaIdle 1 63).admits .host (DMA_CTRL.addr 15) ∧ getBits (1#32) 2 1 = 0 ∧ getBits (1#32) 0 1 = 1 ∧
    getBits (1#32) 1 1 = 0 ∧ (dma15 dmaBusy 1 63).chip.dmaRuns 15 = true ∧ (dma15 dmaIdle 1 63).chip.dmaRuns 15 = false ∧
    (dma15 dmaIdle 1 63).chip.dmaCheck 15 = none ∧ (dma15 dmaIdle 0 63).chip.dmaCheck 15 = some .badCfg ∧ getBits (2#32) 0 1 = 0 ∧
    getBits (2#32) 1 1 = 1 ∧ awake.chip.pdOn 19 = true ∧ dmaLineReserved 32 = false ∧ (dma15 dmaWait 1 32).chip.fld (DMA_CFG.REQ 15) = 32 ∧
    (dma15 dmaWait 1 47).admits .host DMA_SWREQ.addr ∧ (128#32).toNat = 2 ^ 7 ∧ (dma15 dmaWait 1 47).chip.fld (DMA_CFG.REQ 15) = 40 + 7 ∧
    (dma15 dmaWait 1 47).chip.fld (DMA_STATUS.STATE 15) = dmaWait ∧ (dma15 dmaBusy 1 47).chip.fld (DMA_STATUS.STATE 15) = dmaBusy ∧
    ((dmaWith (dma15 dmaBusy 1 47) (fun x => { x with held := true })).chip.dmaCh 15).held = true := by
  simp only [State.admits]; decide +kernel

theorem test_dma_start : (after (.start .host 15 1#32) (dma15 dmaIdle 1 63)).chip.fld (DMA_STATUS.STATE 15) = 2 ∧
    (after (.start .host 15 1#32) (dma15 dmaIdle 0 63)).chip.fld (DMA_STATUS.ERR 15) = 5 := by decide +kernel

theorem test_dma_abort : (after (.abort .host 15 2#32) (dma15 dmaBusy 1 63)).chip.fld (DMA_STATUS.ERR 15) = 6 := by decide +kernel

theorem witness_DmaBeats : awake.chip.pdOn 19 = true ∧ awake.chip.dmaPick = none ∧
    (let s := on (dma15 dmaBusy 1 63) (fun c => { c with valid := [(MemId.capture.key 0, true)] })
     s.chip.dmaPick = some (0, 15) ∧ s.chip.dmaReads 15 = true ∧ s.chip.fld (DMA_CFG.XFORM 15) = 0 ∧ (s.chip.dmaCh 15).wr < s.chip.fld (DMA_CNT.CNT 15) ∧
       windowMem (s.chip.dmaAddr 15 (s.chip.fld (DMA_SRC.ADDR 15)) (s.chip.flag (DMA_CFG.SRC_FIX 15)) (s.chip.dmaCh 15).rd) = some (.capture, 8 * 0) ∧
       s.chip.granValid .capture 0 = true ∧ tabGet (fun _ => 0) s.chip.flips (MemId.capture.key 0) = 0 ∧
       s.chip.checkAccess (s.chip.dmaCh 15).level MemId.capture.base 32 false = none) ∧
    (let s := dmaWith (dma15 dmaBusy 1 63) (fun x => { x with level := 3 })
     (s.chip.checkAccess (s.chip.dmaCh 15).level MemId.capture.base 32 false).isSome = true) ∧
    (let s := dmaWith (dma15 dmaBusy 1 63) (fun x => { x with level := 3, rd := 1, staged := [7#64] })
     s.chip.dmaPick = some (0, 15) ∧ s.chip.dmaReads 15 = false ∧ (s.chip.dmaCh 15).staged = 7#64 :: [] ∧
       windowMem (s.chip.dmaAddr 15 (s.chip.fld (DMA_DST.ADDR 15)) (s.chip.flag (DMA_CFG.DST_FIX 15)) (s.chip.dmaCh 15).wr) = some (.capture, 8 * 0x200) ∧
       (s.chip.checkAccess (s.chip.dmaCh 15).level (MemId.capture.base + 0x1000) 32 true).isSome = true ∧ s.chip.flag (DMA_CTRL.COMMIT 15) = false) := by
  decide +kernel

theorem test_dma_writes : (let t := after .dmaBeat (dmaWith (dma15 dmaBusy 1 63) (fun x => { x with level := 3, rd := 1, staged := [7#64] }))
    t.chip.byte (MemId.capture.base + 0x1000) = 7#8 ∧ t.chip.fld (DMA_STATUS.STATE 15) = 3) := by decide +kernel

theorem witness_BitPlaneReshuffle : (List.replicate 40 (5 : BitVec 64)).length = 40 := rfl

theorem test_bit_planes : (xform 2 (1#64 :: List.replicate 39 0#64)).getD 0 0 = 1#64 ∧ (xform 2 (2#64 :: List.replicate 39 0#64)).getD 1 0 = 1#64 := by
  decide +kernel

/-! ### Housekeeping -/

/-- The converter enabled, its lists as given. -/
def converter (conv : Bool) (scan urg : HkaList) : State :=
  on awake (fun c => let c := (c.setFlag HKA_CTRL.EN true).setFlag HKA_STATUS.CONV conv
    { c with hka := { c.hka with scan := scan, urg := urg, convUrg := true } })

theorem witness_ConverterLists : awake.admits .host HKA_SWTRIG.addr ∧ awake.chip.flag HKA_CTRL.EN = false ∧ (getBits (2#32) 1 1 = 1 ∧ getBits (2#32) 0 1 = 0) ∧
    (let s := converter false {} {}
     s.admits .host HKA_SWTRIG.addr ∧ s.chip.flag HKA_CTRL.EN = true ∧ (s.chip.hkList true).delaying = false ∧ (s.chip.hkList true).waiting = false ∧
       (s.chip.hkList true).running = false ∧ s.chip.pdOn 20 = true) ∧
    (converter false {} { running := true }).chip.hkList true = { running := true } ∧
    (let s := on (converter false {} {}) (fun c => c.setReg HKA_URG_TRIG.addr 0x101#32)
     getBits (s.chip.hkTrig true) 0 3 = 1) ∧
    (let s := on (converter false {} {}) (fun c => c.setReg HKA_URG_TRIG.addr 0x103#32)
     getBits (s.chip.hkTrig true) 0 3 = 3 ∧ bit (getBits (s.chip.hkTrig true) 8 2) 0 = true) ∧
    ((converter true {} { delaying := true }).chip.hkList true).delaying = true ∧ (converter true {} {}).chip.flag HKA_STATUS.CONV = true ∧
    (let s := converter false {} { delaying := true }
     s.chip.flag HKA_STATUS.CONV = false ∧ (s.chip.hkList false).waiting = false ∧ (s.chip.hkList false).running = false ∧
       getBits (s.chip.reg (HKA_URG_ENTRY.addr 0)) 0 5 ≤ 21) := by
  simp only [State.admits]; decide +kernel

/-- The urgent list at its first of two conversions of channel 21. -/
def atWork : State := converter true {} { running := true, ents := [BitVec.ofNat 32 (21 + 0x100)] }

theorem witness_ConverterLists_conversion : atWork.chip.hka.convUrg = true ∧ (atWork.chip.hkList true).running = true ∧
    (atWork.chip.hkList true).waiting = false ∧ (atWork.chip.hkList false).running = false ∧
    getBits ((atWork.chip.hkList true).ents.getD (atWork.chip.hkList true).idx 0) 0 5 = 21 ∧
    (atWork.chip.hkList true).done + 1 < entryConvs ((atWork.chip.hkList true).ents.getD (atWork.chip.hkList true).idx 0) ∧
    ((converter true {} {}).chip.hkList true).running = false ∧ (converter true {} {}).admits .host HKA_CTRL.addr ∧ getBits (0#32) 0 1 = 0 := by
  simp only [State.admits]; decide +kernel

/-- The die at 25 °C, whose code spec/17 gives: 1500 and 8 to each degree (R404). -/
theorem test_conversion : ((after (.conversionDone 25000) atWork).chip.hkList true).sum = 1700 ∧
    ((after (.conversionDone 25000) atWork).chip.hkList true).done = 1 ∧ hkCodeOf 17 1250000 = 4095 ∧ hkCodeOf 16 1250000 = 2048 := by decide +kernel

theorem test_trigger : ((after (.hkaSwtrig .host 2#32) (converter false {} {})).chip.hkList true).delaying = true ∧
    (after (.hkaSwtrig .host 2#32) (converter false {} { running := true })).chip.flag HKA_STATUS.URG_OVR = true := by decide +kernel

/-- PWM channel 3 running. -/
def pwm3 (duty : Nat) : State :=
  on awake (fun c => { c.setFlag (HKA_PWM_CFG.EN 3) true with hka := { c.hka with pwm := c.hka.pwm.set 3 ⟨100, duty, true⟩ } })

theorem witness_ConverterLists_pwm : (pwm3 100).chip.pwmRuns 3 = true ∧ (pwm3 100).chip.hka.pwm[3].duty ≤ (pwm3 100).chip.hka.pwm[3].period ∧
    awake.chip.pwmRuns 3 = false ∧ awake.admits .host (HKA_PWM_CFG.addr 3) ∧ awake.chip.flag (HKA_PWM_CFG.EN 3) = false ∧ getBits (1#32) 0 1 = 1 := by
  simp only [State.admits]; decide +kernel

theorem test_pwm_compare : (after (.pwmCompare 3) (pwm3 100)).chip.fld (HKA_PWM_CNT.CNT 3) = 100 ∧
    (after (.pwmPeriodStart 3) (pwm3 100)).chip.fld (HKA_PWM_CNT.CNT 3) = 0 := by decide +kernel

/-- Filter channel 30 enabled, with the longest blocks. -/
def filter30 : State := on awake (fun c => (c.setFlag (FLT_CFG.EN 30) true).setFld (FLT_CFG.DEC 30) 12)

theorem witness_FilterChannels : awake.chip.flag (FLT_CFG.EN 30) = false ∧ (filter30.chip.pdOn 20 = true ∧ filter30.chip.flag (FLT_CFG.EN 30) = true ∧
      filter30.chip.pdOn (7 + (30 - 22)) = true ∧ filter30.chip.flag (FLT_CARDED.VALID 30) = false) ∧
    (on filter30 (fun c => c.setPd 15 .off)).chip.pdOn (7 + (30 - 22)) = false ∧ awake.admits .host FLT_RESTART.addr ∧ (0x40000000#32).getLsbD 30 = true ∧
    awake.admits .host (FLT_CFG.addr 30) ∧ meets awake 0x0E01 [] (fun _ _ => true) = true ∧
    meets awake 0x0E02 [22, 1, 0, 0, 0, 0, 0, 0] (fun _ r => decide (21 < byteAt r.payload 0)) = true ∧
    meets awake 0x0E02 [21, 1, 0, 0, 255, 255, 255, 255] (fun c r => decide (byteAt r.payload 0 = 21 ∧ arg16 r.payload 4 ≤ arg16 r.payload 6) && c.pdOn 20) = true := by
  simp only [State.admits]; decide +kernel

theorem test_carded_mean : (after (.filterInput 30 9#16) (after (.filterInput 30 4#16) filter30)).chip.fld (FLT_CARDED.VALUE 30) = 6 ∧
    (after (.filterInput 30 4#16) awake).chip.flag (FLT_CARDED.VALID 30) = false := by decide +kernel

/-! ### Counters and patterns -/

theorem witness_CountersAndMeters : awake.admits .host CNT_FREEZE.addr ∧ getBits (1#32) 0 1 = 1 ∧ (getBits (2#32) 0 1 = 0 ∧ getBits (2#32) 1 1 = 1) ∧
    awake.admitsRead .host (cntAddr 255) ∧ awake.admits .host (cntAddr 255) ∧ awake.admits .host (cntAddr 255 + 8) ∧ awake.chip.pdOn 19 = true ∧
    (on awake (fun c => c.setFlag CNT_BW_CFG.EN true)).chip.flag CNT_BW_CFG.EN = true ∧ awake.admits .host CNT_BW_CFG.addr := by
  simp only [State.admits, State.admitsRead]; decide +kernel

/-- Counter 255 at a value. -/
def counting (n : Nat) : State := on awake (fun c => { c with cnt := { c.cnt with count := [(255, n)] } })

theorem test_counter_read : (after (.cntLo .host 255) (counting (2 ^ 40 + 7))).chip.cnt.get 255 = 0 ∧
    (after (.cntLo .host 255) (counting (2 ^ 40 + 7))).chip.answers[0] = ⟨false, 7#32⟩ := by decide +kernel

theorem test_meter : (after (.bwWindow [160] []) (on awake (fun c => c.setFlag CNT_BW_CFG.EN true))).chip.reg (CNT_BW_RX.addr 0) = 10#32 := by decide +kernel

theorem witness_PatternLanes : awake.admits .host (genAddr (.host 15)) ∧ getBits (5#32) 0 1 = 1 ∧ awake.chip.genFree (.host 15) = true ∧
    awake.chip.codeOk (.host 15) (getBits (5#32) 1 2) = true ∧ awake.chip.genFree (.line 8) = false ∧ awake.admits .host (genAddr (.line 8)) ∧
    awake.chip.codeOk (.host 15) (getBits (7#32) 1 2) = false ∧ getBits (16#32) 0 1 = 0 ∧ awake.chip.laneOn (.line 8) = true ∧
    (let s := on awake (fun c => c.setReg (chkAddr (.line 8)) 1#32)
     getBits (s.chip.reg (chkAddr (.line 8))) 0 1 = 1) ∧ getBits (awake.chip.reg (chkAddr (.line 8))) 0 1 ≠ 1 ∧
    awake.admitsRead .host (bitsLoAddr (.line 8)) ∧ awake.admits .host (bitsLoAddr (.line 8)) ∧ awake.chip.frozen = false := by
  simp only [State.admits, State.admitsRead]; decide +kernel

/-- The checker of L8 searching, or synchronised, with what it has met. -/
def checking (sync : Bool) (x : PatChk) : State :=
  on awake (fun c => ((c.setReg (chkAddr (.line 8)) 1#32).setReg (chkStatusAddr (.line 8)) (BitVec.ofNat 32 (b2n sync))).chkMod (fun _ => x) (.line 8))

theorem witness_PatternLanes_checker :
    (let s := checking false { good := 63 }
     s.chip.laneOn (.line 8) = true ∧ getBits (s.chip.reg (chkAddr (.line 8))) 0 1 = 1 ∧ getBits (s.chip.reg (chkStatusAddr (.line 8))) 0 1 = 0 ∧
       (s.chip.chkOf (.line 8)).good = 63) ∧ ((checking false { good := 62 }).chip.chkOf (.line 8)).good < 63 ∧
    (let s := checking true { window := List.replicate 62 true }
     getBits (s.chip.reg (chkStatusAddr (.line 8))) 0 1 = 1 ∧
       ([true, false].filter id).length + ((s.chip.chkOf (.line 8)).window.filter id).length < 64 ∧
       s.chip.bitCount (.line 8) + 2 < 2 ^ 48) ∧
    (((checking true { window := List.replicate 63 true }).chip.chkOf (.line 8)).follow true).lost = true := by decide +kernel

/-- The 64th right bit in a row synchronises the checker of L8, and the 64th wrong one of 1024 loses it (R110). -/
theorem test_pattern_check :
    getBits ((after (.patChkSync (.line 8) [false]) (checking false { good := 63 })).chip.reg (chkStatusAddr (.line 8))) 0 2 = 1 ∧
    getBits ((after (.patChkSync (.line 8) [true]) (checking true { window := List.replicate 63 true })).chip.reg (chkStatusAddr (.line 8))) 0 2 = 2 := by
  decide +kernel

theorem test_generator : getBits ((after (.patternGeneratorEnable .host (.host 15) 5#32) awake).chip.reg (genAddr (.host 15))) 0 1 = 1 ∧
    getBits ((after (.patternGeneratorEnable .host (.line 8) 5#32) awake).chip.reg (genAddr (.line 8))) 0 1 = 0 := by decide +kernel

/-! ### Accesses -/

theorem witness_RegisterAccesses : (on awake (fun c => c.setFlag GLB_SUPPLY_STATUS.IO_OK false)).chip.cutOff .host = true ∧
    (asleep 0).chip.pmu.lowPower = true ∧ (atLevel 0).refuses .host (0x030004#24).toNat ∧ (atLevel 0).chip.pmu.lowPower = false ∧
    ((0x000004#24).toNat = 4 ∧ State.reset.chip.cutOff .host = false ∧ State.reset.chip.checkAccess (State.reset.chip.masterLevel .host) 0x11000 32 false = none) ∧
    awake.admits .host MemId.capture.base ∧ MemId.capture.base < MemId.capture.base + 0x200000 ∧
    tabGet (fun _ => 0) awake.chip.flips (MemId.capture.key 0) = 0 ∧ awake.admitsRead .host (MemId.capture.base + 0x1FFFFC) ∧
    (on awake (fun c => { c with valid := [(MemId.capture.key 0, true)] })).chip.granValid .capture 0 = true ∧
    awake.readsAndClears .host MBX_ERR.addr ∧ awake.readsAndClears .spindleA MBX_ERR.addr ∧ awake.chip.cutOff .host = false ∧ awake.chip.pmu.lowPower = false ∧ awake.chip.i3c.dyn = none ∧
    (∃ a : BitVec 7, a.toNat = awake.chip.staticAddr) ∧ (on awake (fun c => { c with i3c := { c.i3c with dyn := some 9 } })).chip.i3c.dyn = some (9#7).toNat := by
  simp only [State.admits, State.admitsRead, State.refuses, State.readsAndClears]; decide +kernel

theorem test_capture_word : (after (.registerWrite .host false (BitVec.ofNat 24 MemId.capture.base) 32 0x04030201#32 []) awake).chip.byte (MemId.capture.base + 3) = 4#8 := by
  decide +kernel

theorem test_read_clears : (after (.readToClear .host false (BitVec.ofNat 24 MBX_ERR.addr) 32 []) (after (.doorbell .host 15#32) (holding 0))).chip.reg MBX_ERR.addr = 0#32 := by
  decide +kernel

/-- The host and Spindle A read the error counts in one cycle: the host's read returns them, whoever's command brings the two (R8). -/
theorem test_read_order :
    let t := after (.readToClear .spindleA false (BitVec.ofNat 24 MBX_ERR.addr) 32 [⟨.host, false, BitVec.ofNat 24 MBX_ERR.addr, 32, none⟩])
      (after (.doorbell .host 15#32) (holding 0))
    t.chip.answers[0].data ≠ 0 ∧ t.chip.answers[1].data = 0 := by decide +kernel

theorem test_i3c_address : (after (.i3cCcc (.entdaa 9#7)) awake).chip.i3c.dyn = some 9 ∧ (after (.i3cCcc (.other 3#8)) awake).chip.i3c.ack = false := by
  decide +kernel

theorem witness_DatapathLeavesTheRestAlone : isDatapath (.hostLos 15) = true := rfl

theorem witness_MisplacedAccesses : awake.chip.reaches .host (overI3c .host true) = true ∧ (2#24).toNat % 4 ≠ 0 ∧
    (0x388000 ≤ (0x38FFFC#24).toNat ∧ (0x38FFFC#24).toNat < 0x390000 ∧ 0x8000 ≤ (0x38FFFC#24).toNat % 0x10000 ∧ (atLevel 2).chip.masterLevel .host < 3) := by
  decide +kernel

theorem test_misplaced_write : (after (.registerWrite .host false 2#24 32 1#32 []) awake).chip.answers[0].err = true ∧
    (after (.registerWrite .host false 0#24 16 1#32 []) awake).chip.answers[0].err = true ∧
    (after (.readToClear .host false 0#24 16 []) awake).chip.answers[0].err = true := by decide +kernel

/-! ### Well-formed commands: each check of WellFormed.lean refuses a term -/

/-- An equaliser as it should be, with as many FFE taps as given. -/
def eqIn (n : Nat) : HostEqIn := ⟨40, 3, 2, List.replicate n 0⟩

/-- A training frame of Twist-H with a good marker, and an equaliser of `n` FFE taps. -/
def frameOf (marks n : Nat) : HFrameIn := ⟨List.replicate marks 2, 0, false, none, eqIn n⟩

theorem test_wf_accepts : Instr.wf (.twistHFrame 0 (frameOf 33 24) 0#16) = true ∧ Instr.wf (.ieeeTrainingFrame 0 ⟨true, false, none, false, none, eqIn 24⟩ 0#16) = true ∧
    Instr.wf (.startUpCheck [⟨false, 0, 0, 0, 5, 79⟩, ⟨false, 0, 0, 0, 5, 255⟩]) = true ∧ Instr.wf (.bwWindow (List.replicate 16 0) []) = true ∧
    Instr.wf (.dataFrame 0 ⟨0, 0, List.replicate 3264 0, eqIn 24⟩) = true ∧ Instr.wf (.frameSend 0 ⟨4095, 0, List.replicate 9 0⟩) = true ∧
    Instr.wf (.lockLoss [(0, .cdr), (0, .snr)]) = true ∧ Instr.wf (.captureEnd 0 ⟨[], [], [none]⟩) = true := by decide +kernel

theorem test_wf_refuses_start : Instr.wf (.refclkReturn 1000001) = false ∧ Instr.wf (.startUpCheck [⟨false, 256, 0, 0, 5, 0⟩]) = false ∧
    Instr.wf (.shutdownList [⟨false, 0, 0, 0, 5, 80⟩]) = false ∧ Instr.wf (.startUpCheck (List.replicate 510 ⟨false, 0, 0, 0, 5, 0⟩)) = false := by decide +kernel

theorem test_wf_refuses_host : Instr.wf (.twistHFrame 0 (frameOf 33 23) 0#16) = false ∧ Instr.wf (.twistHFrame 0 (frameOf 32 24) 0#16) = false ∧
    Instr.wf (.ieeeTrainingFrame 0 ⟨true, false, none, false, none, eqIn 25⟩ 0#16) = false ∧ Instr.wf (.fixedTrained 0 ⟨false, 0, eqIn 0⟩ 0#16) = false ∧
    Instr.wf (.dataFrame 0 ⟨0, 0, [], eqIn 24⟩) = false := by decide +kernel

theorem test_wf_refuses_line : Instr.wf (.adcCalUpdate 0 ⟨0, .gain, 2, 0, 0, 0⟩) = false ∧
    Instr.wf (.adaptationWindow 0 ⟨0, 0, [], [], [], 0, 0, none⟩) = false ∧ Instr.wf (.lockLoss [(0, .los), (0, .los)]) = false ∧
    Instr.wf (.frameSend 0 ⟨4096, 0, List.replicate 9 0⟩) = false ∧ Instr.wf (.frameSend 0 ⟨0, 0, []⟩) = false ∧
    Instr.wf (.slotBoundary [1, 1] [] [] []) = false ∧ Instr.wf (.slotBoundary [] [(0, 1), (0, 2)] [] []) = false ∧
    Instr.wf (.captureEnd 0 ⟨[0], [], []⟩) = false ∧ Instr.wf (.captureEnd 0 ⟨[], [], [some []]⟩) = false ∧ Instr.wf (.twistFrame 0 []) = false := by decide +kernel

theorem test_wf_refuses_rest : Instr.wf (.statsWindow [(0, 1, 1), (0, 2, 2)]) = false ∧ Instr.wf (.ladderRung [(1, 0), (1, 0)]) = false ∧
    Instr.wf (.ladderComplete [(1, 0), (1, 0)]) = false ∧ Instr.wf (.bwWindow [] (List.replicate 17 0)) = false ∧
    Instr.wf (.rsCodeword 0 (.fromIeee [])) = false ∧ Instr.wf (.rsCodeword 0 (.fromHost 0 [(1, []), (1, [])])) = false ∧
    Instr.wf (.flyMessage (.sideband 0 [])) = false := by decide +kernel

/-! ### The queue and the words of the table -/

theorem test_step_takes_the_front : ∃ t, step { awake with pending := [.jtagTapReset, .holdover] } = .next t ∧ t.pending = [.holdover] := ⟨_, rfl, rfl⟩

theorem test_no_row_has_bits : decodeTableWord 32 5 = none ∧ (awake.withFetchWord 32 5).pending = [] := ⟨rfl, rfl⟩


/-! ### What leaves the part -/

/-- The four levels under preset T0 and the nominal table, spec/06 after R150. -/
theorem test_dac_levels : [0, 1, 3, 2].map (fun x => dacOf (128 * ttNominal (ttIndex [x]))) = [-96, -32, 32, 96] := by decide

/-- The table's entry goes by the four symbols, the newest first (R144). -/
theorem test_tension_index : ttIndex [2, 0, 1, 3] = 64 * 3 + 4 + 2 := by decide

/-- Codes are rounded half to even and clamped (R150). -/
theorem test_dac_rounding : [256, 768, -256, -768, 65536].map dacOf = [0, 2, 0, -2, 127] := by decide

/-- A waiting record asserts the host's interrupt; `INT_N` falls with it only once FW_READY or WAIT_HOST has been set (R340). -/
theorem test_int_n : [false, true].map (fun d =>
    let e := awake.chip.evt
    let c : Chip := { awake.chip with evt := { e with driven := d, cons := vmod e.cons 0 (fun k => { k with mask := 0 }) } }
    (c.intN, (c.raise 0x1B8 0).intN)) = [(true, true), (true, false)] := by decide +kernel
end Sys2Proof.Tests
end

section
/-! PROOFS. Management accesses: register writes that a check refuses, reads and writes with no command of their own, and the codes of
the I3C port. -/

namespace Sys2Proof.Machine

/-! ### Register writes with a command of their own -/

/-- A register write of a cut off master changes nothing. -/
theorem State.rowWrite_cutOff (s : State) (m : Master) (a : Nat) (f : State → State) (h : s.chip.cutOff m = true) :
    s.rowWrite m a f = s := by
  simp [State.rowWrite, h]

/-- The same of a register whose effect lies in the part alone. -/
theorem Chip.rowWrite_cutOff (s : State) (m : Master) (a : Nat) (f : Chip → Chip) (h : s.chip.cutOff m = true) :
    s.onChip (fun c => c.rowWrite m a f) = s := by
  simp [State.onChip, Chip.rowWrite, h]

/-- R46: the host is cut off exactly while VDDIO is low. -/
theorem Chip.cutOff_host (s : Chip) : s.cutOff .host = !(s.flag GLB_SUPPLY_STATUS.IO_OK) := rfl

/-- Settles O8: each of these commands is a `rowWrite`, which a refused or cut off write leaves before its effect. -/
theorem refusedRegisterWrites : Obligations.RefusedRegisterWrites := by
  intro s m v k w also
  refine ⟨fun h => ?_, fun h => ?_, fun h => ?_, fun h => ?_, fun h => ?_, fun h => ?_, fun h => ?_, fun hio => ?_⟩
  · exact congrArg Host.Outcome.next (Chip.rowWrite_refuses s m _ _ h)
  · exact congrArg Host.Outcome.next (Chip.rowWrite_refuses s m _ _ h)
  · exact congrArg Host.Outcome.next (Chip.rowWrite_refuses s m _ _ h)
  · exact congrArg Host.Outcome.next (State.rowWrite_refuses s m _ _ h)
  · exact congrArg Host.Outcome.next (State.rowWrite_refuses s m _ _ h)
  · exact congrArg Host.Outcome.next (State.rowWrite_refuses s m _ _ h)
  · exact congrArg Host.Outcome.next (State.rowWrite_refuses s m _ _ h)
  · have hcut : s.chip.cutOff .host = true := by rw [Chip.cutOff_host, hio]; rfl
    exact ⟨congrArg Host.Outcome.next (Chip.rowWrite_cutOff s .host _ _ hcut), congrArg Host.Outcome.next (Chip.rowWrite_cutOff s .host _ _ hcut),
      congrArg Host.Outcome.next (State.rowWrite_cutOff s .host _ _ hcut)⟩

/-! ### The checks of R19 -/

/-- An access that passes the checks of R19 is 32 bits wide and aligned, to the window that holds its address, and granted. -/
theorem Chip.checkAccess_some {s : Chip} {l a width : Nat} {w : Bool} {b : Blk} (h : s.checkAccess l a width w = some b) :
    width = 32 ∧ a % 4 = 0 ∧ blkOf a = some b ∧ s.granted b a l w = true := by
  unfold Chip.checkAccess at h
  split at h
  · cases h
  · rename_i haligned
    push Not at haligned
    split at h
    · cases h
    · rename_i b' hb
      split_ifs at h with _ hgrant
      cases h
      exact ⟨haligned.1, haligned.2, hb, by simpa using hgrant⟩

/-- The checks of R19 look at the power domains, at the limit of R31, R435 and R443, and at registers of GLB, THM and GRD: none of MBX. -/
theorem Chip.checkAccess_congr {s t : Chip} (hreg : ∀ b, b < 0x10000 ∨ 0x20000 ≤ b → t.reg b = s.reg b) (hpmu : t.pmu = s.pmu)
    (hlim : t.limited = s.limited) (l a width : Nat) (w : Bool) : t.checkAccess l a width w = s.checkAccess l a width w := by
  have hflag : ∀ f : Fld, f.addr < 0x10000 ∨ 0x20000 ≤ f.addr → t.flag f = s.flag f := fun f hf => by
    unfold Chip.flag Chip.fld; rw [hreg _ hf]
  have hentry : ∀ i, t.guardEntry i = s.guardEntry i := fun i => by
    have h0 : 0x20000 ≤ GRD_ENTRY0.addr i := by unfold GRD_ENTRY0.addr; omega
    have h1 : 0x20000 ≤ GRD_ENTRY1.addr i := by unfold GRD_ENTRY1.addr; omega
    have h2 : 0x20000 ≤ GRD_ENTRY2.addr i := by unfold GRD_ENTRY2.addr; omega
    unfold Chip.guardEntry; rw [hreg _ (.inr h0), hreg _ (.inr h1), hreg _ (.inr h2)]
  have hperm : ∀ k x, t.guardPerm k x = s.guardPerm k x := fun k x => by
    unfold Chip.guardPerm Chip.guardHit; simp only [hentry, hflag GLB_BOOT_STATUS.FW_READY (by decide)]
  have hgrant : ∀ b, t.granted b a l w = s.granted b a l w := fun b => by unfold Chip.granted; simp only [hperm]
  have hlimited : t.answersLimited a w = s.answersLimited a w := by
    unfold Chip.answersLimited; rw [hpmu, hflag THM_STATUS.TRIP (by decide)]
  have hpd : ∀ d, t.pdOn d = s.pdOn d := fun d => by unfold Chip.pdOn Chip.pdOf; rw [hpmu]
  unfold Chip.checkAccess
  simp only [hgrant, hlimited, hpd, hlim]

/-! ### One access of one master -/

/-- A master that is not cut off reaches the part over any port but I3C. -/
theorem Chip.reaches_direct {s : Chip} {m : Master} (h : s.cutOff m = false) : s.reaches m false = true := by
  simp [Chip.reaches, h]

/-- Over I3C the host reaches the part only while the Whorl runs (R368). -/
theorem Chip.reaches_i3c {s : Chip} (h : s.cutOff .host = false) (hlp : s.pmu.lowPower = false) : s.reaches .host true = true := by
  simp [Chip.reaches, h, hlp]

/-- A cut off master does not reach the part (R46). -/
theorem Chip.not_reaches_cutOff {s : Chip} {m : Master} (h : s.cutOff m = true) (i3c : Bool) : s.reaches m i3c = false := by
  simp [Chip.reaches, h]

/-- While the Whorl is stopped nothing reaches the part over I3C (R368). -/
theorem Chip.not_reaches_lowPower {s : Chip} (h : s.pmu.lowPower = true) (m : Master) : s.reaches m true = false := by
  simp [Chip.reaches, h]

@[simp] theorem overI3c_false (m : Master) : overI3c m false = false := rfl
@[simp] theorem overI3c_host (i3c : Bool) : overI3c .host i3c = i3c := by simp [overI3c]

@[simp] theorem Chip.noteWrErr_direct (s : Chip) (err : Bool) : s.noteWrErr false err = s := rfl
@[simp] theorem Chip.showWrErr_direct (s : Chip) : s.showWrErr false = s := rfl

/-- REGISTER_WRITE with no other access in its cycle is that one write. -/
theorem exec_registerWrite_alone (m : Master) (i3c : Bool) (a : BitVec 24) (width : Nat) (v : Word) (s : State) :
    exec (.registerWrite m i3c a width v []) s = .next (s.busWrite m (overI3c m i3c) a.toNat width v) :=
  congrArg Host.Outcome.next (State.fabricCycle_one s _)

/-- READ_TO_CLEAR with no other access in its cycle is that one read. -/
theorem exec_readToClear_alone (m : Master) (i3c : Bool) (a : BitVec 24) (width : Nat) (s : State) :
    exec (.readToClear m i3c a width []) s = .next (s.busRead m (overI3c m i3c) a.toNat width) :=
  congrArg Host.Outcome.next (State.fabricCycle_one s _)

/-- An access that does not reach the part changes nothing. -/
theorem State.busWrite_unreached {s : State} {m : Master} {i3c : Bool} (h : s.chip.reaches m i3c = false) (a width : Nat) (v : Word) :
    s.busWrite m i3c a width v = s := by
  simp [State.busWrite, h]

theorem State.busRead_unreached {s : State} {m : Master} {i3c : Bool} (h : s.chip.reaches m i3c = false) (a width : Nat) :
    s.busRead m i3c a width = s := by
  simp [State.busRead, h]

/-- A write that a check of R19 refuses answers an error, and over I3C sets WR_ERR (R498). -/
theorem State.busWrite_refused {s : State} {m : Master} {i3c : Bool} {a width : Nat} (hreach : s.chip.reaches m i3c = true)
    (h : s.chip.checkAccess (s.chip.masterLevel m) a width true = none) (v : Word) :
    s.busWrite m i3c a width v = s.onChip (fun c => (c.answer m true 0).noteWrErr i3c true) := by
  have hstore : s.storeWord (s.chip.party m) a width v = (s, false) := by simp [State.storeWord, Chip.party, h]
  simp [State.busWrite, hreach, hstore]

/-- A read that a check of R19 refuses answers an error, and over I3C shows WR_ERR (R498). -/
theorem State.busRead_refused {s : State} {m : Master} {i3c : Bool} {a width : Nat} (hreach : s.chip.reaches m i3c = true)
    (h : s.chip.checkAccess (s.chip.masterLevel m) a width false = none) :
    s.busRead m i3c a width = s.onChip (fun c => (c.answer m true 0).showWrErr i3c) := by
  have hload : s.loadWord (s.chip.party m) a width = (s, none) := by simp [State.loadWord, Chip.party, h]
  simp [State.busRead, hreach, hload]

/-- A write that is done is answered without an error. -/
theorem State.busWrite_done {s t : State} {m : Master} {a width : Nat} {v : Word} (hreach : s.chip.reaches m false = true)
    (h : s.storeWord (s.chip.party m) a width v = (t, true)) : s.busWrite m false a width v = t.onChip (fun c => c.answer m false 0) := by
  simp [State.busWrite, hreach, h]

/-- A read that is done is answered with its data. -/
theorem State.busRead_done {s t : State} {m : Master} {a width : Nat} {d : Word} (hreach : s.chip.reaches m false = true)
    (h : s.loadWord (s.chip.party m) a width = (t, some d)) : s.busRead m false a width = t.onChip (fun c => c.answer m false d) := by
  simp [State.busRead, hreach, h]

/-- The fabric's answer to a master reads back. -/
@[simp] theorem Chip.answers_answer (s : Chip) (m : Master) (err : Bool) (d : Word) :
    (s.answer m err d).answers[(masterIdx m).1]'(masterIdx m).2 = ⟨err, d⟩ := by
  simp [Chip.answer]

/-- The answers to the other masters stay. -/
theorem Chip.answers_answer_other (s : Chip) (m k : Master) (err : Bool) (d : Word) (h : masterIdx m ≠ masterIdx k) :
    (s.answer m err d).answers[(masterIdx k).1]'(masterIdx k).2 = s.answers[(masterIdx k).1]'(masterIdx k).2 := by
  have hne : (masterIdx m).1 ≠ (masterIdx k).1 := fun e => h (Fin.ext e)
  simp [Chip.answer, Vector.getElem_set_ne _ _ hne]

/-! ### The bytes of a granule (R373) -/

/-- Bit `j` of byte `i` in a number that bytes spell. -/
theorem leNat_testBit (l : List Byte) (i j : Nat) (hj : j < 8) : (leNat l).testBit (8 * i + j) = (l.getD i 0).getLsbD j := by
  induction l generalizing i with
  | nil => simp [leNat]
  | cons b t ih =>
    have hb : b.toNat < 2 ^ 8 := b.isLt
    rw [leNat, Nat.add_comm, show (256 : Nat) = 2 ^ 8 from rfl, Nat.testBit_two_pow_mul_add _ hb]
    cases i with
    | zero => simp [hj, BitVec.getLsbD]
    | succ i =>
      rw [if_neg (by omega), show 8 * (i + 1) + j - 8 = 8 * i + j by omega, ih i]
      simp

/-- A byte of a number that bytes spell is that byte. -/
theorem leNat_byte (l : List Byte) (i : Nat) : BitVec.ofNat 8 (leNat l >>> (8 * i)) = l.getD i 0 := by
  apply BitVec.eq_of_getLsbD_eq
  intro j hj
  rw [BitVec.getLsbD_ofNat, Nat.testBit_shiftRight, leNat_testBit l i j hj]
  simp [hj]

/-- The bytes of a granule of a plain memory are those of its data. -/
theorem Chip.granData_byte (s : Chip) (m : MemId) (g i : Nat) (hm : m.plain = true) (hi : i < 8) :
    BitVec.ofNat 8 (s.granData m g >>> (8 * i)) = s.byte (m.base + 8 * g + i) := by
  have hdata : s.granData m g = leNat (s.bytesAt (m.base + 8 * g) 8) := by
    cases m with
    | tension n sh => cases hm
    | skein => cases hm
    | _ => rfl
  rw [hdata, leNat_byte]
  simp [Chip.bytesAt, hi]

/-- A granule put into a plain memory reads back byte by byte. -/
theorem Chip.byte_putGran (s : Chip) (m : MemId) (g v i : Nat) (hm : m.plain = true) (hi : i < 8) :
    (s.putGran m g v).byte (m.base + 8 * g + i) = BitVec.ofNat 8 (v >>> (8 * i)) := by
  have hlen : i < (leBytes 8 v).length := by simpa [leBytes] using hi
  have hbytes : ∀ c : Chip, (c.setBytes (m.base + 8 * g) (leBytes 8 v)).byte (m.base + 8 * g + i) = BitVec.ofNat 8 (v >>> (8 * i)) := by
    intro c
    rw [Chip.byte_setBytes c _ _ i hlen]
    simp [leBytes]
  cases m with
  | tension n sh => cases hm
  | skein => cases hm
  | _ => exact hbytes { s with flips := tabErase s.flips _ }

/-- The data of a granule with its lower (`h` 0) or upper half replaced by a word. -/
def mergeHalf (d h : Nat) (v : Word) : Nat :=
  if h = 0 then bitsOf d 32 32 * 2 ^ 32 + v.toNat else bitsOf d 0 32 + 2 ^ 32 * v.toNat

/-- Bit `j` of merged data comes from the word in its own half and from the old data in the other. -/
theorem mergeHalf_testBit (d h : Nat) (v : Word) (j : Nat) (hh : h < 2) (hj : j < 64) :
    (mergeHalf d h v).testBit j = if j / 32 = h then v.toNat.testBit (j % 32) else d.testBit j := by
  have hv : v.toNat < 2 ^ 32 := v.isLt
  have hd : bitsOf d 0 32 < 2 ^ 32 := Nat.mod_lt _ (by decide)
  unfold mergeHalf
  split_ifs with h0 hjh hjh
  · rw [Nat.mul_comm, Nat.testBit_two_pow_mul_add _ hv, if_pos (by omega), Nat.mod_eq_of_lt (by omega)]
  · rw [Nat.mul_comm, Nat.testBit_two_pow_mul_add _ hv, if_neg (by omega)]
    simp only [bitsOf, Nat.testBit_mod_two_pow, Nat.testBit_shiftRight]
    rw [show 32 + (j - 32) = j by omega, decide_eq_true (by omega : j - 32 < 32), Bool.true_and]
  · rw [Nat.add_comm, Nat.testBit_two_pow_mul_add _ hd, if_neg (by omega), show j - 32 = j % 32 by omega]
  · rw [Nat.add_comm, Nat.testBit_two_pow_mul_add _ hd, if_pos (by omega)]
    simp only [bitsOf, Nat.testBit_mod_two_pow, Nat.testBit_shiftRight]
    rw [Nat.zero_add, decide_eq_true (by omega : j < 32), Bool.true_and]

/-- Byte `k` of the half that was replaced is that of the word. -/
theorem mergeHalf_byte_same (d h k : Nat) (v : Word) (hh : h < 2) (hk : k < 4) :
    BitVec.ofNat 8 (mergeHalf d h v >>> (8 * (4 * h + k))) = BitVec.ofNat 8 (v.toNat / 2 ^ (8 * k)) := by
  apply BitVec.eq_of_getLsbD_eq
  intro j hj
  simp only [BitVec.getLsbD_ofNat, Nat.testBit_shiftRight, Nat.testBit_div_two_pow]
  rw [mergeHalf_testBit _ _ _ _ hh (by omega), if_pos (by omega), show (8 * (4 * h + k) + j) % 32 = j + 8 * k by omega]

/-- The bytes of the other half stay. -/
theorem mergeHalf_byte_other (d h i : Nat) (v : Word) (hh : h < 2) (hi : i < 8) (hne : i / 4 ≠ h) :
    BitVec.ofNat 8 (mergeHalf d h v >>> (8 * i)) = BitVec.ofNat 8 (d >>> (8 * i)) := by
  apply BitVec.eq_of_getLsbD_eq
  intro j hj
  simp only [BitVec.getLsbD_ofNat, Nat.testBit_shiftRight]
  rw [mergeHalf_testBit _ _ _ _ hh (by omega), if_neg (by omega)]

/-! ### A word in a coded memory -/

/-- A 32-bit write over a granule that reads without an error merges its half (R373). -/
theorem Chip.writeMem32_of_readGran {s : Chip} {m : MemId} {off d : Nat} (h : s.readGran m (off / 8) = (s, some d)) (v : Word) :
    s.writeMem32 m off v = (s.putGran m (off / 8) (mergeHalf d (off / 4 % 2) v), true) := by
  unfold Chip.writeMem32
  rw [h]
  rfl

/-- A granule with no wrong bits reads without a change: its data, or zero where it is not valid (R374). -/
theorem Chip.readGran_clean (s : Chip) (m : MemId) (g : Nat) (h : tabGet (fun _ => 0) s.flips (m.key g) = 0) :
    s.readGran m g = (s, some (if s.granValid m g = true then s.granData m g else 0)) := by
  cases hv : s.granValid m g with
  | true => simpa using Chip.readGran_sound s m g hv h
  | false => simpa using Chip.readGran_invalid s m g hv

/-- The word stands at its address after the granule has been written back. -/
theorem Chip.byte_putGran_mergeHalf_same (s : Chip) (m : MemId) (off d k : Nat) (v : Word) (hm : m.plain = true) (hoff : off % 4 = 0)
    (hk : k < 4) : (s.putGran m (off / 8) (mergeHalf d (off / 4 % 2) v)).byte (m.base + off + k) = BitVec.ofNat 8 (v.toNat / 2 ^ (8 * k)) := by
  rw [show m.base + off + k = m.base + 8 * (off / 8) + (4 * (off / 4 % 2) + k) by omega,
    Chip.byte_putGran s m _ _ _ hm (by omega), mergeHalf_byte_same _ _ _ _ (by omega) hk]

/-- Every byte outside the word stays where the granule's own data are merged. -/
theorem Chip.byte_putGran_mergeHalf_other (s : Chip) (m : MemId) (off x : Nat) (v : Word) (hm : m.plain = true) (hoff : off % 4 = 0)
    (hx : x < m.base + off ∨ m.base + off + 4 ≤ x) :
    (s.putGran m (off / 8) (mergeHalf (s.granData m (off / 8)) (off / 4 % 2) v)).byte x = s.byte x := by
  by_cases hin : m.base + 8 * (off / 8) ≤ x ∧ x < m.base + 8 * (off / 8) + 8
  · obtain ⟨i, rfl⟩ := Nat.exists_eq_add_of_le hin.1
    have hi : i < 8 := by omega
    rw [Chip.byte_putGran s m _ _ _ hm hi, mergeHalf_byte_other _ _ _ _ (by omega) hi (by omega), Chip.granData_byte s m _ _ hm hi]
  · exact Chip.byte_putGran_other s m _ _ x (.inr (by omega))

/-! ### Capture memory -/

/-- The window of capture memory. -/
theorem blkOf_capture {off : Nat} (hoff : off < 0x200000) : blkOf (MemId.capture.base + off) = some .capWin := by
  simp only [MemId.base]
  unfold blkOf
  iterate 24 rw [if_neg (by omega)]
  exact if_pos (by omega)

/-- The memory behind that window. -/
theorem memOf_capture {off : Nat} (hoff : off < 0x200000) : memOf (MemId.capture.base + off) = some (.capture, off) := by
  have hhi : MemId.capture.base + off < 0xE00000 := by simp only [MemId.base]; omega
  have hsub : MemId.capture.base + off - 0xC00000 = off := by simp only [MemId.base]; omega
  simp [memOf, blkOf_capture hoff, hhi, hsub]

/-- A write to capture memory that passes the checks merges its word into a granule that reads without an error. -/
theorem State.storeWord_capture {s : State} {p : Party} {off d : Nat} (hoff : off < 0x200000)
    (hchk : (s.chip.checkAccess p.lv (MemId.capture.base + off) 32 true).isSome = true)
    (hread : s.chip.readGran .capture (off / 8) = (s.chip, some d)) (v : Word) :
    s.storeWord p (MemId.capture.base + off) 32 v =
      (s.onChip (fun c => c.putGran .capture (off / 8) (mergeHalf d (off / 4 % 2) v)), true) := by
  obtain ⟨b, hb⟩ := Option.isSome_iff_exists.1 hchk
  obtain ⟨-, -, hblk, -⟩ := Chip.checkAccess_some hb
  cases (blkOf_capture hoff).symm.trans hblk
  unfold State.storeWord
  rw [hb, memOf_capture hoff]
  simp [State.writeMem, State.memMay, Chip.shield, Chip.writeMem32_of_readGran hread, State.onChip]

/-- A read of capture memory that passes the checks gives its half of such a granule and changes nothing. -/
theorem State.loadWord_capture {s : State} {p : Party} {off d : Nat} (hoff : off < 0x200000)
    (hchk : (s.chip.checkAccess p.lv (MemId.capture.base + off) 32 false).isSome = true)
    (hread : s.chip.readGran .capture (off / 8) = (s.chip, some d)) :
    s.loadWord p (MemId.capture.base + off) 32 = (s, some (BitVec.ofNat 32 (bitsOf d (32 * (off / 4 % 2)) 32))) := by
  obtain ⟨b, hb⟩ := Option.isSome_iff_exists.1 hchk
  obtain ⟨-, -, hblk, -⟩ := Chip.checkAccess_some hb
  cases (blkOf_capture hoff).symm.trans hblk
  have htarget : readTarget .capWin (MemId.capture.base + off) = some (.capture, off) := memOf_capture hoff
  unfold State.loadWord
  rw [hb]
  simp [htarget, State.readMem, Chip.readMem32, hread]

/-! ### The error counts of MBX (R8, R453) -/

/-- Bits that a mask clears read zero. -/
theorem getBits_and_eq_zero (x mask : Word) (lo w : Nat) (h : ∀ i < w, mask.getLsbD (lo + i) = false) : getBits (x &&& mask) lo w = 0 := by
  apply Nat.eq_of_testBit_eq
  intro i
  rw [getBits_testBit, Nat.zero_testBit]
  by_cases hi : i < w
  · simp [h i hi]
  · simp [hi]

/-- What a read leaves of the error counts: the bits of `MBX_ERR` that are no count. -/
def mbxErrCleared (x : Word) : Word := x &&& 0x00FF0000#32

/-- No freeze covers the error counts, so that the clear takes all of them. -/
theorem Chip.clearRc_mbxErr (s : Chip) : s.clearRc MBX_ERR.addr = s.setReg MBX_ERR.addr (mbxErrCleared (s.reg MBX_ERR.addr)) := by
  have hcount : countMask MBX_ERR.addr = 0 := by decide
  have hrc : ~~~ (accMask .rc MBX_ERR.addr) = 0x00FF0000#32 := by decide
  simp [Chip.clearRc, hcount, hrc, mbxErrCleared]

/-- They read as they stand, frozen or not. -/
theorem State.view_mbxErr (s : State) : s.view .mbx MBX_ERR.addr = s.chip.reg MBX_ERR.addr := by
  have hcount : countMask MBX_ERR.addr = 0 := by decide
  have hown : s.ownView .mbx (MBX_ERR.addr - Blk.mbx.base) = none := rfl
  have hones : ∀ x : Word, x &&& ~~~(0#32) = x := fun x => by simp only [BitVec.not_zero, BitVec.and_allOnes]
  unfold State.view Chip.seen
  rw [hown, hcount]
  simp only [BitVec.and_zero, BitVec.or_zero, BitVec.ofNat_eq_ofNat, hones, ite_self, Option.getD_none]

/-- The state after a master's read of the error counts. -/
def State.mbxErrRead (s : State) (m : Master) : State :=
  s.onChip (fun c => (c.setReg MBX_ERR.addr (mbxErrCleared (c.reg MBX_ERR.addr))).answer m false (c.reg MBX_ERR.addr))

/-- A read by a master with both grants answers the counts and clears them. -/
theorem State.busRead_mbxErr {s : State} {m : Master} (h : s.readsAndClears m MBX_ERR.addr) :
    s.busRead m false MBX_ERR.addr 32 = s.mbxErrRead m := by
  obtain ⟨⟨hcut, hread⟩, -, hwrite⟩ := h
  obtain ⟨b, hb⟩ := Option.isSome_iff_exists.1 hread
  obtain ⟨b', hb'⟩ := Option.isSome_iff_exists.1 hwrite
  obtain ⟨-, -, hblk, -⟩ := Chip.checkAccess_some hb
  obtain ⟨-, -, hblk', hgrant⟩ := Chip.checkAccess_some hb'
  cases (show some Blk.mbx = some b from hblk)
  cases (show some Blk.mbx = some b' from hblk')
  have htarget : readTarget .mbx MBX_ERR.addr = none := rfl
  have hlane : bitsLane .mbx (MBX_ERR.addr - Blk.mbx.base) = none := rfl
  have hrc : accMask .rc MBX_ERR.addr = 0xFF00FFFF#32 := by decide
  have hload : s.loadWord (s.chip.party m) MBX_ERR.addr 32 =
      (s.onChip (fun c => c.setReg MBX_ERR.addr (mbxErrCleared (c.reg MBX_ERR.addr))), some (s.chip.reg MBX_ERR.addr)) := by
    unfold State.loadWord
    simp only [Chip.party, hb, htarget, hgrant]
    simp [State.readReg, hlane, hrc, Chip.clearRc_mbxErr, State.view_mbxErr, State.onChip]
  exact State.busRead_done (Chip.reaches_direct hcut) hload

/-- That read touches no other register. -/
theorem State.mbxErrRead_reg_other (s : State) (m : Master) {b : Nat} (hb : b ≠ MBX_ERR.addr) :
    (s.mbxErrRead m).chip.reg b = s.chip.reg b := by
  simp [State.mbxErrRead, State.onChip, Chip.reg_setReg_other _ _ _ _ hb]

/-- It leaves the three counts zero. -/
theorem State.mbxErrRead_counts (s : State) (m : Master) :
    (s.mbxErrRead m).chip.fld MBX_ERR.DB_BUSY = 0 ∧ (s.mbxErrRead m).chip.fld MBX_ERR.SLOT_WRITE = 0 ∧
      (s.mbxErrRead m).chip.fld MBX_ERR.FREE_ERR = 0 := by
  have hreg : (s.mbxErrRead m).chip.reg MBX_ERR.addr = mbxErrCleared (s.chip.reg MBX_ERR.addr) := by
    simp [State.mbxErrRead, State.onChip]
  have hfld : ∀ f : Fld, f.addr = MBX_ERR.addr →
      (s.mbxErrRead m).chip.fld f = getBits (mbxErrCleared (s.chip.reg MBX_ERR.addr)) f.lo f.w := fun f hf => by
    rw [Chip.fld, hf, hreg]
  rw [hfld _ rfl, hfld _ rfl, hfld _ rfl]
  exact ⟨getBits_and_eq_zero _ _ _ _ (by decide), getBits_and_eq_zero _ _ _ _ (by decide), getBits_and_eq_zero _ _ _ _ (by decide)⟩

/-- It answers what the register held. -/
theorem State.mbxErrRead_answer (s : State) (m : Master) :
    (s.mbxErrRead m).chip.answers[(masterIdx m).1]'(masterIdx m).2 = ⟨false, s.chip.reg MBX_ERR.addr⟩ :=
  Chip.answers_answer _ _ _ _

/-- It leaves the answers to the other masters. -/
theorem State.mbxErrRead_answer_other (s : State) {m k : Master} (h : masterIdx m ≠ masterIdx k) :
    (s.mbxErrRead m).chip.answers[(masterIdx k).1]'(masterIdx k).2 = s.chip.answers[(masterIdx k).1]'(masterIdx k).2 :=
  Chip.answers_answer_other _ _ _ _ _ h

/-- A spindle that may read and clear the counts still may after another master has. -/
theorem State.readsAndClears_mbxErrRead {s : State} (m : Master) (h : s.readsAndClears .spindleA MBX_ERR.addr) :
    (s.mbxErrRead m).readsAndClears .spindleA MBX_ERR.addr := by
  have hchk : ∀ w, (s.mbxErrRead m).chip.checkAccess 3 MBX_ERR.addr 32 w = s.chip.checkAccess 3 MBX_ERR.addr 32 w :=
    Chip.checkAccess_congr (fun b hb => s.mbxErrRead_reg_other m (by unfold MBX_ERR.addr; omega)) rfl rfl 3 MBX_ERR.addr 32
  obtain ⟨⟨-, hread⟩, -, hwrite⟩ := h
  exact ⟨⟨rfl, (congrArg Option.isSome (hchk false)).trans hread⟩, rfl, (congrArg Option.isSome (hchk true)).trans hwrite⟩

/-- R8: of the reads of the host and of Spindle A in one cycle the host's comes first, whichever is named first. -/
theorem State.fabricCycle_two_reads (s : State) {x y : Master} (h : (x = .host ∧ y = .spindleA) ∨ (x = .spindleA ∧ y = .host))
    (a : BitVec 24) :
    s.fabricCycle [⟨x, false, a, 32, none⟩, ⟨y, false, a, 32, none⟩] = (s.busRead .host false a.toNat 32).busRead .spindleA false a.toNat 32 := by
  obtain ⟨rfl, rfl⟩ | ⟨rfl, rfl⟩ := h <;> rfl

/-! ### What one access does -/

section Accesses

variable {s : State} {m : Master} {a : BitVec 24}

/-- R46: nothing comes from a master that is cut off. -/
theorem registerAccess_cutOff (h : s.chip.cutOff m = true) (i3c : Bool) (width : Nat) (v : Word) :
    exec (.registerWrite m i3c a width v []) s = .next s ∧ exec (.readToClear m i3c a width []) s = .next s := by
  rw [exec_registerWrite_alone, exec_readToClear_alone, State.busWrite_unreached (Chip.not_reaches_cutOff h _),
    State.busRead_unreached (Chip.not_reaches_cutOff h _)]
  exact ⟨rfl, rfl⟩

/-- R368: nothing comes over I3C while the Whorl is stopped. -/
theorem registerAccess_lowPower (h : s.chip.pmu.lowPower = true) (width : Nat) (v : Word) :
    exec (.registerWrite .host true a width v []) s = .next s ∧ exec (.readToClear .host true a width []) s = .next s := by
  rw [exec_registerWrite_alone, exec_readToClear_alone, overI3c_host, State.busWrite_unreached (Chip.not_reaches_lowPower h _),
    State.busRead_unreached (Chip.not_reaches_lowPower h _)]
  exact ⟨rfl, rfl⟩

/-- R4, R19: a refused write only answers an error. -/
theorem registerWrite_refused (h : s.refuses m a.toNat) (v : Word) :
    exec (.registerWrite m false a 32 v []) s = .next (s.answered m true) := by
  obtain ⟨hcut, hchk⟩ := h
  rw [exec_registerWrite_alone, overI3c_false, State.busWrite_refused (Chip.reaches_direct hcut) hchk]
  rfl

/-- R498: over I3C it also sets WR_ERR. -/
theorem registerWrite_i3c_refused (h : s.refuses .host a.toNat) (hlp : s.chip.pmu.lowPower = false) (v : Word) :
    exec (.registerWrite .host true a 32 v []) s =
      .next (s.onChip (fun c => { c.answer .host true 0 with i3c := { c.i3c with wrErr := true } })) := by
  obtain ⟨hcut, hchk⟩ := h
  rw [exec_registerWrite_alone, overI3c_host, State.busWrite_refused (Chip.reaches_i3c hcut hlp) hchk]
  rfl

/-- R4, R19, R496: a refused read only answers an error. -/
theorem readToClear_refused (hcut : s.chip.cutOff m = false)
    (hchk : s.chip.checkAccess (s.chip.masterLevel m) a.toNat 32 false = none) :
    exec (.readToClear m false a 32 []) s = .next (s.answered m true) := by
  rw [exec_readToClear_alone, overI3c_false, State.busRead_refused (Chip.reaches_direct hcut) hchk]
  rfl

/-- R20, R373: a word written to capture memory stands at its address, and where its granule is valid every other byte stays. -/
theorem registerWrite_capture {off : Nat} (ha : a.toNat = MemId.capture.base + off) (hoff : off < 0x200000) (h : s.admits m a.toNat)
    (hclean : tabGet (fun _ => 0) s.chip.flips (MemId.capture.key (off / 8)) = 0) (v : Word) :
    ∃ t, exec (.registerWrite m false a 32 v []) s = .next t ∧ t.dist = s.dist ∧ t.chip.regs = s.chip.regs ∧
      (∀ k, k < 4 → t.chip.byte (a.toNat + k) = BitVec.ofNat 8 (v.toNat / 2 ^ (8 * k))) ∧
      (s.chip.granValid .capture (off / 8) = true → ∀ x, x < a.toNat ∨ a.toNat + 4 ≤ x → t.chip.byte x = s.chip.byte x) := by
  obtain ⟨hcut, hchk⟩ := h
  rw [ha] at hchk
  have hread := Chip.readGran_clean s.chip .capture (off / 8) hclean
  have haligned : off % 4 = 0 := by
    obtain ⟨b, hb⟩ := Option.isSome_iff_exists.1 hchk
    obtain ⟨-, hmod, -⟩ := Chip.checkAccess_some hb
    simp only [MemId.base] at hmod
    omega
  rw [exec_registerWrite_alone, overI3c_false, ha,
    State.busWrite_done (Chip.reaches_direct hcut) (State.storeWord_capture hoff hchk hread v)]
  refine ⟨_, rfl, rfl, rfl, fun k hk => ?_, fun hv x hx => ?_⟩
  · exact (Chip.byte_congr (Chip.answer_mem _ _ _ _) _).trans (Chip.byte_putGran_mergeHalf_same _ .capture off _ k v rfl haligned hk)
  · rw [if_pos hv]
    exact (Chip.byte_congr (Chip.answer_mem _ _ _ _) _).trans (Chip.byte_putGran_mergeHalf_other _ .capture off x v rfl haligned hx)

/-- R20, R373: a word read from capture memory is answered, and nothing else changes. -/
theorem readToClear_capture {off : Nat} (ha : a.toNat = MemId.capture.base + off) (hoff : off < 0x200000)
    (h : s.admitsRead m a.toNat) (hclean : tabGet (fun _ => 0) s.chip.flips (MemId.capture.key (off / 8)) = 0)
    (hv : s.chip.granValid .capture (off / 8) = true) :
    exec (.readToClear m false a 32 []) s = .next (s.onChip (fun c => c.answer m false
      (BitVec.ofNat 32 (bitsOf (s.chip.granData .capture (off / 8)) (32 * (a.toNat / 4 % 2)) 32)))) := by
  obtain ⟨hcut, hchk⟩ := h
  rw [ha] at hchk
  have hread := Chip.readGran_sound s.chip .capture (off / 8) hv hclean
  have hhalf : a.toNat / 4 % 2 = off / 4 % 2 := by simp only [MemId.base] at ha; omega
  rw [exec_readToClear_alone, overI3c_false, hhalf, ha,
    State.busRead_done (Chip.reaches_direct hcut) (State.loadWord_capture hoff hchk hread)]

/-- R8, R453: a read of the error counts of MBX answers and clears them. -/
theorem readToClear_mbxErr (h : s.readsAndClears m MBX_ERR.addr) :
    exec (.readToClear m false (BitVec.ofNat 24 MBX_ERR.addr) 32 []) s = .next (s.mbxErrRead m) := by
  rw [exec_readToClear_alone, overI3c_false]
  exact congrArg Host.Outcome.next (State.busRead_mbxErr h)

/-- R8: the host and Spindle A read them in one cycle. -/
theorem readToClear_mbxErr_two {x y : Master} (hxy : (x = .host ∧ y = .spindleA) ∨ (x = .spindleA ∧ y = .host))
    (hhost : s.readsAndClears .host MBX_ERR.addr) (hspindle : s.readsAndClears .spindleA MBX_ERR.addr) :
    exec (.readToClear x false (BitVec.ofNat 24 MBX_ERR.addr) 32 [⟨y, false, BitVec.ofNat 24 MBX_ERR.addr, 32, none⟩]) s =
      .next ((s.mbxErrRead .host).mbxErrRead .spindleA) := by
  have haddr : (BitVec.ofNat 24 MBX_ERR.addr).toNat = MBX_ERR.addr := rfl
  refine congrArg Host.Outcome.next ((s.fabricCycle_two_reads hxy _).trans ?_)
  rw [haddr, State.busRead_mbxErr hhost, State.busRead_mbxErr (State.readsAndClears_mbxErrRead .host hspindle)]

end Accesses

/-! ### Common command codes (R487, R498) -/

/-- A code that finds VDDIO low changes nothing (R46). -/
theorem exec_i3cCcc_cutOff {s : State} (h : s.chip.cutOff .host = true) (x : Ccc) : exec (.i3cCcc x) s = .next s :=
  congrArg Host.Outcome.next (by simp [State.onChip, h])

/-- A code that finds the Whorl stopped is not acknowledged (R368). -/
theorem exec_i3cCcc_lowPower {s : State} (h : s.chip.cutOff .host = false) (hlp : s.chip.pmu.lowPower = true) (x : Ccc) :
    exec (.i3cCcc x) s = .next (s.onChip (fun c => c.i3cReply false 0)) :=
  congrArg Host.Outcome.next (by simp [State.onChip, h, hlp])

/-- Any other is received. -/
theorem exec_i3cCcc_received {s : State} (h : s.chip.cutOff .host = false) (hlp : s.chip.pmu.lowPower = false) (x : Ccc) :
    exec (.i3cCcc x) s = .next (s.onChip (fun c => c.ccc x)) :=
  congrArg Host.Outcome.next (by simp [State.onChip, h, hlp])

/-- A part without a dynamic address takes the one of ENTDAA. -/
theorem Chip.ccc_entdaa {s : Chip} (h : s.i3c.dyn = none) (a : BitVec 7) :
    s.ccc (.entdaa a) = { s with i3c := { s.i3c with dyn := some a.toNat, ack := true, answer := 0 } } := by
  simp [Chip.ccc, h, Chip.setDyn, Chip.i3cReply]

/-- It takes the one of SETDASA that names its static address. -/
theorem Chip.ccc_setdasa {s : Chip} (h : s.i3c.dyn = none) {a : BitVec 7} (ha : a.toNat = s.staticAddr) (d : BitVec 7) :
    s.ccc (.setdasa a d) = { s with i3c := { s.i3c with dyn := some d.toNat, ack := true, answer := 0 } } := by
  simp [Chip.ccc, h, ha, Chip.setDyn, Chip.i3cReply]

/-- A directed read at another address is not acknowledged. -/
theorem Chip.ccc_directed_elsewhere {s : Chip} {x : Ccc} {a : BitVec 7} (hx : x = .getpid a ∨ x = .getbcr a ∨ x = .getdcr a)
    (h : s.i3c.dyn ≠ some a.toNat) : s.ccc x = { s with i3c := { s.i3c with ack := false, answer := 0 } } := by
  have hmine : s.i3cMine a = false := by simpa [Chip.i3cMine] using h
  obtain rfl | rfl | rfl := hx <;> simp [Chip.ccc, hmine, Chip.i3cReply]

/-- GETPID at the part's own address answers its identifier. -/
theorem Chip.ccc_getpid {s : Chip} {a : BitVec 7} (h : s.i3c.dyn = some a.toNat) :
    s.ccc (.getpid a) = { s with i3c := { s.i3c with ack := true, answer := Config.i3cPid.toNat } } := by
  have hmine : s.i3cMine a = true := by simpa [Chip.i3cMine] using h
  simp [Chip.ccc, hmine, Chip.i3cReply]

/-- What a code does that is received. -/
theorem exec_i3cCcc_of_ccc {s : State} (h : s.chip.cutOff .host = false) (hlp : s.chip.pmu.lowPower = false) {x : Ccc} {p : I3c}
    (hccc : s.chip.ccc x = { s.chip with i3c := p }) : exec (.i3cCcc x) s = .next { s with chip := { s.chip with i3c := p } } :=
  (exec_i3cCcc_received h hlp x).trans (congrArg (fun c => Host.Outcome.next { s with chip := c }) hccc)

/-! ### The accesses and the codes together -/

/-- Settles O57: the accesses by the outcome of the checks of R19 and by the memory or register behind the address, the common command
codes one by one. -/
theorem registerAccesses : Obligations.RegisterAccesses := by
  refine ⟨fun s m a width v => ?_, fun s x => ?_⟩
  · dsimp only
    generalize hg : a.toNat - MemId.capture.base = off
    have ha : MemId.capture.base ≤ a.toNat → a.toNat = MemId.capture.base + off := by omega
    refine ⟨fun h i3c => registerAccess_cutOff h i3c width v, fun h => registerAccess_lowPower h width v,
      fun h => registerWrite_refused h v, fun h hlp => ⟨_, registerWrite_i3c_refused h hlp v, rfl, rfl, rfl, rfl⟩,
      readToClear_refused, fun h hlo hhi hclean => registerWrite_capture (ha hlo) (by omega) h hclean v,
      fun h hlo hhi hclean hv => ⟨_, readToClear_capture (ha hlo) (by omega) h hclean hv, rfl, rfl, rfl, Chip.answers_answer _ _ _ _⟩,
      fun h => ?_, fun x y hxy hhost hspindle => ?_⟩
    · obtain ⟨hbusy, hslot, hfree⟩ := s.mbxErrRead_counts m
      exact ⟨_, readToClear_mbxErr h, rfl, s.mbxErrRead_answer m, hbusy, hslot, hfree, fun b hb => s.mbxErrRead_reg_other m hb⟩
    · refine ⟨_, readToClear_mbxErr_two hxy hhost hspindle, ?_, _, State.mbxErrRead_answer _ _, s.mbxErrRead_counts .host⟩
      exact (State.mbxErrRead_answer_other _ (by decide)).trans (s.mbxErrRead_answer .host)
  · refine ⟨fun h => exec_i3cCcc_cutOff h x, fun h hlp => exec_i3cCcc_lowPower h hlp x, fun h hlp => ⟨?_, ?_, ?_, ?_, ?_, ?_⟩⟩
    · rintro a rfl hdyn
      exact exec_i3cCcc_of_ccc h hlp (Chip.ccc_entdaa hdyn a)
    · rintro a d rfl hdyn ha
      exact exec_i3cCcc_of_ccc h hlp (Chip.ccc_setdasa hdyn ha d)
    · rintro rfl
      exact exec_i3cCcc_of_ccc h hlp rfl
    · exact fun a hx hdyn => exec_i3cCcc_of_ccc h hlp (Chip.ccc_directed_elsewhere hx hdyn)
    · rintro a rfl hdyn
      exact exec_i3cCcc_of_ccc h hlp (Chip.ccc_getpid hdyn)
    · rintro k rfl
      exact exec_i3cCcc_of_ccc h hlp rfl

end Sys2Proof.Machine
end

section
/-! PROOFS. The machine: a step runs the command at the front of the queue, and the frame of the datapath's commands. -/

namespace Sys2Proof.Machine

/-! ### The queue -/

/-- A step with a command waiting. -/
theorem step_of_pending_cons {s : State} {c : Instr} {q : List Instr} (h : s.pending = c :: q) : step s = exec c (s.withPending q) := by
  simp only [step, h]

/-- Settles O1: the front of the queue is `c`, and taking it away leaves `q`. -/
theorem stepRunsFrontCommand : Obligations.StepRunsFrontCommand :=
  fun _ _ _ => step_of_pending_cons rfl

/-! ### The frame of the datapath -/

/-- The effect of a command that lies in the part alone cannot reach OTP, the distaff or the queue, so that its frame within the part is
its whole frame. -/
theorem frame_of_chipNext {s : State} {f : Chip → Chip} (h : ∃ t, chipNext s f = .next t ∧ t.chip.still = s.chip.still) :
    ∃ t, chipNext s f = .next t ∧ t.chip.still = s.chip.still ∧ t.fuse = s.fuse ∧ t.dist = s.dist ∧ t.pending = s.pending := by
  obtain ⟨t, ht, hstill⟩ := h
  obtain rfl : s.onChip f = t := Host.Outcome.next.inj ht
  exact ⟨_, rfl, hstill, rfl, rfl, rfl⟩

/-- Settles O58: each command of the datapath acts on the part alone, and there by its own frame lemma; the end of a capture and the
posting of a held completion take the hypothesis that they do not reach further. -/
theorem datapathLeavesTheRestAlone : Obligations.DatapathLeavesTheRestAlone := by
  intro i s hi hr
  cases i with
  | hqUnlock q => exact frame_of_chipNext (execHqUnlock_still q s)
  | hqRelock q openLegs => exact frame_of_chipNext (execHqRelock_still q openLegs s)
  | hostLos h => exact frame_of_chipNext (execHostLos_still h s)
  | hostSignalReturn h => exact frame_of_chipNext (execHostSignalReturn_still h s)
  | hostRelock h => exact frame_of_chipNext (execHostRelock_still h s)
  | hostWatchExpiry h openLegs => exact frame_of_chipNext (execHostWatchExpiry_still h openLegs s)
  | twistHFrame h f openLegs => exact frame_of_chipNext (execTwistHFrame_still h f openLegs s)
  | handoff h tx => exact frame_of_chipNext (execHandoff_still h tx s)
  | echoTimeout h openLegs => exact frame_of_chipNext (execEchoTimeout_still h openLegs s)
  | trainingTimeout h => exact frame_of_chipNext (execTrainingTimeout_still h s)
  | trainingRetry h openLegs => exact frame_of_chipNext (execTrainingRetry_still h openLegs s)
  | ieeeTrainingFrame h f openLegs => exact frame_of_chipNext (execIeeeTrainingFrame_still h f openLegs s)
  | trainingFallback h => exact frame_of_chipNext (execTrainingFallback_still h s)
  | fixedTrained h f openLegs => exact frame_of_chipNext (execFixedTrained_still h f openLegs s)
  | dataFrame h f => exact frame_of_chipNext (execDataFrame_still h f s)
  | hostTxShort h on openLegs => exact frame_of_chipNext (execHostTxShort_still h on openLegs s)
  | foregroundCalibrationDone n => exact frame_of_chipNext (execForegroundCalibrationDone_still n s)
  | lineSignal n => exact frame_of_chipNext (execLineSignal_still n s)
  | snrWindow n snr => exact frame_of_chipNext (execSnrWindow_still n snr s)
  | adcCalUpdate n a => exact frame_of_chipNext (execAdcCalUpdate_still n a s)
  | llrScaleUpdate n x => exact frame_of_chipNext (execLlrScaleUpdate_still n x s)
  | goodSet n => exact frame_of_chipNext (execGoodSet_still n s)
  | voltStep n => exact frame_of_chipNext (execVoltStep_still n s)
  | voltReturn n => exact frame_of_chipNext (execVoltReturn_still n s)
  | tapWord n => exact frame_of_chipNext (execTapWord_still n s)
  | tapChange n => exact frame_of_chipNext (execTapChange_still n s)
  | ttSwap n => exact frame_of_chipNext (execTtSwap_still n s)
  | tapTimeout n => exact frame_of_chipNext (execTapTimeout_still n s)
  | lineTxShort n on => exact frame_of_chipNext (execLineTxShort_still n on s)
  | snapshot n => exact frame_of_chipNext (execSnapshot_still n s)
  | snapshotGuardEnd n => exact frame_of_chipNext (execSnapshotGuardEnd_still n s)
  | checkpoint n => exact frame_of_chipNext (execCheckpoint_still n s)
  | checkpointCommit n => exact frame_of_chipNext (execCheckpointCommit_still n s)
  | pageInStart => exact frame_of_chipNext (execPageInStart_still s)
  | frameSend n f => exact frame_of_chipNext (execFrameSend_still n f s)
  | twistFrame n l => exact frame_of_chipNext (execTwistFrame_still n l s)
  | portRateFault p => exact frame_of_chipNext (execPortRateFault_still p s)
  | rateFaultClear p => exact frame_of_chipNext (execRateFaultClear_still p s)
  | ieeeAlignLoss n => exact frame_of_chipNext (execIeeeAlignLoss_still n s)
  | portSkew p beyond => exact frame_of_chipNext (execPortSkew_still p beyond s)
  | codewordArrival n at_ => exact frame_of_chipNext (execCodewordArrival_still n at_ s)
  | slotBoundary tests residues parity records => exact frame_of_chipNext (execSlotBoundary_still tests residues parity records s)
  | spareRotation => exact frame_of_chipNext (execSpareRotation_still s)
  | codewordRelease n parity => exact frame_of_chipNext (execCodewordRelease_still n parity s)
  | rsCodeword p x => exact frame_of_chipNext (execRsCodeword_still p x s)
  | plyDown => exact frame_of_chipNext (execPlyDown_still s)
  | laneLost n => exact frame_of_chipNext (execLaneLost_still n s)
  | heldCompletionPost => exact frame_of_chipNext (execHeldCompletionPost_still s hr)
  | moderationTimeout => exact frame_of_chipNext (execModerationTimeout_still s)
  | sysInfo src => exact frame_of_chipNext (execSysInfo_still src s)
  | sysEcho src => exact frame_of_chipNext (execSysEcho_still src s)
  | sysTime src => exact frame_of_chipNext (execSysTime_still src s)
  | sysCfgSave src => exact frame_of_chipNext (execSysCfgSave_still src s)
  | enablePort src => exact frame_of_chipNext (execEnablePort_still src s)
  | disablePort src => exact frame_of_chipNext (execDisablePort_still src s)
  | getPortMap src => exact frame_of_chipNext (execGetPortMap_still src s)
  | hostTrainCfg src => exact frame_of_chipNext (execHostTrainCfg_still src s)
  | hostRetrain src openLegs => exact frame_of_chipNext (execHostRetrain_still src openLegs s)
  | hostLaneStatus src => exact frame_of_chipNext (execHostLaneStatus_still src s)
  | hostTxSet src => exact frame_of_chipNext (execHostTxSet_still src s)
  | lineRxStatus src => exact frame_of_chipNext (execLineRxStatus_still src s)
  | lineRxCfg src => exact frame_of_chipNext (execLineRxCfg_still src s)
  | lineRetrain src => exact frame_of_chipNext (execLineRetrain_still src s)
  | lineCapture src => exact frame_of_chipNext (execLineCapture_still src s)
  | captureEnd n data => exact frame_of_chipNext (execCaptureEnd_still n data s hr)
  | lineTxStatus src => exact frame_of_chipNext (execLineTxStatus_still src s)
  | lineTxCfg src => exact frame_of_chipNext (execLineTxCfg_still src s)
  | lineTxTable src => exact frame_of_chipNext (execLineTxTable_still src s)
  | hankPolicy src => exact frame_of_chipNext (execHankPolicy_still src s)
  | hankStatus src => exact frame_of_chipNext (execHankStatus_still src s)
  | hankRead src => exact frame_of_chipNext (execHankRead_still src s)
  | hankWrite src => exact frame_of_chipNext (execHankWrite_still src s)
  | hankPin src => exact frame_of_chipNext (execHankPin_still src s)
  | hankUnpin src => exact frame_of_chipNext (execHankUnpin_still src s)
  | hankLoad src => exact frame_of_chipNext (execHankLoad_still src s)
  | hankFlush src => exact frame_of_chipNext (execHankFlush_still src s)
  | creelCfg src => exact frame_of_chipNext (execCreelCfg_still src s)
  | creelStatus src => exact frame_of_chipNext (execCreelStatus_still src s)
  | creelStats src => exact frame_of_chipNext (execCreelStats_still src s)
  | creelRsStats src => exact frame_of_chipNext (execCreelRsStats_still src s)
  | plyStatus src => exact frame_of_chipNext (execPlyStatus_still src s)
  | plyMirror src => exact frame_of_chipNext (execPlyMirror_still src s)
  | plySubst src => exact frame_of_chipNext (execPlySubst_still src s)
  | telPort src => exact frame_of_chipNext (execTelPort_still src s)
  | flyRequest src => exact frame_of_chipNext (execFlyRequest_still src s)
  | flyCfg src => exact frame_of_chipNext (execFlyCfg_still src s)
  | flyNodes src => exact frame_of_chipNext (execFlyNodes_still src s)
  | guardGet src => exact frame_of_chipNext (execGuardGet_still src s)
  | hkRead src => exact frame_of_chipNext (execHkRead_still src s)
  | requestExpiry i => exact frame_of_chipNext (execRequestExpiry_still i s)
  | linkDown p => exact frame_of_chipNext (execLinkDown_still p s)
  | notify => exact frame_of_chipNext (execNotify_still s)
  | blindAdaptationDone n => exact frame_of_chipNext (execBlindAdaptationDone_still n s)
  | adaptationWindow n a => exact frame_of_chipNext (execAdaptationWindow_still n a s)
  | keepaliveReceived p => exact frame_of_chipNext (execKeepaliveReceived_still p s)
  | sidebandTransmission p collision => exact frame_of_chipNext (execSidebandTransmission_still p collision s)
  | _ => cases hi

end Sys2Proof.Machine
end

section
/-! PROOFS. OTP over every step, and what the chip resets keep and clear: power-on reset, `RESET_N`, software chip reset, core supply loss and
the Whorl restart. -/

namespace Sys2Proof.Machine

/-! ### OTP -/

/-- A power-on reset performs no other reset, so OTP stays as it is. -/
theorem fuse_resetBy_por (s : State) (also : List ResetSource) (k v : Nat) : (s.resetBy .por also k v).fuse = s.fuse := by
  rw [resetBy_por]
  rfl

/-- Every step lets OTP go on as it may. -/
theorem step_fuse_follows {s t : State} (h : step s = .next t) : s.fuse.follows t.fuse := by
  rcases step_kept s with ⟨k, v, also, q, hq⟩ | ⟨u, hu, hfuse, -⟩
  · rw [step_of_pending_cons hq] at h
    obtain rfl := Host.Outcome.next.inj h
    rw [fuse_resetBy_por]
    exact Otp.follows_refl _
  · obtain rfl := Host.Outcome.next.inj (hu.symm.trans h)
    exact hfuse

/-- Settles O7: every step but a power-on reset is known to let OTP go on as it may, and a power-on reset keeps OTP. -/
theorem otpIsNeverErased : Obligations.OtpIsNeverErased := by
  intro s t h
  obtain ⟨hlc, hid, htarget, hfused, hkey, hkilled⟩ := step_fuse_follows h
  exact ⟨hlc, hid, htarget, hfused, hkey, hkilled⟩

/-! ### The chip resets -/

/-- Noting the sources of a reset changes no field of another register. -/
theorem noteResets_fld (c : Chip) (l : List ResetSource) (f : Fld) (h : f.addr ≠ GLB_RST_STATUS.addr) :
    (c.noteResets l).fld f = c.fld f := (noteResets_calm c l).fld f (by simpa using h)

/-- Whatever reset a cycle performs, every source that acted in it has left its bit (R35). -/
theorem resetBy_flag (s : State) (r : ResetSource) (also : List ResetSource) (k v : Nat) {x : ResetSource} (h : x ∈ r :: also) :
    (s.resetBy r also k v).chip.flag (resetFlag x) = true := by
  unfold State.resetBy
  dsimp only [State.onChip]
  split
  · rw [Chip.flag_setFlag_other _ _ _ _ (by cases x <;> decide)]
    exact noteResets_flag _ _ _ (Or.inl h)
  · exact noteResets_flag _ _ _ (Or.inl h)

/-- The part at the end of a power-on reset, but for `GLB_RST_STATUS`. -/
def State.porChip (s : State) (k v : Nat) : Chip :=
  ((porBase s.fuse s.chip.flash k (2 * v + 1) s.chip.fresh).supplyLevel).setFld GLB_BOOT_STATUS.STEP 1

theorem resetBy_por_chip (s : State) (also : List ResetSource) (k v : Nat) :
    (s.resetBy .por also k v).chip = (s.porChip k v).noteResets (.por :: also) := by
  rw [resetBy_por]
  exact congrArg (fun c => Chip.noteResets c (.por :: also)) (porReset_chip s k v)

theorem resetBy_por_dist (s : State) (also : List ResetSource) (k v : Nat) :
    (s.resetBy .por also k v).dist = ⟨0, 0, false, false⟩ := by
  rw [resetBy_por]
  rfl

/-- The state beside the registers after a power-on reset. -/
theorem resetBy_por_rest (s : State) (also : List ResetSource) (k v : Nat) :
    let c := (s.resetBy .por also k v).chip
    c.flash = s.chip.flash ∧ c.mem = [] ∧ c.mbx = {} ∧ c.pmu = {} ∧ c.limited = true ∧ c.straps = k := by
  rw [resetBy_por_chip]
  have hcalm := noteResets_calm (s.porChip k v) (.por :: also)
  obtain ⟨hflash, hmem, hmbx⟩ := noteResets_other (s.porChip k v) (.por :: also)
  obtain ⟨pflash, pmem, pmbx, ppmu, plimited, pstraps⟩ := por_other s.fuse s.chip.flash k (2 * v + 1) s.chip.fresh
  exact ⟨hflash.trans pflash, hmem.trans pmem, hmbx.trans pmbx, hcalm.pmu.trans ppmu, hcalm.limited.trans plimited,
    hcalm.straps.trans pstraps⟩

/-- The start stands at step 1 after a power-on reset. -/
theorem resetBy_por_step (s : State) (also : List ResetSource) (k v : Nat) :
    (s.resetBy .por also k v).chip.fld GLB_BOOT_STATUS.STEP = 1 := by
  rw [resetBy_por_chip, noteResets_fld _ _ _ (by decide)]
  exact Chip.fld_setFld _ _ _ (by decide)

/-- The supply monitors after a power-on reset: AON_OK, and the others as the supplies stand. -/
theorem resetBy_por_supplies (s : State) (also : List ResetSource) (k v : Nat) (hv : v < 32) :
    ((s.resetBy .por also k v).chip.reg GLB_SUPPLY_STATUS.addr).toNat = 2 * v + 1 := by
  rw [resetBy_por_chip, noteResets_reg _ _ _ (by decide)]
  exact (congrArg BitVec.toNat (Chip.reg_setFld_other _ _ _ _ (by decide))).trans (por_supply _ _ _ _ _ (by omega))

/-- Settles O14: the part after a power-on reset is `State.porChip` with the sources noted, and every reset notes its sources. -/
theorem powerOnResetState : Obligations.PowerOnResetState := by
  have hpor : ∀ (s : State) (k : Fin 8) (v : Fin 32) (also : List ResetSource) (r : ResetSource), r ∈ ResetSource.por :: also →
      (s.resetBy .por also k.1 v.1).chip.flag (resetFlag r) = true := fun s k v also r => resetBy_flag s .por also k.1 v.1
  have hpin : ∀ (s : State) (k : Fin 8) (also : List ResetSource) (r : ResetSource),
      r ∈ ResetSource.pin :: also.filter (fun r => r != .por) →
      (s.resetBy .pin (also.filter (fun r => r != .por)) k.1 0).chip.flag (resetFlag r) = true :=
    fun s k also r => resetBy_flag s .pin _ k.1 0
  constructor
  · intro s straps supplies also
    obtain ⟨hflash, hmem, hmbx, hpmu, hlimited, hstraps⟩ := resetBy_por_rest s also straps.1 supplies.1
    refine ⟨s.resetBy .por also straps.1 supplies.1, rfl, fuse_resetBy_por .., resetBy_por_dist .., hflash, hmem, hmbx, hpmu, hlimited,
      hstraps, hpor s straps supplies also .por (by simp), resetBy_por_step .., resetBy_por_supplies s also _ _ supplies.2, ?_⟩
    intro a ha
    simp only [List.mem_cons, List.not_mem_nil, or_false, not_or] at ha
    obtain ⟨hrst, hsupply, hstr, havs, hboot, hlc, hsess, hlo, hhi⟩ := ha
    rw [resetBy_por_chip, noteResets_reg _ _ _ hrst]
    exact (Chip.reg_setFld_other _ _ _ _ hboot).trans (por_reg _ _ _ _ _ a hsupply hstr havs hlc hsess hlo hhi)
  · intro s k v r also hr
    constructor
    · exact ⟨s.resetBy .por also k.1 v.1, rfl, hpor s k v also .por (by simp), hpor s k v also r (by simp [hr])⟩
    · intro hne
      exact ⟨s.resetBy .pin (also.filter (fun r => r != .por)) k.1 0, rfl, hpin s k also .pin (by simp),
        hpin s k also r (by simp [hr, hne])⟩

/-- The two registers of the fray condition. -/
def frayReg (a : Nat) : Bool := a == GLB_FRAY_STATUS.addr || a == GLB_FRAY_HIST.addr

theorem Calm.evalFray_frayReg (c : Chip) : Calm frayReg c c.evalFray := Calm.setFray frayReg (by decide) (by decide) _ _

/-! ### The resets with the reach of `RESET_N` -/

/-- What a reset with the reach of `RESET_N` leaves of the part `c` (R32, R33, R301, R376): flash, the bytes of the config shadow and
the ECC address log. -/
structure PinKept (c d : Chip) : Prop where
  flash : d.flash = c.flash
  mbx : d.mbx = {}
  limited : d.limited = true
  mem : d.mem = shadowCells c.mem
  log : ∀ a, 0xB0100 ≤ a → a < 0xB0200 → d.reg a = c.reg a

/-- A byte of the config shadow's part of a memory. -/
theorem byte_shadowCells (m : List Host.Cell) (a : Nat) :
    tabGet Memory.unlisted (shadowCells m) a =
      if 0xE00000 ≤ a ∧ a < 0xE40000 then tabGet Memory.unlisted m a else 0 := by
  simpa [shadowCells] using byte_filter m (fun a => decide (0xE00000 ≤ a) && decide (a < 0xE40000)) a

theorem PinKept.byte_shadow {c d : Chip} (h : PinKept c d) (a : Nat) (h1 : 0xE00000 ≤ a) (h2 : a < 0xE40000) :
    d.byte a = c.byte a := by
  unfold Chip.byte
  rw [h.mem, byte_shadowCells, if_pos ⟨h1, h2⟩]

theorem PinKept.byte_other {c d : Chip} (h : PinKept c d) (a : Nat) (ha : a < 0xE00000 ∨ 0xE40000 ≤ a) : d.byte a = 0 := by
  unfold Chip.byte
  rw [h.mem, byte_shadowCells, if_neg (by omega)]

/-- The reset itself. -/
theorem pinReset_kept (c : Chip) (o : Otp) (r : ResetSource) : PinKept c (c.pinReset o (resetFlag r)) := by
  obtain ⟨hflash, hmbx, hlimited, hmem⟩ := pin_other c o (resetFlag r)
  refine ⟨hflash, hmbx, hlimited, hmem, fun a h1 h2 => ?_⟩
  have hkept : keptByPin a = true := by simp [keptByPin, h1, h2]
  have hne : ∀ b, b < 0xB0100 ∨ 0xB0200 ≤ b → a ≠ b := by omega
  have hf : (resetFlag r).addr < 0xB0100 := by cases r <;> decide
  exact pin_reg c o _ a (hne _ (Or.inl hf)) hkept (hne _ (by decide)) (hne _ (by decide)) (hne _ (by decide)) (hne _ (by decide))
    (hne _ (by decide)) (hne _ (by decide)) (hne _ (by decide))

/-- Further changes of flash, mailbox, memory and the log's registers none. -/
theorem PinKept.of_eq {c d e : Chip} (h : PinKept c d) (hflash : e.flash = d.flash) (hmbx : e.mbx = d.mbx)
    (hlimited : e.limited = d.limited) (hmem : e.mem = d.mem)
    (hlog : ∀ a, 0xB0100 ≤ a → a < 0xB0200 → e.reg a = d.reg a) : PinKept c e :=
  ⟨hflash.trans h.flash, hmbx.trans h.mbx, hlimited.trans h.limited, hmem.trans h.mem,
    fun a h1 h2 => (hlog a h1 h2).trans (h.log a h1 h2)⟩

theorem PinKept.setReg {c d : Chip} (h : PinKept c d) (a : Nat) (v : Word) (ha : a < 0xB0100 ∨ 0xB0200 ≤ a) :
    PinKept c (d.setReg a v) :=
  h.of_eq rfl rfl rfl rfl (fun b h1 h2 => Chip.reg_setReg_other d a b v (by omega))

theorem PinKept.setFld {c d : Chip} (h : PinKept c d) (f : Fld) (v : Nat) (hf : f.addr < 0xB0100) : PinKept c (d.setFld f v) :=
  h.setReg f.addr _ (Or.inl hf)

theorem PinKept.setFlag {c d : Chip} (h : PinKept c d) (f : Fld) (b : Bool) (hf : f.addr < 0xB0100) :
    PinKept c (d.setFlag f b) := h.setFld f (b2n b) hf

theorem PinKept.setLevel {c d : Chip} (h : PinKept c d) (src : Nat) (b : Bool) (pay : Nat) :
    PinKept c (d.setLevel src b pay) :=
  h.of_eq (by simp) (by simp) (by simp) (by simp) (by simp)

theorem PinKept.withStraps {c d : Chip} (h : PinKept c d) (k : Nat) : PinKept c { d with straps := k } :=
  h.of_eq rfl rfl rfl rfl (fun _ _ _ => rfl)

theorem PinKept.evalFray {c d : Chip} (h : PinKept c d) : PinKept c d.evalFray := by
  obtain ⟨hmem, hflash, hmbx⟩ := evalFray_other d
  have hfray : ∀ a, 0xB0100 ≤ a → frayReg a = false := by
    have h1 : GLB_FRAY_STATUS.addr < 0xB0100 := by decide
    have h2 : GLB_FRAY_HIST.addr < 0xB0100 := by decide
    intro a ha
    simp only [frayReg, Bool.or_eq_false_iff, beq_eq_false_iff_ne]
    omega
  exact h.of_eq hflash hmbx (Calm.evalFray_frayReg d).limited hmem (fun a h1 _ => (Calm.evalFray_frayReg d).reg a (hfray a h1))

theorem PinKept.noteResets {c d : Chip} (h : PinKept c d) (l : List ResetSource) : PinKept c (d.noteResets l) := by
  obtain ⟨hflash, hmem, hmbx⟩ := noteResets_other d l
  exact h.of_eq hflash hmbx (noteResets_calm d l).limited hmem
    (fun a h1 _ => noteResets_reg d l a (Nat.ne_of_gt (Nat.lt_of_lt_of_le (by decide) h1)))

theorem PinKept.step1 {c d : Chip} (h : PinKept c d) : PinKept c d.step1 := by
  unfold Chip.step1
  split
  · exact h
  · exact h.setFld _ _ (by decide)

/-- `RESET_N` and a software chip reset. -/
theorem chipReset_pinKept (s : State) (r : ResetSource) (k : Option Nat) : PinKept s.chip (s.chipReset r k).chip := by
  have h := pinReset_kept s.chip s.fuse r
  cases k with
  | none => exact h.step1
  | some k => exact ((h.setFld GLB_STRAPS.MGR_SEL (k % 2) (by decide)).withStraps k).step1

/-- The judgements on the sensors kept over a core supply loss are registers of THM (R440). -/
theorem PinKept.keepSensors {c d : Chip} (h : PinKept c d) (p : Nat → Bool) (w : Nat → Word) (l : List Nat) (hl : ∀ i ∈ l, i < 14) :
    PinKept c (l.foldl (fun (e : Chip) i => if p i then e.setReg (THM_SENSOR.addr i) (w i) else e) d) := by
  induction l generalizing d with
  | nil => exact h
  | cons i l ih =>
    refine ih ?_ (fun j hj => hl j (List.mem_cons_of_mem _ hj))
    have hi : i < 14 := hl i (by simp)
    dsimp only
    split
    · exact h.setReg _ _ (Or.inl (by simp only [THM_SENSOR.addr]; omega))
    · exact h

/-- A core supply loss. -/
theorem supplyReset_pinKept (s : State) : PinKept s.chip s.supplyReset.chip := by
  have h := (((pinReset_kept s.chip s.fuse .supply).setFlag GLB_SUPPLY_STATUS.CORE_OK false (by decide)).setFld THM_STATUS.BROKEN
    (s.chip.fld THM_STATUS.BROKEN) (by decide)).keepSensors (fun i => bit (s.chip.fld THM_STATUS.BROKEN) i)
    (fun i => s.chip.reg (THM_SENSOR.addr i)) (List.range 14) (by simp)
  unfold State.supplyReset
  dsimp only
  split
  · exact h.evalFray
  · exact (h.setLevel _ _ _).evalFray

/-- The resets with the reach of `RESET_N`. -/
def likePin (r : ResetSource) : Prop := r = .pin ∨ r = .soft ∨ r = .supply

/-- A cycle whose widest reset has the reach of `RESET_N` keeps OTP and EPOCH, and of the part what that reach leaves (R35). -/
theorem resetBy_pinKept (s : State) (r : ResetSource) (also : List ResetSource) (k v : Nat) (hw : likePin (widest r also)) :
    let t := s.resetBy r also k v
    t.fuse = s.fuse ∧ t.dist = s.dist.released ∧ PinKept s.chip t.chip := by
  have hnoted : ∀ d : Chip, PinKept s.chip d → PinKept s.chip (if (r :: also).contains .supply && decide (widest r also ≠ .por) then
      (d.noteResets (r :: also)).setFlag GLB_SUPPLY_STATUS.CORE_OK false else d.noteResets (r :: also)) := by
    intro d hd
    split
    · exact (hd.noteResets _).setFlag _ _ (by decide)
    · exact hd.noteResets _
  unfold State.resetBy
  rcases hw with hw | hw | hw <;> rw [hw] at hnoted ⊢
  · exact ⟨rfl, rfl, hnoted _ (chipReset_pinKept s .pin (some k))⟩
  · exact ⟨rfl, rfl, hnoted _ (chipReset_pinKept s .soft none)⟩
  · exact ⟨rfl, rfl, hnoted _ (supplyReset_pinKept s)⟩

/-- `RESET_N` latches the straps (R52). -/
theorem resetBy_pin_straps (s : State) (k : Nat) : (s.resetBy .pin [] k 0).chip.straps = k := by
  have hstep : ∀ c : Chip, c.step1.straps = c.straps := by
    intro c
    unfold Chip.step1
    split <;> rfl
  exact ((noteResets_calm _ _).straps).trans (hstep _)

/-- A core supply that failed is not good. -/
theorem resetBy_supply_coreOk (s : State) : (s.resetBy .supply [] 0 0).chip.flag GLB_SUPPLY_STATUS.CORE_OK = false :=
  Chip.flag_setFlag _ _ _ (by decide) rfl

/-- Settles O15: each of the three resets is the one that its cycle performs, with the reach of `RESET_N`. -/
theorem pinSoftAndSupplyResets : Obligations.PinSoftAndSupplyResets := by
  intro s straps v after
  have hafter : ∀ (u : State) (r : ResetSource) (k w : Nat), likePin r → u.fuse = s.fuse → u.dist = s.dist →
      PinKept s.chip (u.resetBy r [] k w).chip → after (u.resetBy r [] k w) (resetFlag r) := by
    intro u r k w hr hfuse hdist h
    obtain ⟨hf, hd, -⟩ := resetBy_pinKept u r [] k w hr
    exact ⟨hf.trans hfuse, hd.trans (congrArg Distaff.released hdist), h.flash, h.mbx, h.limited,
      resetBy_flag u r [] k w (by simp), h.byte_shadow, h.byte_other, h.log⟩
  have hpin := (resetBy_pinKept s .pin [] straps.1 0 (Or.inl rfl)).2.2
  have hsupply := (resetBy_pinKept s .supply [] 0 0 (Or.inr (Or.inr rfl))).2.2
  refine ⟨⟨_, rfl, hafter s .pin _ _ (Or.inl rfl) rfl rfl hpin, ?_⟩, fun m hm => ⟨?_, ?_⟩, ?_⟩
  · exact resetBy_pin_straps s straps.1
  · intro hkey hchip
    have hsoft := (resetBy_pinKept (s.answered m false) .soft [] 0 0 (Or.inr (Or.inl rfl))).2.2
    refine ⟨_, congrArg Host.Outcome.next ((State.rowWrite_admits s m _ _ hm).trans (if_pos ⟨hkey, hchip⟩)), ?_⟩
    exact hafter (s.answered m false) .soft 0 0 (Or.inr (Or.inl rfl)) rfl rfl
      ⟨hsoft.flash, hsoft.mbx, hsoft.limited, hsoft.mem, hsoft.log⟩
  · intro hbad
    refine congrArg Host.Outcome.next ((State.rowWrite_admits s m _ _ hm).trans (if_neg ?_))
    rintro ⟨hkey, hchip⟩
    rcases hbad with hbad | hbad
    · exact hbad hkey
    · rw [hbad] at hchip; cases hchip
  · intro hcore
    refine ⟨_, congrArg Host.Outcome.next (if_pos hcore), ?_⟩
    exact ⟨hafter s .supply 0 0 (Or.inr (Or.inr rfl)) rfl rfl hsupply, resetBy_supply_coreOk s⟩

/-! ### A Whorl restart -/

/-- What a Whorl restart leaves of the part `c` (R32, R43): memory, the slots and flash, with the start at step 2 and the host and line
domains OFF. -/
structure WhorlKept (c d : Chip) : Prop where
  mem : d.mem = c.mem
  slots : d.mbx.slots = c.mbx.slots
  flash : d.flash = c.flash
  limited : d.limited = true
  step : d.fld GLB_BOOT_STATUS.STEP = 2
  off : ∀ e, 3 ≤ e → e ≤ 15 → d.pdOf e = .off

theorem whorlReset_kept (c : Chip) : WhorlKept c c.whorlReset := by
  obtain ⟨hmem, hflash, hslots, hlimited, -, hstep, hoff⟩ := whorlReset_spec c
  exact ⟨hmem, hslots, hflash, hlimited, hstep, hoff⟩

/-- A calm change that leaves the step of the start, memory, slots and flash leaves all of it. -/
theorem WhorlKept.calm {c d e : Chip} {P : Nat → Bool} (h : WhorlKept c d) (hcalm : Calm P d e)
    (hP : P GLB_BOOT_STATUS.addr = false) (hmem : e.mem = d.mem) (hflash : e.flash = d.flash) (hmbx : e.mbx = d.mbx) : WhorlKept c e where
  mem := hmem.trans h.mem
  slots := (congrArg Mailbox.slots hmbx).trans h.slots
  flash := hflash.trans h.flash
  limited := hcalm.limited.trans h.limited
  step := (hcalm.fld _ hP).trans h.step
  off x h1 h2 := (pdOf_congr (congrArg Pmu.pd hcalm.pmu) x).trans (h.off x h1 h2)

/-- The state after a Whorl restart alone in its cycle. -/
theorem resetBy_whorl_kept (s : State) : WhorlKept s.chip (s.resetBy .whorl [] 0 0).chip := by
  have hraised : WhorlKept s.chip (if s.dist.holder = 0 then s.chip.whorlReset
      else s.chip.whorlReset.raise 0x1B0 (distPayload s.dist.released)) := by
    have h := whorlReset_kept s.chip
    split
    · exact h
    · exact h.calm (Calm.raise (fun _ => false) _ _ _) rfl (by simp) (by simp) (by simp)
  obtain ⟨fmem, fflash, fmbx⟩ := evalFray_other (if s.dist.holder = 0 then s.chip.whorlReset
      else s.chip.whorlReset.raise 0x1B0 (distPayload s.dist.released))
  obtain ⟨nflash, nmem, nmbx⟩ := noteResets_other (Chip.evalFray (if s.dist.holder = 0 then s.chip.whorlReset
      else s.chip.whorlReset.raise 0x1B0 (distPayload s.dist.released))) [.whorl]
  exact (hraised.calm (Calm.evalFray_frayReg _) (by decide) fmem fflash fmbx).calm (noteResets_calm _ _) (by decide) nmem nflash nmbx

/-- Settles O16: the restart, alone in its cycle, leaves what `WhorlKept` lists, and its bit. -/
theorem whorlRestartKeepsMailbox : Obligations.WhorlRestartKeepsMailbox := by
  intro s hlock href
  have h := resetBy_whorl_kept s
  exact ⟨_, congrArg Host.Outcome.next (if_pos ⟨hlock, href⟩), rfl, rfl, h.mem, h.slots, h.flash, h.limited,
    resetBy_flag s .whorl [] 0 0 (x := .whorl) (by simp), h.step, h.off⟩

end Sys2Proof.Machine
end

section
/-! PROOFS. Clocks, the TAP and the supplies. -/

namespace Sys2Proof.Machine

/-! ### Clocks and supply flags -/

/-- The level of EVS_SUPPLY_LOW shows in no flag. -/
@[simp] theorem Chip.supplyLevel_flag (c : Chip) (f : Fld) : c.supplyLevel.flag f = c.flag f := Chip.setLevel_flag ..

@[simp] theorem Chip.supplyLevel_mem (c : Chip) : c.supplyLevel.mem = c.mem := Chip.setLevel_mem ..

@[simp] theorem Chip.supplyLevel_i3c (c : Chip) : c.supplyLevel.i3c = c.i3c := Chip.setLevel_i3c ..

/-- R27: a Whorl that is locked and not yet in HOLDOVER goes there when `REFCLK` fails. -/
theorem holdover_outcome (s : State) (hlock : s.chip.flag CLK_WHORL_STATUS.LOCK = true)
    (hfree : s.chip.flag CLK_WHORL_STATUS.HOLDOVER = false) :
    ∃ t, exec .holdover s = .next t ∧ t.chip.flag CLK_WHORL_STATUS.REFCLK_OK = false ∧ t.chip.flag CLK_WHORL_STATUS.HOLDOVER = true ∧
      t.chip.flag CLK_WHORL_STATUS.LOCK = true ∧ t.chip.mem = s.chip.mem := by
  refine ⟨_, rfl, ?_⟩
  dsimp only [State.onChip]
  rw [if_pos (by simp (disch := decide) [Chip.flag_setFlag_other, hlock, hfree])]
  refine ⟨?_, ?_, ?_, ?_⟩ <;> simp (disch := decide) [Chip.flag_setFlag, Chip.flag_setFlag_other, hlock]

/-- R28: with `REFCLK` back, a Whorl in HOLDOVER slews where it is near enough. -/
theorem refclkReturn_outcome (s : State) (off : Int) :
    ∃ t, exec (.refclkReturn off) s = .next t ∧ t.chip.flag CLK_WHORL_STATUS.REFCLK_OK = true ∧
      t.chip.start.slew = (s.chip.flag CLK_WHORL_STATUS.HOLDOVER && decide (off.natAbs ≤ 20000)) ∧ t.chip.mem = s.chip.mem := by
  refine ⟨_, rfl, ?_⟩
  dsimp only [State.onChip]
  refine ⟨?_, ?_, rfl⟩ <;> simp (disch := decide) [Chip.flag_setFlag, Chip.flag_setFlag_other]

/-- R28: the slew ends HOLDOVER. -/
theorem whorlRecovered_outcome (s : State) (hold : s.chip.flag CLK_WHORL_STATUS.HOLDOVER = true) (hslew : s.chip.start.slew = true) :
    ∃ t, exec .whorlRecovered s = .next t ∧ t.chip.flag CLK_WHORL_STATUS.HOLDOVER = false ∧ t.chip.start.slew = false ∧
      t.chip.mem = s.chip.mem := by
  refine ⟨_, rfl, ?_⟩
  dsimp only [State.onChip]
  rw [if_pos (by simp [hold, hslew])]
  refine ⟨?_, ?_, ?_⟩ <;> simp (disch := decide) [Chip.flag_setFlag]

/-- R24, R30: step 3. -/
theorem whorlLock_outcome (s : State) (hstep : s.chip.fld GLB_BOOT_STATUS.STEP = 2) (hlock : s.chip.flag CLK_WHORL_STATUS.LOCK = false) :
    ∃ t, exec .whorlLock s = .next t ∧ t.chip.flag CLK_WHORL_STATUS.LOCK = true ∧ t.chip.flag CLK_WHORL_STATUS.RING_OSC_ON = false ∧
      t.chip.fld GLB_BOOT_STATUS.STEP = 3 ∧ t.chip.flag PMU_LADDER.RDY_OSC = true ∧ t.chip.limited = false ∧ t.chip.mem = s.chip.mem := by
  refine ⟨_, rfl, ?_⟩
  dsimp only [State.onChip]
  rw [if_pos ⟨hstep, hlock⟩]
  refine ⟨?_, ?_, ?_, ?_, rfl, rfl⟩ <;>
    simp (disch := decide) [Chip.flag_setFlag, Chip.flag_setFlag_other, Chip.flag_setFld_other, Chip.fld_setFld]
  decide

/-- R32: VDD_CORE is back. -/
theorem coreSupplyGood_outcome (s : State) :
    ∃ t, exec .coreSupplyGood s = .next t ∧ t.chip.flag GLB_SUPPLY_STATUS.CORE_OK = true ∧ t.chip.mem = s.chip.mem :=
  ⟨_, rfl, Chip.flag_setFlag _ _ _ (by decide) rfl, rfl⟩

/-- R46: the loss of VDDIO takes the state of the I3C port. -/
theorem vddioLoss_outcome (s : State) :
    ∃ t, exec .vddioLoss s = .next t ∧ t.chip.flag GLB_SUPPLY_STATUS.IO_OK = false ∧ t.chip.i3c = {} ∧ t.chip.mem = s.chip.mem := by
  refine ⟨_, rfl, ?_⟩
  dsimp only [State.onChip]
  refine ⟨?_, ?_, ?_⟩ <;> simp (disch := decide) [Chip.flag_setFlag]

/-- R46, R52: VDDIO back at the voltage that it brings. -/
theorem vddioRestored_outcome (s : State) (b : Bool) :
    ∃ t, exec (.vddioRestored b) s = .next t ∧ t.chip.flag GLB_SUPPLY_STATUS.IO_OK = true ∧
      t.chip.flag GLB_SUPPLY_STATUS.IO_3V3 = b ∧ t.chip.i3c = s.chip.i3c ∧ t.chip.mem = s.chip.mem := by
  refine ⟨_, rfl, ?_⟩
  dsimp only [State.onChip]
  refine ⟨?_, ?_, ?_, ?_⟩ <;> simp (disch := decide) [Chip.flag_setFlag, Chip.flag_setFlag_other]

/-! ### The loss of an analogue supply (R46) -/

/-- A register of the windows that the datapath leaves alone. -/
theorem reg_of_still {c d : Chip} (h : d.still = c.still) (a : Nat) (ha : quiet a = true) : d.reg a = c.reg a := by
  have hreg := congrFun (congrArg Still.regs h) a
  simpa [Chip.still, ha] using hreg

/-- So the domains' states. -/
theorem pdOf_of_still {c d : Chip} (h : d.still = c.still) (e : Nat) : d.pdOf e = c.pdOf e :=
  pdOf_congr (congrArg (fun x => x.pmu.pd) h) e

/-- The word of the supply monitors. -/
def Chip.supplyWord (c : Chip) : Word := c.reg GLB_SUPPLY_STATUS.addr

theorem supplyWord_of_still {c d : Chip} (h : d.still = c.still) : d.supplyWord = c.supplyWord :=
  reg_of_still h _ (by decide)

/-- Every flag of the supply monitors stands in that word. -/
theorem flag_of_supplyWord {c d : Chip} (h : d.supplyWord = c.supplyWord) {f : Fld} (hf : f.addr = GLB_SUPPLY_STATUS.addr) :
    d.flag f = c.flag f := by
  unfold Chip.flag Chip.fld
  rw [hf]
  exact congrArg (fun w => getBits w f.lo f.w == 1) h

/-- The supply monitors lie in `PD_AON`. -/
theorem supply_inDomain (d : Nat) (hd : d ≠ 0) : inDomain d GLB_SUPPLY_STATUS.addr = false := by
  have h : inDomain d GLB_SUPPLY_STATUS.addr = (0 == d) := rfl
  rw [h]
  simpa using Ne.symm hd

@[simp] theorem setPd_supplyWord (c : Chip) (d : Nat) (p : Power) : (c.setPd d p).supplyWord = c.supplyWord := Chip.setPd_reg ..

theorem setFld_supplyWord (c : Chip) (f : Fld) (v : Nat) (h : f.addr ≠ GLB_SUPPLY_STATUS.addr) :
    (c.setFld f v).supplyWord = c.supplyWord := Chip.reg_setFld_other _ _ _ _ (Ne.symm h)

theorem forAll_supplyWord {α : Type} (l : List α) (f : Chip → α → Chip) (h : ∀ c, ∀ x ∈ l, (f c x).supplyWord = c.supplyWord) (c : Chip) :
    (c.forAll l f).supplyWord = c.supplyWord := by
  unfold Chip.forAll
  induction l generalizing c with
  | nil => rfl
  | cons x l ih => rw [List.foldl_cons, ih (fun c y hy => h c y (List.mem_cons_of_mem _ hy)), h c x (by simp)]

/-- A domain other than `PD_AON` is reset. -/
theorem resetLogic_supplyWord (c : Chip) (d : Nat) (hd : d ≠ 0) : (c.resetLogic d).supplyWord = c.supplyWord := by
  have hlost : lostWith d GLB_SUPPLY_STATUS.addr = false := by simp [lostWith, supply_inDomain d hd]
  have hreset : (c.resetRegs (lostWith d)).supplyWord = c.supplyWord :=
    (regIn_filter c.regs (fun a => !(lostWith d a)) GLB_SUPPLY_STATUS.addr).trans (by simp [hlost, Chip.supplyWord])
  have hblocks : (c.resetBlocks d).supplyWord = c.supplyWord := by
    refine Eq.trans ?_ hreset
    unfold Chip.resetBlocks
    dsimp only
    (repeat' split) <;> rfl
  unfold Chip.resetLogic
  dsimp only
  split
  · exact hblocks
  · exact hblocks

theorem clearMemories_still (c : Chip) (d : Nat) : (c.clearMemories d).still = c.still :=
  Chip.forAll_still _ _ _ (fun s m => Chip.clearMemory_still s m)

theorem powerOff_supplyWord (c : Chip) (d : Nat) (hd : 3 ≤ d) : (c.powerOff d).supplyWord = c.supplyWord := by
  unfold Chip.powerOff
  dsimp only
  rw [if_neg (by omega), setPd_supplyWord, supplyWord_of_still (clearMemories_still _ d), resetLogic_supplyWord c d (by omega)]

/-- What follows for the rest of the part when a host or line domain has gone OFF (R427). -/
theorem afterLeave_still (c : Chip) (d : Nat) (h3 : 3 ≤ d) : (c.afterLeave d).still = c.still := by
  unfold Chip.afterLeave
  rw [if_neg (by omega)]
  split
  · exact Chip.setFldBit_still _ _ _ _ (by decide)
  · split
    · rw [Chip.plyDrop_still, Chip.withdrawPages_still]
    · rfl

theorem goOff_supplyWord (c : Chip) (d : Nat) (h3 : 3 ≤ d) : (c.goOff d).supplyWord = c.supplyWord :=
  (supplyWord_of_still (afterLeave_still _ d h3)).trans (powerOff_supplyWord c d h3)

theorem pdOf_goOff (c : Chip) (d e : Nat) (he : 3 ≤ e ∧ e ≤ 15) : (c.goOff e).pdOf d = if d = e then .off else c.pdOf d :=
  (pdOf_of_still (afterLeave_still _ e he.1) d).trans (pdOf_powerOff c d e he)

/-- Several host and line domains going OFF one after another. -/
theorem pdOf_goOffs (l : List Nat) (hl : ∀ e ∈ l, 3 ≤ e ∧ e ≤ 15) (c : Chip) (d : Nat) :
    (c.forAll l Chip.goOff).pdOf d = if d ∈ l then .off else c.pdOf d := by
  unfold Chip.forAll
  induction l generalizing c with
  | nil => simp
  | cons x l ih =>
    rw [List.foldl_cons, ih (fun e he => hl e (List.mem_cons_of_mem _ he)), pdOf_goOff c d x (hl x (by simp))]
    by_cases h1 : d ∈ l <;> by_cases h2 : d = x <;> simp [h1, h2]

theorem setClaim_still (c : Chip) (k n : Nat) (b : Bool) : (c.setClaim k n b).still = c.still := by
  unfold Chip.setClaim
  split
  · exact Chip.hostMod_still ..
  · exact Chip.rxMod_still ..

/-- The claims of TEST_LANE kept over a change. -/
theorem withClaims_still (c : Chip) (f : Chip → Chip) : (c.withClaims f).still = (f c).still := by
  have hset : ∀ (k : Nat) (t : Chip) (n : Nat), (if c.claimedLane k n then t.setClaim k n true else t).still = t.still := by
    intro k t n
    split
    · exact setClaim_still ..
    · rfl
  exact (Chip.forAll_still _ _ _ (hset 1)).trans (Chip.forAll_still _ _ _ (hset 0))

/-- The host and line domains that are not OFF. -/
theorem mem_analogDomains (c : Chip) (d : Nat) : d ∈ c.analogDomains ↔ (3 ≤ d ∧ d ≤ 15) ∧ c.pdOf d ≠ .off := by
  unfold Chip.analogDomains
  simp only [List.mem_filter, List.mem_map, List.mem_range, decide_eq_true_eq]
  constructor
  · rintro ⟨⟨k, hk, rfl⟩, hon⟩
    exact ⟨by omega, hon⟩
  · rintro ⟨⟨h3, h15⟩, hon⟩
    exact ⟨⟨d - 3, by omega, by omega⟩, hon⟩

/-- The flags of the supply monitors as given supplies leave or return. -/
def Chip.setSupplies (c : Chip) (hs hv b : Bool) : Chip :=
  let c := if hs then c.setFlag GLB_SUPPLY_STATUS.HS_OK b else c
  let c := if hv then c.setFlag GLB_SUPPLY_STATUS.HV_OK b else c
  c.supplyLevel

theorem setSupplies_hs (c : Chip) (hs hv b : Bool) (h : hs = true) : (c.setSupplies hs hv b).flag GLB_SUPPLY_STATUS.HS_OK = b := by
  unfold Chip.setSupplies
  subst h
  cases hv <;> simp (disch := decide) [Chip.flag_setFlag, Chip.flag_setFlag_other]

theorem setSupplies_hv (c : Chip) (hs hv b : Bool) (h : hv = true) : (c.setSupplies hs hv b).flag GLB_SUPPLY_STATUS.HV_OK = b := by
  unfold Chip.setSupplies
  subst h
  simp (disch := decide) [Chip.flag_setFlag]

/-- Every host and line domain isolated and turned OFF while an analogue supply is low. -/
def Chip.isolateAnalog (c : Chip) : Chip :=
  if c.analogOk then c
  else
    (Chip.withClaims { c with start := { c.start with isolated := c.start.isolated ||| maskOf 22 c.analogDomains.contains } }
      (fun d => d.forAll c.analogDomains.reverse Chip.goOff)).settle

theorem exec_analogSupplyLoss (s : State) (hs hv : Bool) :
    exec (.analogSupplyLoss hs hv) s = .next { s with chip := (s.chip.setSupplies hs hv false).isolateAnalog } := rfl

theorem isolateAnalog_supplyWord (c : Chip) : c.isolateAnalog.supplyWord = c.supplyWord := by
  unfold Chip.isolateAnalog
  split
  · rfl
  · refine (supplyWord_of_still (Chip.settle_still _)).trans ((supplyWord_of_still (withClaims_still _ _)).trans ?_)
    exact forAll_supplyWord _ _ (fun d e he => goOff_supplyWord d e ((mem_analogDomains c e).1 (List.mem_reverse.1 he)).1.1) _

theorem isolateAnalog_off (c : Chip) (hlow : c.analogOk = false) (d : Nat) (h3 : 3 ≤ d) (h15 : d ≤ 15) :
    c.isolateAnalog.pdOf d = .off := by
  unfold Chip.isolateAnalog
  rw [if_neg (by simp [hlow])]
  rw [pdOf_of_still ((Chip.settle_still _).trans (withClaims_still _ _)) d,
    pdOf_goOffs _ (fun e he => ((mem_analogDomains c e).1 (List.mem_reverse.1 he)).1)]
  split
  · rfl
  · rename_i hnot
    rw [List.mem_reverse, mem_analogDomains] at hnot
    exact Decidable.byContradiction (fun hon => hnot ⟨⟨h3, h15⟩, hon⟩)

/-- R46: the loss of an analogue supply. -/
theorem analogSupplyLoss_outcome (s : State) (hs hv : Bool) (hany : hs = true ∨ hv = true) :
    ∃ t, exec (.analogSupplyLoss hs hv) s = .next t ∧ (hs = true → t.chip.flag GLB_SUPPLY_STATUS.HS_OK = false) ∧
      (hv = true → t.chip.flag GLB_SUPPLY_STATUS.HV_OK = false) ∧ ∀ d, 3 ≤ d → d ≤ 15 → t.chip.pdOf d = .off := by
  have hlow : (s.chip.setSupplies hs hv false).analogOk = false := by
    unfold Chip.analogOk
    rcases hany with h | h
    · rw [setSupplies_hs _ _ _ _ h]; rfl
    · rw [setSupplies_hv _ _ _ _ h, Bool.and_false]
  have hword := isolateAnalog_supplyWord (s.chip.setSupplies hs hv false)
  exact ⟨_, exec_analogSupplyLoss s hs hv,
    fun h => (flag_of_supplyWord hword rfl).trans (setSupplies_hs _ _ _ _ h),
    fun h => (flag_of_supplyWord hword rfl).trans (setSupplies_hv _ _ _ _ h), isolateAnalog_off _ hlow⟩

/-! ### The return of an analogue supply (R46, R186) -/

theorem setRole_supplyWord (c : Chip) (b : Nat) (r : Role) : (c.setRole b r).supplyWord = c.supplyWord := Chip.setRole_reg ..

theorem freezeLate_supplyWord (c : Chip) (d : Nat) : (c.freezeLate d).supplyWord = c.supplyWord := by
  unfold Chip.freezeLate
  split
  · exact (setFld_supplyWord _ _ _ (by decide)).trans (supplyWord_of_still (Chip.takeShadows_still _ _))
  · rfl

theorem fltFull_supplyWord (c : Chip) (f : Nat) : (c.fltFull f).supplyWord = c.supplyWord := by
  have hflt : ∀ x, (c.setFlt f x).supplyWord = c.supplyWord := by
    intro x
    unfold Chip.setFlt
    split <;> rfl
  refine (setFld_supplyWord _ _ _ ?_).trans ((setFld_supplyWord _ _ _ ?_).trans (hflt _)) <;>
    simp only [FLT_COMBED.VALID, FLT_COMBED.addr, FLT_CARDED.VALID, FLT_CARDED.addr, GLB_SUPPLY_STATUS.addr] <;> omega

theorem release_supplyWord (c : Chip) (d : Nat) : (c.release d).supplyWord = c.supplyWord := by
  have hlate : ((c.setPd d .on).freezeLate d).supplyWord = c.supplyWord := (freezeLate_supplyWord _ d).trans (setPd_supplyWord c d .on)
  unfold Chip.release
  dsimp only
  split
  · exact (setRole_supplyWord _ _ _).trans hlate
  · split
    · split
      · exact (fltFull_supplyWord _ _).trans hlate
      · exact hlate
    · split
      · exact (setFld_supplyWord _ _ _ (by decide)).trans hlate
      · exact hlate

theorem restoreFw_supplyWord (c : Chip) (d : Nat) (hd : d ≠ 0) : (c.restoreFw (inDomain d)).supplyWord = c.supplyWord := by
  have hset : ∀ e : Chip, ∀ r ∈ c.shadowNow.fwRegs.filter (fun r => inDomain d r.1), (e.setReg r.1 r.2).supplyWord = e.supplyWord := by
    intro e r hr
    refine Chip.reg_setReg_other e _ _ _ (fun heq => ?_)
    have hin : inDomain d r.1 = true := by simpa using (List.mem_filter.1 hr).2
    rw [← heq, supply_inDomain d hd] at hin
    cases hin
  exact forAll_supplyWord _ _ hset c

theorem relight_still (c : Chip) (n : Nat) : (c.relight n).still = c.still := by
  unfold Chip.relight
  dsimp only
  split
  · rw [Chip.setupTx_still]
    split
    · rw [Chip.putHold_still]
      exact Chip.setFld_still _ _ _ (quiet_ge _ (by simp only [LRX_STATUS.RATE, LRX_STATUS.addr]; omega))
    · exact Chip.startRx_still ..
  · rfl

theorem plyFresh_still (c : Chip) : c.plyFresh.still = c.still := by
  unfold Chip.plyFresh
  dsimp only
  simp (disch := decide) only [Chip.setFld_still, Chip.setPlyRx_still, Chip.upd_still, Chip.freshFramer_still]

theorem loadRecord_still (c : Chip) (n mode rate : Nat) : (c.loadRecord n mode rate).1.still = c.still := by
  have hread := Chip.readBytes_still c .shadow (shadowRecOff n) 2048
  unfold Chip.loadRecord
  generalize c.readBytes .shadow (shadowRecOff n) 2048 = q at hread ⊢
  dsimp only
  split
  · exact hread
  · split
    · exact hread
    · split
      · exact hread
      · rename_i u i hwrite
        have hu := (Chip.writeHank_still _ _ _ _ hwrite).trans hread
        rw [Chip.pinLastGood_still, Chip.unbusy_still]
        split
        · exact hu
        · exact hu

theorem powerUp_supplyWord (c : Chip) (d : Nat) (hd : d ≠ 0) : (c.powerUp d).supplyWord = c.supplyWord := by
  have hup : ((((c.resetLogic d).clearMemories d).release d).restoreFw (inDomain d)).supplyWord = c.supplyWord :=
    (restoreFw_supplyWord _ d hd).trans ((release_supplyWord _ d).trans
      ((supplyWord_of_still (clearMemories_still _ d)).trans (resetLogic_supplyWord c d hd)))
  unfold Chip.powerUp
  dsimp only
  split
  · exact (supplyWord_of_still (relight_still _ _)).trans hup
  · split
    · exact (supplyWord_of_still (Chip.forAll_still _ _ _ Chip.dropBobbin_still)).trans hup
    · split
      · have hfailed := fun v => (setFld_supplyWord (((((c.resetLogic d).clearMemories d).release d).restoreFw (inDomain d)))
          TWF_LANE_FAILED.FAILED v (by decide)).trans hup
        split
        · exact (supplyWord_of_still (plyFresh_still _)).trans (hfailed _)
        · exact hfailed _
      · split
        · exact (supplyWord_of_still (Chip.forAll_still _ _ _ (fun e n => loadRecord_still e n _ _))).trans hup
        · exact hup

theorem openQuad_still (c : Chip) (q rate : Nat) : (c.openQuad q rate).still = c.still := by
  have hrate : quiet (quadRate q).addr = false := (by decide : quiet CLK_HQ_STATUS.addr = false)
  have hlane : ∀ (e : Chip) (h : Nat), (((e.setFld (HLN_STATUS.RATE h) (rate + 1)).setFlag (HLN_STATUS.ORDER_REV h) false).hostMod h
      (fun x => { x with farId := none, targetBad := false, down := false })).still = e.still := by
    intro e h
    rw [Chip.hostMod_still, Chip.setFlag_still, Chip.setFld_still] <;>
      exact quiet_ge _ (by simp only [HLN_STATUS.RATE, HLN_STATUS.ORDER_REV, HLN_STATUS.addr]; omega)
  refine (Chip.forAll_still _ _ _ hlane).trans ?_
  rw [Chip.quadMod_still, Chip.setFldBit_still _ _ _ _ (by decide), Chip.setFld_still _ _ _ hrate]

/-- A host or line domain, or another, set up anew. -/
theorem restoreAnalog_supplyWord (c : Chip) (legs d : Nat) : (c.restoreAnalog legs d).supplyWord = c.supplyWord := by
  unfold Chip.restoreAnalog
  split
  · rfl
  · rename_i hoff
    have hd : d ≠ 0 := by
      rintro rfl
      exact hoff rfl
    have hup := powerUp_supplyWord c d hd
    dsimp only
    split
    · split
      · exact hup
      · exact (supplyWord_of_still (Chip.forAll_still _ _ _ (fun e h => Chip.openHost_still e legs h))).trans
          ((supplyWord_of_still (openQuad_still _ _ _)).trans hup)
    · exact hup

theorem finishClaims_still (c : Chip) : c.finishClaims.still = c.still := by
  refine Chip.forAll_still _ _ _ (fun e x => ?_)
  split
  · split
    · exact Chip.endCmd_still ..
    · rfl
  · rfl

/-- The domains that come up when both analogue supplies are good: those isolated, and those whose lanes are in use. -/
def Chip.analogReturns (c : Chip) : List Nat :=
  let used := maskOf 22 (fun d =>
    if 3 ≤ d ∧ d ≤ 6 then c.quadUsed (d - 3) || (quadLanes (d - 3)).any (c.claimedLane 0)
    else if 7 ≤ d ∧ d ≤ 15 then c.claimedLane 1 (d - 7) || c.laneUsed (d - 7) && !(c.laneFailed (d - 7))
    else false)
  domainsOf (c.start.isolated ||| (if 10 ≤ c.step ∨ c.step = 9 then used else 0))

/-- Those domains powered up again where both supplies are good. -/
def Chip.returnAnalog (c : Chip) (legs : Nat) : Chip :=
  if c.analogOk then
    ((Chip.withClaims { c with start := { c.start with isolated := 0 } }
      (fun d => d.forAll c.analogReturns (fun d k => d.restoreAnalog legs k))).settle).finishClaims
  else c

theorem exec_analogSupplyRestored (s : State) (hs hv : Bool) (legs : BitVec 16) :
    exec (.analogSupplyRestored hs hv legs) s = .next { s with chip := (s.chip.setSupplies hs hv true).returnAnalog legs.toNat } := rfl

theorem returnAnalog_supplyWord (c : Chip) (legs : Nat) : (c.returnAnalog legs).supplyWord = c.supplyWord := by
  unfold Chip.returnAnalog
  split
  · refine (supplyWord_of_still ((finishClaims_still _).trans ((Chip.settle_still _).trans (withClaims_still _ _)))).trans ?_
    exact forAll_supplyWord _ _ (fun d k _ => restoreAnalog_supplyWord d legs k) _
  · rfl

/-- R46: the return of an analogue supply. -/
theorem analogSupplyRestored_outcome (s : State) (hs hv : Bool) (legs : BitVec 16) :
    ∃ t, exec (.analogSupplyRestored hs hv legs) s = .next t ∧ (hs = true → t.chip.flag GLB_SUPPLY_STATUS.HS_OK = true) ∧
      (hv = true → t.chip.flag GLB_SUPPLY_STATUS.HV_OK = true) := by
  have hword := returnAnalog_supplyWord (s.chip.setSupplies hs hv true) legs.toNat
  exact ⟨_, exec_analogSupplyRestored s hs hv legs,
    fun h => (flag_of_supplyWord hword rfl).trans (setSupplies_hs _ _ _ _ h),
    fun h => (flag_of_supplyWord hword rfl).trans (setSupplies_hv _ _ _ _ h)⟩

/-- Settles O17: command by command; a lost or returning analogue supply moves domains and lanes, but not the word of the monitors. -/
theorem clocksAndSupplyFlags : Obligations.ClocksAndSupplyFlags :=
  ⟨fun s => ⟨rfl, holdover_outcome s, refclkReturn_outcome s, whorlRecovered_outcome s, whorlLock_outcome s, coreSupplyGood_outcome s,
    vddioLoss_outcome s, vddioRestored_outcome s⟩,
   fun s hs hv legs hany => ⟨analogSupplyLoss_outcome s hs hv hany, analogSupplyRestored_outcome s hs hv legs⟩⟩

end Sys2Proof.Machine
end

section
/-! PROOFS. The steps of the start. -/

namespace Sys2Proof.Machine

/-! ### Step 2: the domains of R43 -/

/-- A domain of step 2 comes up, and the others stay. -/
theorem pdOf_regUp (c : Chip) (d e : Nat) (he : 0 < e ∧ e < 22) : (c.regUp e).pdOf d = if d = e then .on else c.pdOf d := by
  unfold Chip.regUp
  split
  · rename_i hon
    split
    · subst d
      exact of_decide_eq_true hon
    · rfl
  · have hclear : ((c.resetLogic e).clearMemories e).pdOf d = c.pdOf d :=
      (pdOf_of_still (clearMemories_still _ e) d).trans (pdOf_congr (congrArg Pmu.pd (resetLogic_rest c e).1) d)
    have hup : ((((c.resetLogic e).clearMemories e).setPd e .on).pdOf d) = if d = e then .on else c.pdOf d := by
      rw [pdOf_setPd _ _ _ _ he, hclear]
    dsimp only
    split
    · exact hup
    · exact hup

theorem pdOf_regUps (l : List Nat) (hl : ∀ e ∈ l, 0 < e ∧ e < 22) (c : Chip) (d : Nat) :
    (c.forAll l Chip.regUp).pdOf d = if d ∈ l then .on else c.pdOf d := by
  unfold Chip.forAll
  induction l generalizing c with
  | nil => simp
  | cons x l ih =>
    rw [List.foldl_cons, ih (fun e he => hl e (List.mem_cons_of_mem _ he)), pdOf_regUp c d x (hl x (by simp))]
    by_cases h1 : d ∈ l <;> by_cases h2 : d = x <;> simp [h1, h2]

/-- A wake by Fleyth touches its cause and the ports' engines alone (R368). -/
theorem flyWoken_rest (c : Chip) (cause : Nat) : (∀ d, (c.flyWoken cause).pdOf d = c.pdOf d) ∧
    ∀ a, a ≠ FLY_WAKE_CAUSE.addr → (c.flyWoken cause).reg a = c.reg a := by
  unfold Chip.flyWoken
  split
  · exact ⟨fun _ => rfl, fun _ _ => rfl⟩
  · have hports : ∀ (l : List Nat) (e : Chip), Calm (fun _ => false) e
        (e.forAll l (fun e p => e.flyMod p (fun x => { x with sendWake := true }))) :=
      fun l e => Calm.forAll _ _ _ (fun e p => Calm.flyMod _ e p _) e
    have hset : ∀ v a, a ≠ FLY_WAKE_CAUSE.addr → (c.setReg FLY_WAKE_CAUSE.addr v).reg a = c.reg a :=
      fun v a ha => Chip.reg_setReg_other c _ _ v ha
    dsimp only
    split
    · refine ⟨fun d => ?_, fun a ha => ?_⟩
      · exact pdOf_congr (congrArg Pmu.pd (hports _ _).pmu) d
      · exact ((hports _ _).reg a rfl).trans (hset _ a ha)
    · exact ⟨fun _ => rfl, hset _⟩

/-- R43, R368, R490: step 2. -/
theorem rdyReg_outcome (s : State) (hstep : s.chip.step ≤ 1) (hcore : s.chip.flag GLB_SUPPLY_STATUS.CORE_OK = true)
    (htrip : s.chip.flag THM_STATUS.TRIP = false) (hlp : s.chip.pmu.lowPower = false)
    (hlock : s.chip.flag CLK_WHORL_STATUS.LOCK = false) :
    ∃ t, exec .rdyReg s = .next t ∧ t.chip.fld GLB_BOOT_STATUS.STEP = 2 ∧ t.chip.flag PMU_LADDER.RDY_REG = true ∧
      ∀ d ∈ [1, 2, 16, 17, 18, 19, 20, 21], t.chip.pdOf d = .on := by
  refine ⟨_, rfl, ?_⟩
  dsimp only [State.onChip]
  rw [if_pos ⟨hstep, hcore, htrip, hlp, hlock⟩]
  generalize hc : (s.chip.rebase (fun c => c.showOtp s.fuse)).forAll step2Domains Chip.regUp = c
  generalize (Chip.pmu _).wakeDetail = cause
  obtain ⟨hpd, hreg⟩ := flyWoken_rest ((c.setFlag PMU_LADDER.RDY_REG true).setFld GLB_BOOT_STATUS.STEP 2) cause
  refine ⟨?_, ?_, fun d hd => ?_⟩
  · unfold Chip.fld
    rw [hreg _ (by decide)]
    exact Chip.fld_setFld _ _ _ (by decide)
  · unfold Chip.flag Chip.fld
    rw [hreg _ (by decide)]
    refine (Chip.flag_setFld_other (c.setFlag PMU_LADDER.RDY_REG true) GLB_BOOT_STATUS.STEP PMU_LADDER.RDY_REG 2 (by decide)).trans ?_
    exact Chip.flag_setFlag _ _ _ (by decide) rfl
  · have hdom : d ∈ step2Domains := hd
    rw [hpd]
    refine (show _ = c.pdOf d from rfl).trans ?_
    rw [← hc, pdOf_regUps _ (by decide), if_pos hdom]

/-! ### Steps 4 and 5 -/

theorem roleOf_setRole (c : Chip) (b k : Nat) (r : Role) (hb : b < 2) :
    (c.setRole b r).roleOf k = if k = b then r else c.roleOf k := by
  unfold Chip.setRole Chip.roleOf
  rw [dif_pos hb, Vector.toList_set]
  by_cases h : k = b
  · subst h
    simp [hb]
  · rw [if_neg h, List.getElem?_set_ne (Ne.symm h)]

/-- EVT writes the records that it kept back: no register, no role. -/
theorem Calm.replay (c : Chip) : Calm (fun _ => false) c c.replay := by
  have hone : ∀ (k : Fin 3) (d : Chip) (src : Nat), Calm (fun _ => false) d
      (if bit512 d.evt.cons[k.1].pend src then
        let r := flushPend d.evt k src (((d.evt.cons[k.1].stamps.find? (fun p => p.1 == src)).map (fun p => p.2)).getD d.evt.time)
        Chip.emit { d with evt := r.1 } r.2 else d) := by
    intro k d src
    split
    · refine Calm.trans ?_ (Calm.emit _ _ _)
      constructor <;> intros <;> rfl
    · exact Calm.refl _ _
  have hall : ∀ d : Chip, Calm (fun _ => false) d (d.forAll allConsumers (fun s k =>
      s.forAll (List.range 512) (fun d src => if bit512 d.evt.cons[k.1].pend src then
        let r := flushPend d.evt k src (((d.evt.cons[k.1].stamps.find? (fun p => p.1 == src)).map (fun p => p.2)).getD d.evt.time)
        Chip.emit { d with evt := r.1 } r.2 else d))) :=
    fun d => Calm.forAll _ _ _ (fun e k => Calm.forAll _ _ _ (hone k) e) d
  have hevt : ∀ (d : Chip) (e : EvtBlk), Calm (fun _ => false) d { d with evt := e } := by
    intro d e
    constructor <;> intros <;> rfl
  exact ((hevt c _).trans (hall _)).trans (hevt _ _)

/-- R37, R347, R477: steps 4 and 5. -/
theorem doffRecordSelect_outcome (s : State) (hstep : s.chip.step = 3) :
    ∃ t, exec .doffRecordSelect s = .next t ∧ t.chip.fld GLB_BOOT_STATUS.STEP = 5 ∧ t.chip.flag PMU_LADDER.RDY_MEM = true ∧
      t.chip.flag PMU_LADDER.RDY_LOG = true ∧ t.chip.roleOf 0 = .boot ∧ t.chip.roleOf 1 = .boot := by
  refine ⟨_, rfl, ?_⟩
  dsimp only [State.onChip]
  rw [if_pos hstep]
  generalize (s.chip.forAll step2Domains Chip.clearMemories).selectRecord s.fuse = c
  generalize hu : ((((c.setFlag PMU_LADDER.RDY_MEM true).setRole 0 .boot).setRole 1 .boot).setFlag PMU_LADDER.RDY_LOG true).setFld
    GLB_BOOT_STATUS.STEP 5 = u
  have hcalm : Calm frayReg u (if u.evalFray.evt.halted then u.evalFray.replay else u.evalFray) := by
    split
    · exact (Calm.evalFray_frayReg u).trans ((Calm.replay _).mono (fun _ h => absurd h Bool.false_ne_true))
    · exact Calm.evalFray_frayReg u
  have hrole : ∀ k, Chip.roleOf (if u.evalFray.evt.halted then u.evalFray.replay else u.evalFray) k = u.roleOf k := by
    intro k
    unfold Chip.roleOf
    rw [hcalm.spn]
  rw [hcalm.fld _ (by decide), hcalm.flag _ (by decide), hcalm.flag _ (by decide), hrole, hrole, ← hu]
  have hroles : ∀ (d : Chip) (b : Bool) (n : Nat) (k : Nat), ((d.setFlag PMU_LADDER.RDY_LOG b).setFld GLB_BOOT_STATUS.STEP n).roleOf k =
      d.roleOf k := fun _ _ _ _ => rfl
  have hflag : ∀ (d : Chip) (b : Nat) (r : Role) (f : Fld), (d.setRole b r).flag f = d.flag f := by
    intro d b r f
    unfold Chip.flag Chip.fld
    rw [Chip.setRole_reg]
  refine ⟨Chip.fld_setFld _ _ _ (by decide), ?_, ?_, ?_, ?_⟩
  · simp (disch := decide) [Chip.flag_setFlag, Chip.flag_setFlag_other, Chip.flag_setFld_other, hflag]
  · simp (disch := decide) [Chip.flag_setFlag, Chip.flag_setFld_other]
  · rw [hroles, roleOf_setRole _ _ _ _ (by decide), roleOf_setRole _ _ _ _ (by decide)]; rfl
  · rw [hroles, roleOf_setRole _ _ _ _ (by decide)]; rfl

/-! ### Step 6 -/

/-- R479: step 6. -/
theorem startUpCheck_outcome (s : State) (found : List DoffEntry) (hstep : s.chip.step = 5)
    (hvalid : s.chip.flag GLB_BOOT_STATUS.DOFF_VALID = false) :
    ∃ t, exec (.startUpCheck found) s = .next t ∧ t.chip.fld GLB_BOOT_STATUS.STEP = 6 ∧
      t.chip.flag GLB_BOOT_STATUS.CHECK_RUN = true := by
  refine ⟨_, rfl, ?_⟩
  dsimp only [State.onChip]
  rw [if_pos ⟨hstep, hvalid⟩]
  refine ⟨Chip.fld_setFld _ _ _ (by decide), ?_⟩
  rw [Chip.flag_setFld_other _ _ _ _ (by decide), Chip.flag_setFlag _ _ _ (by decide) rfl]

/-! ### Steps 7 and 8 -/

/-- R38: the first candidate is sound and is booted. -/
theorem selectImage_boots (s : State) (hstep : s.chip.step = 6)
    (hwait : s.chip.flag GLB_BOOT_STATUS.WAIT_HOST = false) (k : Nat) (i : Image) (l : List (Nat × Image))
    (hcand : s.chip.candidates s.fuse = (k, i) :: l) (hk : k ≤ 1) (hsig : i.sigOk = true) :
    ∃ t, exec .selectImage s = .next t ∧ t.chip.fld GLB_BOOT_STATUS.STEP = 8 ∧ t.chip.fld GLB_BOOT_STATUS.SRC = k + 1 ∧
      t.chip.flag GLB_BOOT_STATUS.WAIT_HOST = false := by
  refine ⟨_, rfl, ?_⟩
  dsimp only [State.onChip]
  rw [if_pos ⟨Or.inl hstep, hwait⟩, hcand, Chip.tryImages, if_pos hsig]
  unfold Chip.bootImage
  dsimp only
  refine ⟨Chip.fld_setFld _ _ _ (by decide), ?_, ?_⟩
  · rw [Chip.fld_setFld_other _ _ _ _ (by decide), Chip.fld_setFlag_other _ _ _ _ (by decide), Chip.fld_setFld _ _ _ (by decide)]
    exact Nat.mod_eq_of_lt (Nat.lt_of_le_of_lt (Nat.succ_le_succ hk) (by decide))
  · rw [Chip.flag_setFld_other _ _ _ _ (by decide), Chip.flag_setFlag _ _ _ (by decide) rfl]

/-- R38: without a candidate the boot ROM waits for the host. -/
theorem selectImage_waits (s : State) (hstep : s.chip.step = 6)
    (hwait : s.chip.flag GLB_BOOT_STATUS.WAIT_HOST = false) (hcand : s.chip.candidates s.fuse = []) :
    ∃ t, exec .selectImage s = .next t ∧ t.chip.flag GLB_BOOT_STATUS.WAIT_HOST = true := by
  refine ⟨_, rfl, ?_⟩
  dsimp only [State.onChip]
  rw [if_pos ⟨Or.inl hstep, hwait⟩, hcand, Chip.tryImages, (Calm.serve _).flag _ (by decide)]
  exact Chip.flag_setFlag _ _ _ (by decide) rfl

/-! ### Step 9: Krelin and the distaff (R283) -/

/-- A valid claim of Spindle A alone is won. -/
theorem claims_onlyA (o : DistOut) (e : Word) (h : o.dist.validClaim 1 (some e) = true) : o.claims (some e) none = o.win 1 e false := by
  have hnone : o.dist.validClaim 2 none = false := rfl
  unfold DistOut.claims
  simp only [h, hnone]
  rfl

/-- With no holder a winner fences no one. -/
theorem win_free_dist (o : DistOut) (e : Word) (h : o.dist.holder = 0) :
    (o.win 1 e false).dist = { o.dist with holder := 1, epoch := e.toNat } := by
  simp [DistOut.win, DistOut.result, h]

/-- With no holder and A not fenced, A's claim of the next epoch, alone in its cycle, is won. -/
theorem evalDistaff_firstClaim (d : Distaff) (a b : Bool) (hholder : d.holder = 0) (hfence : d.fencedA = false)
    (hepoch : d.epoch < 0xFFFFFFFF) :
    (evalDistaff d a b { claimA := some (BitVec.ofNat 32 (d.epoch + 1)) }).dist = { d with holder := 1, epoch := d.epoch + 1 } := by
  have hword : (BitVec.ofNat 32 (d.epoch + 1)).toNat = d.epoch + 1 := by
    rw [BitVec.toNat_ofNat]
    exact Nat.mod_eq_of_lt (by omega)
  have hvalid : d.validClaim 1 (some (BitVec.ofNat 32 (d.epoch + 1))) = true := by
    simp [Distaff.validClaim, Distaff.fenced, hfence, hword]
  have heval : evalDistaff d a b { claimA := some (BitVec.ofNat 32 (d.epoch + 1)) } =
      DistOut.claims { dist := d } (some (BitVec.ofNat 32 (d.epoch + 1))) none := rfl
  rw [heval, claims_onlyA _ _ hvalid, win_free_dist _ _ hholder, hword]

/-- An evaluation of the distaff touches the registers that `distReg` names alone. -/
theorem applyDist_reg (s : State) (o : DistOut) (a : Nat) (ha : distReg a = false) : (s.applyDist o).chip.reg a = s.chip.reg a := by
  simp only [distReg, Bool.or_eq_false_iff, beq_eq_false_iff_ne] at ha
  obtain ⟨⟨⟨hlevel, hdebug⟩, hmbx⟩, hresult⟩ := ha
  have hclaim : ∀ (c : Chip) (f : Fld) (r : Option ClaimResult), f.addr = GRD_CLAIM_RESULT.addr → (c.claimResult f r).reg a = c.reg a := by
    intro c f r hf
    cases r with
    | none => rfl
    | some r => exact Chip.reg_setFld_other c f _ a (by rw [hf]; exact hresult)
  have hclaims : (((s.chip.claimResult GRD_CLAIM_RESULT.RESULT_A o.resA).claimResult GRD_CLAIM_RESULT.RESULT_B o.resB)).reg a =
      s.chip.reg a := (hclaim _ _ _ rfl).trans (hclaim _ _ _ rfl)
  unfold State.applyDist
  dsimp only
  rw [(Calm.showDebug _).reg a (by simp [sessReg, hlevel, hdebug])]
  dsimp only
  rw [Chip.resync_reg]
  split_ifs <;> simp only [Chip.newHolder_reg _ _ _ a hmbx, Chip.raise_reg, hclaims]

/-- Krelin's first part at step 9, up to the claim: the shadow, the restored configuration and FW_READY (R40). -/
def Chip.krelinReady (c : Chip) : Chip :=
  let c := if c.start.kept then c else c.loadShadow
  let c := if c.cfg.isNone then c.setFlag GLB_BOOT_STATUS.NO_CFG true else c.restoreConfig
  (c.forAll [0, 1] (fun c b => if c.pdOn (1 + b) then c.startImage b else c)).setFlag GLB_BOOT_STATUS.FW_READY true

/-- Its part after the claim: the cap, the step, and the mailbox that a holder opens (R286, R326, R466). -/
def Chip.krelinServes (c : Chip) (holder : Nat) (pushed : List ExecCmd) : Chip :=
  let c := { (c.fleythCap).setFld GLB_BOOT_STATUS.STEP 9 with fwReadySeen := true }
  let c := Chip.evalFray { c with evt := { c.evt with driven := true } }
  if holder = 0 then c
  else ((((c.takeOver pushed).setFlag MBX_STATUS.OPEN true).forAll pushed (fun c e => c.endCmd e (.okR []))).serve)

/-- The state of the start at step 9 with its claim evaluated. -/
def State.krelinClaims (s : State) : State :=
  (s.onChip Chip.krelinReady).distCycle { claimA := some (BitVec.ofNat 32 (s.dist.epoch + 1)) }

theorem exec_krelinStart (s : State) (hstep : s.chip.step = 8) :
    exec .krelinStart s = .next (s.krelinClaims.onChip (fun c => c.krelinServes s.krelinClaims.dist.holder
      (s.chip.krelinReady.mbx.exec.filter (fun e => decide (e.wait = .imageBoot))))) :=
  congrArg Host.Outcome.next (if_pos hstep)

theorem krelinClaims_dist (s : State) (hholder : s.dist.holder = 0) (hfence : s.dist.fencedA = false)
    (hepoch : s.dist.epoch < 0xFFFFFFFF) : s.krelinClaims.dist = { s.dist with holder := 1, epoch := s.dist.epoch + 1 } :=
  (State.applyDist_dist _ _).trans (evalDistaff_firstClaim s.dist _ _ hholder hfence hepoch)

theorem krelinClaims_ready (s : State) : s.krelinClaims.chip.flag GLB_BOOT_STATUS.FW_READY = true := by
  have hreg : s.krelinClaims.chip.reg GLB_BOOT_STATUS.addr = s.chip.krelinReady.reg GLB_BOOT_STATUS.addr :=
    applyDist_reg _ _ _ (by decide)
  refine Eq.trans ?_ (Chip.flag_setFlag _ _ _ (by decide) rfl : s.chip.krelinReady.flag GLB_BOOT_STATUS.FW_READY = true)
  unfold Chip.flag Chip.fld
  exact congrArg (fun w => getBits w GLB_BOOT_STATUS.FW_READY.lo GLB_BOOT_STATUS.FW_READY.w == 1) hreg

/-- The takeover writes the completions of what was executing, and these go to the mailbox (R286). -/
theorem takeOver_reg (c : Chip) (mine : List ExecCmd) (a : Nat) (ha : serveReg a = false) : (c.takeOver mine).reg a = c.reg a :=
  (Calm.forAll serveReg _ _ (fun _ _ => Calm.complete _ _) _).reg a ha

theorem fleythCap_reg (c : Chip) (a : Nat) (ha : a ≠ FLY_PORT_CFG.addr) : c.fleythCap.reg a = c.reg a := by
  unfold Chip.fleythCap
  split
  · exact Chip.reg_setFld_other _ _ _ _ ha
  · rfl

/-- The registers after the part that follows the claim, where there is a holder. -/
theorem krelinServes_reg (c : Chip) (holder : Nat) (pushed : List ExecCmd) (hholder : holder ≠ 0) (a : Nat) (hserve : serveReg a = false)
    (hfray : frayReg a = false) (hcap : a ≠ FLY_PORT_CFG.addr) :
    (c.krelinServes holder pushed).reg a = ((c.setFld GLB_BOOT_STATUS.STEP 9).setFlag MBX_STATUS.OPEN true).reg a := by
  have hset : ∀ (d e : Chip) (f : Fld) (v : Nat), d.reg a = e.reg a → (d.setFld f v).reg a = (e.setFld f v).reg a := by
    intro d e f v h
    by_cases hf : a = f.addr
    · subst hf
      simp only [Chip.setFld, Chip.reg_setReg, h]
    · rw [Chip.reg_setFld_other _ _ _ _ hf, Chip.reg_setFld_other _ _ _ _ hf, h]
  unfold Chip.krelinServes
  dsimp only
  rw [if_neg hholder, (Calm.serve _).reg a hserve, (Calm.forAll serveReg _ _ (fun _ _ => Calm.endCmd _ _ _) _).reg a hserve]
  refine hset _ _ _ _ ?_
  rw [takeOver_reg _ _ a hserve, (Calm.evalFray_frayReg _).reg a hfray]
  exact hset _ _ _ _ (fleythCap_reg c a hcap)

/-- R40, R283, R286, R326: step 9. -/
theorem krelinStart_outcome (s : State) (hstep : s.chip.step = 8) (hholder : s.dist.holder = 0) (hfence : s.dist.fencedA = false)
    (hepoch : s.dist.epoch < 0xFFFFFFFF) :
    ∃ t, exec .krelinStart s = .next t ∧ t.dist = { s.dist with holder := 1, epoch := s.dist.epoch + 1 } ∧
      t.chip.flag MBX_STATUS.OPEN = true ∧ t.chip.flag GLB_BOOT_STATUS.FW_READY = true ∧ t.chip.fld GLB_BOOT_STATUS.STEP = 9 := by
  have hdist := krelinClaims_dist s hholder hfence hepoch
  have hne : s.krelinClaims.dist.holder ≠ 0 := by rw [hdist]; exact Nat.one_ne_zero
  refine ⟨_, exec_krelinStart s hstep, hdist, ?_⟩
  dsimp only [State.onChip]
  have hready := krelinClaims_ready s
  generalize s.krelinClaims.chip = c at hready ⊢
  have hreg := krelinServes_reg c s.krelinClaims.dist.holder
    (s.chip.krelinReady.mbx.exec.filter (fun e => decide (e.wait = .imageBoot))) hne
  have hfld : ∀ f : Fld, serveReg f.addr = false → frayReg f.addr = false → f.addr ≠ FLY_PORT_CFG.addr →
      (c.krelinServes s.krelinClaims.dist.holder (s.chip.krelinReady.mbx.exec.filter (fun e => decide (e.wait = .imageBoot)))).fld f =
        ((c.setFld GLB_BOOT_STATUS.STEP 9).setFlag MBX_STATUS.OPEN true).fld f := by
    intro f h1 h2 h3
    unfold Chip.fld
    rw [hreg _ h1 h2 h3]
  refine ⟨?_, ?_, ?_⟩
  · unfold Chip.flag
    rw [hfld _ (by decide) (by decide) (by decide)]
    exact Chip.flag_setFlag _ _ _ (by decide) rfl
  · unfold Chip.flag
    rw [hfld _ (by decide) (by decide) (by decide), Chip.fld_setFlag_other _ _ _ _ (by decide), Chip.fld_setFld_other _ _ _ _ (by decide)]
    exact hready
  · rw [hfld _ (by decide) (by decide) (by decide), Chip.fld_setFlag_other _ _ _ _ (by decide)]
    exact Chip.fld_setFld _ _ _ (by decide)

/-! ### Steps 10 to 13 -/

/-- Settling moves the start on from steps 10 and 11 alone, and to step 12 at most (R42). -/
theorem settle_step (c : Chip) : c.settle.step = c.step ∨ ((c.step = 10 ∨ c.step = 11) ∧ (c.settle.step = 11 ∨ c.settle.step = 12)) := by
  have hlanes : c.settleLanes.step = c.step := (Calm.settleLanes c).fld _ (by decide)
  have hsettle : c.settle.step = c.settleLanes.startSteps.step := by
    rw [Chip.settle_eq]
    exact (Calm.evalFray_frayReg _).fld _ (by decide)
  rw [hsettle, ← hlanes]
  generalize c.settleLanes = d
  unfold Chip.startSteps
  dsimp only
  split
  · rename_i hstep
    split
    · right
      refine ⟨hstep, ?_⟩
      have hset : ∀ n, Chip.step (d.setFld GLB_BOOT_STATUS.STEP n) = n % 16 := fun n => Chip.fld_setFld _ _ _ (by decide)
      rw [hset]
      split
      · exact Or.inr rfl
      · exact Or.inl rfl
    · exact Or.inl rfl
  · exact Or.inl rfl

/-- Outside those two steps settling leaves `GLB_BOOT_STATUS` alone. -/
theorem settle_bootReg (c : Chip) (h10 : c.step ≠ 10) (h11 : c.step ≠ 11) :
    c.settle.reg GLB_BOOT_STATUS.addr = c.reg GLB_BOOT_STATUS.addr := by
  have hlanes : c.settleLanes.step = c.step := (Calm.settleLanes c).fld _ (by decide)
  have hstay : c.settleLanes.startSteps = c.settleLanes := by
    unfold Chip.startSteps
    exact if_neg (by rw [← Chip.step, hlanes]; exact not_or.2 ⟨h10, h11⟩)
  rw [Chip.settle_eq, (Calm.evalFray_frayReg _).reg _ (by decide), hstay]
  exact (Calm.settleLanes c).reg _ (by decide)

/-- R41, R42: step 10. -/
theorem portDomainsUp_outcome (s : State) (legs : BitVec 16) (hstep : s.chip.step = 9) (hchecked : s.chip.start.checked = true) :
    ∃ t, exec (.portDomainsUp legs) s = .next t ∧ 10 ≤ t.chip.fld GLB_BOOT_STATUS.STEP ∧ t.chip.fld GLB_BOOT_STATUS.STEP ≤ 12 := by
  refine ⟨_, rfl, ?_⟩
  dsimp only [State.onChip]
  rw [if_pos ⟨hstep, hchecked⟩]
  generalize (if Chip.plyFitted _ then _ else _ : Chip) = c
  have hten : (c.setFld GLB_BOOT_STATUS.STEP 10).step = 10 := Chip.fld_setFld _ _ _ (by decide)
  have hsettle := settle_step (c.setFld GLB_BOOT_STATUS.STEP 10)
  unfold Chip.step at hten hsettle
  omega

/-- R42: step 13. -/
theorem trafficReady_outcome (s : State) (h10 : 10 ≤ s.chip.step) (h12 : s.chip.step ≤ 12) :
    ∃ t, exec .trafficReady s = .next t ∧ t.chip.fld GLB_BOOT_STATUS.STEP = 13 ∧ t.chip.flag GLB_BOOT_STATUS.READY = true := by
  refine ⟨_, rfl, ?_⟩
  dsimp only [State.onChip]
  rw [if_pos ⟨h10, h12⟩]
  generalize List.foldl _ s.chip _ = c
  have hstep : Chip.step ((c.setFld GLB_BOOT_STATUS.STEP 13).setFlag GLB_BOOT_STATUS.READY true) = 13 :=
    (Chip.fld_setFlag_other _ _ _ _ (by decide)).trans (Chip.fld_setFld _ _ _ (by decide))
  have hreg := settle_bootReg ((c.setFld GLB_BOOT_STATUS.STEP 13).setFlag GLB_BOOT_STATUS.READY true) (by rw [hstep]; decide)
    (by rw [hstep]; decide)
  have hfld : ∀ f : Fld, f.addr = GLB_BOOT_STATUS.addr →
      (((c.setFld GLB_BOOT_STATUS.STEP 13).setFlag GLB_BOOT_STATUS.READY true).settle.raise 0x1D5 0).fld f =
        ((c.setFld GLB_BOOT_STATUS.STEP 13).setFlag GLB_BOOT_STATUS.READY true).fld f := by
    intro f hf
    rw [Chip.raise_fld]
    unfold Chip.fld
    rw [hf, hreg]
  refine ⟨(hfld _ rfl).trans hstep, ?_⟩
  unfold Chip.flag
  rw [hfld _ rfl]
  exact Chip.flag_setFlag _ _ _ (by decide) rfl

/-! ### The core voltage check (R43) -/

/-- What a conversion of the converter leaves of the part `c`: the memories, the domains, the state of the start and the core target. -/
structure ConvKept (c d : Chip) : Prop where
  mem : d.mem = c.mem
  pmu : d.pmu = c.pmu
  start : d.start = c.start
  avs : d.reg GLB_AVS.addr = c.reg GLB_AVS.addr

theorem ConvKept.refl (c : Chip) : ConvKept c c := ⟨rfl, rfl, rfl, rfl⟩

theorem ConvKept.trans {c d e : Chip} (h : ConvKept c d) (k : ConvKept d e) : ConvKept c e :=
  ⟨k.mem.trans h.mem, k.pmu.trans h.pmu, k.start.trans h.start, k.avs.trans h.avs⟩

theorem ConvKept.setReg (c : Chip) (a : Nat) (v : Word) (h : GLB_AVS.addr ≠ a) : ConvKept c (c.setReg a v) :=
  ⟨rfl, rfl, rfl, Chip.reg_setReg_other _ _ _ _ h⟩

theorem ConvKept.setFld (c : Chip) (f : Fld) (v : Nat) (h : GLB_AVS.addr ≠ f.addr) : ConvKept c (c.setFld f v) :=
  ConvKept.setReg c f.addr _ h

theorem ConvKept.raise (c : Chip) (src pay : Nat) : ConvKept c (c.raise src pay) := ⟨by simp, by simp, by simp, by simp⟩

theorem ConvKept.forAll {α : Type} (l : List α) (f : Chip → α → Chip) (h : ∀ c, ∀ x ∈ l, ConvKept c (f c x)) (c : Chip) :
    ConvKept c (c.forAll l f) := by
  unfold Chip.forAll
  induction l generalizing c with
  | nil => exact ConvKept.refl c
  | cons x l ih => exact (h c x (by simp)).trans (ih (fun d y hy => h d y (List.mem_cons_of_mem _ hy)) (f c x))

theorem ConvKept.dmaMod (c : Chip) (n : Nat) (f : DmaCh → DmaCh) : ConvKept c (c.dmaMod n f) := by
  unfold Chip.dmaMod
  split
  · exact ⟨rfl, rfl, rfl, rfl⟩
  · exact ConvKept.refl c

theorem dmaStatus_ne_avs (n : Nat) : GLB_AVS.addr ≠ DMA_STATUS.addr n := by
  simp only [GLB_AVS.addr, DMA_STATUS.addr]
  omega

theorem ConvKept.dmaLine (c : Chip) (line : Nat) : ConvKept c (c.dmaLine line) := by
  have hone : ∀ (d : Chip) (n : Nat), ConvKept d (d.dmaReqCh line n) := by
    intro d n
    unfold Chip.dmaReqCh
    split
    · exact ConvKept.refl d
    · split
      · exact (ConvKept.setFld d _ _ (dmaStatus_ne_avs n)).trans (ConvKept.dmaMod _ _ _)
      · split
        · exact (ConvKept.setFld d _ _ (dmaStatus_ne_avs n)).trans (ConvKept.raise _ _ _)
        · exact ConvKept.dmaMod _ _ _
  unfold Chip.dmaLine
  split
  · exact ConvKept.forAll _ _ (fun d n _ => hone d n) c
  · exact ConvKept.refl c

theorem ConvKept.setHkList (c : Chip) (x : HkaList) : ConvKept c (c.setHkList true x) := by
  refine ConvKept.trans ?_ (ConvKept.setFld _ _ _ (by decide))
  exact ⟨rfl, rfl, rfl, rfl⟩

/-- The list that a change of the urgent list leaves in hand. -/
theorem hkList_setHkList (c : Chip) (x : HkaList) : (c.setHkList true x).hkList true = x := rfl

/-- The urgent list in the run of a lone entry of channel 17 without averaging. -/
def coreRun (trig : Word) : HkaList := { running := true, lag := 12, ents := [17#32], trig := trig }

theorem hkaUrg_ne_avs (e : Nat) : GLB_AVS.addr ≠ HKA_URG_ENTRY.addr e ∧ GLB_AVS.addr ≠ HKA_URG_RES.addr e := by
  simp only [GLB_AVS.addr, HKA_URG_ENTRY.addr, HKA_URG_RES.addr]
  omega

/-- A run of the urgent list, waiting with nothing else in hand, whose last entry is 0 and that entry channel 17. -/
theorem hkStart_core (c : Chip) (hlist : c.hkList true = { waiting := true, lag := 12 })
    (hlast : c.fld HKA_LIST_LEN.URG_LAST = 0) (hentry : c.reg (HKA_URG_ENTRY.addr 0) = 17#32) :
    (c.hkStart true).hkList true = coreRun (c.reg HKA_URG_TRIG.addr) := by
  unfold Chip.hkStart
  dsimp only
  rw [hkList_setHkList, hlist]
  simp only [if_true, hlast, hentry, List.range_one, List.map_cons, List.map_nil, Nat.zero_add]
  rfl

/-- The run of the check starts with that entry. -/
theorem coreConversion_run (c : Chip) (code : Nat) : ∃ trig d, ConvKept c d ∧ d.hkList true = coreRun trig ∧
    c.coreConversion code = d.hkCode true code := by
  let w := (c.setReg (HKA_URG_ENTRY.addr 0) 17#32).setFld HKA_LIST_LEN.URG_LAST 0
  let v := w.setHkList true { waiting := true, lag := 12 }
  have hkept : ConvKept c v :=
    ((ConvKept.setReg c _ _ (hkaUrg_ne_avs 0).1).trans (ConvKept.setFld _ _ _ (by decide))).trans (ConvKept.setHkList _ _)
  have hlast : v.fld HKA_LIST_LEN.URG_LAST = 0 := by
    have hset : v.fld HKA_LIST_LEN.URG_LAST = w.fld HKA_LIST_LEN.URG_LAST := Chip.fld_setFld_other _ _ _ _ (by decide)
    rw [hset]
    exact Chip.fld_setFld _ _ _ (by decide)
  have hentry : v.reg (HKA_URG_ENTRY.addr 0) = 17#32 := by
    have hset : v.reg (HKA_URG_ENTRY.addr 0) = w.reg (HKA_URG_ENTRY.addr 0) := Chip.reg_setFld_other _ _ _ _ (by decide)
    rw [hset]
    exact (Chip.reg_setFld_other _ _ _ _ (by decide)).trans (Chip.reg_setReg _ _ _)
  exact ⟨_, v.hkStart true, hkept.trans (ConvKept.setHkList _ _), hkStart_core v rfl hlast hentry, rfl⟩

/-- The conversion ends the run with its result, its event and its request (R407, R412, R422). -/
theorem coreConversion_kept (c : Chip) (code : Nat) : ConvKept c (c.coreConversion code) := by
  obtain ⟨trig, d, hkept, hrun, hcode⟩ := coreConversion_run c code
  rw [hcode]
  refine hkept.trans ?_
  have hlone : ¬ (coreRun trig).done + 1 < entryConvs ((coreRun trig).ents.getD (coreRun trig).idx 0) :=
    (by decide : ¬ 0 + 1 < entryConvs 17#32)
  have hfilter : ¬ getBits ((coreRun trig).ents.getD (coreRun trig).idx 0) 16 1 = 1 :=
    (by decide : ¬ getBits 17#32 16 1 = 1)
  have hend : ¬ (coreRun trig).idx < (coreRun trig).last := Nat.lt_irrefl 0
  have hresult : ∀ sum, ConvKept d (d.hkResult true (coreRun trig) sum) := by
    intro sum
    unfold Chip.hkResult
    dsimp only
    rw [if_neg hfilter]
    exact ConvKept.setReg _ _ _ (hkaUrg_ne_avs _).2
  have hrunEnd : ∀ e : Chip, ConvKept e (e.hkRunEnd true) := fun e =>
    ((ConvKept.setHkList e {}).trans (ConvKept.raise _ _ _)).trans (ConvKept.dmaLine _ _)
  unfold Chip.hkCode
  dsimp only
  rw [hrun, if_neg hlone, if_neg hend]
  exact (hresult _).trans (hrunEnd _)

theorem forAll_resetReg (l : List Nat) (c : Chip) (a : Nat) :
    (c.forAll l Chip.resetReg).reg a = if a ∈ l then resetWord a else c.reg a := by
  unfold Chip.forAll
  induction l generalizing c with
  | nil => simp
  | cons x l ih =>
    rw [List.foldl_cons, ih]
    by_cases h1 : a ∈ l
    · simp [h1]
    · by_cases h2 : a = x
      · subst h2
        simp [h1, reg_resetReg]
      · simp [h1, h2, reg_resetReg_other]

/-- The registers of the urgent list. -/
def urgentRegs : List Nat := [HKA_URG_TRIG.addr] ++ (List.range 4).flatMap (fun e => [HKA_URG_ENTRY.addr e, HKA_URG_RES.addr e])

/-- The urgent list's registers after the check are at their reset values, and its list is empty; the rest of the part stays (R43). -/
theorem urgentReset_spec (c : Chip) : ConvKept c c.urgentReset ∧ c.urgentReset.hka.urg = {} ∧
    ∀ a ∈ urgentRegs, c.urgentReset.reg a = resetWord a := by
  have hone : ∀ d : Chip, ∀ a ∈ urgentRegs, ConvKept d (d.resetReg a) := by
    have hne : ∀ a ∈ urgentRegs, GLB_AVS.addr ≠ a := by decide
    exact fun d a ha => ⟨rfl, rfl, rfl, reg_resetReg_other d a _ (hne a ha)⟩
  have hreset := forAll_resetReg urgentRegs c
  have hkept := ConvKept.forAll _ _ hone c
  have hdef : c.urgentReset = ((c.forAll urgentRegs Chip.resetReg).setHkList true {}).setFld HKA_LIST_LEN.URG_LAST 0 := rfl
  rw [hdef]
  generalize c.forAll urgentRegs Chip.resetReg = d at hreset hkept ⊢
  refine ⟨(hkept.trans (ConvKept.setHkList _ _)).trans (ConvKept.setFld _ _ _ (by decide)), rfl, fun a ha => ?_⟩
  have hne : ∀ b ∈ urgentRegs, b ≠ HKA_LIST_LEN.addr ∧ b ≠ HKA_STATUS.addr := by decide
  refine (Chip.reg_setFld_other _ _ _ _ (hne a ha).1).trans ((Chip.reg_setFld_other _ _ _ _ (hne a ha).2).trans ?_)
  exact (hreset a).trans (if_pos ha)

/-- Whether the core voltage lies in range, as the check converts it (R43, R404). -/
def Chip.coreGood (c : Chip) (microvolts : Nat) : Bool := coreInRange (c.fld GLB_AVS.TARGET) (hkCodeOf 17 microvolts)

/-- The end of the check: the urgent list given back, its outcome and that it is over. -/
def Chip.checkEnds (c : Chip) (good : Bool) : Chip :=
  let d := c.when (c.pdOn 20) Chip.urgentReset
  { d.setFlag GLB_AVS.OFF_TARGET (!good) with start := { d.start with checked := true } }

/-- The check where the converter's domain is ON. -/
def Chip.coreCheck (c : Chip) (microvolts : Nat) (waited : Bool) : Chip :=
  let d := c.coreConversion (hkCodeOf 17 microvolts)
  if c.coreGood microvolts || waited then d.checkEnds (c.coreGood microvolts) else d

theorem exec_coreVoltageCheck (s : State) (microvolts : Nat) (waited : Bool) (hstep : s.chip.step = 9)
    (hcfg : s.chip.flag GLB_BOOT_STATUS.NO_CFG = false) (hchecked : s.chip.start.checked = false) (hhk : s.chip.pdOn 20 = true) :
    exec (.coreVoltageCheck microvolts waited) s = .next { s with chip := s.chip.coreCheck microvolts waited } := by
  unfold exec execCoreVoltageCheck chipNext State.onChip Chip.coreCheck
  dsimp only
  rw [if_pos ⟨hstep, hcfg, hchecked⟩]
  simp only [hhk, Chip.when, if_true, Bool.true_and]
  rfl

theorem checkEnds_spec (c : Chip) (good : Bool) (hhk : c.pdOn 20 = true) :
    (c.checkEnds good).flag GLB_AVS.OFF_TARGET = (!good) ∧ (c.checkEnds good).start.checked = true ∧ (c.checkEnds good).hka.urg = {} ∧
      (∀ a ∈ urgentRegs, (c.checkEnds good).reg a = resetWord a) ∧ (c.checkEnds good).mem = c.mem := by
  obtain ⟨hkept, hurg, hregs⟩ := urgentReset_spec c
  unfold Chip.checkEnds Chip.when
  rw [if_pos hhk]
  generalize c.urgentReset = d at hkept hurg hregs ⊢
  have hne : ∀ a ∈ urgentRegs, a ≠ GLB_AVS.addr := by decide
  refine ⟨?_, rfl, hurg, fun a ha => ?_, hkept.mem⟩
  · exact Chip.flag_setFlag d _ _ (by decide) rfl
  · exact (Chip.reg_setFld_other d GLB_AVS.OFF_TARGET _ a (hne a ha)).trans (hregs a ha)

/-- R43: the check is over where the voltage is in range or 1 s has passed. -/
theorem coreVoltageCheck_over (s : State) (microvolts : Nat) (waited : Bool) (hstep : s.chip.step = 9)
    (hcfg : s.chip.flag GLB_BOOT_STATUS.NO_CFG = false) (hchecked : s.chip.start.checked = false) (hhk : s.chip.pdOn 20 = true)
    (hover : s.chip.coreGood microvolts = true ∨ waited = true) :
    ∃ t, exec (.coreVoltageCheck microvolts waited) s = .next t ∧ t.chip.flag GLB_AVS.OFF_TARGET = (!(s.chip.coreGood microvolts)) ∧
      t.chip.start.checked = true ∧ t.chip.hka.urg = {} ∧
      (∀ e, e < 4 → t.chip.reg (HKA_URG_ENTRY.addr e) = resetWord (HKA_URG_ENTRY.addr e) ∧
        t.chip.reg (HKA_URG_RES.addr e) = resetWord (HKA_URG_RES.addr e)) ∧ t.chip.mem = s.chip.mem := by
  refine ⟨_, exec_coreVoltageCheck s microvolts waited hstep hcfg hchecked hhk, ?_⟩
  dsimp only
  unfold Chip.coreCheck
  rw [if_pos (by simpa using hover)]
  have hkept := coreConversion_kept s.chip (hkCodeOf 17 microvolts)
  generalize s.chip.coreConversion (hkCodeOf 17 microvolts) = c at hkept ⊢
  have hon : c.pdOn 20 = true := by
    unfold Chip.pdOn
    rw [pdOf_congr (congrArg Pmu.pd hkept.pmu)]
    exact hhk
  obtain ⟨htarget, hdone, hurg, hregs, hmem⟩ := checkEnds_spec c (s.chip.coreGood microvolts) hon
  have hin : ∀ e, e < 4 → HKA_URG_ENTRY.addr e ∈ urgentRegs ∧ HKA_URG_RES.addr e ∈ urgentRegs := by decide
  exact ⟨htarget, hdone, hurg, fun e he => ⟨hregs _ (hin e he).1, hregs _ (hin e he).2⟩, hmem.trans hkept.mem⟩

/-- R43: it goes on otherwise. -/
theorem coreVoltageCheck_goesOn (s : State) (microvolts : Nat) (waited : Bool) (hstep : s.chip.step = 9)
    (hcfg : s.chip.flag GLB_BOOT_STATUS.NO_CFG = false) (hchecked : s.chip.start.checked = false) (hhk : s.chip.pdOn 20 = true)
    (hlow : s.chip.coreGood microvolts = false) (hwait : waited = false) :
    ∃ t, exec (.coreVoltageCheck microvolts waited) s = .next t ∧ t.chip.start.checked = false ∧
      t.chip.flag GLB_AVS.OFF_TARGET = s.chip.flag GLB_AVS.OFF_TARGET ∧ t.chip.mem = s.chip.mem := by
  refine ⟨_, exec_coreVoltageCheck s microvolts waited hstep hcfg hchecked hhk, ?_⟩
  dsimp only
  unfold Chip.coreCheck
  rw [if_neg (by simp [hlow, hwait])]
  have hkept := coreConversion_kept s.chip (hkCodeOf 17 microvolts)
  refine ⟨(congrArg (fun x => x.checked) hkept.start).trans hchecked, ?_, hkept.mem⟩
  unfold Chip.flag Chip.fld
  rw [show GLB_AVS.OFF_TARGET.addr = GLB_AVS.addr from rfl, hkept.avs]

/-- Settles O18: step by step. -/
theorem startUpSteps : Obligations.StartUpSteps := by
  intro s legs found waited microvolts
  refine ⟨rdyReg_outcome s, doffRecordSelect_outcome s, startUpCheck_outcome s found, fun hstep hwait => ⟨?_, ?_⟩, krelinStart_outcome s,
    fun hstep hcfg hchecked hhk => ⟨?_, ?_⟩, portDomainsUp_outcome s legs, trafficReady_outcome s⟩
  · exact fun k i l hcand hk hsig => selectImage_boots s hstep hwait k i l hcand hk hsig
  · exact selectImage_waits s hstep hwait
  · exact coreVoltageCheck_over s microvolts waited hstep hcfg hchecked hhk
  · exact coreVoltageCheck_goesOn s microvolts waited hstep hcfg hchecked hhk

end Sys2Proof.Machine
end

section
/-! PROOFS. Host lane training and a quad's synthesiser. -/

namespace Sys2Proof.Machine

/-! ### Registers kept -/

/-- From `c` to `d` every register stays but those that `P` names. -/
def RegsKept (P : Nat → Bool) (c d : Chip) : Prop := ∀ a, P a = false → d.reg a = c.reg a

theorem RegsKept.refl (P : Nat → Bool) (c : Chip) : RegsKept P c c := fun _ _ => rfl

theorem RegsKept.trans {P : Nat → Bool} {c d e : Chip} (h : RegsKept P c d) (k : RegsKept P d e) : RegsKept P c e :=
  fun a ha => (k a ha).trans (h a ha)

theorem RegsKept.mono {P Q : Nat → Bool} {c d : Chip} (h : RegsKept P c d) (hPQ : ∀ a, P a = true → Q a = true) : RegsKept Q c d :=
  fun a ha => h a (Bool.eq_false_iff.2 (fun hP => Bool.eq_false_iff.1 ha (hPQ a hP)))

theorem RegsKept.ofRegs (P : Nat → Bool) {c d : Chip} (h : d.regs = c.regs) : RegsKept P c d := fun a _ => Chip.reg_congr h a

theorem RegsKept.setFld {P : Nat → Bool} (c : Chip) (f : Fld) (v : Nat) (h : P f.addr = true) : RegsKept P c (c.setFld f v) := by
  refine fun a ha => Chip.reg_setFld_other c f v a (fun he => ?_)
  rw [he, h] at ha
  exact Bool.noConfusion ha

theorem RegsKept.setFlag {P : Nat → Bool} (c : Chip) (f : Fld) (b : Bool) (h : P f.addr = true) : RegsKept P c (c.setFlag f b) :=
  RegsKept.setFld c f _ h

theorem RegsKept.ite {P : Nat → Bool} {c d e : Chip} {p : Prop} [Decidable p] (h : RegsKept P c d) (k : RegsKept P c e) :
    RegsKept P c (if p then d else e) := by
  split
  · exact h
  · exact k

theorem RegsKept.hostMod (P : Nat → Bool) (c : Chip) (h : Nat) (f : HostLane → HostLane) : RegsKept P c (c.hostMod h f) :=
  RegsKept.ofRegs P (Chip.hostMod_regs c h f)

theorem RegsKept.quadMod (P : Nat → Bool) (c : Chip) (q : Nat) (f : QuadSt → QuadSt) : RegsKept P c (c.quadMod q f) :=
  RegsKept.ofRegs P (Chip.quadMod_regs c q f)

theorem RegsKept.forAll {α : Type} {P : Nat → Bool} (l : List α) (f : Chip → α → Chip) (h : ∀ c, ∀ x ∈ l, RegsKept P c (f c x)) (c : Chip) :
    RegsKept P c (c.forAll l f) := by
  unfold Chip.forAll
  induction l generalizing c with
  | nil => exact RegsKept.refl P c
  | cons x l ih => exact (h c x (by simp)).trans (ih (fun d y hy => h d y (List.mem_cons_of_mem _ hy)) (f c x))

theorem RegsKept.settle (c : Chip) : RegsKept settleReg c c.settle := (Calm.settle c).reg

theorem RegsKept.fld {P : Nat → Bool} {c d : Chip} (h : RegsKept P c d) (f : Fld) (hf : P f.addr = false) : d.fld f = c.fld f := by
  unfold Chip.fld
  rw [h _ hf]

theorem RegsKept.flag {P : Nat → Bool} {c d : Chip} (h : RegsKept P c d) (f : Fld) (hf : P f.addr = false) : d.flag f = c.flag f := by
  unfold Chip.flag
  rw [h.fld f hf]

/-! ### A field kept by a run of operations over the lanes -/

/-- Operations that each keep what `v` reads keep it together. -/
theorem forAll_keeps {α β : Type} (v : Chip → β) (l : List α) (f : Chip → α → Chip) (h : ∀ c, ∀ x ∈ l, v (f c x) = v c) (c : Chip) :
    v (c.forAll l f) = v c := by
  unfold Chip.forAll
  induction l generalizing c with
  | nil => rfl
  | cons x l ih => exact (ih (fun d y hy => h d y (List.mem_cons_of_mem _ hy)) (f c x)).trans (h c x (by simp))

/-- What each operation brings about for its own element, and none takes away, holds for every element after them all. -/
theorem forAll_brings {α : Type} (p : Chip → α → Prop) (l : List α) (f : Chip → α → Chip) (hown : ∀ c x, p (f c x) x)
    (hkeep : ∀ c x y, p c y → p (f c x) y) (c : Chip) : ∀ y ∈ l, p (c.forAll l f) y := by
  have hstay : ∀ (l : List α) (c : Chip) (y : α), p c y → p (c.forAll l f) y := by
    intro l
    induction l with
    | nil => exact fun _ _ h => h
    | cons x l ih => exact fun c y h => ih (f c x) y (hkeep c x y h)
  induction l generalizing c with
  | nil => simp
  | cons x l ih =>
    intro y hy
    rcases List.mem_cons.1 hy with rfl | hy
    · exact hstay l (f c y) y (hown c y)
    · exact ih (f c x) y hy

/-! ### The window of a host lane -/

/-- The registers of host lane `h`. -/
def laneReg (h a : Nat) : Bool := decide (0x100000 + 0x10000 * h ≤ a) && decide (a < 0x110000 + 0x10000 * h)

theorem laneReg_eq_false (h a : Nat) : laneReg h a = false ↔ a < 0x100000 + 0x10000 * h ∨ 0x110000 + 0x10000 * h ≤ a := by
  simp only [laneReg, Bool.and_eq_false_iff, decide_eq_false_iff_not]
  omega

theorem laneReg_of (h k : Nat) (hk : k < 0x10000) : laneReg h (0x100000 + k + 0x10000 * h) = true := by
  simp only [laneReg, Bool.and_eq_true, decide_eq_true_eq]
  omega

/-- The status and the fault register of host lane `h`. -/
def laneStatusReg (h a : Nat) : Bool := a == HLN_STATUS.addr h || a == HLN_FAULT.addr h

/-- The registers of host lane `h` but those that count its training. -/
def laneStartReg (h a : Nat) : Bool := laneReg h a && a != HLN_TRAIN_STATUS.addr h

theorem laneStart_of_status (h a : Nat) (ha : laneStatusReg h a = true) : laneStartReg h a = true := by
  simp only [laneStatusReg, Bool.or_eq_true, beq_iff_eq, HLN_STATUS.addr, HLN_FAULT.addr] at ha
  simp only [laneStartReg, laneReg, HLN_TRAIN_STATUS.addr, Bool.and_eq_true, decide_eq_true_eq, bne_iff_ne]
  omega

theorem lane_of_start (h a : Nat) (ha : laneStartReg h a = true) : laneReg h a = true := by
  simp only [laneStartReg, Bool.and_eq_true] at ha
  exact ha.1

theorem laneStatusReg_status (h : Nat) : laneStatusReg h (HLN_STATUS.addr h) = true := by simp [laneStatusReg]

theorem laneStatusReg_fault (h : Nat) : laneStatusReg h (HLN_FAULT.addr h) = true := by simp [laneStatusReg]

/-- No lane's registers are touched by settling. -/
theorem settleReg_hostLane (h a : Nat) (hh : h < 16) (ha : laneReg h a = true) : settleReg a = false := by
  simp only [laneReg, Bool.and_eq_true, decide_eq_true_eq] at ha
  exact settleReg_lane a (by omega) (by omega)

theorem serveReg_hostLane (h a : Nat) (hh : h < 16) (ha : laneReg h a = true) : serveReg a = false :=
  Bool.eq_false_iff.2 (fun hs => Bool.eq_false_iff.1 (settleReg_hostLane h a hh ha) (settleReg_of_serve a hs))

/-- The registers of the lane and those that settling may touch. -/
def laneOrSettle (h a : Nat) : Bool := laneReg h a || settleReg a

theorem laneOrSettle_of_status (h a : Nat) (ha : laneStatusReg h a = true) : laneOrSettle h a = true := by
  simp [laneOrSettle, lane_of_start h a (laneStart_of_status h a ha)]

theorem within_of_kept (s : State) (f : Chip → Chip) (h : Nat) (hk : RegsKept (laneOrSettle h) s.chip (f s.chip)) :
    s.within (s.onChip f) (0x100000 + 0x10000 * h) (0x110000 + 0x10000 * h) := by
  refine ⟨rfl, rfl, fun a ha hs => hk a ?_⟩
  simp [laneOrSettle, (laneReg_eq_false h a).2 ha, hs]

/-! ### What the parts of a start of training do -/

theorem setHostTaps_kept (c : Chip) (h : Nat) (l : List Int) (P : Nat → Bool) (h0 : P (HLN_TX_TAPS0.addr h) = true)
    (h1 : P (HLN_TX_TAPS1.addr h) = true) (h2 : P (HLN_TX_TAPS2.addr h) = true) : RegsKept P c (c.setHostTaps h l) := by
  refine RegsKept.forAll _ _ (fun d p hp => RegsKept.setFld d _ _ ?_) c
  have hf : p.1 ∈ hostTapFlds h := (List.of_mem_zip hp).1
  simp only [hostTapFlds, List.mem_cons, List.not_mem_nil, or_false] at hf
  rcases hf with hf | hf | hf | hf | hf | hf <;> rw [hf] <;> assumption

theorem senseLegs_kept (c : Chip) (h legs : Nat) : RegsKept (laneStatusReg h) c (c.senseLegs h legs) := by
  have hflag := RegsKept.setFlag c (HLN_STATUS.TX_OPEN h) (bit legs h) (laneStatusReg_status h)
  unfold Chip.senseLegs
  dsimp only
  refine RegsKept.ite (hflag.trans ?_) hflag
  exact (RegsKept.setFlag _ (HLN_FAULT.TX_OPEN h) true (laneStatusReg_fault h)).trans (RegsKept.ofRegs _ rfl)

theorem hostNoClock_kept (c : Chip) (h : Nat) : RegsKept (laneStatusReg h) c (c.hostNoClock h) :=
  (RegsKept.setFlag c _ _ (laneStatusReg_status h)).trans (RegsKept.setFld _ _ _ (laneStatusReg_status h))

theorem setHt_kept (c : Chip) (h st : Nat) : RegsKept (laneStatusReg h) c (c.setHt h st) := RegsKept.setFld c _ _ (laneStatusReg_status h)

theorem hostUnlock_kept (c : Chip) (h : Nat) : RegsKept (laneStatusReg h) c (c.hostUnlock h) := by
  unfold Chip.hostUnlock
  dsimp only
  refine RegsKept.trans ?_ (hostNoClock_kept _ h)
  exact RegsKept.ite (RegsKept.setFlag c _ _ (laneStatusReg_fault h)) (RegsKept.refl _ c)

/-- A lane as it starts to train, before its state: the legs, the taps, what is afresh. -/
def Chip.hostPrepared (s : Chip) (h legs : Nat) : Chip :=
  let q := s.quad (quadOf h)
  let s := s.senseLegs h legs
  let s := s.setHostTaps h (s.hostStartTaps h)
  let s := (s.setFlag (HLN_STATUS.TRAINED h) false).setFlag (HLN_STATUS.POL_INV h) false
  let s := s.quadMod (quadOf h) (fun x => { x with laterTraining := x.orderFault })
  s.hostMod h (fun x => { claimed := x.claimed, manual := x.manual, ffe := x.ffe, seqOut := x.seqOut, reqOut := x.reqOut
                          gen := x.gen, chk := x.chk, pattern := q.pattern, ieeeMode := !(s.host400 h) })

theorem hostStart_eq (c : Chip) (h legs : Nat) : c.hostStart h legs =
    ((c.hostPrepared h legs).hostNoClock h).setHt h (if (c.quad (quadOf h)).fixed then htFixed else htSeek) := rfl

theorem hostPrepared_kept (c : Chip) (h legs : Nat) : RegsKept (laneStartReg h) c (c.hostPrepared h legs) := by
  have htap : ∀ k, k < 0x10000 → k ≠ 0x44 → laneStartReg h (0x100000 + k + 0x10000 * h) = true := by
    intro k hk hne
    simp only [laneStartReg, laneReg_of h k hk, HLN_TRAIN_STATUS.addr, Bool.true_and, bne_iff_ne]
    omega
  have hstatus : laneStartReg h (HLN_STATUS.addr h) = true := laneStart_of_status h _ (laneStatusReg_status h)
  unfold Chip.hostPrepared
  dsimp only
  refine RegsKept.trans ?_ (RegsKept.hostMod _ _ _ _)
  refine RegsKept.trans ?_ (RegsKept.quadMod _ _ _ _)
  refine RegsKept.trans ?_ (RegsKept.setFlag _ _ _ hstatus)
  refine RegsKept.trans ?_ (RegsKept.setFlag _ _ _ hstatus)
  refine ((senseLegs_kept c h legs).mono (laneStart_of_status h)).trans ?_
  exact setHostTaps_kept _ h _ _ (htap 0x4C (by decide) (by decide)) (htap 0x50 (by decide) (by decide)) (htap 0x54 (by decide) (by decide))

theorem hostPrepared_trained (c : Chip) (h legs : Nat) : (c.hostPrepared h legs).flag (HLN_STATUS.TRAINED h) = false := by
  unfold Chip.hostPrepared
  dsimp only
  rw [Chip.hostMod_flag, Chip.quadMod_flag, Chip.flag_setFlag_other _ _ _ _ rfl]
  exact Chip.flag_setFlag _ _ _ rfl rfl

theorem hostNoClock_lock (c : Chip) (h : Nat) : (c.hostNoClock h).flag (HLN_STATUS.CDR_LOCK h) = false := by
  unfold Chip.hostNoClock
  rw [Chip.flag_setFld_other _ _ _ _ rfl]
  exact Chip.flag_setFlag _ _ _ rfl rfl

theorem hostNoClock_trained (c : Chip) (h : Nat) : (c.hostNoClock h).flag (HLN_STATUS.TRAINED h) = c.flag (HLN_STATUS.TRAINED h) := by
  unfold Chip.hostNoClock
  rw [Chip.flag_setFld_other _ _ _ _ rfl, Chip.flag_setFlag_other _ _ _ _ rfl]

theorem setHt_htState (c : Chip) (h st : Nat) (hst : st < 8) : (c.setHt h st).htState h = st :=
  (Chip.fld_setFld c (HLN_STATUS.TRAIN_STATE h) st rfl).trans (Nat.mod_eq_of_lt hst)

/-- The state of the training leaves the flags of the lane. -/
theorem setHt_flag (c : Chip) (h st : Nat) (f : Fld) (hf : (HLN_STATUS.TRAIN_STATE h).apart f = true) : (c.setHt h st).flag f = c.flag f :=
  Chip.flag_setFld_other c _ _ _ hf

/-- A lane that starts: its state, without lock, not TRAINED; its counts and the other lanes' registers stay (R76, R80). -/
theorem hostStart_spec (c : Chip) (h legs : Nat) :
    RegsKept (laneStartReg h) c (c.hostStart h legs) ∧ (c.hostStart h legs).htState h = (if (c.quad (quadOf h)).fixed then 7 else 1) ∧
      (c.hostStart h legs).flag (HLN_STATUS.TRAINED h) = false ∧ (c.hostStart h legs).flag (HLN_STATUS.CDR_LOCK h) = false := by
  rw [hostStart_eq]
  refine ⟨?_, ?_, ?_, ?_⟩
  · exact (hostPrepared_kept c h legs).trans (((hostNoClock_kept _ h).trans (setHt_kept _ h _)).mono (laneStart_of_status h))
  · exact setHt_htState _ h _ (by split <;> decide)
  · rw [setHt_flag _ h _ _ rfl, hostNoClock_trained, hostPrepared_trained]
  · rw [setHt_flag _ h _ _ rfl, hostNoClock_lock]

/-- Training restarts: the restart counts, and the lane starts (R86, R92). -/
theorem hostRestart_spec (c : Chip) (h legs : Nat) (hh : h < 16) :
    RegsKept (laneOrSettle h) c (c.hostRestart h legs) ∧ (c.hostRestart h legs).htState h = (if (c.quad (quadOf h)).fixed then 7 else 1) ∧
      (c.hostRestart h legs).flag (HLN_STATUS.TRAINED h) = false ∧ (c.hostRestart h legs).flag (HLN_STATUS.CDR_LOCK h) = false ∧
      (c.hostRestart h legs).fld (HLN_TRAIN_STATUS.RESTART_CNT h) = min 255 (c.fld (HLN_TRAIN_STATUS.RESTART_CNT h) + 1) := by
  obtain ⟨hkept, hstate, htrained, hlock⟩ := hostStart_spec (c.satInc (HLN_TRAIN_STATUS.RESTART_CNT h) 1) h legs
  have hcounts : laneReg h (HLN_TRAIN_STATUS.addr h) = true := laneReg_of h 0x44 (by decide)
  have hstatus : laneReg h (HLN_STATUS.addr h) = true := laneReg_of h 0x40 (by decide)
  have hstays : ∀ f : Fld, laneReg h f.addr = true → ∀ d : Chip, d.settle.fld f = d.fld f :=
    fun f hf d => Chip.settle_fld d f (settleReg_hostLane h _ hh hf)
  unfold Chip.hostRestart
  refine ⟨?_, ?_, ?_, ?_, ?_⟩
  · have hsat : RegsKept (laneReg h) c (c.satInc (HLN_TRAIN_STATUS.RESTART_CNT h) 1) := RegsKept.setFld c _ _ hcounts
    refine ((hsat.trans (hkept.mono (lane_of_start h))).mono (fun a ha => ?_)).trans ((RegsKept.settle _).mono (fun a ha => ?_)) <;>
      simp [laneOrSettle, ha]
  · exact (hstays _ hstatus _).trans hstate
  · exact (congrArg (· == 1) (hstays (HLN_STATUS.TRAINED h) hstatus _)).trans htrained
  · exact (congrArg (· == 1) (hstays (HLN_STATUS.CDR_LOCK h) hstatus _)).trans hlock
  · rw [hstays _ hcounts, hkept.fld _ (by simp [laneStartReg, HLN_TRAIN_STATUS.RESTART_CNT])]
    refine (Chip.fld_setFld c (HLN_TRAIN_STATUS.RESTART_CNT h) _ rfl).trans (Nat.mod_eq_of_lt ?_)
    exact Nat.lt_of_le_of_lt (Nat.min_le_left _ _) (show 2 ^ 8 - 1 < 2 ^ 8 by decide)

/-! ### The ends of a training (R75, R86, R92) -/

/-- A command on the part whose condition holds. -/
theorem onChip_if (s : State) (p : Chip → Bool) (f : Chip → Chip) (h : p s.chip = true) :
    s.onChip (fun c => if p c = true then f c else c) = s.onChip f := by
  unfold State.onChip
  dsimp only
  rw [if_pos h]

/-- The state after a restart of host lane `h` from the state `s`. -/
def State.restarted (s t : State) (h : Nat) : Prop :=
  s.within t (0x100000 + 0x10000 * h) (0x110000 + 0x10000 * h) ∧
    t.chip.htState h = (if (s.chip.quad (quadOf h)).fixed then 7 else 1) ∧ t.chip.flag (HLN_STATUS.TRAINED h) = false ∧
    t.chip.flag (HLN_STATUS.CDR_LOCK h) = false ∧
    t.chip.fld (HLN_TRAIN_STATUS.RESTART_CNT h) = min 255 (s.chip.fld (HLN_TRAIN_STATUS.RESTART_CNT h) + 1)

theorem restarted_hostRestart (s : State) (h : HLane) (legs : Nat) : s.restarted (s.onChip (fun c => c.hostRestart h.1 legs)) h.1 := by
  obtain ⟨hkept, hrest⟩ := hostRestart_spec s.chip h.1 legs h.2
  refine ⟨within_of_kept s _ h.1 hkept, ?_⟩
  dsimp only [State.onChip]
  exact hrest

theorem echoTimeout_restarts (s : State) (h : HLane) (legs : BitVec 16) (hon : s.chip.hostOn h.1 = true)
    (htrains : s.chip.hostTrains h.1 = true) (hwait : (s.chip.hostOf h.1).echoWait = true) :
    ∃ t, exec (.echoTimeout h legs) s = .next t ∧ s.restarted t h.1 := by
  refine ⟨_, ?_, restarted_hostRestart s h legs.toNat⟩
  exact congrArg Host.Outcome.next (onChip_if s _ _ (by simp [hon, htrains, hwait]))

theorem trainingRetry_restarts (s : State) (h : HLane) (legs : BitVec 16) (hon : s.chip.hostOn h.1 = true)
    (hstate : s.chip.htState h.1 = 6) : ∃ t, exec (.trainingRetry h legs) s = .next t ∧ s.restarted t h.1 := by
  refine ⟨_, ?_, restarted_hostRestart s h legs.toNat⟩
  exact congrArg Host.Outcome.next (onChip_if s _ _ (by simp [hon, hstate, htFailed]))

theorem hostUnlock_lock (c : Chip) (h : Nat) : (c.hostUnlock h).flag (HLN_STATUS.CDR_LOCK h) = false := hostNoClock_lock _ h

/-- R92: the lane fails. -/
theorem trainingTimeout_fails (s : State) (h : HLane) (hon : s.chip.hostOn h.1 = true) (htrains : s.chip.hostTrains h.1 = true) :
    ∃ t, exec (.trainingTimeout h) s = .next t ∧ s.within t (0x100000 + 0x10000 * h.1) (0x110000 + 0x10000 * h.1) ∧
      t.chip.htState h.1 = 6 ∧ t.chip.flag (HLN_FAULT.TRAIN_FAIL h.1) = true ∧ t.chip.flag (HLN_STATUS.CDR_LOCK h.1) = false := by
  have hexec : exec (.trainingTimeout h) s = .next (s.onChip (fun c =>
      (((c.hostUnlock h.1).setHt h.1 htFailed).setFlag (HLN_FAULT.TRAIN_FAIL h.1) true).raise (0x020 + h.1) 0)) := 
    congrArg Host.Outcome.next (onChip_if s _ _ (by simp [hon, htrains]))
  refine ⟨_, hexec, within_of_kept s _ h.1 ?_, ?_, ?_, ?_⟩
  · refine RegsKept.mono ?_ (laneOrSettle_of_status h.1)
    refine RegsKept.trans ?_ (RegsKept.ofRegs _ (Chip.raise_regs _ _ _))
    refine RegsKept.trans ?_ (RegsKept.setFlag _ _ _ (laneStatusReg_fault h.1))
    exact (hostUnlock_kept s.chip h.1).trans (setHt_kept _ _ _)
  · refine (Chip.raise_fld _ _ _ _).trans ((Chip.fld_setFlag_other _ _ _ _ rfl).trans ?_)
    exact setHt_htState _ _ _ (by decide)
  · exact (Chip.raise_flag _ _ _ _).trans (Chip.flag_setFlag _ _ _ rfl rfl)
  · refine (Chip.raise_flag _ _ _ _).trans ((Chip.flag_setFlag_other _ _ _ _ (Fld.apart_addr ?_)).trans ?_)
    · simp only [HLN_FAULT.TRAIN_FAIL, HLN_STATUS.CDR_LOCK, HLN_FAULT.addr, HLN_STATUS.addr]
      omega
    · rw [setHt_flag _ _ _ _ rfl, hostUnlock_lock]

/-- R75: the lane goes on as one without training. -/
theorem trainingFallback_fixed (s : State) (h : HLane) (hon : s.chip.hostOn h.1 = true) (hstate : s.chip.htState h.1 = 1)
    (hrate : s.chip.host400 h.1 = false) (hsignal : s.chip.flag (HLN_STATUS.SIGNAL h.1) = true) :
    ∃ t, exec (.trainingFallback h) s = .next t ∧ s.within t (0x100000 + 0x10000 * h.1) (0x110000 + 0x10000 * h.1) ∧
      t.chip.htState h.1 = 7 ∧ t.chip.flag (HLN_STATUS.CDR_LOCK h.1) = true ∧ (t.chip.hostOf h.1).fallback = true := by
  have hexec : exec (.trainingFallback h) s = .next (s.onChip (fun c =>
      ((c.hostMod h.1 (fun x => { x with fallback := true })).setFlag (HLN_STATUS.CDR_LOCK h.1) true).setHt h.1 htFixed)) := 
    congrArg Host.Outcome.next (onChip_if s _ _ (by simp [hon, hstate, hrate, hsignal, htSeek]))
  refine ⟨_, hexec, within_of_kept s _ h.1 ?_, setHt_htState _ _ _ (by decide), ?_, ?_⟩
  · refine RegsKept.mono ?_ (laneOrSettle_of_status h.1)
    exact ((RegsKept.hostMod _ _ _ _).trans (RegsKept.setFlag _ _ _ (laneStatusReg_status h.1))).trans (setHt_kept _ _ _)
  · exact (setHt_flag _ _ _ _ rfl).trans (Chip.flag_setFlag _ _ _ rfl rfl)
  · have hlane : ∀ c : Chip, ((c.setFlag (HLN_STATUS.CDR_LOCK h.1) true).setHt h.1 htFixed).hostOf h.1 = c.hostOf h.1 := fun _ => rfl
    dsimp only [State.onChip]
    rw [hlane, Chip.hostOf_hostMod _ _ _ h.2]

/-! ### Hand-off and TRAINED (R88, R89) -/

/-- TRAINED is set, and the lane's other fields stay. -/
theorem hostTrained_fld (c : Chip) (h : Nat) (hh : h < 16) (f : Fld) (hf : laneReg h f.addr = true) :
    (c.hostTrained h).fld f = (c.setFlag (HLN_STATUS.TRAINED h) true).fld f := by
  unfold Chip.hostTrained
  dsimp only
  rw [Chip.settle_fld _ _ (settleReg_hostLane h _ hh hf), (Calm.endWait _ _ _).fld _ (serveReg_hostLane h _ hh hf), Chip.hostMod_fld]

theorem hostTrained_trained (c : Chip) (h : Nat) (hh : h < 16) : (c.hostTrained h).flag (HLN_STATUS.TRAINED h) = true := by
  unfold Chip.flag
  rw [hostTrained_fld c h hh _ (laneReg_of h 0x40 (by decide))]
  exact Chip.flag_setFlag c (HLN_STATUS.TRAINED h) true rfl rfl

/-- A direction hands off: with both the lane is in DATA and TRAINED, with one in HANDOFF. -/
theorem handOver_spec (c : Chip) (h : Nat) (tx o : Bool) (hh : h < 16) (ho : (if tx then (c.hostOf h).rxDone else (c.hostOf h).txDone) = o) :
    (c.handOver h tx).htState h = (if o then 5 else 4) ∧
      (c.handOver h tx).flag (HLN_STATUS.TRAINED h) = (o || c.flag (HLN_STATUS.TRAINED h)) := by
  unfold Chip.handOver
  dsimp only
  generalize hd : c.hostMod h _ = d
  have hboth : ((d.hostOf h).txDone && (d.hostOf h).rxDone) = o := by
    rw [← hd, Chip.hostOf_hostMod _ _ _ hh]
    cases tx <;> simpa using ho
  have hflag : d.flag (HLN_STATUS.TRAINED h) = c.flag (HLN_STATUS.TRAINED h) := by rw [← hd, Chip.hostMod_flag]
  rw [hboth]
  cases o with
  | true =>
    rw [if_pos rfl, if_pos rfl, Bool.true_or]
    refine ⟨?_, hostTrained_trained _ h hh⟩
    refine (hostTrained_fld _ h hh _ (laneReg_of h 0x40 (by decide))).trans ?_
    exact (Chip.fld_setFlag_other _ _ _ _ rfl).trans (setHt_htState d h htData (by decide))
  | false =>
    rw [if_neg Bool.false_ne_true, if_neg Bool.false_ne_true, Bool.false_or]
    exact ⟨setHt_htState d h htHandoff (by decide), (setHt_flag d h _ _ rfl).trans hflag⟩

theorem handoff_spec (s : State) (h : HLane) (tx o : Bool) (hon : s.chip.hostOn h.1 = true) (htrains : s.chip.hostTrains h.1 = true)
    (hnot : (if tx then (s.chip.hostOf h.1).txDone else (s.chip.hostOf h.1).rxDone) = false)
    (hdue : if s.chip.host400 h.1 = true then (if tx then (s.chip.hostOf h.1).countdown else (s.chip.hostOf h.1).farLeft) = some 0
      else 3 ≤ s.chip.htState h.1)
    (ho : (if tx then (s.chip.hostOf h.1).rxDone else (s.chip.hostOf h.1).txDone) = o) :
    ∃ t, exec (.handoff h tx) s = .next t ∧ t.chip.htState h.1 = (if o then 5 else 4) ∧
      t.chip.flag (HLN_STATUS.TRAINED h.1) = (o || s.chip.flag (HLN_STATUS.TRAINED h.1)) := by
  refine ⟨_, rfl, ?_⟩
  have hnow : (if s.chip.host400 h.1 then (if tx then decide ((s.chip.hostOf h.1).countdown = some 0)
      else decide ((s.chip.hostOf h.1).farLeft = some 0)) else decide (htReady ≤ s.chip.htState h.1)) = true := by
    split
    · rename_i h4
      rw [if_pos h4] at hdue
      cases tx <;> simpa using hdue
    · rename_i h4
      rw [if_neg h4] at hdue
      exact decide_eq_true hdue
  dsimp only [State.onChip, Chip.handoff]
  rw [hnow, hnot, hon, htrains]
  exact handOver_spec s.chip h.1 tx o h.2 ho

/-! ### FIXED_TRAINED (R76, R97) -/

theorem hostNoClock_farId (c : Chip) (k h : Nat) : (c.hostNoClock k).fld (HLN_STATUS.FAR_LANE_ID h) = c.fld (HLN_STATUS.FAR_LANE_ID h) := by
  unfold Chip.hostNoClock
  rw [Chip.fld_setFld_other _ _ _ _ rfl, Chip.fld_setFlag_other _ _ _ _ rfl]

/-- The start of a lane leaves every lane's FAR_LANE_ID. -/
theorem hostStart_farId (c : Chip) (k legs h : Nat) : (c.hostStart k legs).fld (HLN_STATUS.FAR_LANE_ID h) = c.fld (HLN_STATUS.FAR_LANE_ID h) := by
  have hlegs : ∀ c : Chip, (c.senseLegs k legs).fld (HLN_STATUS.FAR_LANE_ID h) = c.fld (HLN_STATUS.FAR_LANE_ID h) := by
    intro c
    unfold Chip.senseLegs
    dsimp only
    split
    · rw [Chip.raise_fld, Chip.fld_setFlag_other _ _ _ _ rfl, Chip.fld_setFlag_other _ _ _ _ rfl]
    · rw [Chip.fld_setFlag_other _ _ _ _ rfl]
  have htaps : ∀ (c : Chip) (l : List Int), (c.setHostTaps k l).fld (HLN_STATUS.FAR_LANE_ID h) = c.fld (HLN_STATUS.FAR_LANE_ID h) := by
    intro c l
    refine forAll_keeps (fun d => d.fld (HLN_STATUS.FAR_LANE_ID h)) _ _ (fun d p hp => Chip.fld_setFld_other d _ _ _ ?_) c
    have hf : p.1 ∈ hostTapFlds k := (List.of_mem_zip hp).1
    simp only [hostTapFlds, List.mem_cons, List.not_mem_nil, or_false] at hf
    rcases hf with hf | hf | hf | hf | hf | hf <;> rw [hf] <;> rfl
  rw [hostStart_eq]
  unfold Chip.hostPrepared Chip.setHt
  dsimp only
  rw [Chip.fld_setFld_other _ _ _ _ rfl, hostNoClock_farId, Chip.hostMod_fld, Chip.quadMod_fld, Chip.fld_setFlag_other _ _ _ _ rfl,
    Chip.fld_setFlag_other _ _ _ _ rfl, htaps, hlegs]

theorem hostStop_farId (c : Chip) (k h : Nat) : (c.hostStop k).fld (HLN_STATUS.FAR_LANE_ID h) = c.fld (HLN_STATUS.FAR_LANE_ID h) := by
  unfold Chip.hostStop Chip.setHt
  dsimp only
  rw [Chip.fld_setFld_other _ _ _ _ rfl, Chip.hostMod_fld, Chip.fld_setFlag_other _ _ _ _ rfl, hostNoClock_farId]

theorem orderFound_farId (c : Chip) (q legs h : Nat) :
    (c.orderFound q legs).fld (HLN_STATUS.FAR_LANE_ID h) = c.fld (HLN_STATUS.FAR_LANE_ID h) := by
  unfold Chip.orderFound
  dsimp only
  rw [forAll_keeps (fun d => d.fld (HLN_STATUS.FAR_LANE_ID h)) _ _ (fun d k _ => by
      rw [Chip.hostMod_fld, hostStop_farId]),
    forAll_keeps (fun d => d.fld (HLN_STATUS.FAR_LANE_ID h)) _ _ (fun d k _ => hostStart_farId d k legs h), Chip.quadMod_fld]

/-- The order judged leaves a status field that shares no bit with ORDER_FAULT and ORDER_REV, and that the finding of the order leaves. -/
theorem judgeOrder_keeps (c : Chip) (q legs : Nat) (f : Fld) (hfault : ∀ k, (HLN_FAULT.ORDER_FAULT k).apart f = true)
    (hrev : ∀ k, (HLN_STATUS.ORDER_REV k).apart f = true)
    (hfound : (c.quad q).orderKnown = true ∨ ∀ d : Chip, (d.orderFound q legs).fld f = d.fld f) :
    (c.judgeOrder q legs).fld f = c.fld f := by
  have hbad : ∀ l : List Nat, (c.orderBad q l).fld f = c.fld f := by
    intro l
    have hmarks : (c.forAll l (fun s h => s.setFlag (HLN_FAULT.ORDER_FAULT h) true)).fld f = c.fld f :=
      forAll_keeps (fun d => d.fld f) _ _ (fun d k _ => Chip.fld_setFlag_other d _ _ _ (hfault k)) c
    unfold Chip.orderBad
    dsimp only
    split
    · exact hmarks
    · rw [Chip.raise_fld, Chip.quadMod_fld, hmarks]
  have hmark : ∀ b : Bool, (c.forAll (quadLanes q) (fun s h => s.setFlag (HLN_STATUS.ORDER_REV h) b)).fld f = c.fld f :=
    fun b => forAll_keeps (fun d => d.fld f) _ _ (fun d k _ => Chip.fld_setFlag_other d _ _ _ (hrev k)) c
  unfold Chip.judgeOrder
  dsimp only
  split
  · rfl
  split
  · exact hbad _
  split
  · exact hbad _
  split
  · rfl
  split
  · split
    · rw [Chip.quadMod_fld, hmark]
    · rename_i hunknown
      rw [(hfound.resolve_left hunknown), Chip.quadMod_fld, hmark]
  · exact hmark _

/-- What the far position heard leaves in FAR_LANE_ID. -/
theorem hearId_farId (c : Chip) (h id legs : Nat) (hid : id < 4) : (c.hearId h id legs).fld (HLN_STATUS.FAR_LANE_ID h) = id := by
  unfold Chip.hearId
  dsimp only
  rw [judgeOrder_keeps _ _ _ _ (fun _ => rfl) (fun _ => rfl) (Or.inr (fun d => orderFound_farId d _ _ h)), Chip.hostMod_fld]
  exact (Chip.fld_setFld c (HLN_STATUS.FAR_LANE_ID h) id rfl).trans (Nat.mod_eq_of_lt hid)

/-- Where the order is known the lane's state stays. -/
theorem hearId_htState (c : Chip) (h id legs : Nat) (hknown : (c.quad (quadOf h)).orderKnown = true) :
    (c.hearId h id legs).htState h = c.htState h := by
  unfold Chip.hearId
  dsimp only
  refine (judgeOrder_keeps _ _ _ _ (fun _ => rfl) (fun _ => rfl) (Or.inl ?_)).trans ?_
  · rw [Chip.hostMod_quad, Chip.setFld_quad]
    exact hknown
  · rw [Chip.hostMod_fld]
    exact Chip.fld_setFld_other c (HLN_STATUS.FAR_LANE_ID h) _ _ rfl

theorem showHostEq_farId (c : Chip) (h : Nat) (e : HostEqIn) (b : Bool) :
    (c.showHostEq h e b).fld (HLN_STATUS.FAR_LANE_ID h) = c.fld (HLN_STATUS.FAR_LANE_ID h) := by
  have hagc : (HLN_RX_EQ.AGC h).apart (HLN_STATUS.FAR_LANE_ID h) = true := by
    refine Fld.apart_addr ?_
    simp only [HLN_RX_EQ.AGC, HLN_STATUS.FAR_LANE_ID, HLN_RX_EQ.addr, HLN_STATUS.addr]
    omega
  unfold Chip.showHostEq
  dsimp only
  split
  · rw [Chip.fld_setFld_other _ _ _ _ rfl, Chip.hostMod_fld, Chip.fld_setFld_other _ _ _ _ hagc, Chip.fld_setFld_other _ _ _ _ rfl]
  · rw [Chip.hostMod_fld, Chip.fld_setFld_other _ _ _ _ hagc, Chip.fld_setFld_other _ _ _ _ rfl]

/-- R76, R97: a FIXED lane has found its data. -/
theorem fixedTrained_spec (s : State) (h : HLane) (f : FixedIn) (legs : BitVec 16) (hon : s.chip.hostOn h.1 = true)
    (hstate : s.chip.htState h.1 = 7) (hrate : s.chip.host400 h.1 = false) (hsignal : s.chip.flag (HLN_STATUS.SIGNAL h.1) = true)
    (hnot : s.chip.flag (HLN_STATUS.TRAINED h.1) = false) :
    ∃ t, exec (.fixedTrained h f legs) s = .next t ∧ t.chip.fld (HLN_STATUS.FAR_LANE_ID h.1) = f.pos.1 ∧
      ((s.chip.quad (quadOf h.1)).orderKnown = true → t.chip.flag (HLN_STATUS.TRAINED h.1) = true) := by
  refine ⟨_, rfl, ?_⟩
  dsimp only [State.onChip, Chip.fixedTrained]
  rw [hon, hstate, hrate, hsignal, hnot, if_neg (by simp [htOff]), if_pos (by simp [htFixed])]
  generalize hd : (s.chip.setFlag (HLN_STATUS.CDR_LOCK h.1) true).setFlag (HLN_STATUS.POL_INV h.1) f.inverted = d
  have hquad : d.quad (quadOf h.1) = s.chip.quad (quadOf h.1) := by rw [← hd]; rfl
  have hfixed : d.htState h.1 = 7 := by
    rw [← hd]
    exact (Chip.fld_setFlag_other _ _ _ _ rfl).trans ((Chip.fld_setFlag_other _ _ _ _ rfl).trans hstate)
  have hid := hearId_farId d h.1 f.pos.1 legs.toNat f.pos.2
  split
  · refine ⟨?_, fun _ => hostTrained_trained _ h.1 h.2⟩
    rw [hostTrained_fld _ h.1 h.2 _ (laneReg_of h.1 0x40 (by decide)), Chip.fld_setFlag_other _ _ _ _ rfl, showHostEq_farId, hid]
  · rename_i hoff
    refine ⟨hid, fun hknown => absurd ?_ hoff⟩
    rw [hearId_htState d h.1 _ _ (hquad ▸ hknown), hfixed]
    rfl

/-! ### The synthesiser of a quad (R26, R95) -/

/-- A bit of LOCK that is set or cleared. -/
theorem bit_lock_setFldBit (c : Chip) (q : Nat) (b : Bool) (hq : q < 4) :
    bit ((c.setFldBit CLK_HQ_STATUS.LOCK q b).fld CLK_HQ_STATUS.LOCK) q = b := by
  have hset : ∀ v < 16, ∀ q < 4, bit (setBitN v q % 2 ^ 4) q = true ∧ bit (clrBitN v q % 2 ^ 4) q = false := by decide
  have hlt : c.fld CLK_HQ_STATUS.LOCK < 16 := getBits_lt _ _ _
  unfold Chip.setFldBit
  rw [Chip.fld_setFld _ _ _ (by decide)]
  cases b with
  | true => exact (hset _ hlt q hq).1
  | false => exact (hset _ hlt q hq).2

/-- LOCK lies outside the lanes, and settling leaves it. -/
theorem lock_outside (h : Nat) : laneOrSettle h CLK_HQ_STATUS.LOCK.addr = false := by
  have hlane : laneReg h CLK_HQ_STATUS.LOCK.addr = false := by
    rw [laneReg_eq_false]
    left
    show 0x50004 < 0x100000 + 0x10000 * h
    omega
  have hsettle : settleReg CLK_HQ_STATUS.LOCK.addr = false := by decide
  simp [laneOrSettle, hlane, hsettle]

theorem quadUnlock_kept (c : Chip) (h : Nat) : RegsKept (laneStatusReg h) c (c.quadUnlock h) := by
  unfold Chip.quadUnlock Chip.when
  dsimp only
  refine RegsKept.ite ((hostUnlock_kept c h).trans ?_) (hostUnlock_kept c h)
  exact (RegsKept.setFlag _ _ _ (laneStatusReg_status h)).trans (RegsKept.hostMod _ _ _ _)

theorem hostUnlock_quad (c : Chip) (h k : Nat) : (c.hostUnlock h).quad k = c.quad k := by
  unfold Chip.hostUnlock
  dsimp only
  split <;> rfl

theorem quadUnlock_quad (c : Chip) (h k : Nat) : (c.quadUnlock h).quad k = c.quad k := by
  unfold Chip.quadUnlock Chip.when
  dsimp only
  split
  · rw [Chip.hostMod_quad, Chip.setFlag_quad, hostUnlock_quad]
  · exact hostUnlock_quad c h k

theorem quadUnlock_lock (c : Chip) (h : Nat) : (c.quadUnlock h).flag (HLN_STATUS.CDR_LOCK h) = false := by
  unfold Chip.quadUnlock Chip.when
  dsimp only
  split
  · rw [Chip.hostMod_flag, Chip.flag_setFlag_other _ _ _ _ rfl, hostUnlock_lock]
  · exact hostUnlock_lock c h

/-- The lanes' windows lie apart. -/
theorem laneReg_other (h k a : Nat) (hk : h ≠ k) (ha : laneReg k a = true) : laneReg h a = false := by
  rw [laneReg_eq_false]
  simp only [laneReg, Bool.and_eq_true, decide_eq_true_eq] at ha
  omega

theorem laneStatusReg_other (h k a : Nat) (hk : h ≠ k) (ha : laneReg k a = true) : laneStatusReg h a = false :=
  Bool.eq_false_iff.2 (fun hs => Bool.eq_false_iff.1 (laneReg_other h k a hk ha) (lane_of_start h a (laneStart_of_status h a hs)))

theorem laneReg_status (h : Nat) : laneReg h (HLN_STATUS.addr h) = true := laneReg_of h 0x40 (by decide)

theorem quadUnlock_lockOff (c : Chip) (h k : Nat) (hoff : c.flag (HLN_STATUS.CDR_LOCK k) = false) :
    (c.quadUnlock h).flag (HLN_STATUS.CDR_LOCK k) = false := by
  by_cases hk : h = k
  · rw [← hk, quadUnlock_lock]
  · exact ((quadUnlock_kept c h).flag _ (laneStatusReg_other h k _ hk (laneReg_status k))).trans hoff

theorem hostUnlock_htState (c : Chip) (h k : Nat) : (c.hostUnlock h).htState k = c.htState k := by
  have hfault : (if (c.hostData h && c.flag (HLN_STATUS.CDR_LOCK h)) = true then c.setFlag (HLN_FAULT.CDR_UNLOCK h) true else c).htState k =
      c.htState k := by
    split
    · exact Chip.fld_setFlag_other _ _ _ _ rfl
    · rfl
  unfold Chip.hostUnlock
  exact (Chip.fld_setFld_other _ _ _ _ rfl).trans ((Chip.fld_setFlag_other _ _ _ _ rfl).trans hfault)

theorem quadUnlock_htState (c : Chip) (h k : Nat) : (c.quadUnlock h).htState k = c.htState k := by
  unfold Chip.quadUnlock Chip.when
  dsimp only
  split
  · exact (Chip.hostMod_fld _ _ _ _).trans ((Chip.fld_setFlag_other _ _ _ _ rfl).trans (hostUnlock_htState c h k))
  · exact hostUnlock_htState c h k

/-- The registers of the taps are no lane's status. -/
theorem hostTaps_congr {c d : Chip} (h : Nat) (hreg : ∀ f ∈ hostTapFlds h, d.reg f.addr = c.reg f.addr) : d.hostTaps h = c.hostTaps h := by
  unfold Chip.hostTaps
  refine List.map_congr_left (fun f hf => ?_)
  unfold Chip.fld
  rw [hreg f hf]

theorem hostTapFlds_addr (h : Nat) (f : Fld) (hf : f ∈ hostTapFlds h) : ∃ k, 0x4C ≤ k ∧ k < 0x58 ∧ f.addr = 0x100000 + k + 0x10000 * h := by
  simp only [hostTapFlds, List.mem_cons, List.not_mem_nil, or_false] at hf
  rcases hf with hf | hf | hf | hf | hf | hf <;> rw [hf]
  · exact ⟨0x4C, by decide, by decide, rfl⟩
  · exact ⟨0x4C, by decide, by decide, rfl⟩
  · exact ⟨0x50, by decide, by decide, rfl⟩
  · exact ⟨0x50, by decide, by decide, rfl⟩
  · exact ⟨0x54, by decide, by decide, rfl⟩
  · exact ⟨0x54, by decide, by decide, rfl⟩

theorem quadUnlock_hostTaps (c : Chip) (h k : Nat) : (c.quadUnlock h).hostTaps k = c.hostTaps k := by
  refine hostTaps_congr k (fun f hf => quadUnlock_kept c h _ ?_)
  obtain ⟨i, hlo, hhi, haddr⟩ := hostTapFlds_addr k f hf
  rw [haddr]
  simp only [laneStatusReg, HLN_STATUS.addr, HLN_FAULT.addr, Bool.or_eq_false_iff, beq_eq_false_iff_ne]
  omega

theorem quadLanes_lt (q h : Nat) (hq : q < 4) (hh : h ∈ quadLanes q) : h < 16 := by
  simp only [quadLanes, List.mem_map, List.mem_range] at hh
  obtain ⟨k, hk, rfl⟩ := hh
  omega

/-- The part as the synthesiser of quad `q` loses lock. -/
def Chip.quadLost (c : Chip) (q : Nat) : Chip :=
  (((c.setFldBit CLK_HQ_STATUS.LOCK q false).quadMod q (fun x => { x with relocking := true })).forAll (quadLanes q) Chip.quadUnlock)

theorem quadLost_spec (c : Chip) (q : Nat) (hq : q < 4) :
    bit ((c.quadLost q).fld CLK_HQ_STATUS.LOCK) q = false ∧ ((c.quadLost q).quad q).relocking = true ∧
      (∀ h ∈ quadLanes q, (c.quadLost q).flag (HLN_STATUS.CDR_LOCK h) = false ∧ (c.quadLost q).hostTaps h = c.hostTaps h ∧
        (c.quadLost q).htState h = c.htState h) ∧
      ∀ h, h ∉ quadLanes q → (c.quadLost q).reg (HLN_STATUS.addr h) = c.reg (HLN_STATUS.addr h) := by
  unfold Chip.quadLost
  generalize hd : (c.setFldBit CLK_HQ_STATUS.LOCK q false).quadMod q (fun x => { x with relocking := true }) = d
  have hother : RegsKept (fun a => a == CLK_HQ_STATUS.addr) c d := by
    rw [← hd]
    exact (RegsKept.setFld c _ _ rfl).trans (RegsKept.quadMod _ _ _ _)
  have hlanes : ∀ h k, (0x100000 + k + 0x10000 * h == CLK_HQ_STATUS.addr) = false := by
    intro h k
    simp only [CLK_HQ_STATUS.addr, beq_eq_false_iff_ne]
    omega
  refine ⟨?_, ?_, fun h hh => ⟨?_, ?_, ?_⟩, fun h hh => ?_⟩
  · rw [forAll_keeps (fun e => e.fld CLK_HQ_STATUS.LOCK) _ _ (fun e h _ => (quadUnlock_kept e h).fld _ ?_), ← hd, Chip.quadMod_fld,
      bit_lock_setFldBit c q false hq]
    refine Bool.eq_false_iff.2 (fun hs => Bool.eq_false_iff.1 (lock_outside h) (laneOrSettle_of_status h _ hs))
  · rw [forAll_keeps (fun e => e.quad q) _ _ (fun e h _ => quadUnlock_quad e h q), ← hd, Chip.quad_quadMod _ _ _ hq]
  · exact forAll_brings (fun e h => e.flag (HLN_STATUS.CDR_LOCK h) = false) _ _ quadUnlock_lock quadUnlock_lockOff d h hh
  · rw [forAll_keeps (fun e => e.hostTaps h) _ _ (fun e k _ => quadUnlock_hostTaps e k h)]
    refine hostTaps_congr h (fun f hf => hother _ ?_)
    obtain ⟨k, -, -, haddr⟩ := hostTapFlds_addr h f hf
    rw [haddr]
    exact hlanes h k
  · rw [forAll_keeps (fun e => e.htState h) _ _ (fun e k _ => quadUnlock_htState e k h)]
    exact hother.fld _ (hlanes h 0x40)
  · rw [forAll_keeps (fun e => e.reg (HLN_STATUS.addr h)) _ _ (fun e k hk => quadUnlock_kept e k _ ?_)]
    · exact hother _ (hlanes h 0x40)
    · exact laneStatusReg_other k h _ (fun he => hh (he ▸ hk)) (laneReg_status h)

/-- R26: the synthesiser loses lock. -/
theorem hqUnlock_spec (s : State) (q : Quad) (hon : s.chip.pdOn (3 + q.1) = true)
    (hlock : bit (s.chip.fld CLK_HQ_STATUS.LOCK) q.1 = true) :
    ∃ t, exec (.hqUnlock q) s = .next t ∧ bit (t.chip.fld CLK_HQ_STATUS.LOCK) q.1 = false ∧ (t.chip.quad q.1).relocking = true ∧
      (∀ h ∈ quadLanes q.1, t.chip.flag (HLN_STATUS.CDR_LOCK h) = false ∧ t.chip.hostTaps h = s.chip.hostTaps h ∧
        t.chip.htState h = s.chip.htState h) ∧
      ∀ h : HLane, h.1 ∉ quadLanes q.1 → t.chip.reg (HLN_STATUS.addr h.1) = s.chip.reg (HLN_STATUS.addr h.1) := by
  have hexec : exec (.hqUnlock q) s = .next (s.onChip (fun c => ((c.quadLost q.1).raise 0x1D2 q.1).settle)) :=
    congrArg Host.Outcome.next (onChip_if s _ _ (by simp [hon, hlock]))
  obtain ⟨hoff, hrelock, hlanes, hothers⟩ := quadLost_spec s.chip q.1 q.2
  have hreg : ∀ a, settleReg a = false → (((s.chip.quadLost q.1).raise 0x1D2 q.1).settle).reg a = (s.chip.quadLost q.1).reg a :=
    fun a ha => (Chip.settle_reg _ a ha).trans (Chip.raise_reg _ _ _ a)
  have hfld : ∀ f : Fld, settleReg f.addr = false → (((s.chip.quadLost q.1).raise 0x1D2 q.1).settle).fld f = (s.chip.quadLost q.1).fld f :=
    fun f hf => (Chip.settle_fld _ f hf).trans (Chip.raise_fld _ _ _ f)
  refine ⟨_, hexec, ?_, ?_, fun h hh => ?_, fun h hh => ?_⟩
  · dsimp only [State.onChip]
    rw [hfld _ (by decide), hoff]
  · dsimp only [State.onChip]
    rw [Chip.settle_quad, Chip.raise_quad, hrelock]
  · obtain ⟨hl, ht, hs⟩ := hlanes h hh
    have hlane : ∀ a, laneReg h a = true → settleReg a = false := fun a => settleReg_hostLane h a (quadLanes_lt q.1 h q.2 hh)
    dsimp only [State.onChip]
    refine ⟨?_, (hostTaps_congr h (fun f hf => hreg _ (hlane _ ?_))).trans ht, (hfld _ (hlane _ (laneReg_status h))).trans hs⟩
    · unfold Chip.flag at hl ⊢
      rw [hfld _ (hlane _ (laneReg_status h)), hl]
    · obtain ⟨k, -, hk, haddr⟩ := hostTapFlds_addr h f hf
      rw [haddr]
      exact laneReg_of h k (by omega)
  · dsimp only [State.onChip]
    rw [hreg _ (settleReg_hostLane h.1 _ h.2 (laneReg_status h.1)), hothers h.1 hh]

theorem hostStart_relocking (c : Chip) (h legs q : Nat) : ((c.hostStart h legs).quad q).relocking = (c.quad q).relocking := by
  have hlegs : (c.senseLegs h legs).quad q = c.quad q := by
    unfold Chip.senseLegs
    dsimp only
    split <;> rfl
  have htaps : ∀ (d : Chip) (l : List Int), (d.setHostTaps h l).quad q = d.quad q :=
    fun d l => forAll_keeps (fun e => e.quad q) _ _ (fun _ _ _ => Chip.setFld_quad ..) d
  have hafter : (c.hostStart h legs).quad q = (c.hostPrepared h legs).quad q := rfl
  rw [hafter]
  unfold Chip.hostPrepared
  dsimp only
  rw [Chip.hostMod_quad]
  generalize hd : (Chip.setFlag (Chip.setFlag _ (HLN_STATUS.TRAINED h) _) (HLN_STATUS.POL_INV h) _) = d
  have hsame : d.quad q = c.quad q := by
    rw [← hd]
    exact (htaps _ _).trans hlegs
  by_cases hq : q = quadOf h
  · by_cases hlt : quadOf h < 4
    · subst hq
      rw [Chip.quad_quadMod _ _ _ hlt, ← hsame]
    · unfold Chip.quadMod
      rw [dif_neg hlt, hsame]
  · rw [Chip.quad_quadMod_other _ _ _ _ hq, hsame]

theorem quadRelock_keeps (c : Chip) (h legs q : Nat) (hh : h < 16) :
    (c.quadRelock h legs).fld CLK_HQ_STATUS.LOCK = c.fld CLK_HQ_STATUS.LOCK ∧
      ((c.quadRelock h legs).quad q).relocking = (c.quad q).relocking := by
  unfold Chip.quadRelock
  dsimp only
  split
  · refine ⟨(hostRestart_spec c h legs hh).1.fld _ (lock_outside h), ?_⟩
    unfold Chip.hostRestart
    rw [Chip.settle_quad, hostStart_relocking, Chip.satInc_quad]
  split
  · refine ⟨RegsKept.fld (P := laneStatusReg h) ?_ _ ?_, ?_⟩
    · refine RegsKept.trans ?_ (RegsKept.hostMod _ _ _ _)
      exact (RegsKept.setFlag _ _ _ (laneStatusReg_status h)).trans (RegsKept.setFlag _ _ _ (laneStatusReg_status h))
    · exact Bool.eq_false_iff.2 (fun hs => Bool.eq_false_iff.1 (lock_outside h) (laneOrSettle_of_status h _ hs))
    · rw [Chip.hostMod_quad, Chip.setFlag_quad, Chip.setFlag_quad]
  · exact ⟨rfl, rfl⟩

/-- R26, R95: it has locked again. -/
theorem hqRelock_spec (s : State) (q : Quad) (legs : BitVec 16) (hon : s.chip.pdOn (3 + q.1) = true)
    (hrelock : (s.chip.quad q.1).relocking = true) :
    ∃ t, exec (.hqRelock q legs) s = .next t ∧ bit (t.chip.fld CLK_HQ_STATUS.LOCK) q.1 = true ∧ (t.chip.quad q.1).relocking = false := by
  have hexec : exec (.hqRelock q legs) s = .next (s.onChip (fun c => ((((c.setFldBit CLK_HQ_STATUS.LOCK q.1 true).quadMod q.1
      (fun x => { x with relocking := false })).forAll (quadLanes q.1) (fun c h => c.quadRelock h legs.toNat))).settle)) :=
    congrArg Host.Outcome.next (onChip_if s _ _ (by simp [hon, hrelock]))
  have hkeeps : ∀ c : Chip, ∀ h ∈ quadLanes q.1, (c.quadRelock h legs.toNat).fld CLK_HQ_STATUS.LOCK = c.fld CLK_HQ_STATUS.LOCK ∧
      ((c.quadRelock h legs.toNat).quad q.1).relocking = (c.quad q.1).relocking :=
    fun c h hh => quadRelock_keeps c h _ _ (quadLanes_lt q.1 h q.2 hh)
  refine ⟨_, hexec, ?_, ?_⟩
  · dsimp only [State.onChip]
    rw [Chip.settle_fld _ _ (by decide), forAll_keeps (fun e => e.fld CLK_HQ_STATUS.LOCK) _ _ (fun c h hh => (hkeeps c h hh).1),
      Chip.quadMod_fld, bit_lock_setFldBit _ _ _ q.2]
  · dsimp only [State.onChip]
    rw [Chip.settle_quad, forAll_keeps (fun e => (e.quad q.1).relocking) _ _ (fun c h hh => (hkeeps c h hh).2), Chip.quad_quadMod _ _ _ q.2]

/-- Settles O20: outcome by outcome. -/
theorem hostTrainingOutcomes : Obligations.HostTrainingOutcomes := by
  refine ⟨fun s h tx legs f hon => ⟨fun htrains => ⟨?_, ?_, ?_⟩, ?_, ?_, ?_⟩, fun s q legs hon => ⟨?_, ?_⟩⟩
  · exact echoTimeout_restarts s h legs hon htrains
  · exact trainingTimeout_fails s h hon htrains
  · exact fun hnot hdue o ho => handoff_spec s h tx o hon htrains hnot hdue ho
  · exact trainingRetry_restarts s h legs hon
  · exact trainingFallback_fixed s h hon
  · exact fixedTrained_spec s h f legs hon
  · exact hqUnlock_spec s q hon
  · exact hqRelock_spec s q legs hon

end Sys2Proof.Machine
end

section
/-! PROOFS. The time limit of an ADD_PORT. -/

namespace Sys2Proof.Machine

/-- An ADD_PORT of port P0 that executes from slot 1 and retrains line lane L0. -/
def addPortCmd : ExecCmd := ⟨.slot 1, 0x0201, 7, 0, .addPort 0 0 1⟩

/-- A part past its start in which that command executes: P0 is CONFIGURING on host lane H0 and line lane L0, none of which has come up. -/
def addPortRuns : State :=
  let c : Chip := { State.reset.chip with limited := false, pmu := { pd := Vector.ofFn (fun _ => Power.on) } }
  let c := ((c.setFlag CLK_WHORL_STATUS.LOCK true).setFlag CLK_WHORL_STATUS.REFCLK_OK true).setFlag CLK_WHORL_STATUS.RING_OSC_ON false
  let c := ((c.setFld GLB_BOOT_STATUS.STEP 13).setFlag GLB_BOOT_STATUS.FW_READY true).setFlag MBX_STATUS.OPEN true
  let c := c.portMod 0 (fun _ => { mode := 1, st := .configuring, hostCount := 1, lineMask := 1 })
  { State.reset with
    dist := ⟨1, 1, false, false⟩
    chip := { c with mbx := { c.mbx with exec := [addPortCmd], slots := c.mbx.slots.set 1 .executing } } }

/-- Its lanes are not up, and so the command goes on. -/
theorem addPortRuns_waits : addPortRuns.chip.portLanesUp 0 = false ∧ (addPortRuns.chip.port 0).st = .configuring := by decide +kernel

theorem exec_addPortLimit : exec (.commandTimeLimit (.running 0)) addPortRuns =
    .next (addPortRuns.onChip (fun c => (c.addTimeout addPortCmd).settle)) := rfl

/-- The time limit makes the port READY: as `dropPort` settles, the port has no lanes any more and the command still executes, so that
`addPortDone` finds no lane that is not up and completes it. -/
theorem addPortLimit_ready : (((addPortRuns.chip.addTimeout addPortCmd).settle).port 0).st = .ready := by decide +kernel

/-- Refutes O35: an ADD_PORT that its time limit ends leaves its port READY, not ABSENT. -/
theorem not_systemCommands : ¬ Obligations.SystemCommands := by
  rintro ⟨-, hlimits⟩
  obtain ⟨-, hrunning⟩ := hlimits addPortRuns 0
  obtain ⟨-, -, -, -, hadd⟩ := hrunning addPortCmd rfl
  obtain ⟨t, hexec, habsent⟩ := hadd 0 0 1 rfl
  rw [exec_addPortLimit] at hexec
  obtain rfl := Host.Outcome.next.inj hexec
  dsimp only [State.onChip] at habsent
  rw [addPortLimit_ready] at habsent
  exact PortSt.noConfusion habsent

end Sys2Proof.Machine
end

section
/-! PROOFS. Serving the mailbox leaves the ports and the executing commands as they are. -/

namespace Sys2Proof.Machine

/-- The ports and the executing commands. -/
def Chip.portsExec (s : Chip) : Vector Port 16 × List ExecCmd := (s.ports, s.mbx.exec)

@[simp] theorem Chip.setReg_portsExec (s : Chip) (a : Nat) (v : Word) : (s.setReg a v).portsExec = s.portsExec := rfl
@[simp] theorem Chip.setFld_portsExec (s : Chip) (f : Fld) (v : Nat) : (s.setFld f v).portsExec = s.portsExec := rfl
@[simp] theorem Chip.setFlag_portsExec (s : Chip) (f : Fld) (b : Bool) : (s.setFlag f b).portsExec = s.portsExec := rfl
@[simp] theorem Chip.satInc_portsExec (s : Chip) (f : Fld) (n : Nat) : (s.satInc f n).portsExec = s.portsExec := rfl
@[simp] theorem Chip.setFldBit_portsExec (s : Chip) (f : Fld) (i : Nat) (b : Bool) : (s.setFldBit f i b).portsExec = s.portsExec := rfl
@[simp] theorem Chip.raise_portsExec (s : Chip) (src pay : Nat) : (s.raise src pay).portsExec = s.portsExec := rfl

@[simp] theorem Chip.setLevel_portsExec (s : Chip) (src : Nat) (b : Bool) (pay : Nat) : (s.setLevel src b pay).portsExec = s.portsExec := by
  cases b <;> rfl

/-! ### Memory -/

@[simp] theorem Chip.putGran_portsExec (s : Chip) (m : MemId) (i v : Nat) : (s.putGran m i v).portsExec = s.portsExec := by
  cases m with
  | tension n sh => unfold Chip.putGran; dsimp only; split <;> rfl
  | _ => rfl

@[simp] theorem Chip.putBytes_portsExec (m : MemId) (l : List Nat) (i : Nat) (s : Chip) :
    (Chip.putBytes i m l s).portsExec = s.portsExec := by
  induction l generalizing i s with
  | nil => rfl
  | cons v l ih => simp [Chip.putBytes, ih]

@[simp] theorem Chip.writeBytes_portsExec (s : Chip) (m : MemId) (off : Nat) (l : List Byte) :
    (s.writeBytes m off l).portsExec = s.portsExec := Chip.putBytes_portsExec m _ _ s

@[simp] theorem Chip.logEcc_portsExec (s : Chip) (q g : Nat) (k : EccKind) (b : Nat) : (s.logEcc q g k b).portsExec = s.portsExec := by
  unfold Chip.logEcc Chip.logFullLevel
  dsimp only
  split
  · simp
  · split <;> simp

@[simp] theorem Chip.setBucket_portsExec (s : Chip) (b : Fin 3) (v : Nat) : (s.setBucket b v).portsExec = s.portsExec := rfl

@[simp] theorem Chip.fillBucket_portsExec (s : Chip) (b : Fin 3) : (s.fillBucket b).portsExec = s.portsExec := by
  unfold Chip.fillBucket
  dsimp only
  split <;> simp

@[simp] theorem Chip.readGran_portsExec (s : Chip) (m : MemId) (i : Nat) : (s.readGran m i).1.portsExec = s.portsExec := by
  unfold Chip.readGran
  split
  · rfl
  · dsimp only
    split
    · rfl
    · split
      · split <;> simp
      · simp

@[simp] theorem Chip.readGrans_portsExec (m : MemId) (n i : Nat) (s : Chip) : (Chip.readGrans n m i s).1.portsExec = s.portsExec := by
  induction n generalizing i s with
  | zero => rfl
  | succ n ih => simp [Chip.readGrans, ih]

@[simp] theorem Chip.readBytes_portsExec (s : Chip) (m : MemId) (off n : Nat) : (s.readBytes m off n).1.portsExec = s.portsExec :=
  Chip.readGrans_portsExec m _ _ s

/-! ### Fleyth answers and completions -/

@[simp] theorem Chip.flyMod_portsExec (s : Chip) (p : Nat) (f : FlyPort → FlyPort) : (s.flyMod p f).portsExec = s.portsExec := by
  simp [Chip.portsExec]

@[simp] theorem Chip.flyDrop_portsExec (s : Chip) (r : FlyDrop) : (s.flyDrop r).portsExec = s.portsExec := by
  unfold Chip.flyDrop
  dsimp only
  split <;> rfl

@[simp] theorem Chip.flyQueue_portsExec (s : Chip) (p : Nat) (m : List Byte × Bool) : (s.flyQueue p m).portsExec = s.portsExec := by
  unfold Chip.flyQueue
  split <;> simp

@[simp] theorem Chip.flySend_portsExec (s : Chip) (p : Nat) (m : FlyMsg) : (s.flySend p m).portsExec = s.portsExec :=
  Chip.flyQueue_portsExec s p _

@[simp] theorem Chip.flyForward_portsExec (s : Chip) (m : FlyMsg) (o : Option Nat) : (s.flyForward m o).portsExec = s.portsExec := by
  unfold Chip.flyForward
  split
  · simp
  · split <;> simp

@[simp] theorem Chip.flyOriginate_portsExec (s : Chip) (m : FlyMsg) : (s.flyOriginate m).portsExec = s.portsExec := by
  unfold Chip.flyOriginate
  split <;> simp

@[simp] theorem Chip.setSlot_portsExec (s : Chip) (i : Nat) (st : SlotState) : (s.setSlot i st).portsExec = s.portsExec := by
  unfold Chip.setSlot
  split <;> rfl

@[simp] theorem Chip.signalCpl_portsExec (s : Chip) : s.signalCpl.portsExec = s.portsExec := by
  unfold Chip.signalCpl
  split <;> rfl

/-- Completions that wait for their interrupt. -/
theorem Chip.withPend_portsExec (s : Chip) (l) : Chip.portsExec { s with mbx := { s.mbx with pend := l } } = s.portsExec := rfl

@[simp] theorem Chip.postCpl_portsExec (s : Chip) (c : Completion) : (s.postCpl c).portsExec = s.portsExec := by
  unfold Chip.postCpl
  dsimp only
  split <;> simp only [Chip.signalCpl_portsExec, Chip.withPend_portsExec, Chip.setSlot_portsExec, Chip.setReg_portsExec,
    Chip.writeBytes_portsExec]

@[simp] theorem Chip.complete_portsExec (s : Chip) (c : Completion) : (s.complete c).portsExec = s.portsExec := by
  unfold Chip.complete
  split
  · rfl
  · exact Chip.postCpl_portsExec s c

@[simp] theorem Chip.finish_portsExec (s : Chip) (src : CmdSrc) (op tag fl : Nat) (y : Reply) :
    (s.finish src op tag fl y).portsExec = s.portsExec := by
  unfold Chip.finish Chip.writeResp Chip.flyRespond
  cases src <;> dsimp only <;> split <;> simp

/-! ### Requests -/

@[simp] theorem Chip.slotReq_portsExec (s : Chip) (i : Fin 16) : (s.slotReq i).1.portsExec = s.portsExec := by
  unfold Chip.slotReq
  dsimp only
  split <;> simp

@[simp] theorem Chip.begin_portsExec (s : Chip) (src : CmdSrc) : (s.begin src).portsExec = s.portsExec := by
  cases src with
  | slot i => exact Chip.setSlot_portsExec _ _ _
  | fleyth k => rfl

@[simp] theorem Chip.finishReq_portsExec (s : Chip) (r : Req) (y : Reply) : (s.finishReq r y).portsExec = s.portsExec :=
  Chip.finish_portsExec s _ _ _ _ _

theorem Chip.serveFront_portsExec (n : Nat) (s : Chip) : (Chip.serveFront n s).portsExec = s.portsExec := by
  induction n generalizing s with
  | zero => rfl
  | succ n ih =>
    unfold Chip.serveFront
    split
    · rfl
    · dsimp only
      split
      · simp [ih]
      · rfl

theorem Chip.serveFly_portsExec (n : Nat) (s : Chip) : (Chip.serveFly n s).portsExec = s.portsExec := by
  induction n generalizing s with
  | zero => rfl
  | succ n ih =>
    unfold Chip.serveFly
    split
    · rfl
    · split
      · rfl
      · split
        · simp [ih]
        · rfl

@[simp] theorem Chip.serve_portsExec (s : Chip) : s.serve.portsExec = s.portsExec :=
  (Chip.serveFly_portsExec _ _).trans (Chip.serveFront_portsExec _ s)

/-- A command that completes leaves the list. -/
theorem Chip.endCmd_portsExec (s : Chip) (e : ExecCmd) (y : Reply) : (s.endCmd e y).portsExec = (s.ports, s.mbx.exec.erase e) := by
  simp [Chip.endCmd]
  rfl

/-- A command that goes on comes last. -/
theorem Chip.conclude_runs_portsExec (s : Chip) (r : Req) (w : Wait) :
    (s.conclude r (.runs w)).portsExec = (s.ports, s.mbx.exec ++ [⟨r.src, r.opcode, r.tag, r.flySrc, w⟩]) := by
  simp [Chip.conclude]
  rfl

end Sys2Proof.Machine
end

section
/-! PROOFS. What the fault logic, the hank engine and settling leave of the ports and of frame lock. -/

namespace Sys2Proof.Machine

/-! ### Ports -/

/-- Does the executing command set up a port? -/
def ExecCmd.addsPort (e : ExecCmd) : Bool := match e.wait with | .addPort .. => true | _ => false

/-- A port without what follows its lanes: its state, MISMATCH, and the wait for its first codeword on a new path. -/
def Port.frame (x : Port) : Port := { x with st := .absent, mismatch := false, realign := false }

/-- From `s` to `t` no command starts to execute, every port keeps what it was set up with, none goes, and none comes but one that an
executing ADD_PORT sets up. -/
structure PortsKept (s t : Chip) : Prop where
  exec : t.mbx.exec ⊆ s.mbx.exec
  frame : ∀ p, (t.port p).frame = (s.port p).frame
  present : ∀ p, (s.port p).st ≠ .absent → (t.port p).st ≠ .absent
  absent : (∀ e ∈ s.mbx.exec, e.addsPort = false) → ∀ p, (s.port p).st = .absent → (t.port p).st = .absent

theorem PortsKept.ofPorts {s t : Chip} (hports : t.ports = s.ports) (hexec : t.mbx.exec ⊆ s.mbx.exec) : PortsKept s t where
  exec := hexec
  frame p := by rw [Chip.port_congr hports]
  present p h := by rwa [Chip.port_congr hports]
  absent _ p h := by rwa [Chip.port_congr hports]

theorem PortsKept.of {s t : Chip} (h : t.portsExec = s.portsExec) : PortsKept s t := by
  obtain ⟨hports, hexec⟩ := Prod.ext_iff.1 h
  exact .ofPorts hports (by change t.mbx.exec = s.mbx.exec at hexec; rw [hexec]; exact List.Subset.refl _)

theorem PortsKept.trans {s t u : Chip} (h : PortsKept s t) (k : PortsKept t u) : PortsKept s u where
  exec := List.Subset.trans k.exec h.exec
  frame p := (k.frame p).trans (h.frame p)
  present p hp := k.present p (h.present p hp)
  absent he p hp := k.absent (fun e hmem => he e (h.exec hmem)) p (h.absent he p hp)

/-- A port changed in what follows its lanes. -/
theorem PortsKept.portMod (s : Chip) (p : Nat) (f : Port → Port) (hframe : ∀ x, (f x).frame = x.frame)
    (hst : ((f (s.port p)).st = .absent ↔ (s.port p).st = .absent) ∨ (f (s.port p)).st ≠ .absent ∧ ∃ e ∈ s.mbx.exec, e.addsPort = true) :
    PortsKept s (s.portMod p f) := by
  have hport : ∀ k, (s.portMod p f).port k = s.port k ∨ k = p ∧ (s.portMod p f).port k = f (s.port p) := by
    intro k
    by_cases hk : k = p
    · subst hk
      by_cases hb : k < 16
      · exact .inr ⟨rfl, Chip.port_portMod s k f hb⟩
      · exact .inl (by unfold Chip.portMod; rw [dif_neg hb])
    · exact .inl (Chip.port_portMod_other s p k f hk)
  refine ⟨by simp, fun k => ?_, fun k hk => ?_, fun he k hk => ?_⟩ <;> rcases hport k with h | ⟨rfl, h⟩ <;> rw [h]
  · exact hframe _
  · exact hk
  · exact hst.elim (fun i => fun h0 => hk (i.1 h0)) (fun i => i.1)
  · exact hk
  · refine hst.elim (fun i => i.2 hk) (fun ⟨_, e, hmem, hadds⟩ => ?_)
    rw [he e hmem] at hadds
    exact Bool.noConfusion hadds

/-! ### Frame lock -/

/-- Line lane `n`, which has a framing, seeks frames. -/
structure Chip.Seeks (s : Chip) (n : Nat) : Prop where
  framing : s.fld (TWF_LANE_STATUS.FRAMING n) ≠ 0
  lock : s.flag (TWF_LANE_STATUS.FRAME_LOCK n) = false
  shown : s.flag (LRX_STATUS.FRAME_LOCK n) = false
  seek : s.flag (TWF_LANE_STATUS.SEEK n) = true

/-- A field of the lanes' framing: none that shows seeking, frame lock or another mode at the far end. -/
def Fld.ofLane (f : Fld) : Prop :=
  0x410200 ≤ f.addr ∧ f.addr < 0x410320 ∧ ∀ c, (TWF_LANE_STATUS.MISMATCH c).apart f = true ∧
    (TWF_LANE_STATUS.FRAME_LOCK c).apart f = true ∧ (TWF_LANE_STATUS.SEEK c).apart f = true

/-- From `s` to `t` the ports are kept, and the framing of the lanes but for the loss of frame lock. -/
structure FaultKept (s t : Chip) : Prop where
  ports : PortsKept s t
  fld : ∀ f : Fld, f.ofLane → t.fld f = s.fld f
  seeks : ∀ n, n < 9 → s.Seeks n → t.Seeks n

/-- The registers that hold the lanes' framing and frame lock. -/
def lockReg (a : Nat) : Bool :=
  (decide (0x410200 ≤ a) && decide (a < 0x410320)) || (decide (0x200000 ≤ a) && decide (a < 0x290000) && a % 0x10000 == 0x40)

theorem lockReg_eq_true (a : Nat) :
    lockReg a = true ↔ (0x410200 ≤ a ∧ a < 0x410320) ∨ (0x200000 ≤ a ∧ a < 0x290000 ∧ a % 0x10000 = 0x40) := by
  simp [lockReg, and_assoc]

theorem lockReg_eq_false (a : Nat) :
    lockReg a = false ↔ (a < 0x410200 ∨ 0x410320 ≤ a) ∧ (a < 0x200000 ∨ 0x290000 ≤ a ∨ a % 0x10000 ≠ 0x40) := by
  rw [Bool.eq_false_iff, Ne, lockReg_eq_true]
  omega

theorem lockReg_lrx (n : Nat) (hn : n < 9) : lockReg (LRX_STATUS.addr n) = true := by
  rw [lockReg_eq_true, LRX_STATUS.addr]
  omega

theorem lockReg_twf (n : Nat) (hn : n < 9) : lockReg (TWF_LANE_STATUS.addr n) = true := by
  rw [lockReg_eq_true, TWF_LANE_STATUS.addr]
  omega

/-- The other registers of a receiver. -/
theorem lockReg_receiver (k n : Nat) (hk : k < 0x100) (h : k ≠ 0x40) : lockReg (0x200000 + k + 0x10000 * n) = false := by
  rw [lockReg_eq_false]
  omega

theorem lockReg_ofLane {f : Fld} (h : f.ofLane) : lockReg f.addr = true := (lockReg_eq_true _).2 (.inl ⟨h.1, h.2.1⟩)

theorem Chip.Seeks.congr {s t : Chip} {n : Nat} (h : s.Seeks n) (hframing : t.fld (TWF_LANE_STATUS.FRAMING n) = s.fld (TWF_LANE_STATUS.FRAMING n))
    (hlock : t.fld (TWF_LANE_STATUS.FRAME_LOCK n) = s.fld (TWF_LANE_STATUS.FRAME_LOCK n))
    (hshown : t.fld (LRX_STATUS.FRAME_LOCK n) = s.fld (LRX_STATUS.FRAME_LOCK n))
    (hseek : t.fld (TWF_LANE_STATUS.SEEK n) = s.fld (TWF_LANE_STATUS.SEEK n)) : t.Seeks n := by
  obtain ⟨h1, h2, h3, h4⟩ := h
  unfold Chip.flag at h2 h3 h4
  exact ⟨by rwa [hframing], by rwa [Chip.flag, hlock], by rwa [Chip.flag, hshown], by rwa [Chip.flag, hseek]⟩

theorem FaultKept.ofReg {s t : Chip} (h : PortsKept s t) (hreg : ∀ a, lockReg a = true → t.reg a = s.reg a) : FaultKept s t where
  ports := h
  fld f hf := by unfold Chip.fld; rw [hreg _ (lockReg_ofLane hf)]
  seeks n hn hs := by
    have hfld : ∀ f : Fld, lockReg f.addr = true → t.fld f = s.fld f := fun f hf => by unfold Chip.fld; rw [hreg _ hf]
    exact hs.congr (hfld _ (lockReg_twf n hn)) (hfld _ (lockReg_twf n hn)) (hfld _ (lockReg_lrx n hn)) (hfld _ (lockReg_twf n hn))

theorem FaultKept.of {s t : Chip} (h : t.portsExec = s.portsExec) (hregs : t.regs = s.regs) : FaultKept s t :=
  .ofReg (.of h) (fun a _ => Chip.reg_congr hregs a)

theorem FaultKept.refl (s : Chip) : FaultKept s s := .of rfl rfl

theorem FaultKept.trans {s t u : Chip} (h : FaultKept s t) (k : FaultKept t u) : FaultKept s u where
  ports := h.ports.trans k.ports
  fld f hf := (k.fld f hf).trans (h.fld f hf)
  seeks n hn hs := k.seeks n hn (h.seeks n hn hs)

theorem FaultKept.ite {s t u : Chip} {c : Prop} [Decidable c] (ht : FaultKept s t) (hu : FaultKept s u) : FaultKept s (if c then t else u) := by
  split
  · exact ht
  · exact hu

theorem FaultKept.when {s : Chip} (b : Bool) {f : Chip → Chip} (h : ∀ s, FaultKept s (f s)) : FaultKept s (s.when b f) := .ite (h s) (.refl s)

theorem FaultKept.forAll {α : Type} (l : List α) (f : Chip → α → Chip) (h : ∀ s, ∀ x ∈ l, FaultKept s (f s x)) (s : Chip) :
    FaultKept s (s.forAll l f) := by
  unfold Chip.forAll
  induction l generalizing s with
  | nil => exact .refl s
  | cons x l ih => exact (h s x (by simp)).trans (ih (fun s y hy => h s y (List.mem_cons_of_mem _ hy)) (f s x))

/-- A calm change of other registers. -/
theorem FaultKept.ofCalm {P : Nat → Bool} {s t : Chip} (h : Calm P s t) (hports : PortsKept s t) (hP : ∀ a, lockReg a = true → P a = false) :
    FaultKept s t := .ofReg hports (fun a ha => h.reg a (hP a ha))

theorem FaultKept.setReg (s : Chip) (a : Nat) (v : Word) (h : lockReg a = false) : FaultKept s (s.setReg a v) :=
  .ofReg (.of rfl) (fun b hb => Chip.reg_setReg_other s a b v (by rintro rfl; rw [h] at hb; exact Bool.noConfusion hb))

theorem FaultKept.setFld (s : Chip) (f : Fld) (v : Nat) (h : lockReg f.addr = false) : FaultKept s (s.setFld f v) := .setReg s _ _ h

theorem FaultKept.setFlag (s : Chip) (f : Fld) (b : Bool) (h : lockReg f.addr = false) : FaultKept s (s.setFlag f b) := .setReg s _ _ h

theorem FaultKept.satInc (s : Chip) (f : Fld) (n : Nat) (h : lockReg f.addr = false) : FaultKept s (s.satInc f n) := .setReg s _ _ h

theorem FaultKept.setFldBit (s : Chip) (f : Fld) (i : Nat) (b : Bool) (h : lockReg f.addr = false) : FaultKept s (s.setFldBit f i b) :=
  .setReg s _ _ h

/-- A field that shares no bit with what shows the lanes' framing. -/
theorem FaultKept.setFldApart (s : Chip) (f : Fld) (v : Nat) (hlane : ∀ g : Fld, g.ofLane → f.apart g = true)
    (hseeks : ∀ n, n < 9 → f.apart (TWF_LANE_STATUS.FRAMING n) = true ∧ f.apart (TWF_LANE_STATUS.FRAME_LOCK n) = true ∧
      f.apart (LRX_STATUS.FRAME_LOCK n) = true ∧ f.apart (TWF_LANE_STATUS.SEEK n) = true) : FaultKept s (s.setFld f v) where
  ports := .of rfl
  fld g hg := Chip.fld_setFld_other s f g v (hlane g hg)
  seeks n hn hs := by
    obtain ⟨h1, h2, h3, h4⟩ := hseeks n hn
    exact hs.congr (Chip.fld_setFld_other s f _ v h1) (Chip.fld_setFld_other s f _ v h2) (Chip.fld_setFld_other s f _ v h3)
      (Chip.fld_setFld_other s f _ v h4)

/-- A receiver's status but for its frame lock. -/
theorem FaultKept.setRxStatus (s : Chip) (n lo w v : Nat) (h : lo + w ≤ 4 ∨ 5 ≤ lo) :
    FaultKept s (s.setFld ⟨LRX_STATUS.addr n, lo, w⟩ v) := by
  refine .setFldApart s _ v (fun g hg => Fld.apart_addr ?_) (fun m _ => ⟨Fld.apart_addr ?_, Fld.apart_addr ?_, ?_, Fld.apart_addr ?_⟩)
  · have hlo := hg.1
    have hhi := hg.2.1
    simp only [LRX_STATUS.addr]
    omega
  · simp only [LRX_STATUS.addr, TWF_LANE_STATUS.FRAMING, TWF_LANE_STATUS.addr]; omega
  · simp only [LRX_STATUS.addr, TWF_LANE_STATUS.FRAME_LOCK, TWF_LANE_STATUS.addr]; omega
  · rcases h with h | h <;> simp [Fld.apart, LRX_STATUS.FRAME_LOCK, h]
  · simp only [LRX_STATUS.addr, TWF_LANE_STATUS.SEEK, TWF_LANE_STATUS.addr]; omega

/-- MISMATCH of a lane. -/
theorem FaultKept.setMismatch (s : Chip) (c : Nat) (b : Bool) : FaultKept s (s.setFlag (TWF_LANE_STATUS.MISMATCH c) b) := by
  refine .setFldApart s _ _ (fun g hg => (hg.2.2 c).1) (fun m _ => ⟨rfl, rfl, Fld.apart_addr ?_, rfl⟩)
  simp only [TWF_LANE_STATUS.MISMATCH, TWF_LANE_STATUS.addr, LRX_STATUS.FRAME_LOCK, LRX_STATUS.addr]
  omega

/-! ### Events, and changes of other state -/

theorem FaultKept.raise (s : Chip) (src pay : Nat) : FaultKept s (s.raise src pay) := .of rfl rfl

theorem FaultKept.setLevel (s : Chip) (src : Nat) (b : Bool) (pay : Nat) : FaultKept s (s.setLevel src b pay) := .of (by simp) (by simp)

theorem FaultKept.rxMod (s : Chip) (n : Nat) (f : LineRx → LineRx) : FaultKept s (s.rxMod n f) :=
  .of (by simp [Chip.portsExec]) (Chip.rxMod_regs s n f)

theorem FaultKept.framerMod (s : Chip) (n : Nat) (f : Framer → Framer) : FaultKept s (s.framerMod n f) :=
  .of (by simp [Chip.portsExec]) (Chip.framerMod_regs s n f)

theorem FaultKept.withPly (s : Chip) (x) : FaultKept s { s with ply := x } := .of rfl rfl

theorem FaultKept.withHnk (s : Chip) (x) : FaultKept s { s with hnk := x } := .of rfl rfl

theorem FaultKept.withPmu (s : Chip) (x) : FaultKept s { s with pmu := x } := .of rfl rfl

theorem FaultKept.withCrl (s : Chip) (x) : FaultKept s { s with crl := x } := .of rfl rfl

theorem FaultKept.portMod (s : Chip) (p : Nat) (f : Port → Port) (hframe : ∀ x, (f x).frame = x.frame)
    (hst : ((f (s.port p)).st = .absent ↔ (s.port p).st = .absent) ∨ (f (s.port p)).st ≠ .absent ∧ ∃ e ∈ s.mbx.exec, e.addsPort = true) :
    FaultKept s (s.portMod p f) := .ofReg (.portMod s p f hframe hst) (fun a _ => Chip.portMod_reg s p f a)

/-- The wait of a port for its first codeword on a new path. -/
theorem FaultKept.realign (s : Chip) (p : Nat) (b : Port → Bool) : FaultKept s (s.portMod p (fun x => { x with realign := b x })) :=
  .portMod s p _ (fun _ => rfl) (.inl Iff.rfl)

/-! ### Commands that end -/

theorem serveReg_lock (a : Nat) (h : lockReg a = true) : serveReg a = false := by
  have hprod : MBX_CPL_PROD.addr < 0x100000 := by decide
  have hdrop : FLY_CNT_DROP.addr < 0x100000 := by decide
  rw [lockReg_eq_true] at h
  simp only [serveReg, eccReg, Bool.or_eq_false_iff, Bool.and_eq_false_iff, decide_eq_false_iff_not, beq_eq_false_iff_ne]
  omega

theorem FaultKept.endCmd (s : Chip) (e : ExecCmd) (y : Reply) : FaultKept s (s.endCmd e y) := by
  obtain ⟨hports, hexec⟩ := Prod.ext_iff.1 (Chip.endCmd_portsExec s e y)
  refine .ofCalm (Calm.endCmd s e y) (.ofPorts hports ?_) serveReg_lock
  change (s.endCmd e y).mbx.exec = s.mbx.exec.erase e at hexec
  rw [hexec]
  exact List.erase_subset

theorem FaultKept.endWait (s : Chip) (p : Wait → Bool) (y : Reply) : FaultKept s (s.endWait p y) := by
  unfold Chip.endWait
  split
  · exact .refl s
  · exact .endCmd s _ y

/-! ### The receivers and the hank engine -/

/-- The registers of a lane that seeks frames anew. -/
def Chip.unlock (s : Chip) (n : Nat) : Chip :=
  let s := (s.setFlag (LRX_STATUS.FRAME_LOCK n) false).setFlag (TWF_LANE_STATUS.FRAME_LOCK n) false
  s.setFlag (TWF_LANE_STATUS.SEEK n) (s.fld (TWF_LANE_STATUS.FRAMING n) != 0)

theorem Chip.loseFrame_regs (s : Chip) (n : Nat) : (s.loseFrame n).regs = (s.unlock n).regs :=
  (Chip.framerMod_regs _ n _).trans (Chip.txMod_regs _ n _)

/-- The fields of the receivers' registers and of the lanes' framing do not share a register. -/
theorem LRX_STATUS.apart_twf (n : Nat) {f : Fld} {lo w : Nat} (h : 0x410200 ≤ f.addr) (hf : f.addr < 0x410320) :
    (⟨LRX_STATUS.addr n, lo, w⟩ : Fld).apart f = true := Fld.apart_addr (by simp only [LRX_STATUS.addr]; omega)

theorem Chip.unlock_fld (s : Chip) (n : Nat) (f : Fld) (hshown : (LRX_STATUS.FRAME_LOCK n).apart f = true)
    (hlock : (TWF_LANE_STATUS.FRAME_LOCK n).apart f = true) (hseek : (TWF_LANE_STATUS.SEEK n).apart f = true) :
    (s.unlock n).fld f = s.fld f :=
  calc (s.unlock n).fld f
      = ((s.setFlag (LRX_STATUS.FRAME_LOCK n) false).setFlag (TWF_LANE_STATUS.FRAME_LOCK n) false).fld f := Chip.fld_setFlag_other _ _ f _ hseek
    _ = (s.setFlag (LRX_STATUS.FRAME_LOCK n) false).fld f := Chip.fld_setFlag_other _ _ f _ hlock
    _ = s.fld f := Chip.fld_setFlag_other _ _ f _ hshown

/-- A lane that has a framing seeks frames after it lost frame lock. -/
theorem Chip.seeks_unlock (s : Chip) (n : Nat) (hn : n < 9) (h : s.fld (TWF_LANE_STATUS.FRAMING n) ≠ 0) : (s.unlock n).Seeks n := by
  have hlrx : ∀ f : Fld, f.addr = TWF_LANE_STATUS.addr n → f.apart (LRX_STATUS.FRAME_LOCK n) = true := fun f hf =>
    Fld.apart_addr (by rw [hf]; simp only [LRX_STATUS.FRAME_LOCK, LRX_STATUS.addr, TWF_LANE_STATUS.addr]; omega)
  have hframing : ∀ f : Fld, 0x410200 ≤ f.addr → f.addr < 0x410320 → (TWF_LANE_STATUS.FRAME_LOCK n).apart f = true →
      ((s.setFlag (LRX_STATUS.FRAME_LOCK n) false).setFlag (TWF_LANE_STATUS.FRAME_LOCK n) false).fld f = s.fld f := fun f h1 h2 h3 =>
    (Chip.fld_setFlag_other _ _ f _ h3).trans (Chip.fld_setFlag_other _ _ f _ (LRX_STATUS.apart_twf n h1 h2))
  have haddr : 0x410200 ≤ TWF_LANE_STATUS.addr n ∧ TWF_LANE_STATUS.addr n < 0x410320 := by simp only [TWF_LANE_STATUS.addr]; omega
  have hkept := hframing (TWF_LANE_STATUS.FRAMING n) haddr.1 haddr.2 rfl
  refine ⟨?_, ?_, ?_, ?_⟩ <;> unfold Chip.unlock <;> dsimp only
  · rw [Chip.fld_setFlag_other _ _ _ _ rfl, hkept]
    exact h
  · rw [Chip.flag_setFlag_other _ _ _ _ rfl, Chip.flag_setFlag _ _ _ rfl rfl]
  · rw [Chip.flag_setFlag_other _ _ _ _ (hlrx _ rfl), Chip.flag_setFlag_other _ _ _ _ (hlrx _ rfl), Chip.flag_setFlag _ _ _ rfl rfl]
  · rw [Chip.flag_setFlag _ _ _ rfl rfl, hkept]
    exact bne_iff_ne.2 h

theorem Chip.seeks_loseFrame (s : Chip) (n : Nat) (hn : n < 9) (h : s.fld (TWF_LANE_STATUS.FRAMING n) ≠ 0) : (s.loseFrame n).Seeks n :=
  have hfld := Chip.fld_congr (s.loseFrame_regs n)
  (s.seeks_unlock n hn h).congr (hfld _) (hfld _) (hfld _) (hfld _)

theorem FaultKept.loseFrame (s : Chip) (n : Nat) : FaultKept s (s.loseFrame n) := by
  have hfld := Chip.fld_congr (s.loseFrame_regs n)
  refine ⟨.of (by simp [Chip.loseFrame, Chip.portsExec]), fun f hf => ?_, fun m hm hs => ?_⟩
  · obtain ⟨h1, h2, h3⟩ := hf
    exact (hfld f).trans (s.unlock_fld n f (LRX_STATUS.apart_twf n h1 h2) (h3 n).2.1 (h3 n).2.2)
  · by_cases hmn : m = n
    · subst hmn
      exact s.seeks_loseFrame m hm hs.framing
    · have hkept : ∀ f : Fld, f.addr ≠ LRX_STATUS.addr n → f.addr ≠ TWF_LANE_STATUS.addr n → (s.loseFrame n).fld f = s.fld f :=
        fun f h1 h2 => (hfld f).trans (s.unlock_fld n f (Fld.apart_addr h1.symm) (Fld.apart_addr h2.symm) (Fld.apart_addr h2.symm))
      have htwf : ∀ lo w, (s.loseFrame n).fld ⟨TWF_LANE_STATUS.addr m, lo, w⟩ = s.fld ⟨TWF_LANE_STATUS.addr m, lo, w⟩ := fun lo w =>
        hkept _ (by simp only [TWF_LANE_STATUS.addr, LRX_STATUS.addr]; omega) (by simp only [TWF_LANE_STATUS.addr]; omega)
      exact hs.congr (htwf _ _) (htwf _ _)
        (hkept _ (by simp only [LRX_STATUS.FRAME_LOCK, LRX_STATUS.addr]; omega)
          (by simp only [LRX_STATUS.FRAME_LOCK, LRX_STATUS.addr, TWF_LANE_STATUS.addr]; omega)) (htwf _ _)

theorem FaultKept.lossFaults (s : Chip) (n causes : Nat) : FaultKept s (s.lossFaults n causes) := by
  refine .forAll _ _ (fun s c _ => .setFlag s _ true ?_) s
  have haddr : (lossFlag n c).addr = LRX_FAULT.addr n := by unfold lossFlag; split <;> rfl
  rw [haddr]
  exact lockReg_receiver 0x44 n (by decide) (by decide)

theorem FaultKept.clearGood (s : Chip) (n : Nat) : FaultKept s (s.clearGood n) := by
  have hkill : ∀ s : Chip, FaultKept s (s.killSnapshot n) := by
    intro s
    unfold Chip.killSnapshot
    split
    · exact .refl s
    · exact .of rfl rfl
  exact .trans (.setRxStatus s n 16 1 (b2n false) (by decide)) (hkill _)

theorem FaultKept.leaveHold (s : Chip) (n : Nat) : FaultKept s (s.leaveHold n) := .withHnk s _

theorem FaultKept.restartLock (s : Chip) (n : Nat) : FaultKept s (s.restartLock n) := by
  unfold Chip.restartLock
  refine .trans ?_ (.loseFrame _ n)
  refine .trans ?_ (.setRxStatus _ n 3 1 _ (by decide))
  refine .trans ?_ (.setRxStatus _ n 2 1 _ (by decide))
  exact .rxMod s n _

theorem FaultKept.restartCriteria (s : Chip) (n : Nat) : FaultKept s (s.restartCriteria n) := by
  refine .trans ?_ (.restartLock _ n)
  refine .trans ?_ (.rxMod _ n _)
  exact .setFld s _ 0 (lockReg_receiver 0x48 n (by decide) (by decide))

theorem FaultKept.setRxState (s : Chip) (n st : Nat) : FaultKept s (s.setRxState n st) :=
    .trans (.setRxStatus s n 21 3 st (by decide)) (.setLevel _ _ _ _)

theorem FaultKept.adcJudge (s : Chip) (n : Nat) (was) : FaultKept s (s.adcJudge n was) := by
  have hcal : lockReg (LRX_ADC_CAL.addr n) = false := lockReg_receiver 0x54 n (by decide) (by decide)
  have hfault : lockReg (LRX_FAULT.addr n) = false := lockReg_receiver 0x44 n (by decide) (by decide)
  unfold Chip.adcJudge
  refine .ite ?_ (.ite ?_ (.refl s))
  · exact (((FaultKept.setFlag s _ _ hcal).trans (.setFld _ _ _ hcal)).trans (.setFlag _ _ _ hfault)).trans (.setLevel _ _ _ _)
  · exact (FaultKept.setFlag s _ _ hcal).trans (.setLevel _ _ _ _)

theorem FaultKept.setLive (s : Chip) (n : Nat) (x : Live) : FaultKept s (s.setLive n x) :=
  (FaultKept.rxMod s n _).trans (.adcJudge _ n _)

theorem FaultKept.retrain (s : Chip) (n : Nat) : FaultKept s (s.retrain n) := by
  unfold Chip.retrain
  refine .trans ?_ (.setRxState _ n _)
  refine .trans ?_ (.setRxStatus _ n 8 3 0 (by decide))
  refine .trans ?_ (.rxMod _ n _)
  refine .trans ?_ (.setLive _ n _)
  exact ((FaultKept.clearGood s n).trans (.leaveHold _ n)).trans (.restartCriteria _ n)

theorem FaultKept.losLevel (s : Chip) (n : Nat) : FaultKept s (s.losLevel n) := .setLevel s _ _ _

theorem FaultKept.withdrawPages (s : Chip) (n : Nat) : FaultKept s (s.withdrawPages n) :=
  .ite ((FaultKept.withHnk s _).trans (.endWait _ _ _)) (.withHnk s _)

theorem lockReg_hnk (i : Nat) : lockReg (HNK_LANE_STATUS.addr i) = false := by
  rw [lockReg_eq_false, HNK_LANE_STATUS.addr]
  omega

theorem FaultKept.dropLastGood (s : Chip) (n : Nat) : FaultKept s (s.dropLastGood n) := by
  unfold Chip.dropLastGood
  split
  · exact .refl s
  · exact ((FaultKept.withHnk s _).trans (.setFlag _ _ _ (lockReg_hnk n))).trans (.setFld _ _ _ (lockReg_hnk n))

theorem FaultKept.dropActive (s : Chip) (n : Nat) : FaultKept s (s.dropActive n) := by
  unfold Chip.dropActive
  split
  · exact .refl s
  · exact ((FaultKept.withHnk s _).trans (.setFlag _ _ _ (lockReg_hnk n))).trans (.setFld _ _ _ (lockReg_hnk n))

theorem FaultKept.dropPins (s : Chip) (n : Nat) : FaultKept s (s.dropPins n) := (FaultKept.dropLastGood s n).trans (.dropActive _ n)

theorem FaultKept.flushLane (s : Chip) (n : Nat) : FaultKept s (s.flushLane n).1 :=
  ((FaultKept.dropPins s n).trans (.withHnk _ _)).trans (.forAll _ _ (fun s _ _ => .withHnk s _) _)

theorem FaultKept.flushWaiting (s : Chip) (n : Nat) : FaultKept s (s.flushWaiting n) :=
  .ite (((FaultKept.withHnk s _).trans (.flushLane _ n)).trans (.endWait _ _ _)) (.refl s)

theorem FaultKept.rxToOff (s : Chip) (n : Nat) : FaultKept s (s.rxToOff n) := by
  unfold Chip.rxToOff
  refine .trans ?_ (.flushWaiting _ n)
  refine .trans ?_ (.losLevel _ n)
  refine .trans ?_ (.setRxState _ n _)
  refine .trans ?_ (.setLevel _ _ _ _)
  refine .trans ?_ (.setRxStatus _ n 17 1 _ (by decide))
  refine .trans ?_ (.setRxStatus _ n 24 8 _ (by decide))
  refine .trans ?_ (.setRxStatus _ n 8 3 _ (by decide))
  refine .trans ?_ (.framerMod _ n _)
  refine .trans ?_ (.rxMod _ n _)
  refine .trans ?_ (.setLive _ n _)
  exact (((FaultKept.clearGood s n).trans (.leaveHold _ n)).trans (.restartLock _ n)).trans (.withdrawPages _ n)

theorem FaultKept.toHold (s : Chip) (n : Nat) : FaultKept s (s.toHold n) := by
  unfold Chip.toHold Chip.putHold
  refine .trans ?_ (.setRxState _ n _)
  refine .trans ?_ (.setRxStatus _ n 8 3 _ (by decide))
  refine .when _ (fun s => .trans ?_ (.rxMod _ n _))
  exact .satInc s _ 1 (lockReg_receiver 0x50 n (by decide) (by decide))

theorem FaultKept.enterHold (s : Chip) (n causes : Nat) : FaultKept s (s.enterHold n causes) := by
  unfold Chip.enterHold
  refine .trans ?_ (.toHold _ n)
  refine .trans ?_ (.clearGood _ n)
  refine .trans ?_ (.when _ (fun s => .withdrawPages s n))
  refine .trans ?_ (.when _ (fun s => .loseFrame s n))
  refine .trans ?_ (.when _ (fun s => .setRxStatus s n 3 1 (b2n false) (by decide)))
  refine .trans ?_ (.when _ (fun s => .setRxStatus s n 2 1 (b2n false) (by decide)))
  exact (FaultKept.lossFaults s n causes).trans (.rxMod _ n _)

theorem FaultKept.hankHold (s : Chip) (n : Nat) : FaultKept s (s.hankHold n).1 := by
  have hqueue : ∀ s : Chip, FaultKept s (s.queueRestore n) := by
    intro s
    unfold Chip.queueRestore
    split
    · exact .refl s
    · exact .ite (.refl s) (.withHnk s _)
  unfold Chip.hankHold
  dsimp only
  refine (FaultKept.leaveHold s n).trans ?_
  split
  · exact .setFld _ _ _ (lockReg_hnk n)
  · have htake : FaultKept (s.leaveHold n) ((s.leaveHold n).takeHold n) := .withHnk _ _
    refine htake.trans ?_
    split
    · exact .refl _
    · split
      · exact hqueue _
      · exact .refl _

/-! ### The Ply lane -/

theorem FaultKept.request (s : Chip) (n : Nat) (ply : Bool) : FaultKept s (s.request n ply) :=
  ((FaultKept.when _ (fun s => .dropPins s 8)).trans (.setFld _ TWF_PLY_STATUS.RX_LANE n (by decide))).trans (.withPly _ _)

theorem FaultKept.setPlyRx (s : Chip) (st : Nat) : FaultKept s (s.setPlyRx st) := .setFld s _ st (by decide)

theorem FaultKept.requestNone (s : Chip) : FaultKept s s.requestNone := (FaultKept.request s _ _).trans (.setPlyRx _ _)

theorem lockReg_creel (n : Nat) (hn : n < 9) : lockReg (CRL_LANE_STATUS.addr n) = false := by
  rw [lockReg_eq_false, CRL_LANE_STATUS.addr]
  omega

theorem FaultKept.setPaired (s : Chip) (p : Option Nat) : FaultKept s (s.setPaired p) := by
  unfold Chip.setPaired
  dsimp only
  refine .trans ?_ (.withCrl _ _)
  have hflags := FaultKept.forAll (List.range 8) (fun s n => s.setFlag (CRL_LANE_STATUS.PAIRED n) (decide (p = some n)))
    (fun s n hn => .setFlag s _ _ (lockReg_creel n (by have := List.mem_range.1 hn; omega))) s
  cases p with
  | some n => exact hflags.trans (.setFld _ _ _ (by decide))
  | none => exact hflags

theorem FaultKept.commitSubst (s : Chip) (n : Nat) : FaultKept s (s.commitSubst n) := by
  unfold Chip.commitSubst
  refine .trans ?_ (.endWait _ _ _)
  refine .trans ?_ (.flushWaiting _ n)
  refine .trans ?_ (.raise _ _ _)
  refine .trans ?_ (.withPly _ _)
  refine .trans ?_ (.forAll _ _ (fun s p _ => .realign s p _) _)
  refine .trans ?_ (.ite (.refl _) (.trans (.rxMod _ n _) (.toHold _ n)))
  refine .trans ?_ (.clearGood _ n)
  refine .trans ?_ (.withdrawPages _ n)
  refine .trans ?_ (.leaveHold _ n)
  refine .trans ?_ (.satInc _ TWF_PLY_CNT.SUBST_CNT 1 (by decide))
  refine .trans ?_ (.setFldBit _ TWF_LANE_FAILED.FAILED n true (by decide))
  refine .trans ?_ (.withPmu _ _)
  exact ((FaultKept.setPaired s none).trans (.request _ n true)).trans (.setPlyRx _ _)

/-- A pairing that ends. -/
def Chip.endPairing (s : Chip) : Chip :=
  match s.crl.paired with
  | none => s
  | some m =>
    if s.mayPair m then s
    else
      let s := s.setPaired none
      if s.plyRx = plyMirror then s.setPlyRx plyMirrorWait else s

/-- A pairing that starts. -/
def Chip.startPairing (s : Chip) : Chip :=
  match s.crl.paired, s.ply.farLane with
  | none, some n =>
    if s.mayPair n then
      let s := s.setPaired (some n)
      if s.plyRx = plySubstWait then s.commitSubst n
      else if decide (s.ply.planned = some n) && s.flag TWF_PLY_CFG.SUBST_EN then s.commitSubst n
      else if s.plyRx = plyMirrorWait ∧ s.plyLane = n then s.setPlyRx plyMirror
      else s
    else s
  | _, _ => s

theorem Chip.evalPairing_eq (s : Chip) : s.evalPairing = s.endPairing.startPairing := rfl

theorem FaultKept.evalPairing (s : Chip) : FaultKept s s.evalPairing := by
  rw [Chip.evalPairing_eq]
  have hend : FaultKept s s.endPairing := by
    unfold Chip.endPairing
    split
    · exact .refl s
    · exact .ite (.refl s) ((FaultKept.setPaired s none).trans (.ite (.setPlyRx _ _) (.refl _)))
  refine hend.trans ?_
  unfold Chip.startPairing
  split
  · next n _ _ =>
    refine .ite ((FaultKept.setPaired _ (some n)).trans ?_) (.refl _)
    exact .ite (.commitSubst _ _) (.ite (.commitSubst _ _) (.ite (.setPlyRx _ _) (.refl _)))
  · exact .refl _

theorem FaultKept.plyUnavailable (s : Chip) (n : Nat) : FaultKept s (s.plyUnavailable n) :=
  ((FaultKept.satInc s TWF_PLY_CNT.UNAVAIL_CNT 1 (by decide)).trans (.withPly _ _)).trans (.raise _ _ _)

theorem FaultKept.requestSubst (s : Chip) (n : Nat) : FaultKept s (s.requestSubst n) :=
  (((FaultKept.withPly s _).trans (.request _ n true)).trans (.setPlyRx _ _)).trans (.evalPairing _)

theorem FaultKept.retrainHeld (s : Chip) (n : Nat) : FaultKept s (s.retrainHeld n) := .ite (.retrain s n) (.refl s)

theorem FaultKept.decideHold (s : Chip) (n : Nat) : FaultKept s (s.decideHold n) := by
  unfold Chip.decideHold
  refine (FaultKept.hankHold s n).trans (.ite (.ite (.ite (.requestSubst _ n) (.ite (.withPly _ _) (.requestSubst _ n))) ?_) ?_)
  · exact (FaultKept.plyUnavailable _ n).trans (.ite (.refl _) (.retrainHeld _ n))
  · exact .ite (.refl _) (.retrainHeld _ n)

theorem FaultKept.l8Left (s : Chip) : FaultKept s s.l8Left := by
  unfold Chip.l8Left
  refine .trans ?_ (.ite (.setPlyRx _ _) (.refl _))
  exact ((FaultKept.setFlag s TWF_PLY_STATUS.L8_LOCKED false (by decide)).trans (.withPly _ _)).trans (.evalPairing _)

theorem FaultKept.plyDrop (s : Chip) (n : Nat) : FaultKept s (s.plyDrop n) := (FaultKept.withPly s _).trans (.ite (.l8Left _) (.evalPairing _))

theorem FaultKept.plyRelease (s : Chip) (n : Nat) : FaultKept s (s.plyRelease n) :=
  .ite ((FaultKept.requestNone s).trans (.plyDrop _ n)) (.plyDrop s n)

/-! ### Settling -/

theorem FaultKept.mismatch (s : Chip) (p : Nat) (b : Port → Bool) : FaultKept s (s.portMod p (fun x => { x with mismatch := b x })) :=
  .portMod s p _ (fun _ => rfl) (.inl Iff.rfl)

theorem FaultKept.judgeModes (s : Chip) : FaultKept s s.judgeModes := by
  unfold Chip.judgeModes
  refine .trans ?_ (.setLevel _ _ _ _)
  refine .trans ?_ (.forAll _ _ (fun _ p _ => .mismatch _ p _) _)
  exact .forAll _ _ (fun s c _ => .setMismatch s c _) s

theorem FaultKept.refreshPort (s : Chip) (p : Nat) : FaultKept s (s.refreshPort p) := by
  unfold Chip.refreshPort
  split
  · next h => exact .ite (.refl s) (.portMod s p _ (fun _ => rfl) (.inl (by simp [h])))
  · next h => exact .ite (.refl s) (.portMod s p _ (fun _ => rfl) (.inl (by simp [h])))
  · next h =>
    refine .ite (.portMod s p _ (fun _ => rfl) (.inl ?_)) (.refl s)
    rw [h]
    dsimp only
    split <;> simp
  · exact .refl s

theorem FaultKept.flyMod (s : Chip) (p : Nat) (f : FlyPort → FlyPort) : FaultKept s (s.flyMod p f) :=
  .of (Chip.flyMod_portsExec s p f) (Chip.flyMod_regs s p f)

theorem FaultKept.withFly (s : Chip) (x) : FaultKept s { s with fly := x } := .of rfl rfl

theorem FaultKept.flySetLink (s : Chip) (p : Nat) (up : Bool) : FaultKept s (s.flySetLink p up) := by
  unfold Chip.flySetLink
  refine .ite (.refl s) ?_
  have hlink := FaultKept.setFldBit s FLY_PORT_STATUS.LINK_UP p up (by decide)
  dsimp only
  have hraised := (hlink.trans (.ite (c := up = true) (.refl _) (.flyMod _ p (fun x => { x with hears := [] })))).trans
    (.raise _ (if up then 0x140 else 0x141) p)
  exact .ite hraised (hraised.trans (.withFly _ _))

theorem FaultKept.inbandLost (s : Chip) (p : Nat) : FaultKept s (s.inbandLost p) := (FaultKept.flyMod s p _).trans (.flySetLink _ p _)

theorem FaultKept.refreshInband (s : Chip) : FaultKept s s.refreshInband :=
  .forAll _ _ (fun s _ _ => .ite (.inbandLost s _) (.refl s)) s

theorem FaultKept.draw (s : Chip) : FaultKept s s.draw.2 := .of rfl rfl

theorem FaultKept.crlMod (s : Chip) (n : Nat) (f : CrlLane → CrlLane) : FaultKept s (s.crlMod n f) :=
  .of (by simp [Chip.portsExec]) (Chip.crlMod_regs s n f)

theorem FaultKept.crlStart (s : Chip) (n : Nat) : FaultKept s (s.crlStart n) := (FaultKept.draw s).trans (.crlMod _ n _)

theorem FaultKept.crlStop (s : Chip) (n : Nat) (hn : n < 9) : FaultKept s (s.crlStop n) := by
  unfold Chip.crlStop
  refine .trans ?_ (.setLevel _ _ _ _)
  exact (FaultKept.withCrl s _).trans (.setFlag _ _ _ (lockReg_creel n hn))

theorem FaultKept.crlRefresh (s : Chip) : FaultKept s s.crlRefresh := by
  unfold Chip.crlRefresh
  split
  · exact .refl s
  dsimp only
  refine .trans ?_ (.setLevel _ _ _ _)
  refine .trans ?_ (.setFlag _ CRL_STATUS.GUAR_SHORT _ (by decide))
  refine .trans ?_ (.setFld _ CRL_STATUS.RESERVE _ (by decide))
  refine .trans ?_ (.setFld _ CRL_BUF_STATUS.ALLOC _ (by decide))
  refine .trans ?_ (.forAll _ _ (fun s n hn => .setFld s _ _ (lockReg_creel n (List.mem_range.1 hn))) _)
  refine .trans ?_ (.withCrl _ _)
  refine .trans ?_ (.forAll _ _ (fun s n hn => .crlStop s n (List.mem_range.1 (List.mem_filter.1 hn).1)) _)
  exact .forAll _ _ (fun s n _ => .crlStart s n) s

theorem FaultKept.saveShadow (s : Chip) : FaultKept s s.saveShadow := by
  unfold Chip.saveShadow
  dsimp only
  split <;> exact .of rfl rfl

theorem FaultKept.addPortDone (s : Chip) (e : ExecCmd) (he : e ∈ s.mbx.exec) : FaultKept s (s.addPortDone e) := by
  unfold Chip.addPortDone
  split
  · next p a b hwait =>
    refine .ite ?_ (.refl s)
    refine .trans ?_ (.endCmd _ e _)
    refine .trans ?_ (.saveShadow _)
    refine .trans ?_ (.refreshPort _ p)
    exact .portMod s p _ (fun _ => rfl) (.inr ⟨by simp, e, he, by simp [ExecCmd.addsPort, hwait]⟩)
  · exact .refl s

@[simp] theorem Chip.refreshPort_exec (s : Chip) (p : Nat) : (s.refreshPort p).mbx.exec = s.mbx.exec := by
  unfold Chip.refreshPort
  split
  case h_4 => rfl
  all_goals split <;> simp

@[simp] theorem Chip.saveShadow_portsExec (s : Chip) : s.saveShadow.portsExec = s.portsExec := by
  unfold Chip.saveShadow
  dsimp only
  split <;> rfl

@[simp] theorem Chip.saveShadow_exec (s : Chip) : s.saveShadow.mbx.exec = s.mbx.exec := congrArg Prod.snd s.saveShadow_portsExec

theorem Chip.addPortDone_exec (s : Chip) (e : ExecCmd) :
    (s.addPortDone e).mbx.exec = s.mbx.exec ∨ (s.addPortDone e).mbx.exec = s.mbx.exec.erase e := by
  unfold Chip.addPortDone
  split
  · split
    · exact .inr ((congrArg Prod.snd (Chip.endCmd_portsExec _ e _)).trans (by simp))
    · exact .inl rfl
  · exact .inl rfl

/-- The commands that set up ports complete in turn: each still executes when its turn comes. -/
theorem FaultKept.addPortsDone (l : List ExecCmd) (s : Chip) (hl : l.Subperm s.mbx.exec) : FaultKept s (s.forAll l Chip.addPortDone) := by
  unfold Chip.forAll
  induction l generalizing s with
  | nil => exact .refl s
  | cons e l ih =>
    refine (FaultKept.addPortDone s e (hl.subset (by simp))).trans (ih _ ?_)
    rcases s.addPortDone_exec e with h | h <;> rw [h]
    · exact (List.sublist_cons_self e l).subperm.trans hl
    · simpa using hl.erase e

theorem FaultKept.startSteps (s : Chip) : FaultKept s s.startSteps := by
  unfold Chip.startSteps
  dsimp only
  exact .ite (.ite (.setFld s GLB_BOOT_STATUS.STEP _ (by decide)) (.refl s)) (.refl s)

theorem FaultKept.evalFray (s : Chip) : FaultKept s s.evalFray := by
  unfold Chip.evalFray Chip.setFray
  dsimp only
  refine .trans ?_ (.ite (.raise _ _ _) (.refl _))
  refine .trans ?_ (.forAll _ _ (fun s _ _ => .raise s _ _) _)
  exact (FaultKept.setReg s GLB_FRAY_STATUS.addr _ (by decide)).trans (.setReg _ GLB_FRAY_HIST.addr _ (by decide))

theorem FaultKept.settle (s : Chip) : FaultKept s s.settle := by
  unfold Chip.settle
  refine .trans ?_ (.evalFray _)
  refine .trans ?_ (.startSteps _)
  refine .trans ?_ (.addPortsDone _ _ (List.Subperm.refl _))
  refine .trans ?_ (.crlRefresh _)
  refine .trans ?_ (.refreshInband _)
  exact (FaultKept.judgeModes s).trans (.forAll _ _ (fun s p _ => .refreshPort s p) _)

/-- The lanes `fresh` and `low` of them go to hold, the L8 lane first; the others lose what names their causes alone. -/
theorem FaultKept.lossStates (s : Chip) (fresh low : List Nat) (causes : Nat → Nat) :
    FaultKept s (Chip.forAll (if fresh.contains 8 then
        ((s.forAll (List.range 9) (fun s n => if fresh.contains n then s else s.lossFaults n (causes n))).enterHold 8 (causes 8)).l8Left
      else s.forAll (List.range 9) (fun s n => if fresh.contains n then s else s.lossFaults n (causes n)))
      low (fun s n => s.enterHold n (causes n))) := by
  refine .trans ?_ (.forAll low _ (fun s n _ => .enterHold s n _) _)
  have hfaults := FaultKept.forAll (List.range 9) (fun s n => if fresh.contains n then s else s.lossFaults n (causes n))
    (fun s n _ => .ite (.refl s) (.lossFaults s n _)) s
  exact .ite ((hfaults.trans (.enterHold _ 8 _)).trans (.l8Left _)) hfaults

theorem FaultKept.lockLoss (s : Chip) (l : List (Nat × Nat)) : FaultKept s (s.lockLoss l) := by
  unfold Chip.lockLoss
  dsimp only
  refine .trans ?_ (.settle _)
  refine .trans ?_ (.evalPairing _)
  refine .trans ?_ (.forAll _ _ (fun s n _ => .ite (.refl s) (.decideHold s n)) _)
  split
  · exact .trans (.lossStates s _ _ _) (.ite (.commitSubst _ _) (.refl _))
  · exact .lossStates s _ _ _

end Sys2Proof.Machine
end

section
/-! PROOFS. Multiframes of a lane, the faults of a port and the loss of alignment. -/

namespace Sys2Proof.Machine

/-! ### Registers of the lanes' framing -/

theorem TWF_LANE_STATUS.apart_addr (c a lo w lo' w' : Nat) (h : a % 0x20 ≠ 0) :
    (⟨TWF_LANE_STATUS.addr c, lo', w'⟩ : Fld).apart ⟨a, lo, w⟩ = true := by
  refine Fld.apart_addr ?_
  simp only [TWF_LANE_STATUS.addr]
  omega

/-- A field of another register of a lane's framing. -/
theorem Fld.ofLane_addr (a lo w : Nat) (h1 : 0x410200 ≤ a) (h2 : a < 0x410320) (h : a % 0x20 ≠ 0) : Fld.ofLane ⟨a, lo, w⟩ :=
  ⟨h1, h2, fun c => ⟨TWF_LANE_STATUS.apart_addr c a lo w _ _ h, TWF_LANE_STATUS.apart_addr c a lo w _ _ h,
    TWF_LANE_STATUS.apart_addr c a lo w _ _ h⟩⟩

theorem Fld.ofLane_mfValid (n : Nat) (hn : n < 9) : Fld.ofLane (TWF_LANE_STATUS.MF_VALID n) :=
  ⟨by simp only [TWF_LANE_STATUS.MF_VALID, TWF_LANE_STATUS.addr]; omega, by simp only [TWF_LANE_STATUS.MF_VALID, TWF_LANE_STATUS.addr]; omega,
    fun _ => ⟨rfl, rfl, rfl⟩⟩

/-- A whole register. -/
theorem Chip.reg_of_fld {s t : Chip} {a : Nat} (h : t.fld ⟨a, 0, 32⟩ = s.fld ⟨a, 0, 32⟩) : t.reg a = s.reg a := by
  have hword : ∀ w : Word, getBits w 0 32 = w.toNat := fun w => Nat.mod_eq_of_lt w.isLt
  unfold Chip.fld at h
  rw [hword, hword] at h
  exact BitVec.eq_of_toNat_eq h

theorem FaultKept.reg {s t : Chip} (h : FaultKept s t) (a : Nat) (h1 : 0x410200 ≤ a) (h2 : a < 0x410320) (h3 : a % 0x20 ≠ 0) :
    t.reg a = s.reg a := Chip.reg_of_fld (h.fld _ (Fld.ofLane_addr a 0 32 h1 h2 h3))

theorem FaultKept.ohErr {s t : Chip} (h : FaultKept s t) {n : Nat} (hn : n < 9) : t.reg (TWF_OH_ERR.addr n) = s.reg (TWF_OH_ERR.addr n) :=
  h.reg _ (by simp only [TWF_OH_ERR.addr]; omega) (by simp only [TWF_OH_ERR.addr]; omega) (by simp only [TWF_OH_ERR.addr]; omega)

/-! ### Faults of ports (R61, R207, R219) -/

theorem FaultKept.hostMod (s : Chip) (h : Nat) (f : HostLane → HostLane) : FaultKept s (s.hostMod h f) :=
  .of (by simp [Chip.portsExec]) (Chip.hostMod_regs s h f)

theorem FaultKept.recentre (s : Chip) (p : Nat) : FaultKept s (s.recentre p) :=
  (FaultKept.forAll _ _ (fun s _ _ => .hostMod s _ _) s).trans (.forAll _ _ (fun s n _ => .framerMod s n _) _)

theorem Port.rateFault_of_frame {x y : Port} (h : x.frame = y.frame) : x.rateFault = y.rateFault :=
  show x.frame.rateFault = y.frame.rateFault from congrArg _ h

theorem Port.skew_of_frame {x y : Port} (h : x.frame = y.frame) : x.skew = y.skew := show x.frame.skew = y.frame.skew from congrArg _ h

theorem Chip.settle_frame (s : Chip) (p : Nat) : (s.settle.port p).frame = (s.port p).frame := (FaultKept.settle s).ports.frame p

theorem Chip.settle_rateFault (s : Chip) (p : Nat) : (s.settle.port p).rateFault = (s.port p).rateFault :=
  Port.rateFault_of_frame (s.settle_frame p)

theorem Chip.settle_skew (s : Chip) (p : Nat) : (s.settle.port p).skew = (s.port p).skew :=
  Port.skew_of_frame (s.settle_frame p)

/-- A change of a port that leaves the registers alone. -/
theorem Chip.ohErr_portMod_settle (s : Chip) (p : Nat) (f : Port → Port) {n : Nat} (hn : n < 9) :
    (s.portMod p f).settle.reg (TWF_OH_ERR.addr n) = s.reg (TWF_OH_ERR.addr n) :=
  ((FaultKept.settle _).ohErr hn).trans (by simp)

theorem rateFaultClear_shows (s : Chip) (n : LLane) (p : PortNo) :
    let t := (s.portMod p.1 (fun x => { x with rateFault := false })).settle
    (t.port p.1).rateFault = false ∧ t.reg (TWF_OH_ERR.addr n.1) = s.reg (TWF_OH_ERR.addr n.1) := by
  refine ⟨?_, s.ohErr_portMod_settle p.1 _ n.2⟩
  rw [Chip.settle_rateFault, Chip.port_portMod _ _ _ p.2]

theorem rateFault_shows (s : Chip) (n : LLane) (p : PortNo) (h : s.portRuns p.1 = true) :
    ((s.rateFault p.1).port p.1).rateFault = true ∧ (s.rateFault p.1).reg (TWF_OH_ERR.addr n.1) = s.reg (TWF_OH_ERR.addr n.1) := by
  unfold Chip.rateFault
  rw [if_pos h]
  refine ⟨?_, ?_⟩
  · rw [Chip.settle_rateFault, Chip.raise_port, Chip.port_portMod _ _ _ p.2]
  · rw [(FaultKept.settle _).ohErr n.2, Chip.raise_reg, Chip.portMod_reg, (FaultKept.recentre s p.1).ohErr n.2]

theorem portSkew_shows (s : State) (n : LLane) (p : PortNo) (beyond : Bool) (h : s.chip.portRuns p.1 = true) :
    ∃ t, execPortSkew p beyond s = .next t ∧ (t.chip.port p.1).skew = beyond ∧
      t.chip.reg (TWF_OH_ERR.addr n.1) = s.chip.reg (TWF_OH_ERR.addr n.1) := by
  refine ⟨_, rfl, ?_⟩
  change (Chip.port (if _ then _ else _) p.1).skew = beyond ∧ Chip.reg (if _ then _ else _) _ = _
  by_cases hsame : (s.chip.port p.1).skew = beyond
  · simp [hsame]
  · rw [if_neg (by simp [h, hsame])]
    have hraised : ∀ c : Chip, FaultKept c (c.when beyond (fun c => c.raise 0x0C2 0)) := fun c => .when beyond (fun c => .raise c _ _)
    refine ⟨?_, ?_⟩
    · rw [Chip.settle_skew]
      refine (Port.skew_of_frame ((hraised _).ports.frame p.1)).trans ?_
      exact congrArg Port.skew (Chip.port_portMod s.chip p.1 _ p.2)
    · rw [(FaultKept.settle _).ohErr n.2, (hraised _).ohErr n.2, Chip.portMod_reg]

/-! ### The loss of alignment (R207, R215) -/

theorem Chip.seeks_frameLost (s : Chip) (n : Nat) (hn : n < 9) (h : s.fld (TWF_LANE_STATUS.FRAMING n) ≠ 0) : (s.frameLost n).Seeks n :=
  (FaultKept.lockLoss _ _).seeks n hn (s.seeks_loseFrame n hn h)

/-! ### Multiframes (R200, R201) -/

/-- The bytes of a multiframe. -/
def mfByte (nibs : List Nat) (i : Nat) : Nat := 16 * nibs.getD (2 * i) 0 + nibs.getD (2 * i + 1) 0

/-- A multiframe that fails. -/
def Chip.multiframeBad (s : Chip) (n : Nat) : Chip :=
  let s := s.framerMod n (fun x => { x with mfDone := none })
  let s := (s.satInc (TWF_OH_ERR.MF_CRC n) 1).framerMod n (fun x => { x with mfFails := x.mfFails + 1 })
  if 2 ≤ (s.framerOf n).mfFails then s.setFlag (TWF_LANE_STATUS.MF_VALID n) false else s

/-- An accepted multiframe, up to the judgement of the far end. -/
def Chip.multiframeTaken (s : Chip) (n : Nat) (b : Nat → Nat) : Chip :=
  let s := s.framerMod n (fun x => { x with mfDone := none })
  let s := s.framerMod n (fun x => { x with mfFails := 0, farSeen := true })
  let s := s.setFlag (TWF_LANE_STATUS.MF_VALID n) true
  let s := s.setFld (TWF_FAR_ID_HI.FAR_HI n) (256 * b 0 + b 1)
  let s := s.setFld (TWF_FAR_ID_LO.FAR_LO n) (((b 2 * 256 + b 3) * 256 + b 4) * 256 + b 5)
  s.setReg (TWF_FAR_INFO.addr n) (BitVec.ofNat 32 (((b 6 * 256 + b 7) * 256 + b 8) * 256 + b 9))

theorem Chip.multiframe_bad (s : Chip) (n : Nat) {nibs} (h : (s.framerOf n).mfDone = some (nibs, true)) :
    s.multiframe n = s.multiframeBad n := by
  unfold Chip.multiframe
  rw [h]
  rfl

theorem Chip.multiframe_good (s : Chip) (n : Nat) {nibs} (h : (s.framerOf n).mfDone = some (nibs, false))
    (hcrc : mfCrc ((List.range 10).map (mfByte nibs)) = 256 * mfByte nibs 10 + mfByte nibs 11)
    (hply : n ≠ 8 ∨ (s.multiframeTaken n (mfByte nibs)).plyFitted = false) :
    s.multiframe n = ((s.multiframeTaken n (mfByte nibs)).checkFar n).settle := by
  have hone : ¬(n = 8 ∧ (s.multiframeTaken n (mfByte nibs)).plyFitted = true) := by
    rintro ⟨rfl, hf⟩
    simp [hf] at hply
  unfold Chip.multiframe
  rw [h]
  change (if (false || mfCrc ((List.range 10).map (mfByte nibs)) != 256 * mfByte nibs 10 + mfByte nibs 11) = true then _ else
    Chip.settle (Chip.checkFar (if n = 8 ∧ (s.multiframeTaken n (mfByte nibs)).plyFitted = true then _ else
      s.multiframeTaken n (mfByte nibs)) n)) = _
  rw [if_neg (by simp [hcrc]), if_neg hone]

/-- Nothing executes: no removal completes. -/
theorem Chip.finishRemovals_idle (s : Chip) (h : s.mbx.exec = []) : s.finishRemovals = s := by
  unfold Chip.finishRemovals
  rw [h]
  rfl

theorem multiframeBad_shows (s : Chip) (n : LLane) :
    ((s.multiframeBad n.1).framerOf n.1).mfDone = none ∧
      (s.multiframeBad n.1).fld (TWF_OH_ERR.MF_CRC n.1) =
        min (2 ^ (TWF_OH_ERR.MF_CRC n.1).w - 1) (s.fld (TWF_OH_ERR.MF_CRC n.1) + 1) ∧
      (s.multiframeBad n.1).flag (TWF_LANE_STATUS.MF_VALID n.1) =
        (s.flag (TWF_LANE_STATUS.MF_VALID n.1) && decide ((s.framerOf n.1).mfFails = 0)) ∧
      (s.multiframeBad n.1).mbx.exec = s.mbx.exec := by
  have hvalid : (TWF_OH_ERR.MF_CRC n.1).apart (TWF_LANE_STATUS.MF_VALID n.1) = true :=
    Fld.apart_addr (by simp only [TWF_OH_ERR.MF_CRC, TWF_OH_ERR.addr, TWF_LANE_STATUS.MF_VALID, TWF_LANE_STATUS.addr]; omega)
  have hcrc : (TWF_LANE_STATUS.MF_VALID n.1).apart (TWF_OH_ERR.MF_CRC n.1) = true :=
    Fld.apart_addr (by simp only [TWF_OH_ERR.MF_CRC, TWF_OH_ERR.addr, TWF_LANE_STATUS.MF_VALID, TWF_LANE_STATUS.addr]; omega)
  have hcount : ∀ c : Chip, (c.satInc (TWF_OH_ERR.MF_CRC n.1) 1).fld (TWF_OH_ERR.MF_CRC n.1) =
      min (2 ^ (TWF_OH_ERR.MF_CRC n.1).w - 1) (c.fld (TWF_OH_ERR.MF_CRC n.1) + 1) := by
    intro c
    unfold Chip.satInc satAdd
    rw [Chip.fld_setFld _ _ _ rfl, Nat.mod_eq_of_lt]
    exact Nat.lt_of_le_of_lt (Nat.min_le_left _ _) (by simp [TWF_OH_ERR.MF_CRC])
  have hkept : ∀ c : Chip, (c.satInc (TWF_OH_ERR.MF_CRC n.1) 1).flag (TWF_LANE_STATUS.MF_VALID n.1) = c.flag (TWF_LANE_STATUS.MF_VALID n.1) :=
    fun c => Chip.flag_setFld_other c _ _ _ hvalid
  unfold Chip.multiframeBad
  dsimp only
  split
  · next hfails =>
    have hone : (s.framerOf n.1).mfFails ≠ 0 := by
      simp [Chip.framerOf_framerMod _ _ _ n.2] at hfails
      omega
    simp [Chip.framerOf_framerMod _ _ _ n.2, Chip.fld_setFlag_other _ _ _ _ hcrc, hcount,
      Chip.flag_setFlag _ (TWF_LANE_STATUS.MF_VALID n.1) _ rfl rfl, hone]
  · next hfails =>
    have hnone : (s.framerOf n.1).mfFails = 0 := by
      simp [Chip.framerOf_framerMod _ _ _ n.2] at hfails
      omega
    simp [Chip.framerOf_framerMod _ _ _ n.2, hcount, hkept, hnone]

/-- The far end was judged before, or there is no hank to judge it by. -/
theorem Chip.checkFar_shows (s : Chip) (n : Nat) (hn : n < 9) (h : (s.framerOf n).farChecked = true ∨ s.lastGood n = none) :
    (s.checkFar n).regs = s.regs ∧ (s.checkFar n).mbx = s.mbx ∧ (s.checkFar n).framerOf n = { s.framerOf n with farChecked := true } := by
  unfold Chip.checkFar
  by_cases hc : (s.framerOf n).farChecked = true
  · rw [if_pos hc]
    refine ⟨rfl, rfl, ?_⟩
    rw [← hc]
  · have hnone : ∀ f g, ((s.framerMod n f).rxMod n g).lastGood n = none := fun f g => by
      simpa [Chip.lastGood] using h.resolve_left hc
    rw [if_neg hc]
    dsimp only
    rw [hnone]
    exact ⟨(Chip.rxMod_regs _ n _).trans (Chip.framerMod_regs _ n _), by simp, by simp [Chip.framerOf_framerMod _ _ _ hn]⟩

theorem Chip.multiframeTaken_framer (s : Chip) (n : Nat) (b : Nat → Nat) (hn : n < 9) :
    (s.multiframeTaken n b).framerOf n = { s.framerOf n with mfDone := none, mfFails := 0, farSeen := true } := by
  simp [Chip.multiframeTaken, Chip.framerOf_framerMod _ _ _ hn]

/-- The registers that an accepted multiframe of lane `n` writes. -/
theorem Chip.multiframeTaken_reg (s : Chip) (n : Nat) (b : Nat → Nat) (a : Nat) (hn : n < 9) (h : a < 0x410200 ∨ 0x410320 ≤ a) :
    (s.multiframeTaken n b).reg a = s.reg a := by
  have h0 : a ≠ TWF_LANE_STATUS.addr n := by simp only [TWF_LANE_STATUS.addr]; omega
  have h1 : a ≠ TWF_FAR_ID_HI.addr n := by simp only [TWF_FAR_ID_HI.addr]; omega
  have h2 : a ≠ TWF_FAR_ID_LO.addr n := by simp only [TWF_FAR_ID_LO.addr]; omega
  have h3 : a ≠ TWF_FAR_INFO.addr n := by simp only [TWF_FAR_INFO.addr]; omega
  unfold Chip.multiframeTaken
  dsimp only
  rw [Chip.reg_setReg_other _ _ _ _ h3, Chip.reg_setFld_other _ _ _ _ h2, Chip.reg_setFld_other _ _ _ _ h1]
  refine (Chip.reg_setFld_other _ _ _ _ h0).trans ?_
  simp

theorem Chip.multiframeTaken_shows (s : Chip) (n : Nat) (b : Nat → Nat) :
    let t := s.multiframeTaken n b
    t.flag (TWF_LANE_STATUS.MF_VALID n) = true ∧
      t.fld (TWF_FAR_ID_HI.FAR_HI n) = (256 * b 0 + b 1) % 2 ^ 16 ∧
      t.fld (TWF_FAR_ID_LO.FAR_LO n) = (((b 2 * 256 + b 3) * 256 + b 4) * 256 + b 5) % 2 ^ 32 ∧
      t.reg (TWF_FAR_INFO.addr n) = BitVec.ofNat 32 (((b 6 * 256 + b 7) * 256 + b 8) * 256 + b 9) := by
  have hinfo : ∀ (c : Chip) (v : Word) (f : Fld), f.addr ≠ TWF_FAR_INFO.addr n → (c.setReg (TWF_FAR_INFO.addr n) v).fld f = c.fld f :=
    fun c v f hf => by unfold Chip.fld; rw [Chip.reg_setReg_other _ _ _ _ hf]
  have hlo : ∀ f : Fld, f.addr ≠ TWF_FAR_ID_LO.addr n → (TWF_FAR_ID_LO.FAR_LO n).apart f = true := fun f hf => Fld.apart_addr hf.symm
  have h1 : TWF_FAR_ID_HI.addr n ≠ TWF_FAR_INFO.addr n := by simp only [TWF_FAR_ID_HI.addr, TWF_FAR_INFO.addr]; omega
  have h2 : TWF_FAR_ID_LO.addr n ≠ TWF_FAR_INFO.addr n := by simp only [TWF_FAR_ID_LO.addr, TWF_FAR_INFO.addr]; omega
  have h3 : TWF_LANE_STATUS.addr n ≠ TWF_FAR_INFO.addr n := by simp only [TWF_LANE_STATUS.addr, TWF_FAR_INFO.addr]; omega
  have h4 : TWF_FAR_ID_HI.addr n ≠ TWF_FAR_ID_LO.addr n := by simp only [TWF_FAR_ID_HI.addr, TWF_FAR_ID_LO.addr]; omega
  have h5 : TWF_LANE_STATUS.addr n ≠ TWF_FAR_ID_LO.addr n := by simp only [TWF_LANE_STATUS.addr, TWF_FAR_ID_LO.addr]; omega
  have h6 : TWF_FAR_ID_HI.addr n ≠ TWF_LANE_STATUS.addr n := by simp only [TWF_LANE_STATUS.addr, TWF_FAR_ID_HI.addr]; omega
  refine ⟨?_, ?_, ?_, ?_⟩ <;> unfold Chip.multiframeTaken <;> dsimp only
  · unfold Chip.flag
    rw [hinfo _ _ _ h3, Chip.fld_setFld_other _ _ _ _ (hlo _ h5), Chip.fld_setFld_other _ _ _ _ (Fld.apart_addr h6)]
    exact Chip.flag_setFlag _ (TWF_LANE_STATUS.MF_VALID n) true rfl rfl
  · rw [hinfo _ _ _ h1, Chip.fld_setFld_other _ _ _ _ (hlo _ h4)]
    exact Chip.fld_setFld _ (TWF_FAR_ID_HI.FAR_HI n) _ rfl
  · rw [hinfo _ _ _ h2]
    exact Chip.fld_setFld _ (TWF_FAR_ID_LO.FAR_LO n) _ rfl
  · exact Chip.reg_setReg _ _ _

/-- What an accepted multiframe shows stays while everything settles. -/
theorem multiframeGood_shows (s : Chip) (n : LLane) (b : Nat → Nat) (h : (s.framerOf n.1).farChecked = true ∨ s.lastGood n.1 = none) :
    let t := ((s.multiframeTaken n.1 b).checkFar n.1).settle
    t.mbx.exec ⊆ s.mbx.exec ∧ (t.framerOf n.1).mfDone = none ∧ (t.framerOf n.1).mfFails = 0 ∧ (t.framerOf n.1).farChecked = true ∧
      t.flag (TWF_LANE_STATUS.MF_VALID n.1) = true ∧
      t.fld (TWF_FAR_ID_HI.FAR_HI n.1) = (256 * b 0 + b 1) % 2 ^ 16 ∧
      t.fld (TWF_FAR_ID_LO.FAR_LO n.1) = (((b 2 * 256 + b 3) * 256 + b 4) * 256 + b 5) % 2 ^ 32 ∧
      t.reg (TWF_FAR_INFO.addr n.1) = BitVec.ofNat 32 (((b 6 * 256 + b 7) * 256 + b 8) * 256 + b 9) := by
  have hframer := s.multiframeTaken_framer n.1 b n.2
  have hgood : (s.multiframeTaken n.1 b).lastGood n.1 = s.lastGood n.1 := by
    have hreg := s.multiframeTaken_reg n.1 b (HNK_LANE_STATUS.addr n.1) n.2 (by simp only [HNK_LANE_STATUS.addr]; omega)
    have hlane : ∀ lo w, (s.multiframeTaken n.1 b).fld ⟨HNK_LANE_STATUS.addr n.1, lo, w⟩ = s.fld ⟨HNK_LANE_STATUS.addr n.1, lo, w⟩ :=
      fun lo w => by unfold Chip.fld; rw [hreg]
    unfold Chip.lastGood Chip.flag HNK_LANE_STATUS.LG_VALID HNK_LANE_STATUS.LAST_GOOD
    rw [hlane, hlane]
  obtain ⟨hregs, hmbx, hchecked⟩ := (s.multiframeTaken n.1 b).checkFar_shows n.1 n.2 (by rw [hframer, hgood]; exact h)
  obtain ⟨hvalid, hhi, hlo, hinfo⟩ := s.multiframeTaken_shows n.1 b
  have hkept := FaultKept.settle ((s.multiframeTaken n.1 b).checkFar n.1)
  have hfld : ∀ f : Fld, f.ofLane → ((s.multiframeTaken n.1 b).checkFar n.1).settle.fld f = (s.multiframeTaken n.1 b).fld f :=
    fun f hf => (hkept.fld f hf).trans (Chip.fld_congr hregs f)
  refine ⟨?_, by rw [Chip.settle_framerOf, hchecked, hframer], by rw [Chip.settle_framerOf, hchecked, hframer],
    by rw [Chip.settle_framerOf, hchecked], ?_, ?_, ?_, ?_⟩
  · have hexec := hkept.ports.exec
    rw [hmbx] at hexec
    exact List.Subset.trans hexec (by simp [Chip.multiframeTaken])
  · unfold Chip.flag
    rw [hfld _ (Fld.ofLane_mfValid n.1 n.2)]
    exact hvalid
  · exact (hfld _ (Fld.ofLane_addr _ _ _ (by simp only [TWF_FAR_ID_HI.addr]; omega) (by simp only [TWF_FAR_ID_HI.addr]; omega)
      (by simp only [TWF_FAR_ID_HI.addr]; omega))).trans hhi
  · exact (hfld _ (Fld.ofLane_addr _ _ _ (by simp only [TWF_FAR_ID_LO.addr]; omega) (by simp only [TWF_FAR_ID_LO.addr]; omega)
      (by simp only [TWF_FAR_ID_LO.addr]; omega))).trans hlo
  · refine (hkept.reg _ ?_ ?_ ?_).trans ((Chip.reg_congr hregs _).trans hinfo) <;> (simp only [TWF_FAR_INFO.addr]; omega)

end Sys2Proof.Machine
end

section
/-! PROOFS. A frame's time on a lane that seeks: frame lock at the third match. -/

namespace Sys2Proof.Machine

/-- What shows the alignment of lane `n`. -/
def alignFlds (n : Nat) : List Fld :=
  [LRX_STATUS.FRAME_LOCK n, TWF_LANE_STATUS.FRAME_LOCK n, TWF_LANE_STATUS.SEEK n, TWF_LANE_STATUS.POL_INV n]

/-- From `s` to `t` the alignment of lane `n` shows the same. -/
def AlignKept (n : Nat) (s t : Chip) : Prop := ∀ f ∈ alignFlds n, t.fld f = s.fld f

theorem AlignKept.trans {n : Nat} {s t u : Chip} (h : AlignKept n s t) (k : AlignKept n t u) : AlignKept n s u :=
  fun f hf => (k f hf).trans (h f hf)

theorem AlignKept.ofRegs {n : Nat} {s t : Chip} (h : t.regs = s.regs) : AlignKept n s t := fun f _ => Chip.fld_congr h f

theorem AlignKept.refl (n : Nat) (s : Chip) : AlignKept n s s := .ofRegs rfl

theorem AlignKept.ite {n : Nat} {s t u : Chip} {c : Prop} [Decidable c] (ht : AlignKept n s t) (hu : AlignKept n s u) :
    AlignKept n s (if c then t else u) := by
  split
  · exact ht
  · exact hu

/-- A calm change of registers below the datapath. -/
theorem AlignKept.ofCalm {n : Nat} {s t : Chip} (h : Calm (fun a => decide (a < 0x100000)) s t) : AlignKept n s t := by
  intro f hf
  have haddr : ¬f.addr < 0x100000 := by
    simp only [alignFlds, List.mem_cons, List.not_mem_nil, or_false] at hf
    rcases hf with rfl | rfl | rfl | rfl
    · simp only [LRX_STATUS.FRAME_LOCK, LRX_STATUS.addr]; omega
    all_goals
      simp only [TWF_LANE_STATUS.FRAME_LOCK, TWF_LANE_STATUS.SEEK, TWF_LANE_STATUS.POL_INV, TWF_LANE_STATUS.addr]
      omega
  unfold Chip.fld
  rw [h.reg _ (decide_eq_false haddr)]

theorem AlignKept.setFld {n : Nat} (s : Chip) (f : Fld) (v : Nat) (h : ∀ g ∈ alignFlds n, f.apart g = true) : AlignKept n s (s.setFld f v) :=
  fun g hg => Chip.fld_setFld_other s f g v (h g hg)

theorem AlignKept.satInc {n : Nat} (s : Chip) (f : Fld) (k : Nat) (h : ∀ g ∈ alignFlds n, f.apart g = true) : AlignKept n s (s.satInc f k) :=
  .setFld s f _ h

theorem AlignKept.setFlag {n : Nat} (s : Chip) (f : Fld) (b : Bool) (h : ∀ g ∈ alignFlds n, f.apart g = true) : AlignKept n s (s.setFlag f b) :=
  .setFld s f _ h

theorem Fld.apart_lo {f g : Fld} (h : f.lo + f.w ≤ g.lo ∨ g.lo + g.w ≤ f.lo) : f.apart g = true := by
  rcases h with h | h <;> simp [Fld.apart, h]

/-- The other fields of a lane's status. -/
theorem alignFlds_apart_status (n lo w : Nat) (hn : n < 9) (h : lo = 4 ∧ w = 1 ∨ 6 ≤ lo) :
    ∀ g ∈ alignFlds n, (⟨TWF_LANE_STATUS.addr n, lo, w⟩ : Fld).apart g = true := by
  simp only [alignFlds, List.forall_mem_cons, List.not_mem_nil, false_implies, implies_true, and_true]
  refine ⟨Fld.apart_addr ?_, Fld.apart_lo ?_, Fld.apart_lo ?_, Fld.apart_lo ?_⟩
  · simp only [TWF_LANE_STATUS.addr, LRX_STATUS.FRAME_LOCK, LRX_STATUS.addr]
    omega
  all_goals
    simp only [TWF_LANE_STATUS.FRAME_LOCK, TWF_LANE_STATUS.SEEK, TWF_LANE_STATUS.POL_INV]
    omega

/-- The counters of a lane's framing. -/
theorem alignFlds_apart_lane (n a lo w : Nat) (hn : n < 9) (h : 0x410200 ≤ a) (ha : a % 0x20 ≠ 0) :
    ∀ g ∈ alignFlds n, (⟨a, lo, w⟩ : Fld).apart g = true := by
  have hlrx : a ≠ LRX_STATUS.addr n := by simp only [LRX_STATUS.addr]; omega
  have htwf : a ≠ TWF_LANE_STATUS.addr n := by simp only [TWF_LANE_STATUS.addr]; omega
  simp only [alignFlds, List.forall_mem_cons, List.not_mem_nil, false_implies, implies_true, and_true]
  exact ⟨Fld.apart_addr hlrx, Fld.apart_addr htwf, Fld.apart_addr htwf, Fld.apart_addr htwf⟩

theorem serveReg_low (a : Nat) (h : serveReg a = true) : decide (a < 0x100000) = true := by
  simp only [serveReg, eccReg, Bool.or_eq_true, Bool.and_eq_true, decide_eq_true_eq, beq_iff_eq] at h ⊢
  rcases h with (rfl | h) | rfl
  · decide
  · omega
  · decide

theorem AlignKept.inbandFrame (n : Nat) (s : Chip) (p : Nat) (ok : Bool) (a b : Byte) : AlignKept n s (s.inbandFrame p ok a b) := by
  have hlink : ∀ (s : Chip) up, AlignKept n s (s.flySetLink p up) := fun s up => .ofCalm (Calm.flySetLink _ (by decide) s p up)
  have hmod : ∀ (s : Chip) f, AlignKept n s (s.flyMod p f) := fun s f => .ofCalm (Calm.flyMod _ s p f)
  have hdrop : ∀ s : Chip, AlignKept n s (s.flyDrop .bad) := fun s => .ofCalm ((Calm.flyDrop s .bad).mono serveReg_low)
  unfold Chip.inbandFrame
  dsimp only
  refine .ite (hmod s _) (.ite ((hmod s _).trans (hlink _ _)) ?_)
  exact (AlignKept.trans (hmod s _) (.ite (hdrop _) (.refl n _))).trans (hlink _ _)

/-- A frame taken in frame lock leaves the alignment as it is. -/
theorem AlignKept.recvLocked {n : Nat} (hn : n < 9) (s : Chip) (l : List SoftSym) : AlignKept n s (s.recvLocked n l) := by
  have hstatus : ∀ (s : Chip) lo w v, lo = 4 ∧ w = 1 ∨ 6 ≤ lo → AlignKept n s (s.setFld ⟨TWF_LANE_STATUS.addr n, lo, w⟩ v) :=
    fun s lo w v h => .setFld s _ v (alignFlds_apart_status n lo w hn h)
  have hlane : ∀ (s : Chip) a lo w v, 0x410200 ≤ a → a % 0x20 ≠ 0 → AlignKept n s (s.setFld ⟨a, lo, w⟩ v) :=
    fun s a lo w v h ha => .setFld s _ v (alignFlds_apart_lane n a lo w hn h ha)
  have hlf : ∀ (s : Chip) k b, AlignKept n s
      (s.setFlag (if k % 2 = 0 then TWF_LANE_STATUS.LF0_RX n else TWF_LANE_STATUS.LF1_RX n) b) := by
    intro s k b
    split
    · exact hstatus s 14 1 _ (by decide)
    · exact hstatus s 15 1 _ (by decide)
  unfold Chip.recvLocked
  extract_lets x r oh seen got counted run fn ofs just placed told heard raw byte inband soft clear ann
  clear_value got fn raw
  have hcounted : AlignKept n s counted := hlane s (TWF_STUFF_CNT.addr n) _ _ _ (by simp only [TWF_STUFF_CNT.addr]; omega)
    (by simp only [TWF_STUFF_CNT.addr]; omega)
  have hrun : AlignKept n counted run := .ite (hlane counted (TWF_RUN_OVF.addr n) _ _ _ (by simp only [TWF_RUN_OVF.addr]; omega)
    (by simp only [TWF_RUN_OVF.addr]; omega)) (.refl n _)
  have hplaced : AlignKept n run placed := ((hstatus run 27 5 _ (by decide)).trans (hstatus _ 24 3 _ (by decide))).trans
    (hstatus _ 19 2 _ (by decide))
  have htold : AlignKept n placed told := hstatus placed 4 1 _ (by decide)
  have hheard : AlignKept n told heard := by
    dsimp only [heard]
    cases got
    case some o =>
      exact (hstatus told 13 1 (b2n o.runOvf) (by decide)).trans (hlf _ fn o.lf)
    case none => exact hlane told (TWF_OH_ERR.addr n) _ _ _ (by simp only [TWF_OH_ERR.addr]; omega) (by simp only [TWF_OH_ERR.addr]; omega)
  have hinband : AlignKept n byte inband := by
    dsimp only [inband]
    split
    · exact .inbandFrame n byte _ _ _ _
    · exact .refl n _
  have hbyte : AlignKept n heard byte := .ofRegs (Chip.txMod_regs _ n _)
  exact (((((hcounted.trans hrun).trans hplaced).trans htold).trans hheard).trans hbyte).trans
    (hinband.trans (.ofRegs (Chip.framerMod_regs _ n _)))

/-! ### Seeking (R214, R216) -/

/-- A lane found in frame lock, in either polarity. -/
def Chip.lockFound (s : Chip) (n : Nat) (inv : Bool) : Chip :=
  let s := (s.setFlag (LRX_STATUS.FRAME_LOCK n) true).setFlag (TWF_LANE_STATUS.FRAME_LOCK n) true
  (s.setFlag (TWF_LANE_STATUS.SEEK n) false).setFlag (TWF_LANE_STATUS.POL_INV n) inv

theorem Chip.lockFound_shows (s : Chip) (n : Nat) (hn : n < 9) (inv : Bool) :
    (s.lockFound n inv).flag (TWF_LANE_STATUS.FRAME_LOCK n) = true ∧ (s.lockFound n inv).flag (LRX_STATUS.FRAME_LOCK n) = true ∧
      (s.lockFound n inv).flag (TWF_LANE_STATUS.SEEK n) = false ∧ (s.lockFound n inv).flag (TWF_LANE_STATUS.POL_INV n) = inv := by
  have hlrx : ∀ f : Fld, f.addr = TWF_LANE_STATUS.addr n → f.apart (LRX_STATUS.FRAME_LOCK n) = true := fun f hf =>
    Fld.apart_addr (by rw [hf]; simp only [LRX_STATUS.FRAME_LOCK, LRX_STATUS.addr, TWF_LANE_STATUS.addr]; omega)
  refine ⟨?_, ?_, ?_, ?_⟩ <;> unfold Chip.lockFound <;> dsimp only
  · rw [Chip.flag_setFlag_other _ _ _ _ rfl, Chip.flag_setFlag_other _ _ _ _ rfl, Chip.flag_setFlag _ _ _ rfl rfl]
  · rw [Chip.flag_setFlag_other _ _ _ _ (hlrx _ rfl), Chip.flag_setFlag_other _ _ _ _ (hlrx _ rfl), Chip.flag_setFlag_other _ _ _ _ (hlrx _ rfl),
      Chip.flag_setFlag _ _ _ rfl rfl]
  · rw [Chip.flag_setFlag_other _ _ _ _ rfl, Chip.flag_setFlag _ _ _ rfl rfl]
  · rw [Chip.flag_setFlag _ _ _ rfl rfl]

/-- The third match in the normal polarity. -/
theorem Chip.seekFrame_lock (s : Chip) (n : Nat) (hn : n < 9) (l : List SoftSym) (hw : fawWrong l ≤ 3) (hm : 2 ≤ (s.framerOf n).matches_) :
    let t := s.seekFrame n l
    t.flag (TWF_LANE_STATUS.FRAME_LOCK n) = true ∧ t.flag (LRX_STATUS.FRAME_LOCK n) = true ∧
      t.flag (TWF_LANE_STATUS.SEEK n) = false ∧ t.flag (TWF_LANE_STATUS.POL_INV n) = false := by
  have hw28 : ¬28 ≤ fawWrong l := by omega
  have hkept : ∃ c : Chip, AlignKept n (c.lockFound n false) (s.seekFrame n l) := by
    unfold Chip.seekFrame
    extract_lets w m x inv locked found counted run
    have hmatches : 3 ≤ x.matches_ := by
      simp [x, m, w, Chip.framerOf_framerMod _ _ _ hn, hw]
      omega
    have hinv : inv = false := by simp [inv, x, m, w, Chip.framerOf_framerMod _ _ _ hn, hw28]
    rw [if_pos (.inl hmatches)]
    have hfound : found = m.lockFound n inv := rfl
    rw [hinv] at hfound
    refine ⟨m, ?_⟩
    rw [← hfound]
    exact (AlignKept.ofRegs (Chip.framerMod_regs found n _)).trans (.recvLocked hn counted _)
  obtain ⟨c, hc⟩ := hkept
  obtain ⟨h1, h2, h3, h4⟩ := c.lockFound_shows n hn false
  have hflag : ∀ f ∈ alignFlds n, (s.seekFrame n l).flag f = (c.lockFound n false).flag f := fun f hf => by
    unfold Chip.flag; rw [hc f hf]
  exact ⟨(hflag _ (by simp [alignFlds])).trans h1, (hflag _ (by simp [alignFlds])).trans h2, (hflag _ (by simp [alignFlds])).trans h3,
    (hflag _ (by simp [alignFlds])).trans h4⟩

/-- A frame that matches in neither polarity. -/
theorem Chip.seekFrame_none (s : Chip) (n : Nat) (hn : n < 9) (l : List SoftSym) (h3 : 3 < fawWrong l) (h28 : fawWrong l < 28) :
    ((s.seekFrame n l).framerOf n).matches_ = 0 ∧ ((s.seekFrame n l).framerOf n).invMatches = 0 ∧ (s.seekFrame n l).regs = s.regs := by
  have hw3 : ¬fawWrong l ≤ 3 := by omega
  have hw28 : ¬28 ≤ fawWrong l := by omega
  unfold Chip.seekFrame
  extract_lets w m x inv
  have hx : x = { s.framerOf n with matches_ := 0, invMatches := 0 } := by
    simp [x, m, w, Chip.framerOf_framerMod _ _ _ hn, hw3, hw28]
  rw [if_neg (by simp [hx])]
  refine ⟨?_, ?_, ?_⟩
  · simp [m, w, Chip.framerOf_framerMod _ _ _ hn, hw3]
  · simp [m, w, Chip.framerOf_framerMod _ _ _ hn, hw28]
  · exact (Chip.framerMod_regs _ n _).trans (Chip.framerMod_regs _ n _)

/-- A whole frame on a lane without frame lock. -/
theorem Chip.twistFrame_seek (s : Chip) (n : Nat) (l : List (LlrIn × LlrIn)) (hpd : s.pdOn 17 = true)
    (hframing : s.fld (TWF_LANE_STATUS.FRAMING n) = 1) (h3 : 3 ≤ s.rxState n) (h7 : s.rxState n < 7)
    (hlock : s.flag (TWF_LANE_STATUS.FRAME_LOCK n) = false) (hl : l.length = 16384) :
    s.twistFrame n l = s.seekFrame n (l.map (s.softOf n)) := by
  have hacq : ¬s.rxState n < rxAcquire := by unfold rxAcquire; omega
  have hhold : s.rxState n ≠ rxHold := by unfold rxHold; omega
  have hwhole : (l.map (s.softOf n) ++ List.replicate (16384 - l.length) ((0 : Int), (0 : Int))).take 16384 = l.map (s.softOf n) := by
    rw [hl, Nat.sub_self, List.replicate_zero, List.append_nil, List.take_of_length_le (by simp [hl])]
  unfold Chip.twistFrame
  rw [if_neg (by simp [hpd, hframing, hacq])]
  dsimp only
  rw [hlock, if_neg Bool.false_ne_true, hwhole, if_neg (by simp [hhold])]

end Sys2Proof.Machine
end

section
/-! PROOFS. The numbers of the frames that the lanes send. -/

namespace Sys2Proof.Machine

/-! ### What building a frame leaves of the framers -/

theorem Chip.inbandByte_framerOf (s : Chip) (p k : Nat) : (s.inbandByte p).1.framerOf k = s.framerOf k := by
  unfold Chip.inbandByte
  dsimp only
  split
  · split
    · exact Chip.flyMod_framerOf s p _ k
    · exact (Chip.framerOf_congr (Chip.count_framer _ _ _) k).trans (Chip.flyMod_framerOf s p _ k)
    · rfl
  · rfl

theorem Chip.tapByte_framerOf (s : Chip) (n fn : Nat) (err : Int) (k : Nat) : (s.tapByte n fn err).1.framerOf k = s.framerOf k := by
  unfold Chip.tapByte
  dsimp only
  split
  · rfl
  · exact Chip.txMod_framerOf s n _ k

@[simp] theorem Chip.evalFray_framerOf (s : Chip) (k : Nat) : s.evalFray.framerOf k = s.framerOf k :=
  Chip.framerOf_congr (Calm.evalFray s).framer k

theorem Chip.plyBoundary_framerOf (s : Chip) (fn k : Nat) : (s.plyBoundary fn).framerOf k = s.framerOf k := by
  unfold Chip.plyBoundary
  split
  · rw [Chip.evalFray_framerOf, Chip.setFld_framerOf, Chip.setFld_framerOf]
    rfl
  · rfl

theorem Chip.standIn_framerOf (s : Chip) (p k : Nat) : (s.standIn p).2.framerOf k = s.framerOf k := rfl

theorem Chip.lineFill_framerOf (p k b : Nat) (s : Chip) (m : Nat) : (Chip.lineFill p k b s).framerOf m = s.framerOf m := by
  induction b generalizing s with
  | zero => rfl
  | succ b ih =>
    unfold Chip.lineFill
    split
    · rfl
    · exact (ih _).trans ((Chip.portMod_framerOf _ p _ m).trans (s.standIn_framerOf p m))

theorem Chip.takeLine_framerOf (s : Chip) (p k m : Nat) : (s.takeLine p k).2.framerOf m = s.framerOf m :=
  (Chip.portMod_framerOf _ p _ m).trans (Chip.lineFill_framerOf p k 64 s m)

theorem Chip.takeTrib_framerOf (s : Chip) (n t m : Nat) : (s.takeTrib n t).2.framerOf m = s.framerOf m := by
  unfold Chip.takeTrib
  split
  · rfl
  · exact s.takeLine_framerOf _ _ m

theorem Chip.drawRound_framerOf (s : Chip) (n m : Nat) : (s.drawRound n).2.framerOf m = s.framerOf m := by
  unfold Chip.drawRound
  split
  · exact s.takeLine_framerOf _ _ m
  · dsimp only
    split
    · exact s.takeTrib_framerOf n 0 m
    · exact ((s.takeTrib n 0).2.takeTrib_framerOf n 1 m).trans (s.takeTrib_framerOf n 0 m)

/-! ### One frame -/

theorem Chip.sendOn_framerOf_other (s : Chip) (n laneByte : Nat) (err : Int) (f : FrameShared) (m : Nat) (hm : m ≠ n) :
    (s.sendOn n laneByte err f).framerOf m = s.framerOf m := by
  have hready : ∀ c : Chip, ((c.framerMod n (fun x => { x with mfTx := (s.tapByte n f.fn err).1.mfBytes f.k laneByte })).framerOf m) =
      c.framerOf m := fun c => Chip.framerOf_framerMod_other c n m _ hm
  unfold Chip.sendOn Chip.when
  extract_lets t tapped ready x o a ovf numbered aged shown counted
  have hshown : counted.framerOf m = s.framerOf m := by
    simp only [counted, shown, aged, Chip.satInc_framerOf, Chip.setFld_framerOf, Chip.txMod_framerOf]
    rw [Chip.framerOf_framerMod_other _ n m _ hm]
    dsimp only [ready]
    split
    · rw [Chip.framerOf_framerMod_other _ n m _ hm]
      exact s.tapByte_framerOf n f.fn err m
    · exact s.tapByte_framerOf n f.fn err m
  split
  · simpa using hshown
  · exact hshown

theorem Chip.sendOn_fn (s : Chip) (n laneByte : Nat) (err : Int) (f : FrameShared) (hn : n < 9) :
    ((s.sendOn n laneByte err f).framerOf n).fn = (f.fn + 1) % 24 := by
  unfold Chip.sendOn Chip.when
  extract_lets t tapped ready x o a ovf numbered aged shown counted
  have hshown : (counted.framerOf n).fn = (f.fn + 1) % 24 := by
    simp only [counted, shown, aged, Chip.satInc_framerOf, Chip.setFld_framerOf, Chip.txMod_framerOf]
    rw [Chip.framerOf_framerMod _ n _ hn]
  split
  · simpa using hshown
  · exact hshown

/-! ### The frame of a lane, and of a group (R205, R211, R261) -/

/-- The frame of lane `n` counts its own number, and L8's where L8 carries it. -/
theorem Chip.sendLane_fn (s : Chip) (n : Nat) (errs : List Int) (g : GroupFrame) (syms : List Nat) (hn : n < 8) (m : Nat) (hm : m ≠ 8) :
    ((s.sendLane n errs g syms).framerOf m).fn = if m = n then (g.fn + 1) % 24 else (s.framerOf m).fn := by
  unfold Chip.sendLane
  extract_lets x bits rest coded a b fed shown sh sent boundary
  have hfed : (shown.framerOf m).fn = (s.framerOf m).fn := by
    simp only [shown, Chip.setFld_framerOf]
    have hb : b.1.framerOf m = s.framerOf m := (a.1.inbandByte_framerOf (2 + n) m).trans (s.inbandByte_framerOf (2 + n) m)
    by_cases hmn : m = n
    · subst hmn
      simp only [fed]
      rw [Chip.framerOf_framerMod _ m _ (by omega), hb]
    · simp only [fed]
      rw [Chip.framerOf_framerMod_other _ n m _ hmn, hb]
  have hsent : (sent.framerOf m).fn = if m = n then (g.fn + 1) % 24 else (s.framerOf m).fn := by
    split
    · next h =>
      subst h
      exact Chip.sendOn_fn shown m m _ sh (by omega)
    · next h => exact (congrArg Framer.fn (Chip.sendOn_framerOf_other shown n n _ sh m h)).trans hfed
  split
  · rw [Chip.sendOn_framerOf_other _ 8 _ _ _ m hm]
    simp only [boundary, Chip.setFld_framerOf, Chip.plyBoundary_framerOf]
    exact hsent
  · exact hsent

theorem Chip.sendLanes_fn (g : List Nat) (hg : ∀ k ∈ g, k < 8) (errs : List Int) (fr : GroupFrame) (syms : Nat → List Nat) (s : Chip) (m : Nat)
    (hm : m ≠ 8) : ((s.forAll g (fun s k => s.sendLane k errs fr (syms k))).framerOf m).fn =
      if m ∈ g then (fr.fn + 1) % 24 else (s.framerOf m).fn := by
  unfold Chip.forAll
  induction g generalizing s with
  | nil => simp
  | cons k g ih =>
    rw [List.foldl_cons, ih (fun j hj => hg j (List.mem_cons_of_mem _ hj)), Chip.sendLane_fn _ _ _ _ _ (hg k (by simp)) m hm]
    by_cases hmem : m ∈ g
    · simp [hmem]
    · simp [hmem]

theorem Chip.framerMod_fn (s : Chip) (n : Nat) (f : Framer → Framer) (hf : ∀ x, (f x).fn = x.fn) (m : Nat) :
    ((s.framerMod n f).framerOf m).fn = (s.framerOf m).fn := by
  by_cases hm : m = n
  · subst hm
    by_cases hb : m < 9
    · rw [Chip.framerOf_framerMod _ m f hb, hf]
    · unfold Chip.framerMod
      rw [dif_neg hb]
  · rw [Chip.framerOf_framerMod_other _ n m f hm]

/-- The rate buffers do not count frames. -/
theorem Chip.fills_fn (l : List Nat) (f : Chip → Nat → Framer → Framer) (hf : ∀ s k x, (f s k x).fn = x.fn) (s : Chip) (m : Nat) :
    ((s.forAll l (fun s k => s.framerMod k (f s k))).framerOf m).fn = (s.framerOf m).fn := by
  unfold Chip.forAll
  induction l generalizing s with
  | nil => rfl
  | cons k l ih => rw [List.foldl_cons, ih, Chip.framerMod_fn _ k _ (hf s k)]

theorem Chip.hostMods_framerOf (l : List Nat) (f : Chip → Nat → Chip) (hf : ∀ s h m, (f s h).framerOf m = s.framerOf m) (s : Chip) (m : Nat) :
    (s.forAll l f).framerOf m = s.framerOf m := by
  unfold Chip.forAll
  induction l generalizing s with
  | nil => rfl
  | cons h l ih => rw [List.foldl_cons, ih, hf]

theorem Chip.rateFault_fn (s : Chip) (p m : Nat) : ((s.rateFault p).framerOf m).fn = (s.framerOf m).fn := by
  unfold Chip.rateFault Chip.recentre
  split
  · rw [Chip.settle_framerOf, Chip.raise_framerOf, Chip.portMod_framerOf]
    dsimp only
    rw [Chip.fills_fn _ _ (fun _ _ x => by split <;> rfl), Chip.hostMods_framerOf _ _ (fun s h m => Chip.hostMod_framerOf s _ _ m)]
  · rfl

theorem Chip.frameGroup_lt (s : Chip) (n : Nat) (hn : n < 8) : ∀ k ∈ s.frameGroup n, k < 8 := by
  unfold Chip.frameGroup
  split
  · intro k hk
    exact List.mem_range.1 (List.mem_filter.1 (List.mem_filter.1 hk).1).1
  · simpa using hn

theorem Chip.sendGroup_fn (s : Chip) (n : Nat) (f : FrameOut) (hn : n < 8) (hhead : (s.frameGroup n).head? = some n) (m : Nat) (hm : m ≠ 8) :
    ((s.sendGroup n f).framerOf m).fn = if m ∈ s.frameGroup n then ((s.framerOf n).fn + 1) % 24 else (s.framerOf m).fn := by
  unfold Chip.sendGroup
  extract_lets g filled x j fr r sent
  have hfilled : ∀ m, (filled.framerOf m).fn = (s.framerOf m).fn := fun m =>
    Chip.fills_fn g (fun s k x => x.arrive f (s.quarters k 0) (s.quarters k 1)) (fun _ _ _ => rfl) s m
  have hdrawn : (r.2.framerOf m).fn = (s.framerOf m).fn := by
    dsimp only [r]
    split
    · rw [Chip.drawRound_framerOf, hfilled]
    · exact hfilled m
  have hsent : (sent.framerOf m).fn = if m ∈ g then ((s.framerOf n).fn + 1) % 24 else (s.framerOf m).fn := by
    refine (Chip.sendLanes_fn g (s.frameGroup_lt n hn) f.errs fr _ r.2 m hm).trans ?_
    rw [hdrawn, ← hfilled n]
  rw [if_neg (by simp [g, hhead])]
  cases sent.tribLost n with
  | none => exact hsent
  | some p => exact (Chip.rateFault_fn sent p m).trans hsent

/-- L8's own frame. -/
theorem Chip.sendIdle_framer (s : Chip) (f : FrameOut)
    (hk : s.plyCarry (s.framerOf 8).fn = noLane ∨ s.sendsFrames (s.plyCarry (s.framerOf 8).fn) = false) :
    ((s.sendIdle f).framerOf 8).fn = ((s.framerOf 8).fn + 1) % 24 ∧ ∀ m, m ≠ 8 → (s.sendIdle f).framerOf m = s.framerOf m := by
  unfold Chip.sendIdle
  extract_lets x k boundary
  rw [if_pos hk]
  refine ⟨Chip.sendOn_fn boundary 8 _ _ _ (by decide), fun m hm => ?_⟩
  rw [Chip.sendOn_framerOf_other boundary 8 _ _ _ m hm]
  simp only [boundary, Chip.setFld_framerOf, Chip.plyBoundary_framerOf]

/-! ### The steps of framing, from the states that their rules name -/

theorem frameSend_next (s : State) (n : LLane) (f : FrameOut) (h : s.chip.sendsFrames n.1 = true) :
    exec (.frameSend n f) s = .next { s with chip := if n.1 = 8 then s.chip.sendIdle f else s.chip.sendGroup n.1 f } := by
  change chipNext s _ = _
  unfold chipNext State.onChip
  simp [h]

theorem frameSend_group (s : State) (n : LLane) (f : FrameOut) (h : s.chip.sendsFrames n.1 = true) (hn : n.1 < 8) :
    let g := s.chip.frameGroup n.1
    (g.head? = some n.1 →
      ∃ t, exec (.frameSend n f) s = .next t ∧ (∀ k ∈ g, (t.chip.framerOf k).fn = ((s.chip.framerOf n.1).fn + 1) % 24) ∧
        ∀ m, m ∉ g → m ≠ 8 → (t.chip.framerOf m).fn = (s.chip.framerOf m).fn) ∧
      (g.head? ≠ some n.1 → exec (.frameSend n f) s = .next s) := by
  have hnext := frameSend_next s n f h
  rw [if_neg (by omega)] at hnext
  refine ⟨fun hhead => ⟨_, hnext, fun k hk => ?_, fun m hm h8 => ?_⟩, fun hhead => ?_⟩
  · have h8 := s.chip.frameGroup_lt n.1 hn k hk
    rw [Chip.sendGroup_fn _ _ f hn hhead k (by omega), if_pos hk]
  · rw [Chip.sendGroup_fn _ _ f hn hhead m h8, if_neg hm]
  · rw [hnext]
    unfold Chip.sendGroup
    dsimp only
    rw [if_pos hhead]

theorem frameSend_ply (s : State) (n : LLane) (f : FrameOut) (h : s.chip.sendsFrames n.1 = true) (hn : n.1 = 8) :
    let k := s.chip.plyCarry (s.chip.framerOf 8).fn
    (k = noLane ∨ s.chip.sendsFrames k = false →
      ∃ t, exec (.frameSend n f) s = .next t ∧ (t.chip.framerOf 8).fn = ((s.chip.framerOf 8).fn + 1) % 24 ∧
        ∀ m, m ≠ 8 → t.chip.framerOf m = s.chip.framerOf m) ∧
      (k ≠ noLane → s.chip.sendsFrames k = true → exec (.frameSend n f) s = .next s) := by
  have hnext := frameSend_next s n f h
  rw [if_pos hn] at hnext
  refine ⟨fun hk => ⟨_, hnext, Chip.sendIdle_framer s.chip f hk⟩, fun hk hsends => ?_⟩
  rw [hnext]
  unfold Chip.sendIdle
  dsimp only
  rw [if_neg (by simp [hk, hsends])]

theorem frameSend_none (s : State) (n : LLane) (f : FrameOut) (h : s.chip.sendsFrames n.1 = false) : exec (.frameSend n f) s = .next s := by
  change chipNext s _ = _
  unfold chipNext State.onChip
  simp [h]

theorem twistFrame_steps (s : State) (n : LLane) (l : List (LlrIn × LlrIn)) (hpd : s.chip.pdOn 17 = true)
    (hframing : s.chip.fld (TWF_LANE_STATUS.FRAMING n.1) = 1) (h3 : 3 ≤ s.chip.rxState n.1) (h7 : s.chip.rxState n.1 < 7)
    (hlock : s.chip.flag (TWF_LANE_STATUS.FRAME_LOCK n.1) = false) (hl : l.length = 16384) :
    let w := fawWrong (l.map (s.chip.softOf n.1))
    (w ≤ 3 → 2 ≤ (s.chip.framerOf n.1).matches_ → (s.chip.framerOf n.1).invMatches = 0 →
      ∃ t, exec (.twistFrame n l) s = .next t ∧ t.chip.flag (TWF_LANE_STATUS.FRAME_LOCK n.1) = true ∧
        t.chip.flag (LRX_STATUS.FRAME_LOCK n.1) = true ∧ t.chip.flag (TWF_LANE_STATUS.SEEK n.1) = false ∧
        t.chip.flag (TWF_LANE_STATUS.POL_INV n.1) = false) ∧
      (3 < w → w < 28 →
        ∃ t, exec (.twistFrame n l) s = .next t ∧ (t.chip.framerOf n.1).matches_ = 0 ∧ (t.chip.framerOf n.1).invMatches = 0 ∧
          t.chip.regs = s.chip.regs) := by
  have hnext : exec (.twistFrame n l) s = .next { s with chip := s.chip.seekFrame n.1 (l.map (s.chip.softOf n.1)) } := by
    rw [← s.chip.twistFrame_seek n.1 l hpd hframing h3 h7 hlock hl]
    rfl
  exact ⟨fun hw hm _ => ⟨_, hnext, s.chip.seekFrame_lock n.1 n.2 _ hw hm⟩,
    fun hw hw28 => ⟨_, hnext, s.chip.seekFrame_none n.1 n.2 _ hw hw28⟩⟩

theorem multiframe_next (s : State) (n : LLane) :
    exec (.multiframe n) s = .next { s with chip := (s.chip.multiframe n.1).finishRemovals } := rfl

theorem multiframe_fails (s : State) (n : LLane) (nibs : List Nat) (hexec : s.chip.mbx.exec = [])
    (hdone : (s.chip.framerOf n.1).mfDone = some (nibs, true)) :
    ∃ t, exec (.multiframe n) s = .next t ∧ (t.chip.framerOf n.1).mfDone = none ∧
      t.chip.fld (TWF_OH_ERR.MF_CRC n.1) = min (2 ^ (TWF_OH_ERR.MF_CRC n.1).w - 1) (s.chip.fld (TWF_OH_ERR.MF_CRC n.1) + 1) ∧
      t.chip.flag (TWF_LANE_STATUS.MF_VALID n.1) =
        (s.chip.flag (TWF_LANE_STATUS.MF_VALID n.1) && decide ((s.chip.framerOf n.1).mfFails = 0)) := by
  obtain ⟨htaken, hcrc, hvalid, hidle⟩ := multiframeBad_shows s.chip n
  have hnext := multiframe_next s n
  rw [s.chip.multiframe_bad n.1 hdone, Chip.finishRemovals_idle _ (hidle.trans hexec)] at hnext
  exact ⟨_, hnext, htaken, hcrc, hvalid⟩

theorem multiframe_accepted (s : State) (n : LLane) (nibs : List Nat) (hexec : s.chip.mbx.exec = [])
    (hdone : (s.chip.framerOf n.1).mfDone = some (nibs, false)) :
    let b := mfByte nibs
    mfCrc ((List.range 10).map b) = 256 * b 10 + b 11 → (n.1 ≠ 8 ∨ s.chip.plyFitted = false) →
    ((s.chip.framerOf n.1).farChecked = true ∨ s.chip.lastGood n.1 = none) →
    ∃ t, exec (.multiframe n) s = .next t ∧ (t.chip.framerOf n.1).mfDone = none ∧ (t.chip.framerOf n.1).mfFails = 0 ∧
      (t.chip.framerOf n.1).farChecked = true ∧ t.chip.flag (TWF_LANE_STATUS.MF_VALID n.1) = true ∧
      t.chip.fld (TWF_FAR_ID_HI.FAR_HI n.1) = (256 * b 0 + b 1) % 2 ^ 16 ∧
      t.chip.fld (TWF_FAR_ID_LO.FAR_LO n.1) = (((b 2 * 256 + b 3) * 256 + b 4) * 256 + b 5) % 2 ^ 32 ∧
      t.chip.reg (TWF_FAR_INFO.addr n.1) = BitVec.ofNat 32 (((b 6 * 256 + b 7) * 256 + b 8) * 256 + b 9) := by
  intro b hcrc hply hfar
  obtain ⟨hidle, hshows⟩ := multiframeGood_shows s.chip n b hfar
  have hfitted : (s.chip.multiframeTaken n.1 b).plyFitted = s.chip.plyFitted := by
    unfold Chip.plyFitted Chip.flag Chip.fld
    rw [s.chip.multiframeTaken_reg n.1 b _ n.2 (.inr (by decide))]
  rw [hexec] at hidle
  have hnext := multiframe_next s n
  rw [s.chip.multiframe_good n.1 hdone hcrc (by rwa [hfitted]), Chip.finishRemovals_idle _ (List.subset_nil.1 hidle)] at hnext
  refine ⟨_, hnext, ?_⟩
  dsimp only
  exact hshows

theorem portRateFault_next (s : State) (n : LLane) (p : PortNo) (h : s.chip.portRuns p.1 = true) :
    ∃ t, exec (.portRateFault p) s = .next t ∧ (t.chip.port p.1).rateFault = true ∧
      t.chip.reg (TWF_OH_ERR.addr n.1) = s.chip.reg (TWF_OH_ERR.addr n.1) := by
  refine ⟨_, rfl, ?_⟩
  dsimp only [State.onChip]
  exact rateFault_shows s.chip n p h

theorem rateFaultClear_next (s : State) (n : LLane) (p : PortNo) :
    ∃ t, exec (.rateFaultClear p) s = .next t ∧ (t.chip.port p.1).rateFault = false ∧
      t.chip.reg (TWF_OH_ERR.addr n.1) = s.chip.reg (TWF_OH_ERR.addr n.1) := by
  refine ⟨_, rfl, ?_⟩
  dsimp only [State.onChip]
  exact rateFaultClear_shows s.chip n p

theorem ieeeAlignLoss_seeks (s : State) (n : LLane) (hframing : s.chip.fld (TWF_LANE_STATUS.FRAMING n.1) = 2)
    (hlock : s.chip.flag (TWF_LANE_STATUS.FRAME_LOCK n.1) = true) :
    ∃ t, exec (.ieeeAlignLoss n) s = .next t ∧ t.chip.Seeks n.1 := by
  have hnext : exec (.ieeeAlignLoss n) s = .next { s with chip := s.chip.frameLost n.1 } := by
    change chipNext s _ = _
    unfold chipNext State.onChip
    simp [hframing, hlock]
  refine ⟨_, hnext, ?_⟩
  dsimp only
  exact s.chip.seeks_frameLost n.1 n.2 (by rw [hframing]; decide)

/-- Settles O30: each clause is the lemma of its step. -/
theorem framingSteps : Obligations.FramingSteps := by
  unfold Obligations.FramingSteps
  intro s n p
  refine ⟨fun f => frameSend_group s n f, fun f => frameSend_ply s n f, fun f => frameSend_none s n f, fun l => twistFrame_steps s n l,
    multiframe_fails s n, multiframe_accepted s n, portRateFault_next s n p, rateFaultClear_next s n p,
    fun beyond => portSkew_shows s n p beyond, fun hframing hlock => ?_⟩
  obtain ⟨t, hnext, hseeks⟩ := ieeeAlignLoss_seeks s n hframing hlock
  exact ⟨t, hnext, hseeks.lock, hseeks.shown, hseeks.seek⟩

end Sys2Proof.Machine
end

section
/-! PROOFS. What opening, closing and switching lanes off leave of the ports. -/

namespace Sys2Proof.Machine

/-! ### Combinations -/

theorem PortsKept.refl (s : Chip) : PortsKept s s := .of rfl

theorem PortsKept.ite {s t u : Chip} {c : Prop} [Decidable c] (ht : PortsKept s t) (hu : PortsKept s u) : PortsKept s (if c then t else u) := by
  split
  · exact ht
  · exact hu

theorem PortsKept.forAll {α : Type} (l : List α) (f : Chip → α → Chip) (h : ∀ s x, PortsKept s (f s x)) (s : Chip) :
    PortsKept s (s.forAll l f) := by
  unfold Chip.forAll
  induction l generalizing s with
  | nil => exact .refl s
  | cons x l ih => exact (h s x).trans (ih (f s x))

/-! ### State other than the ports -/

@[simp] theorem Chip.hostMod_portsExec (s : Chip) (h : Nat) (f : HostLane → HostLane) : (s.hostMod h f).portsExec = s.portsExec := by
  simp [Chip.portsExec]

@[simp] theorem Chip.quadMod_portsExec (s : Chip) (q : Nat) (f : QuadSt → QuadSt) : (s.quadMod q f).portsExec = s.portsExec := by
  simp [Chip.portsExec]

@[simp] theorem Chip.framerMod_portsExec (s : Chip) (n : Nat) (f : Framer → Framer) : (s.framerMod n f).portsExec = s.portsExec := by
  simp [Chip.portsExec]

@[simp] theorem Chip.rxMod_portsExec (s : Chip) (n : Nat) (f : LineRx → LineRx) : (s.rxMod n f).portsExec = s.portsExec := by
  simp [Chip.portsExec]

@[simp] theorem Chip.txMod_portsExec (s : Chip) (n : Nat) (f : LineTx → LineTx) : (s.txMod n f).portsExec = s.portsExec := by
  simp [Chip.portsExec]

@[simp] theorem Chip.setPd_portsExec (s : Chip) (d : Nat) (x : Power) : (s.setPd d x).portsExec = s.portsExec := by simp [Chip.portsExec]

@[simp] theorem Chip.setRole_portsExec (s : Chip) (b : Nat) (x : Role) : (s.setRole b x).portsExec = s.portsExec := by
  unfold Chip.setRole
  split <;> rfl

@[simp] theorem Chip.freeHeld_portsExec (s : Chip) (c : Fin 3) : (s.freeHeld c).portsExec = s.portsExec := rfl

theorem Chip.forAll_portsExec {α : Type} (l : List α) (f : Chip → α → Chip) (h : ∀ s x, (f s x).portsExec = s.portsExec) (s : Chip) :
    (s.forAll l f).portsExec = s.portsExec := by
  unfold Chip.forAll
  induction l generalizing s with
  | nil => rfl
  | cons x l ih => exact (ih (f s x)).trans (h s x)

/-! ### Host lanes and quads -/

@[simp] theorem Chip.setHt_portsExec (s : Chip) (h st : Nat) : (s.setHt h st).portsExec = s.portsExec := rfl

@[simp] theorem Chip.hostNoClock_portsExec (s : Chip) (h : Nat) : (s.hostNoClock h).portsExec = s.portsExec := rfl

@[simp] theorem Chip.hostStop_portsExec (s : Chip) (h : Nat) : (s.hostStop h).portsExec = s.portsExec := by simp [Chip.hostStop]

@[simp] theorem Chip.senseLegs_portsExec (s : Chip) (h legs : Nat) : (s.senseLegs h legs).portsExec = s.portsExec := by
  unfold Chip.senseLegs
  dsimp only
  split <;> rfl

@[simp] theorem Chip.setHostTaps_portsExec (s : Chip) (h : Nat) (l : List Int) : (s.setHostTaps h l).portsExec = s.portsExec := by
  unfold Chip.setHostTaps
  refine Chip.forAll_portsExec _ _ (fun s p => ?_) s
  rw [Chip.setFld_portsExec]

@[simp] theorem Chip.hostStart_portsExec (s : Chip) (h legs : Nat) : (s.hostStart h legs).portsExec = s.portsExec := by simp [Chip.hostStart]

theorem Chip.openQuad_portsExec (s : Chip) (q rate : Nat) : (s.openQuad q rate).portsExec = s.portsExec := by
  unfold Chip.openQuad
  dsimp only
  rw [Chip.forAll_portsExec _ _ (fun s h => by simp)]
  simp

theorem Chip.openHost_portsExec (s : Chip) (legs h : Nat) : (s.openHost legs h).portsExec = s.portsExec := by
  unfold Chip.openHost
  dsimp only
  split <;> simp

theorem Chip.freeHost_portsExec (s : Chip) (h : Nat) : (s.freeHost h).portsExec = s.portsExec := by simp [Chip.freeHost]

/-! ### Line lanes -/

@[simp] theorem Chip.freshFramer_portsExec (s : Chip) (n framing : Nat) : (s.freshFramer n framing).portsExec = s.portsExec := by
  simp [Chip.freshFramer]

@[simp] theorem Chip.fwWrite_portsExec (s : Chip) (d a : Nat) (v : Word) : (s.fwWrite d a v).portsExec = s.portsExec := by
  unfold Chip.fwWrite
  dsimp only
  split <;> rfl

@[simp] theorem Chip.laneDefaults_portsExec (s : Chip) (n : Nat) (twist : Bool) : (s.laneDefaults n twist).portsExec = s.portsExec := by
  simp [Chip.laneDefaults]

@[simp] theorem Chip.setSweep_portsExec (s : Chip) (n no : Nat) (w : Option (List Int)) : (s.setSweep n no w).portsExec = s.portsExec := by
  simp [Chip.setSweep]

@[simp] theorem Chip.setTxTaps_portsExec (s : Chip) (n : Nat) (l : List Int) : (s.setTxTaps n l).portsExec = s.portsExec := by
  unfold Chip.setTxTaps
  refine Chip.forAll_portsExec _ _ (fun s p => ?_) s
  rw [Chip.setFld_portsExec]

theorem Chip.setupTx_portsExec (s : Chip) (n rate : Nat) (hank : Option (List Byte)) : (s.setupTx n rate hank).portsExec = s.portsExec := by
  unfold Chip.setupTx
  cases hank <;> simp

@[simp] theorem Chip.setHankSlot_portsExec (s : Chip) (i : Nat) (x : HankSlot) : (s.setHankSlot i x).portsExec = s.portsExec := rfl

@[simp] theorem Chip.touchSlot_portsExec (s : Chip) (i : Nat) : (s.touchSlot i).portsExec = s.portsExec := rfl

@[simp] theorem Chip.unbusy_portsExec (s : Chip) (i : Nat) : (s.unbusy i).portsExec = s.portsExec := rfl

theorem Chip.writeHank_portsExec {s : Chip} {img : List Byte} {x : Chip × Nat} (h : s.writeHank img = some x) : x.1.portsExec = s.portsExec := by
  unfold Chip.writeHank at h
  split at h
  · exact absurd h (by simp)
  · obtain rfl := Option.some.inj h
    simp

theorem Chip.pinLastGood_portsExec (s : Chip) (n i : Nat) : (s.pinLastGood n i).portsExec = s.portsExec := by
  have hdrop : (s.dropLastGood n).portsExec = s.portsExec := by
    unfold Chip.dropLastGood
    split <;> rfl
  exact hdrop

theorem Chip.loadRecord_portsExec (s : Chip) (n mode rate : Nat) : (s.loadRecord n mode rate).1.portsExec = s.portsExec := by
  unfold Chip.loadRecord
  extract_lets q
  have hread : q.1.portsExec = s.portsExec := Chip.readBytes_portsExec s .shadow (shadowRecOff n) 2048
  clear_value q
  split
  · exact hread
  · split
    · exact hread
    · split
      · exact hread
      · next hwritten =>
        dsimp only
        rw [Chip.pinLastGood_portsExec, Chip.unbusy_portsExec]
        refine Eq.trans ?_ ((Chip.writeHank_portsExec hwritten).trans hread)
        split <;> rfl

theorem PortsKept.dropOtherMode (s : Chip) (n mode : Nat) : PortsKept s (s.dropOtherMode n mode) := by
  unfold Chip.dropOtherMode
  exact .ite (FaultKept.dropPins s n).ports (.refl s)

theorem PortsKept.startRx (s : Chip) (n rate : Nat) (why : Option PageWhy) : PortsKept s (s.startRx n rate why) := by
  unfold Chip.startRx
  dsimp only
  refine .trans ?_ (.of (Chip.rxMod_portsExec _ n _))
  refine .trans ?_ (FaultKept.retrain _ n).ports
  exact .of rfl

/-- A line lane that is set up. -/
theorem PortsKept.openLine (s : Chip) (n : Nat) (retrain : Bool) : PortsKept s (s.openLine n retrain).1 := by
  unfold Chip.openLine
  extract_lets mode rate dropped cleared reset r loaded hank
  have hdropped : PortsKept s dropped := .dropOtherMode s n mode
  have hcleared : PortsKept dropped cleared := .of (by simp [cleared])
  have hreset : PortsKept cleared reset := .ite (.refl _) (.of rfl)
  have hloaded : PortsKept reset loaded := by
    dsimp only [loaded, r]
    split
    · exact .refl _
    · exact .of (Chip.loadRecord_portsExec _ _ _ _)
  have hset := (hdropped.trans hcleared).trans hreset
  split
  · exact hset
  · exact ((hset.trans hloaded).trans (.startRx loaded n rate _)).trans (.of (Chip.setupTx_portsExec _ _ _ _))

/-! ### Domains that go off -/

theorem Chip.resetBlocks_portsExec (s : Chip) (d : Nat) : (s.resetBlocks d).portsExec = s.portsExec := by
  unfold Chip.resetBlocks
  dsimp only
  split_ifs <;> rfl

@[simp] theorem Chip.resetLogic_portsExec (s : Chip) (d : Nat) : (s.resetLogic d).portsExec = s.portsExec := by
  unfold Chip.resetLogic
  dsimp only
  split
  · exact s.resetBlocks_portsExec d
  · exact s.resetBlocks_portsExec d

theorem Chip.clearMemory_portsExec (s : Chip) (m : MemId) : (s.clearMemory m).portsExec = s.portsExec := by
  cases m with
  | tension n sh => unfold Chip.clearMemory; dsimp only; split <;> rfl
  | _ => rfl

@[simp] theorem Chip.clearMemories_portsExec (s : Chip) (d : Nat) : (s.clearMemories d).portsExec = s.portsExec :=
  Chip.forAll_portsExec _ _ Chip.clearMemory_portsExec s

theorem Chip.powerOff_portsExec (s : Chip) (d : Nat) : (s.powerOff d).portsExec = s.portsExec := by
  unfold Chip.powerOff
  dsimp only
  split <;> simp

theorem PortsKept.afterLeave (s : Chip) (d : Nat) : PortsKept s (s.afterLeave d) := by
  unfold Chip.afterLeave
  refine .ite (.of (by simp)) (.ite (.of rfl) (.ite ?_ (.refl s)))
  exact (FaultKept.withdrawPages s _).ports.trans (FaultKept.plyDrop _ _).ports

theorem PortsKept.goOff (s : Chip) (d : Nat) : PortsKept s (s.goOff d) := .trans (.of (s.powerOff_portsExec d)) (.afterLeave _ d)

theorem PortsKept.closeLine (s : Chip) (n : Nat) : PortsKept s (s.closeLine n) := by
  unfold Chip.closeLine
  dsimp only
  have hstopped := (FaultKept.plyRelease s n).trans (.rxToOff _ n)
  have hfresh := hstopped.ports.trans (.of (Chip.freshFramer_portsExec _ n 0))
  exact .ite (.refl s) (.ite hfresh (hfresh.trans (.goOff _ _)))

theorem PortsKept.closeQuad (s : Chip) (q : Nat) : PortsKept s (s.closeQuad q) := by
  unfold Chip.closeQuad
  dsimp only
  refine .ite (.refl s) (.trans (.of ?_) (.goOff _ _))
  simp

/-! ### A port that goes (R67) -/

/-- While no command sets up a port, a port that is dropped stays ABSENT. -/
theorem Chip.dropPort_absent (s : Chip) (p : Nat) (hp : p < 16) (he : ∀ e ∈ s.mbx.exec, e.addsPort = false) :
    ((s.dropPort p).port p).st = .absent := by
  unfold Chip.dropPort
  extract_lets x phys gone hosts lines
  have hhosts : PortsKept gone hosts := .forAll _ _ (fun s h => .of (s.freeHost_portsExec h)) gone
  have hlines : PortsKept hosts lines := .forAll _ _ PortsKept.closeLine hosts
  have hquads := PortsKept.forAll (quadsOf x.hostMask) _ PortsKept.closeQuad lines
  refine (((hhosts.trans hlines).trans hquads).trans (FaultKept.settle _).ports).absent ?_ p ?_
  · simpa [gone] using he
  · simp only [gone, Chip.port_portMod _ _ _ hp]

end Sys2Proof.Machine
end

section
/-! PROOFS. The mode and port commands. -/

namespace Sys2Proof.Machine

/-! ### ADD_PORT (R59, R67, R313) -/

/-- The port that ADD_PORT enters. -/
def AddReq.newPort (a : AddReq) (m : Mode) : Port :=
  { mode := a.code, st := .configuring, trib := a.trib, hostFirst := a.hostFirst, hostCount := m.host, lineMask := a.mask }

theorem AddReq.port_lt (a : AddReq) {m : Mode} (h : a.mode = some m) : a.port < 16 := by
  unfold AddReq.mode at h
  split at h
  · exact absurd h (by simp)
  · split at h
    · next hfits => exact Nat.lt_succ_of_le hfits.1
    · exact absurd h (by simp)

/-- Setting up the lanes leaves the port as ADD_PORT entered it. -/
theorem Chip.openPort_kept (s : Chip) (a : AddReq) (m : Mode) (legs : Nat) :
    ∃ c : Chip, PortsKept (c.portMod a.port (fun _ => a.newPort m)) (s.openPort a m legs).1 := by
  unfold Chip.openPort
  extract_lets hosts lines own newQuads up entered quads trained filled r
  have hquads : PortsKept entered quads := .forAll _ _ (fun s q => .of (s.openQuad_portsExec q m.rate)) entered
  have htrained : PortsKept quads trained := .forAll _ _ (fun s h => .of (s.openHost_portsExec legs h)) quads
  have hfilled : PortsKept trained filled := .forAll _ _ (fun s n => .of (s.framerMod_portsExec n _)) trained
  have hopened : ∀ (l : List Nat) (x : Chip × Nat), PortsKept x.1 (l.foldl (fun (r : Chip × Nat) n =>
      let x := r.1.openLine n a.retrain; (x.1, if x.2 then setBitN r.2 n else r.2)) x).1 := by
    intro l
    induction l with
    | nil => exact fun x => .refl x.1
    | cons n l ih =>
      intro x
      rw [List.foldl_cons]
      refine .trans (.openLine x.1 n a.retrain) ?_
      exact ih (_, _)
  exact ⟨up, ((hquads.trans htrained).trans hfilled).trans (hopened own (filled, 0))⟩

theorem Chip.addPort_opens (s : Chip) (a : AddReq) (m : Mode) (legs : Nat) (hm : a.mode = some m) (hcan : s.canAdd a m = true) :
    ∃ (c : Chip) (w : Wait), s.addPort a legs = ((c.openPort a m legs).1, .runs w) := by
  unfold Chip.addPort
  rw [hm]
  dsimp only
  rw [if_neg (by simp [hcan])]
  exact ⟨_, _, rfl⟩

theorem Port.setUp_of_frame {x y : Port} (h : x.frame = y.frame) :
    x.mode = y.mode ∧ x.hostFirst = y.hostFirst ∧ x.hostCount = y.hostCount ∧ x.lineMask = y.lineMask :=
  ⟨show x.frame.mode = y.frame.mode from congrArg _ h, show x.frame.hostFirst = y.frame.hostFirst from congrArg _ h,
    show x.frame.hostCount = y.frame.hostCount from congrArg _ h, show x.frame.lineMask = y.frame.lineMask from congrArg _ h⟩

/-- The port that an ADD_PORT enters stands once everything has settled. -/
theorem Chip.addPort_shows (s : Chip) (r : Req) (a : AddReq) (m : Mode) (legs : Nat) (hm : a.mode = some m) (hcan : s.canAdd a m = true) :
    let t := ((s.addPort a legs).1.conclude r (s.addPort a legs).2).settle
    (t.port a.port).mode = a.code ∧ (t.port a.port).st ≠ .absent ∧ (t.port a.port).hostFirst = a.hostFirst ∧
      (t.port a.port).hostCount = m.host ∧ (t.port a.port).lineMask = a.mask := by
  obtain ⟨c, w, hopens⟩ := s.addPort_opens a m legs hm hcan
  obtain ⟨entered, hkept⟩ := c.openPort_kept a m legs
  have hnew : (entered.portMod a.port (fun _ => a.newPort m)).port a.port = a.newPort m := Chip.port_portMod _ _ _ (a.port_lt hm)
  have hconcluded : ∀ k, ((c.openPort a m legs).1.conclude r (.runs w)).port k = (c.openPort a m legs).1.port k :=
    Chip.port_congr (congrArg Prod.fst (Chip.conclude_runs_portsExec _ r w))
  rw [hopens]
  intro t
  have hsettled := (FaultKept.settle ((c.openPort a m legs).1.conclude r (.runs w))).ports
  have hframe : (t.port a.port).frame = (a.newPort m).frame := by
    rw [← hnew, ← hkept.frame, ← hconcluded]
    exact hsettled.frame a.port
  obtain ⟨hmode, hfirst, hcount, hmask⟩ := Port.setUp_of_frame hframe
  refine ⟨hmode, hsettled.present _ ?_, hfirst, hcount, hmask⟩
  rw [hconcluded]
  exact hkept.present _ (by rw [hnew]; exact PortSt.noConfusion)

/-! ### REMOVE_PORT (R66, R67) -/

theorem Chip.removePort_waits (s : Chip) (p : Nat) (hp : p ≤ 15) (h : (s.port p).st ≠ .absent) :
    s.removePort p = (s.portMod p (fun x => { x with st := .configuring, wantUp := false }), .runs (.removePort p)) := by
  unfold Chip.removePort
  rw [if_neg (by omega), if_neg h]

/-- The state in which the one REMOVE_PORT executes. -/
def Chip.removing (s : Chip) (r : Req) (p : Nat) : Chip :=
  (s.portMod p (fun x => { x with st := .configuring, wantUp := false })).conclude r (.runs (.removePort p))

theorem Chip.removing_port (s : Chip) (r : Req) (p : Nat) (hp : p < 16) :
    (s.removing r p).port p = { s.port p with st := .configuring, wantUp := false } :=
  (Chip.port_congr (congrArg Prod.fst (Chip.conclude_runs_portsExec _ r _)) p).trans (Chip.port_portMod s p _ hp)

theorem Chip.removing_exec (s : Chip) (r : Req) (p : Nat) (h : s.mbx.exec = []) :
    (s.removing r p).mbx.exec = [⟨r.src, r.opcode, r.tag, r.flySrc, .removePort p⟩] := by
  refine (congrArg Prod.snd (Chip.conclude_runs_portsExec _ r (.removePort p))).trans ?_
  simp [h]

theorem Chip.removalWaits_removing (s : Chip) (r : Req) (p : Nat) (hp : p < 16) : (s.removing r p).removalWaits p = s.removalWaits p := by
  have hcalm : Calm serveReg s (s.removing r p) := (Calm.portMod _ s p _).trans (Calm.conclude _ r _)
  have hfld : ∀ f : Fld, serveReg f.addr = false → (s.removing r p).fld f = s.fld f := fun f hf => by
    unfold Chip.fld; rw [hcalm.reg _ hf]
  have hrx : (s.removing r p).plyRx = s.plyRx := hfld _ (by decide)
  have hlane : (s.removing r p).plyLane = s.plyLane := hfld _ (by decide)
  have hrestoring : (s.removing r p).restoring = s.restoring := by
    funext n
    unfold Chip.restoring Chip.pageQueued Chip.inFlight Chip.rxOf
    rw [hcalm.hnk, hcalm.rx]
  unfold Chip.removalWaits Chip.carrier Chip.onL8
  rw [s.removing_port r p hp, hrx, hlane, hrestoring, hcalm.ply]
  rfl

theorem Chip.finishRemovals_removing (s : Chip) (r : Req) (p : Nat) (h : s.mbx.exec = []) :
    ∃ e, (s.removing r p).mbx.exec = [e] ∧ e.wait = .removePort p ∧
      (s.removing r p).finishRemovals = (s.removing r p).finishRemoval e := by
  refine ⟨_, s.removing_exec r p h, rfl, ?_⟩
  unfold Chip.finishRemovals
  rw [s.removing_exec r p h]
  rfl

theorem Chip.finishRemovals_waits (s : Chip) (r : Req) (p : Nat) (hp : p < 16) (h : s.mbx.exec = []) (hwaits : s.removalWaits p = true) :
    (s.removing r p).finishRemovals = s.removing r p := by
  obtain ⟨e, _, hwait, hfinish⟩ := s.finishRemovals_removing r p h
  rw [hfinish]
  unfold Chip.finishRemoval
  rw [hwait]
  dsimp only
  rw [if_pos ((s.removalWaits_removing r p hp).trans hwaits)]

theorem Chip.finishRemovals_absent (s : Chip) (r : Req) (p : Nat) (hp : p < 16) (h : s.mbx.exec = []) (hready : s.removalWaits p = false) :
    ((s.removing r p).finishRemovals.port p).st = .absent := by
  obtain ⟨e, hexec, hwait, hfinish⟩ := s.finishRemovals_removing r p h
  have hdropped := (s.removing r p).dropPort_absent p hp (by simp [hexec, ExecCmd.addsPort, hwait])
  rw [hfinish]
  unfold Chip.finishRemoval
  rw [hwait]
  dsimp only
  rw [if_neg (by rw [s.removalWaits_removing r p hp, hready]; exact Bool.false_ne_true),
    Chip.port_congr (congrArg Prod.fst (Chip.endCmd_portsExec _ e _)),
    Chip.port_congr (congrArg Prod.fst (Chip.saveShadow_portsExec _))]
  exact hdropped

/-! ### ENABLE_PORT and DISABLE_PORT (R63, R314) -/

/-- The state at the completion of ENABLE_PORT and DISABLE_PORT. -/
def Chip.enabled (s : Chip) (p : Nat) (on : Bool) : Chip :=
  ((s.portMod p (fun x => { x with wantUp := on, st := if x.st = .fault then .fault else if on then .up else .ready })).refreshPort p).saveShadow

theorem Chip.refreshPort_wantUp (s : Chip) (p : Nat) : ((s.refreshPort p).port p).wantUp = (s.port p).wantUp := by
  have hframe := (FaultKept.refreshPort s p).ports.frame p
  exact show ((s.refreshPort p).port p).frame.wantUp = (s.port p).frame.wantUp from congrArg _ hframe

theorem Chip.enabled_shows (s : Chip) (p : Nat) (on : Bool) (hp : p < 16) :
    ((s.enabled p on).port p).wantUp = on ∧ (s.enabled p on).regs = s.regs := by
  have hshadow : ∀ c : Chip, c.saveShadow.regs = c.regs := fun c => by unfold Chip.saveShadow; dsimp only; split <;> rfl
  have hrefresh : ∀ c : Chip, (c.refreshPort p).regs = c.regs := fun c => by
    unfold Chip.refreshPort
    split
    case h_4 => rfl
    all_goals split <;> simp only [Chip.portMod_regs]
  unfold Chip.enabled
  refine ⟨?_, ?_⟩
  · rw [Chip.port_congr (congrArg Prod.fst (Chip.saveShadow_portsExec _)), Chip.refreshPort_wantUp, Chip.port_portMod _ _ _ hp]
  · rw [hshadow, hrefresh, Chip.portMod_regs]

theorem Chip.setEnable_done (s : Chip) (p : Nat) (on : Bool) (hp : p ≤ 15) (h1 : (s.port p).st ≠ .absent) (h2 : (s.port p).st ≠ .configuring) :
    s.setEnable p on = (s.enabled p on, .done (.okR (leBytes 4 ((s.enabled p on).portMap p).toNat))) := by
  unfold Chip.setEnable
  dsimp only
  rw [if_neg (by omega), if_neg (by simp [h1, h2])]
  rfl

/-- What ENABLE_PORT and DISABLE_PORT answer. -/
theorem setEnable_answers (s : State) (c : Chip) (r : Req) (on : Bool) (i : Instr)
    (hnext : exec i s = .next { s with chip := (c.setEnable (byteAt r.payload 0) on).1.conclude r (c.setEnable (byteAt r.payload 0) on).2 }) :
    let p := byteAt r.payload 0
    let ends := fun (d : Chip) (y : Reply) => exec i s = .next { s with chip := d.conclude r (.done y) }
    (15 < p → ends c (.fail .badArg)) ∧
      (p ≤ 15 → (c.port p).st = .absent ∨ (c.port p).st = .configuring → ends c (.fail .badState)) ∧
      (p ≤ 15 → (c.port p).st ≠ .absent → (c.port p).st ≠ .configuring →
        ∃ d : Chip, ends d (.okR (leBytes 4 (d.portMap p).toNat)) ∧ (d.port p).wantUp = on ∧ d.regs = c.regs) := by
  intro p ends
  refine ⟨fun hp => ?_, fun hp hst => ?_, fun hp h1 h2 => ⟨c.enabled p on, ?_, c.enabled_shows p on (by omega)⟩⟩
  · have hbad : c.setEnable p on = (c, .done (.fail .badArg)) := by
      unfold Chip.setEnable
      dsimp only
      rw [if_pos hp]
    rw [hbad] at hnext
    exact hnext
  · have hbad : c.setEnable p on = (c, .done (.fail .badState)) := by
      unfold Chip.setEnable
      dsimp only
      rw [if_neg (by omega), if_pos hst]
    rw [hbad] at hnext
    exact hnext
  · rw [c.setEnable_done p on hp h1 h2] at hnext
    exact hnext

/-! ### The commands, served -/

/-- A command that passes the checks of R306, and what follows it in its step. -/
theorem chipNext_krelin (s : State) (src : CmdSrc) (op : Nat) (c : Chip) (r : Req) (f : Chip → Req → Chip × Verdict) (g : Chip → Chip)
    (h : s.takes src op c r) :
    chipNext s (fun c => g (c.krelin src op f)) = .next { s with chip := g ((f c r).1.conclude r (f c r).2) } := by
  unfold chipNext State.onChip
  rw [← Chip.krelin_takes s src op c r f h]

theorem addPort_next (s : State) (src : CmdSrc) (c : Chip) (r : Req) (legs : BitVec 16) (h : s.takes src 0x0201 c r) :
    exec (.addPort src legs) s = .next { s with chip :=
      ((c.addPort (addReqOf r.payload) legs.toNat).1.conclude r (c.addPort (addReqOf r.payload) legs.toNat).2).settle } :=
  chipNext_krelin s src _ c r _ Chip.settle h

theorem removePort_next (s : State) (src : CmdSrc) (c : Chip) (r : Req) (h : s.takes src 0x0202 c r) :
    exec (.removePort src) s = .next { s with chip :=
      ((c.removePort (byteAt r.payload 0)).1.conclude r (c.removePort (byteAt r.payload 0)).2).finishRemovals } :=
  chipNext_krelin s src _ c r _ Chip.finishRemovals h

theorem setEnable_next (s : State) (src : CmdSrc) (c : Chip) (r : Req) (on : Bool) (h : s.takes src (if on then 0x0203 else 0x0204) c r) :
    exec (if on then .enablePort src else .disablePort src) s =
      .next { s with chip := (c.setEnable (byteAt r.payload 0) on).1.conclude r (c.setEnable (byteAt r.payload 0) on).2 } := by
  cases on with
  | false => exact chipNext_krelin s src 0x0204 c r (fun c r => c.setEnable (byteAt r.payload 0) false) id h
  | true => exact chipNext_krelin s src 0x0203 c r (fun c r => c.setEnable (byteAt r.payload 0) true) id h

theorem getPortMap_next (s : State) (src : CmdSrc) (c : Chip) (r : Req) (h : s.takes src 0x0205 c r) :
    exec (.getPortMap src) s = .next { s with chip := c.conclude r (.done (.okD (wordBytes ((List.range 16).map c.portMap)))) } :=
  chipNext_krelin s src 0x0205 c r (fun c _ => (c, .done (.okD (wordBytes ((List.range 16).map c.portMap))))) id h

theorem addPort_answers (s : State) (src : CmdSrc) (c : Chip) (r : Req) (legs : BitVec 16) (h : s.takes src 0x0201 c r) :
    let p := byteAt r.payload 0
    let a := addReqOf r.payload
    (a.mode = none → exec (.addPort src legs) s = .next { s with chip := (c.conclude r (.done (.fail .badArg))).settle }) ∧
      (∀ m, a.mode = some m → c.canAdd a m = false →
        exec (.addPort src legs) s = .next { s with chip := (c.conclude r (.done (.fail .badState))).settle }) ∧
      (∀ m, a.mode = some m → c.canAdd a m = true →
        ∃ t, exec (.addPort src legs) s = .next t ∧ (t.chip.port p).mode = a.code ∧ (t.chip.port p).st ≠ .absent ∧
          (t.chip.port p).hostFirst = a.hostFirst ∧ (t.chip.port p).hostCount = m.host ∧ (t.chip.port p).lineMask = a.mask) := by
  intro p a
  have hnext := addPort_next s src c r legs h
  refine ⟨fun hm => ?_, fun m hm hcan => ?_, fun m hm hcan => ⟨_, hnext, ?_⟩⟩
  · have hbad : c.addPort a legs.toNat = (c, .done (.fail .badArg)) := by
      unfold Chip.addPort
      rw [hm]
    rw [hbad] at hnext
    exact hnext
  · have hbad : c.addPort a legs.toNat = (c, .done (.fail .badState)) := by
      unfold Chip.addPort
      rw [hm]
      dsimp only
      rw [if_pos (by simp [hcan])]
    rw [hbad] at hnext
    exact hnext
  · dsimp only
    exact c.addPort_shows r a m legs.toNat hm hcan

theorem removePort_answers (s : State) (src : CmdSrc) (c : Chip) (r : Req) (h : s.takes src 0x0202 c r) :
    let p := byteAt r.payload 0
    (15 < p → exec (.removePort src) s = .next { s with chip := (c.conclude r (.done (.fail .badArg))).finishRemovals }) ∧
      (p ≤ 15 → (c.port p).st = .absent →
        exec (.removePort src) s = .next { s with chip := (c.conclude r (.done (.fail .badState))).finishRemovals }) ∧
      (p ≤ 15 → (c.port p).st ≠ .absent → c.mbx.exec = [] → c.removalWaits p = false →
        ∃ t, exec (.removePort src) s = .next t ∧ (t.chip.port p).st = .absent) ∧
      (p ≤ 15 → (c.port p).st ≠ .absent → c.mbx.exec = [] → c.removalWaits p = true →
        ∃ t, exec (.removePort src) s = .next t ∧ (t.chip.port p).st = .configuring ∧ (t.chip.port p).wantUp = false) := by
  intro p
  have hnext := removePort_next s src c r h
  have hremoves : p ≤ 15 → (c.port p).st ≠ .absent →
      exec (.removePort src) s = .next { s with chip := (c.removing r p).finishRemovals } := fun hp hst => by
    rw [c.removePort_waits p hp hst] at hnext
    exact hnext
  refine ⟨fun hp => ?_, fun hp hst => ?_, fun hp hst hexec hready => ⟨_, hremoves hp hst, ?_⟩,
    fun hp hst hexec hwaits => ⟨_, hremoves hp hst, ?_⟩⟩
  · have hbad : c.removePort p = (c, .done (.fail .badArg)) := by
      unfold Chip.removePort
      rw [if_pos hp]
    rw [hbad] at hnext
    exact hnext
  · have hbad : c.removePort p = (c, .done (.fail .badState)) := by
      unfold Chip.removePort
      rw [if_neg (by omega), if_pos hst]
    rw [hbad] at hnext
    exact hnext
  · dsimp only
    exact c.finishRemovals_absent r p (by omega) hexec hready
  · dsimp only
    rw [c.finishRemovals_waits r p (by omega) hexec hwaits, c.removing_port r p (by omega)]
    exact ⟨rfl, rfl⟩

/-- Settles O34: each command by its own lemma. -/
theorem portCommands : Obligations.PortCommands := by
  unfold Obligations.PortCommands
  intro s src c r legs p a ends
  exact ⟨addPort_answers s src c r legs, removePort_answers s src c r, fun on h => setEnable_answers s c r on _ (setEnable_next s src c r on h),
    getPortMap_next s src c r⟩

end Sys2Proof.Machine
end

section
/-! PROOFS. Host lanes: what an operation on one lane changes, and the loss and return of its signal. -/

namespace Sys2Proof.Machine

/-! ### The fields of one host lane -/

/-- The field of host lane `h` that stands where `f` stands on lane 0. -/
def onLane (h : Nat) (f : Fld) : Fld := { f with addr := f.addr + 0x10000 * h }

theorem laneReg_onLane (h : Nat) (f : Fld) (hf : laneReg 0 f.addr = true) : laneReg h (onLane h f).addr = true := by
  have haddr : (onLane h f).addr = f.addr + 0x10000 * h := rfl
  simp only [laneReg, Bool.and_eq_true, decide_eq_true_eq] at hf ⊢
  omega

theorem apart_onLane (h : Nat) (f g : Fld) (hf : f.apart g = true) : (onLane h f).apart (onLane h g) = true := by
  have haddr : (onLane h f).addr = f.addr + 0x10000 * h ∧ (onLane h g).addr = g.addr + 0x10000 * h := ⟨rfl, rfl⟩
  have hbits : (onLane h f).lo = f.lo ∧ (onLane h f).w = f.w ∧ (onLane h g).lo = g.lo ∧ (onLane h g).w = g.w := ⟨rfl, rfl, rfl, rfl⟩
  simp only [Fld.apart, Bool.or_eq_true, decide_eq_true_eq, bne_iff_ne] at hf ⊢
  omega

/-- From `c` to `d` no register changes but those of host lane `h` and those that settling may touch, and of the lane's fields only those
that share a bit with one of `T`, which are named as of lane 0. -/
structure LaneStep (T : List Fld) (h : Nat) (c d : Chip) : Prop where
  kept : RegsKept (laneOrSettle h) c d
  fld : ∀ g : Fld, laneReg 0 g.addr = true → T.all (fun f => f.apart g) = true → d.fld (onLane h g) = c.fld (onLane h g)

namespace LaneStep

variable {T U : List Fld} {h : Nat} {c d e : Chip}

theorem flag (k : LaneStep T h c d) (g : Fld) (hg : laneReg 0 g.addr = true) (hT : T.all (fun f => f.apart g) = true) :
    d.flag (onLane h g) = c.flag (onLane h g) := congrArg (· == 1) (k.fld g hg hT)

theorem refl (T : List Fld) (h : Nat) (c : Chip) : LaneStep T h c c := ⟨.refl _ _, fun _ _ _ => rfl⟩

theorem trans (k : LaneStep T h c d) (l : LaneStep T h d e) : LaneStep T h c e :=
  ⟨k.kept.trans l.kept, fun g hg hT => (l.fld g hg hT).trans (k.fld g hg hT)⟩

theorem mono (k : LaneStep T h c d) (hTU : T ⊆ U) : LaneStep U h c d :=
  ⟨k.kept, fun g hg hU => k.fld g hg (List.all_eq_true.2 (fun f hf => List.all_eq_true.1 hU f (hTU hf)))⟩

theorem ite {p : Prop} [Decidable p] (k : LaneStep T h c d) (l : LaneStep T h c e) : LaneStep T h c (if p then d else e) := by
  split
  · exact k
  · exact l

theorem ofRegs (T : List Fld) (h : Nat) (heq : d.regs = c.regs) : LaneStep T h c d := ⟨.ofRegs _ heq, fun _ _ _ => Chip.fld_congr heq _⟩

theorem hostMod (T : List Fld) (h : Nat) (c : Chip) (k : Nat) (f : HostLane → HostLane) : LaneStep T h c (c.hostMod k f) :=
  ofRegs T h (Chip.hostMod_regs c k f)

theorem raise (T : List Fld) (h : Nat) (c : Chip) (src pay : Nat) : LaneStep T h c (c.raise src pay) := ofRegs T h (Chip.raise_regs _ _ _)

theorem setFld (c : Chip) (h : Nat) (f : Fld) (v : Nat) (hlane : laneReg 0 f.addr = true) (hf : f ∈ T) :
    LaneStep T h c (c.setFld (onLane h f) v) := by
  have hown : laneOrSettle h (onLane h f).addr = true := by simp [laneOrSettle, laneReg_onLane h f hlane]
  exact ⟨.setFld c _ v hown, fun g _ hT => Chip.fld_setFld_other c _ _ v (apart_onLane h f g (List.all_eq_true.1 hT f hf))⟩

theorem setFlag (c : Chip) (h : Nat) (f : Fld) (b : Bool) (hlane : laneReg 0 f.addr = true) (hf : f ∈ T) :
    LaneStep T h c (c.setFlag (onLane h f) b) := setFld c h f _ hlane hf

/-- A calm operation that may touch only what settling may. -/
theorem ofCalm {P : Nat → Bool} (T : List Fld) (hh : h < 16) (hP : ∀ a, P a = true → settleReg a = true) (k : Calm P c d) :
    LaneStep T h c d := by
  refine ⟨fun a ha => k.reg a ?_, fun g hg _ => k.fld _ ?_⟩
  · simp only [laneOrSettle, Bool.or_eq_false_iff] at ha
    exact Bool.eq_false_iff.2 (fun hs => Bool.eq_false_iff.1 ha.2 (hP a hs))
  · exact Bool.eq_false_iff.2 (fun hs => Bool.eq_false_iff.1 (settleReg_hostLane h _ hh (laneReg_onLane h g hg)) (hP _ hs))

theorem settle (T : List Fld) (hh : h < 16) (c : Chip) : LaneStep T h c c.settle := ofCalm T hh (fun _ ha => ha) (Calm.settle c)

theorem within (s : State) (f : Chip → Chip) (k : LaneStep T h s.chip (f s.chip)) :
    s.within (s.onChip f) (0x100000 + 0x10000 * h) (0x110000 + 0x10000 * h) := within_of_kept s f h k.kept

end LaneStep

/-! ### A start of training -/

/-- The fields of the six taps, of lane 0. -/
def laneTapFlds : List Fld := hostTapFlds 0

/-- The fields that a lane's start writes after it has looked for open legs. -/
def startFlds : List Fld :=
  [HLN_STATUS.TRAINED 0, HLN_STATUS.POL_INV 0, HLN_STATUS.CDR_LOCK 0, HLN_STATUS.RX_SNR 0, HLN_STATUS.TRAIN_STATE 0] ++ laneTapFlds

/-- The fields that a restart of training writes. -/
def restartFlds : List Fld := [HLN_TRAIN_STATUS.RESTART_CNT 0, HLN_STATUS.TX_OPEN 0, HLN_FAULT.TX_OPEN 0] ++ startFlds

theorem setHostTaps_step {T : List Fld} (c : Chip) (h : Nat) (l : List Int) (hT : laneTapFlds ⊆ T) : LaneStep T h c (c.setHostTaps h l) := by
  have hset : ∀ (d : Chip), ∀ p ∈ (hostTapFlds h).zip l, LaneStep T h d (d.setFld p.1 (unsignedOf 9 p.2)) := by
    intro d p hp
    have hmem : p.1 ∈ laneTapFlds.map (onLane h) := (List.of_mem_zip hp).1
    obtain ⟨f, hf, he⟩ := List.mem_map.1 hmem
    rw [← he]
    refine LaneStep.setFld d h f _ ?_ (hT hf)
    exact (by decide : ∀ f ∈ laneTapFlds, laneReg 0 f.addr = true) f hf
  have hall : ∀ (l : List (Fld × Int)) (d : Chip), (∀ (d : Chip), ∀ p ∈ l, LaneStep T h d (d.setFld p.1 (unsignedOf 9 p.2))) →
      LaneStep T h d (l.foldl (fun s p => s.setFld p.1 (unsignedOf 9 p.2)) d) := by
    intro l
    induction l with
    | nil => exact fun d _ => .refl T h d
    | cons p l ih => exact fun d hl => (hl d p (by simp)).trans (ih _ (fun e q hq => hl e q (List.mem_cons_of_mem _ hq)))
  exact hall _ c hset

theorem senseLegs_step {T : List Fld} (c : Chip) (h legs : Nat) (hopen : HLN_STATUS.TX_OPEN 0 ∈ T) (hfault : HLN_FAULT.TX_OPEN 0 ∈ T) :
    LaneStep T h c (c.senseLegs h legs) := by
  have hflag : LaneStep T h c (c.setFlag (HLN_STATUS.TX_OPEN h) (bit legs h)) := .setFlag c h (HLN_STATUS.TX_OPEN 0) _ rfl hopen
  unfold Chip.senseLegs
  refine .ite (hflag.trans ?_) hflag
  exact (LaneStep.setFlag _ h (HLN_FAULT.TX_OPEN 0) true rfl hfault).trans (.raise ..)

theorem senseLegs_open (c : Chip) (h legs : Nat) : (c.senseLegs h legs).flag (HLN_STATUS.TX_OPEN h) = bit legs h := by
  have hset : (c.setFlag (HLN_STATUS.TX_OPEN h) (bit legs h)).flag (HLN_STATUS.TX_OPEN h) = bit legs h := Chip.flag_setFlag _ _ _ rfl rfl
  have hafter : ∀ d : Chip, LaneStep [HLN_FAULT.TX_OPEN 0] h d ((d.setFlag (HLN_FAULT.TX_OPEN h) true).raise (0x010 + h) 0) := fun d =>
    (LaneStep.setFlag d h (HLN_FAULT.TX_OPEN 0) true rfl (by simp)).trans (.raise ..)
  unfold Chip.senseLegs
  dsimp only
  split
  · exact ((hafter _).flag (HLN_STATUS.TX_OPEN 0) rfl rfl).trans hset
  · exact hset

theorem hostNoClock_step {T : List Fld} (c : Chip) (h : Nat) (hlock : HLN_STATUS.CDR_LOCK 0 ∈ T) (hsnr : HLN_STATUS.RX_SNR 0 ∈ T) :
    LaneStep T h c (c.hostNoClock h) :=
  (LaneStep.setFlag c h (HLN_STATUS.CDR_LOCK 0) false rfl hlock).trans (.setFld _ h (HLN_STATUS.RX_SNR 0) 0 rfl hsnr)

theorem setHt_step {T : List Fld} (c : Chip) (h st : Nat) (hT : HLN_STATUS.TRAIN_STATE 0 ∈ T) : LaneStep T h c (c.setHt h st) :=
  .setFld c h (HLN_STATUS.TRAIN_STATE 0) st rfl hT

/-- What a start does once it has looked for open legs. -/
theorem hostStart_afterLegs (c : Chip) (h legs : Nat) : LaneStep startFlds h (c.senseLegs h legs) (c.hostStart h legs) := by
  rw [hostStart_eq]
  refine .trans ?_ (setHt_step _ h _ (by decide))
  refine .trans ?_ (hostNoClock_step _ h (by decide) (by decide))
  unfold Chip.hostPrepared
  refine .trans ?_ (.hostMod ..)
  refine .trans ?_ (.ofRegs _ _ (Chip.quadMod_regs _ _ _))
  refine .trans ?_ (.setFlag _ h (HLN_STATUS.POL_INV 0) false rfl (by decide))
  refine .trans ?_ (.setFlag _ h (HLN_STATUS.TRAINED 0) false rfl (by decide))
  exact setHostTaps_step _ h _ (by decide)

theorem satInc_step {T : List Fld} (c : Chip) (h : Nat) (f : Fld) (n : Nat) (hlane : laneReg 0 f.addr = true) (hT : f ∈ T) :
    LaneStep T h c (c.satInc (onLane h f) n) := .setFld c h f _ hlane hT

theorem hostRestart_step (c : Chip) (h legs : Nat) (hh : h < 16) : LaneStep restartFlds h c (c.hostRestart h legs) := by
  have hcount : LaneStep restartFlds h c (c.satInc (HLN_TRAIN_STATUS.RESTART_CNT h) 1) :=
    satInc_step c h (HLN_TRAIN_STATUS.RESTART_CNT 0) 1 rfl (by decide)
  refine hcount.trans ((senseLegs_step _ h legs (by decide) (by decide)).trans ?_)
  exact ((hostStart_afterLegs _ h legs).mono (List.subset_append_right _ _)).trans (.settle _ hh _)

theorem hostRestart_open (c : Chip) (h legs : Nat) (hh : h < 16) : (c.hostRestart h legs).flag (HLN_STATUS.TX_OPEN h) = bit legs h := by
  have hstart : LaneStep startFlds h _ (c.hostRestart h legs) := (hostStart_afterLegs _ h legs).trans (.settle _ hh _)
  exact (hstart.flag (HLN_STATUS.TX_OPEN 0) rfl rfl).trans (senseLegs_open _ h legs)

/-! ### The loss of a signal (R100, R107) -/

/-- The fields that a loss of clock lock writes. -/
def unlockFlds : List Fld := [HLN_FAULT.CDR_UNLOCK 0, HLN_STATUS.CDR_LOCK 0, HLN_STATUS.RX_SNR 0]

/-- A loss of clock lock in data sets the fault; then clock recovery starts afresh. -/
theorem hostUnlock_eq (c : Chip) (h : Nat) : c.hostUnlock h =
    (if c.hostData h && c.flag (HLN_STATUS.CDR_LOCK h) then c.setFlag (HLN_FAULT.CDR_UNLOCK h) true else c).hostNoClock h := rfl

theorem hostUnlock_step (c : Chip) (h : Nat) : LaneStep unlockFlds h c (c.hostUnlock h) := by
  rw [hostUnlock_eq]
  refine .trans ?_ (hostNoClock_step _ h (by decide) (by decide))
  exact .ite (.setFlag c h (HLN_FAULT.CDR_UNLOCK 0) true rfl (by decide)) (.refl ..)

theorem hostUnlock_snr (c : Chip) (h : Nat) : (c.hostUnlock h).fld (HLN_STATUS.RX_SNR h) = 0 := Chip.fld_setFld _ (HLN_STATUS.RX_SNR h) 0 rfl

theorem hostUnlock_fault (c : Chip) (h : Nat) (hdata : c.hostData h = true) (hlock : c.flag (HLN_STATUS.CDR_LOCK h) = true) :
    (c.hostUnlock h).flag (HLN_FAULT.CDR_UNLOCK h) = true := by
  rw [hostUnlock_eq, hdata, hlock]
  have hafter : ∀ d : Chip, LaneStep [HLN_STATUS.CDR_LOCK 0, HLN_STATUS.RX_SNR 0] h d (d.hostNoClock h) := fun d =>
    hostNoClock_step d h (by simp) (by simp)
  refine ((hafter _).flag (HLN_FAULT.CDR_UNLOCK 0) rfl rfl).trans ?_
  exact Chip.flag_setFlag c (HLN_FAULT.CDR_UNLOCK h) true rfl rfl

/-- A lane that runs FIXED is no longer TRAINED. -/
def Chip.untrainFixed (c : Chip) (h : Nat) : Chip := if c.htState h = htFixed then c.setFlag (HLN_STATUS.TRAINED h) false else c

theorem untrainFixed_step (c : Chip) (h : Nat) : LaneStep [HLN_STATUS.TRAINED 0] h c (c.untrainFixed h) :=
  .ite (.setFlag c h (HLN_STATUS.TRAINED 0) false rfl (by simp)) (.refl ..)

theorem untrainFixed_trained (c : Chip) (h : Nat) :
    (c.untrainFixed h).flag (HLN_STATUS.TRAINED h) = (c.flag (HLN_STATUS.TRAINED h) && c.htState h != 7) := by
  unfold Chip.untrainFixed
  split
  · rename_i hfixed
    rw [hfixed, Chip.flag_setFlag _ _ _ rfl rfl]
    simp [htFixed]
  · rename_i hfixed
    have hne : (c.htState h != 7) = true := bne_iff_ne.2 hfixed
    rw [hne, Bool.and_true]

theorem untrainFixed_hostOf (c : Chip) (h k : Nat) : (c.untrainFixed h).hostOf k = c.hostOf k := by
  unfold Chip.untrainFixed
  split <;> rfl

/-- The part as the input of lane `h` has stayed below the level of loss. -/
def Chip.hostLost (c : Chip) (h : Nat) : Chip :=
  let data := c.hostData h && c.flag (HLN_STATUS.TRAINED h)
  let low := (c.setFlag (HLN_STATUS.SIGNAL h) false).setFlag (HLN_FAULT.LOS h) true
  let noted := (low.hostUnlock h).hostMod h (fun x => { x with lostAfterData := x.lostAfterData || data, watch := false })
  ((noted.untrainFixed h).setLevel h true 0).settle

theorem exec_hostLos (s : State) (h : HLane) (hon : s.chip.hostOn h.1 = true) (hsignal : s.chip.flag (HLN_STATUS.SIGNAL h.1) = true) :
    exec (.hostLos h) s = .next (s.onChip (fun c => c.hostLost h.1)) :=
  congrArg Host.Outcome.next (onChip_if s _ _ (by simp [hon, hsignal]))

theorem setLevel_step (T : List Fld) (h : Nat) (c : Chip) (src : Nat) (b : Bool) (pay : Nat) : LaneStep T h c (c.setLevel src b pay) :=
  ⟨fun a _ => Chip.setLevel_reg c src b pay a, fun _ _ _ => Chip.setLevel_fld c src b pay _⟩

/-- What a loss of signal writes (R100, R107). -/
theorem hostLost_spec (c : Chip) (h : Nat) (hh : h < 16) :
    LaneStep ([HLN_STATUS.SIGNAL 0, HLN_FAULT.LOS 0, HLN_STATUS.TRAINED 0] ++ unlockFlds) h c (c.hostLost h) ∧
      (c.hostLost h).flag (HLN_STATUS.SIGNAL h) = false ∧ (c.hostLost h).flag (HLN_FAULT.LOS h) = true ∧
      (c.hostLost h).flag (HLN_STATUS.CDR_LOCK h) = false ∧ (c.hostLost h).fld (HLN_STATUS.RX_SNR h) = 0 ∧
      (c.hostData h = true → c.flag (HLN_STATUS.CDR_LOCK h) = true → (c.hostLost h).flag (HLN_FAULT.CDR_UNLOCK h) = true) ∧
      (c.hostLost h).flag (HLN_STATUS.TRAINED h) = (c.flag (HLN_STATUS.TRAINED h) && c.htState h != 7) ∧
      ((c.hostLost h).hostOf h).watch = false := by
  unfold Chip.hostLost
  extract_lets data low noted
  have hlow : LaneStep [HLN_STATUS.SIGNAL 0, HLN_FAULT.LOS 0] h c low :=
    (LaneStep.setFlag c h (HLN_STATUS.SIGNAL 0) false rfl (by simp)).trans (.setFlag _ h (HLN_FAULT.LOS 0) true rfl (by simp))
  have hnoted : LaneStep unlockFlds h low noted := (hostUnlock_step low h).trans (.hostMod ..)
  have hfinal : LaneStep [] h (noted.untrainFixed h) ((noted.untrainFixed h).setLevel h true 0).settle :=
    (setLevel_step _ h _ h true 0).trans (.settle _ hh _)
  have hend : LaneStep [HLN_STATUS.TRAINED 0] h noted ((noted.untrainFixed h).setLevel h true 0).settle :=
    (untrainFixed_step noted h).trans (hfinal.mono (by simp))
  have hlost : LaneStep (unlockFlds ++ [HLN_STATUS.TRAINED 0]) h low ((noted.untrainFixed h).setLevel h true 0).settle :=
    (hnoted.mono (by simp)).trans (hend.mono (by simp))
  refine ⟨?_, ?_, ?_, ?_, ?_, fun hdata hlock => ?_, ?_, ?_⟩
  · exact (hlow.mono (by simp)).trans (hlost.mono (by decide))
  · refine (hlost.flag (HLN_STATUS.SIGNAL 0) rfl rfl).trans ?_
    refine ((LaneStep.setFlag (T := [HLN_FAULT.LOS 0]) _ h (HLN_FAULT.LOS 0) true rfl (by simp)).flag (HLN_STATUS.SIGNAL 0) rfl rfl).trans ?_
    exact Chip.flag_setFlag c (HLN_STATUS.SIGNAL h) false rfl rfl
  · exact (hlost.flag (HLN_FAULT.LOS 0) rfl rfl).trans (Chip.flag_setFlag _ (HLN_FAULT.LOS h) true rfl rfl)
  · exact (hend.flag (HLN_STATUS.CDR_LOCK 0) rfl rfl).trans ((Chip.hostMod_flag ..).trans (hostUnlock_lock low h))
  · exact (hend.fld (HLN_STATUS.RX_SNR 0) rfl rfl).trans ((Chip.hostMod_fld ..).trans (hostUnlock_snr low h))
  · refine (hend.flag (HLN_FAULT.CDR_UNLOCK 0) rfl rfl).trans ((Chip.hostMod_flag ..).trans (hostUnlock_fault low h ?_ ?_))
    · have hstate : low.htState h = c.htState h := hlow.fld (HLN_STATUS.TRAIN_STATE 0) rfl rfl
      unfold Chip.hostData
      rw [hstate]
      exact hdata
    · exact (hlow.flag (HLN_STATUS.CDR_LOCK 0) rfl rfl).trans hlock
  · have hstate : noted.htState h = c.htState h :=
      (hnoted.fld (HLN_STATUS.TRAIN_STATE 0) rfl rfl).trans (hlow.fld (HLN_STATUS.TRAIN_STATE 0) rfl rfl)
    have htrained : noted.flag (HLN_STATUS.TRAINED h) = c.flag (HLN_STATUS.TRAINED h) :=
      (hnoted.flag (HLN_STATUS.TRAINED 0) rfl rfl).trans (hlow.flag (HLN_STATUS.TRAINED 0) rfl rfl)
    rw [← hstate, ← htrained]
    exact (hfinal.flag (HLN_STATUS.TRAINED 0) rfl rfl).trans (untrainFixed_trained noted h)
  · rw [Chip.settle_hostOf, Chip.setLevel_hostOf, untrainFixed_hostOf, Chip.hostOf_hostMod _ _ _ hh]

/-- R100: the input has stayed below the level of loss. -/
theorem hostLos_spec (s : State) (h : HLane) (hon : s.chip.hostOn h.1 = true) (hsignal : s.chip.flag (HLN_STATUS.SIGNAL h.1) = true) :
    ∃ t, exec (.hostLos h) s = .next t ∧ s.within t (0x100000 + 0x10000 * h.1) (0x110000 + 0x10000 * h.1) ∧
      t.chip.flag (HLN_STATUS.SIGNAL h.1) = false ∧ t.chip.flag (HLN_FAULT.LOS h.1) = true ∧
      t.chip.flag (HLN_STATUS.CDR_LOCK h.1) = false ∧ t.chip.fld (HLN_STATUS.RX_SNR h.1) = 0 ∧ t.chip.htState h.1 = s.chip.htState h.1 ∧
      (s.chip.hostData h.1 = true → s.chip.flag (HLN_STATUS.CDR_LOCK h.1) = true → t.chip.flag (HLN_FAULT.CDR_UNLOCK h.1) = true) ∧
      t.chip.flag (HLN_STATUS.TRAINED h.1) = (s.chip.flag (HLN_STATUS.TRAINED h.1) && s.chip.htState h.1 != 7) ∧
      (t.chip.hostOf h.1).watch = false := by
  obtain ⟨hstep, hlow, hlos, hlock, hsnr, hunlock, htrained, hwatch⟩ := hostLost_spec s.chip h.1 h.2
  refine ⟨_, exec_hostLos s h hon hsignal, LaneStep.within (h := h.1) s (fun c => c.hostLost h.1) hstep, ?_⟩
  dsimp only [State.onChip]
  exact ⟨hlow, hlos, hlock, hsnr, hstep.fld (HLN_STATUS.TRAIN_STATE 0) rfl rfl, hunlock, htrained, hwatch⟩

/-! ### The return of a signal (R100, R101) -/

/-- R100: the signal is there again. -/
theorem hostSignalReturn_spec (s : State) (h : HLane) (hon : s.chip.hostOn h.1 = true) (hsignal : s.chip.flag (HLN_STATUS.SIGNAL h.1) = false) :
    ∃ t, exec (.hostSignalReturn h) s = .next t ∧ s.within t (0x100000 + 0x10000 * h.1) (0x110000 + 0x10000 * h.1) ∧
      t.chip.flag (HLN_STATUS.SIGNAL h.1) = true ∧ (t.chip.hostOf h.1).watch = (s.chip.hostOf h.1).lostAfterData ∧
      t.chip.htState h.1 = s.chip.htState h.1 ∧ t.chip.flag (HLN_FAULT.LOS h.1) = s.chip.flag (HLN_FAULT.LOS h.1) := by
  have hexec : exec (.hostSignalReturn h) s = .next (s.onChip (fun c => ((((c.setFlag (HLN_STATUS.SIGNAL h.1) true).setLevel h.1 false 0).hostMod h.1
      (fun x => { x with watch := x.lostAfterData, markers := 0 })).settle))) :=
    congrArg Host.Outcome.next (onChip_if s _ _ (by simp [hon, hsignal]))
  have hafter : ∀ T (c : Chip), LaneStep T h.1 c (((c.setLevel h.1 false 0).hostMod h.1
      (fun x => { x with watch := x.lostAfterData, markers := 0 })).settle) := fun T c =>
    ((setLevel_step T h.1 c h.1 false 0).trans (.hostMod ..)).trans (.settle _ h.2 _)
  have hstep := (LaneStep.setFlag (T := [HLN_STATUS.SIGNAL 0]) s.chip h.1 (HLN_STATUS.SIGNAL 0) true rfl (by simp)).trans (hafter _ _)
  refine ⟨_, hexec, LaneStep.within (h := h.1) s _ hstep, ?_⟩
  dsimp only [State.onChip]
  refine ⟨?_, ?_, hstep.fld (HLN_STATUS.TRAIN_STATE 0) rfl rfl, hstep.flag (HLN_FAULT.LOS 0) rfl rfl⟩
  · exact ((hafter [] _).flag (HLN_STATUS.SIGNAL 0) rfl rfl).trans (Chip.flag_setFlag s.chip (HLN_STATUS.SIGNAL h.1) true rfl rfl)
  · rw [Chip.settle_hostOf, Chip.hostOf_hostMod _ _ _ h.2, Chip.setLevel_hostOf, Chip.setFlag_hostOf]

/-- R101: the receiver locks to data under watch. -/
theorem hostRelock_spec (s : State) (h : HLane) (hon : s.chip.hostOn h.1 = true) (hwatch : (s.chip.hostOf h.1).watch = true)
    (hdata : s.chip.hostData h.1 = true) :
    ∃ t, exec (.hostRelock h) s = .next t ∧ s.within t (0x100000 + 0x10000 * h.1) (0x110000 + 0x10000 * h.1) ∧
      t.chip.flag (HLN_STATUS.CDR_LOCK h.1) = true ∧ t.chip.flag (HLN_STATUS.TRAINED h.1) = true ∧ (t.chip.hostOf h.1).watch = false ∧
      t.chip.htState h.1 = s.chip.htState h.1 ∧ t.chip.reg (HLN_TRAIN_STATUS.addr h.1) = s.chip.reg (HLN_TRAIN_STATUS.addr h.1) := by
  have hexec : exec (.hostRelock h) s = .next (s.onChip (fun c => (((c.setFlag (HLN_STATUS.CDR_LOCK h.1) true).setFlag
      (HLN_STATUS.TRAINED h.1) true).hostMod h.1 (fun x => { x with watch := false, lostAfterData := false })).settle)) :=
    congrArg Host.Outcome.next (onChip_if s _ _ (by simp [hon, hwatch, hdata]))
  have hafter : ∀ T (c : Chip), LaneStep T h.1 c ((c.hostMod h.1 (fun x => { x with watch := false, lostAfterData := false })).settle) :=
    fun T c => (LaneStep.hostMod T h.1 c h.1 _).trans (.settle _ h.2 _)
  have htrained := LaneStep.setFlag (T := [HLN_STATUS.TRAINED 0]) (s.chip.setFlag (HLN_STATUS.CDR_LOCK h.1) true) h.1 (HLN_STATUS.TRAINED 0)
    true rfl (by simp)
  have hstep := (LaneStep.setFlag (T := [HLN_STATUS.CDR_LOCK 0, HLN_STATUS.TRAINED 0]) s.chip h.1 (HLN_STATUS.CDR_LOCK 0) true rfl
    (by simp)).trans ((htrained.mono (by simp)).trans (hafter _ _))
  refine ⟨_, hexec, LaneStep.within (h := h.1) s _ hstep, ?_⟩
  dsimp only [State.onChip]
  refine ⟨?_, ?_, ?_, hstep.fld (HLN_STATUS.TRAIN_STATE 0) rfl rfl, ?_⟩
  · refine ((htrained.trans (hafter _ _)).flag (HLN_STATUS.CDR_LOCK 0) rfl rfl).trans ?_
    exact Chip.flag_setFlag s.chip (HLN_STATUS.CDR_LOCK h.1) true rfl rfl
  · exact ((hafter [] _).flag (HLN_STATUS.TRAINED 0) rfl rfl).trans (Chip.flag_setFlag _ (HLN_STATUS.TRAINED h.1) true rfl rfl)
  · rw [Chip.settle_hostOf, Chip.hostOf_hostMod _ _ _ h.2]
  · have hother : HLN_TRAIN_STATUS.addr h.1 ≠ HLN_STATUS.addr h.1 := by
      unfold HLN_TRAIN_STATUS.addr HLN_STATUS.addr
      omega
    have hcalm : settleReg (HLN_TRAIN_STATUS.addr h.1) = false := settleReg_hostLane h.1 _ h.2 (laneReg_of h.1 0x44 (by decide))
    rw [Chip.settle_reg _ _ hcalm, Chip.hostMod_reg]
    exact (Chip.reg_setFld_other _ (HLN_STATUS.TRAINED h.1) _ _ hother).trans (Chip.reg_setFld_other _ (HLN_STATUS.CDR_LOCK h.1) _ _ hother)

/-- R101: neither training frames nor a lock in time. -/
theorem hostWatchExpiry_restarts (s : State) (h : HLane) (legs : BitVec 16) (hon : s.chip.hostOn h.1 = true)
    (hwatch : (s.chip.hostOf h.1).watch = true) :
    ∃ t, exec (.hostWatchExpiry h legs) s = .next t ∧ s.restarted t h.1 ∧ t.chip.flag (HLN_STATUS.TX_OPEN h.1) = legs.getLsbD h.1 := by
  refine ⟨_, congrArg Host.Outcome.next (onChip_if s _ _ (by simp [hon, hwatch])), restarted_hostRestart s h legs.toNat, ?_⟩
  dsimp only [State.onChip]
  exact hostRestart_open s.chip h.1 legs.toNat h.2

/-! ### A short on a transmit leg (R103) -/

theorem pdOn_of_hostOn {c : Chip} {h : Nat} (hon : c.hostOn h = true) : c.pdOn (3 + quadOf h) = true := (Bool.and_eq_true_iff.1 hon).1

/-- R103: the leg enters current limiting. -/
theorem hostTxShort_on (s : State) (h : HLane) (legs : BitVec 16) (hon : s.chip.hostOn h.1 = true)
    (hshort : s.chip.flag (HLN_STATUS.TX_SHORT h.1) = false) :
    ∃ t, exec (.hostTxShort h true legs) s = .next t ∧ s.within t (0x100000 + 0x10000 * h.1) (0x110000 + 0x10000 * h.1) ∧
      t.chip.flag (HLN_STATUS.TX_SHORT h.1) = true ∧ t.chip.flag (HLN_FAULT.TX_SHORT h.1) = true ∧
      t.chip.htState h.1 = s.chip.htState h.1 := by
  have hexec : exec (.hostTxShort h true legs) s = .next (s.onChip (fun c => ((c.setFlag (HLN_STATUS.TX_SHORT h.1) true).setFlag
      (HLN_FAULT.TX_SHORT h.1) true).raise (0x010 + h.1) 0)) := by
    refine congrArg Host.Outcome.next ?_
    unfold State.onChip
    dsimp only
    rw [if_neg (by simp [pdOn_of_hostOn hon, hshort]), if_pos rfl]
  have hfault := (LaneStep.setFlag (T := [HLN_FAULT.TX_SHORT 0]) (s.chip.setFlag (HLN_STATUS.TX_SHORT h.1) true) h.1 (HLN_FAULT.TX_SHORT 0)
    true rfl (by simp)).trans (.raise _ _ _ (0x010 + h.1) 0)
  have hstep := (LaneStep.setFlag (T := [HLN_STATUS.TX_SHORT 0, HLN_FAULT.TX_SHORT 0]) s.chip h.1 (HLN_STATUS.TX_SHORT 0) true rfl
    (by simp)).trans (hfault.mono (by simp))
  refine ⟨_, hexec, LaneStep.within (h := h.1) s _ hstep, ?_⟩
  dsimp only [State.onChip]
  refine ⟨?_, ?_, hstep.fld (HLN_STATUS.TRAIN_STATE 0) rfl rfl⟩
  · exact (hfault.flag (HLN_STATUS.TX_SHORT 0) rfl rfl).trans (Chip.flag_setFlag s.chip (HLN_STATUS.TX_SHORT h.1) true rfl rfl)
  · exact (Chip.raise_flag ..).trans (Chip.flag_setFlag _ (HLN_FAULT.TX_SHORT h.1) true rfl rfl)

/-- R103: the short is gone, and a lane in use restarts. -/
theorem hostTxShort_off (s : State) (h : HLane) (legs : BitVec 16) (hon : s.chip.hostOn h.1 = true)
    (hshort : s.chip.flag (HLN_STATUS.TX_SHORT h.1) = true) (hused : s.chip.htState h.1 ≠ 0) :
    ∃ t, exec (.hostTxShort h false legs) s = .next t ∧ s.within t (0x100000 + 0x10000 * h.1) (0x110000 + 0x10000 * h.1) ∧
      t.chip.flag (HLN_STATUS.TX_SHORT h.1) = false ∧ t.chip.htState h.1 = (if (s.chip.quad (quadOf h.1)).fixed then 7 else 1) ∧
      t.chip.flag (HLN_FAULT.TX_SHORT h.1) = s.chip.flag (HLN_FAULT.TX_SHORT h.1) := by
  have hclear := LaneStep.setFlag (T := HLN_STATUS.TX_SHORT 0 :: restartFlds) s.chip h.1 (HLN_STATUS.TX_SHORT 0) false rfl (by simp)
  have hstate : (s.chip.setFlag (HLN_STATUS.TX_SHORT h.1) false).htState h.1 ≠ htOff := by
    refine fun he => hused ?_
    exact (Chip.fld_setFlag_other s.chip (HLN_STATUS.TX_SHORT h.1) (HLN_STATUS.TRAIN_STATE h.1) false rfl).symm.trans he
  have hexec : exec (.hostTxShort h false legs) s = .next (s.onChip (fun c => (c.setFlag (HLN_STATUS.TX_SHORT h.1) false).hostRestart h.1
      legs.toNat)) := by
    refine congrArg Host.Outcome.next ?_
    unfold State.onChip
    dsimp only
    rw [if_neg (by simp [pdOn_of_hostOn hon, hshort]), if_neg Bool.false_ne_true, if_neg hstate]
  have hrestart := hostRestart_step (s.chip.setFlag (HLN_STATUS.TX_SHORT h.1) false) h.1 legs.toNat h.2
  have hstep := hclear.trans (hrestart.mono (List.subset_cons_self _ _))
  obtain ⟨-, hseek, -⟩ := hostRestart_spec (s.chip.setFlag (HLN_STATUS.TX_SHORT h.1) false) h.1 legs.toNat h.2
  refine ⟨_, hexec, LaneStep.within (h := h.1) s _ hstep, ?_⟩
  dsimp only [State.onChip]
  refine ⟨?_, hseek, hstep.flag (HLN_FAULT.TX_SHORT 0) rfl rfl⟩
  exact (hrestart.flag (HLN_STATUS.TX_SHORT 0) rfl rfl).trans (Chip.flag_setFlag s.chip (HLN_STATUS.TX_SHORT h.1) false rfl rfl)

/-- Settles O19: event by event. -/
theorem hostSignalLossAndReturn : Obligations.HostSignalLossAndReturn := by
  intro s h legs hon
  refine ⟨hostLos_spec s h hon, hostSignalReturn_spec s h hon, hostRelock_spec s h hon, fun hwatch => ?_, hostTxShort_on s h legs hon,
    hostTxShort_off s h legs hon⟩
  obtain ⟨t, hexec, ⟨hwithin, hstate, htrained, hlock, hcount⟩, hopen⟩ := hostWatchExpiry_restarts s h legs hon hwatch
  exact ⟨t, hexec, hwithin, hstate, hlock, htrained, hopen, hcount⟩

end Sys2Proof.Machine
end

section
/-! PROOFS. The frame times of a host lane. -/

namespace Sys2Proof.Machine

/-! ### What is heard of the far end -/

/-- Frame lock, data-frame lock and its loss, and the last COUNT: what sending does not change. -/
def HostLane.heard (x : HostLane) : Bool × Bool × Bool × Nat := (x.frameLock, x.dataLock, x.dataLost, x.count)

/-- What lane `k` has heard. -/
def Chip.heard (c : Chip) (k : Nat) : Bool × Bool × Bool × Nat := (c.hostOf k).heard

theorem heard_congr {c d : Chip} (h : d.host = c.host) (k : Nat) : d.heard k = c.heard k := congrArg HostLane.heard (Chip.hostOf_congr h k)

theorem hostMod_heard (c : Chip) (h k : Nat) (f : HostLane → HostLane) (hf : ∀ x, (f x).heard = x.heard) :
    (c.hostMod h f).heard k = c.heard k := by
  unfold Chip.heard
  by_cases hk : k = h
  · by_cases hh : h < 16
    · rw [hk, Chip.hostOf_hostMod _ _ _ hh, hf]
    · unfold Chip.hostMod
      rw [dif_neg hh]
  · rw [Chip.hostOf_hostMod_other _ _ _ _ hk]

@[simp] theorem setFld_heard (c : Chip) (f : Fld) (v k : Nat) : (c.setFld f v).heard k = c.heard k := rfl
@[simp] theorem setFlag_heard (c : Chip) (f : Fld) (b : Bool) (k : Nat) : (c.setFlag f b).heard k = c.heard k := rfl
@[simp] theorem setHt_heard (c : Chip) (h st k : Nat) : (c.setHt h st).heard k = c.heard k := rfl
@[simp] theorem satInc_heard (c : Chip) (f : Fld) (n k : Nat) : (c.satInc f n).heard k = c.heard k := rfl
@[simp] theorem settle_heard (c : Chip) (k : Nat) : c.settle.heard k = c.heard k := heard_congr (Calm.settle c).host k

theorem of_heard {c d : Chip} {k : Nat} (h : d.heard k = c.heard k) :
    (d.hostOf k).frameLock = (c.hostOf k).frameLock ∧ (d.hostOf k).dataLock = (c.hostOf k).dataLock ∧
      (d.hostOf k).dataLost = (c.hostOf k).dataLost ∧ (d.hostOf k).count = (c.hostOf k).count := by
  simpa only [Chip.heard, HostLane.heard, Prod.mk.injEq] using h

/-! ### Data frames sent (R90, R91) -/

theorem toHost_keeps (c : Chip) (p : Nat) (cw : List Nat) : (c.toHost p cw).regs = c.regs ∧ ∀ k, (c.toHost p cw).heard k = c.heard k := by
  unfold Chip.toHost
  dsimp only
  refine ⟨?_, fun k => ?_⟩
  · rw [Chip.portMod_regs]
    exact forAll_keeps (fun d => d.regs) _ _ (fun d _ _ => Chip.hostMod_regs d _ _) c
  · refine (heard_congr (Chip.portMod_host ..) k).trans ?_
    exact forAll_keeps (fun d => d.heard k) _ _ (fun d _ _ => hostMod_heard d _ k _ (by intro; rfl)) c

theorem standIn_keeps (c : Chip) (p : Nat) : (c.standIn p).2.regs = c.regs ∧ (c.standIn p).2.host = c.host := ⟨rfl, rfl⟩

theorem hostFill_keeps (p h k n : Nat) (c : Chip) :
    (Chip.hostFill p h k n c).regs = c.regs ∧ ∀ j, (Chip.hostFill p h k n c).heard j = c.heard j := by
  induction n generalizing c with
  | zero => exact ⟨rfl, fun _ => rfl⟩
  | succ n ih =>
    unfold Chip.hostFill
    split
    · exact ⟨rfl, fun _ => rfl⟩
    · obtain ⟨hregs, hheard⟩ := ih ((c.standIn p).2.toHost p (c.standIn p).1)
      obtain ⟨hdealt, hkept⟩ := toHost_keeps (c.standIn p).2 p (c.standIn p).1
      obtain ⟨hdrawn, hhost⟩ := standIn_keeps c p
      exact ⟨hregs.trans (hdealt.trans hdrawn), fun j => (hheard j).trans ((hkept j).trans (heard_congr hhost j))⟩

theorem hostNeed_keeps (c : Chip) (h k : Nat) : (c.hostNeed h k).regs = c.regs ∧ ∀ j, (c.hostNeed h k).heard j = c.heard j := by
  unfold Chip.hostNeed
  cases c.portOfHost (c.physHost h) with
  | none => exact ⟨rfl, fun _ => rfl⟩
  | some p => exact hostFill_keeps p h k 64 c

theorem hostDataSent_keeps (c : Chip) (h : Nat) : (c.hostDataSent h).regs = c.regs ∧ ∀ j, (c.hostDataSent h).heard j = c.heard j := by
  obtain ⟨hregs, hheard⟩ := hostNeed_keeps c h (c.hostCountNow h)
  unfold Chip.hostDataSent
  dsimp only
  exact ⟨(Chip.hostMod_regs ..).trans hregs, fun j => (hostMod_heard _ h j _ (by intro; rfl)).trans (hheard j)⟩

/-! ### What the transmitter sends in a frame time -/

/-- The fields that a hand-off writes. -/
def handOverFlds : List Fld := [HLN_STATUS.TRAIN_STATE 0, HLN_STATUS.TRAINED 0]

theorem hostTrained_step (c : Chip) (h : Nat) (hh : h < 16) : LaneStep handOverFlds h c (c.hostTrained h) := by
  unfold Chip.hostTrained
  dsimp only
  refine .trans (.trans ?_ (.ofCalm _ hh settleReg_of_serve (Calm.endWait _ _ _))) (.settle _ hh _)
  exact (LaneStep.setFlag c h (HLN_STATUS.TRAINED 0) true rfl (by decide)).trans (.hostMod ..)

theorem hostTrained_heard (c : Chip) (h k : Nat) : (c.hostTrained h).heard k = c.heard k := by
  unfold Chip.hostTrained
  dsimp only
  rw [settle_heard, heard_congr (Calm.endWait _ _ _).host, hostMod_heard _ h k _ (by intro; rfl), setFlag_heard]

theorem handOver_step (c : Chip) (h : Nat) (tx : Bool) (hh : h < 16) : LaneStep handOverFlds h c (c.handOver h tx) := by
  unfold Chip.handOver
  dsimp only
  refine .trans (.hostMod _ h c h _) (.ite (.trans (setHt_step _ h htData (by decide)) (hostTrained_step _ h hh)) ?_)
  exact setHt_step _ h htHandoff (by decide)

theorem handOver_heard (c : Chip) (h k : Nat) : (c.handOver h true).heard k = c.heard k := by
  unfold Chip.handOver
  dsimp only
  simp only [if_true]
  split
  · rw [hostTrained_heard, setHt_heard, hostMod_heard _ h k _ (by intro; rfl)]
  · rw [setHt_heard, hostMod_heard _ h k _ (by intro; rfl)]

/-- Once it has handed off, or without training, the transmitter sends data frames. -/
theorem hostSent_data (c : Chip) (h : Nat) (hdata : c.htState h = 7 ∨ (c.hostOf h).txDone = true) : c.hostSent h = c.hostDataSent h := by
  unfold Chip.hostSent
  dsimp only
  rw [if_pos]
  rcases hdata with hstate | htx
  · simp [hstate, htFixed]
  · simp [htx]

theorem hostSent_keeps (c : Chip) (h : Nat) (hh : h < 16) :
    LaneStep handOverFlds h c (c.hostSent h) ∧ ∀ k, (c.hostSent h).heard k = c.heard k := by
  unfold Chip.hostSent
  dsimp only
  split
  · exact ⟨.ofRegs _ h (hostDataSent_keeps c h).1, (hostDataSent_keeps c h).2⟩
  split
  · obtain ⟨hregs, hheard⟩ := hostDataSent_keeps (c.handOver h true) h
    exact ⟨(handOver_step c h true hh).trans (.ofRegs _ h hregs), fun k => (hheard k).trans (handOver_heard c h k)⟩
  · exact ⟨.hostMod _ h c h _, fun k => hostMod_heard c h k _ (by intro; rfl)⟩
  split
  · refine ⟨.trans ((LaneStep.hostMod _ h c h _).trans (.hostMod ..)) (setHt_step _ h htHandoff (by decide)), fun k => ?_⟩
    rw [setHt_heard, hostMod_heard _ h k _ (by intro; rfl), hostMod_heard _ h k _ (by intro; rfl)]
  · refine ⟨(LaneStep.hostMod _ h c h _).trans (.hostMod ..), fun k => ?_⟩
    rw [hostMod_heard _ h k _ (by intro; rfl), hostMod_heard _ h k _ (by intro; rfl)]

/-- A lane that has not reported itself ready, and does not count down, stays in its state. -/
theorem hostSent_htState (c : Chip) (h k : Nat) (hcount : (c.hostOf h).countdown = none) (hready : (c.hostOf h).readySent = false) :
    (c.hostSent h).htState k = c.htState k := by
  unfold Chip.hostSent
  dsimp only
  split
  · exact Chip.fld_congr (hostDataSent_keeps c h).1 _
  rw [hcount, hready]
  exact (Chip.hostMod_fld ..).trans (Chip.hostMod_fld ..)

/-! ### What the equaliser and the receiver's wishes show -/

/-- The fields that show the equaliser. -/
def eqFlds : List Fld := [HLN_STATUS.RX_SNR 0, HLN_RX_EQ.AGC 0, HLN_RX_EQ.CTLE 0]

theorem showHostEq_step (c : Chip) (h : Nat) (q : HostEqIn) (ctle : Bool) : LaneStep eqFlds h c (c.showHostEq h q ctle) := by
  have hgain : ∀ d : Chip, LaneStep eqFlds h d ((d.setFld (HLN_RX_EQ.AGC h) q.agc).hostMod h (fun x => { x with ffe := q.ffe })) :=
    fun d => .trans (.setFld d h (HLN_RX_EQ.AGC 0) _ rfl (by decide)) (.hostMod ..)
  refine .trans (.trans (.setFld c h (HLN_STATUS.RX_SNR 0) _ rfl (by decide)) (hgain _)) (.ite ?_ (.refl ..))
  exact .setFld _ h (HLN_RX_EQ.CTLE 0) _ rfl (by decide)

theorem showHostEq_heard (c : Chip) (h k : Nat) (q : HostEqIn) (ctle : Bool) : (c.showHostEq h q ctle).heard k = c.heard k := by
  have hgain : ∀ d : Chip, (d.hostMod h (fun x => { x with ffe := q.ffe })).heard k = d.heard k := fun d => hostMod_heard d h k _ (by intro; rfl)
  unfold Chip.showHostEq
  dsimp only
  split
  · rw [setFld_heard, hgain, setFld_heard, setFld_heard]
  · rw [hgain, setFld_heard, setFld_heard]

theorem showHostEq_ctle (c : Chip) (h : Nat) (q : HostEqIn) : (c.showHostEq h q true).fld (HLN_RX_EQ.CTLE h) = min 12 q.ctle :=
  (Chip.fld_setFld _ (HLN_RX_EQ.CTLE h) _ rfl).trans (Nat.mod_eq_of_lt (show min 12 q.ctle < 16 by omega))

theorem hostAsk_step (c : Chip) (h : Nat) (a : Option HostAsk) :
    LaneStep [HLN_TRAIN_STATUS.LAST_SEQ 0, HLN_TRAIN_STATUS.LAST_REQ 0] h c (c.hostAsk h a) := by
  unfold Chip.hostAsk
  split
  · exact .refl ..
  split
  · exact .refl ..
  · dsimp only
    refine .trans ?_ (.setFld _ h (HLN_TRAIN_STATUS.LAST_REQ 0) _ rfl (by decide))
    exact .trans (.hostMod ..) (.setFld _ h (HLN_TRAIN_STATUS.LAST_SEQ 0) _ rfl (by decide))

theorem hostAsk_heard (c : Chip) (h k : Nat) (a : Option HostAsk) : (c.hostAsk h a).heard k = c.heard k := by
  unfold Chip.hostAsk
  split
  · rfl
  split
  · rfl
  · dsimp only
    rw [setFld_heard, setFld_heard, hostMod_heard _ h k _ (by intro; rfl)]

/-! ### A training frame (R79, R81, R96) -/

/-- The fields that a marker writes. -/
def markerFlds : List Fld := [HLN_STATUS.POL_INV 0, HLN_STATUS.CDR_LOCK 0, HLN_STATUS.TRAIN_STATE 0]

/-- A marker found on a lane without frame lock: the third in a row gives it, and a lane that seeks adapts. -/
theorem hostMarker_found (c : Chip) (h : Nat) (inv : Bool) (hh : h < 16) (hlock : (c.hostOf h).frameLock = false) (hseek : c.htState h = 1) :
    let d := c.hostMarker h (some inv)
    LaneStep markerFlds h c d ∧ d.flag (HLN_STATUS.POL_INV h) = inv ∧ d.htState h = (if 2 ≤ (c.hostOf h).markers then 2 else 1) ∧
      (d.hostOf h).frameLock = decide (2 ≤ (c.hostOf h).markers) ∧ (d.hostOf h).countdown = (c.hostOf h).countdown ∧
      (d.hostOf h).readySent = (c.hostOf h).readySent := by
  have hthird : (min 3 ((c.hostOf h).markers + 1) == 3) = decide (2 ≤ (c.hostOf h).markers) := by
    rw [beq_eq_decide]
    exact decide_eq_decide.2 (by omega)
  have hpol : (c.setFlag (HLN_STATUS.POL_INV h) inv).flag (HLN_STATUS.POL_INV h) = inv := Chip.flag_setFlag _ _ _ rfl rfl
  unfold Chip.hostMarker
  dsimp only
  rw [hlock, hthird]
  generalize hd : (c.setFlag (HLN_STATUS.POL_INV h) inv).hostMod h _ = d
  have hlane : d.hostOf h = { c.hostOf h with
      markers := min 3 ((c.hostOf h).markers + 1), misses := 0
      frameLock := (c.hostOf h).frameLock || decide (2 ≤ (c.hostOf h).markers) } := by
    rw [← hd, Chip.hostOf_hostMod _ _ _ hh]
    rfl
  have hstep : LaneStep markerFlds h c d := by
    rw [← hd]
    exact (LaneStep.setFlag c h (HLN_STATUS.POL_INV 0) inv rfl (by decide)).trans (.hostMod ..)
  have hinv : d.flag (HLN_STATUS.POL_INV h) = inv := by rw [← hd, Chip.hostMod_flag, hpol]
  have hstate : d.htState h = 1 := by
    rw [← hseek, ← hd]
    exact (Chip.hostMod_fld ..).trans (Chip.fld_setFlag_other c (HLN_STATUS.POL_INV h) (HLN_STATUS.TRAIN_STATE h) inv rfl)
  rw [hlock, Bool.false_or] at hlane
  by_cases hthree : 2 ≤ (c.hostOf h).markers
  · have hlocked : (d.setFlag (HLN_STATUS.CDR_LOCK h) true).htState h = htSeek :=
      (Chip.fld_setFlag_other d (HLN_STATUS.CDR_LOCK h) (HLN_STATUS.TRAIN_STATE h) true rfl).trans hstate
    rw [if_pos (by simp [hthree]), if_pos hlocked, if_pos hthree]
    have hafter : LaneStep [HLN_STATUS.CDR_LOCK 0, HLN_STATUS.TRAIN_STATE 0] h d ((d.setFlag (HLN_STATUS.CDR_LOCK h) true).setHt h htAdapt) :=
      (LaneStep.setFlag d h (HLN_STATUS.CDR_LOCK 0) true rfl (by decide)).trans (setHt_step _ h _ (by decide))
    refine ⟨hstep.trans (hafter.mono (by decide)), (hafter.flag (HLN_STATUS.POL_INV 0) rfl rfl).trans hinv, setHt_htState _ h _ (by decide), ?_⟩
    have hsame : ((d.setFlag (HLN_STATUS.CDR_LOCK h) true).setHt h htAdapt).hostOf h = d.hostOf h := rfl
    rw [hsame, hlane]
    exact ⟨rfl, rfl, rfl⟩
  · rw [if_neg (by simp [hthree]), if_neg hthree, hlane]
    exact ⟨hstep, hinv, hstate, rfl, rfl, rfl⟩

theorem LaneStep.hostTaps {T : List Fld} {h : Nat} {c d : Chip} (k : LaneStep T h c d)
    (hT : ∀ g ∈ laneTapFlds, T.all (fun f => f.apart g) = true) : d.hostTaps h = c.hostTaps h := by
  have hflds : hostTapFlds h = laneTapFlds.map (onLane h) := rfl
  unfold Chip.hostTaps
  rw [hflds, List.map_map, List.map_map]
  refine List.map_congr_left (fun g hg => congrArg (signedOf 9) (k.fld g ?_ (hT g hg)))
  exact (by decide : ∀ f ∈ laneTapFlds, laneReg 0 f.addr = true) g hg

/-- A training frame with a wrong CRC, of a far end that has not counted down. -/
theorem hostFrame_badCrc (c : Chip) (h : Nat) (f : HFrameIn) (legs : Nat) (inv : Bool) (hon : c.hostOn h = true) (hrate : c.host400 h = true)
    (hmark : markerIn (f.marks.map (fun v => v.1)) = some inv) (hseek : c.htState h = 1) (hcrc : hostCrcOk f.word.toNat = false)
    (hready : f.ready = false) (hfar : (c.hostOf h).farLeft = none) (hrx : (c.hostOf h).rxDone = false) :
    c.hostFrame h f legs =
      ((((((c.hostMarker h (some inv)).hostSent h).satInc (HLN_TRAIN_STATUS.CRC_ERR_CNT h) 1).hostAsk h f.ask).showHostEq h f.eq true)).settle := by
  have htime : c.hostFarTime h = c := by
    unfold Chip.hostFarTime
    rw [hfar]
  unfold Chip.hostFrame
  dsimp only
  rw [htime, hmark, if_neg (by simp [hon, hrate, hseek, htFixed, htFailed]), if_neg (by simp [hseek, htOff]),
    if_neg (by simp [hseek, hrx, htData])]
  unfold Chip.hostFrameInTraining
  dsimp only
  simp only [hcrc, hready, Option.isSome_some, Bool.true_or, Bool.not_false, Bool.and_true, Bool.and_false, Bool.false_and, if_true,
    Bool.false_eq_true, if_false]

/-- A count of eight bits with one more. -/
theorem satInc_crcErr (c : Chip) (h : Nat) :
    (c.satInc (HLN_TRAIN_STATUS.CRC_ERR_CNT h) 1).fld (HLN_TRAIN_STATUS.CRC_ERR_CNT h) =
      min 255 (c.fld (HLN_TRAIN_STATUS.CRC_ERR_CNT h) + 1) := by
  refine (Chip.fld_setFld c (HLN_TRAIN_STATUS.CRC_ERR_CNT h) _ rfl).trans (Nat.mod_eq_of_lt ?_)
  exact Nat.lt_of_le_of_lt (Nat.min_le_left _ _) (show 2 ^ 8 - 1 < 2 ^ 8 by decide)

/-- R79, R81, R96: a training frame on a lane that seeks. -/
theorem twistHFrame_seeks (s : State) (h : HLane) (legs : BitVec 16) (f : HFrameIn) (inv : Bool) (hon : s.chip.hostOn h.1 = true)
    (hrate : s.chip.host400 h.1 = true) (hmark : markerIn (f.marks.map (fun v => v.1)) = some inv) (hseek : s.chip.htState h.1 = 1)
    (hcrc : hostCrcOk f.word.toNat = false) (hready : f.ready = false) (hlock : (s.chip.hostOf h.1).frameLock = false)
    (hfar : (s.chip.hostOf h.1).farLeft = none) (hrx : (s.chip.hostOf h.1).rxDone = false) :
    ∃ t, exec (.twistHFrame h f legs) s = .next t ∧
      t.chip.fld (HLN_TRAIN_STATUS.CRC_ERR_CNT h.1) = min 255 (s.chip.fld (HLN_TRAIN_STATUS.CRC_ERR_CNT h.1) + 1) ∧
      t.chip.flag (HLN_STATUS.POL_INV h.1) = inv ∧ t.chip.hostTaps h.1 = s.chip.hostTaps h.1 ∧
      (t.chip.hostOf h.1).frameLock = decide (2 ≤ (s.chip.hostOf h.1).markers) ∧
      ((s.chip.hostOf h.1).countdown = none → (s.chip.hostOf h.1).readySent = false →
        t.chip.htState h.1 = (if 2 ≤ (s.chip.hostOf h.1).markers then 2 else 1)) := by
  obtain ⟨hmarked, hinv, hstate, hframe, hcountdown, hsent⟩ := hostMarker_found s.chip h.1 inv h.2 hlock hseek
  refine ⟨_, rfl, ?_⟩
  dsimp only [State.onChip]
  rw [hostFrame_badCrc s.chip h.1 f legs.toNat inv hon hrate hmark hseek hcrc hready hfar hrx]
  generalize s.chip.hostMarker h.1 (some inv) = m at *
  obtain ⟨hsend, hheard⟩ := hostSent_keeps m h.1 h.2
  have hshow : ∀ c : Chip, LaneStep ([HLN_TRAIN_STATUS.LAST_SEQ 0, HLN_TRAIN_STATUS.LAST_REQ 0] ++ eqFlds) h.1 c
      ((c.hostAsk h.1 f.ask).showHostEq h.1 f.eq true).settle := fun c =>
    ((hostAsk_step c h.1 f.ask).mono (by decide)).trans (((showHostEq_step _ h.1 f.eq true).mono (by decide)).trans (.settle _ h.2 _))
  have hcount := satInc_step (T := [HLN_TRAIN_STATUS.CRC_ERR_CNT 0]) (m.hostSent h.1) h.1 (HLN_TRAIN_STATUS.CRC_ERR_CNT 0) 1 rfl (by decide)
  have hrest := (hcount.mono (U := HLN_TRAIN_STATUS.CRC_ERR_CNT 0 :: ([HLN_TRAIN_STATUS.LAST_SEQ 0, HLN_TRAIN_STATUS.LAST_REQ 0] ++ eqFlds))
    (by decide)).trans ((hshow _).mono (by decide))
  refine ⟨?_, ?_, ?_, ?_, fun hnone hnot => ?_⟩
  · refine ((hshow _).fld (HLN_TRAIN_STATUS.CRC_ERR_CNT 0) rfl rfl).trans ((satInc_crcErr _ h.1).trans ?_)
    have hbefore : (m.hostSent h.1).fld (HLN_TRAIN_STATUS.CRC_ERR_CNT h.1) = s.chip.fld (HLN_TRAIN_STATUS.CRC_ERR_CNT h.1) :=
      (hsend.fld (HLN_TRAIN_STATUS.CRC_ERR_CNT 0) rfl rfl).trans (hmarked.fld (HLN_TRAIN_STATUS.CRC_ERR_CNT 0) rfl rfl)
    rw [hbefore]
  · exact (hrest.flag (HLN_STATUS.POL_INV 0) rfl rfl).trans ((hsend.flag (HLN_STATUS.POL_INV 0) rfl rfl).trans hinv)
  · exact (hrest.hostTaps (by decide)).trans ((hsend.hostTaps (by decide)).trans (hmarked.hostTaps (by decide)))
  · refine Eq.trans (of_heard ?_).1 hframe
    rw [settle_heard, showHostEq_heard, hostAsk_heard, satInc_heard, hheard]
  · refine (hrest.fld (HLN_STATUS.TRAIN_STATE 0) rfl rfl).trans ((hostSent_htState m h.1 h.1 ?_ ?_).trans hstate)
    · rw [hcountdown, hnone]
    · rw [hsent, hnot]

/-! ### A data frame (R91, R96, R106) -/

/-- The part after the marker of a data frame has been looked for. -/
def Chip.dataMarked (c : Chip) (h : Nat) (mark : Option Bool) (fixed found : Bool) : Chip :=
  let s := c.hostMod h (fun x => x.dataMark found)
  let s := s.when (fixed && found) (fun s => s.setFlag (HLN_STATUS.POL_INV h) (mark == some true))
  s.when (fixed && (s.hostOf h).dataLost) (fun s => s.setFlag (HLN_STATUS.TRAINED h) false)

/-- The part after its count word and its slots. -/
def Chip.dataTaken (c : Chip) (h : Nat) (f : DataFrameIn) : Chip :=
  let s := if countWordOk f.word.toNat then c.hostMod h (fun x => { x with count := f.word.toNat / 2 ^ 20 })
    else c.satInc (HLN_TRAIN_STATUS.CRC_ERR_CNT h) 1
  s.hostMod h (fun x => x.takeSlots (f.slots.map (fun v => v.1)))

/-- Is the marker of a data frame found on lane `h`? -/
def Chip.dataFound (c : Chip) (h : Nat) (mark : Option Bool) : Bool :=
  if c.htState h = 7 then mark.isSome else decide (mark = some (c.flag (HLN_STATUS.POL_INV h)))

theorem dataFrame_eq (c : Chip) (h : Nat) (f : DataFrameIn) (hon : c.hostOn h = true) (hrate : c.host400 h = true) (hdata : c.hostData h = true) :
    let mark := dataMarkerIn f.marker.toNat
    c.dataFrame h f =
      ((((c.dataMarked h mark (decide (c.htState h = 7)) (c.dataFound h mark)).dataTaken h f).hostSent h).showHostEq h f.eq false).settle := by
  have hfound : (if decide (c.htState h = htFixed) = true then (dataMarkerIn f.marker.toNat).isSome
      else decide (dataMarkerIn f.marker.toNat = some (c.flag (HLN_STATUS.POL_INV h)))) = c.dataFound h (dataMarkerIn f.marker.toNat) := by
    unfold Chip.dataFound htFixed
    simp only [decide_eq_true_eq]
  unfold Chip.dataFrame
  dsimp only
  rw [if_pos (by simp [hon, hrate, hdata]), hfound]
  rfl

theorem when_step {T : List Fld} {h : Nat} {c : Chip} {b : Bool} {f : Chip → Chip} (k : LaneStep T h c (f c)) : LaneStep T h c (c.when b f) :=
  .ite k (.refl ..)

theorem when_hostOf (c : Chip) (b : Bool) (f : Chip → Chip) (k : Nat) (hf : (f c).hostOf k = c.hostOf k) : (c.when b f).hostOf k = c.hostOf k := by
  unfold Chip.when
  split
  · exact hf
  · rfl

theorem dataMarked_spec (c : Chip) (h : Nat) (mark : Option Bool) (fixed found : Bool) (hh : h < 16) :
    let d := c.dataMarked h mark fixed found
    LaneStep [HLN_STATUS.POL_INV 0, HLN_STATUS.TRAINED 0] h c d ∧ d.hostOf h = (c.hostOf h).dataMark found ∧
      (fixed = true → (d.hostOf h).dataLost = true → d.flag (HLN_STATUS.TRAINED h) = false) := by
  unfold Chip.dataMarked
  extract_lets m p d
  have hpol : LaneStep [HLN_STATUS.POL_INV 0, HLN_STATUS.TRAINED 0] h m p := when_step (.setFlag m h (HLN_STATUS.POL_INV 0) _ rfl (by decide))
  have hlane : p.hostOf h = (c.hostOf h).dataMark found := (when_hostOf m _ _ h rfl).trans (Chip.hostOf_hostMod c h _ hh)
  have hkept : d.hostOf h = p.hostOf h := when_hostOf p _ _ h rfl
  refine ⟨(LaneStep.hostMod _ h c h _).trans (hpol.trans (when_step (.setFlag p h (HLN_STATUS.TRAINED 0) false rfl (by decide)))),
    hkept.trans hlane, fun hfixed hlost => ?_⟩
  rw [hkept] at hlost
  have hcleared : d = p.setFlag (HLN_STATUS.TRAINED h) false := by simp only [d, Chip.when, hfixed, hlost, Bool.and_self, if_true]
  rw [hcleared]
  exact Chip.flag_setFlag p (HLN_STATUS.TRAINED h) false rfl rfl

theorem dataTaken_spec (c : Chip) (h : Nat) (f : DataFrameIn) (hh : h < 16) :
    let d := c.dataTaken h f
    LaneStep [HLN_TRAIN_STATUS.CRC_ERR_CNT 0] h c d ∧ (d.hostOf h).dataLock = (c.hostOf h).dataLock ∧
      (d.hostOf h).dataLost = (c.hostOf h).dataLost ∧ (d.hostOf h).txDone = (c.hostOf h).txDone ∧
      (countWordOk f.word.toNat = true → (d.hostOf h).count = f.word.toNat / 2 ^ 20) ∧
      d.fld (HLN_TRAIN_STATUS.CRC_ERR_CNT h) = (if countWordOk f.word.toNat then c.fld (HLN_TRAIN_STATUS.CRC_ERR_CNT h)
        else min 255 (c.fld (HLN_TRAIN_STATUS.CRC_ERR_CNT h) + 1)) := by
  unfold Chip.dataTaken
  dsimp only
  rw [Chip.hostOf_hostMod _ _ _ hh, Chip.hostMod_fld]
  split
  · rw [Chip.hostOf_hostMod _ _ _ hh, Chip.hostMod_fld]
    exact ⟨(LaneStep.hostMod _ h c h _).trans (.hostMod ..), rfl, rfl, rfl, fun _ => rfl, rfl⟩
  · rename_i hbad
    exact ⟨(satInc_step c h (HLN_TRAIN_STATUS.CRC_ERR_CNT 0) 1 rfl (by decide)).trans (.hostMod ..), rfl, rfl, rfl,
      fun hok => absurd hok hbad, satInc_crcErr c h⟩

/-- The third data marker locks, the fourth miss takes the lock away. -/
theorem dataMark_dataLock (x : HostLane) (found : Bool) :
    (x.dataMark found).dataLock = (if found then x.dataLock || decide (2 ≤ x.dataMarkers) else x.dataLock && decide (x.dataMisses < 3)) := by
  cases found with
  | true =>
    have hthird : (min 3 (x.dataMarkers + 1) == 3) = decide (2 ≤ x.dataMarkers) := by
      rw [beq_eq_decide]
      exact decide_eq_decide.2 (by omega)
    exact congrArg (x.dataLock || ·) hthird
  | false =>
    have hfourth : (min 4 (x.dataMisses + 1) != 4) = decide (x.dataMisses < 3) := by
      rw [bne, beq_eq_decide, ← decide_not]
      exact decide_eq_decide.2 (by omega)
    exact congrArg (x.dataLock && ·) hfourth

theorem dataMark_txDone (x : HostLane) (found : Bool) : (x.dataMark found).txDone = x.txDone := by cases found <;> rfl

/-- R91, R96, R106: a data frame time on a lane in data. -/
theorem dataFrame_spec (s : State) (h : HLane) (f : DataFrameIn) (hon : s.chip.hostOn h.1 = true) (hrate : s.chip.host400 h.1 = true)
    (hdata : s.chip.hostData h.1 = true) :
    ∃ t, exec (.dataFrame h f) s = .next t ∧
      (s.chip.htState h.1 = 7 ∨ (s.chip.hostOf h.1).txDone = true → t.chip.htState h.1 = s.chip.htState h.1) ∧
      (t.chip.hostOf h.1).dataLock = (if s.chip.dataFound h.1 (dataMarkerIn f.marker.toNat) then
        (s.chip.hostOf h.1).dataLock || decide (2 ≤ (s.chip.hostOf h.1).dataMarkers)
        else (s.chip.hostOf h.1).dataLock && decide ((s.chip.hostOf h.1).dataMisses < 3)) ∧
      (s.chip.htState h.1 = 7 → (t.chip.hostOf h.1).dataLost = true → t.chip.flag (HLN_STATUS.TRAINED h.1) = false) ∧
      (countWordOk f.word.toNat = true → (t.chip.hostOf h.1).count = f.word.toNat / 2 ^ 20) ∧
      t.chip.fld (HLN_TRAIN_STATUS.CRC_ERR_CNT h.1) = (if countWordOk f.word.toNat then s.chip.fld (HLN_TRAIN_STATUS.CRC_ERR_CNT h.1)
        else min 255 (s.chip.fld (HLN_TRAIN_STATUS.CRC_ERR_CNT h.1) + 1)) := by
  refine ⟨_, rfl, ?_⟩
  dsimp only [State.onChip]
  rw [dataFrame_eq s.chip h.1 f hon hrate hdata]
  generalize s.chip.dataFound h.1 (dataMarkerIn f.marker.toNat) = found
  obtain ⟨hmarked, hlane, hlost⟩ := dataMarked_spec s.chip h.1 (dataMarkerIn f.marker.toNat) (decide (s.chip.htState h.1 = 7)) found h.2
  generalize s.chip.dataMarked h.1 _ _ _ = m at *
  obtain ⟨htaken, hlock, hgone, htx, hcount, hcrc⟩ := dataTaken_spec m h.1 f h.2
  generalize m.dataTaken h.1 f = d at *
  obtain ⟨hsend, hheard⟩ := hostSent_keeps d h.1 h.2
  have hshow : ∀ c : Chip, LaneStep eqFlds h.1 c (c.showHostEq h.1 f.eq false).settle := fun c =>
    (showHostEq_step c h.1 f.eq false).trans (.settle _ h.2 _)
  have hsame : ((d.hostSent h.1).showHostEq h.1 f.eq false).settle.heard h.1 = d.heard h.1 := by
    rw [settle_heard, showHostEq_heard, hheard]
  obtain ⟨-, hsameLock, hsameLost, hsameCount⟩ := of_heard hsame
  have hstate : d.htState h.1 = s.chip.htState h.1 :=
    (htaken.fld (HLN_STATUS.TRAIN_STATE 0) rfl rfl).trans (hmarked.fld (HLN_STATUS.TRAIN_STATE 0) rfl rfl)
  refine ⟨fun hsends => ?_, ?_, fun hfixed hgoneNow => ?_, fun hok => hsameCount.trans (hcount hok), ?_⟩
  · have hsends : d.htState h.1 = 7 ∨ (d.hostOf h.1).txDone = true := by
      rw [hstate, htx, hlane, dataMark_txDone]
      exact hsends
    refine ((hshow _).fld (HLN_STATUS.TRAIN_STATE 0) rfl rfl).trans (Eq.trans ?_ hstate)
    rw [hostSent_data d h.1 hsends]
    exact Chip.fld_congr (hostDataSent_keeps d h.1).1 (HLN_STATUS.TRAIN_STATE h.1)
  · exact hsameLock.trans (hlock.trans ((congrArg HostLane.dataLock hlane).trans (dataMark_dataLock _ found)))
  · refine ((hshow _).flag (HLN_STATUS.TRAINED 0) rfl rfl).trans ?_
    rw [hostSent_data d h.1 (Or.inl (hstate.trans hfixed))]
    refine (Chip.flag_congr (hostDataSent_keeps d h.1).1 (HLN_STATUS.TRAINED h.1)).trans ((htaken.flag (HLN_STATUS.TRAINED 0) rfl rfl).trans ?_)
    exact hlost (decide_eq_true hfixed) (hgone.symm.trans (hsameLost.symm.trans hgoneNow))
  · refine ((hshow _).fld (HLN_TRAIN_STATUS.CRC_ERR_CNT 0) rfl rfl).trans ((hsend.fld (HLN_TRAIN_STATUS.CRC_ERR_CNT 0) rfl rfl).trans ?_)
    have hbefore : m.fld (HLN_TRAIN_STATUS.CRC_ERR_CNT h.1) = s.chip.fld (HLN_TRAIN_STATUS.CRC_ERR_CNT h.1) :=
      hmarked.fld (HLN_TRAIN_STATUS.CRC_ERR_CNT 0) rfl rfl
    rw [← hbefore]
    exact hcrc

/-! ### An IEEE training frame (R74, R96) -/

/-- The part as a valid IEEE training frame without an identification and a request has reached a lane that seeks. -/
def Chip.ieeeHeard (c : Chip) (h : Nat) (f : IeeeIn) : Chip :=
  let s := (c.setFlag (HLN_STATUS.POL_INV h) f.inverted).setFlag (HLN_STATUS.CDR_LOCK h) true
  let s := (s.hostMod h (fun x => { x with frameLock := true })).setHt h htAdapt
  if f.done then s.setHt h htReady else s

theorem ieeeFrame_seeks (c : Chip) (h : Nat) (f : IeeeIn) (legs : Nat) (hon : c.hostOn h = true) (hrate : c.host400 h = false)
    (hseek : c.htState h = 1) (hvalid : f.valid = true) (hpos : f.pos = none) (hask : f.ask = none) :
    c.ieeeFrame h f legs = ((c.ieeeHeard h f).showHostEq h f.eq true).settle := by
  have hdata : c.hostData h = false := by simp [Chip.hostData, hseek, htData, htFixed]
  have htrains : c.hostTrains h = true := by simp [Chip.hostTrains, hseek]
  unfold Chip.ieeeFrame Chip.ieeeHeard
  rw [if_neg (by simp [hon, hrate, hseek, hvalid, htFailed, htFixed]), hpos, hask]
  extract_lets placed now marked framed adapts asked ready noted heard
  have hnow : now = c := if_neg (by simp [placed, hdata])
  have hframed : framed.htState h = htSeek := by
    refine (Chip.hostMod_fld ..).trans ((Chip.fld_setFlag_other _ (HLN_STATUS.CDR_LOCK h) (HLN_STATUS.TRAIN_STATE h) true rfl).trans ?_)
    rw [hnow]
    exact (Chip.fld_setFlag_other c (HLN_STATUS.POL_INV h) (HLN_STATUS.TRAIN_STATE h) _ rfl).trans hseek
  have hadapts : adapts = framed.setHt h htAdapt := if_pos hframed
  have hstate : adapts.htState h = htAdapt := by
    rw [hadapts]
    exact setHt_htState framed h htAdapt (by decide)
  have hheard : heard = adapts := by
    rw [hadapts]
    simp only [heard, noted, framed, marked, hnow]
  have hready : ready = if f.done then heard.setHt h htReady else heard := by
    rw [hheard]
    simp only [ready, asked, Option.elim_none, hstate, decide_true, Bool.and_true]
  rw [← hready, if_pos (hnow ▸ htrains)]

/-- R74, R96: a valid IEEE training frame on a lane that seeks. -/
theorem ieeeTrainingFrame_seeks (s : State) (h : HLane) (f : IeeeIn) (legs : BitVec 16) (hon : s.chip.hostOn h.1 = true)
    (hrate : s.chip.host400 h.1 = false) (hseek : s.chip.htState h.1 = 1) (hvalid : f.valid = true) (hpos : f.pos = none) (hask : f.ask = none) :
    ∃ t, exec (.ieeeTrainingFrame h f legs) s = .next t ∧ t.chip.htState h.1 = (if f.done then 3 else 2) ∧
      t.chip.flag (HLN_STATUS.CDR_LOCK h.1) = true ∧ t.chip.flag (HLN_STATUS.POL_INV h.1) = f.inverted ∧
      t.chip.fld (HLN_RX_EQ.CTLE h.1) = min 12 f.eq.ctle := by
  refine ⟨_, rfl, ?_⟩
  dsimp only [State.onChip]
  rw [ieeeFrame_seeks s.chip h.1 f legs.toNat hon hrate hseek hvalid hpos hask]
  have hshow : LaneStep eqFlds h.1 (s.chip.ieeeHeard h.1 f) ((s.chip.ieeeHeard h.1 f).showHostEq h.1 f.eq true).settle :=
    (showHostEq_step _ h.1 f.eq true).trans (.settle _ h.2 _)
  have hstate : ∀ c : Chip, LaneStep [HLN_STATUS.TRAIN_STATE 0] h.1 c
      (if f.done then (c.setHt h.1 htAdapt).setHt h.1 htReady else c.setHt h.1 htAdapt) :=
    fun c => .ite ((setHt_step c h.1 _ (by decide)).trans (setHt_step _ h.1 _ (by decide))) (setHt_step c h.1 _ (by decide))
  refine ⟨(hshow.fld (HLN_STATUS.TRAIN_STATE 0) rfl rfl).trans ?_, (hshow.flag (HLN_STATUS.CDR_LOCK 0) rfl rfl).trans ?_,
    (hshow.flag (HLN_STATUS.POL_INV 0) rfl rfl).trans ?_, ?_⟩
  · unfold Chip.ieeeHeard
    dsimp only
    split
    · exact setHt_htState _ h.1 htReady (by decide)
    · exact setHt_htState _ h.1 htAdapt (by decide)
  · refine ((hstate _).flag (HLN_STATUS.CDR_LOCK 0) rfl rfl).trans ((Chip.hostMod_flag ..).trans ?_)
    exact Chip.flag_setFlag _ (HLN_STATUS.CDR_LOCK h.1) true rfl rfl
  · refine ((hstate _).flag (HLN_STATUS.POL_INV 0) rfl rfl).trans ((Chip.hostMod_flag ..).trans ?_)
    refine (Chip.flag_setFlag_other _ (HLN_STATUS.CDR_LOCK h.1) (HLN_STATUS.POL_INV h.1) true rfl).trans ?_
    exact Chip.flag_setFlag _ (HLN_STATUS.POL_INV h.1) f.inverted rfl rfl
  · exact (Chip.settle_fld _ _ (settleReg_hostLane h.1 _ h.2 (laneReg_of h.1 0x58 (by decide)))).trans (showHostEq_ctle _ h.1 f.eq)

/-- Settles O21: frame by frame. -/
theorem hostFrameTimes : Obligations.HostFrameTimes := by
  intro s h legs hon
  refine ⟨fun hrate f inv hmark hseek hcrc hready hlock hfar hrx => ?_, fun hrate hdata f => ?_, fun hrate hseek f hvalid hpos hask => ?_⟩
  · exact twistHFrame_seeks s h legs f inv hon hrate hmark hseek hcrc hready hlock hfar hrx
  · exact dataFrame_spec s h f hon hrate hdata
  · exact ieeeTrainingFrame_seeks s h f legs hon hrate hseek hvalid hpos hask

end Sys2Proof.Machine
end

section
/-! PROOFS. The host lane commands. -/

namespace Sys2Proof.Machine

/-- A command without a step after it. -/
theorem chipNext_takes (s : State) (src : CmdSrc) (op : Nat) (c : Chip) (r : Req) (f : Chip → Req → Chip × Verdict) (d : Chip) (v : Verdict)
    (h : s.takes src op c r) (hf : f c r = (d, v)) : chipNext s (fun c => c.krelin src op f) = .next { s with chip := d.conclude r v } := by
  have hnext := chipNext_krelin s src op c r f id h
  rw [hf] at hnext
  exact hnext

/-! ### HOST_TRAIN_CFG (R72, R75, R76) -/

/-- The configuration as it stands does not depend on its having been kept. -/
theorem keepConfig_configNow (c : Chip) : c.keepConfig.configNow = c.configNow := by
  have hports : c.keepConfig.configNow.ports = c.configNow.ports := by
    refine Vector.ext (fun i hi => ?_)
    have hkept : c.keepConfig.shadowNow.ports[i] = c.configNow.ports[i] := rfl
    have hsame : c.keepConfig.ports = c.ports ∧ c.keepConfig.fld GLB_BOOT_STATUS.STEP = c.fld GLB_BOOT_STATUS.STEP ∧
        c.keepConfig.flag GLB_BOOT_STATUS.NO_CFG = c.flag GLB_BOOT_STATUS.NO_CFG := ⟨rfl, rfl, rfl⟩
    unfold Chip.configNow at hkept ⊢
    simp only [Vector.getElem_ofFn, hsame] at hkept ⊢
    rw [hkept]
    split <;> rfl
  exact congrArg (fun p => { c.configNow with ports := p }) hports

/-- A lane's coefficients are no longer those of a HOST_TX_SET. -/
def Chip.notManual (c : Chip) (h : Nat) : Chip := c.hostMod h (fun x => { x with manual := false })

theorem notManual_own (c : Chip) (h : Nat) : ((c.notManual h).hostOf h).manual = false := by
  by_cases hh : h < 16
  · exact congrArg HostLane.manual (Chip.hostOf_hostMod c h _ hh)
  · unfold Chip.notManual Chip.hostMod Chip.hostOf
    rw [dif_neg hh, List.getElem?_eq_none (by simpa using hh)]
    rfl

theorem notManual_kept (c : Chip) (h k : Nat) (hk : (c.hostOf k).manual = false) : ((c.notManual h).hostOf k).manual = false := by
  by_cases he : k = h
  · rw [he]
    exact notManual_own c h
  · exact (congrArg HostLane.manual (Chip.hostOf_hostMod_other c h k _ he)).trans hk

/-- The settings that HOST_TRAIN_CFG makes of quad `q`. -/
def Chip.trainCfg (c : Chip) (q : Nat) (f : QuadSt → QuadSt) : Chip := ((c.quadMod q f).forAll (quadLanes q) Chip.notManual).keepConfig

theorem trainCfg_spec (c : Chip) (q : Nat) (f : QuadSt → QuadSt) (hq : q < 4) :
    (c.trainCfg q f).regs = c.regs ∧ (c.trainCfg q f).cfg = some (c.trainCfg q f).configNow ∧ (c.trainCfg q f).quad q = f (c.quad q) ∧
      ∀ h ∈ quadLanes q, ((c.trainCfg q f).hostOf h).manual = false := by
  refine ⟨?_, congrArg some (keepConfig_configNow _).symm, ?_, fun h hh => ?_⟩
  · exact (forAll_keeps Chip.regs _ _ (fun d h _ => Chip.hostMod_regs d h _) _).trans (Chip.quadMod_regs c q f)
  · exact (forAll_keeps (fun d => d.quad q) _ _ (fun d h _ => Chip.hostMod_quad d h _ q) _).trans (Chip.quad_quadMod c q f hq)
  · exact forAll_brings (fun d k => (d.hostOf k).manual = false) _ _ notManual_own notManual_kept _ h hh

theorem hostTrainCfg_answers (s : State) (src : CmdSrc) (c : Chip) (r : Req) (h : s.takes src 0x0301 c r) :
    let b := byteAt r.payload
    let ends := fun (d : Chip) (y : Reply) => exec (.hostTrainCfg src) s = .next { s with chip := d.conclude r (.done y) }
    (b 0 ≤ 3 → b 1 ≤ 1 → 1 ≤ b 2 → b 2 ≤ 4 → b 3 ≤ 1 →
      ∃ d : Chip, ends d (.okR []) ∧ d.regs = c.regs ∧ d.cfg = some d.configNow ∧
        d.quad (b 0) = { c.quad (b 0) with fixed := b 1 == 1, preset := b 2, pattern := b 3 } ∧
        (∀ h ∈ quadLanes (b 0), (d.hostOf h).manual = false)) ∧
    (3 < b 0 ∨ 1 < b 1 ∨ b 2 = 0 ∨ 4 < b 2 ∨ 1 < b 3 → ends c (.fail .badArg)) := by
  intro b ends
  refine ⟨fun h0 h1 h2 h2' h3 => ?_, fun hbad => ?_⟩
  · refine ⟨c.trainCfg (b 0) (fun x => { x with fixed := b 1 == 1, preset := b 2, pattern := b 3 }), ?_, trainCfg_spec c (b 0) _ (by omega)⟩
    refine chipNext_takes s src _ c r _ _ _ h ?_
    have hgood : ¬ (3 < b 0 ∨ 1 < b 1 ∨ b 2 = 0 ∨ 4 < b 2 ∨ 1 < b 3) := by omega
    dsimp only
    rw [if_neg hgood]
    rfl
  · refine chipNext_takes s src _ c r _ _ _ h ?_
    dsimp only
    rw [if_pos hbad]

/-! ### HOST_RETRAIN (R94, R105, R315) -/

theorem hostRetrain_answers (s : State) (src : CmdSrc) (c : Chip) (r : Req) (legs : BitVec 16) (h : s.takes src 0x0302 c r) :
    let k := byteAt r.payload 0
    let ends := fun (d : Chip) (y : Reply) => exec (.hostRetrain src legs) s = .next { s with chip := d.conclude r (.done y) }
    (15 < k → ends c (.fail .badArg)) ∧
      (k ≤ 15 → (c.hostUsed k && c.pdOn (3 + quadOf k)) = false → ends c (.fail .badState)) ∧
      (k ≤ 15 → c.hostUsed k = true → c.pdOn (3 + quadOf k) = true →
        ∃ t, exec (.hostRetrain src legs) s = .next t ∧ t.chip.htState k = (if (c.quad (quadOf k)).fixed then 7 else 1) ∧
          t.chip.flag (HLN_STATUS.TRAINED k) = false ∧
          t.chip.fld (HLN_TRAIN_STATUS.RESTART_CNT k) = min 255 (c.fld (HLN_TRAIN_STATUS.RESTART_CNT k) + 1)) := by
  intro k ends
  refine ⟨fun hk => ?_, fun hk hnot => ?_, fun hk hused hon => ?_⟩
  · refine chipNext_takes s src _ c r _ _ _ h ?_
    dsimp only
    rw [if_pos hk]
  · refine chipNext_takes s src _ c r _ _ _ h ?_
    dsimp only
    rw [if_neg (by omega), if_pos (by rw [← Bool.not_and, hnot]; rfl)]
  · have hexec : exec (.hostRetrain src legs) s =
        .next { s with chip := (c.hostRestart k legs.toNat).conclude r (.runs (.hostRetrain k)) } := by
      refine chipNext_takes s src _ c r _ _ _ h ?_
      dsimp only
      rw [if_neg (by omega), if_neg (by simp [k, hused, hon])]
    have hcalm := Calm.conclude (c.hostRestart k legs.toNat) r (.runs (.hostRetrain k))
    have hlane : ∀ a, laneReg k a = true → serveReg a = false := fun a => serveReg_hostLane k a (by omega)
    obtain ⟨-, hstate, htrained, -, hcount⟩ := hostRestart_spec c k legs.toNat (by omega)
    refine ⟨_, hexec, ?_⟩
    dsimp only
    exact ⟨(hcalm.fld _ (hlane _ (laneReg_status k))).trans hstate, (hcalm.flag _ (hlane _ (laneReg_status k))).trans htrained,
      (hcalm.fld _ (hlane _ (laneReg_of k 0x44 (by decide)))).trans hcount⟩

/-! ### HOST_LANE_STATUS (R106 to R108) -/

theorem hostLaneStatus_answers (s : State) (src : CmdSrc) (c : Chip) (r : Req) (h : s.takes src 0x0303 c r) :
    let k := byteAt r.payload 0
    exec (.hostLaneStatus src) s = .next { s with chip := c.conclude r (.done (if 15 < k then .fail .badArg else
      .okD (wordBytes [c.reg (HLN_STATUS.addr k), c.seen (HLN_TRAIN_STATUS.addr k), c.reg (HLN_TX_TAPS0.addr k),
        c.reg (HLN_TX_TAPS1.addr k), c.reg (HLN_TX_TAPS2.addr k)]))) } :=
  chipNext_takes s src _ c r _ _ _ h rfl

/-! ### HOST_TX_SET (R71, R105) -/

/-- The fields of a list that share no bit, set together, each read the low bits of their own value. -/
theorem forAll_setFld_read (v : Int → Nat) (fs : List Fld) (l : List Int) (hlen : fs.length = l.length)
    (hapart : fs.Pairwise (fun f g => g.apart f = true)) (hfit : ∀ f ∈ fs, f.fits = true) (c : Chip) :
    fs.map (fun f => (c.forAll (fs.zip l) (fun s p => s.setFld p.1 (v p.2))).fld f) = (fs.zip l).map (fun p => v p.2 % 2 ^ p.1.w) := by
  induction fs generalizing l c with
  | nil => rfl
  | cons f fs ih =>
    cases l with
    | nil => exact absurd hlen (by simp)
    | cons x l =>
      obtain ⟨hfirst, hrest⟩ := List.pairwise_cons.1 hapart
      have hafter : c.forAll ((f, x) :: fs.zip l) (fun s p => s.setFld p.1 (v p.2)) =
          (c.setFld f (v x)).forAll (fs.zip l) (fun s p => s.setFld p.1 (v p.2)) := rfl
      have hkeeps : ((c.setFld f (v x)).forAll (fs.zip l) (fun s p => s.setFld p.1 (v p.2))).fld f = v x % 2 ^ f.w :=
        (forAll_keeps (fun d => d.fld f) _ _ (fun d p hp => Chip.fld_setFld_other d p.1 f _ (hfirst _ (List.of_mem_zip hp).1)) _).trans
          (Chip.fld_setFld c f _ (hfit f (by simp)))
      rw [List.zip_cons_cons, hafter, List.map_cons, List.map_cons, hkeeps]
      rw [ih l (by simpa using hlen) hrest (fun g hg => hfit g (List.mem_cons_of_mem _ hg))]

/-- Nine bits hold every coefficient from -256 to 255. -/
theorem signedOf_unsignedOf_nine (x : Int) (hlo : -256 ≤ x) (hhi : x < 256) : signedOf 9 (unsignedOf 9 x % 2 ^ 9) = x := by
  unfold signedOf unsignedOf
  dsimp only
  split <;> omega

theorem hostTapFlds_apart (h : Nat) : (hostTapFlds h).Pairwise (fun f g => g.apart f = true) := by
  have hflds : hostTapFlds h = laneTapFlds.map (onLane h) := rfl
  have hzero : laneTapFlds.Pairwise (fun f g => g.apart f = true) := by decide
  rw [hflds]
  exact List.pairwise_map.2 (hzero.imp (fun {f g} hfg => apart_onLane h g f hfg))

/-- Six coefficients in nine bits read back. -/
theorem setHostTaps_hostTaps (c : Chip) (h : Nat) (l : List Int) (hlen : l.length = 6) (hrange : ∀ x ∈ l, -256 ≤ x ∧ x < 256) :
    (c.setHostTaps h l).hostTaps h = l := by
  have hfields : ∀ f ∈ hostTapFlds h, f.w = 9 ∧ f.fits = true := by
    simp [hostTapFlds, HLN_TX_TAPS0.PRE3, HLN_TX_TAPS0.PRE2, HLN_TX_TAPS1.PRE1, HLN_TX_TAPS1.MAIN, HLN_TX_TAPS2.POST1, HLN_TX_TAPS2.POST2,
      Fld.fits]
  have hlengths : (hostTapFlds h).length = l.length := hlen.symm
  have hread := forAll_setFld_read (unsignedOf 9) (hostTapFlds h) l hlengths (hostTapFlds_apart h) (fun f hf => (hfields f hf).2) c
  have hvalues : ((hostTapFlds h).zip l).map (fun p => signedOf 9 (unsignedOf 9 p.2 % 2 ^ p.1.w)) = ((hostTapFlds h).zip l).map Prod.snd := by
    refine List.map_congr_left (fun p hp => ?_)
    obtain ⟨hf, hx⟩ := List.of_mem_zip hp
    obtain ⟨hlo, hhi⟩ := hrange _ hx
    rw [(hfields _ hf).1, signedOf_unsignedOf_nine _ hlo hhi]
  calc (c.setHostTaps h l).hostTaps h
      = ((hostTapFlds h).map (fun f => (c.setHostTaps h l).fld f)).map (signedOf 9) := by rw [List.map_map]; rfl
    _ = ((hostTapFlds h).zip l).map (fun p => signedOf 9 (unsignedOf 9 p.2 % 2 ^ p.1.w)) := by
        unfold Chip.setHostTaps
        rw [hread, List.map_map]
        rfl
    _ = l := by rw [hvalues, List.map_snd_zip (by omega)]

/-- Coefficients that keep R71 fit into nine bits. -/
theorem hostTapsOk_range (l : List Int) (hok : hostTapsOk l = true) : l.length = 6 ∧ ∀ x ∈ l, -256 ≤ x ∧ x < 256 := by
  simp only [hostTapsOk, Bool.and_eq_true, beq_iff_eq, List.all_eq_true, decide_eq_true_eq] at hok
  obtain ⟨⟨hlen, hranges⟩, -⟩ := hok
  refine ⟨hlen, fun x hx => ?_⟩
  obtain ⟨i, hi, rfl⟩ := List.getElem_of_mem hx
  have hi' : i < hostTapRanges.length := by rw [hlen] at hi; exact hi
  have hlimits : ∀ p ∈ hostTapRanges, -256 ≤ p.1 ∧ p.2 < 256 := by decide
  have hmem : (l[i], hostTapRanges[i]) ∈ l.zip hostTapRanges := by
    rw [← List.getElem_zip (h := by rw [List.length_zip]; omega)]
    exact List.getElem_mem _
  obtain ⟨hlo, hhi⟩ := hranges _ hmem
  obtain ⟨hmin, hmax⟩ := hlimits _ (List.getElem_mem hi')
  dsimp only at hlo hhi
  omega

/-- What HOST_TX_SET does to a lane in FIXED mode. -/
theorem hostTxSet_spec (c : Chip) (h : Nat) (taps : List Int) (hh : h < 16) (hok : hostTapsOk taps = true) :
    let d := (c.setHostTaps h taps).hostMod h (fun x => { x with manual := true })
    d.hostTaps h = taps ∧ (d.hostOf h).manual = true ∧ d.mem = c.mem ∧
      ∀ a, a ≠ HLN_TX_TAPS0.addr h → a ≠ HLN_TX_TAPS1.addr h → a ≠ HLN_TX_TAPS2.addr h → d.reg a = c.reg a := by
  obtain ⟨hlen, hrange⟩ := hostTapsOk_range taps hok
  dsimp only
  refine ⟨?_, congrArg HostLane.manual (Chip.hostOf_hostMod _ h _ hh), ?_, fun a h0 h1 h2 => ?_⟩
  · rw [hostTaps_congr h (fun f _ => Chip.hostMod_reg ..)]
    exact setHostTaps_hostTaps c h taps hlen hrange
  · rw [Chip.hostMod_mem]
    exact forAll_keeps Chip.mem _ (fun d (p : Fld × Int) => d.setFld p.1 (unsignedOf 9 p.2)) (fun _ _ _ => rfl) c
  · rw [Chip.hostMod_reg]
    refine setHostTaps_kept c h taps (fun a => a == HLN_TX_TAPS0.addr h || a == HLN_TX_TAPS1.addr h || a == HLN_TX_TAPS2.addr h)
      (by simp) (by simp) (by simp) a ?_
    simp [h0, h1, h2]

theorem hostTxSet_answers (s : State) (src : CmdSrc) (c : Chip) (r : Req) (h : s.takes src 0x0304 c r) :
    let b := byteAt r.payload
    let ends := fun (d : Chip) (y : Reply) => exec (.hostTxSet src) s = .next { s with chip := d.conclude r (.done y) }
    let taps := if b 1 = 0 then sx16s r.payload 4 6 else hostPreset (b 1)
    (15 < b 0 ∨ 4 < b 1 ∨ hostTapsOk taps = false → ends c (.fail .badArg)) ∧
      (b 0 ≤ 15 → b 1 ≤ 4 → hostTapsOk taps = true →
        (c.hostFixed (b 0) = false ∨ c.pdOn (3 + quadOf (b 0)) = false → ends c (.fail .badState)) ∧
        (c.hostFixed (b 0) = true → c.pdOn (3 + quadOf (b 0)) = true →
          ∃ d : Chip, ends d (.okR []) ∧ d.hostTaps (b 0) = taps ∧ (d.hostOf (b 0)).manual = true ∧ d.mem = c.mem ∧
            ∀ a, a ≠ HLN_TX_TAPS0.addr (b 0) → a ≠ HLN_TX_TAPS1.addr (b 0) → a ≠ HLN_TX_TAPS2.addr (b 0) → d.reg a = c.reg a)) := by
  intro b ends taps
  have hgood : b 0 ≤ 15 → b 1 ≤ 4 → hostTapsOk taps = true → ¬ (15 < b 0 ∨ 4 < b 1 ∨ hostTapsOk taps = false) := by
    intro h0 h1 hok hbad
    rw [hok] at hbad
    simp only [Bool.true_eq_false, or_false] at hbad
    omega
  refine ⟨fun hbad => ?_, fun h0 h1 hok => ⟨fun hnot => ?_, fun hfixed hon => ?_⟩⟩
  · refine chipNext_takes s src _ c r _ _ _ h ?_
    dsimp only [Chip.hostTxSet]
    rw [if_pos hbad]
  · refine chipNext_takes s src _ c r _ _ _ h ?_
    dsimp only [Chip.hostTxSet]
    rw [if_neg (hgood h0 h1 hok), if_pos (by rcases hnot with hnot | hnot <;> simp [b, hnot])]
  · refine ⟨_, chipNext_takes s src _ c r _ _ _ h ?_, hostTxSet_spec c (b 0) taps (by omega) hok⟩
    dsimp only [Chip.hostTxSet]
    rw [if_neg (hgood h0 h1 hok), if_neg (by simp [b, hfixed, hon])]

/-- Settles O22: each command by its own lemma. -/
theorem hostLaneCommands : Obligations.HostLaneCommands := by
  intro s src c r legs
  exact ⟨hostTrainCfg_answers s src c r, hostRetrain_answers s src c r legs, hostLaneStatus_answers s src c r, hostTxSet_answers s src c r⟩

end Sys2Proof.Machine
end

section
/-! PROOFS. Pattern generators and checkers. -/

namespace Sys2Proof.Machine

/-! ### A write to a generator (R109, R454) -/

/-- A write to the four low bits of a word gives those bits and leaves the others. -/
theorem getBits_merge_low (x v : Word) (lo w : Nat) (h : lo + w ≤ 4) :
    getBits ((x &&& ~~~ (bitMask 0 4)) ||| (v &&& bitMask 0 4)) lo w = getBits v lo w := by
  apply Nat.eq_of_testBit_eq
  intro i
  rw [getBits_testBit, getBits_testBit, BitVec.getLsbD_or, BitVec.getLsbD_and, BitVec.getLsbD_and, BitVec.getLsbD_not, bitMask_getLsbD]
  by_cases hi : i < w
  · have hlow : lo + i < 4 := by omega
    have hword : lo + i < 32 := by omega
    simp [hlow, hword]
  · simp [hi]

theorem getBits_merge_high (x v : Word) (lo w : Nat) (h : 4 ≤ lo) :
    getBits ((x &&& ~~~ (bitMask 0 4)) ||| (v &&& bitMask 0 4)) lo w = getBits x lo w := by
  apply Nat.eq_of_testBit_eq
  intro i
  rw [getBits_testBit, getBits_testBit, BitVec.getLsbD_or, BitVec.getLsbD_and, BitVec.getLsbD_and, BitVec.getLsbD_not, bitMask_getLsbD]
  have hhigh : ¬ lo + i < 4 := by omega
  by_cases hword : lo + i < 32
  · simp [hhigh, hword]
  · have hnone : x.getLsbD (lo + i) = false := BitVec.getLsbD_of_ge _ _ (by omega)
    simp [hhigh, hnone]

/-- EN, PATTERN and INV of a generator are writable. -/
theorem rwMask_genAddr (l : AnyLane) : rwMask (genAddr l) = bitMask 0 4 := by
  cases l with
  | host h => exact (by decide : ∀ h : HLane, rwMask (HLN_PAT_GEN.addr h.1) = bitMask 0 4) h
  | line n => exact (by decide : ∀ n : LLane, rwMask (LTX_PAT_GEN.addr n.1) = bitMask 0 4) n

theorem genMod_regs (c : Chip) (f : PatGen → PatGen) (l : AnyLane) : (c.genMod f l).regs = c.regs := by
  cases l with
  | host h => exact Chip.hostMod_regs ..
  | line n => exact Chip.txMod_regs ..

theorem genOf_genMod (c : Chip) (f : PatGen → PatGen) (l : AnyLane) : (c.genMod f l).genOf l = f (c.genOf l) := by
  cases l with
  | host h => exact congrArg HostLane.gen (Chip.hostOf_hostMod c h.1 _ h.2)
  | line n => exact congrArg LineTx.gen (Chip.txOf_txMod c n.1 _ n.2)

/-- A write that would enable a generator that may not run clears EN. -/
theorem patGen_refused (c : Chip) (l : AnyLane) (v : Word) (hen : getBits v 0 1 = 1)
    (hnot : c.genFree l = false ∨ c.codeOk l (getBits v 1 2) = false) :
    c.patGen l v = c.setReg (genAddr l) (setBits (c.reg (genAddr l)) 0 1 0) := by
  unfold Chip.patGen
  dsimp only
  rw [if_pos ⟨hen, Bool.and_eq_false_iff.2 hnot⟩]

/-- What any other write does. -/
theorem patGen_written (c : Chip) (l : AnyLane) (v : Word)
    (hmay : getBits v 0 1 = 0 ∨ c.genFree l = true ∧ c.codeOk l (getBits v 1 2) = true) :
    let d := c.patGen l v
    getBits (d.reg (genAddr l)) 0 1 = getBits v 0 1 ∧ getBits (d.reg (genAddr l)) 1 2 = getBits v 1 2 ∧
      getBits (d.reg (genAddr l)) 4 1 = getBits (c.reg (genAddr l)) 4 1 ∧ (getBits v 4 1 = 1 → (d.genOf l).inj = true) ∧
      ∀ b, b ≠ genAddr l → d.reg b = c.reg b := by
  have hruns : ¬ (getBits v 0 1 = 1 ∧ (c.genFree l && c.codeOk l (getBits v 1 2)) = false) := by
    rintro ⟨hen, hnot⟩
    rcases hmay with hoff | ⟨hfree, hcode⟩
    · omega
    · simp [hfree, hcode] at hnot
  unfold Chip.patGen
  dsimp only
  rw [if_neg hruns]
  refine ⟨?_, ?_, ?_, fun hinj => ?_, fun b hb => ?_⟩
  · rw [Chip.reg_congr (genMod_regs ..), Chip.writeRw, Chip.reg_setReg, rwMask_genAddr, getBits_merge_low _ _ _ _ (by decide)]
  · rw [Chip.reg_congr (genMod_regs ..), Chip.writeRw, Chip.reg_setReg, rwMask_genAddr, getBits_merge_low _ _ _ _ (by decide)]
  · rw [Chip.reg_congr (genMod_regs ..), Chip.writeRw, Chip.reg_setReg, rwMask_genAddr, getBits_merge_high _ _ _ _ (by decide)]
  · rw [genOf_genMod, hinj]
    simp
  · rw [Chip.reg_congr (genMod_regs ..), Chip.writeRw, Chip.reg_setReg_other _ _ _ _ hb]

theorem patternGenerator_writes (s : State) (l : AnyLane) (m : Master) (v : Word) (hadmits : s.admits m (genAddr l)) :
    let a := genAddr l
    (getBits v 0 1 = 1 → s.chip.genFree l = true → s.chip.codeOk l (getBits v 1 2) = true →
      ∃ t, exec (.patternGeneratorEnable m l v) s = .next t ∧ getBits (t.chip.reg a) 0 1 = 1 ∧ getBits (t.chip.reg a) 1 2 = getBits v 1 2 ∧
        ∀ b, b ≠ a → t.chip.reg b = s.chip.reg b) ∧
    (getBits v 0 1 = 1 → s.chip.genFree l = false ∨ s.chip.codeOk l (getBits v 1 2) = false →
      ∃ t, exec (.patternGeneratorEnable m l v) s = .next t ∧ getBits (t.chip.reg a) 0 1 = 0 ∧
        ∀ b, b ≠ a → t.chip.reg b = s.chip.reg b) ∧
    (getBits v 0 1 = 0 → ∃ t, exec (.errInj m l v) s = .next t ∧ getBits (t.chip.reg a) 0 1 = 0 ∧
      getBits (t.chip.reg a) 4 1 = getBits (s.chip.reg a) 4 1 ∧ (getBits v 4 1 = 1 → (t.chip.genOf l).inj = true) ∧
      ∀ b, b ≠ a → t.chip.reg b = s.chip.reg b) := by
  intro a
  have hwritten := patGen_written (s.chip.answer m false 0) l v
  have henable : exec (.patternGeneratorEnable m l v) s = .next { s with chip := (s.chip.answer m false 0).patGen l v } :=
    congrArg Host.Outcome.next (Chip.rowWrite_admits s m a (fun c => c.patGen l v) hadmits)
  have hinject : exec (.errInj m l v) s = .next { s with chip := (s.chip.answer m false 0).patGen l v } :=
    congrArg Host.Outcome.next (Chip.rowWrite_admits s m a (fun c => c.patGen l v) hadmits)
  refine ⟨fun hen hfree hcode => ?_, fun hen hnot => ?_, fun hoff => ?_⟩
  · obtain ⟨hon, hpattern, -, -, hothers⟩ := hwritten (.inr ⟨hfree, hcode⟩)
    exact ⟨_, henable, hon.trans hen, hpattern, hothers⟩
  · refine ⟨_, henable, ?_, fun b hb => ?_⟩
    · dsimp only
      rw [patGen_refused (s.chip.answer m false 0) l v hen hnot, Chip.reg_setReg]
      exact getBits_setBits_same _ _ _ _ (by decide)
    · dsimp only
      rw [patGen_refused (s.chip.answer m false 0) l v hen hnot, Chip.reg_setReg_other _ _ _ _ hb, Chip.answer_reg]
  · obtain ⟨hon, -, herr, hinj, hothers⟩ := hwritten (.inl hoff)
    exact ⟨_, hinject, hon.trans hoff, herr, hinj, hothers⟩

/-! ### The checker's state (R110, R455) -/

theorem chkMod_regs (c : Chip) (f : PatChk → PatChk) (l : AnyLane) : (c.chkMod f l).regs = c.regs := by
  cases l with
  | host h => exact Chip.hostMod_regs ..
  | line n => exact Chip.rxMod_regs ..

theorem chkMod_mem (c : Chip) (f : PatChk → PatChk) (l : AnyLane) : (c.chkMod f l).mem = c.mem := by
  cases l with
  | host h => exact Chip.hostMod_mem ..
  | line n => exact Chip.rxMod_mem ..

theorem chkOf_chkMod (c : Chip) (f : PatChk → PatChk) (l : AnyLane) : (c.chkMod f l).chkOf l = f (c.chkOf l) := by
  cases l with
  | host h => exact congrArg HostLane.chk (Chip.hostOf_hostMod c h.1 _ h.2)
  | line n => exact congrArg LineRx.chk (Chip.rxOf_rxMod c n.1 _ n.2)

theorem chkOf_setReg (c : Chip) (a : Nat) (v : Word) (l : AnyLane) : (c.setReg a v).chkOf l = c.chkOf l := by cases l <;> rfl

theorem chkOf_raise (c : Chip) (src pay : Nat) (l : AnyLane) : (c.raise src pay).chkOf l = c.chkOf l := by cases l <;> rfl

theorem bitCount_congr {c d : Chip} (l : AnyLane) (hlo : d.reg (bitsLoAddr l) = c.reg (bitsLoAddr l))
    (htop : d.reg (bitsTopAddr l) = c.reg (bitsTopAddr l)) : d.bitCount l = c.bitCount l := by
  unfold Chip.bitCount
  rw [hlo, htop]

/-- The registers of a lane's checker are five. -/
theorem chkAddrs_apart (l : AnyLane) :
    patErrAddr l ≠ chkStatusAddr l ∧ bitsLoAddr l ≠ chkStatusAddr l ∧ bitsTopAddr l ≠ chkStatusAddr l ∧ bitsLoAddr l ≠ patErrAddr l ∧
      bitsTopAddr l ≠ patErrAddr l ∧ bitsTopAddr l ≠ bitsLoAddr l ∧ bitsHiAddr l ≠ bitsLoAddr l ∧ bitsHiAddr l ≠ bitsTopAddr l := by
  unfold patErrAddr chkStatusAddr bitsLoAddr bitsTopAddr bitsHiAddr
  omega

/-- The bit count reads the 64 low bits that were put into it, and no other register changes. -/
theorem setBitCount_bitCount (c : Chip) (l : AnyLane) (n : Nat) (hn : n < 2 ^ 64) : (c.setBitCount l n).bitCount l = n := by
  obtain ⟨-, -, -, -, -, htop, -, -⟩ := chkAddrs_apart l
  unfold Chip.bitCount Chip.setBitCount
  rw [Chip.reg_setReg, Chip.reg_setReg_other _ _ _ _ htop.symm, Chip.reg_setReg, BitVec.toNat_ofNat, BitVec.toNat_ofNat]
  omega

theorem setBitCount_reg (c : Chip) (l : AnyLane) (n b : Nat) (hlo : b ≠ bitsLoAddr l) (htop : b ≠ bitsTopAddr l) :
    (c.setBitCount l n).reg b = c.reg b := by
  unfold Chip.setBitCount
  rw [Chip.reg_setReg_other _ _ _ _ htop, Chip.reg_setReg_other _ _ _ _ hlo]

/-- What a synchronised checker has compared is counted, and the counts stop at their ends. -/
theorem patCount_counts (c : Chip) (l : AnyLane) (bits errs : Nat) :
    let d := c.patCount l bits errs
    (d.reg (patErrAddr l)).toNat = min (2 ^ 32 - 1) ((c.reg (patErrAddr l)).toNat + errs) ∧
      d.bitCount l = min (2 ^ 48 - 1) (c.bitCount l + bits) ∧ d.reg (chkStatusAddr l) = c.reg (chkStatusAddr l) ∧ d.mem = c.mem ∧
      d.chkOf l = c.chkOf l := by
  obtain ⟨herr, hlo, htop, hloErr, htopErr, -⟩ := chkAddrs_apart l
  unfold Chip.patCount satAdd
  dsimp only
  refine ⟨?_, ?_, ?_, rfl, ?_⟩
  · rw [Chip.reg_setReg, BitVec.toNat_ofNat]
    omega
  · rw [bitCount_congr l (Chip.reg_setReg_other _ _ _ _ hloErr) (Chip.reg_setReg_other _ _ _ _ htopErr), setBitCount_bitCount _ _ _ (by omega)]
  · rw [Chip.reg_setReg_other _ _ _ _ herr.symm, setBitCount_reg _ _ _ _ hlo.symm htop.symm]
  · rw [chkOf_setReg, Chip.setBitCount, chkOf_setReg, chkOf_setReg]

/-! ### A checker that searches -/

/-- From `c` to `d` the counts of lane `l` and LOST stay. -/
def SameCounts (l : AnyLane) (c d : Chip) : Prop :=
  (d.reg (patErrAddr l)).toNat = (c.reg (patErrAddr l)).toNat ∧ d.bitCount l = c.bitCount l ∧
    getBits (d.reg (chkStatusAddr l)) 1 1 = getBits (c.reg (chkStatusAddr l)) 1 1

theorem SameCounts.ofRegs {c d : Chip} (l : AnyLane) (h : d.regs = c.regs) : SameCounts l c d :=
  ⟨congrArg BitVec.toNat (Chip.reg_congr h _), bitCount_congr l (Chip.reg_congr h _) (Chip.reg_congr h _),
    congrArg (getBits · 1 1) (Chip.reg_congr h _)⟩

/-- A bit that does not end the search only counts towards it. -/
theorem patBit_searches (c : Chip) (l : AnyLane) (wrong : Bool) (hsync : getBits (c.reg (chkStatusAddr l)) 0 1 = 0)
    (hgood : ((c.chkOf l).seek wrong).good ≠ 64) : c.patBit l wrong = c.chkMod (fun x => x.seek wrong) l := by
  unfold Chip.patBit
  dsimp only
  rw [if_neg (by omega), chkOf_chkMod, if_neg hgood]

/-- The 64th right bit in a row synchronises. -/
theorem patBit_finds (c : Chip) (l : AnyLane) (hsync : getBits (c.reg (chkStatusAddr l)) 0 1 = 0) (hgood : (c.chkOf l).good = 63) :
    let d := c.patBit l false
    getBits (d.reg (chkStatusAddr l)) 0 1 = 1 ∧ d.chkOf l = {} ∧ SameCounts l c d := by
  obtain ⟨herr, hlo, htop, -⟩ := chkAddrs_apart l
  have hfound : ((c.chkOf l).seek false).good = 64 := by simp [PatChk.seek, hgood]
  have hregs : ((c.chkMod (fun x => x.seek false) l).chkMod (fun _ => {}) l).regs = c.regs := (chkMod_regs ..).trans (chkMod_regs ..)
  unfold Chip.patBit
  dsimp only
  rw [if_neg (by omega), chkOf_chkMod, if_pos hfound]
  unfold Chip.setSync
  dsimp only
  rw [if_pos rfl, chkOf_setReg, chkOf_chkMod, Chip.reg_setReg, getBits_setBits_same _ _ _ _ (by decide)]
  refine ⟨rfl, rfl, ?_, ?_, ?_⟩
  · rw [Chip.reg_setReg_other _ _ _ _ herr, Chip.reg_congr hregs]
  · exact (bitCount_congr l (Chip.reg_setReg_other _ _ _ _ hlo) (Chip.reg_setReg_other _ _ _ _ htop)).trans
      (bitCount_congr l (Chip.reg_congr hregs _) (Chip.reg_congr hregs _))
  · rw [Chip.reg_setReg, getBits_setBits_other _ _ _ _ _ _ (by decide), Chip.reg_congr hregs]

/-! ### A checker that is synchronised -/

/-- The part as a synchronised checker of lane `l` has counted a bit. -/
def Chip.patFollowed (c : Chip) (l : AnyLane) (wrong : Bool) : Chip := (c.patCount l 1 (b2n wrong)).chkMod (fun x => x.follow wrong) l

theorem patBit_follows (c : Chip) (l : AnyLane) (wrong : Bool) (hsync : getBits (c.reg (chkStatusAddr l)) 0 1 = 1) :
    c.patBit l wrong = if ((c.chkOf l).follow wrong).lost then (c.patFollowed l wrong).setSync l false else c.patFollowed l wrong := by
  obtain ⟨-, -, -, -, hchk⟩ := patCount_counts c l 1 (b2n wrong)
  unfold Chip.patBit Chip.patFollowed
  dsimp only
  rw [if_pos hsync, chkOf_chkMod, hchk]

theorem patFollowed_counts (c : Chip) (l : AnyLane) (wrong : Bool) :
    let d := c.patFollowed l wrong
    (d.reg (patErrAddr l)).toNat = min (2 ^ 32 - 1) ((c.reg (patErrAddr l)).toNat + b2n wrong) ∧
      d.bitCount l = min (2 ^ 48 - 1) (c.bitCount l + 1) ∧ d.reg (chkStatusAddr l) = c.reg (chkStatusAddr l) ∧ d.mem = c.mem ∧
      d.chkOf l = (c.chkOf l).follow wrong := by
  obtain ⟨herr, hbits, hstatus, hmem, hchk⟩ := patCount_counts c l 1 (b2n wrong)
  have hregs : (c.patFollowed l wrong).regs = (c.patCount l 1 (b2n wrong)).regs := chkMod_regs ..
  dsimp only
  refine ⟨?_, ?_, ?_, ?_, ?_⟩
  · rw [Chip.reg_congr hregs, herr]
  · rw [bitCount_congr l (Chip.reg_congr hregs _) (Chip.reg_congr hregs _), hbits]
  · rw [Chip.reg_congr hregs, hstatus]
  · exact (chkMod_mem ..).trans hmem
  · exact (chkOf_chkMod ..).trans (congrArg (fun x => x.follow wrong) hchk)

/-- A bit adds no more than itself to the errors that a checker looks back on. -/
theorem follow_errors (x : PatChk) (wrong : Bool) :
    ((x.follow wrong).window.filter id).length ≤ b2n wrong + (x.window.filter id).length := by
  have hnow : ((wrong :: x.window).filter id).length = b2n wrong + (x.window.filter id).length := by
    cases wrong with
    | true => exact Nat.add_comm _ _
    | false => exact (Nat.zero_add _).symm
  rw [← hnow]
  exact ((List.take_sublist 1024 (wrong :: x.window)).filter id).length_le

/-- While fewer than 64 of the bits are wrong the checker follows them all: each counts, and SYNC and LOST stay. -/
theorem patBits_counts (errs : List Bool) (c : Chip) (l : AnyLane) (hsync : getBits (c.reg (chkStatusAddr l)) 0 1 = 1)
    (hfew : (errs.filter id).length + ((c.chkOf l).window.filter id).length < 64) :
    let d := c.forAll errs (fun c e => c.patBit l e)
    d.reg (chkStatusAddr l) = c.reg (chkStatusAddr l) ∧ d.mem = c.mem ∧
      (d.reg (patErrAddr l)).toNat = min (2 ^ 32 - 1) ((c.reg (patErrAddr l)).toNat + (errs.filter id).length) ∧
      (c.bitCount l + errs.length < 2 ^ 48 → d.bitCount l = c.bitCount l + errs.length) := by
  induction errs generalizing c with
  | nil => exact ⟨rfl, rfl, (Nat.min_eq_right (Nat.le_sub_one_of_lt (c.reg (patErrAddr l)).isLt)).symm, fun _ => rfl⟩
  | cons e errs ih =>
    obtain ⟨herr, hbits, hstatus, hmem, hchk⟩ := patFollowed_counts c l e
    have hlook := follow_errors (c.chkOf l) e
    have hwrong : ((e :: errs).filter id).length = b2n e + (errs.filter id).length := by
      cases e with
      | true => exact Nat.add_comm _ _
      | false => exact (Nat.zero_add _).symm
    have hkept : ((c.chkOf l).follow e).lost = false := decide_eq_false (by omega)
    have hstep : c.patBit l e = c.patFollowed l e := by
      rw [patBit_follows c l e hsync, hkept]
      rfl
    obtain ⟨hstatus', hmem', herr', hbits'⟩ := ih (c.patFollowed l e) (by rw [hstatus, hsync]) (by rw [hchk]; omega)
    have hall : c.forAll (e :: errs) (fun c e => c.patBit l e) = (c.patFollowed l e).forAll errs (fun c e => c.patBit l e) := by
      rw [← hstep]
      rfl
    dsimp only
    rw [hall, hwrong]
    refine ⟨hstatus'.trans hstatus, hmem'.trans hmem, ?_, fun hroom => ?_⟩
    · rw [herr', herr]
      omega
    · have hone : c.bitCount l + 1 + errs.length < 2 ^ 48 := by
        rw [List.length_cons] at hroom
        omega
      have hnow : (c.patFollowed l e).bitCount l = c.bitCount l + 1 := by
        rw [hbits]
        omega
      rw [hbits' (by rw [hnow]; exact hone), hnow, List.length_cons]
      omega

/-- The bit that loses the pattern counts, and sets LOST. -/
theorem patBit_loses (c : Chip) (l : AnyLane) (e : Bool) (hsync : getBits (c.reg (chkStatusAddr l)) 0 1 = 1)
    (hlost : ((c.chkOf l).follow e).lost = true) :
    let d := c.patBit l e
    getBits (d.reg (chkStatusAddr l)) 0 1 = 0 ∧ getBits (d.reg (chkStatusAddr l)) 1 1 = 1 ∧ d.chkOf l = {} ∧ d.mem = c.mem ∧
      (d.reg (patErrAddr l)).toNat = min (2 ^ 32 - 1) ((c.reg (patErrAddr l)).toNat + b2n e) := by
  obtain ⟨hapart, -⟩ := chkAddrs_apart l
  obtain ⟨herr, -, -, hmem, -⟩ := patFollowed_counts c l e
  rw [patBit_follows c l e hsync, if_pos hlost]
  generalize c.patFollowed l e = f at *
  unfold Chip.setSync
  dsimp only
  rw [if_neg Bool.false_ne_true, Chip.raise_reg, Chip.raise_reg, Chip.reg_congr (chkMod_regs ..), Chip.reg_congr (chkMod_regs ..),
    Chip.reg_setReg, Chip.reg_setReg_other _ _ _ _ hapart, chkOf_raise, chkOf_chkMod]
  refine ⟨?_, getBits_setBits_same _ _ _ _ (by decide), rfl, (Chip.raise_mem ..).trans ((chkMod_mem ..).trans hmem), herr⟩
  exact (getBits_setBits_other _ _ _ _ _ _ (by decide)).trans (getBits_setBits_same _ _ _ _ (by decide))

/-! ### PAT_CHK_SYNC -/

theorem exec_patChkSync (s : State) (l : AnyLane) (errs : List Bool) (hon : s.chip.laneOn l = true)
    (hen : getBits (s.chip.reg (chkAddr l)) 0 1 = 1) :
    exec (.patChkSync l errs) s = .next (s.onChip (fun c => c.forAll errs (fun c e => c.patBit l e))) :=
  congrArg Host.Outcome.next (onChip_if s _ _ (by simp [hon, hen]))

/-- A checker that is off compares nothing. -/
theorem patChkSync_off (s : State) (l : AnyLane) (errs : List Bool) (hoff : s.chip.laneOn l = false ∨ getBits (s.chip.reg (chkAddr l)) 0 1 ≠ 1) :
    exec (.patChkSync l errs) s = .next s := by
  refine congrArg Host.Outcome.next ?_
  unfold State.onChip
  dsimp only
  rw [if_neg (by rcases hoff with hoff | hoff <;> simp [hoff])]

theorem patternChecker_compares (s : State) (l : AnyLane) (hon : s.chip.laneOn l = true) (hen : getBits (s.chip.reg (chkAddr l)) 0 1 = 1) :
    let st := chkStatusAddr l
    let sync := getBits (s.chip.reg st) 0 1
    let k := s.chip.chkOf l
    let same := fun (t : State) => SameCounts l s.chip t.chip
    (sync = 0 → k.good < 63 → ∃ t, exec (.patChkSync l [false]) s = .next t ∧ getBits (t.chip.reg st) 0 1 = 0 ∧
      (t.chip.chkOf l).good = k.good + 1 ∧ same t) ∧
    (sync = 0 → ∃ t, exec (.patChkSync l [true]) s = .next t ∧ getBits (t.chip.reg st) 0 1 = 0 ∧ (t.chip.chkOf l).good = 0 ∧ same t) ∧
    (sync = 0 → k.good = 63 → ∃ t, exec (.patChkSync l [false]) s = .next t ∧ getBits (t.chip.reg st) 0 1 = 1 ∧
      t.chip.chkOf l = {} ∧ same t) ∧
    (∀ errs : List Bool, sync = 1 → (errs.filter id).length + (k.window.filter id).length < 64 →
      ∃ t, exec (.patChkSync l errs) s = .next t ∧ getBits (t.chip.reg st) 0 1 = 1 ∧ t.chip.mem = s.chip.mem ∧
        getBits (t.chip.reg st) 1 1 = getBits (s.chip.reg st) 1 1 ∧
        (t.chip.reg (patErrAddr l)).toNat = min (2 ^ 32 - 1) ((s.chip.reg (patErrAddr l)).toNat + (errs.filter id).length) ∧
        (s.chip.bitCount l + errs.length < 2 ^ 48 → t.chip.bitCount l = s.chip.bitCount l + errs.length)) ∧
    (∀ e : Bool, sync = 1 → (k.follow e).lost = true →
      ∃ t, exec (.patChkSync l [e]) s = .next t ∧ getBits (t.chip.reg st) 0 1 = 0 ∧ getBits (t.chip.reg st) 1 1 = 1 ∧
        t.chip.chkOf l = {} ∧ t.chip.mem = s.chip.mem ∧
        (t.chip.reg (patErrAddr l)).toNat = min (2 ^ 32 - 1) ((s.chip.reg (patErrAddr l)).toNat + b2n e)) := by
  intro st sync k same
  have hexec := fun errs => exec_patChkSync s l errs hon hen
  have hone : ∀ e, exec (.patChkSync l [e]) s = .next { s with chip := s.chip.patBit l e } := fun e => hexec [e]
  have hsearches : ∀ e, sync = 0 → (k.seek e).good ≠ 64 → ∃ t, exec (.patChkSync l [e]) s = .next t ∧ getBits (t.chip.reg st) 0 1 = 0 ∧
      (t.chip.chkOf l).good = (k.seek e).good ∧ same t := fun e hsync hgood => by
    refine ⟨_, hone e, ?_⟩
    have hregs : (s.chip.chkMod (fun x => x.seek e) l).regs = s.chip.regs := chkMod_regs ..
    dsimp only [same]
    rw [patBit_searches s.chip l e hsync hgood, Chip.reg_congr hregs, chkOf_chkMod]
    exact ⟨hsync, rfl, .ofRegs l hregs⟩
  refine ⟨fun hsync hgood => ?_, fun hsync => ?_, fun hsync hgood => ?_, fun errs hsync hfew => ?_, fun e hsync hlost => ?_⟩
  · have hnext : (k.seek false).good = k.good + 1 := by
      simp only [PatChk.seek, Bool.false_eq_true, if_false]
      omega
    rw [← hnext]
    exact hsearches false hsync (by omega)
  · exact hsearches true hsync (by simp [PatChk.seek])
  · exact ⟨_, hone false, patBit_finds s.chip l hsync hgood⟩
  · obtain ⟨hstatus, hmem, herr, hbits⟩ := patBits_counts errs s.chip l hsync hfew
    refine ⟨_, hexec errs, ?_⟩
    dsimp only [State.onChip]
    rw [hstatus]
    exact ⟨hsync, hmem, rfl, herr, hbits⟩
  · exact ⟨_, hone e, patBit_loses s.chip l e hsync hlost⟩

/-! ### A read of the bit count (R109, R453) -/

/-- A read latches the upper bits, and clears the live count of what it has seen where it may. -/
theorem readBits_spec (c : Chip) (l : AnyLane) (clear : Bool) :
    let d := (c.readBits l clear).1
    d.mem = c.mem ∧ (d.reg (bitsHiAddr l)).toNat = bitsOf (c.bitSeen l) 32 16 ∧
      (clear = true → c.frozen = false → d.bitCount l = 0) := by
  obtain ⟨-, -, -, -, -, -, hlo, htop⟩ := chkAddrs_apart l
  have hhigh : (BitVec.ofNat 32 (bitsOf (c.bitSeen l) 32 16)).toNat = bitsOf (c.bitSeen l) 32 16 := by
    have hsmall : bitsOf (c.bitSeen l) 32 16 < 2 ^ 16 := Nat.mod_lt _ (by decide)
    rw [BitVec.toNat_ofNat]
    omega
  cases clear with
  | false =>
    refine ⟨rfl, ?_, fun hno => absurd hno Bool.false_ne_true⟩
    exact (congrArg BitVec.toNat (Chip.reg_setReg c _ _)).trans hhigh
  | true =>
    generalize hlatched : c.setReg (bitsHiAddr l) (BitVec.ofNat 32 (bitsOf (c.bitSeen l) 32 16)) = d
    have hregs : (c.readBits l true).1.regs = (d.setBitCount l (c.bitCount l - c.bitSeen l)).regs := by
      rw [← hlatched]
      rfl
    refine ⟨rfl, ?_, fun _ hfrozen => ?_⟩
    · rw [Chip.reg_congr hregs, setBitCount_reg _ _ _ _ hlo htop, ← hlatched, Chip.reg_setReg, hhigh]
    · have hseen : c.bitSeen l = c.bitCount l := by
        unfold Chip.bitSeen Chip.bitCount Chip.seen
        rw [hfrozen]
        rfl
      rw [bitCount_congr l (Chip.reg_congr hregs _) (Chip.reg_congr hregs _), hseen, Nat.sub_self]
      exact setBitCount_bitCount d l 0 (by decide)

theorem patBits_read (s : State) (l : AnyLane) (m : Master) (hread : s.admitsRead m (bitsLoAddr l)) :
    ∃ t, exec (.hlnPatBitsLo m l) s = .next t ∧ t.chip.mem = s.chip.mem ∧
      t.chip.answers[(masterIdx m).1]'(masterIdx m).2 = ⟨false, BitVec.ofNat 32 (s.chip.bitSeen l)⟩ ∧
      (t.chip.reg (bitsHiAddr l)).toNat = bitsOf (s.chip.bitSeen l) 32 16 ∧
      (s.admits m (bitsLoAddr l) → s.chip.frozen = false → t.chip.bitCount l = 0) := by
  obtain ⟨hcut, hpass⟩ := hread
  obtain ⟨b, hb⟩ := Option.isSome_iff_exists.1 hpass
  have hexec : exec (.hlnPatBitsLo m l) s = .next { s with chip :=
      (s.chip.readBits l (s.chip.granted b (bitsLoAddr l) (s.chip.masterLevel m) true)).1.answer m false (BitVec.ofNat 32 (s.chip.bitSeen l)) } := by
    refine congrArg Host.Outcome.next ?_
    unfold State.onChip Chip.patBitsLo
    dsimp only
    rw [hcut, hb]
    rfl
  obtain ⟨hmem, hhigh, hclears⟩ := readBits_spec s.chip l (s.chip.granted b (bitsLoAddr l) (s.chip.masterLevel m) true)
  refine ⟨_, hexec, hmem, Chip.answers_answer _ _ _ _, hhigh, fun hadmits hfrozen => ?_⟩
  obtain ⟨b', hb'⟩ := Option.isSome_iff_exists.1 hadmits.2
  obtain ⟨-, -, hblk, -⟩ := Chip.checkAccess_some hb
  obtain ⟨-, -, hblk', hgrant⟩ := Chip.checkAccess_some hb'
  obtain rfl : b = b' := Option.some.inj (hblk.symm.trans hblk')
  exact hclears hgrant hfrozen

/-- Settles O56: the generator, the checker and the read of its count. -/
theorem patternLanes : Obligations.PatternLanes := by
  intro s l m v
  exact ⟨patternGenerator_writes s l m v, fun errs => patChkSync_off s l errs, patternChecker_compares s l, patBits_read s l m⟩

end Sys2Proof.Machine
end

section
/-! PROOFS. The LINE_RETRAIN of a lane whose substitution can start. -/

namespace Sys2Proof.Machine

/-- A part past its start with a LINE_RETRAIN of L0 posted in slot 0. P0 is READY on L0, L0 is in HOLD, and the Ply receiver waits in
SUBST_WAIT for L0, which L8, LOCKED, reports: all that R262 asks for pairing holds, and pairing has not started yet. -/
def retrainPosted : State :=
  let c : Chip := { State.reset.chip with limited := false, pmu := { pd := Vector.ofFn (fun _ => Power.on) } }
  let c := ((c.setFlag CLK_WHORL_STATUS.LOCK true).setFlag CLK_WHORL_STATUS.REFCLK_OK true).setFlag CLK_WHORL_STATUS.RING_OSC_ON false
  let c := ((c.setFld GLB_BOOT_STATUS.STEP 13).setFlag GLB_BOOT_STATUS.FW_READY true).setFlag MBX_STATUS.OPEN true
  let c := c.portMod 0 (fun _ => { mode := 1, st := .ready, hostCount := 1, lineMask := 1 })
  let c := ((c.setFld (LRX_STATUS.STATE 0) rxHold).setFld (LRX_STATUS.STATE 8) rxLocked).setFlag TWF_PLY_CFG.POPULATED true
  let c := (c.setPlyRx plySubstWait).setFld TWF_PLY_STATUS.RX_LANE 0
  { State.reset with
    dist := ⟨1, 1, false, false⟩
    chip := { c with
      ply := { c.ply with farLane := some 0 }
      valid := [(MemId.mailbox.key 0, true)]
      mem := [⟨0x11000, 3#8⟩, ⟨0x11001, 4#8⟩, ⟨0x11004, 4#8⟩]
      mbx := { c.mbx with slots := c.mbx.slots.set 0 .posted, priv := c.mbx.priv.set 0 3, queue := [.slot 0] } } }

/-- The part as it takes that command. -/
def retrainTaken : Chip := (retrainPosted.chip.accept (.slot 0) 0x0403).1

/-- The request. -/
def retrainReq : Req := ⟨.slot 0, 0x0403, 0, 3, [0#8, 0#8, 0#8, 0#8], true, 0⟩

theorem retrainPosted_accepts : (retrainPosted.chip.accept (.slot 0) 0x0403).2 = some retrainReq := by decide +kernel

theorem retrainPosted_takes : retrainPosted.takes (.slot 0) 0x0403 retrainTaken retrainReq := by
  unfold State.takes retrainTaken
  rw [← retrainPosted_accepts]

theorem retrainReq_lane : byteAt retrainReq.payload 0 = 0 := by decide

/-- The lane carries P0, on its own receiver, whose domain is ON: the command is carried out. -/
theorem retrainTaken_carries : retrainTaken.carriesPort 0 = true ∧ retrainTaken.onL8 0 = false ∧ retrainTaken.pdOn 7 = true := by
  decide +kernel

theorem lineRetrain_next (s : State) (src : CmdSrc) (c : Chip) (r : Req) (h : s.takes src 0x0403 c r) :
    exec (.lineRetrain src) s =
      .next { s with chip := (c.lineRetrain (byteAt r.payload 0)).1.conclude r (c.lineRetrain (byteAt r.payload 0)).2 } :=
  chipNext_takes s src 0x0403 c r _ _ _ h rfl

/-- The fault logic, as it lets go of the lane, finds that pairing can start: it commits the substitution, and the lane, which has just
entered CALIBRATE, stands in HOLD. -/
theorem lineRetrain_held : ((retrainTaken.lineRetrain 0).1.conclude retrainReq (retrainTaken.lineRetrain 0).2).rxState 0 = 7 := by
  decide +kernel

/-- Refutes O25: a LINE_RETRAIN of a lane whose waiting substitution can commit leaves the lane in HOLD, not in CALIBRATE. The statement
is about every state; `retrainPosted` is one in which nothing has evaluated pairing since its conditions came to hold. -/
theorem not_lineReceiverCommands : ¬ Obligations.LineReceiverCommands := by
  intro h
  obtain ⟨-, -, hretrain, -⟩ := h retrainPosted (.slot 0) retrainTaken retrainReq
  obtain ⟨-, -, hdone⟩ := hretrain retrainPosted_takes
  obtain ⟨hport, hown, hon⟩ := retrainTaken_carries
  rw [retrainReq_lane] at hdone
  obtain ⟨t, hexec, hcalibrate, -⟩ := hdone (by decide) hport hown hon
  rw [lineRetrain_next _ _ _ _ retrainPosted_takes, retrainReq_lane] at hexec
  obtain rfl := Host.Outcome.next.inj hexec
  dsimp only at hcalibrate
  rw [lineRetrain_held] at hcalibrate
  exact absurd hcalibrate (by decide)

end Sys2Proof.Machine
end

section
/-! PROOFS. Line receivers: what an operation leaves of a receiver. -/

namespace Sys2Proof.Machine

/-! ### The window of a receiver -/

/-- Is an address in the window of line receiver `n`? -/
def rxReg (n a : Nat) : Bool := decide (0x200000 + 0x10000 * n ≤ a) && decide (a < 0x210000 + 0x10000 * n)

theorem rxReg_eq_true (n a : Nat) : rxReg n a = true ↔ 0x200000 + 0x10000 * n ≤ a ∧ a < 0x210000 + 0x10000 * n := by simp [rxReg]

theorem rxReg_eq_false (n a : Nat) : rxReg n a = false ↔ a < 0x200000 + 0x10000 * n ∨ 0x210000 + 0x10000 * n ≤ a := by
  rw [Bool.eq_false_iff, Ne, rxReg_eq_true]
  omega

theorem rxReg_onLane (n : Nat) (f : Fld) (hf : rxReg 0 f.addr = true) : rxReg n (onLane n f).addr = true := by
  have haddr : (onLane n f).addr = f.addr + 0x10000 * n := rfl
  rw [rxReg_eq_true] at hf ⊢
  omega

/-- A register beyond the receivers' windows is in none of them. -/
theorem rxReg_beyond {n a : Nat} (hn : n < 9) (ha : 0x400000 ≤ a) : rxReg n a = false := by
  rw [rxReg_eq_false]
  omega

theorem settleReg_rx {n a : Nat} (hn : n < 9) (ha : rxReg n a = true) : settleReg a = false := by
  rw [rxReg_eq_true] at ha
  exact settleReg_lane a (by omega) (by omega)

/-- The registers that an operation on the receiver of lane `n` may touch beside those of its window: the framing of the lanes, those of
HNK, and those that a completion touches. -/
def sideReg (n a : Nat) : Bool :=
  rxReg n a || serveReg a || (decide (0x410200 ≤ a) && decide (a < 0x410320)) || (decide (0x420000 ≤ a) && decide (a < 0x430000))

theorem sideReg_own {n a : Nat} (h : rxReg n a = true) : sideReg n a = true := by simp [sideReg, h]

theorem sideReg_serve {n a : Nat} (h : serveReg a = true) : sideReg n a = true := by simp [sideReg, h]

theorem sideReg_framing {n a : Nat} (h1 : 0x410200 ≤ a) (h2 : a < 0x410320) : sideReg n a = true := by simp [sideReg, h1, h2]

theorem sideReg_hank {n a : Nat} (h1 : 0x420000 ≤ a) (h2 : a < 0x430000) : sideReg n a = true := by simp [sideReg, h1, h2]

theorem sideReg_plyStatus {n : Nat} (hn : n < 9) : sideReg n TWF_PLY_STATUS.addr = false := by
  have hwindow : rxReg n TWF_PLY_STATUS.addr = false := rxReg_beyond hn (by decide)
  have hserve : serveReg TWF_PLY_STATUS.addr = false := by decide
  have hrest : 0x410320 ≤ TWF_PLY_STATUS.addr ∧ TWF_PLY_STATUS.addr < 0x420000 := by decide
  simp only [sideReg, hwindow, hserve, Bool.or_eq_false_iff, Bool.and_eq_false_iff, decide_eq_false_iff_not, true_and]
  omega

theorem sideReg_other {m n a : Nat} (hn : n < 9) (hmn : m ≠ n) (ha : rxReg n a = true) : sideReg m a = false := by
  have hserve : serveReg a = false := Bool.eq_false_iff.2
    (fun h => Bool.eq_false_iff.1 (settleReg_rx hn ha) (settleReg_of_serve a h))
  have hwindow : rxReg m a = false := by
    rw [rxReg_eq_true] at ha
    rw [rxReg_eq_false]
    omega
  rw [rxReg_eq_true] at ha
  simp only [sideReg, hserve, hwindow, Bool.or_eq_false_iff, Bool.and_eq_false_iff, decide_eq_false_iff_not, true_and]
  omega

/-! ### What an operation changes of the receiver of lane `n` -/

/-- From `c` to `d` the receiver of lane `n` stays as it is. -/
structure RxKept (n : Nat) (c d : Chip) : Prop where
  reg : ∀ a, rxReg n a = true → d.reg a = c.reg a
  own : d.rxOf n = c.rxOf n
  pd : d.pmu.pd = c.pmu.pd

/-- From `c` to `d` every field of the receiver of lane `n` stays that shares no bit with one of `T`, which are named as of lane 0, no
restore window opens, and the power domains stay. -/
structure RxFlds (T : List Fld) (n : Nat) (c d : Chip) : Prop where
  fld : ∀ g : Fld, rxReg 0 g.addr = true → T.all (fun f => f.apart g) = true → d.fld (onLane n g) = c.fld (onLane n g)
  window : (c.rxOf n).window = none → (d.rxOf n).window = none
  pd : d.pmu.pd = c.pmu.pd

/-- From `c` to `d` an operation on the receiver of lane `n` alone, which changes the fields `T` of it and leaves the fault logic. -/
structure RxStep (T : List Fld) (n : Nat) (c d : Chip) : Prop where
  flds : RxFlds T n c d
  reg : RegsKept (sideReg n) c d
  other : ∀ m, m ≠ n → d.rxOf m = c.rxOf m
  ply : d.ply = c.ply

theorem pdOn_of_pd {c d : Chip} (h : d.pmu.pd = c.pmu.pd) (e : Nat) : d.pdOn e = c.pdOn e := by
  unfold Chip.pdOn
  rw [pdOf_congr h]

namespace RxFlds

variable {T U : List Fld} {n : Nat} {c d e : Chip}

theorem refl (T : List Fld) (n : Nat) (c : Chip) : RxFlds T n c c := ⟨fun _ _ _ => rfl, id, rfl⟩

theorem trans (k : RxFlds T n c d) (l : RxFlds T n d e) : RxFlds T n c e :=
  ⟨fun g hg hT => (l.fld g hg hT).trans (k.fld g hg hT), fun h => l.window (k.window h), l.pd.trans k.pd⟩

theorem mono (k : RxFlds T n c d) (hTU : T ⊆ U) : RxFlds U n c d :=
  ⟨fun g hg hU => k.fld g hg (List.all_eq_true.2 (fun f hf => List.all_eq_true.1 hU f (hTU hf))), k.window, k.pd⟩

theorem ite {p : Prop} [Decidable p] (k : RxFlds T n c d) (l : RxFlds T n c e) : RxFlds T n c (if p then d else e) := by
  split
  · exact k
  · exact l

theorem flag (k : RxFlds T n c d) (g : Fld) (hg : rxReg 0 g.addr = true) (hT : T.all (fun f => f.apart g) = true) :
    d.flag (onLane n g) = c.flag (onLane n g) := congrArg (· == 1) (k.fld g hg hT)

theorem pdOn (k : RxFlds T n c d) (e : Nat) : d.pdOn e = c.pdOn e := pdOn_of_pd k.pd e

theorem rxState (k : RxFlds T n c d) (hT : T.all (fun f => f.apart (LRX_STATUS.STATE 0)) = true) : d.rxState n = c.rxState n := by
  have hstate : d.fld (LRX_STATUS.STATE n) = c.fld (LRX_STATUS.STATE n) := k.fld (LRX_STATUS.STATE 0) rfl hT
  unfold Chip.rxState
  rw [k.pdOn, hstate]

theorem signal (k : RxFlds T n c d) (hT : T.all (fun f => f.apart (LRX_STATUS.SIGNAL 0)) = true) : d.signal n = c.signal n := by
  have hsignal : d.flag (LRX_STATUS.SIGNAL n) = c.flag (LRX_STATUS.SIGNAL n) := k.flag (LRX_STATUS.SIGNAL 0) rfl hT
  unfold Chip.signal
  rw [k.pdOn, hsignal]

end RxFlds

namespace RxKept

variable {n : Nat} {c d e : Chip}

theorem of (hregs : d.regs = c.regs) (hrx : d.rx = c.rx) (hpd : d.pmu.pd = c.pmu.pd) : RxKept n c d :=
  ⟨fun a _ => Chip.reg_congr hregs a, Chip.rxOf_congr hrx n, hpd⟩

theorem refl (n : Nat) (c : Chip) : RxKept n c c := .of rfl rfl rfl

theorem trans (k : RxKept n c d) (l : RxKept n d e) : RxKept n c e :=
  ⟨fun a ha => (l.reg a ha).trans (k.reg a ha), l.own.trans k.own, l.pd.trans k.pd⟩

theorem ite {p : Prop} [Decidable p] (k : RxKept n c d) (l : RxKept n c e) : RxKept n c (if p then d else e) := by
  split
  · exact k
  · exact l

theorem setFld (c : Chip) (f : Fld) (v : Nat) (h : rxReg n f.addr = false) : RxKept n c (c.setFld f v) :=
  ⟨fun a ha => Chip.reg_setFld_other c f v a (fun he => by rw [he, h] at ha; exact Bool.noConfusion ha), rfl, rfl⟩

theorem ofCalm {P : Nat → Bool} (hn : n < 9) (hP : ∀ a, P a = true → settleReg a = true) (k : Calm P c d) : RxKept n c d :=
  ⟨fun a ha => k.reg a (Bool.eq_false_iff.2 (fun h => Bool.eq_false_iff.1 (settleReg_rx hn ha) (hP a h))), Chip.rxOf_congr k.rx n,
    congrArg Pmu.pd k.pmu⟩

theorem settle (hn : n < 9) (c : Chip) : RxKept n c c.settle := ofCalm hn (fun _ h => h) (Calm.settle c)

theorem endWait (hn : n < 9) (c : Chip) (p : Wait → Bool) (y : Reply) : RxKept n c (c.endWait p y) :=
  ofCalm hn settleReg_of_serve (Calm.endWait c p y)

theorem raise (n : Nat) (c : Chip) (src pay : Nat) : RxKept n c (c.raise src pay) := .of rfl rfl rfl

theorem flds (k : RxKept n c d) (T : List Fld) : RxFlds T n c d :=
  ⟨fun g hg _ => by unfold Chip.fld; rw [k.reg _ (rxReg_onLane n g hg)], fun h => by rw [k.own]; exact h, k.pd⟩

theorem fld (k : RxKept n c d) (g : Fld) (hg : rxReg 0 g.addr = true) : d.fld (onLane n g) = c.fld (onLane n g) := (k.flds []).fld g hg rfl

theorem flag (k : RxKept n c d) (g : Fld) (hg : rxReg 0 g.addr = true) : d.flag (onLane n g) = c.flag (onLane n g) := (k.flds []).flag g hg rfl

theorem rxState (k : RxKept n c d) : d.rxState n = c.rxState n := (k.flds []).rxState rfl

end RxKept

namespace RxStep

variable {T U : List Fld} {n : Nat} {c d e : Chip}

theorem of (T : List Fld) (n : Nat) (hregs : d.regs = c.regs) (hrx : d.rx = c.rx) (hpd : d.pmu.pd = c.pmu.pd) (hply : d.ply = c.ply) :
    RxStep T n c d :=
  ⟨(RxKept.of hregs hrx hpd).flds T, .ofRegs _ hregs, fun m _ => Chip.rxOf_congr hrx m, hply⟩

theorem refl (T : List Fld) (n : Nat) (c : Chip) : RxStep T n c c := .of T n rfl rfl rfl rfl

theorem trans (k : RxStep T n c d) (l : RxStep T n d e) : RxStep T n c e :=
  ⟨k.flds.trans l.flds, k.reg.trans l.reg, fun m hm => (l.other m hm).trans (k.other m hm), l.ply.trans k.ply⟩

theorem mono (k : RxStep T n c d) (hTU : T ⊆ U) : RxStep U n c d := ⟨k.flds.mono hTU, k.reg, k.other, k.ply⟩

theorem ite {p : Prop} [Decidable p] (k : RxStep T n c d) (l : RxStep T n c e) : RxStep T n c (if p then d else e) := by
  split
  · exact k
  · exact l

theorem when (b : Bool) {f : Chip → Chip} (k : RxStep T n c (f c)) : RxStep T n c (c.when b f) := .ite k (.refl T n c)

theorem forAll {α : Type} (l : List α) (f : Chip → α → Chip) (h : ∀ c, ∀ x ∈ l, RxStep T n c (f c x)) (c : Chip) :
    RxStep T n c (c.forAll l f) := by
  unfold Chip.forAll
  induction l generalizing c with
  | nil => exact .refl T n c
  | cons x l ih => exact (h c x (by simp)).trans (ih (fun d y hy => h d y (List.mem_cons_of_mem _ hy)) (f c x))

theorem setFld (c : Chip) (n : Nat) (f : Fld) (v : Nat) (hlane : rxReg 0 f.addr = true) (hf : f ∈ T) : RxStep T n c (c.setFld (onLane n f) v) where
  flds := ⟨fun g _ hT => Chip.fld_setFld_other c _ _ v (apart_onLane n f g (List.all_eq_true.1 hT f hf)), id, rfl⟩
  reg := .setFld c _ v (sideReg_own (rxReg_onLane n f hlane))
  other _ _ := rfl
  ply := rfl

theorem setFlag (c : Chip) (n : Nat) (f : Fld) (b : Bool) (hlane : rxReg 0 f.addr = true) (hf : f ∈ T) :
    RxStep T n c (c.setFlag (onLane n f) b) := .setFld c n f _ hlane hf

theorem satInc (c : Chip) (n : Nat) (f : Fld) (k : Nat) (hlane : rxReg 0 f.addr = true) (hf : f ∈ T) :
    RxStep T n c (c.satInc (onLane n f) k) := .setFld c n f _ hlane hf

/-- A field beyond the receivers' windows. -/
theorem setSide (T : List Fld) (c : Chip) (f : Fld) (v : Nat) (hn : n < 9) (hf : 0x400000 ≤ f.addr) (hside : sideReg n f.addr = true) :
    RxStep T n c (c.setFld f v) :=
  ⟨(RxKept.setFld c f v (rxReg_beyond hn hf)).flds T, .setFld c f v hside, fun _ _ => rfl, rfl⟩

theorem raise (T : List Fld) (n : Nat) (c : Chip) (src pay : Nat) : RxStep T n c (c.raise src pay) := .of T n rfl rfl rfl rfl

theorem setLevel (T : List Fld) (n : Nat) (c : Chip) (src : Nat) (b : Bool) (pay : Nat) : RxStep T n c (c.setLevel src b pay) :=
  .of T n (by simp) (by simp) (by simp) (by simp)

theorem rxMod (T : List Fld) (c : Chip) (n : Nat) (f : LineRx → LineRx) (hf : ∀ x, x.window = none → (f x).window = none) :
    RxStep T n c (c.rxMod n f) where
  flds := by
    refine ⟨fun g _ _ => Chip.rxMod_fld c n f _, fun h => ?_, by simp⟩
    by_cases hn : n < 9
    · rw [Chip.rxOf_rxMod c n f hn]
      exact hf _ h
    · unfold Chip.rxMod
      rwa [dif_neg hn]
  reg := .ofRegs _ (Chip.rxMod_regs c n f)
  other m hm := Chip.rxOf_rxMod_other c n m f hm
  ply := by simp

theorem ofServe (T : List Fld) (hn : n < 9) (k : Calm serveReg c d) : RxStep T n c d where
  flds := (RxKept.ofCalm hn settleReg_of_serve k).flds T
  reg a ha := k.reg a (Bool.eq_false_iff.2 (fun h => Bool.eq_false_iff.1 ha (sideReg_serve h)))
  other m _ := Chip.rxOf_congr k.rx m
  ply := k.ply

/-- An operation on another receiver. -/
theorem kept {m : Nat} (k : RxStep T m c d) (hn : n < 9) (hmn : m ≠ n) : RxKept n c d :=
  ⟨fun a ha => k.reg a (sideReg_other hn hmn ha), k.other n hmn.symm, k.flds.pd⟩

theorem plyStatus (k : RxStep T n c d) (hn : n < 9) (f : Fld) (hf : f.addr = TWF_PLY_STATUS.addr) : d.fld f = c.fld f :=
  k.reg.fld f (by rw [hf]; exact sideReg_plyStatus hn)

theorem plyRx (k : RxStep T n c d) (hn : n < 9) : d.plyRx = c.plyRx := k.plyStatus hn _ rfl

theorem plyLane (k : RxStep T n c d) (hn : n < 9) : d.plyLane = c.plyLane := k.plyStatus hn _ rfl

end RxStep

/-! ### The flags of a receiver -/

section
variable {T : List Fld} {n : Nat}

theorem setRxState_step (c : Chip) (n st : Nat) (hT : LRX_STATUS.STATE 0 ∈ T) : RxStep T n c (c.setRxState n st) :=
  (RxStep.setFld c n (LRX_STATUS.STATE 0) st rfl hT).trans (.setLevel T n _ _ _ _)

theorem setRxState_rxState (c : Chip) (n st : Nat) (hst : st < 8) (hon : c.pdOn (7 + n) = true) : (c.setRxState n st).rxState n = st := by
  have hpd : (c.setRxState n st).pdOn (7 + n) = true :=
    (setRxState_step (T := [LRX_STATUS.STATE 0]) c n st (by decide)).flds.pdOn _ |>.trans hon
  unfold Chip.rxState
  rw [if_pos hpd]
  unfold Chip.setRxState
  rw [Chip.setLevel_fld, Chip.fld_setFld _ _ _ rfl]
  exact Nat.mod_eq_of_lt hst

theorem losLevel_step (T : List Fld) (c : Chip) (n : Nat) : RxStep T n c (c.losLevel n) := .setLevel T n c _ _ _

theorem clearGood_step (c : Chip) (n : Nat) (hT : LRX_STATUS.GOOD 0 ∈ T) : RxStep T n c (c.clearGood n) := by
  refine (RxStep.setFlag c n (LRX_STATUS.GOOD 0) false rfl hT).trans ?_
  unfold Chip.clearGood Chip.killSnapshot
  split
  · exact .refl T n _
  · exact .of T n rfl rfl rfl rfl

theorem clearGood_good (c : Chip) (n : Nat) : (c.clearGood n).flag (LRX_STATUS.GOOD n) = false := by
  have hkill : ∀ d : Chip, (d.killSnapshot n).flag (LRX_STATUS.GOOD n) = d.flag (LRX_STATUS.GOOD n) := by
    intro d
    unfold Chip.killSnapshot
    split <;> rfl
  exact (hkill _).trans (Chip.flag_setFlag c (LRX_STATUS.GOOD n) false rfl rfl)

theorem loseFrame_step (c : Chip) (hn : n < 9) (hT : LRX_STATUS.FRAME_LOCK 0 ∈ T) : RxStep T n c (c.loseFrame n) := by
  have haddr : 0x410200 ≤ TWF_LANE_STATUS.addr n ∧ TWF_LANE_STATUS.addr n < 0x410320 := by
    simp only [TWF_LANE_STATUS.addr]
    omega
  have htwf : ∀ (d : Chip) (lo w v : Nat), RxStep T n d (d.setFld ⟨TWF_LANE_STATUS.addr n, lo, w⟩ v) := fun d lo w v =>
    .setSide T d _ v hn (le_trans (by decide) haddr.1) (sideReg_framing haddr.1 haddr.2)
  unfold Chip.loseFrame
  refine .trans (.trans ((RxStep.setFlag c n (LRX_STATUS.FRAME_LOCK 0) false rfl hT).trans ((htwf _ _ _ _).trans (htwf _ _ _ _)))
    (.of T n (Chip.txMod_regs _ n _) ?_ ?_ ?_)) (.of T n (Chip.framerMod_regs _ n _) ?_ ?_ ?_) <;> simp

/-! ### Restarts -/

/-- The fields that a restart of the lock criteria writes. -/
def relockFlds : List Fld := [LRX_STATUS.CDR_LOCK 0, LRX_STATUS.EQ_CONV 0, LRX_STATUS.FRAME_LOCK 0]

theorem restartLock_step (c : Chip) (hn : n < 9) : RxStep relockFlds n c (c.restartLock n) := by
  unfold Chip.restartLock
  refine .trans ?_ (loseFrame_step _ hn (by decide))
  refine .trans ?_ (.setFlag _ n (LRX_STATUS.EQ_CONV 0) false rfl (by decide))
  refine .trans ?_ (.setFlag _ n (LRX_STATUS.CDR_LOCK 0) false rfl (by decide))
  exact .rxMod _ c n _ (fun _ h => h)

theorem restartLock_cdr (c : Chip) (hn : n < 9) : (c.restartLock n).flag (LRX_STATUS.CDR_LOCK n) = false := by
  unfold Chip.restartLock
  dsimp only
  rw [show ∀ d : Chip, (d.loseFrame n).flag (LRX_STATUS.CDR_LOCK n) = d.flag (LRX_STATUS.CDR_LOCK n) from fun d =>
    (loseFrame_step (T := [LRX_STATUS.FRAME_LOCK 0]) d hn (by decide)).flds.flag (LRX_STATUS.CDR_LOCK 0) rfl rfl]
  rw [Chip.flag_setFlag_other _ _ _ _ rfl, Chip.flag_setFlag _ _ _ rfl rfl]

theorem adcJudge_step (c : Chip) (n : Nat) (was : List (Int × Int × Int))
    (hlimit : LRX_ADC_CAL.AT_LIMIT 0 ∈ T) (hsub : LRX_ADC_CAL.SUB 0 ∈ T) (hfault : LRX_FAULT.ADC_CAL 0 ∈ T) :
    RxStep T n c (c.adcJudge n was) := by
  unfold Chip.adcJudge
  refine .ite ?_ (.ite ?_ (.refl T n c))
  · refine .trans ?_ (.setLevel T n _ _ _ _)
    refine .trans ?_ (.setFlag _ n (LRX_FAULT.ADC_CAL 0) true rfl hfault)
    refine .trans ?_ (.setFld _ n (LRX_ADC_CAL.SUB 0) _ rfl hsub)
    exact .setFlag c n (LRX_ADC_CAL.AT_LIMIT 0) true rfl hlimit
  · exact (RxStep.setFlag c n (LRX_ADC_CAL.AT_LIMIT 0) false rfl hlimit).trans (.setLevel T n _ _ _ _)

theorem setLive_step (c : Chip) (n : Nat) (x : Live)
    (hlimit : LRX_ADC_CAL.AT_LIMIT 0 ∈ T) (hsub : LRX_ADC_CAL.SUB 0 ∈ T) (hfault : LRX_FAULT.ADC_CAL 0 ∈ T) :
    RxStep T n c (c.setLive n x) := by
  unfold Chip.setLive
  refine .trans ?_ (adcJudge_step _ n _ hlimit hsub hfault)
  exact .rxMod T c n _ (fun _ h => h)

theorem adcJudge_rxOf (c : Chip) (n : Nat) (was : List (Int × Int × Int)) (k : Nat) : (c.adcJudge n was).rxOf k = c.rxOf k := by
  unfold Chip.adcJudge
  dsimp only
  split
  · simp
  · split <;> simp

theorem setLive_rxOf (c : Chip) (n : Nat) (x : Live) (hn : n < 9) : (c.setLive n x).rxOf n = { c.rxOf n with live := x } :=
  (adcJudge_rxOf _ n _ n).trans (Chip.rxOf_rxMod c n _ hn)

theorem leaveHold_step (T : List Fld) (c : Chip) (n : Nat) : RxStep T n c (c.leaveHold n) := .of T n rfl rfl rfl rfl

/-- The fields that a retrain writes but for GOOD. -/
def relearnFlds : List Fld :=
  [LRX_SNR.SNR_AVG 0, LRX_STATUS.CDR_LOCK 0, LRX_STATUS.EQ_CONV 0, LRX_STATUS.FRAME_LOCK 0, LRX_ADC_CAL.AT_LIMIT 0, LRX_ADC_CAL.SUB 0,
    LRX_FAULT.ADC_CAL 0, LRX_STATUS.HOLD_CAUSE 0, LRX_STATUS.STATE 0]

theorem retrain_afterGood (c : Chip) (hn : n < 9) : RxStep relearnFlds n (c.clearGood n) (c.retrain n) := by
  unfold Chip.retrain Chip.restartCriteria
  refine .trans ?_ (setRxState_step _ n _ (by decide))
  refine .trans ?_ (.setFld _ n (LRX_STATUS.HOLD_CAUSE 0) 0 rfl (by decide))
  refine .trans ?_ (.rxMod _ _ n _ (fun _ _ => rfl))
  refine .trans ?_ (setLive_step _ n _ (by decide) (by decide) (by decide))
  refine .trans ?_ ((restartLock_step _ hn).mono (by decide))
  refine .trans ?_ (.rxMod _ _ n _ (fun _ h => h))
  exact .trans (leaveHold_step _ _ n) (.setFld _ n (LRX_SNR.SNR_AVG 0) 0 rfl (by decide))

theorem retrain_step (c : Chip) (hn : n < 9) : RxStep (LRX_STATUS.GOOD 0 :: relearnFlds) n c (c.retrain n) :=
  (clearGood_step c n (by decide)).trans ((retrain_afterGood c hn).mono (List.subset_cons_self _ _))

theorem retrain_rxOf (c : Chip) (hn : n < 9) :
    ((c.retrain n).rxOf n).live = {} ∧ ((c.retrain n).rxOf n).retrain = true ∧ ((c.retrain n).rxOf n).window = none := by
  unfold Chip.retrain Chip.setRxState
  dsimp only
  rw [Chip.setLevel_rxOf, Chip.setFld_rxOf, Chip.setFld_rxOf, Chip.rxOf_rxMod _ _ _ hn, setLive_rxOf _ _ _ hn]
  exact ⟨rfl, rfl, rfl⟩

theorem retrain_rxState (c : Chip) (hn : n < 9) (hon : c.pdOn (7 + n) = true) : (c.retrain n).rxState n = 1 := by
  have hkept := (retrain_step c hn).flds.pdOn (7 + n)
  unfold Chip.retrain at hkept ⊢
  exact setRxState_rxState _ n _ (by decide) (((setRxState_step (T := [LRX_STATUS.STATE 0]) _ n _ (by decide)).flds.pdOn _).symm.trans (hkept.trans hon))

theorem retrain_good (c : Chip) (hn : n < 9) : (c.retrain n).flag (LRX_STATUS.GOOD n) = false :=
  ((retrain_afterGood c hn).flds.flag (LRX_STATUS.GOOD 0) rfl (by decide)).trans (clearGood_good c n)

end

end Sys2Proof.Machine
end

section
/-! PROOFS. Line receivers: the loops and windows. -/

namespace Sys2Proof.Machine

section
variable {n : Nat}

/-! ### Staying within the window of a receiver -/

/-- A write of a field of the receiver's window. -/
theorem rxWindow_setFld (c : Chip) (n : Nat) (f : Fld) (v : Nat) (hlane : rxReg 0 f.addr = true) :
    RegsKept (rxReg n) c (c.setFld (onLane n f) v) := .setFld c _ v (rxReg_onLane n f hlane)

theorem within_of_rxWindow (s : State) (f : Chip → Chip) (hk : RegsKept (rxReg n) s.chip (f s.chip)) :
    s.within (s.onChip f) (0x200000 + 0x10000 * n) (0x210000 + 0x10000 * n) :=
  ⟨rfl, rfl, fun a ha _ => hk a ((rxReg_eq_false n a).2 ha)⟩

theorem adcJudge_window (c : Chip) (n : Nat) (was : List (Int × Int × Int)) : RegsKept (rxReg n) c (c.adcJudge n was) := by
  unfold Chip.adcJudge
  refine .ite ?_ (.ite ?_ (.refl _ c))
  · refine .trans ?_ (.ofRegs _ (Chip.setLevel_regs ..))
    refine .trans ?_ (rxWindow_setFld _ n (LRX_FAULT.ADC_CAL 0) _ rfl)
    refine .trans ?_ (rxWindow_setFld _ n (LRX_ADC_CAL.SUB 0) _ rfl)
    exact rxWindow_setFld c n (LRX_ADC_CAL.AT_LIMIT 0) _ rfl
  · exact (rxWindow_setFld c n (LRX_ADC_CAL.AT_LIMIT 0) _ rfl).trans (.ofRegs _ (Chip.setLevel_regs ..))

/-! ### SNR windows (R119, R123, R141) -/

/-- The hidden state of a receiver at the end of an SNR window, its thresholds taken. -/
def snrCounted (c : Chip) (n snr : Nat) : Chip :=
  (c.takeThresholds n).rxMod n (fun x => { x with
    snrs := (snr :: x.snrs).take 256
    snrAbove := if x.lockUse ≤ snr then min 16 (x.snrAbove + 1) else 0
    snrBelow := if snr < x.lossUse then min 17 (x.snrBelow + 1) else 0 })

theorem snrCounted_regs (c : Chip) (n snr : Nat) : (snrCounted c n snr).regs = c.regs := by
  unfold snrCounted Chip.takeThresholds
  rw [Chip.rxMod_regs, Chip.rxMod_regs]

theorem snrCounted_pd (c : Chip) (n snr : Nat) : (snrCounted c n snr).pmu.pd = c.pmu.pd := by
  unfold snrCounted Chip.takeThresholds
  rw [Chip.rxMod_pmu, Chip.rxMod_pmu]

/-- What the counts and the list of windows are after an SNR window. -/
theorem snrCounted_rxOf (c : Chip) (hn : n < 9) (snr : Nat) :
    ((snrCounted c n snr).rxOf n).snrs = (snr :: (c.rxOf n).snrs).take 256 ∧ ((snrCounted c n snr).rxOf n).everCdr = (c.rxOf n).everCdr ∧
      ((snrCounted c n snr).rxOf n).snrAbove =
        if c.fld (LRX_RX_CFG.LOCK_THR n) ≤ snr then min 16 ((c.rxOf n).snrAbove + 1) else 0 := by
  unfold snrCounted Chip.takeThresholds
  rw [Chip.rxOf_rxMod _ _ _ hn, Chip.rxOf_rxMod _ _ _ hn]
  exact ⟨rfl, rfl, rfl⟩

/-- The two SNR registers after an SNR window. -/
def snrShown (c : Chip) (n snr : Nat) : Chip :=
  ((snrCounted c n snr).setFld (LRX_STATUS.RX_SNR n) (if (c.rxOf n).everCdr then snr else 0)).setFld (LRX_SNR.SNR_AVG n)
    (snrMean ((snr :: (c.rxOf n).snrs).take 256))

/-- An SNR window of a lane that learns: the lane seeks the frame once 16 windows in a row reach LOCK_THR. -/
theorem snrWindow_learning (c : Chip) (hn : n < 9) (snr : Nat) (h3 : 3 ≤ c.rxState n) (h5 : c.rxState n ≤ 5) :
    c.snrWindow n snr = if 4 ≤ c.rxState n ∧ 15 ≤ (c.rxOf n).snrAbove ∧ c.fld (LRX_RX_CFG.LOCK_THR n) ≤ snr then
        ((snrShown c n snr).setFlag (LRX_STATUS.EQ_CONV n) true).setRxState n 5
      else snrShown c n snr := by
  obtain ⟨hsnrs, hcdr, habove⟩ := snrCounted_rxOf c hn snr
  have hcount : (c.rxState n = rxConverge ∨ c.rxState n = rxFrameSeek) ∧ ((snrCounted c n snr).rxOf n).snrAbove = 16 ↔
      4 ≤ c.rxState n ∧ 15 ≤ (c.rxOf n).snrAbove ∧ c.fld (LRX_RX_CFG.LOCK_THR n) ≤ snr := by
    rw [habove]
    simp only [rxConverge, rxFrameSeek]
    split <;> omega
  have hacq : ¬ c.rxState n < rxAcquire := Nat.not_lt.2 h3
  have hlock : c.rxState n ≠ rxLocked := fun h => absurd (h ▸ h5) (by decide)
  have hhold : c.rxState n ≠ rxHold := fun h => absurd (h ▸ h5) (by decide)
  simp only [← hcount, snrShown, ← hsnrs, ← hcdr]
  unfold Chip.snrWindow
  simp only [hacq, hlock, hhold, if_false]
  rfl

theorem snrShown_step (c : Chip) (n snr : Nat) : RxStep [LRX_STATUS.RX_SNR 0, LRX_SNR.SNR_AVG 0] n (snrCounted c n snr) (snrShown c n snr) :=
  (RxStep.setFld _ n (LRX_STATUS.RX_SNR 0) _ rfl (by decide)).trans (.setFld _ n (LRX_SNR.SNR_AVG 0) _ rfl (by decide))

theorem snrShown_rxWindow (c : Chip) (n snr : Nat) : RegsKept (rxReg n) c (snrShown c n snr) :=
  .trans (.ofRegs _ (snrCounted_regs c n snr)) ((rxWindow_setFld _ n (LRX_STATUS.RX_SNR 0) _ rfl).trans (rxWindow_setFld _ n (LRX_SNR.SNR_AVG 0) _ rfl))

theorem snrShown_rxSnr (c : Chip) (n : Nat) {snr : Nat} (hsnr : snr < 256) :
    (snrShown c n snr).fld (LRX_STATUS.RX_SNR n) = if (c.rxOf n).everCdr then snr else 0 := by
  unfold snrShown
  refine (Chip.fld_setFld_other _ _ _ _ (apart_onLane n (LRX_SNR.SNR_AVG 0) (LRX_STATUS.RX_SNR 0) rfl)).trans ((Chip.fld_setFld _ _ _ rfl).trans ?_)
  exact Nat.mod_eq_of_lt (lt_of_le_of_lt (by split <;> omega) hsnr)

theorem snrShown_snrAvg (c : Chip) (n snr : Nat) :
    (snrShown c n snr).fld (LRX_SNR.SNR_AVG n) = snrMean ((snr :: (c.rxOf n).snrs).take 256) % 65536 := by
  unfold snrShown
  rw [Chip.fld_setFld _ _ _ rfl]
  norm_num only [LRX_SNR.SNR_AVG]

/-- R119, R123, R141: an SNR window of a lane that learns. -/
theorem snrWindow_spec (c : Chip) (hn : n < 9) (hon : c.pdOn (7 + n) = true) (snr : Nat) (hsnr : snr < 256) (h3 : 3 ≤ c.rxState n) (h5 : c.rxState n ≤ 5) :
    RegsKept (rxReg n) c (c.snrWindow n snr) ∧
      (c.snrWindow n snr).fld (LRX_STATUS.RX_SNR n) = (if (c.rxOf n).everCdr then snr else 0) ∧
      (c.snrWindow n snr).fld (LRX_SNR.SNR_AVG n) = snrMean ((snr :: (c.rxOf n).snrs).take 256) % 65536 ∧
      (c.snrWindow n snr).rxState n =
        if 4 ≤ c.rxState n ∧ 15 ≤ (c.rxOf n).snrAbove ∧ c.fld (LRX_RX_CFG.LOCK_THR n) ≤ snr then 5 else c.rxState n := by
  have hwindow := snrShown_rxWindow c n snr
  have hrx := snrShown_rxSnr c n hsnr
  have havg := snrShown_snrAvg c n snr
  have hpd : (snrShown c n snr).pdOn (7 + n) = c.pdOn (7 + n) := pdOn_of_pd (snrCounted_pd c n snr) _
  have hst : (snrShown c n snr).rxState n = c.rxState n := by
    rw [(snrShown_step c n snr).flds.rxState rfl]
    unfold Chip.rxState
    rw [pdOn_of_pd (snrCounted_pd c n snr), Chip.fld_congr (snrCounted_regs c n snr)]
  rw [snrWindow_learning c hn snr h3 h5]
  split
  · have hconv : RxStep [LRX_STATUS.EQ_CONV 0, LRX_STATUS.STATE 0] n (snrShown c n snr) ((snrShown c n snr).setFlag (LRX_STATUS.EQ_CONV n) true) :=
      .setFlag _ n (LRX_STATUS.EQ_CONV 0) true rfl (by decide)
    have hstep := hconv.trans (setRxState_step _ n 5 (by decide))
    refine ⟨hwindow.trans ?_, (hstep.flds.fld (LRX_STATUS.RX_SNR 0) rfl rfl).trans hrx, (hstep.flds.fld (LRX_SNR.SNR_AVG 0) rfl rfl).trans havg,
      setRxState_rxState _ n 5 (by decide) ((hconv.flds.pdOn _).trans (hpd.trans hon))⟩
    exact .trans (rxWindow_setFld _ n (LRX_STATUS.EQ_CONV 0) _ rfl)
      (.trans (rxWindow_setFld _ n (LRX_STATUS.STATE 0) _ rfl) (.ofRegs _ (Chip.setLevel_regs ..)))
  · exact ⟨hwindow, hrx, havg, hst⟩

/-! ### Adaptation windows (R114, R120, R123) -/

theorem showLive_rxOf (c : Chip) (n k : Nat) : (c.showLive n).rxOf k = c.rxOf k := rfl

theorem showLive_step (c : Chip) (n : Nat) : RxStep [LRX_CDR.FREQ_OFS 0, LRX_CDR.PHASE 0] n c (c.showLive n) :=
  (RxStep.setFld c n (LRX_CDR.FREQ_OFS 0) _ rfl (by decide)).trans (.setFld _ n (LRX_CDR.PHASE 0) _ rfl (by decide))

theorem showLive_rxWindow (c : Chip) (n : Nat) : RegsKept (rxReg n) c (c.showLive n) :=
  (rxWindow_setFld c n (LRX_CDR.FREQ_OFS 0) _ rfl).trans (rxWindow_setFld _ n (LRX_CDR.PHASE 0) _ rfl)

/-- The rotator position that PHASE shows has 7 bits at 226.875 GBd and 8 at 113.4375 GBd (R141). -/
theorem showLive_phase (c : Chip) (n : Nat) :
    (c.showLive n).fld (LRX_CDR.PHASE n) = (c.rxOf n).live.phase % (if c.flag (LRX_STATUS.RATE n) then 128 else 256) := by
  unfold Chip.showLive
  rw [Chip.fld_setFld _ _ _ rfl, show 2 ^ (LRX_CDR.PHASE n).w = 256 from rfl]
  split <;> omega

/-- The loops of a lane with signal, neither in HOLD nor below ACQUIRE, take their new values. -/
def adapted (c : Chip) (n : Nat) (a : AdaptIn) : Chip :=
  c.rxMod n (fun x => { x with
    live := ⟨a.ffe, adaptVolt (c.fld (LRX_STATUS.VOLT_SET n)) x.live.volt a.volt, a.targets, a.np, x.live.llrScale, a.gain, a.freq, a.phase, x.live.adc⟩
    freqs := (a.freq :: x.freqs).take 16 })

theorem adapted_rxOf (c : Chip) (hn : n < 9) (a : AdaptIn) : (adapted c n a).rxOf n = { c.rxOf n with
    live := ⟨a.ffe, adaptVolt (c.fld (LRX_STATUS.VOLT_SET n)) (c.rxOf n).live.volt a.volt, a.targets, a.np, (c.rxOf n).live.llrScale, a.gain, a.freq,
      a.phase, (c.rxOf n).live.adc⟩
    freqs := (a.freq :: (c.rxOf n).freqs).take 16 } := Chip.rxOf_rxMod c n _ hn

/-- An adaptation window of a lane with signal, without a tap request. -/
theorem adaptWindow_signal (c : Chip) (n : Nat) (a : AdaptIn) (hask : a.ask = none) (hsig : c.signal n = true) (h3 : 3 ≤ c.rxState n)
    (h7 : c.rxState n < 7) :
    c.adaptWindow n a = if freqSteady (((adapted c n a).rxOf n).freqs) = true ∧ c.rxState n < 6 then
        (((adapted c n a).showLive n).setFlag (LRX_STATUS.CDR_LOCK n) true).rxMod n (fun x => { x with everCdr := true })
      else (adapted c n a).showLive n := by
  have hacq : ¬ c.rxState n < rxAcquire := Nat.not_lt.2 h3
  have hhold : c.rxState n ≠ rxHold := Nat.ne_of_lt h7
  unfold Chip.adaptWindow
  simp only [hacq, hhold, if_false, hsig, if_true, hask, Bool.true_and, Bool.and_eq_true, decide_eq_true_eq]
  rfl

/-- R114, R120, R123, R141: an adaptation window of a lane with signal, without a tap request. -/
theorem adaptWindow_spec (c : Chip) (hn : n < 9) (a : AdaptIn) (hask : a.ask = none) (hsig : c.signal n = true) (h3 : 3 ≤ c.rxState n)
    (h7 : c.rxState n < 7) :
    RegsKept (rxReg n) c (c.adaptWindow n a) ∧
      ((c.adaptWindow n a).rxOf n).live = ⟨a.ffe, adaptVolt (c.fld (LRX_STATUS.VOLT_SET n)) (c.rxOf n).live.volt a.volt, a.targets, a.np,
        (c.rxOf n).live.llrScale, a.gain, a.freq, a.phase, (c.rxOf n).live.adc⟩ ∧
      (c.adaptWindow n a).fld (LRX_CDR.PHASE n) = a.phase % (if c.flag (LRX_STATUS.RATE n) then 128 else 256) ∧
      (freqSteady ((a.freq :: (c.rxOf n).freqs).take 16) = true → c.rxState n < 6 →
        (c.adaptWindow n a).flag (LRX_STATUS.CDR_LOCK n) = true) := by
  have hrx := adapted_rxOf c hn a
  have hregs : (adapted c n a).regs = c.regs := Chip.rxMod_regs c n _
  have hwindow : RegsKept (rxReg n) c ((adapted c n a).showLive n) := .trans (.ofRegs _ hregs) (showLive_rxWindow _ n)
  have hphase : ((adapted c n a).showLive n).fld (LRX_CDR.PHASE n) = a.phase % (if c.flag (LRX_STATUS.RATE n) then 128 else 256) := by
    rw [showLive_phase, hrx, Chip.flag_congr hregs]
  rw [adaptWindow_signal c n a hask hsig h3 h7, hrx]
  split
  · refine ⟨hwindow.trans (.trans (rxWindow_setFld _ n (LRX_STATUS.CDR_LOCK 0) _ rfl) (.ofRegs _ (Chip.rxMod_regs ..))), ?_, ?_, fun _ _ => ?_⟩
    · rw [Chip.rxOf_rxMod _ _ _ hn, Chip.setFlag_rxOf, showLive_rxOf, hrx]
    · rw [Chip.rxMod_fld, ← hphase]
      exact Chip.fld_setFld_other _ _ _ _ (apart_onLane n (LRX_STATUS.CDR_LOCK 0) (LRX_CDR.PHASE 0) rfl)
    · rw [Chip.rxMod_flag, Chip.flag_setFlag _ _ _ rfl rfl]
  · next hnot => exact ⟨hwindow, by rw [showLive_rxOf, hrx], hphase, fun hsteady hlt => absurd ⟨hsteady, hlt⟩ hnot⟩

/-- R120: in HOLD the rotator alone goes on. -/
theorem adaptWindow_hold (c : Chip) (hn : n < 9) (a : AdaptIn) (hsig : c.signal n = true) (h7 : c.rxState n = 7) :
    ((c.adaptWindow n a).rxOf n).live = { (c.rxOf n).live with phase := a.phase } ∧
      (c.adaptWindow n a).flag (LRX_STATUS.CDR_LOCK n) = c.flag (LRX_STATUS.CDR_LOCK n) := by
  have hset : c.adaptWindow n a = (c.rxMod n (fun x => { x with live := { x.live with phase := a.phase } })).showLive n := by
    have hacq : ¬ c.rxState n < rxAcquire := by rw [h7]; decide
    unfold Chip.adaptWindow
    dsimp only
    rw [if_neg hacq, if_pos (show c.rxState n = rxHold from h7), if_pos hsig]
  rw [hset]
  constructor
  · rw [showLive_rxOf, Chip.rxOf_rxMod _ _ _ hn]
  · rw [← Chip.rxMod_flag c n (fun x => { x with live := { x.live with phase := a.phase } })]
    exact (showLive_step _ n).flds.flag (LRX_STATUS.CDR_LOCK 0) rfl rfl

/-! ### Background calibration (R112, R113) -/

theorem adcAll_length (l : List (Int × Int × Int)) : (adcAll l).length = 64 := by simp [adcAll]

/-- A list of 64 triples is all of them. -/
theorem adcAll_of_length (l : List (Int × Int × Int)) (h : l.length = 64) : adcAll l = l := by
  apply List.ext_getElem (by rw [adcAll_length, h])
  intro i h1 h2
  simp [adcAll, h2]

theorem adcGet_adcPut (l : AdcLoop) (c : Int × Int × Int) (v : Int) : adcGet l (adcPut l c v) = v := by cases l <;> rfl

/-- A triple well inside its ranges has no correction at an end. -/
theorem adcHits_of_inside (c : Int × Int × Int) (h : adcInside c = true) (l : AdcLoop) : adcHits c l = false := by
  have hloop : 10 * ((adcGet l c).natAbs : Int) ≤ 9 * adcEnd l := of_decide_eq_true (List.all_eq_true.1 h l (by cases l <;> decide))
  have hend : 0 < adcEnd l := by cases l <;> decide
  simp only [adcHits, decide_eq_false_iff_not]
  omega

/-- Of two lists of triples, has a correction of the second come to its end that was not there in the first? -/
def adcNew (was now : List (Int × Int × Int)) : Bool := (was.zip now).any (fun p => adcLoops.any (fun l => adcHits p.2 l && !(adcHits p.1 l)))

theorem adcNew_set (was : List (Int × Int × Int)) (k : Nat) (x : Int × Int × Int) (l : AdcLoop) (hk : k < was.length)
    (hx : adcHits x l = true) (hwas : adcHits (was.getD k (0, 0, 0)) l = false) : adcNew was (was.set k x) = true := by
  have hmem : (was.getD k (0, 0, 0), x) ∈ was.zip (was.set k x) := by
    rw [List.mem_iff_getElem]
    exact ⟨k, by simpa using hk, by simp [hk]⟩
  exact List.any_eq_true.2 ⟨_, hmem, List.any_eq_true.2 ⟨l, by cases l <;> decide, by rw [hx, hwas]; rfl⟩⟩

theorem adcNew_inside (was now : List (Int × Int × Int)) (h : now.all adcInside = true) : adcNew was now = false := by
  refine List.any_eq_false.2 (fun p hp => ?_)
  have hin := List.all_eq_true.1 h p.2 (List.of_mem_zip hp).2
  simp [adcHits_of_inside p.2 hin]

theorem adcJudge_new (c : Chip) (n : Nat) (was : List (Int × Int × Int)) (h : adcNew (adcAll was) (adcAll (c.rxOf n).live.adc) = true) :
    (c.adcJudge n was).flag (LRX_ADC_CAL.AT_LIMIT n) = true ∧ (c.adcJudge n was).flag (LRX_FAULT.ADC_CAL n) = true := by
  unfold adcNew at h
  unfold Chip.adcJudge
  simp only [h, if_true, Chip.setLevel_flag]
  refine ⟨?_, Chip.flag_setFlag _ _ _ rfl rfl⟩
  rw [Chip.flag_setFlag_other _ _ _ _ rfl, Chip.flag_setFld_other _ _ _ _ rfl, Chip.flag_setFlag _ _ _ rfl rfl]

theorem adcJudge_inside (c : Chip) (n : Nat) (was : List (Int × Int × Int)) (h : (adcAll (c.rxOf n).live.adc).all adcInside = true) :
    (c.adcJudge n was).flag (LRX_ADC_CAL.AT_LIMIT n) = false := by
  have hnew := adcNew_inside (adcAll was) _ h
  unfold adcNew at hnew
  unfold Chip.adcJudge
  simp only [hnew, h, if_true, Bool.false_eq_true, if_false, Chip.setLevel_flag]
  exact Chip.flag_setFlag _ _ _ rfl rfl

/-- The corrections after an update of one loop of one sub-ADC. -/
def adcMoved (c : Chip) (n : Nat) (a : AdcIn) : List (Int × Int × Int) :=
  let old := (adcAll (c.rxOf n).live.adc).getD a.sub.1 (0, 0, 0)
  (adcAll (c.rxOf n).live.adc).set a.sub.1
    (adcPut a.loop old (clampInt (-adcEnd a.loop) (adcEnd a.loop) (adcGet a.loop old + clampInt (-1) 1 a.step)))

theorem adcAll_adcMoved (c : Chip) (n : Nat) (a : AdcIn) : adcAll (adcMoved c n a) = adcMoved c n a :=
  adcAll_of_length _ (by simp [adcMoved, adcAll_length])

/-- The three residuals of a calibration update. -/
theorem adcResiduals_step (c : Chip) (n x y z : Nat) :
    RxStep [LRX_ADC_CAL.OFFSET_RES 0, LRX_ADC_CAL.GAIN_RES 0, LRX_ADC_CAL.SKEW_RES 0] n c
      (((c.setFld (LRX_ADC_CAL.OFFSET_RES n) x).setFld (LRX_ADC_CAL.GAIN_RES n) y).setFld (LRX_ADC_CAL.SKEW_RES n) z) :=
  ((RxStep.setFld c n (LRX_ADC_CAL.OFFSET_RES 0) x rfl (by decide)).trans (.setFld _ n (LRX_ADC_CAL.GAIN_RES 0) y rfl (by decide))).trans
    (.setFld _ n (LRX_ADC_CAL.SKEW_RES 0) z rfl (by decide))

theorem adcUpdate_running (c : Chip) (n : Nat) (a : AdcIn) (hsig : c.signal n = true) (h3 : 3 ≤ c.rxState n) (h7 : c.rxState n < 7) :
    c.adcUpdate n a = (((c.setLive n { (c.rxOf n).live with adc := adcMoved c n a }).setFld (LRX_ADC_CAL.OFFSET_RES n) a.offsetRes).setFld
      (LRX_ADC_CAL.GAIN_RES n) a.gainRes).setFld (LRX_ADC_CAL.SKEW_RES n) a.skewRes := by
  have hacq : rxAcquire ≤ c.rxState n := h3
  have hhold : c.rxState n ≠ rxHold := Nat.ne_of_lt h7
  unfold Chip.adcUpdate
  simp only [hsig, hacq, hhold, ne_eq, not_false_eq_true, decide_true, Bool.and_self, if_true]
  rfl

theorem setLive_rxWindow (c : Chip) (n : Nat) (x : Live) : RegsKept (rxReg n) c (c.setLive n x) := by
  unfold Chip.setLive
  exact .trans (.ofRegs _ (Chip.rxMod_regs c n _)) (adcJudge_window _ n _)

/-- R112, R113: a background calibration update of a lane with signal. -/
theorem adcUpdate_spec (c : Chip) (hn : n < 9) (a : AdcIn) (hsig : c.signal n = true) (h3 : 3 ≤ c.rxState n) (h7 : c.rxState n < 7) :
    RegsKept (rxReg n) c (c.adcUpdate n a) ∧ (c.adcUpdate n a).fld (LRX_ADC_CAL.OFFSET_RES n) = a.offsetRes % 256 ∧
      ((c.adcUpdate n a).rxOf n).live.adc = adcMoved c n a ∧
      (adcNew (adcAll (c.rxOf n).live.adc) (adcMoved c n a) = true →
        (c.adcUpdate n a).flag (LRX_ADC_CAL.AT_LIMIT n) = true ∧ (c.adcUpdate n a).flag (LRX_FAULT.ADC_CAL n) = true) ∧
      ((adcMoved c n a).all adcInside = true → (c.adcUpdate n a).flag (LRX_ADC_CAL.AT_LIMIT n) = false) := by
  rw [adcUpdate_running c n a hsig h3 h7]
  have hrx := setLive_rxOf c n { (c.rxOf n).live with adc := adcMoved c n a } hn
  have hmod : ((c.rxMod n (fun r => { r with live := { (c.rxOf n).live with adc := adcMoved c n a } })).rxOf n).live.adc = adcMoved c n a := by
    rw [Chip.rxOf_rxMod _ _ _ hn]
  have hres := (adcResiduals_step (c.setLive n { (c.rxOf n).live with adc := adcMoved c n a }) n a.offsetRes a.gainRes a.skewRes).flds
  refine ⟨?_, ?_, ?_, fun hnew => ?_, fun hin => ?_⟩
  · exact (setLive_rxWindow c n _).trans (.trans (rxWindow_setFld _ n (LRX_ADC_CAL.OFFSET_RES 0) _ rfl)
      (.trans (rxWindow_setFld _ n (LRX_ADC_CAL.GAIN_RES 0) _ rfl) (rxWindow_setFld _ n (LRX_ADC_CAL.SKEW_RES 0) _ rfl)))
  · rw [Chip.fld_setFld_other _ _ _ _ rfl, Chip.fld_setFld_other _ _ _ _ rfl, Chip.fld_setFld _ _ _ rfl]
    rfl
  · rw [Chip.setFld_rxOf, Chip.setFld_rxOf, Chip.setFld_rxOf, hrx]
  · obtain ⟨hlimit, hfault⟩ := adcJudge_new (c.rxMod n (fun r => { r with live := { (c.rxOf n).live with adc := adcMoved c n a } })) n
      (c.rxOf n).live.adc (by rw [hmod, adcAll_adcMoved]; exact hnew)
    exact ⟨(hres.flag (LRX_ADC_CAL.AT_LIMIT 0) rfl rfl).trans hlimit, (hres.flag (LRX_FAULT.ADC_CAL 0) rfl rfl).trans hfault⟩
  · exact (hres.flag (LRX_ADC_CAL.AT_LIMIT 0) rfl rfl).trans (adcJudge_inside _ n _ (by rw [hmod, adcAll_adcMoved]; exact hin))

/-- A correction that comes to the end of its range is a new one there. -/
theorem adcNew_adcMoved (c : Chip) (n : Nat) (a : AdcIn)
    (hnew : (clampInt (-adcEnd a.loop) (adcEnd a.loop)
      (adcGet a.loop ((adcAll (c.rxOf n).live.adc).getD a.sub.1 (0, 0, 0)) + clampInt (-1) 1 a.step)).natAbs = (adcEnd a.loop).natAbs)
    (hold : (adcGet a.loop ((adcAll (c.rxOf n).live.adc).getD a.sub.1 (0, 0, 0))).natAbs < (adcEnd a.loop).natAbs) :
    adcNew (adcAll (c.rxOf n).live.adc) (adcMoved c n a) = true := by
  have hend : 0 < adcEnd a.loop := by cases a.loop <;> decide
  refine adcNew_set _ a.sub.1 _ a.loop (by rw [adcAll_length]; exact a.sub.2) ?_ ?_
  · simp only [adcHits, adcGet_adcPut, hnew, decide_eq_true_eq]
    omega
  · simp only [adcHits, decide_eq_false_iff_not]
    omega

/-! ### The LLR scale (R118, R120) -/

theorem llrUpdate_running (c : Chip) (n v : Nat) (h3 : 3 ≤ c.rxState n) (h7 : c.rxState n < 7) :
    c.llrUpdate n v = c.rxMod n (fun x => { x with live := { x.live with llrScale := llrNext x.live.llrScale v } }) :=
  if_pos ⟨h3, Nat.ne_of_lt h7⟩

/-! ### GOOD (R129, R177) -/

theorem writeHank_kept (c : Chip) (hn : n < 9) (img : List Byte) (t : Chip) (i : Nat) (h : c.writeHank img = some (t, i)) : RxKept n c t := by
  unfold Chip.writeHank at h
  split at h
  · cases h
  · cases h
    have hcalm := Calm.writeBytes serveReg (c.setHankSlot i { st := .held, lane := hankPhys img, busy := 1 }) .hankStore (hankOff i) img
      (by intro k sh he; cases he)
    have hslot : RxKept n c (c.setHankSlot i { st := .held, lane := hankPhys img, busy := 1 }) := .of rfl rfl rfl
    exact (hslot.trans (.ofCalm hn settleReg_of_serve hcalm)).trans (.of rfl rfl rfl)

theorem snapshot_kept (c : Chip) (hn : n < 9) (m : Nat) : RxKept n c (c.snapshot m) := by
  unfold Chip.snapshot Chip.capture
  refine .ite ?_ (.refl n c)
  dsimp only
  split
  · exact .refl n c
  · next t i h => exact (writeHank_kept c hn _ t i h).trans (.of rfl rfl rfl)

theorem goodSet_spec (c : Chip) (hn : n < 9) (h6 : c.rxState n = 6) (havg : c.lockThr n + 256 ≤ c.snrAvg n)
    (hgood : c.flag (LRX_STATUS.GOOD n) = false) :
    (c.goodSet n).flag (LRX_STATUS.GOOD n) = true ∧ (c.goodSet n).rxState n = 6 := by
  have hset : c.goodSet n = (c.setFlag (LRX_STATUS.GOOD n) true).snapshot n := by
    unfold Chip.goodSet Chip.locked
    rw [if_pos (by simp [h6, havg, hgood, rxLocked])]
  have hkept := snapshot_kept (c.setFlag (LRX_STATUS.GOOD n) true) hn n
  have hstep : RxStep [LRX_STATUS.GOOD 0] n c (c.setFlag (LRX_STATUS.GOOD n) true) := .setFlag c n (LRX_STATUS.GOOD 0) true rfl (by decide)
  rw [hset, hkept.rxState, hstep.flds.rxState rfl]
  exact ⟨(hkept.flag (LRX_STATUS.GOOD 0) rfl).trans (Chip.flag_setFlag _ _ _ rfl rfl), h6⟩

/-! ### Term sets (R115, R116) -/

theorem setVolt_step (c : Chip) (n v : Nat) : RxStep [LRX_STATUS.VOLT_SET 0] n c (c.setVolt n v) := by
  unfold Chip.setVolt
  refine .trans ?_ (.raise _ n _ _ _)
  exact (RxStep.setFld c n (LRX_STATUS.VOLT_SET 0) v rfl (by decide)).trans (.rxMod _ _ n _ (fun _ h => h))

theorem setVolt_fld (c : Chip) (n : Nat) {v : Nat} (hv : v ≤ 2) : (c.setVolt n v).fld (LRX_STATUS.VOLT_SET n) = v := by
  refine (Chip.rxMod_fld _ n _ _).trans ?_
  rw [Chip.fld_setFld _ _ _ rfl]
  exact Nat.mod_eq_of_lt (show v < 4 by omega)

theorem voltLimit_le (c : Chip) (n : Nat) : c.voltLimit n ≤ 2 := Nat.min_le_left ..

theorem voltTarget_le_voltLimit (c : Chip) (n : Nat) : c.voltTarget n ≤ c.voltLimit n := by
  unfold Chip.voltTarget
  split
  · exact le_refl _
  · exact Nat.min_le_right ..

/-- The receiver of lane `n` at a moment at which a step of its term set is due: no drop is fresh any more. -/
def voltDue (c : Chip) (n : Nat) : Chip := c.rxMod n (fun x => { x with dropFrom := none, stepped := false })

theorem voltDue_step (T : List Fld) (c : Chip) (n : Nat) : RxStep T n c (voltDue c n) := .rxMod T c n _ (fun _ h => h)

theorem voltDue_voltLimit (c : Chip) (n : Nat) : (voltDue c n).voltLimit n = c.voltLimit n := by
  unfold Chip.voltLimit voltDue
  rw [Chip.rxMod_fld]

theorem voltDue_voltTarget (c : Chip) (n : Nat) (hn : n < 9) : (voltDue c n).voltTarget n = c.voltTarget n := by
  have hthermal : ((voltDue c n).rxOf n).thermal = (c.rxOf n).thermal := by
    unfold voltDue
    rw [Chip.rxOf_rxMod _ _ _ hn]
  unfold Chip.voltTarget
  rw [hthermal, voltDue_voltLimit]

/-- R115: a term set above its limit steps down in every state. -/
theorem voltStep_down (c : Chip) (n : Nat) (hst : c.rxState n ≠ 0) (h : c.voltLimit n < c.fld (LRX_STATUS.VOLT_SET n)) :
    c.voltStep n = (voltDue c n).setVolt n (c.fld (LRX_STATUS.VOLT_SET n) - 1) := by
  rw [← voltDue_voltLimit] at h
  unfold Chip.voltStep
  rw [if_neg (show ¬ c.rxState n = rxOff from hst)]
  exact if_pos h

/-- R115: a term set below its target steps up, unless the thermal logic has lowered it. -/
theorem voltStep_up (c : Chip) (n : Nat) (hn : n < 9) (hst : c.rxState n ≠ 0) (h : c.fld (LRX_STATUS.VOLT_SET n) < c.voltTarget n)
    (hlow : (c.rxOf n).thermLow = false) :
    c.voltStep n = ((voltDue c n).setVolt n (c.fld (LRX_STATUS.VOLT_SET n) + 1)).rxMod n (fun x =>
      { x with thermLow := x.thermLow && decide (c.fld (LRX_STATUS.VOLT_SET n) + 1 < (voltDue c n).voltLimit n) }) := by
  have hlimit : ¬ (voltDue c n).voltLimit n < c.fld (LRX_STATUS.VOLT_SET n) := by
    rw [voltDue_voltLimit]
    exact Nat.not_lt.2 (le_trans (Nat.le_of_lt h) (voltTarget_le_voltLimit c n))
  rw [← voltDue_voltTarget c n hn] at h
  unfold Chip.voltStep
  rw [if_neg (show ¬ c.rxState n = rxOff from hst)]
  refine (if_neg hlimit).trans ((if_neg (Nat.not_lt.2 (Nat.le_of_lt h))).trans (if_pos ⟨h, .inl hlow⟩))

theorem voltStep_down_spec (c : Chip) (n : Nat) (hst : c.rxState n ≠ 0) (h : c.voltLimit n < c.fld (LRX_STATUS.VOLT_SET n)) :
    (c.voltStep n).fld (LRX_STATUS.VOLT_SET n) = c.fld (LRX_STATUS.VOLT_SET n) - 1 ∧ (c.voltStep n).rxState n = c.rxState n := by
  have hwidth : c.fld (LRX_STATUS.VOLT_SET n) < 4 := getBits_lt ..
  rw [voltStep_down c n hst h]
  exact ⟨setVolt_fld _ n (by omega), ((voltDue_step _ c n).trans (setVolt_step _ n _)).flds.rxState rfl⟩

theorem voltStep_up_spec (c : Chip) (n : Nat) (hn : n < 9) (hst : c.rxState n ≠ 0) (h : c.fld (LRX_STATUS.VOLT_SET n) < c.voltTarget n)
    (hlow : (c.rxOf n).thermLow = false) : (c.voltStep n).fld (LRX_STATUS.VOLT_SET n) = c.fld (LRX_STATUS.VOLT_SET n) + 1 := by
  have htop : c.fld (LRX_STATUS.VOLT_SET n) + 1 ≤ 2 := le_trans h (le_trans (voltTarget_le_voltLimit c n) (voltLimit_le c n))
  rw [voltStep_up c n hn hst h hlow, Chip.rxMod_fld]
  exact setVolt_fld _ n htop

/-- R116: a thermal drop that costs too much is taken back. -/
theorem voltReturn_spec (c : Chip) (n : Nat) (hn : n < 9) (v : Nat) (hdrop : (c.rxOf n).dropFrom = some v)
    (havg : c.snrAvg n < c.lockThr n + 256) :
    (c.voltReturn n).fld (LRX_STATUS.VOLT_SET n) = min v (c.voltLimit n) ∧ ((c.voltReturn n).rxOf n).refuse = true ∧
      ((c.voltReturn n).rxOf n).dropFrom = none := by
  have htop : min v (c.voltLimit n) ≤ 2 := le_trans (Nat.min_le_right ..) (voltLimit_le c n)
  unfold Chip.voltReturn
  simp only [hdrop, havg, if_true, Chip.rxMod_fld, Chip.rxOf_rxMod _ _ _ hn, and_self, and_true]
  split
  · next h => exact h.symm
  · exact setVolt_fld _ n htop

end

/-! ### The settling theorem -/

/-- Settles O24, a lemma for each window and each loop. -/
theorem lineReceiverLoops : Obligations.LineReceiverLoops := by
  unfold Obligations.LineReceiverLoops
  intro s n hon
  refine ⟨fun snr h3 h5 => ?_, fun a hask hsig h3 h7 => ?_, fun a hsig h7 => ⟨_, rfl, adaptWindow_hold s.chip n.2 a hsig h7⟩, fun a hsig h3 h7 => ?_,
    fun v h3 h7 => ?_, fun h6 havg hgood => ⟨_, rfl, goodSet_spec s.chip n.2 h6 havg hgood⟩,
    fun hst h => ⟨_, rfl, voltStep_down_spec s.chip n.1 hst h⟩, fun hst h hlow => ⟨_, rfl, voltStep_up_spec s.chip n.1 n.2 hst h hlow⟩,
    fun v hdrop havg => ⟨_, rfl, voltReturn_spec s.chip n.1 n.2 v.1 hdrop havg⟩⟩
  · obtain ⟨hwindow, hrest⟩ := snrWindow_spec s.chip n.2 hon snr.1 snr.2 h3 h5
    exact ⟨_, rfl, within_of_rxWindow s _ hwindow, hrest⟩
  · obtain ⟨hwindow, hrest⟩ := adaptWindow_spec s.chip n.2 a hask hsig h3 h7
    exact ⟨_, rfl, within_of_rxWindow s _ hwindow, hrest⟩
  · obtain ⟨hwindow, hres, hadc, hlimit, hclear⟩ := adcUpdate_spec s.chip n.2 a hsig h3 h7
    exact ⟨_, rfl, within_of_rxWindow s _ hwindow, hres, hadc, fun hnew hold => hlimit (adcNew_adcMoved s.chip n.1 a hnew hold), hclear⟩
  · refine ⟨_, rfl, ?_⟩
    change (s.chip.llrUpdate n.1 v.1).regs = s.chip.regs ∧ ((s.chip.llrUpdate n.1 v.1).rxOf n.1).live = _
    rw [llrUpdate_running s.chip n.1 v.1 h3 h7, Chip.rxOf_rxMod _ _ _ n.2]
    exact ⟨Chip.rxMod_regs .., rfl⟩

end Sys2Proof.Machine
end

section
/-! PROOFS. Line receivers: HOLD and the fault logic. -/

namespace Sys2Proof.Machine

/-- Does a substitution wait for lane `n` (R264)? -/
def Chip.awaits (c : Chip) (n : Nat) : Prop := c.plyRx = plySubstWait ∧ c.plyLane = n

/-- From `c` to `d` the receiver of lane `n`, the status of the Ply receiver and the planned substitution stay as they are. -/
structure RxQuiet (n : Nat) (c d : Chip) : Prop where
  kept : RxKept n c d
  status : d.reg TWF_PLY_STATUS.addr = c.reg TWF_PLY_STATUS.addr
  planned : d.ply.planned = c.ply.planned

/-- From `c` to `d` the receiver of lane `n` stays as it is, no substitution is planned, and none begins to wait for the lane. -/
structure RxAside (n : Nat) (c d : Chip) : Prop where
  kept : RxKept n c d
  planned : c.ply.planned = none → d.ply.planned = none
  awaits : d.awaits n → c.awaits n

theorem awaits_of_status {c d : Chip} (h : d.reg TWF_PLY_STATUS.addr = c.reg TWF_PLY_STATUS.addr) (n : Nat) : d.awaits n ↔ c.awaits n := by
  have hfld : ∀ f : Fld, f.addr = TWF_PLY_STATUS.addr → d.fld f = c.fld f := by
    intro f hf
    unfold Chip.fld
    rw [hf, h]
  unfold Chip.awaits Chip.plyRx Chip.plyLane
  rw [hfld _ rfl, hfld _ rfl]

namespace RxQuiet

variable {T : List Fld} {n : Nat} {c d e : Chip}

theorem of (hregs : d.regs = c.regs) (hrx : d.rx = c.rx) (hpd : d.pmu.pd = c.pmu.pd) (hplanned : d.ply.planned = c.ply.planned) : RxQuiet n c d :=
  ⟨.of hregs hrx hpd, Chip.reg_congr hregs _, hplanned⟩

theorem refl (n : Nat) (c : Chip) : RxQuiet n c c := .of rfl rfl rfl rfl

theorem trans (k : RxQuiet n c d) (l : RxQuiet n d e) : RxQuiet n c e :=
  ⟨k.kept.trans l.kept, l.status.trans k.status, l.planned.trans k.planned⟩

theorem ite {p : Prop} [Decidable p] (k : RxQuiet n c d) (l : RxQuiet n c e) : RxQuiet n c (if p then d else e) := by
  split
  · exact k
  · exact l

theorem when (b : Bool) {f : Chip → Chip} (k : RxQuiet n c (f c)) : RxQuiet n c (c.when b f) := .ite k (.refl n c)

theorem forAll {α : Type} (l : List α) (f : Chip → α → Chip) (h : ∀ c, ∀ x ∈ l, RxQuiet n c (f c x)) (c : Chip) : RxQuiet n c (c.forAll l f) := by
  unfold Chip.forAll
  induction l generalizing c with
  | nil => exact .refl n c
  | cons x l ih => exact (h c x (by simp)).trans (ih (fun d y hy => h d y (List.mem_cons_of_mem _ hy)) (f c x))

/-- A field beyond the receivers' windows, and not of the Ply receiver's status. -/
theorem setFld (c : Chip) (f : Fld) (v : Nat) (hn : n < 9) (hf : 0x400000 ≤ f.addr) (hstatus : f.addr ≠ TWF_PLY_STATUS.addr) :
    RxQuiet n c (c.setFld f v) :=
  ⟨.setFld c f v (rxReg_beyond hn hf), Chip.reg_setFld_other c f v _ hstatus.symm, rfl⟩

theorem ofCalm {P : Nat → Bool} (hn : n < 9) (hP : ∀ a, P a = true → settleReg a = true) (k : Calm P c d) : RxQuiet n c d :=
  ⟨.ofCalm hn hP k, k.reg _ (Bool.eq_false_iff.2 (fun h => absurd (hP _ h) (by decide))), congrArg Ply.planned k.ply⟩

theorem settle (hn : n < 9) (c : Chip) : RxQuiet n c c.settle := ofCalm hn (fun _ h => h) (Calm.settle c)

theorem endWait (hn : n < 9) (c : Chip) (p : Wait → Bool) (y : Reply) : RxQuiet n c (c.endWait p y) :=
  ofCalm hn settleReg_of_serve (Calm.endWait c p y)

theorem raise (n : Nat) (c : Chip) (src pay : Nat) : RxQuiet n c (c.raise src pay) := .of rfl rfl rfl rfl

theorem withHnk (n : Nat) (c : Chip) (x) : RxQuiet n c { c with hnk := x } := .of rfl rfl rfl rfl

theorem withPly (n : Nat) (c : Chip) (x) (h : x.planned = c.ply.planned) : RxQuiet n c { c with ply := x } := .of rfl rfl rfl h

/-- An operation on another receiver. -/
theorem ofStep {m : Nat} (k : RxStep T m c d) (hm : m < 9) (hn : n < 9) (hmn : m ≠ n) : RxQuiet n c d :=
  ⟨k.kept hn hmn, k.reg _ (sideReg_plyStatus hm), congrArg Ply.planned k.ply⟩

theorem awaits (k : RxQuiet n c d) : d.awaits n ↔ c.awaits n := awaits_of_status k.status n

theorem plyRx (k : RxQuiet n c d) : d.plyRx = c.plyRx := by
  unfold Chip.plyRx Chip.fld
  rw [show TWF_PLY_STATUS.RX_STATE.addr = TWF_PLY_STATUS.addr from rfl, k.status]

theorem aside (k : RxQuiet n c d) : RxAside n c d := ⟨k.kept, fun h => k.planned.trans h, k.awaits.1⟩

theorem flds (k : RxQuiet n c d) (T : List Fld) : RxFlds T n c d := k.kept.flds T

end RxQuiet

namespace RxAside

variable {n : Nat} {c d e : Chip}

theorem refl (n : Nat) (c : Chip) : RxAside n c c := (RxQuiet.refl n c).aside

theorem trans (k : RxAside n c d) (l : RxAside n d e) : RxAside n c e :=
  ⟨k.kept.trans l.kept, fun h => l.planned (k.planned h), fun h => k.awaits (l.awaits h)⟩

theorem ite {p : Prop} [Decidable p] (k : RxAside n c d) (l : RxAside n c e) : RxAside n c (if p then d else e) := by
  split
  · exact k
  · exact l

end RxAside

theorem RxStep.awaits {T : List Fld} {n m : Nat} {c d : Chip} (k : RxStep T n c d) (hn : n < 9) : d.awaits m ↔ c.awaits m :=
  awaits_of_status (k.reg _ (sideReg_plyStatus hn)) m

theorem RxStep.planned {T : List Fld} {n : Nat} {c d : Chip} (k : RxStep T n c d) : d.ply.planned = c.ply.planned := congrArg Ply.planned k.ply

/-! ### The hank engine -/

section
variable {n : Nat}

theorem hankStatus_quiet (hn : n < 9) (c : Chip) (m lo w v : Nat) : RxQuiet n c (c.setFld ⟨HNK_LANE_STATUS.addr m, lo, w⟩ v) := by
  refine .setFld c _ v hn ?_ ?_ <;> simp only [HNK_LANE_STATUS.addr, TWF_PLY_STATUS.addr] <;> omega

theorem setOutcome_quiet (hn : n < 9) (c : Chip) (m o : Nat) : RxQuiet n c (c.setOutcome m o) := hankStatus_quiet hn c m _ _ o

theorem leaveHold_quiet (n : Nat) (c : Chip) (m : Nat) : RxQuiet n c (c.leaveHold m) := .of rfl rfl rfl rfl

theorem withdrawPages_step (T : List Fld) (c : Chip) (hn : n < 9) : RxStep T n c (c.withdrawPages n) := by
  have hqueue : ∀ x, RxStep T n c { c with hnk := x } := fun _ => .of T n rfl rfl rfl rfl
  unfold Chip.withdrawPages
  exact .ite ((hqueue _).trans (.ofServe T hn (Calm.endWait _ _ _))) (hqueue _)

theorem dropLastGood_quiet (hn : n < 9) (c : Chip) (m : Nat) : RxQuiet n c (c.dropLastGood m) := by
  unfold Chip.dropLastGood
  split
  · exact .refl n c
  · refine .trans ?_ (hankStatus_quiet hn _ m _ _ _)
    refine .trans ?_ (hankStatus_quiet hn _ m _ _ _)
    exact .withHnk n c _

theorem dropActive_quiet (hn : n < 9) (c : Chip) (m : Nat) : RxQuiet n c (c.dropActive m) := by
  unfold Chip.dropActive
  split
  · exact .refl n c
  · refine .trans ?_ (hankStatus_quiet hn _ m _ _ _)
    refine .trans ?_ (hankStatus_quiet hn _ m _ _ _)
    exact .withHnk n c _

theorem dropPins_quiet (hn : n < 9) (c : Chip) (m : Nat) : RxQuiet n c (c.dropPins m) :=
  (dropLastGood_quiet hn c m).trans (dropActive_quiet hn _ m)

theorem flushLane_quiet (hn : n < 9) (c : Chip) (m : Nat) : RxQuiet n c (c.flushLane m).1 :=
  ((dropPins_quiet hn c m).trans (.withHnk n _ _)).trans (.forAll _ _ (fun d _ _ => .withHnk n d _) _)

theorem flushWaiting_quiet (hn : n < 9) (c : Chip) (m : Nat) : RxQuiet n c (c.flushWaiting m) := by
  exact .ite (((RxQuiet.withHnk n c _).trans (flushLane_quiet hn _ m)).trans (.endWait hn _ _ _)) (.refl n c)

theorem queueRestore_quiet (n : Nat) (c : Chip) (m : Nat) : RxQuiet n c (c.queueRestore m) := by
  unfold Chip.queueRestore
  split
  · exact .refl n c
  · exact .ite (.refl n c) (.of rfl rfl rfl rfl)

theorem hankHold_quiet (hn : n < 9) (c : Chip) (m : Nat) : RxQuiet n c (c.hankHold m).1 := by
  unfold Chip.hankHold
  refine (leaveHold_quiet n c m).trans ?_
  dsimp only
  split
  · exact setOutcome_quiet hn _ m 3
  · have htake : RxQuiet n (c.leaveHold m) ((c.leaveHold m).takeHold m) := .of rfl rfl rfl rfl
    refine htake.trans ?_
    split
    · exact .refl n _
    · split
      · exact queueRestore_quiet n _ m
      · exact .refl n _

/-! ### Entry to HOLD -/

/-- The fields that an entry to HOLD writes when the causes and the criteria are dealt with. -/
def holdFlds : List Fld := [LRX_LOCK_CNT.LOSS_CNT 0, LRX_STATUS.HOLD_CAUSE 0, LRX_STATUS.STATE 0]

theorem fld_satInc (c : Chip) (f : Fld) (k : Nat) (hf : f.fits = true) : (c.satInc f k).fld f = min (2 ^ f.w - 1) (c.fld f + k) := by
  unfold Chip.satInc satAdd
  rw [Chip.fld_setFld _ _ _ hf]
  exact Nat.mod_eq_of_lt (lt_of_le_of_lt (Nat.min_le_left ..) (Nat.sub_lt (Nat.two_pow_pos _) Nat.one_pos))

theorem putHold_step (c : Chip) (n : Nat) : RxStep [LRX_STATUS.HOLD_CAUSE 0, LRX_STATUS.STATE 0] n c (c.putHold n) :=
  (RxStep.setFld c n (LRX_STATUS.HOLD_CAUSE 0) _ rfl (by decide)).trans (setRxState_step _ n _ (by decide))

theorem countHold_step (c : Chip) (n : Nat) :
    RxStep holdFlds n c (c.when (decide (c.rxState n ≠ rxHold)) (fun s => (s.satInc (LRX_LOCK_CNT.LOSS_CNT n) 1).triggerCapture n)) := by
  refine .when _ (.trans (.satInc c n (LRX_LOCK_CNT.LOSS_CNT 0) 1 rfl (by decide)) ?_)
  exact .rxMod _ _ n _ (fun _ h => h)

theorem toHold_step (c : Chip) (n : Nat) : RxStep holdFlds n c (c.toHold n) := (countHold_step c n).trans ((putHold_step _ n).mono (by decide))

theorem toHold_rxState (c : Chip) (n : Nat) (hon : c.pdOn (7 + n) = true) : (c.toHold n).rxState n = 7 := by
  refine setRxState_rxState _ n 7 (by decide) (Eq.trans ?_ hon)
  refine RxFlds.pdOn (T := holdFlds) (n := n) ((countHold_step c n).trans ?_).flds (7 + n)
  exact .setFld _ n (LRX_STATUS.HOLD_CAUSE 0) _ rfl (by decide)

theorem toHold_lossCnt (c : Chip) (n : Nat) (hst : c.rxState n ≠ 7) :
    (c.toHold n).fld (LRX_LOCK_CNT.LOSS_CNT n) = min 255 (c.fld (LRX_LOCK_CNT.LOSS_CNT n) + 1) := by
  have hcount : c.toHold n = ((c.satInc (LRX_LOCK_CNT.LOSS_CNT n) 1).triggerCapture n).putHold n := by
    unfold Chip.toHold Chip.when
    rw [if_pos (decide_eq_true (show c.rxState n ≠ rxHold from hst))]
  rw [hcount]
  refine ((putHold_step _ n).flds.fld (LRX_LOCK_CNT.LOSS_CNT 0) rfl rfl).trans ?_
  exact (Chip.rxMod_fld ..).trans (fld_satInc c _ 1 rfl)

/-- The fault bits of the loss criteria. -/
def lossFlds : List Fld := [LRX_FAULT.LOS 0, LRX_FAULT.CDR_UNLOCK 0, LRX_FAULT.SNR_LOSS 0, LRX_FAULT.FRAME_LOSS 0]

theorem lossFlag_onLane (n k : Nat) : lossFlag n k = onLane n (lossFlag 0 k) := by
  unfold lossFlag
  split <;> rfl

theorem lossFlag_mem (k : Nat) : lossFlag 0 k ∈ lossFlds := by
  unfold lossFlag
  split <;> decide

theorem lossFlds_rx {f : Fld} (hf : f ∈ lossFlds) : rxReg 0 f.addr = true ∧ f.fits = true ∧ f.w = 1 := by
  revert f
  decide

theorem lossFaults_step (c : Chip) (n causes : Nat) : RxStep lossFlds n c (c.lossFaults n causes) := by
  unfold Chip.lossFaults
  refine .forAll _ _ (fun d k _ => ?_) c
  rw [lossFlag_onLane]
  exact .setFlag d n _ true (lossFlds_rx (lossFlag_mem k)).1 (lossFlag_mem k)

/-- The criterion of code `k` alone sets its own bit. -/
theorem lossFaults_one (c : Chip) (n : Nat) {k : Nat} (h1 : 1 ≤ k) (h4 : k ≤ 4) : c.lossFaults n (2 ^ k) = c.setFlag (lossFlag n k) true := by
  interval_cases k <;> rfl

theorem flag_lossFaults_one (c : Chip) (n : Nat) {k : Nat} (h1 : 1 ≤ k) (h4 : k ≤ 4) : (c.lossFaults n (2 ^ k)).flag (lossFlag n k) = true := by
  obtain ⟨_, hfits, hw⟩ := lossFlds_rx (lossFlag_mem k)
  rw [lossFaults_one c n h1 h4]
  refine Chip.flag_setFlag c _ true ?_ ?_
  · rw [lossFlag_onLane]
    exact hfits
  · rw [lossFlag_onLane]
    exact hw

/-- The fields that an entry to HOLD writes between the fault bits and LOSS_CNT. -/
def criteriaFlds : List Fld := [LRX_STATUS.GOOD 0, LRX_STATUS.CDR_LOCK 0, LRX_STATUS.EQ_CONV 0, LRX_STATUS.FRAME_LOCK 0]

/-- An entry to HOLD deals with the faults, then with the criteria and GOOD, and ends with `toHold`. -/
theorem enterHold_eq (c : Chip) (hn : n < 9) (causes : Nat) :
    ∃ d, RxStep criteriaFlds n (c.lossFaults n causes) d ∧ d.flag (LRX_STATUS.GOOD n) = false ∧ c.enterHold n causes = d.toHold n := by
  unfold Chip.enterHold
  refine ⟨_, .trans ?_ (clearGood_step _ n (by decide)), clearGood_good _ n, rfl⟩
  refine .trans ?_ (.when _ (withdrawPages_step _ _ hn))
  refine .trans ?_ (.when _ (loseFrame_step _ hn (by decide)))
  refine .trans ?_ (.when _ (.setFlag _ n (LRX_STATUS.EQ_CONV 0) false rfl (by decide)))
  refine .trans ?_ (.when _ (.setFlag _ n (LRX_STATUS.CDR_LOCK 0) false rfl (by decide)))
  exact .rxMod _ _ n _ (fun _ _ => rfl)

/-- The fields that an entry to HOLD writes. -/
def enterFlds : List Fld := lossFlds ++ criteriaFlds ++ holdFlds

theorem enterHold_step (c : Chip) (hn : n < 9) (causes : Nat) : RxStep enterFlds n c (c.enterHold n causes) := by
  obtain ⟨d, hstep, -, heq⟩ := enterHold_eq c hn causes
  rw [heq]
  exact ((lossFaults_step c n causes).mono (by decide)).trans ((hstep.mono (by decide)).trans ((toHold_step d n).mono (by decide)))

/-- R124, R129: a lane enters HOLD for the criterion of code `k`. -/
theorem enterHold_spec (c : Chip) (hn : n < 9) {k : Nat} (h1 : 1 ≤ k) (h4 : k ≤ 4) (hon : c.pdOn (7 + n) = true) (hst : c.rxState n ≠ 7) :
    (c.enterHold n (2 ^ k)).flag (lossFlag n k) = true ∧ (c.enterHold n (2 ^ k)).flag (LRX_STATUS.GOOD n) = false ∧
      (c.enterHold n (2 ^ k)).rxState n = 7 ∧
      (c.enterHold n (2 ^ k)).fld (LRX_LOCK_CNT.LOSS_CNT n) = min 255 (c.fld (LRX_LOCK_CNT.LOSS_CNT n) + 1) := by
  obtain ⟨d, hstep, hgood, heq⟩ := enterHold_eq c hn (2 ^ k)
  have hfaults := lossFaults_step c n (2 ^ k)
  have hcnt : d.fld (LRX_LOCK_CNT.LOSS_CNT n) = c.fld (LRX_LOCK_CNT.LOSS_CNT n) :=
    (hstep.flds.fld (LRX_LOCK_CNT.LOSS_CNT 0) rfl rfl).trans (hfaults.flds.fld (LRX_LOCK_CNT.LOSS_CNT 0) rfl rfl)
  have hd : d.rxState n = c.rxState n := (hstep.flds.rxState rfl).trans (hfaults.flds.rxState rfl)
  have hloss : ∀ f ∈ lossFlds, (criteriaFlds ++ holdFlds).all (fun g => g.apart f) = true := by decide
  have hlate := (hstep.mono (List.subset_append_left criteriaFlds holdFlds)).trans ((toHold_step d n).mono (List.subset_append_right _ _))
  rw [heq]
  refine ⟨?_, ?_, toHold_rxState d n ?_, ?_⟩
  · have hflag := flag_lossFaults_one c n h1 h4
    rw [lossFlag_onLane] at hflag ⊢
    exact (hlate.flds.flag _ (lossFlds_rx (lossFlag_mem k)).1 (hloss _ (lossFlag_mem k))).trans hflag
  · exact ((toHold_step d n).flds.flag (LRX_STATUS.GOOD 0) rfl rfl).trans hgood
  · exact (hstep.flds.pdOn _).trans ((hfaults.flds.pdOn _).trans hon)
  · rw [toHold_lossCnt d n (by rw [hd]; exact hst), hcnt]

/-! ### The Ply receiver -/

theorem setPlyRx_plyRx (c : Chip) {st : Nat} (hst : st < 8) : (c.setPlyRx st).plyRx = st :=
  (Chip.fld_setFld c TWF_PLY_STATUS.RX_STATE st rfl).trans (Nat.mod_eq_of_lt hst)

theorem setPlyRx_kept (hn : n < 9) (c : Chip) (st : Nat) : RxKept n c (c.setPlyRx st) := .setFld c _ st (rxReg_beyond hn (by decide))

theorem setPlyRx_aside (hn : n < 9) (c : Chip) {st : Nat} (hst : st < 8) (hwait : st ≠ plySubstWait) : RxAside n c (c.setPlyRx st) :=
  ⟨setPlyRx_kept hn c st, id, fun h => absurd ((setPlyRx_plyRx c hst).symm.trans h.1) hwait⟩

/-- L8's pins released where `b` holds. -/
theorem releasePins_quiet (hn : n < 9) (c : Chip) (b : Bool) : RxQuiet n c (c.when b (fun s => s.dropPins 8)) := .when b (dropPins_quiet hn c 8)

theorem RxKept.withPly (c : Chip) (x) : RxKept n c { c with ply := x } := .of rfl rfl rfl

theorem request_kept (hn : n < 9) (c : Chip) (m : Nat) (ply : Bool) : RxKept n c (c.request m ply) := by
  unfold Chip.request
  refine .trans ?_ (.withPly _ _)
  refine .trans ?_ (.setFld _ TWF_PLY_STATUS.RX_LANE m (rxReg_beyond hn (by decide)))
  exact (releasePins_quiet hn c _).kept

theorem request_planned (c : Chip) (m : Nat) (ply : Bool) : (c.request m ply).ply.planned = c.ply.planned :=
  (releasePins_quiet (n := 0) (by decide) c (decide (c.plyLane ≠ m) && decide (c.plyLane ≠ noLane))).planned

theorem setPaired_quiet (hn : n < 9) (c : Chip) (p : Option Nat) : RxQuiet n c (c.setPaired p) := by
  have hlane : ∀ (d : Chip) (m : Nat) (b : Bool), m ∈ List.range 8 → RxQuiet n d (d.setFlag (CRL_LANE_STATUS.PAIRED m) b) := by
    intro d m b hm
    have hrange := List.mem_range.1 hm
    refine .setFld d _ _ hn ?_ ?_ <;> simp only [CRL_LANE_STATUS.PAIRED, CRL_LANE_STATUS.addr, TWF_PLY_STATUS.addr] <;> omega
  have hcrl : ∀ (d : Chip) (x), RxQuiet n d { d with crl := x } := fun _ _ => .of rfl rfl rfl rfl
  have hflags := RxQuiet.forAll (List.range 8) (fun s m => s.setFlag (CRL_LANE_STATUS.PAIRED m) (decide (p = some m)))
    (fun d m hm => hlane d m _ hm) c
  unfold Chip.setPaired
  dsimp only
  refine .trans ?_ (hcrl _ _)
  cases p with
  | some m => exact hflags.trans (RxQuiet.setFld _ (CRL_LANE_CFG.DEADLINE 8) _ hn (by decide) (by decide))
  | none => exact hflags

theorem plyUnavailable_quiet (hn : n < 9) (c : Chip) (m : Nat) : RxQuiet n c (c.plyUnavailable m) := by
  unfold Chip.plyUnavailable
  refine .trans ?_ (.raise n _ _ _)
  refine .trans ?_ (.withPly n _ _ rfl)
  exact .setFld c TWF_PLY_CNT.UNAVAIL_CNT _ hn (by decide) (by decide)

/-! ### Commit (R264 to R266) -/

/-- The Ply lane's part of a commit. -/
def commitRequested (c : Chip) (n : Nat) : Chip :=
  let s := ((c.setPaired none).request n true).setPlyRx plySubst
  let s := { s with pmu := { s.pmu with failed := setBitN s.pmu.failed n } }
  (s.setFldBit TWF_LANE_FAILED.FAILED n true).satInc TWF_PLY_CNT.SUBST_CNT 1

/-- The receiver's part of a commit. -/
def commitHeld (c : Chip) (n : Nat) : Chip :=
  let s := ((c.leaveHold n).withdrawPages n).clearGood n
  if s.rxState n = rxHold then s else (s.rxMod n (fun x => { x with cause := 0, window := none })).toHold n

/-- The ports' part of a commit, and its end. -/
def commitDone (c : Chip) (n : Nat) : Chip :=
  let s := c.forAll (c.portsOn n) (fun s p => s.portMod p (fun x => { x with realign := decide (x.st = .fault) }))
  let s := { s with ply := { s.ply with
    waitRestore := s.ply.waitRestore.filter (fun x => x != n)
    unavail := s.ply.unavail.filter (fun x => x != n)
    lost := s.ply.lost.filter (fun x => x != n)
    planned := if s.ply.planned = some n then none else s.ply.planned } }
  let s := (s.raise (0x1A0 + n) 0).flushWaiting n
  s.endWait (fun w => decide (w = .plySubst n)) (.okR (leBytes 4 (s.portMap (s.portOfLane n)).toNat))

theorem commitSubst_eq (c : Chip) (n : Nat) : c.commitSubst n = commitDone (commitHeld (commitRequested c n) n) n := by
  unfold Chip.commitSubst commitDone commitHeld commitRequested
  rfl

theorem commitRequested_kept (hn : n < 9) (c : Chip) (m : Nat) : RxKept n c (commitRequested c m) := by
  have hpmu : ∀ (d : Chip) (x : Nat), RxKept n d { d with pmu := { d.pmu with failed := x } } := fun _ _ => .of rfl rfl rfl
  unfold commitRequested
  refine .trans ?_ (.setFld _ TWF_PLY_CNT.SUBST_CNT _ (rxReg_beyond hn (by decide)))
  refine .trans ?_ (.setFld _ TWF_LANE_FAILED.FAILED _ (rxReg_beyond hn (by decide)))
  refine .trans ?_ (hpmu _ _)
  exact ((setPaired_quiet hn c none).kept.trans (request_kept hn _ m true)).trans (setPlyRx_kept hn _ _)

theorem commitRequested_plyRx (c : Chip) (m : Nat) : (commitRequested c m).plyRx = plySubst := by
  unfold commitRequested
  refine (Chip.fld_setFld_other _ TWF_PLY_CNT.SUBST_CNT _ _ (by decide)).trans ?_
  refine (Chip.fld_setFld_other _ TWF_LANE_FAILED.FAILED _ _ (by decide)).trans ?_
  exact setPlyRx_plyRx _ (by decide)

theorem commitRequested_planned (c : Chip) (m : Nat) : (commitRequested c m).ply.planned = c.ply.planned := by
  have hply : (commitRequested c m).ply = ((c.setPaired none).request m true).ply := by
    unfold commitRequested Chip.setPlyRx Chip.setFldBit
    simp only [Chip.satInc_ply, Chip.setFld_ply]
  rw [hply, request_planned]
  exact (setPaired_quiet (n := 0) (by decide) c none).planned

/-- The fields that a commit writes. -/
def commitFlds : List Fld := LRX_STATUS.GOOD 0 :: holdFlds

/-- What a commit clears of a receiver before it looks at its state. -/
theorem commitClear_step (c : Chip) (hn : n < 9) :
    RxStep [LRX_STATUS.GOOD 0] n c (((c.leaveHold n).withdrawPages n).clearGood n) :=
  .trans (.trans (leaveHold_step _ c n) (withdrawPages_step _ _ hn)) (clearGood_step _ n (by decide))

theorem commitHeld_step (c : Chip) (hn : n < 9) : RxStep commitFlds n c (commitHeld c n) := by
  have hclear := (commitClear_step c hn).mono (U := commitFlds) (by decide)
  unfold commitHeld
  exact .ite hclear (hclear.trans (.trans (.rxMod _ _ n _ (fun _ _ => rfl)) ((toHold_step _ n).mono (by decide))))

/-- A lane that stands in HOLD is left there. -/
theorem commitHeld_hold (c : Chip) (hn : n < 9) (h7 : c.rxState n = 7) :
    commitHeld c n = ((c.leaveHold n).withdrawPages n).clearGood n :=
  if_pos (((commitClear_step c hn).flds.rxState rfl).trans h7)

theorem commitHeld_rxState (c : Chip) (hn : n < 9) (hon : c.pdOn (7 + n) = true) : (commitHeld c n).rxState n = 7 := by
  unfold commitHeld
  dsimp only
  split
  · next h => exact h
  · refine toHold_rxState _ n (Eq.trans (RxFlds.pdOn (T := [LRX_STATUS.GOOD 0]) (n := n) ?_ _) hon)
    exact ((commitClear_step c hn).trans (.rxMod _ _ n _ (fun _ _ => rfl))).flds

theorem commitHeld_good (c : Chip) (n : Nat) : (commitHeld c n).flag (LRX_STATUS.GOOD n) = false := by
  unfold commitHeld
  dsimp only
  split
  · exact clearGood_good _ n
  · refine ((toHold_step _ n).flds.flag (LRX_STATUS.GOOD 0) rfl rfl).trans ?_
    exact (Chip.rxMod_flag ..).trans (clearGood_good _ n)

theorem realign_quiet (n : Nat) (c : Chip) (l : List Nat) :
    RxQuiet n c (c.forAll l (fun s p => s.portMod p (fun x => { x with realign := decide (x.st = .fault) }))) :=
  .forAll _ _ (fun _ _ _ => .of (Chip.portMod_regs ..) (Chip.portMod_rx ..) (by rw [Chip.portMod_pmu]) (by rw [Chip.portMod_ply])) c

theorem commitDone_kept (hn : n < 9) (c : Chip) (m : Nat) : RxKept n c (commitDone c m) ∧ (commitDone c m).plyRx = c.plyRx := by
  have hports := realign_quiet n c (c.portsOn m)
  have hply : ∀ d : Chip, RxQuiet n d ((d.raise (0x1A0 + m) 0).flushWaiting m) := fun d => (RxQuiet.raise n d _ _).trans (flushWaiting_quiet hn _ m)
  unfold commitDone
  refine ⟨.trans (.trans (.trans hports.kept (.withPly _ _)) (hply _).kept) (RxKept.endWait hn _ _ _), ?_⟩
  refine (RxQuiet.endWait hn _ _ _).plyRx.trans ((hply _).plyRx.trans ?_)
  exact hports.plyRx

theorem commitDone_planned (c : Chip) (m : Nat) (h : c.ply.planned = none) : (commitDone c m).ply.planned = none := by
  have hn : 0 < 9 := by decide
  unfold commitDone
  refine (RxQuiet.endWait hn _ _ _).planned.trans ((flushWaiting_quiet hn _ m).planned.trans ((RxQuiet.raise 0 _ _ _).planned.trans ?_))
  have hports := (realign_quiet 0 c (c.portsOn m)).planned.trans h
  dsimp only
  rw [hports]
  rfl

theorem commitSubst_planned (c : Chip) {m : Nat} (hm : m < 9) (h : c.ply.planned = none) : (c.commitSubst m).ply.planned = none := by
  rw [commitSubst_eq]
  exact commitDone_planned _ m ((commitHeld_step _ hm).planned.trans ((commitRequested_planned c m).trans h))

theorem commitSubst_plyRx (c : Chip) {m : Nat} (hm : m < 9) : (c.commitSubst m).plyRx = plySubst := by
  rw [commitSubst_eq]
  exact (commitDone_kept (n := 0) (by decide) _ m).2.trans (((commitHeld_step _ hm).plyRx hm).trans (commitRequested_plyRx c m))

theorem commitSubst_not_awaits (c : Chip) {m : Nat} (hm : m < 9) (k : Nat) : ¬ (c.commitSubst m).awaits k :=
  fun h => absurd ((commitSubst_plyRx c hm).symm.trans h.1) (by decide)

/-- The commit of another lane. -/
theorem commitSubst_aside (hn : n < 9) (c : Chip) {m : Nat} (hm : m < 9) (hmn : m ≠ n) : RxAside n c (c.commitSubst m) where
  kept := by
    rw [commitSubst_eq]
    exact ((commitRequested_kept hn c m).trans ((commitHeld_step _ hm).kept hn hmn)).trans (commitDone_kept hn _ m).1
  planned := commitSubst_planned c hm
  awaits h := absurd h (commitSubst_not_awaits c hm n)

theorem commitSubst_flds (c : Chip) (hn : n < 9) : RxFlds commitFlds n c (c.commitSubst n) := by
  rw [commitSubst_eq]
  exact (((commitRequested_kept hn c n).flds _).trans (commitHeld_step _ hn).flds).trans ((commitDone_kept hn _ n).1.flds _)

theorem commitSubst_flds_hold (c : Chip) (hn : n < 9) (h7 : c.rxState n = 7) : RxFlds [LRX_STATUS.GOOD 0] n c (c.commitSubst n) := by
  have hrequested := commitRequested_kept hn c n
  rw [commitSubst_eq, commitHeld_hold _ hn (hrequested.rxState.trans h7)]
  exact ((hrequested.flds _).trans (commitClear_step _ hn).flds).trans ((commitDone_kept hn _ n).1.flds _)

theorem commitSubst_rxState (c : Chip) (hn : n < 9) (hon : c.pdOn (7 + n) = true) : (c.commitSubst n).rxState n = 7 := by
  rw [commitSubst_eq]
  exact (commitDone_kept hn _ n).1.rxState.trans (commitHeld_rxState _ hn ((pdOn_of_pd (commitRequested_kept hn c n).pd _).trans hon))

theorem commitSubst_good (c : Chip) (hn : n < 9) : (c.commitSubst n).flag (LRX_STATUS.GOOD n) = false := by
  rw [commitSubst_eq]
  exact ((commitDone_kept hn _ n).1.flag (LRX_STATUS.GOOD 0) rfl).trans (commitHeld_good _ n)

/-! ### Pairing (R262) -/

theorem endPairing_aside (hn : n < 9) (c : Chip) : RxAside n c c.endPairing := by
  unfold Chip.endPairing
  split
  · exact .refl n c
  · refine .ite (.refl n c) (.trans (setPaired_quiet hn c none).aside ?_)
    exact .ite (setPlyRx_aside hn _ (by decide) (by decide)) (.refl n _)

theorem mayPair_lt {c : Chip} {m : Nat} (h : c.mayPair m = true) : m < 8 := by
  simp only [Chip.mayPair, Chip.twistPort, Bool.and_eq_true, decide_eq_true_eq] at h
  obtain ⟨⟨⟨_, hm, _⟩, _⟩, _⟩ := h
  exact hm

theorem mayPair_substWait {c : Chip} {m : Nat} (h : c.mayPair m = true) (hwait : c.plyRx = plySubstWait) : c.awaits m := by
  simp only [Chip.mayPair, hwait, if_true, Bool.and_eq_true, beq_iff_eq] at h
  exact ⟨hwait, h.2⟩

theorem startPairing_cases (hn : n < 9) (c : Chip) : RxAside n c c.startPairing ∨
    ∃ u, RxAside n c u ∧ c.startPairing = u.commitSubst n ∧ (c.awaits n ∨ c.ply.planned = some n) := by
  unfold Chip.startPairing
  split
  case h_2 => exact .inl (.refl n c)
  case h_1 m _ _ =>
  split
  case isFalse => exact .inl (.refl n c)
  case isTrue hpair =>
  have hquiet := setPaired_quiet hn c (some m)
  have hm : m < 9 := Nat.lt_succ_of_lt (mayPair_lt hpair)
  have hcommit : (m = n → c.awaits n ∨ c.ply.planned = some n) → RxAside n c ((c.setPaired (some m)).commitSubst m) ∨
      ∃ u, RxAside n c u ∧ (c.setPaired (some m)).commitSubst m = u.commitSubst n ∧ (c.awaits n ∨ c.ply.planned = some n) := by
    intro hwhy
    by_cases hmn : m = n
    · exact .inr ⟨_, hquiet.aside, by rw [hmn], hwhy hmn⟩
    · exact .inl (hquiet.aside.trans (commitSubst_aside hn _ hm hmn))
  dsimp only
  split
  case isTrue hwait => exact hcommit (fun hmn => .inl (hmn ▸ mayPair_substWait hpair (hquiet.plyRx.symm.trans hwait)))
  case isFalse =>
  split
  case isTrue hplanned =>
    simp only [Bool.and_eq_true, decide_eq_true_eq] at hplanned
    exact hcommit (fun hmn => .inr (hmn ▸ hquiet.planned.symm.trans hplanned.1))
  case isFalse => exact .inl (.ite (hquiet.aside.trans (setPlyRx_aside hn _ (by decide) (by decide))) hquiet.aside)

/-- Pairing leaves the receiver of lane `n`, or commits it: a substitution waits for it or is planned. -/
theorem evalPairing_cases (hn : n < 9) (c : Chip) : RxAside n c c.evalPairing ∨
    ∃ u, RxAside n c u ∧ c.evalPairing = u.commitSubst n ∧ (c.awaits n ∨ c.endPairing.ply.planned = some n) := by
  have hend := endPairing_aside hn c
  rw [Chip.evalPairing_eq]
  rcases startPairing_cases hn c.endPairing with hstart | ⟨u, hu, heq, hwhy⟩
  · exact .inl (hend.trans hstart)
  · exact .inr ⟨u, hend.trans hu, heq, hwhy.imp_left hend.awaits⟩

theorem evalPairing_unplanned (hn : n < 9) (c : Chip) (h : c.ply.planned = none) : RxAside n c c.evalPairing ∨
    ∃ u, RxAside n c u ∧ c.evalPairing = u.commitSubst n ∧ c.awaits n := by
  refine (evalPairing_cases hn c).imp_right (fun ⟨u, hu, heq, hwhy⟩ => ⟨u, hu, heq, hwhy.resolve_right (fun hplanned => ?_)⟩)
  rw [(endPairing_aside hn c).planned h] at hplanned
  cases hplanned

theorem evalPairing_flds (hn : n < 9) (c : Chip) : RxFlds commitFlds n c c.evalPairing := by
  rcases evalPairing_cases hn c with hkept | ⟨u, hu, heq, -⟩
  · exact hkept.kept.flds _
  · rw [heq]
    exact (hu.kept.flds _).trans (commitSubst_flds u hn)

end

end Sys2Proof.Machine
end

section
/-! PROOFS. Line receivers: the states. -/

namespace Sys2Proof.Machine

/-! ### A lane that has lost lock -/

/-- The fields that the fault logic may write once a lane has entered HOLD. -/
def fallFlds : List Fld := LRX_STATUS.GOOD 0 :: LRX_LOCK_CNT.LOSS_CNT 0 :: relearnFlds

/-- From `b`, where lane `n` has entered HOLD, to `d` it has stayed there, and none has begun to wait for it. -/
structure RxHeld (n : Nat) (b d : Chip) : Prop where
  flds : RxFlds [LRX_STATUS.GOOD 0] n b d
  good : d.flag (LRX_STATUS.GOOD n) = false
  planned : d.ply.planned = none
  awaits : d.awaits n → b.awaits n

/-- From `b`, where lane `n` has entered HOLD, to `d` it has stayed there or started to retrain; unless a substitution waited for it in
`b`, it has not entered HOLD anew, and none waits for it when it retrains. -/
structure RxFell (n : Nat) (b d : Chip) : Prop where
  flds : RxFlds fallFlds n b d
  good : d.flag (LRX_STATUS.GOOD n) = false
  planned : d.ply.planned = none
  state : d.rxState n = 7 ∨ d.rxState n = 1
  count : ¬ b.awaits n → d.fld (LRX_LOCK_CNT.LOSS_CNT n) = b.fld (LRX_LOCK_CNT.LOSS_CNT n) ∧ (d.rxState n = 7 ∨ ¬ d.awaits n)

theorem pdOn_of_rxState {c : Chip} {n : Nat} (h : c.rxState n ≠ 0) : c.pdOn (7 + n) = true := by
  by_contra hoff
  refine h ?_
  unfold Chip.rxState
  rw [if_neg hoff]
  rfl

section
variable {n : Nat} {b d e : Chip}

theorem RxHeld.rxState (k : RxHeld n b d) (h7 : b.rxState n = 7) : d.rxState n = 7 := (k.flds.rxState rfl).trans h7

theorem RxHeld.aside (k : RxHeld n b d) (l : RxAside n d e) : RxHeld n b e :=
  ⟨k.flds.trans (l.kept.flds _), (l.kept.flag (LRX_STATUS.GOOD 0) rfl).trans k.good, l.planned k.planned, fun h => k.awaits (l.awaits h)⟩

theorem RxHeld.commit (k : RxHeld n b d) (hn : n < 9) (h7 : b.rxState n = 7) : RxHeld n b (d.commitSubst n) :=
  ⟨k.flds.trans (commitSubst_flds_hold d hn (k.rxState h7)), commitSubst_good d hn, commitSubst_planned d hn k.planned,
    fun h => absurd h (commitSubst_not_awaits d hn n)⟩

theorem RxHeld.evalPairing (k : RxHeld n b d) (hn : n < 9) (h7 : b.rxState n = 7) : RxHeld n b d.evalPairing := by
  rcases evalPairing_unplanned hn d k.planned with haside | ⟨u, hu, heq, -⟩
  · exact k.aside haside
  · rw [heq]
    exact (k.aside hu).commit hn h7

theorem RxHeld.fell (k : RxHeld n b d) (h7 : b.rxState n = 7) : RxFell n b d :=
  ⟨k.flds.mono (by decide), k.good, k.planned, .inl (k.rxState h7), fun _ => ⟨k.flds.fld (LRX_LOCK_CNT.LOSS_CNT 0) rfl rfl, .inl (k.rxState h7)⟩⟩

theorem RxFell.aside (k : RxFell n b d) (l : RxAside n d e) : RxFell n b e where
  flds := k.flds.trans (l.kept.flds _)
  good := (l.kept.flag (LRX_STATUS.GOOD 0) rfl).trans k.good
  planned := l.planned k.planned
  state := by
    rw [l.kept.rxState]
    exact k.state
  count hb := by
    obtain ⟨hcnt, hstate⟩ := k.count hb
    refine ⟨(l.kept.fld (LRX_LOCK_CNT.LOSS_CNT 0) rfl).trans hcnt, hstate.imp (fun h => ?_) (fun h ha => h (l.awaits ha))⟩
    rw [l.kept.rxState, h]

/-- A commit counts no second loss where the lane is in HOLD. -/
theorem RxFell.commit (k : RxFell n b d) (hn : n < 9) (hon : b.pdOn (7 + n) = true) (hwhy : b.awaits n ∨ d.rxState n = 7) :
    RxFell n b (d.commitSubst n) where
  flds := k.flds.trans ((commitSubst_flds d hn).mono (by decide))
  good := commitSubst_good d hn
  planned := commitSubst_planned d hn k.planned
  state := .inl (commitSubst_rxState d hn ((k.flds.pdOn _).trans hon))
  count hb := by
    have h7 := hwhy.resolve_left hb
    refine ⟨?_, .inl (commitSubst_rxState d hn ((k.flds.pdOn _).trans hon))⟩
    exact ((commitSubst_flds_hold d hn h7).fld (LRX_LOCK_CNT.LOSS_CNT 0) rfl rfl).trans (k.count hb).1

theorem RxFell.evalPairing (k : RxFell n b d) (hn : n < 9) (hon : b.pdOn (7 + n) = true) : RxFell n b d.evalPairing := by
  rcases evalPairing_unplanned hn d k.planned with haside | ⟨u, hu, heq, hwait⟩
  · exact k.aside haside
  · rw [heq]
    refine (k.aside hu).commit hn hon ?_
    by_cases hb : b.awaits n
    · exact .inl hb
    · refine .inr (hu.kept.rxState.trans ((k.count hb).2.resolve_right (fun h => h hwait)))

/-- A retrain of a lane for which nothing waits. -/
theorem RxFell.retrainHeld (k : RxFell n b d) (hn : n < 9) (hwait : d.awaits n → b.awaits n) : RxFell n b (d.retrainHeld n) := by
  unfold Chip.retrainHeld
  split
  · next h =>
    have hon : d.pdOn (7 + n) = true := pdOn_of_rxState (by rw [h.1]; decide)
    have hstep := retrain_step d hn
    refine ⟨k.flds.trans (hstep.flds.mono (by decide)), retrain_good d hn, hstep.planned.trans k.planned, .inr (retrain_rxState d hn hon),
      fun hb => ⟨?_, .inr (fun ha => hb (hwait ((hstep.awaits hn).1 ha)))⟩⟩
    exact (hstep.flds.fld (LRX_LOCK_CNT.LOSS_CNT 0) rfl rfl).trans (k.count hb).1
  · exact k

theorem RxFell.requestSubst (k : RxFell n b d) (hn : n < 9) (hon : b.pdOn (7 + n) = true) (h7 : d.rxState n = 7) :
    RxFell n b (d.requestSubst n) := by
  unfold Chip.requestSubst
  refine RxFell.evalPairing ?_ hn hon
  have hkept : ∀ x : Ply, RxKept n d (({ d with ply := x }.request n true).setPlyRx plySubstWait) :=
    fun x => ((RxKept.withPly d x).trans (request_kept hn _ n true)).trans (setPlyRx_kept hn _ _)
  have hstate : ∀ x : Ply, (({ d with ply := x }.request n true).setPlyRx plySubstWait).rxState n = 7 := fun x => (hkept x).rxState.trans h7
  have hplanned : ∀ x : Ply, x.planned = d.ply.planned → (({ d with ply := x }.request n true).setPlyRx plySubstWait).ply.planned = none := by
    intro x hx
    unfold Chip.setPlyRx
    rw [Chip.setFld_ply, request_planned]
    exact hx.trans k.planned
  exact ⟨k.flds.trans ((hkept _).flds _), ((hkept _).flag (LRX_STATUS.GOOD 0) rfl).trans k.good, hplanned _ rfl,
    .inl (hstate _), fun hb => ⟨((hkept _).fld (LRX_LOCK_CNT.LOSS_CNT 0) rfl).trans (k.count hb).1, .inl (hstate _)⟩⟩

/-- What is decided for a lane in HOLD: a restore, a substitution or a retrain. -/
theorem RxHeld.decideHold (k : RxHeld n b d) (hn : n < 9) (h7 : b.rxState n = 7) : RxFell n b (d.decideHold n) := by
  have hon : b.pdOn (7 + n) = true := pdOn_of_rxState (by rw [h7]; decide)
  have hk := k.aside (hankHold_quiet hn d n).aside
  have hun := hk.aside (plyUnavailable_quiet hn _ n).aside
  have hrequest := (hk.fell h7).requestSubst hn hon (hk.rxState h7)
  have hretrain : ∀ {f : Chip}, RxHeld n b f → RxFell n b (f.retrainHeld n) := fun l => (l.fell h7).retrainHeld hn l.awaits
  have hfell : ∀ {p : Prop} [Decidable p] {x y : Chip}, RxFell n b x → RxFell n b y → RxFell n b (if p then x else y) := by
    intro p _ x y hx hy
    split
    · exact hx
    · exact hy
  have hrestore : RxAside n (d.hankHold n).1 { (d.hankHold n).1 with ply := { (d.hankHold n).1.ply with
      waitRestore := (d.hankHold n).1.ply.waitRestore ++ [n] } } :=
    (RxQuiet.withPly n (d.hankHold n).1 { (d.hankHold n).1.ply with waitRestore := (d.hankHold n).1.ply.waitRestore ++ [n] } rfl).aside
  unfold Chip.decideHold
  refine hfell (hfell (hfell hrequest (hfell ((hk.fell h7).aside hrestore) hrequest)) ?_) ?_
  · exact hfell (hun.fell h7) (hretrain hun)
  · exact hfell (hk.fell h7) (hretrain hk)

/-- L8_LOCKED beside another change of the fault logic's state. -/
theorem l8Locked_aside (hn : n < 9) (c : Chip) (v : Bool) (x : Ply) (hx : x.planned = c.ply.planned) :
    RxAside n c { c.setFlag TWF_PLY_STATUS.L8_LOCKED v with ply := x } := by
  have hflag : RxAside n c (c.setFlag TWF_PLY_STATUS.L8_LOCKED v) := by
    refine ⟨.setFld c _ _ (rxReg_beyond hn (by decide)), id, fun h => ⟨Eq.trans ?_ h.1, Eq.trans ?_ h.2⟩⟩
    · exact (Chip.fld_setFld_other c TWF_PLY_STATUS.L8_LOCKED TWF_PLY_STATUS.RX_STATE _ rfl).symm
    · exact (Chip.fld_setFld_other c TWF_PLY_STATUS.L8_LOCKED TWF_PLY_STATUS.RX_LANE _ rfl).symm
  exact hflag.trans (RxQuiet.withPly n (c.setFlag TWF_PLY_STATUS.L8_LOCKED v) x hx).aside

theorem RxHeld.l8Left (k : RxHeld n b d) (hn : n < 9) (h7 : b.rxState n = 7) : RxHeld n b d.l8Left := by
  unfold Chip.l8Left
  have hpaired := (k.aside (l8Locked_aside hn d false { d.ply with farLane := none } rfl)).evalPairing hn h7
  exact hpaired.aside (.ite (setPlyRx_aside hn _ (by decide) (by decide)) (.refl n _))

/-! ### The loss of one criterion (R124, R125) -/

/-- What a lane's entry to HOLD brings with it before anything is decided: L8 no longer serves, or a lane paired with it commits. -/
def afterEntry (c : Chip) (n causes : Nat) : Chip :=
  if n = 8 then (c.enterHold 8 causes).l8Left
  else match (c.enterHold n causes).crl.paired with
    | some m => if m = n ∧ (c.enterHold n causes).flag TWF_PLY_CFG.SUBST_EN = true then (c.enterHold n causes).commitSubst m else c.enterHold n causes
    | none => c.enterHold n causes

theorem afterEntry_held (c : Chip) (hn : n < 9) (causes : Nat) (hplanned : c.ply.planned = none)
    (hgood : (c.enterHold n causes).flag (LRX_STATUS.GOOD n) = false) (h7 : (c.enterHold n causes).rxState n = 7) :
    RxHeld n (c.enterHold n causes) (afterEntry c n causes) := by
  have hheld : RxHeld n (c.enterHold n causes) (c.enterHold n causes) :=
    ⟨.refl _ n _, hgood, (enterHold_step c hn causes).planned.trans hplanned, id⟩
  unfold afterEntry
  split
  · next h8 =>
    subst h8
    exact hheld.l8Left hn h7
  · split
    · next m _ =>
      split
      · next h =>
        rw [h.1]
        exact hheld.commit hn h7
      · exact hheld
    · exact hheld

/-- The faults of the other lanes, of which none is met. -/
theorem otherFaults_quiet (hn : n < 9) (c : Chip) (causes : Nat → Nat) :
    RxQuiet n c (c.forAll (List.range 9) (fun s m => if [n].contains m then s else s.lossFaults m (causes m))) := by
  refine .forAll _ _ (fun s m hm => ?_) c
  split
  · exact .refl n s
  · next hmn => exact .ofStep (lossFaults_step s m (causes m)) (List.mem_range.1 hm) hn (fun h => hmn (by simp [h]))

theorem freshLost_one (c : Chip) (hn : n < 9) {x : Nat} (hx : x ≠ 0) (h6 : c.rxState n = 6) :
    (List.range 9).filter (fun m => c.locked m && [(n, x)].any (fun p => p.1 == m && p.2 != 0)) = [n] := by
  have hlocked : c.locked n = true := beq_iff_eq.2 h6
  have hfilter : (List.range 9).filter (fun m => c.locked m && [(n, x)].any (fun p => p.1 == m && p.2 != 0)) = (List.range 9).filter (fun m => n == m) := by
    refine List.filter_congr (fun m _ => ?_)
    by_cases hm : n = m
    · subst hm
      simp [hlocked, hx]
    · simp [beq_false_of_ne hm]
  rw [hfilter]
  interval_cases n <;> rfl

/-- The causes of the lane that one criterion names. -/
theorem lossCauses_one (n : Nat) {k : Nat} (h1 : 1 ≤ k) (h4 : k ≤ 4) :
    maskOf 5 (fun c => decide (0 < c) && [(n, 2 ^ k)].any (fun p => p.1 == n && bit p.2 c)) = 2 ^ k := by
  simp only [List.any_cons, List.any_nil, beq_self_eq_true, Bool.true_and, Bool.or_false]
  interval_cases k <;> decide

/-- The loss of one criterion of a LOCKED lane. -/
theorem lockLoss_one (c : Chip) (hn : n < 9) {k : Nat} (h1 : 1 ≤ k) (h4 : k ≤ 4) (h6 : c.rxState n = 6) :
    ∃ e, RxQuiet n c e ∧ c.lockLoss [(n, 2 ^ k)] =
      (if (afterEntry e n (2 ^ k)).laneFailed n then afterEntry e n (2 ^ k) else (afterEntry e n (2 ^ k)).decideHold n).evalPairing.settle := by
  refine ⟨_, otherFaults_quiet hn c (fun m => maskOf 5 (fun x => decide (0 < x) && [(n, 2 ^ k)].any (fun p => p.1 == m && bit p.2 x))), ?_⟩
  unfold Chip.lockLoss
  dsimp only
  rw [freshLost_one c hn (Nat.pos_iff_ne_zero.1 (Nat.two_pow_pos k)) h6]
  generalize Chip.forAll c _ _ = e
  have hcauses := lossCauses_one n h1 h4
  have hdecided : ∀ f : Chip, f.forAll [n] (fun s m => if s.laneFailed m then s else s.decideHold m) =
      if f.laneFailed n then f else f.decideHold n := fun _ => rfl
  rw [hdecided]
  unfold afterEntry
  by_cases h8 : n = 8
  · subst h8
    simp only [show [8].contains 8 = true from rfl, show List.filter (fun m => decide (m < 8)) [8] = [] from rfl, hcauses, if_true,
      show ∀ (f : Chip) (g : Chip → Nat → Chip), f.forAll [] g = f from fun _ _ => rfl, List.contains_nil, Bool.false_and, Bool.false_eq_true, if_false]
    split <;> rfl
  · have h8' : [n].contains 8 = false := by simp [Ne.symm h8]
    have hlow : List.filter (fun m => decide (m < 8)) [n] = [n] := by simp; omega
    simp only [h8, h8', hlow, Bool.false_eq_true, if_false, show ∀ (f : Chip) (g : Chip → Nat → Chip), f.forAll [n] g = g f n from fun _ _ => rfl, hcauses]
    cases (e.enterHold n (2 ^ k)).crl.paired with
    | none => rfl
    | some m => simp

end

end Sys2Proof.Machine
end

section
/-! PROOFS. Line receivers: from state to state. -/

namespace Sys2Proof.Machine

section
variable {n : Nat}

/-! ### Calibration, signal, blind adaptation (R121, R122) -/

theorem toAcquire_step (c : Chip) (n : Nat) : RxStep [LRX_STATUS.STATE 0] n c (c.toAcquire n) := by
  unfold Chip.toAcquire
  refine .trans (setRxState_step c n rxAcquire (by decide)) ?_
  exact .of _ n (Chip.txMod_regs _ n _) (Chip.txMod_rx _ n _) (by rw [Chip.txMod_pmu]) (by simp)

theorem toAcquire_rxState (c : Chip) (n : Nat) (hon : c.pdOn (7 + n) = true) : (c.toAcquire n).rxState n = 3 := by
  have htx : RxKept n (c.setRxState n rxAcquire) (c.toAcquire n) :=
    .of (Chip.txMod_regs _ n _) (Chip.txMod_rx _ n _) (by unfold Chip.toAcquire; rw [Chip.txMod_pmu])
  exact htx.rxState.trans (setRxState_rxState c n 3 (by decide) hon)

theorem pageBack_kept (n : Nat) (c : Chip) : RxKept n c (c.pageBack n) := by
  have hqueue : ∀ r, RxKept n c (c.queuePage r) := fun r => (RxQuiet.withHnk n c _).kept
  unfold Chip.pageBack
  refine .ite (.refl n c) ?_
  split
  · exact hqueue _
  · exact hqueue _
  · exact .refl n c

/-- The state of a receiver after its foreground calibration. -/
def calibrated (c : Chip) (n : Nat) : Chip :=
  let s := (c.setFlag (LRX_STATUS.CAL_DONE n) true).setRxState n rxSignalWait
  if s.signal n then s.toAcquire n else s

theorem calDone_flds (c : Chip) (n : Nat) (h1 : c.rxState n = 1) : RxFlds [] n (calibrated c n) (c.calDone n) := by
  have hafter : RxFlds [] n (calibrated c n) ((calibrated c n).rxMod n (fun x => { x with afterCal := none })) :=
    (RxStep.rxMod [] (calibrated c n) n (fun x => { x with afterCal := none }) (fun _ h => h)).flds
  unfold Chip.calDone
  rw [if_pos (show c.rxState n = rxCalibrate from h1)]
  refine hafter.trans ?_
  dsimp only
  split
  · split
    · exact (RxQuiet.withHnk n _ _).flds []
    · exact .refl [] n _
  · exact (pageBack_kept n _).flds []
  · exact .refl [] n _

/-- R121: foreground calibration ends in SIGNAL_WAIT, and in ACQUIRE where the signal is there. -/
theorem calDone_spec (c : Chip) (n : Nat) (hon : c.pdOn (7 + n) = true) (h1 : c.rxState n = 1) :
    (c.calDone n).flag (LRX_STATUS.CAL_DONE n) = true ∧ (c.calDone n).rxState n = if c.signal n then 3 else 2 := by
  have hdone : RxStep [LRX_STATUS.CAL_DONE 0] n c (c.setFlag (LRX_STATUS.CAL_DONE n) true) := .setFlag c n (LRX_STATUS.CAL_DONE 0) true rfl (by decide)
  have hwait : RxStep [LRX_STATUS.STATE 0] n (c.setFlag (LRX_STATUS.CAL_DONE n) true)
      ((c.setFlag (LRX_STATUS.CAL_DONE n) true).setRxState n rxSignalWait) := setRxState_step _ n _ (by decide)
  have hon' : (c.setFlag (LRX_STATUS.CAL_DONE n) true).pdOn (7 + n) = true := (hdone.flds.pdOn _).trans hon
  have hflag : ((c.setFlag (LRX_STATUS.CAL_DONE n) true).setRxState n rxSignalWait).flag (LRX_STATUS.CAL_DONE n) = true :=
    (hwait.flds.flag (LRX_STATUS.CAL_DONE 0) rfl rfl).trans (Chip.flag_setFlag c _ true rfl rfl)
  have hsignal : ((c.setFlag (LRX_STATUS.CAL_DONE n) true).setRxState n rxSignalWait).signal n = c.signal n :=
    (hwait.flds.signal rfl).trans (hdone.flds.signal rfl)
  have hflds := calDone_flds c n h1
  rw [hflds.rxState rfl]
  refine ⟨(hflds.flag (LRX_STATUS.CAL_DONE 0) rfl rfl).trans ?_, ?_⟩
  · unfold calibrated
    dsimp only
    split
    · exact ((toAcquire_step _ n).flds.flag (LRX_STATUS.CAL_DONE 0) rfl rfl).trans hflag
    · exact hflag
  · unfold calibrated
    dsimp only
    rw [hsignal]
    split
    · exact toAcquire_rxState _ n ((hwait.flds.pdOn _).trans hon')
    · exact setRxState_rxState _ n 2 (by decide) hon'

/-- SIGNAL of lane `n` written, with the event that follows it. -/
def signalled (c : Chip) (n : Nat) (b : Bool) : Chip := (c.setFlag (LRX_STATUS.SIGNAL n) b).losLevel n

theorem signalled_step (c : Chip) (n : Nat) (b : Bool) : RxStep [LRX_STATUS.SIGNAL 0] n c (signalled c n b) :=
  (RxStep.setFlag c n (LRX_STATUS.SIGNAL 0) b rfl (by decide)).trans (losLevel_step _ _ n)

theorem signalled_flag (c : Chip) (n : Nat) (b : Bool) : (signalled c n b).flag (LRX_STATUS.SIGNAL n) = b :=
  (Chip.setLevel_flag ..).trans (Chip.flag_setFlag c (LRX_STATUS.SIGNAL n) b rfl rfl)

/-- R122: the signal comes, which ends SIGNAL_WAIT. -/
theorem lineSignal_spec (c : Chip) (n : Nat) (hon : c.pdOn (7 + n) = true) (hsig : c.signal n = false) (h7 : c.rxState n ≠ 7) :
    (c.lineSignal n).flag (LRX_STATUS.SIGNAL n) = true ∧ (c.lineSignal n).rxState n = if c.rxState n = 2 then 3 else c.rxState n := by
  have hstep := signalled_step c n true
  have hst : (signalled c n true).rxState n = c.rxState n := hstep.flds.rxState rfl
  have heq : c.lineSignal n = if c.rxState n = 2 then (signalled c n true).toAcquire n else signalled c n true := by
    rw [← hst] at h7 ⊢
    unfold Chip.lineSignal
    rw [if_pos (by simp [hon, hsig])]
    exact if_congr Iff.rfl rfl (if_neg h7)
  rw [heq]
  split
  · exact ⟨((toAcquire_step _ n).flds.flag (LRX_STATUS.SIGNAL 0) rfl rfl).trans (signalled_flag c n true),
      toAcquire_rxState _ n ((hstep.flds.pdOn _).trans hon)⟩
  · exact ⟨signalled_flag c n true, hst⟩

/-- R121: blind adaptation ends in CONVERGE. -/
theorem blindDone_spec (c : Chip) (n : Nat) (hon : c.pdOn (7 + n) = true) (h3 : c.rxState n = 3) :
    (c.blindDone n).rxState n = 4 ∧ (c.blindDone n).rx = c.rx := by
  have heq : c.blindDone n = c.setRxState n 4 := if_pos h3
  rw [heq]
  exact ⟨setRxState_rxState c n 4 (by decide) hon, (Chip.setLevel_rx ..).trans (Chip.setFld_rx ..)⟩

/-! ### Commands after which no removal is due -/

/-- Where no command executes, no removal follows. -/
theorem portNext_idle (s : State) (f : Chip → Chip) (h : (f s.chip).mbx.exec = []) : portNext s f = .next (s.onChip f) := by
  unfold portNext chipNext State.onChip
  dsimp only
  rw [Chip.finishRemovals_idle _ h]

theorem FaultKept.idle {c d : Chip} (k : FaultKept c d) (h : c.mbx.exec = []) : d.mbx.exec = [] := List.subset_nil.1 (h ▸ k.ports.exec)

/-! ### Loss of lock (R124, R129, R130) -/

/-- R124, R125, R129: what the loss of the criterion of code `k` does to a LOCKED lane. -/
theorem lockLoss_spec (c : Chip) (hn : n < 9) {k : Nat} (h1 : 1 ≤ k) (h4 : k ≤ 4) (h6 : c.rxState n = 6) (hplanned : c.ply.planned = none) :
    (c.lockLoss [(n, 2 ^ k)]).flag (lossFlag n k) = true ∧ (c.lockLoss [(n, 2 ^ k)]).flag (LRX_STATUS.GOOD n) = false ∧
      (c.lockLoss [(n, 2 ^ k)]).rxState n ≠ 6 ∧ (c.lockLoss [(n, 2 ^ k)]).flag (LRX_STATUS.SIGNAL n) = c.flag (LRX_STATUS.SIGNAL n) ∧
      (c.plyRx ≠ plySubstWait ∨ c.plyLane ≠ n →
        (c.lockLoss [(n, 2 ^ k)]).fld (LRX_LOCK_CNT.LOSS_CNT n) = min 255 (c.fld (LRX_LOCK_CNT.LOSS_CNT n) + 1)) := by
  obtain ⟨e, he, heq⟩ := lockLoss_one c hn h1 h4 h6
  have he6 : e.rxState n = 6 := he.kept.rxState.trans h6
  have hon : e.pdOn (7 + n) = true := pdOn_of_rxState (by rw [he6]; decide)
  obtain ⟨hflag, hgood, hheld, hcnt⟩ := enterHold_spec e hn h1 h4 hon (by rw [he6]; decide)
  have hstep := enterHold_step e hn (2 ^ k)
  have hentry := afterEntry_held e hn (2 ^ k) (he.planned.trans hplanned) hgood hheld
  have hdecided : RxFell n (e.enterHold n (2 ^ k))
      (if (afterEntry e n (2 ^ k)).laneFailed n then afterEntry e n (2 ^ k) else (afterEntry e n (2 ^ k)).decideHold n) := by
    split
    · exact hentry.fell hheld
    · exact hentry.decideHold hn hheld
  have hfell := (hdecided.evalPairing hn (pdOn_of_rxState (by rw [hheld]; decide))).aside (RxQuiet.settle hn _).aside
  rw [← heq] at hfell
  have hloss : ∀ f ∈ lossFlds, fallFlds.all (fun g => g.apart f) = true := by decide
  refine ⟨?_, hfell.good, fun h => ?_, ?_, fun hwait => ?_⟩
  · rw [lossFlag_onLane] at hflag ⊢
    exact (hfell.flds.flag _ (lossFlds_rx (lossFlag_mem k)).1 (hloss _ (lossFlag_mem k))).trans hflag
  · have hstate := hfell.state
    rw [h] at hstate
    exact absurd hstate (by decide)
  · refine (hfell.flds.flag (LRX_STATUS.SIGNAL 0) rfl rfl).trans ((hstep.flds.flag (LRX_STATUS.SIGNAL 0) rfl rfl).trans ?_)
    exact he.kept.flag (LRX_STATUS.SIGNAL 0) rfl
  · have hnot : ¬ (e.enterHold n (2 ^ k)).awaits n := fun h => by
      obtain ⟨hrx, hlane⟩ := he.awaits.1 ((hstep.awaits hn).1 h)
      exact hwait.elim (fun hne => hne hrx) (fun hne => hne hlane)
    rw [(hfell.count hnot).1, hcnt]
    exact congrArg (fun x => min 255 (x + 1)) (he.kept.fld (LRX_LOCK_CNT.LOSS_CNT 0) rfl)

/-- The loss of signal of a LOCKED lane is the loss of its first criterion. -/
theorem lineLos_locked (c : Chip) (n : Nat) (hon : c.pdOn (7 + n) = true) (hsig : c.signal n = true) (h6 : c.rxState n = 6) :
    c.lineLos n = (signalled c n false).lockLoss [(n, 2 ^ 1)] := by
  have hst : (signalled c n false).rxState n = 6 := ((signalled_step c n false).flds.rxState rfl).trans h6
  unfold Chip.lineLos
  rw [if_pos (by simp [hon, hsig])]
  exact if_pos (beq_iff_eq.2 hst)

theorem signalled_idle (c : Chip) (n : Nat) (b : Bool) (h : c.mbx.exec = []) : (signalled c n b).mbx.exec = [] := by
  unfold signalled Chip.losLevel
  rw [Chip.setLevel_mbx]
  exact h

/-- What SIGNAL's fall leaves of what a loss of lock looks at. -/
theorem lockLoss_signalled (c : Chip) (hn : n < 9) (h6 : c.rxState n = 6) (hplanned : c.ply.planned = none) :
    let t := (signalled c n false).lockLoss [(n, 2 ^ 1)]
    t.flag (LRX_STATUS.SIGNAL n) = false ∧ t.flag (LRX_FAULT.LOS n) = true ∧ t.flag (LRX_STATUS.GOOD n) = false ∧ t.rxState n ≠ 6 ∧
      (c.plyRx ≠ plySubstWait ∨ c.plyLane ≠ n → t.fld (LRX_LOCK_CNT.LOSS_CNT n) = min 255 (c.fld (LRX_LOCK_CNT.LOSS_CNT n) + 1)) := by
  have hstep := signalled_step c n false
  obtain ⟨hlos, hgood, hstate, hsignal, hcnt⟩ :=
    lockLoss_spec (signalled c n false) hn (le_refl 1) (by decide) ((hstep.flds.rxState rfl).trans h6) (hstep.planned.trans hplanned)
  rw [hstep.plyRx hn, hstep.plyLane hn, show (signalled c n false).fld (LRX_LOCK_CNT.LOSS_CNT n) = c.fld (LRX_LOCK_CNT.LOSS_CNT n) from
    hstep.flds.fld (LRX_LOCK_CNT.LOSS_CNT 0) rfl rfl] at hcnt
  exact ⟨hsignal.trans (signalled_flag c n false), hlos, hgood, hstate, hcnt⟩

theorem lineLos_locked_spec (c : Chip) (hn : n < 9) (hon : c.pdOn (7 + n) = true) (hsig : c.signal n = true) (h6 : c.rxState n = 6)
    (hplanned : c.ply.planned = none) :
    (c.lineLos n).flag (LRX_STATUS.SIGNAL n) = false ∧ (c.lineLos n).flag (LRX_FAULT.LOS n) = true ∧
      (c.lineLos n).flag (LRX_STATUS.GOOD n) = false ∧ (c.lineLos n).rxState n ≠ 6 ∧
      (c.plyRx ≠ plySubstWait ∨ c.plyLane ≠ n →
        (c.lineLos n).fld (LRX_LOCK_CNT.LOSS_CNT n) = min 255 (c.fld (LRX_LOCK_CNT.LOSS_CNT n) + 1)) := by
  rw [lineLos_locked c n hon hsig h6]
  exact lockLoss_signalled c hn h6 hplanned

theorem lineLos_locked_idle (c : Chip) (n : Nat) (hon : c.pdOn (7 + n) = true) (hsig : c.signal n = true) (h6 : c.rxState n = 6)
    (h : c.mbx.exec = []) : (c.lineLos n).mbx.exec = [] := by
  rw [lineLos_locked c n hon hsig h6]
  exact (FaultKept.lockLoss _ _).idle (signalled_idle c n false h)

/-- One criterion of one LOCKED lane in a cycle. -/
theorem lossCycle_one (c : Chip) (n k : Nat) (hon : c.pdOn (7 + n) = true) (h6 : c.rxState n = 6) :
    c.lossCycle [(n, k)] = (if k = 1 then signalled c n false else c).lockLoss [(n, 2 ^ k)] := by
  have hlocked : c.locked n = true := beq_iff_eq.2 h6
  have hst : (signalled c n false).rxState n = 6 := ((signalled_step c n false).flds.rxState rfl).trans h6
  unfold Chip.lossCycle
  by_cases hk : k = 1
  · subst hk
    have hlos : ([(n, 1)].filter (fun p => p.2 == 1 && c.pdOn (7 + p.1))).map (fun p => p.1) = [n] := by simp [hon]
    have hheld : [n].filter (fun m => c.signal m && !(c.locked m)) = [] := by simp [hlocked]
    have hone : c.forAll [n] (fun c m => (c.setFlag (LRX_STATUS.SIGNAL m) false).losLevel m) = signalled c n false := rfl
    simp only [hlos, hheld, hone, show ∀ (d : Chip) (g : Chip → Nat → Chip), d.forAll [] g = d from fun _ _ => rfl]
    simp [hst, rxLocked]
  · have hlos : ([(n, k)].filter (fun p => p.2 == 1 && c.pdOn (7 + p.1))).map (fun p => p.1) = [] := by simp [hk]
    simp only [hlos, List.filter_nil, show ∀ (d : Chip) (g : Chip → Nat → Chip), d.forAll [] g = d from fun _ _ => rfl]
    simp [h6, hk, rxLocked]

theorem lossCycle_spec (c : Chip) (hn : n < 9) (x : LossCause) (hon : c.pdOn (7 + n) = true) (h6 : c.rxState n = 6) (hplanned : c.ply.planned = none) :
    (c.lossCycle [(n, lossCode x)]).flag (lossFlag n (lossCode x)) = true ∧ (c.lossCycle [(n, lossCode x)]).flag (LRX_STATUS.GOOD n) = false ∧
      (c.lossCycle [(n, lossCode x)]).rxState n ≠ 6 ∧
      (c.plyRx ≠ plySubstWait ∨ c.plyLane ≠ n →
        (c.lossCycle [(n, lossCode x)]).fld (LRX_LOCK_CNT.LOSS_CNT n) = min 255 (c.fld (LRX_LOCK_CNT.LOSS_CNT n) + 1)) := by
  rw [lossCycle_one c n _ hon h6]
  by_cases hx : lossCode x = 1
  · rw [if_pos hx, hx]
    obtain ⟨-, hlos, hgood, hstate, hcnt⟩ := lockLoss_signalled c hn h6 hplanned
    exact ⟨hlos, hgood, hstate, hcnt⟩
  · rw [if_neg hx]
    obtain ⟨hflag, hgood, hstate, -, hcnt⟩ := lockLoss_spec c hn (k := lossCode x) (by cases x <;> decide) (by cases x <;> decide) h6 hplanned
    exact ⟨hflag, hgood, hstate, hcnt⟩

theorem lossCycle_idle (c : Chip) (n k : Nat) (hon : c.pdOn (7 + n) = true) (h6 : c.rxState n = 6) (h : c.mbx.exec = []) :
    (c.lossCycle [(n, k)]).mbx.exec = [] := by
  rw [lossCycle_one c n k hon h6]
  refine (FaultKept.lockLoss _ _).idle ?_
  split
  · exact signalled_idle c n false h
  · exact h

/-- R130: without signal a lane that learns starts afresh. -/
theorem lineLos_learning (c : Chip) (n : Nat) (hon : c.pdOn (7 + n) = true) (hsig : c.signal n = true) (h3 : 3 ≤ c.rxState n) (h5 : c.rxState n ≤ 5)
    (hwindow : (c.rxOf n).window = none) :
    c.lineLos n = (((signalled c n false).restartLock n).setRxState n 2).settle := by
  have hstep := signalled_step c n false
  have hst : (signalled c n false).rxState n = c.rxState n := hstep.flds.rxState rfl
  have hwindow' : ((signalled c n false).rxOf n).window = none := hstep.flds.window hwindow
  have hlost : (signalled c n false).signalLostUnlocked n = ((signalled c n false).restartLock n).setRxState n 2 := by
    unfold Chip.signalLostUnlocked
    simp only [hst, hwindow', rxHold, rxAcquire, rxConverge, rxFrameSeek]
    rw [if_neg (by simp; omega), if_pos (by omega)]
    rfl
  have hlocked : (signalled c n false).locked n = false := by
    unfold Chip.locked
    rw [hst]
    exact beq_false_of_ne (by simp only [rxLocked]; omega)
  rw [← hlost]
  unfold Chip.lineLos
  rw [if_pos (by simp [hon, hsig])]
  exact if_neg (by rw [show ((c.setFlag (LRX_STATUS.SIGNAL n) false).losLevel n).locked n = false from hlocked]; decide)

theorem lineLos_learning_spec (c : Chip) (hn : n < 9) (hon : c.pdOn (7 + n) = true) (hsig : c.signal n = true) (h3 : 3 ≤ c.rxState n)
    (h5 : c.rxState n ≤ 5) (hwindow : (c.rxOf n).window = none) :
    (c.lineLos n).flag (LRX_STATUS.SIGNAL n) = false ∧ (c.lineLos n).rxState n = 2 ∧
      (c.lineLos n).flag (LRX_FAULT.LOS n) = c.flag (LRX_FAULT.LOS n) ∧ (c.lineLos n).flag (LRX_STATUS.CDR_LOCK n) = false := by
  have hsignal := signalled_step c n false
  have hrestart := restartLock_step (signalled c n false) hn
  have hstate : RxStep [LRX_STATUS.STATE 0] n ((signalled c n false).restartLock n) (((signalled c n false).restartLock n).setRxState n 2) :=
    setRxState_step _ n _ (by decide)
  have hsettle : RxKept n (((signalled c n false).restartLock n).setRxState n 2) (c.lineLos n) := by
    rw [lineLos_learning c n hon hsig h3 h5 hwindow]
    exact .settle hn _
  have hlate := (hrestart.mono (List.subset_append_left relockFlds [LRX_STATUS.STATE 0])).trans (hstate.mono (List.subset_append_right _ _))
  refine ⟨?_, ?_, ?_, ?_⟩
  · exact (hsettle.flag (LRX_STATUS.SIGNAL 0) rfl).trans ((hlate.flds.flag (LRX_STATUS.SIGNAL 0) rfl rfl).trans (signalled_flag c n false))
  · exact hsettle.rxState.trans (setRxState_rxState _ n 2 (by decide) ((hrestart.flds.pdOn _).trans ((hsignal.flds.pdOn _).trans hon)))
  · exact (hsettle.flag (LRX_FAULT.LOS 0) rfl).trans ((hlate.flds.flag (LRX_FAULT.LOS 0) rfl rfl).trans (hsignal.flds.flag (LRX_FAULT.LOS 0) rfl rfl))
  · exact (hsettle.flag (LRX_STATUS.CDR_LOCK 0) rfl).trans ((hstate.flds.flag (LRX_STATUS.CDR_LOCK 0) rfl rfl).trans (restartLock_cdr _ hn))

theorem lineLos_learning_idle (c : Chip) (n : Nat) (hon : c.pdOn (7 + n) = true) (hsig : c.signal n = true) (h3 : 3 ≤ c.rxState n)
    (h5 : c.rxState n ≤ 5) (hwindow : (c.rxOf n).window = none) (h : c.mbx.exec = []) : (c.lineLos n).mbx.exec = [] := by
  rw [lineLos_learning c n hon hsig h3 h5 hwindow]
  exact (((FaultKept.restartLock _ n).trans (.setRxState _ n _)).trans (.settle _)).idle (signalled_idle c n false h)

end

end Sys2Proof.Machine
end

section
/-! PROOFS. Line receivers: lock, and what does not lock in time. -/

namespace Sys2Proof.Machine

section
variable {n : Nat}

/-! ### Lock (R123) -/

theorem ieeeAlign_step (c : Chip) (hn : n < 9) : RxStep [LRX_STATUS.FRAME_LOCK 0] n c (c.ieeeAlign n) := by
  have haddr : 0x410200 ≤ TWF_LANE_STATUS.addr n ∧ TWF_LANE_STATUS.addr n < 0x410320 := by
    simp only [TWF_LANE_STATUS.addr]
    omega
  have htwf : ∀ (d : Chip) (lo w v : Nat), RxStep [LRX_STATUS.FRAME_LOCK 0] n d (d.setFld ⟨TWF_LANE_STATUS.addr n, lo, w⟩ v) := fun d lo w v =>
    .setSide _ d _ v hn (le_trans (by decide) haddr.1) (sideReg_framing haddr.1 haddr.2)
  unfold Chip.ieeeAlign
  refine .ite ?_ (.refl _ n c)
  exact (RxStep.setFlag c n (LRX_STATUS.FRAME_LOCK 0) true rfl (by decide)).trans ((htwf _ _ _ _).trans (htwf _ _ _ _))

/-- An alignment leaves the lock criteria met. -/
theorem ieeeAlign_lockCriteria (c : Chip) (hn : n < 9) (h : c.lockCriteria n = true) : (c.ieeeAlign n).lockCriteria n = true := by
  have hstep := (ieeeAlign_step c hn).flds
  simp only [Chip.lockCriteria, Bool.and_eq_true] at h ⊢
  obtain ⟨⟨⟨hsig, hcdr⟩, heq⟩, hframe⟩ := h
  refine ⟨⟨⟨(hstep.signal rfl).trans hsig, (hstep.flag (LRX_STATUS.CDR_LOCK 0) rfl rfl).trans hcdr⟩, (hstep.flag (LRX_STATUS.EQ_CONV 0) rfl rfl).trans heq⟩, ?_⟩
  have haddr : ∀ lo w lo' w', (⟨TWF_LANE_STATUS.addr n, lo, w⟩ : Fld).apart ⟨LRX_STATUS.addr n, lo', w'⟩ = true := by
    intro lo w lo' w'
    simp only [Fld.apart, TWF_LANE_STATUS.addr, LRX_STATUS.addr, Bool.or_eq_true, bne_iff_ne, decide_eq_true_eq]
    omega
  unfold Chip.ieeeAlign
  split
  · refine (Chip.flag_setFlag_other _ _ _ _ (haddr ..)).trans ((Chip.flag_setFlag_other _ _ _ _ (haddr ..)).trans ?_)
    exact Chip.flag_setFlag c (LRX_STATUS.FRAME_LOCK n) true rfl rfl
  · exact hframe

theorem ieeeAlign_mbx (c : Chip) (n : Nat) : (c.ieeeAlign n).mbx = c.mbx := by
  unfold Chip.ieeeAlign
  split <;> rfl

/-- What a lock is counted as: a restore, a retrain, or neither. -/
def countLock (c : Chip) (n : Nat) : Chip :=
  if (c.rxOf n).window.isSome then
    let s := c.satInc (LRX_LOCK_CNT.RESTORE_CNT n) 1
    if s.hnk.hold.contains n then s.setOutcome n 1 else s
  else if (c.rxOf n).retrain then c.satInc (LRX_LOCK_CNT.RETRAIN_CNT n) 1
  else c

/-- The fields that count locks. -/
def lockCntFlds : List Fld := [LRX_LOCK_CNT.RESTORE_CNT 0, LRX_LOCK_CNT.RETRAIN_CNT 0]

theorem setOutcome_step (T : List Fld) (c : Chip) (hn : n < 9) (o : Nat) : RxStep T n c (c.setOutcome n o) := by
  have haddr : 0x420000 ≤ HNK_LANE_STATUS.addr n ∧ HNK_LANE_STATUS.addr n < 0x430000 := by
    simp only [HNK_LANE_STATUS.addr]
    omega
  exact .setSide T c _ o hn (le_trans (by decide) haddr.1) (sideReg_hank haddr.1 haddr.2)

theorem countLock_step (c : Chip) (hn : n < 9) : RxStep lockCntFlds n c (countLock c n) := by
  have hrestore : RxStep lockCntFlds n c (c.satInc (LRX_LOCK_CNT.RESTORE_CNT n) 1) := .satInc c n (LRX_LOCK_CNT.RESTORE_CNT 0) 1 rfl (by decide)
  unfold countLock
  refine .ite (.ite (hrestore.trans (setOutcome_step _ _ hn 1)) hrestore) (.ite ?_ (.refl _ n c))
  exact .satInc c n (LRX_LOCK_CNT.RETRAIN_CNT 0) 1 rfl (by decide)

theorem countLock_mbx (c : Chip) (n : Nat) : (countLock c n).mbx = c.mbx := by
  unfold countLock
  dsimp only
  split
  · split <;> rfl
  · split <;> rfl

theorem min_fld_add_zero (c : Chip) (f : Fld) (hw : f.w = 8) : min 255 (c.fld f + 0) = c.fld f := by
  have hlt : c.fld f < 2 ^ f.w := getBits_lt ..
  rw [hw] at hlt
  omega

/-- R140: a lock that ends a restore window counts as a restore, another one after a retrain as a retrain. -/
theorem countLock_counts (c : Chip) (hn : n < 9) :
    (countLock c n).fld (LRX_LOCK_CNT.RESTORE_CNT n) = min 255 (c.fld (LRX_LOCK_CNT.RESTORE_CNT n) + if (c.rxOf n).window.isSome then 1 else 0) ∧
      (countLock c n).fld (LRX_LOCK_CNT.RETRAIN_CNT n) =
        min 255 (c.fld (LRX_LOCK_CNT.RETRAIN_CNT n) + if (c.rxOf n).window.isNone && (c.rxOf n).retrain then 1 else 0) := by
  have hrestore : ∀ d : Chip, d.fld (LRX_LOCK_CNT.RESTORE_CNT n) = min 255 (d.fld (LRX_LOCK_CNT.RESTORE_CNT n) + 0) := fun d => (min_fld_add_zero d _ rfl).symm
  have hretrain : ∀ d : Chip, d.fld (LRX_LOCK_CNT.RETRAIN_CNT n) = min 255 (d.fld (LRX_LOCK_CNT.RETRAIN_CNT n) + 0) := fun d => (min_fld_add_zero d _ rfl).symm
  have hretrain' : (c.satInc (LRX_LOCK_CNT.RESTORE_CNT n) 1).fld (LRX_LOCK_CNT.RETRAIN_CNT n) = c.fld (LRX_LOCK_CNT.RETRAIN_CNT n) :=
    Chip.fld_setFld_other _ _ _ _ (apart_onLane n (LRX_LOCK_CNT.RESTORE_CNT 0) (LRX_LOCK_CNT.RETRAIN_CNT 0) rfl)
  have hrestore' : (c.satInc (LRX_LOCK_CNT.RETRAIN_CNT n) 1).fld (LRX_LOCK_CNT.RESTORE_CNT n) = c.fld (LRX_LOCK_CNT.RESTORE_CNT n) :=
    Chip.fld_setFld_other _ _ _ _ (apart_onLane n (LRX_LOCK_CNT.RETRAIN_CNT 0) (LRX_LOCK_CNT.RESTORE_CNT 0) rfl)
  have houtcome : ∀ (d : Chip) (g : Fld), rxReg 0 g.addr = true → (d.setOutcome n 1).fld (onLane n g) = d.fld (onLane n g) :=
    fun d g hg => (setOutcome_step [] d hn 1).flds.fld g hg rfl
  unfold countLock
  dsimp only
  cases hwindow : (c.rxOf n).window with
  | some why =>
    have hcounted := And.intro (fld_satInc c (LRX_LOCK_CNT.RESTORE_CNT n) 1 rfl) (hretrain'.trans (hretrain c))
    simp only [Option.isSome_some, Option.isNone_some, Bool.false_and, if_true, Bool.false_eq_true, if_false]
    split
    · exact ⟨(houtcome _ (LRX_LOCK_CNT.RESTORE_CNT 0) rfl).trans hcounted.1, (houtcome _ (LRX_LOCK_CNT.RETRAIN_CNT 0) rfl).trans hcounted.2⟩
    · exact hcounted
  | none =>
    cases hretrains : (c.rxOf n).retrain with
    | true => exact ⟨hrestore'.trans (hrestore c), fld_satInc c (LRX_LOCK_CNT.RETRAIN_CNT n) 1 rfl⟩
    | false => exact ⟨hrestore c, hretrain c⟩

/-- The receiver of a lane that enters LOCKED. -/
def enterLocked (c : Chip) (n : Nat) : Chip :=
  (((countLock c n).rxMod n (fun x => { x with window := none, retrain := false, wasLocked := true, snrBelow := 0 })).setRxState n rxLocked).raise
    (0x080 + n) 0

theorem enterLocked_step (c : Chip) (hn : n < 9) : RxStep (LRX_STATUS.STATE 0 :: lockCntFlds) n c (enterLocked c n) := by
  unfold enterLocked
  refine .trans ?_ (.raise _ n _ _ _)
  refine .trans ?_ (setRxState_step _ n _ (by decide))
  refine .trans ((countLock_step c hn).mono (List.subset_cons_self _ _)) ?_
  exact .rxMod _ _ n _ (fun _ _ => rfl)

theorem enterLocked_afterCount (c : Chip) (n : Nat) : RxFlds [LRX_STATUS.STATE 0] n (countLock c n) (enterLocked c n) := by
  unfold enterLocked
  refine RxStep.flds (.trans ?_ (.raise _ n _ _ _))
  refine .trans ?_ (setRxState_step _ n _ (by decide))
  exact .rxMod _ _ n _ (fun _ _ => rfl)

theorem enterLocked_rxState (c : Chip) (hn : n < 9) (hon : c.pdOn (7 + n) = true) : (enterLocked c n).rxState n = 6 := by
  have hlocked : (enterLocked c n).rxState n = (Chip.setRxState _ n rxLocked).rxState n := (RxKept.raise n _ _ _).rxState
  rw [hlocked]
  refine setRxState_rxState _ n 6 (by decide) ?_
  exact (pdOn_of_pd (congrArg Pmu.pd (Chip.rxMod_pmu ..)) _).trans (((countLock_step c hn).flds.pdOn _).trans hon)

theorem enterLocked_rxOf (c : Chip) (hn : n < 9) : ((enterLocked c n).rxOf n).window = none ∧ ((enterLocked c n).rxOf n).retrain = false := by
  unfold enterLocked Chip.setRxState
  rw [Chip.raise_rxOf, Chip.setLevel_rxOf, Chip.setFld_rxOf, Chip.rxOf_rxMod _ _ _ hn]
  exact ⟨rfl, rfl⟩

theorem enterLocked_mbx (c : Chip) (n : Nat) : (enterLocked c n).mbx = c.mbx := by
  unfold enterLocked Chip.setRxState
  rw [Chip.raise_mbx, Chip.setLevel_mbx, Chip.setFld_mbx, Chip.rxMod_mbx, countLock_mbx]

/-- A lane that meets the lock criteria enters LOCKED. -/
theorem lineLocked_eq (c : Chip) (hn : n < 9) (h : c.lockCriteria n = true) (h3 : 3 ≤ c.rxState n) (h6 : c.rxState n < 6) :
    c.lineLocked n = (((((enterLocked (c.ieeeAlign n) n).leaveHold n).endRetrain n .ok).plyLocked n).flushWaiting n).settle := by
  have hst : (c.ieeeAlign n).rxState n = c.rxState n := (ieeeAlign_step c hn).flds.rxState rfl
  have hcriteria := ieeeAlign_lockCriteria c hn h
  unfold Chip.lineLocked
  dsimp only
  rw [if_pos (by simp [hcriteria, hst, rxAcquire, rxLocked, h3, h6])]
  rfl

/-! ### What the fault logic makes of a lock (R264) -/

/-- Nothing is pending for lane `n` any more. -/
def plyCleared (c : Chip) (n : Nat) : Chip :=
  { c with ply := { c.ply with
    waitRestore := c.ply.waitRestore.filter (fun x => x != n)
    unavail := c.ply.unavail.filter (fun x => x != n)
    lost := c.ply.lost.filter (fun x => x != n) } }

/-- A substitution that waited for lane `n` becomes a mirror. -/
def plyMirrored (c : Chip) (n : Nat) : Chip :=
  if c.plyRx = plySubstWait ∧ c.plyLane = n then (c.request n false).setPlyRx plyMirrorWait else c

/-- L8 serves again. -/
def plyServes (c : Chip) : Chip :=
  let s := { c.setFlag TWF_PLY_STATUS.L8_LOCKED true with
    ply := { c.ply with downTimed := false, lost := c.ply.lost.filter (fun x => !(c.onL8 x)) } }
  if s.plyRx = plyDown then s.setPlyRx (if s.plyLane = noLane then plyIdle else plyMirrorWait) else s

/-- The fault logic's own part of a lock, before pairing. -/
def plyServed (c : Chip) (n : Nat) : Chip := if n = 8 then plyServes (plyMirrored (plyCleared c n) n) else plyMirrored (plyCleared c n) n

theorem plyLocked_eq (c : Chip) (n : Nat) : c.plyLocked n = (plyServed c n).evalPairing := rfl

theorem plyCleared_quiet (n : Nat) (c : Chip) : RxQuiet n c (plyCleared c n) := .of rfl rfl rfl rfl

theorem plyMirrored_not_awaits (c : Chip) (n : Nat) : ¬ (plyMirrored c n).awaits n := by
  unfold plyMirrored
  split
  · exact fun h => absurd ((setPlyRx_plyRx _ (by decide)).symm.trans h.1) (by decide)
  · next h => exact h

theorem plyMirrored_aside (hn : n < 9) (c : Chip) : RxAside n c (plyMirrored c n) := by
  refine ⟨?_, ?_, fun h => absurd h (plyMirrored_not_awaits c n)⟩
  · unfold plyMirrored
    exact .ite ((request_kept hn c n false).trans (setPlyRx_kept hn _ _)) (.refl n c)
  · unfold plyMirrored
    split
    · exact (request_planned c n false).trans
    · exact id

theorem plyServes_aside (hn : n < 9) (c : Chip) : RxAside n c (plyServes c) := by
  have hserves : ∀ d : Chip, RxAside n d (if d.plyRx = plyDown then d.setPlyRx (if d.plyLane = noLane then plyIdle else plyMirrorWait) else d) :=
    fun d => .ite (setPlyRx_aside hn d (by split <;> decide) (by split <;> decide)) (.refl n d)
  unfold plyServes
  refine .trans ?_ (hserves _)
  exact l8Locked_aside hn c true _ rfl

/-- No substitution waits for a lane that has locked. -/
theorem plyServed_aside (hn : n < 9) (c : Chip) : RxAside n c (plyServed c n) ∧ ¬ (plyServed c n).awaits n := by
  have hmirrored := (plyCleared_quiet n c).aside.trans (plyMirrored_aside hn _)
  have hnot := plyMirrored_not_awaits (plyCleared c n) n
  unfold plyServed
  split
  · exact ⟨hmirrored.trans (plyServes_aside hn _), fun h => hnot ((plyServes_aside hn _).awaits h)⟩
  · exact ⟨hmirrored, hnot⟩

/-- The fault logic leaves the receiver of a lane that has locked. -/
theorem plyLocked_kept (hn : n < 9) (c : Chip) (hplanned : c.ply.planned = none) : RxKept n c (c.plyLocked n) := by
  obtain ⟨hserved, hnot⟩ := plyServed_aside hn c
  rw [plyLocked_eq]
  rcases evalPairing_unplanned hn (plyServed c n) (hserved.planned hplanned) with haside | ⟨u, -, -, hwait⟩
  · exact hserved.kept.trans haside.kept
  · exact absurd hwait hnot

theorem plyLocked_faultKept (c : Chip) (n : Nat) : FaultKept c (c.plyLocked n) := by
  have hmirrored : FaultKept c (plyMirrored (plyCleared c n) n) :=
    (FaultKept.withPly c _).trans (.ite ((FaultKept.request _ n false).trans (.setPlyRx _ _)) (.refl _))
  have hserves : ∀ d : Chip, FaultKept d (plyServes d) := fun d =>
    ((FaultKept.setFlag d TWF_PLY_STATUS.L8_LOCKED true (by decide)).trans (.withPly _ _)).trans (.ite (.setPlyRx _ _) (.refl _))
  rw [plyLocked_eq]
  refine .trans ?_ (.evalPairing _)
  unfold plyServed
  exact .ite (hmirrored.trans (hserves _)) hmirrored

theorem lineLocked_kept (c : Chip) (hn : n < 9) (h : c.lockCriteria n = true) (h3 : 3 ≤ c.rxState n) (h6 : c.rxState n < 6)
    (hplanned : c.ply.planned = none) : RxKept n (enterLocked (c.ieeeAlign n) n) (c.lineLocked n) := by
  have hleave : RxQuiet n (enterLocked (c.ieeeAlign n) n) (((enterLocked (c.ieeeAlign n) n).leaveHold n).endRetrain n .ok) :=
    (leaveHold_quiet n _ n).trans (.endWait hn _ _ _)
  have hend := hleave.planned.trans ((enterLocked_step (c.ieeeAlign n) hn).planned.trans ((ieeeAlign_step c hn).planned.trans hplanned))
  rw [lineLocked_eq c hn h h3 h6]
  exact ((hleave.kept.trans (plyLocked_kept hn _ hend)).trans (flushWaiting_quiet hn _ n).kept).trans (.settle hn _)

theorem lineLocked_idle (c : Chip) (hn : n < 9) (h : c.lockCriteria n = true) (h3 : 3 ≤ c.rxState n) (h6 : c.rxState n < 6)
    (hexec : c.mbx.exec = []) : (c.lineLocked n).mbx.exec = [] := by
  have hlocked : (enterLocked (c.ieeeAlign n) n).mbx.exec = [] := by rw [enterLocked_mbx, ieeeAlign_mbx, hexec]
  rw [lineLocked_eq c hn h h3 h6]
  refine FaultKept.idle ?_ hlocked
  exact ((((FaultKept.leaveHold _ n).trans (.endWait _ _ _)).trans (plyLocked_faultKept _ n)).trans (.flushWaiting _ n)).trans (.settle _)

/-- R123, R140: a lane that meets the lock criteria is LOCKED, and its lock is counted. -/
theorem lineLocked_spec (c : Chip) (hn : n < 9) (h : c.lockCriteria n = true) (h3 : 3 ≤ c.rxState n) (h6 : c.rxState n < 6)
    (hplanned : c.ply.planned = none) :
    (c.lineLocked n).rxState n = 6 ∧ ((c.lineLocked n).rxOf n).window = none ∧ ((c.lineLocked n).rxOf n).retrain = false ∧
      (c.lineLocked n).fld (LRX_LOCK_CNT.RESTORE_CNT n) =
        min 255 (c.fld (LRX_LOCK_CNT.RESTORE_CNT n) + (if (c.rxOf n).window.isSome then 1 else 0)) ∧
      (c.lineLocked n).fld (LRX_LOCK_CNT.RETRAIN_CNT n) =
        min 255 (c.fld (LRX_LOCK_CNT.RETRAIN_CNT n) + (if (c.rxOf n).window.isNone && (c.rxOf n).retrain then 1 else 0)) := by
  have halign := (ieeeAlign_step c hn).flds
  have hkept := lineLocked_kept c hn h h3 h6 hplanned
  have hon : c.pdOn (7 + n) = true := pdOn_of_rxState (by omega)
  have hrx : (c.ieeeAlign n).rxOf n = c.rxOf n := by
    unfold Chip.ieeeAlign
    split
    · simp
    · rfl
  obtain ⟨hrestore, hretrain⟩ := countLock_counts (c.ieeeAlign n) hn
  have hcount := enterLocked_afterCount (c.ieeeAlign n) n
  rw [hrx, show (c.ieeeAlign n).fld (LRX_LOCK_CNT.RESTORE_CNT n) = c.fld (LRX_LOCK_CNT.RESTORE_CNT n) from
    halign.fld (LRX_LOCK_CNT.RESTORE_CNT 0) rfl rfl] at hrestore
  rw [hrx, show (c.ieeeAlign n).fld (LRX_LOCK_CNT.RETRAIN_CNT n) = c.fld (LRX_LOCK_CNT.RETRAIN_CNT n) from
    halign.fld (LRX_LOCK_CNT.RETRAIN_CNT 0) rfl rfl] at hretrain
  rw [hkept.rxState, hkept.own]
  obtain ⟨hwindow, hretrains⟩ := enterLocked_rxOf (c.ieeeAlign n) hn
  refine ⟨enterLocked_rxState _ hn ((halign.pdOn _).trans hon), hwindow, hretrains, ?_, ?_⟩
  · exact (hkept.fld (LRX_LOCK_CNT.RESTORE_CNT 0) rfl).trans ((hcount.fld (LRX_LOCK_CNT.RESTORE_CNT 0) rfl rfl).trans hrestore)
  · exact (hkept.fld (LRX_LOCK_CNT.RETRAIN_CNT 0) rfl).trans ((hcount.fld (LRX_LOCK_CNT.RETRAIN_CNT 0) rfl rfl).trans hretrain)

/-! ### A retrain that does not lock in time (R130) -/

/-- The receiver of a lane whose retrain starts again. -/
def retrainAgain (c : Chip) (n : Nat) : Chip := ((c.setFlag (LRX_FAULT.RETRAIN_FAIL n) true).retrain n).endRetrain n .timeout

theorem retrainAgain_idle (c : Chip) (n : Nat) (h : c.mbx.exec = []) : (retrainAgain c n).mbx.exec = [] := by
  have hflag : (c.setFlag (LRX_FAULT.RETRAIN_FAIL n) true).mbx.exec = [] := h
  exact ((FaultKept.retrain _ n).trans (.endWait _ _ _)).idle hflag

theorem retrainTimeout_eq (c : Chip) (n : Nat) (h : c.mbx.exec = []) (hretrain : (c.rxOf n).retrain = true) (h3 : 3 ≤ c.rxState n) (h5 : c.rxState n ≤ 5) :
    c.retrainTimeout n = (retrainAgain c n).settle := by
  have hidle := retrainAgain_idle c n h
  unfold retrainAgain at hidle
  unfold Chip.retrainTimeout
  dsimp only
  rw [if_pos (by simp [hretrain, rxAcquire, rxFrameSeek, h3, h5]), hidle]
  rfl

theorem retrainTimeout_spec (c : Chip) (hn : n < 9) (h : c.mbx.exec = []) (hretrain : (c.rxOf n).retrain = true) (h3 : 3 ≤ c.rxState n)
    (h5 : c.rxState n ≤ 5) :
    (c.retrainTimeout n).flag (LRX_FAULT.RETRAIN_FAIL n) = true ∧ (c.retrainTimeout n).rxState n = 1 ∧
      ((c.retrainTimeout n).rxOf n).retrain = true ∧ ((c.retrainTimeout n).rxOf n).live = {} := by
  have hflag : RxStep [LRX_FAULT.RETRAIN_FAIL 0] n c (c.setFlag (LRX_FAULT.RETRAIN_FAIL n) true) :=
    .setFlag c n (LRX_FAULT.RETRAIN_FAIL 0) true rfl (by decide)
  have hon : c.pdOn (7 + n) = true := pdOn_of_rxState (by omega)
  obtain ⟨hlive, hretrains, -⟩ := retrain_rxOf (c.setFlag (LRX_FAULT.RETRAIN_FAIL n) true) hn
  have hkept : RxKept n ((c.setFlag (LRX_FAULT.RETRAIN_FAIL n) true).retrain n) (c.retrainTimeout n) := by
    rw [retrainTimeout_eq c n h hretrain h3 h5]
    exact .trans (.endWait hn _ _ _) (.settle hn _)
  rw [hkept.rxState, hkept.own]
  refine ⟨?_, retrain_rxState _ hn ((hflag.flds.pdOn _).trans hon), hretrains, hlive⟩
  refine (hkept.flag (LRX_FAULT.RETRAIN_FAIL 0) rfl).trans (((retrain_step _ hn).flds.flag (LRX_FAULT.RETRAIN_FAIL 0) rfl rfl).trans ?_)
  exact Chip.flag_setFlag c (LRX_FAULT.RETRAIN_FAIL n) true rfl rfl

theorem retrainTimeout_idle (c : Chip) (n : Nat) (h : c.mbx.exec = []) (hretrain : (c.rxOf n).retrain = true) (h3 : 3 ≤ c.rxState n)
    (h5 : c.rxState n ≤ 5) : (c.retrainTimeout n).mbx.exec = [] := by
  rw [retrainTimeout_eq c n h hretrain h3 h5]
  exact (FaultKept.settle _).idle (retrainAgain_idle c n h)

/-! ### A restore that does not lock in time (R132) -/

theorem retrainHeld_flds (c : Chip) (hn : n < 9) : RxFlds fallFlds n c (c.retrainHeld n) := by
  unfold Chip.retrainHeld
  exact .ite ((retrain_step c hn).flds.mono (by decide)) (.refl _ n c)

theorem requestSubst_flds (c : Chip) (hn : n < 9) : RxFlds fallFlds n c (c.requestSubst n) := by
  unfold Chip.requestSubst
  refine .trans ?_ ((evalPairing_flds hn _).mono (by decide))
  exact (((RxKept.withPly c _).trans (request_kept hn _ n true)).trans (setPlyRx_kept hn _ _)).flds _

theorem restoreFailed_flds (c : Chip) (hn : n < 9) : RxFlds fallFlds n c (c.restoreFailed n) := by
  have houtcome : ∀ (d : Chip), RxFlds fallFlds n d (if d.hnk.hold.contains n then
      { d.setOutcome n 2 with hnk := { d.hnk with spent := d.hnk.spent ++ [n] } } else d) := by
    intro d
    refine .ite (RxKept.flds (.trans (setOutcome_quiet hn d n 2).kept ?_) _) (.refl _ n d)
    exact .of rfl rfl rfl
  have hunavail : ∀ d : Chip, RxFlds fallFlds n d ((d.plyUnavailable n).retrainHeld n) :=
    fun d => ((plyUnavailable_quiet hn d n).flds _).trans (retrainHeld_flds _ hn)
  have hply : ∀ (d : Chip) (x : Ply), RxFlds fallFlds n d { d with ply := x } := fun d x => (RxKept.withPly d x).flds _
  unfold Chip.restoreFailed
  refine (houtcome c).trans (.ite ?_ (.ite (.refl _ n _) (retrainHeld_flds _ hn)))
  refine .trans ?_ (.ite (requestSubst_flds _ hn) (hunavail _))
  exact hply _ _

/-- What follows a restore window that has ended without LOCKED. -/
theorem windowExpiry_flds (c : Chip) (hn : n < 9) (h : (c.rxOf n).window.isSome = true) :
    RxFlds fallFlds n ((c.setFlag (LRX_FAULT.RESTORE_FAIL n) true).rxMod n (fun x => { x with window := none, retrain := false })) (c.windowExpiry n) := by
  have hrecord : ∀ d : Chip, RxFlds fallFlds n d (((d.dropLastGood n).noteRetrained n).retrain n) := by
    intro d
    have hnote : RxKept n (d.dropLastGood n) ((d.dropLastGood n).noteRetrained n) := .of rfl rfl rfl
    exact (((dropLastGood_quiet hn d n).kept.trans hnote).flds _).trans ((retrain_step _ hn).flds.mono (by decide))
  have hend : ∀ d : Chip, RxFlds fallFlds n d (d.flushWaiting n).settle := fun d => ((flushWaiting_quiet hn d n).kept.trans (.settle hn _)).flds _
  unfold Chip.windowExpiry
  split
  · next hnone =>
    rw [hnone] at h
    cases h
  · refine .trans ?_ (hend _)
    refine .trans ((toHold_step _ n).flds.mono (by decide)) ?_
    exact .ite (hrecord _) (restoreFailed_flds _ hn)

theorem windowExpiry_spec (c : Chip) (hn : n < 9) (h : (c.rxOf n).window.isSome = true) :
    (c.windowExpiry n).flag (LRX_FAULT.RESTORE_FAIL n) = true ∧ ((c.windowExpiry n).rxOf n).window = none := by
  have hflds := windowExpiry_flds c hn h
  refine ⟨(hflds.flag (LRX_FAULT.RESTORE_FAIL 0) rfl rfl).trans ?_, hflds.window ?_⟩
  · exact (Chip.rxMod_flag ..).trans (Chip.flag_setFlag c (LRX_FAULT.RESTORE_FAIL n) true rfl rfl)
  · rw [Chip.rxOf_rxMod _ _ _ hn]

theorem noteRetrained_idle (c : Chip) (n : Nat) (h : c.mbx.exec = []) : (c.noteRetrained n).mbx.exec = [] :=
  List.map_eq_nil_iff.2 h

theorem restoreFailed_faultKept (c : Chip) (n : Nat) : FaultKept c (c.restoreFailed n) := by
  have houtcome : ∀ d : Chip, FaultKept d (if d.hnk.hold.contains n then
      { d.setOutcome n 2 with hnk := { d.hnk with spent := d.hnk.spent ++ [n] } } else d) :=
    fun d => .ite ((FaultKept.setFld d _ _ (lockReg_hnk n)).trans (.withHnk _ _)) (.refl d)
  unfold Chip.restoreFailed
  refine (houtcome c).trans (.ite ?_ (.ite (.refl _) (.retrainHeld _ n)))
  refine .trans ?_ (.ite (.requestSubst _ n) ((FaultKept.plyUnavailable _ n).trans (.retrainHeld _ n)))
  exact .withPly _ _

theorem windowExpiry_idle (c : Chip) (n : Nat) (h : c.mbx.exec = []) : (c.windowExpiry n).mbx.exec = [] := by
  unfold Chip.windowExpiry
  split
  · exact h
  · dsimp only
    refine ((FaultKept.flushWaiting _ n).trans (.settle _)).idle ?_
    have hclosed : ((c.setFlag (LRX_FAULT.RESTORE_FAIL n) true).closeWindow n).mbx.exec = [] := by
      refine ((FaultKept.rxMod _ n _).trans (.toHold _ n)).idle ?_
      exact h
    split
    · exact (FaultKept.retrain _ n).idle (noteRetrained_idle _ n ((FaultKept.dropLastGood _ n).idle hclosed))
    · exact (restoreFailed_faultKept _ n).idle hclosed

end

/-! ### The settling theorem -/

theorem lineLocked_next (s : State) (n : LLane) (h : (s.chip.lineLocked n.1).mbx.exec = []) :
    exec (.lineLocked n) s = .next { s with chip := s.chip.lineLocked n.1 } := portNext_idle s (fun c => c.lineLocked n.1) h

theorem lineLos_next (s : State) (n : LLane) (h : (s.chip.lineLos n.1).mbx.exec = []) :
    exec (.lineLos n) s = .next { s with chip := s.chip.lineLos n.1 } := portNext_idle s (fun c => c.lineLos n.1) h

theorem lockLoss_next (s : State) (n : LLane) (x : LossCause) (h : (s.chip.lossCycle [(n.1, lossCode x)]).mbx.exec = []) :
    exec (.lockLoss [(n, x)]) s = .next { s with chip := s.chip.lossCycle [(n.1, lossCode x)] } :=
  portNext_idle s (fun c => c.lossCycle [(n.1, lossCode x)]) h

theorem retrainTimeout_next (s : State) (n : LLane) (h : (s.chip.retrainTimeout n.1).mbx.exec = []) :
    exec (.retrainTimeout n) s = .next { s with chip := s.chip.retrainTimeout n.1 } := portNext_idle s (fun c => c.retrainTimeout n.1) h

theorem restoreWindowExpiry_next (s : State) (n : LLane) (h : (s.chip.windowExpiry n.1).mbx.exec = []) :
    exec (.restoreWindowExpiry n) s = .next { s with chip := s.chip.windowExpiry n.1 } := portNext_idle s (fun c => c.windowExpiry n.1) h

/-- Settles O23, a lemma for each transition. -/
theorem lineReceiverStates : Obligations.LineReceiverStates := by
  unfold Obligations.LineReceiverStates
  intro s n hon
  refine ⟨fun h1 => ⟨_, rfl, calDone_spec s.chip n.1 hon h1⟩, fun hsig h7 => ⟨_, rfl, lineSignal_spec s.chip n.1 hon hsig h7⟩,
    fun h3 => ⟨_, rfl, blindDone_spec s.chip n.1 hon h3⟩, fun hexec hplanned => ⟨fun hcrit h3 h6 => ?_, fun hsig => ⟨fun h6 => ?_, fun h3 h5 hwindow => ?_⟩,
      fun x h6 => ?_, fun hretrain h3 h5 => ?_, fun hwindow => ?_⟩⟩
  · exact ⟨_, lineLocked_next s n (lineLocked_idle s.chip n.2 hcrit h3 h6 hexec), lineLocked_spec s.chip n.2 hcrit h3 h6 hplanned⟩
  · exact ⟨_, lineLos_next s n (lineLos_locked_idle s.chip n.1 hon hsig h6 hexec), lineLos_locked_spec s.chip n.2 hon hsig h6 hplanned⟩
  · exact ⟨_, lineLos_next s n (lineLos_learning_idle s.chip n.1 hon hsig h3 h5 hwindow hexec),
      lineLos_learning_spec s.chip n.2 hon hsig h3 h5 hwindow⟩
  · refine ⟨_, lockLoss_next s n x (lossCycle_idle s.chip n.1 (lossCode x) hon h6 hexec), ?_⟩
    dsimp only
    exact lossCycle_spec s.chip n.2 x hon h6 hplanned
  · exact ⟨_, retrainTimeout_next s n (retrainTimeout_idle s.chip n.1 hexec hretrain h3 h5),
      retrainTimeout_spec s.chip n.2 hexec hretrain h3 h5⟩
  · exact ⟨_, restoreWindowExpiry_next s n (windowExpiry_idle s.chip n.1 hexec), windowExpiry_spec s.chip n.2 hwindow⟩

end Sys2Proof.Machine
end

section
/-! PROOFS. The count of the swaps of a tension table. -/

namespace Sys2Proof.Machine

/-- SWAP_CNT has 16 bits and stops at 0xFFFF (R168). -/
theorem ttSwap_swapCnt (c : Chip) (n : Nat) (h : (c.txOf n).pend.swap = true) :
    (c.ttSwap n).fld (LTX_TT_STATUS.SWAP_CNT n) = min 65535 (c.fld (LTX_TT_STATUS.SWAP_CNT n) + 1) := by
  have hcount : ∀ d : Chip, (d.satInc (LTX_TT_STATUS.SWAP_CNT n) 1).fld (LTX_TT_STATUS.SWAP_CNT n) =
      min 65535 (d.fld (LTX_TT_STATUS.SWAP_CNT n) + 1) := by
    intro d
    refine (Chip.fld_setFld d (LTX_TT_STATUS.SWAP_CNT n) _ rfl).trans (Nat.mod_eq_of_lt ?_)
    exact Nat.lt_succ_of_le (Nat.min_le_left _ _)
  have hlimit : (LTX_STATUS.TT_AT_LIMIT n).apart (LTX_TT_STATUS.SWAP_CNT n) = true :=
    Fld.apart_addr (by simp only [LTX_STATUS.TT_AT_LIMIT, LTX_STATUS.addr, LTX_TT_STATUS.SWAP_CNT, LTX_TT_STATUS.addr]; omega)
  have hfault : (LTX_FAULT.TT_LIMIT n).apart (LTX_TT_STATUS.SWAP_CNT n) = true :=
    Fld.apart_addr (by simp only [LTX_FAULT.TT_LIMIT, LTX_FAULT.addr, LTX_TT_STATUS.SWAP_CNT, LTX_TT_STATUS.addr]; omega)
  have hlast : (LTX_TT_STATUS.SRC_LAST n).apart (LTX_TT_STATUS.SWAP_CNT n) = true := rfl
  unfold Chip.ttSwap
  rw [if_pos h]
  dsimp only
  split
  · rw [Chip.raise_fld, Chip.fld_setFlag_other _ _ _ _ hfault, Chip.fld_setFlag_other _ _ _ _ hlimit, Chip.fld_setFlag_other _ _ _ _ hlast,
      hcount, Chip.txMod_fld]
  · rw [Chip.fld_setFlag_other _ _ _ _ hlimit, Chip.fld_setFlag_other _ _ _ _ hlast, hcount, Chip.txMod_fld]

/-- A part whose domains are ON and whose L0 has swapped its tension table 255 times, with the next swap asked for. -/
def swapDue : State :=
  let c : Chip := { State.reset.chip with pmu := { pd := Vector.ofFn (fun _ => Power.on) } }
  { State.reset with
    chip := (c.setFld (LTX_TT_STATUS.SWAP_CNT 0) 255).txMod 0 (fun x => { x with pend := { x.pend with swap := true } }) }

theorem swapDue_pend : (swapDue.chip.txOf 0).pend.swap = true := by
  unfold swapDue
  rw [Chip.txOf_txMod _ 0 _ (by decide)]

theorem swapDue_swapCnt : swapDue.chip.fld (LTX_TT_STATUS.SWAP_CNT 0) = 255 :=
  (Chip.txMod_fld ..).trans (Chip.fld_setFld _ (LTX_TT_STATUS.SWAP_CNT 0) 255 rfl)

theorem ttSwap_next (s : State) (n : LLane) : exec (.ttSwap n) s = .next (s.onChip (fun c => c.ttSwap n.1)) := rfl

/-- Refutes O26: the 256th swap takes SWAP_CNT from 255 to 256, where the statement has the count stop at 255. The model keeps R168,
by which the count saturates at 0xFFFF. -/
theorem not_lineTransmitterSteps : ¬ Obligations.LineTransmitterSteps := by
  intro h
  obtain ⟨-, -, -, hswap, -⟩ := h swapDue 0
  obtain ⟨t, hexec, -, -, -, hcount, -⟩ := hswap swapDue_pend
  rw [ttSwap_next] at hexec
  obtain rfl := Host.Outcome.next.inj hexec
  have hlimits : min 255 (swapDue.chip.fld (LTX_TT_STATUS.SWAP_CNT 0) + 1) = min 65535 (swapDue.chip.fld (LTX_TT_STATUS.SWAP_CNT 0) + 1) :=
    hcount.symm.trans (ttSwap_swapCnt _ 0 swapDue_pend)
  rw [swapDue_swapCnt] at hlimits
  exact absurd hlimits (by decide)

end Sys2Proof.Machine
end

section
/-! PROOFS. The line transmitter commands. -/

namespace Sys2Proof.Machine

/-! ### A register written by command (R190, R434) -/

/-- The config shadow keeps `v` for the register at `a`. -/
def Chip.keepWritten (c : Chip) (a : Nat) (v : Word) : Chip :=
  { c with cfg := some { c.shadowNow with fwRegs := tabSet resetWord c.shadowNow.fwRegs a v } }

theorem fwWrite_off (c : Chip) (d a : Nat) (v : Word) (h : c.pdOn d = false) : c.fwWrite d a v = c.keepWritten a v :=
  if_neg (c := (c.keepWritten a v).pdOn d = true) (ne_true_of_eq_false h)

theorem fwWrite_on (c : Chip) (d a : Nat) (v : Word) (h : c.pdOn d = true) : c.fwWrite d a v = (c.keepWritten a v).setReg a v :=
  if_pos (c := (c.keepWritten a v).pdOn d = true) h

theorem fwWrite_tx (c : Chip) (d a : Nat) (v : Word) : (c.fwWrite d a v).tx = c.tx := by
  cases h : c.pdOn d with
  | false => rw [fwWrite_off c d a v h]; rfl
  | true => rw [fwWrite_on c d a v h]; rfl

/-- The config shadow holds what was written to a register of a domain that is off. -/
theorem keepWritten_shadow (c : Chip) (a : Nat) (v : Word) : tabGet resetWord (c.keepWritten a v).shadowNow.fwRegs a = v :=
  tabGet_tabSet_same _ _ _ _

/-! ### LINE_TX_STATUS (R168) -/

theorem lineTxStatus_answers (s : State) (src : CmdSrc) (c : Chip) (r : Req) (h : s.takes src 0x0405 c r) :
    let n := byteAt r.payload 0
    exec (.lineTxStatus src) s = .next { s with chip := c.conclude r (.done (if 8 < n then .fail .badArg else
      .okD (wordBytes [c.ltxStatusWord n, c.reg (LTX_TAPS0.addr n), c.reg (LTX_TAPS1.addr n), c.reg (LTX_TAPS2.addr n),
        c.seen (LTX_TT_STATUS.addr n), c.reg (LTX_TAP_CHAN.addr n)]))) } :=
  chipNext_takes s src _ c r _ _ _ h rfl

/-! ### LINE_TX_CFG (R167, R190) -/

/-- The start preset waits for the boundary. -/
def Chip.askPreset (c : Chip) (n : Nat) : Chip := c.txMod n (fun t => { t with pend := { t.pend with preset := some (c.startPreset n) } })

/-- What LINE_TX_CFG makes of the transmitter of lane `n`. -/
def Chip.configureTx (c : Chip) (n : Nat) (apply : Bool) (v : Nat) : Chip :=
  (c.fwWrite (7 + n) (LTX_TX_CFG.addr n) (BitVec.ofNat 32 v)).when apply (fun d => d.askPreset n)

theorem lineTxCfg_accepted (c : Chip) (n : Nat) (apply : Bool) (v : Nat) (hn : n ≤ 8) (hhigh : bitsOf v 24 8 = 0) (hlow : bitsOf v 0 7 = 0)
    (hon : apply = true → c.pdOn (7 + n) = true) : c.lineTxCfg n apply v = (c.configureTx n apply v, .done (.okR [])) := by
  have hready : (apply && !(c.pdOn (7 + n))) = false := by
    cases apply with
    | false => rfl
    | true => rw [hon rfl]; rfl
  unfold Chip.lineTxCfg
  rw [if_neg (by omega), if_neg (ne_true_of_eq_false hready)]
  rfl

theorem lineTxCfg_domainOff (c : Chip) (n : Nat) (apply : Bool) (v : Nat) (hn : n ≤ 8) (hhigh : bitsOf v 24 8 = 0) (hlow : bitsOf v 0 7 = 0)
    (happly : apply = true) (hoff : c.pdOn (7 + n) = false) : c.lineTxCfg n apply v = (c, .done (.fail .badState)) := by
  unfold Chip.lineTxCfg
  rw [if_neg (by omega), if_pos (by rw [happly, hoff]; rfl)]

theorem askPreset_startPreset (c : Chip) (n : Nat) : (c.askPreset n).startPreset n = c.startPreset n := by
  unfold Chip.askPreset
  generalize some (c.startPreset n) = p
  unfold Chip.startPreset
  rw [Chip.txMod_fld]

/-- Where the domain is off, the transmitter and its registers stay. -/
theorem configureTx_off (c : Chip) (n v : Nat) (h : c.pdOn (7 + n) = false) :
    (c.configureTx n false v).regs = c.regs ∧ (c.configureTx n false v).tx = c.tx ∧
      tabGet resetWord (c.configureTx n false v).shadowNow.fwRegs (LTX_TX_CFG.addr n) = BitVec.ofNat 32 v := by
  have hkept : c.configureTx n false v = c.keepWritten (LTX_TX_CFG.addr n) (BitVec.ofNat 32 v) := fwWrite_off c _ _ _ h
  rw [hkept]
  exact ⟨rfl, rfl, keepWritten_shadow c _ _⟩

theorem configureTx_reg (c : Chip) (n : Nat) (apply : Bool) (v : Nat) (h : c.pdOn (7 + n) = true) (a : Nat) :
    (c.configureTx n apply v).reg a = (c.setReg (LTX_TX_CFG.addr n) (BitVec.ofNat 32 v)).reg a := by
  have hwrite : (c.fwWrite (7 + n) (LTX_TX_CFG.addr n) (BitVec.ofNat 32 v)).regs = (c.setReg (LTX_TX_CFG.addr n) (BitVec.ofNat 32 v)).regs := by
    rw [fwWrite_on c _ _ _ h]
    rfl
  refine Eq.trans ?_ (Chip.reg_congr hwrite a)
  cases apply with
  | false => rfl
  | true => exact Chip.txMod_reg _ n _ a

/-- Only a command that applies it has the start preset wait. -/
theorem configureTx_preset (c : Chip) (n : Nat) (apply : Bool) (v : Nat) (hn : n ≤ 8) :
    ((c.configureTx n apply v).txOf n).pend.preset =
      if apply then some ((c.configureTx n apply v).startPreset n) else (c.txOf n).pend.preset := by
  cases apply with
  | false => exact congrArg (fun t => t.pend.preset) (Chip.txOf_congr (fwWrite_tx c _ _ _) n)
  | true =>
    have hkept : (c.configureTx n true v).startPreset n = _ :=
      askPreset_startPreset (c.fwWrite (7 + n) (LTX_TX_CFG.addr n) (BitVec.ofNat 32 v)) n
    rw [if_pos rfl, hkept]
    exact congrArg (fun t => t.pend.preset) (Chip.txOf_txMod _ n _ (by omega))

theorem configureTx_on (c : Chip) (n : Nat) (apply : Bool) (v : Nat) (h : c.pdOn (7 + n) = true) :
    ((c.configureTx n apply v).reg (LTX_TX_CFG.addr n)).toNat = v % 2 ^ 32 ∧
      ∀ a, a ≠ LTX_TX_CFG.addr n → (c.configureTx n apply v).reg a = c.reg a := by
  refine ⟨?_, fun a ha => (configureTx_reg c n apply v h a).trans (Chip.reg_setReg_other c _ _ _ ha)⟩
  rw [configureTx_reg c n apply v h, Chip.reg_setReg, BitVec.toNat_ofNat]

theorem lineTxCfg_answers (s : State) (src : CmdSrc) (c : Chip) (r : Req) (h : s.takes src 0x0406 c r) :
    let b := byteAt r.payload
    let v := arg32 r.payload 4
    let ends := fun (d : Chip) (y : Reply) => exec (.lineTxCfg src) s = .next { s with chip := d.conclude r (.done y) }
    (8 < b 0 ∨ bitsOf v 24 8 ≠ 0 ∨ bitsOf v 0 7 ≠ 0 → ends c (.fail .badArg)) ∧
      (b 0 ≤ 8 → bitsOf v 24 8 = 0 → bitsOf v 0 7 = 0 →
        (bit (b 1) 0 = true → c.pdOn (7 + b 0) = false → ends c (.fail .badState)) ∧
        (bit (b 1) 0 = false → c.pdOn (7 + b 0) = false →
          ∃ d : Chip, ends d (.okR []) ∧ d.regs = c.regs ∧ d.tx = c.tx ∧
            tabGet resetWord d.shadowNow.fwRegs (LTX_TX_CFG.addr (b 0)) = BitVec.ofNat 32 v) ∧
        (c.pdOn (7 + b 0) = true →
          ∃ d : Chip, ends d (.okR []) ∧ (d.reg (LTX_TX_CFG.addr (b 0))).toNat = v % 2 ^ 32 ∧
            (∀ a, a ≠ LTX_TX_CFG.addr (b 0) → d.reg a = c.reg a) ∧
            (d.txOf (b 0)).pend.preset = (if bit (b 1) 0 then some (d.startPreset (b 0)) else (c.txOf (b 0)).pend.preset))) := by
  intro b v ends
  refine ⟨fun hbad => ?_, fun hn hhigh hlow => ⟨fun happly hoff => ?_, fun happly hoff => ?_, fun hon => ?_⟩⟩
  · exact chipNext_takes s src _ c r _ _ _ h (if_pos hbad)
  · exact chipNext_takes s src _ c r _ _ _ h (lineTxCfg_domainOff c _ _ v hn hhigh hlow happly hoff)
  · refine ⟨c.configureTx (b 0) false v, chipNext_takes s src _ c r _ _ _ h ?_, configureTx_off c (b 0) v hoff⟩
    rw [← happly]
    exact lineTxCfg_accepted c (b 0) _ v hn hhigh hlow (fun hset => absurd (happly.symm.trans hset) Bool.false_ne_true)
  · obtain ⟨hreg, hother⟩ := configureTx_on c (b 0) (bit (b 1) 0) v hon
    refine ⟨_, chipNext_takes s src _ c r _ _ _ h ?_, hreg, hother, configureTx_preset c (b 0) _ v hn⟩
    exact lineTxCfg_accepted c (b 0) _ v hn hhigh hlow (fun _ => hon)

/-! ### LINE_TX_TABLE (R153, R154, R167) -/

/-- The tension table of the first `k` of the entries `es`, the others nominal. -/
def tableOfEntries (es : List Int) (k : Nat) : List (Nat × Int) :=
  (List.range k).foldl (fun t p => tabSet ttNominal t p (es.getD p 0)) []

theorem ttGet_tableOfEntries (es : List Int) (k p : Nat) (hp : p < k) : ttGet (tableOfEntries es k) p = es.getD p 0 := by
  induction k with
  | zero => exact absurd hp (Nat.not_lt_zero p)
  | succ k ih =>
    have hlast : tableOfEntries es (k + 1) = tabSet ttNominal (tableOfEntries es k) k (es.getD k 0) := by
      unfold tableOfEntries
      rw [List.range_succ, List.foldl_append]
      rfl
    rw [hlast]
    by_cases hpk : p = k
    · rw [hpk]
      exact tabGet_tabSet_same _ _ _ _
    · exact (tabGet_tabSet_other _ _ _ _ _ hpk).trans (ih (by omega))

/-- The shadow copy of lane `n` holds a table of the host's, and its swap is asked for; a sweep in progress ends (R153, R154). -/
def Chip.loadTable (c : Chip) (n : Nat) (t : List (Nat × Int)) : Chip :=
  (c.setSweep n (c.txOf n).sweepNo none).txMod n
    (fun x => { x with shadow := t, since := 0, pend := { x.pend with swap := true, hostLoad := true, clamped := false } })

theorem setSweep_txOf (c : Chip) (n no : Nat) (w : Option (List Int)) (hn : n < 9) :
    (c.setSweep n no w).txOf n = { c.txOf n with sweepNo := no, sweep := w } := by
  unfold Chip.setSweep
  dsimp only
  rw [Chip.setFld_txOf, Chip.setFlag_txOf, Chip.txOf_txMod _ _ _ hn]

theorem loadTable_spec (c : Chip) (n : Nat) (t : List (Nat × Int)) (hn : n < 9) :
    ((c.loadTable n t).txOf n).pend.swap = true ∧ ((c.loadTable n t).txOf n).pend.hostLoad = true ∧
      ((c.loadTable n t).txOf n).active = (c.txOf n).active ∧ ((c.loadTable n t).txOf n).shadow = t := by
  unfold Chip.loadTable
  rw [Chip.txOf_txMod _ _ _ hn, setSweep_txOf _ _ _ _ hn]
  exact ⟨rfl, rfl, rfl, rfl⟩

theorem tableArgs_good {n a : Nat} (hn : n ≤ 8) (hcap : capOk a 512 = true) : ¬ (8 < n ∨ capOk a 512 = false) := by
  rw [hcap]
  simpa using hn

theorem lineTxTable_noCapture (c : Chip) (n a : Nat) (hn : n ≤ 8) (hcap : capOk a 512 = true) (hoff : c.pdOn 19 = false) :
    c.lineTxTable n a = (c, .done (.fail .badState)) := by
  unfold Chip.lineTxTable
  rw [if_neg (tableArgs_good hn hcap), if_pos (by rw [hoff]; rfl)]

/-- LINE_TX_TABLE that has read its entries. -/
theorem lineTxTable_read (c : Chip) (n a : Nat) (l : List Byte) (hn : n ≤ 8) (hcap : capOk a 512 = true) (hmem : c.pdOn 19 = true)
    (hl : (c.readBytes .capture a 512).2 = some l) :
    c.lineTxTable n a =
      if (sx16s l 0 256).any (fun e => decide (e < -512) || decide (511 < e)) then ((c.readBytes .capture a 512).1, .done (.fail .badArg))
      else if !((c.readBytes .capture a 512).1.pdOn (7 + n)) then ((c.readBytes .capture a 512).1, .done (.fail .badState))
      else ((c.readBytes .capture a 512).1.loadTable n (tableOfEntries (sx16s l 0 256) 256), .done (.okR [])) := by
  unfold Chip.lineTxTable
  rw [if_neg (tableArgs_good hn hcap), if_neg (by simp [hmem])]
  dsimp only
  rw [hl]
  rfl

/-- A read of capture memory switches no domain. -/
theorem readCapture_pdOn (c : Chip) (a k e : Nat) : (c.readBytes .capture a k).1.pdOn e = c.pdOn e :=
  pdOn_of_pd (congrArg Pmu.pd (Calm.readBytes c .capture a k (fun _ _ h => MemId.noConfusion h)).pmu) e

/-- Entries that are all in range have none out of it. -/
theorem entries_inside (es : List Int) (h : es.all (fun e => decide (-512 ≤ e) && decide (e ≤ 511)) = true) :
    es.any (fun e => decide (e < -512) || decide (511 < e)) = false := by
  refine List.any_eq_false.2 (fun e he => ?_)
  have hrange := List.all_eq_true.1 h e he
  simp only [Bool.and_eq_true, decide_eq_true_eq] at hrange
  simp only [Bool.or_eq_true, decide_eq_true_eq]
  omega

theorem lineTxTable_answers (s : State) (src : CmdSrc) (c : Chip) (r : Req) (h : s.takes src 0x0407 c r) :
    let b := byteAt r.payload
    let v := arg32 r.payload 4
    let ends := fun (d : Chip) (y : Reply) => exec (.lineTxTable src) s = .next { s with chip := d.conclude r (.done y) }
    (8 < b 0 ∨ capOk v 512 = false → ends c (.fail .badArg)) ∧
      (b 0 ≤ 8 → capOk v 512 = true → c.pdOn 19 = false → ends c (.fail .badState)) ∧
      (b 0 ≤ 8 → capOk v 512 = true → c.pdOn 19 = true →
        ∀ l, (c.readBytes .capture v 512).2 = some l → (sx16s l 0 256).any (fun e => decide (e < -512) || decide (511 < e)) = true →
          ends (c.readBytes .capture v 512).1 (.fail .badArg)) ∧
      (b 0 ≤ 8 → capOk v 512 = true → c.pdOn 19 = true → c.pdOn (7 + b 0) = true →
        ∀ l, (c.readBytes .capture v 512).2 = some l → (sx16s l 0 256).all (fun e => decide (-512 ≤ e) && decide (e ≤ 511)) = true →
          ∃ d : Chip, ends d (.okR []) ∧ (d.txOf (b 0)).pend.swap = true ∧ (d.txOf (b 0)).pend.hostLoad = true ∧
            (d.txOf (b 0)).active = ((c.readBytes .capture v 512).1.txOf (b 0)).active ∧
            ∀ p, p < 256 → ttGet (d.txOf (b 0)).shadow p = (sx16s l 0 256).getD p 0) := by
  intro b v ends
  refine ⟨fun hbad => ?_, fun hn hcap hoff => ?_, fun hn hcap hmem l hl hout => ?_, fun hn hcap hmem hon l hl hin => ?_⟩
  · exact chipNext_takes s src _ c r _ _ _ h (if_pos hbad)
  · exact chipNext_takes s src _ c r _ _ _ h (lineTxTable_noCapture c _ v hn hcap hoff)
  · exact chipNext_takes s src _ c r _ _ _ h ((lineTxTable_read c _ _ l hn hcap hmem hl).trans (if_pos hout))
  · obtain ⟨hswap, hhost, hactive, hshadow⟩ :=
      loadTable_spec (c.readBytes .capture v 512).1 (b 0) (tableOfEntries (sx16s l 0 256) 256) (by omega)
    refine ⟨_, chipNext_takes s src _ c r _ _ _ h ((lineTxTable_read c _ _ l hn hcap hmem hl).trans ?_), hswap, hhost, hactive, fun p hp => ?_⟩
    · rw [if_neg (by rw [entries_inside _ hin]; exact Bool.false_ne_true), if_neg (by rw [readCapture_pdOn, hon]; exact Bool.false_ne_true)]
    · rw [hshadow]
      exact ttGet_tableOfEntries _ _ p hp

/-- Settles O27: each command by its own lemma. -/
theorem lineTransmitterCommands : Obligations.LineTransmitterCommands := by
  intro s src c r
  exact ⟨lineTxStatus_answers s src c r, lineTxCfg_answers s src c r, lineTxTable_answers s src c r⟩

end Sys2Proof.Machine
end

section
/-! PROOFS. The page-ins in flight: no operation but the start and the end of a page-in changes them. -/

namespace Sys2Proof.Machine

/-! ### Combinations -/

@[simp] theorem Chip.ite_chans (p : Prop) [Decidable p] (s t : Chip) :
    (if p then s else t).hnk.chans = if p then s.hnk.chans else t.hnk.chans := apply_ite (fun c : Chip => c.hnk.chans) p s t

theorem Chip.forAll_chans {α : Type} (l : List α) (f : Chip → α → Chip) (h : ∀ s x, (f s x).hnk.chans = s.hnk.chans) (s : Chip) :
    (s.forAll l f).hnk.chans = s.hnk.chans := by
  unfold Chip.forAll
  induction l generalizing s with
  | nil => rfl
  | cons x l ih => exact (ih (f s x)).trans (h s x)

@[simp] theorem Chip.endWait_hnk (s : Chip) (p : Wait → Bool) (y : Reply) : (s.endWait p y).hnk = s.hnk := (Calm.endWait s p y).hnk

/-! ### The receivers -/

@[simp] theorem Chip.setRxState_chans (s : Chip) (n st : Nat) : (s.setRxState n st).hnk.chans = s.hnk.chans := by simp [Chip.setRxState]

@[simp] theorem Chip.clearGood_chans (s : Chip) (n : Nat) : (s.clearGood n).hnk.chans = s.hnk.chans := by
  unfold Chip.clearGood Chip.killSnapshot
  split <;> rfl

@[simp] theorem Chip.leaveHold_chans (s : Chip) (n : Nat) : (s.leaveHold n).hnk.chans = s.hnk.chans := rfl

@[simp] theorem Chip.loseFrame_chans (s : Chip) (n : Nat) : (s.loseFrame n).hnk.chans = s.hnk.chans := by simp [Chip.loseFrame]

@[simp] theorem Chip.restartLock_chans (s : Chip) (n : Nat) : (s.restartLock n).hnk.chans = s.hnk.chans := by simp [Chip.restartLock]

@[simp] theorem Chip.restartCriteria_chans (s : Chip) (n : Nat) : (s.restartCriteria n).hnk.chans = s.hnk.chans := by
  simp [Chip.restartCriteria]

@[simp] theorem Chip.setLive_chans (s : Chip) (n : Nat) (x : Live) : (s.setLive n x).hnk.chans = s.hnk.chans := by
  simp [Chip.setLive, Chip.adcJudge]

@[simp] theorem Chip.retrain_chans (s : Chip) (n : Nat) : (s.retrain n).hnk.chans = s.hnk.chans := by simp [Chip.retrain]

@[simp] theorem Chip.toHold_chans (s : Chip) (n : Nat) : (s.toHold n).hnk.chans = s.hnk.chans := by
  simp [Chip.toHold, Chip.putHold, Chip.when, Chip.triggerCapture]

@[simp] theorem Chip.swapIn_chans (s : Chip) (n : Nat) (why : PageWhy) (l : List Byte) : (s.swapIn n why l).hnk.chans = s.hnk.chans := by
  simp [Chip.swapIn, Chip.showLive]

/-! ### The hank engine -/

@[simp] theorem Chip.withdrawPages_chans (s : Chip) (n : Nat) : (s.withdrawPages n).hnk.chans = s.hnk.chans := by
  simp [Chip.withdrawPages]

@[simp] theorem Chip.dropLastGood_chans (s : Chip) (n : Nat) : (s.dropLastGood n).hnk.chans = s.hnk.chans := by
  unfold Chip.dropLastGood
  split <;> rfl

@[simp] theorem Chip.dropActive_chans (s : Chip) (n : Nat) : (s.dropActive n).hnk.chans = s.hnk.chans := by
  unfold Chip.dropActive
  split <;> rfl

@[simp] theorem Chip.dropPins_chans (s : Chip) (n : Nat) : (s.dropPins n).hnk.chans = s.hnk.chans := by simp [Chip.dropPins]

@[simp] theorem Chip.flushLane_chans (s : Chip) (n : Nat) : (s.flushLane n).1.hnk.chans = s.hnk.chans :=
  (Chip.forAll_chans _ Chip.freeHank (fun _ _ => rfl) _).trans (s.dropPins_chans n)

@[simp] theorem Chip.flushWaiting_chans (s : Chip) (n : Nat) : (s.flushWaiting n).hnk.chans = s.hnk.chans := by simp [Chip.flushWaiting]

@[simp] theorem Chip.rxToOff_chans (s : Chip) (n : Nat) : (s.rxToOff n).hnk.chans = s.hnk.chans := by
  simp [Chip.rxToOff, Chip.losLevel]

@[simp] theorem Chip.offIfUnused_chans (s : Chip) (n : Nat) : (s.offIfUnused n).hnk.chans = s.hnk.chans := by simp [Chip.offIfUnused]

@[simp] theorem Chip.queueRestore_chans (s : Chip) (n : Nat) : (s.queueRestore n).hnk.chans = s.hnk.chans := by
  unfold Chip.queueRestore
  split
  · rfl
  · split <;> rfl

@[simp] theorem Chip.pageBack_chans (s : Chip) (n : Nat) : (s.pageBack n).hnk.chans = s.hnk.chans := by
  unfold Chip.pageBack
  split
  · rfl
  · split <;> rfl

@[simp] theorem Chip.setOutcome_chans (s : Chip) (n o : Nat) : (s.setOutcome n o).hnk.chans = s.hnk.chans :=
  congrArg Hnk.chans (Chip.setFld_hnk s _ o)

@[simp] theorem Chip.unbusy_chans (s : Chip) (i : Nat) : (s.unbusy i).hnk.chans = s.hnk.chans := rfl

@[simp] theorem Chip.markBad_chans (s : Chip) (i : Nat) : (s.markBad i).hnk.chans = s.hnk.chans :=
  Chip.forAll_chans (List.range 9) _ (fun _ _ => by simp) s

theorem Chip.readHankStore_hnk (s : Chip) (a k : Nat) : (s.readBytes .hankStore a k).1.hnk = s.hnk :=
  (Calm.readBytes s .hankStore a k (fun _ _ h => MemId.noConfusion h)).hnk

@[simp] theorem Chip.readHank_hnk (s : Chip) (i : Nat) : (s.readHank i).1.hnk = s.hnk := by
  unfold Chip.readHank
  dsimp only
  rw [Chip.readHankStore_hnk]

/-! ### The fault logic -/

@[simp] theorem Chip.request_chans (s : Chip) (n : Nat) (ply : Bool) : (s.request n ply).hnk.chans = s.hnk.chans := by
  simp [Chip.request, Chip.when]

/-- Proved from `setFld_hnk` and not by `rfl`: a lemma that holds by `rfl` leaves no step in the proofs that use it, and the kernel would
compare the states before and after field by field. -/
@[simp] theorem Chip.setPlyRx_chans (s : Chip) (st : Nat) : (s.setPlyRx st).hnk.chans = s.hnk.chans :=
  congrArg Hnk.chans (Chip.setFld_hnk s _ st)

@[simp] theorem Chip.setPaired_chans (s : Chip) (p : Option Nat) : (s.setPaired p).hnk.chans = s.hnk.chans := by
  have hflags := Chip.forAll_chans (List.range 8) (fun s n => s.setFlag (CRL_LANE_STATUS.PAIRED n) (decide (p = some n))) (fun _ _ => rfl) s
  unfold Chip.setPaired
  dsimp only
  split
  · rw [Chip.setFld_hnk, hflags]
  · exact hflags

@[simp] theorem Chip.commitSubst_chans (s : Chip) (n : Nat) : (s.commitSubst n).hnk.chans = s.hnk.chans := by
  have hports := fun (l : List Nat) (d : Chip) =>
    Chip.forAll_chans l (fun s p => s.portMod p (fun x => { x with realign := decide (x.st = .fault) })) (fun _ _ => by simp) d
  simp [Chip.commitSubst, hports]

@[simp] theorem Chip.evalPairing_chans (s : Chip) : s.evalPairing.hnk.chans = s.hnk.chans := by
  have hend : ∀ s : Chip, s.endPairing.hnk.chans = s.hnk.chans := by
    intro s
    unfold Chip.endPairing
    split <;> simp
  have hstart : ∀ s : Chip, s.startPairing.hnk.chans = s.hnk.chans := by
    intro s
    unfold Chip.startPairing
    split <;> simp
  exact (hstart _).trans (hend s)

@[simp] theorem Chip.plyUnavailable_chans (s : Chip) (n : Nat) : (s.plyUnavailable n).hnk.chans = s.hnk.chans := rfl

@[simp] theorem Chip.requestSubst_chans (s : Chip) (n : Nat) : (s.requestSubst n).hnk.chans = s.hnk.chans := by simp [Chip.requestSubst]

@[simp] theorem Chip.retrainHeld_chans (s : Chip) (n : Nat) : (s.retrainHeld n).hnk.chans = s.hnk.chans := by simp [Chip.retrainHeld]

@[simp] theorem Chip.plyDrop_chans (s : Chip) (n : Nat) : (s.plyDrop n).hnk.chans = s.hnk.chans := by simp [Chip.plyDrop, Chip.l8Left]

@[simp] theorem Chip.restoreFailed_chans (s : Chip) (n : Nat) : (s.restoreFailed n).hnk.chans = s.hnk.chans := by simp [Chip.restoreFailed]

@[simp] theorem Chip.noRestore_chans (s : Chip) (n : Nat) : (s.noRestore n).hnk.chans = s.hnk.chans := by simp [Chip.noRestore]

/-! ### What the end of a page-in does -/

@[simp] theorem Chip.afterFlight_chans (s : Chip) (n : Nat) : (s.afterFlight n).hnk.chans = s.hnk.chans := by simp [Chip.afterFlight]

@[simp] theorem Chip.pageAbandoned_chans (s : Chip) (r : PageReq) : (s.pageAbandoned r).hnk.chans = s.hnk.chans := by
  unfold Chip.pageAbandoned
  split <;> simp [Chip.noteRetrained]

@[simp] theorem Chip.pageSwap_chans (s : Chip) (r : PageReq) (l : List Byte) : (s.pageSwap r l).hnk.chans = s.hnk.chans := by
  simp [Chip.pageSwap]

end Sys2Proof.Machine
end

section
/-! PROOFS. Where no command executes, none does after a page-in ends; and the page-ins in flight after it. -/

namespace Sys2Proof.Machine

/-! ### The parts of a page-in's end -/

theorem FaultKept.queuePage (s : Chip) (r : PageReq) : FaultKept s (s.queuePage r) := .withHnk s _

theorem FaultKept.pageBack (s : Chip) (n : Nat) : FaultKept s (s.pageBack n) := by
  unfold Chip.pageBack
  refine .ite (.refl s) ?_
  split
  · exact .queuePage s _
  · exact .queuePage s _
  · exact .refl s

theorem FaultKept.queueRestore (s : Chip) (n : Nat) : FaultKept s (s.queueRestore n) := by
  unfold Chip.queueRestore
  split
  · exact .refl s
  · exact .ite (.refl s) (.queuePage s _)

theorem FaultKept.setOutcome (s : Chip) (n o : Nat) : FaultKept s (s.setOutcome n o) := .setFld s _ o (lockReg_hnk n)

theorem FaultKept.noRestore (s : Chip) (n : Nat) : FaultKept s (s.noRestore n) := by
  unfold Chip.noRestore
  refine .trans ((FaultKept.setOutcome s n 3).trans (.leaveHold _ n)) (.ite ?_ (.ite (.refl _) (.retrainHeld _ n)))
  exact (FaultKept.withPly _ _).trans (.ite (.requestSubst _ n) ((FaultKept.plyUnavailable _ n).trans (.retrainHeld _ n)))

theorem FaultKept.afterFlight (s : Chip) (n : Nat) : FaultKept s (s.afterFlight n) :=
  .ite (.ite (.queueRestore s n) (.noRestore s n)) (.refl s)

theorem FaultKept.offIfUnused (s : Chip) (n : Nat) : FaultKept s (s.offIfUnused n) := .ite (.refl s) (.rxToOff s n)

theorem FaultKept.markBad (s : Chip) (i : Nat) : FaultKept s (s.markBad i) := by
  unfold Chip.markBad
  refine .trans ?_ (.raise _ _ _)
  refine .trans (.forAll (List.range 9) _ (fun s n _ => ?_) s) (.withHnk _ _)
  exact (FaultKept.ite (.dropLastGood s n) (.refl s)).trans (.ite (.dropActive _ n) (.refl _))

theorem FaultKept.readHankStore (s : Chip) (a k : Nat) : FaultKept s (s.readBytes .hankStore a k).1 :=
  .ofCalm (Calm.ofEcc (Calm.readBytes s .hankStore a k (fun _ _ h => MemId.noConfusion h))) (.of (Chip.readBytes_portsExec ..)) serveReg_lock

theorem FaultKept.readHank (s : Chip) (i : Nat) : FaultKept s (s.readHank i).1 := by
  unfold Chip.readHank
  dsimp only
  exact FaultKept.readHankStore s _ _

theorem FaultKept.showLive (s : Chip) (n : Nat) : FaultKept s (s.showLive n) := by
  have hcdr : lockReg (LRX_CDR.addr n) = false := lockReg_receiver 0x4C n (by decide) (by decide)
  exact (FaultKept.setFld s _ _ hcdr).trans (.setFld _ _ _ hcdr)

theorem FaultKept.swapIn (s : Chip) (n : Nat) (why : PageWhy) (l : List Byte) : FaultKept s (s.swapIn n why l) := by
  unfold Chip.swapIn
  have hlive : ∀ d : Chip, FaultKept s d → FaultKept s ((d.showLive n).restartCriteria n) := fun d hd =>
    (hd.trans (.showLive d n)).trans (.restartCriteria _ n)
  refine .trans (hlive _ (.trans ((FaultKept.clearGood s n).trans (.setLive _ n _)) (.rxMod _ n _))) (.ite (.toHold _ n) ?_)
  refine .trans ?_ (.setRxState _ n _)
  exact (FaultKept.rxMod _ n _).trans (.setRxStatus _ n 8 3 0 (by decide))

theorem FaultKept.pageSwap (s : Chip) (r : PageReq) (l : List Byte) : FaultKept s (s.pageSwap r l) := by
  unfold Chip.pageSwap
  dsimp only
  refine .trans ?_ (.offIfUnused _ _)
  refine .trans ?_ (.ite (.afterFlight _ _) (.refl _))
  refine .trans ?_ (.ite (.endWait _ _ _) (.refl _))
  refine .trans ?_ (.ite (.plyDrop _ _) (.refl _))
  exact (FaultKept.raise s _ _).trans (.ite (.swapIn _ _ _ l) (.refl _))

theorem pageAbandoned_idle (c : Chip) (r : PageReq) (h : c.mbx.exec = []) : (c.pageAbandoned r).mbx.exec = [] := by
  unfold Chip.pageAbandoned
  split
  · exact (restoreFailed_faultKept c r.lane).idle h
  · exact (FaultKept.retrain _ _).idle (noteRetrained_idle _ _ ((FaultKept.dropLastGood c r.lane).idle h))
  · exact (FaultKept.pageBack c r.lane).idle h
  · exact ((FaultKept.endWait c _ _).trans (.afterFlight _ _)).idle h

/-! ### The end of a page-in -/

/-- What becomes of the page-in `r` of lane `n` that has left its channel, its source having been in state `x`. -/
def Chip.pageEnds (s : Chip) (n : Nat) (r : PageReq) (x : HankSlot) : Chip :=
  if x.st = .free then s.pageAbandoned r
  else if x.st = .bad then s.pageAbandoned r
  else
    let q := s.readHank r.slot
    match q.2 with
    | none => (q.1.markBad r.slot).pageAbandoned r
    | some l =>
      if !(hankSound l) then (q.1.markBad r.slot).pageAbandoned r
      else if hankPhys l ≠ n then q.1.pageAbandoned r
      else q.1.pageSwap r l

/-- The channel of `r` is free. -/
def Chip.freeChannel (s : Chip) (r : PageReq) : Chip := { s with hnk := { s.hnk with chans := s.hnk.chans.erase r } }

theorem pageDone_eq (c : Chip) (n : Nat) (r : PageReq) (h : c.inFlight n = some r) :
    c.pageDone n =
      (((((c.freeChannel r).unbusy r.slot).pageEnds n r ((c.freeChannel r).hankSlot r.slot)).offIfUnused n).flushWaiting n).settle := by
  unfold Chip.pageDone
  rw [h]
  rfl

theorem pageEnds_chans (c : Chip) (n : Nat) (r : PageReq) (x : HankSlot) : (c.pageEnds n r x).hnk.chans = c.hnk.chans := by
  unfold Chip.pageEnds
  dsimp only
  split
  · simp
  · split
    · simp
    · split <;> simp

theorem pageEnds_idle (c : Chip) (n : Nat) (r : PageReq) (x : HankSlot) (h : c.mbx.exec = []) : (c.pageEnds n r x).mbx.exec = [] := by
  have hread : (c.readHank r.slot).1.mbx.exec = [] := (FaultKept.readHank c r.slot).idle h
  have hbad : (((c.readHank r.slot).1.markBad r.slot).pageAbandoned r).mbx.exec = [] :=
    pageAbandoned_idle _ r ((FaultKept.markBad _ _).idle hread)
  unfold Chip.pageEnds
  dsimp only
  split
  · exact pageAbandoned_idle c r h
  · split
    · exact pageAbandoned_idle c r h
    · split
      · exact hbad
      · split
        · exact hbad
        · split
          · exact pageAbandoned_idle _ r hread
          · exact (FaultKept.pageSwap _ r _).idle hread

theorem pageDone_chans (c : Chip) (n : Nat) (r : PageReq) (h : c.inFlight n = some r) : (c.pageDone n).hnk.chans = c.hnk.chans.erase r := by
  rw [pageDone_eq c n r h, Chip.settle_hnk, Chip.flushWaiting_chans, Chip.offIfUnused_chans, pageEnds_chans]
  rfl

theorem pageDone_idle (c : Chip) (n : Nat) (r : PageReq) (h : c.inFlight n = some r) (hexec : c.mbx.exec = []) : (c.pageDone n).mbx.exec = [] := by
  rw [pageDone_eq c n r h]
  refine (((FaultKept.offIfUnused _ n).trans (.flushWaiting _ n)).trans (.settle _)).idle ?_
  exact pageEnds_idle _ n r _ hexec

/-- R180: the channel of a page-in that ends is free. -/
theorem pageInDone_next (s : State) (n : LLane) (r : PageReq) (hexec : s.chip.mbx.exec = []) (h : s.chip.inFlight n.1 = some r) :
    exec (.pageInDone n) s = .next (s.onChip (fun c => c.pageDone n.1)) :=
  portNext_idle s _ (pageDone_idle s.chip n.1 r h hexec)

end Sys2Proof.Machine
end

section
/-! PROOFS. The hank store: slots, captures, pins, and a page-in that starts. -/

namespace Sys2Proof.Machine

/-! ### Slots (R175, R176) -/

theorem hankSlot_congr {c d : Chip} (h : d.hnk.slots = c.hnk.slots) (i : Nat) : d.hankSlot i = c.hankSlot i := by
  unfold Chip.hankSlot
  rw [h]

theorem hankSlot_setHankSlot (c : Chip) (i : Nat) (x : HankSlot) : (c.setHankSlot i x).hankSlot i = x := tabGet_tabSet_same _ _ _ _

theorem hankSlot_hankSlotMod (c : Chip) (i : Nat) (f : HankSlot → HankSlot) : (c.hankSlotMod i f).hankSlot i = f (c.hankSlot i) :=
  hankSlot_setHankSlot _ _ _

theorem hankSlot_touchSlot (c : Chip) (i : Nat) : (c.touchSlot i).hankSlot i = { c.hankSlot i with stamp := c.hnk.stampCnt + 1 } :=
  hankSlot_hankSlotMod _ _ _

theorem hankSlot_setFld (c : Chip) (f : Fld) (v i : Nat) : (c.setFld f v).hankSlot i = c.hankSlot i := rfl

theorem hankSlot_setFlag (c : Chip) (f : Fld) (b : Bool) (i : Nat) : (c.setFlag f b).hankSlot i = c.hankSlot i := rfl

theorem touchSlot_snaps (c : Chip) (i : Nat) : (c.touchSlot i).hnk.snaps = c.hnk.snaps := rfl

theorem putGran_hankStore_regs (c : Chip) (i v : Nat) : (c.putGran .hankStore i v).regs = c.regs := rfl

theorem writeHankStore_regs (c : Chip) (a : Nat) (l : List Byte) : (c.writeBytes .hankStore a l).regs = c.regs := by
  have hput : ∀ (l : List Nat) (i : Nat) (d : Chip), (Chip.putBytes i .hankStore l d).regs = d.regs := by
    intro l
    induction l with
    | nil => intro i d; rfl
    | cons v l ih => intro i d; exact (ih _ _).trans (putGran_hankStore_regs d i v)
  exact hput _ _ c

theorem writeHankStore_hnk (c : Chip) (a : Nat) (l : List Byte) : (c.writeBytes .hankStore a l).hnk = c.hnk :=
  (Calm.writeBytes eccReg c .hankStore a l (fun _ _ h => MemId.noConfusion h)).hnk

/-! ### A hank written into a slot (R176) -/

/-- The hank `img` in slot `i`, which is BUSY. -/
def Chip.fillSlot (c : Chip) (img : List Byte) (i : Nat) : Chip :=
  ((c.setHankSlot i { st := .held, lane := hankPhys img, busy := 1 }).writeBytes .hankStore (hankOff i) img).touchSlot i

theorem writeHank_some (c : Chip) (img : List Byte) (i : Nat) (h : c.pickSlot = some i) : c.writeHank img = some (c.fillSlot img i, i) := by
  unfold Chip.writeHank
  rw [h]
  rfl

theorem writeHank_none (c : Chip) (img : List Byte) (h : c.pickSlot = none) : c.writeHank img = none := by
  unfold Chip.writeHank
  rw [h]

theorem fillSlot_regs (c : Chip) (img : List Byte) (i : Nat) : (c.fillSlot img i).regs = c.regs := writeHankStore_regs _ _ img

theorem fillSlot_slot (c : Chip) (img : List Byte) (i : Nat) :
    ((c.fillSlot img i).hankSlot i).st = .held ∧ ((c.fillSlot img i).hankSlot i).busy = 1 := by
  unfold Chip.fillSlot
  rw [hankSlot_touchSlot, hankSlot_congr (congrArg Hnk.slots (writeHankStore_hnk _ _ img)), hankSlot_setHankSlot]
  exact ⟨rfl, rfl⟩

theorem fillSlot_snaps (c : Chip) (img : List Byte) (i : Nat) : (c.fillSlot img i).hnk.snaps = c.hnk.snaps := by
  unfold Chip.fillSlot
  rw [touchSlot_snaps, writeHankStore_hnk]
  rfl

/-! ### A capture (R177, R178) -/

/-- R176, R177, R178: a capture takes the slot of R176, which is BUSY, and is in progress. -/
theorem capture_spec (c : Chip) (n kind i : Nat) (hnone : c.snapOf n kind = none) (hpick : c.pickSlot = some i) :
    ((c.capture n kind).hankSlot i).st = .held ∧ ((c.capture n kind).hankSlot i).busy = 1 ∧
      (c.capture n kind).snapOf n kind = some ⟨n, i, kind, false⟩ ∧ (c.capture n kind).regs = c.regs := by
  unfold Chip.capture
  dsimp only
  rw [writeHank_some c _ i hpick]
  dsimp only
  generalize c.hankImage n kind ((tabGet Config.firstGen c.hnk.gen (2 * n + kind) + 1) % 2 ^ 32) = img
  obtain ⟨hheld, hbusy⟩ := fillSlot_slot c img i
  refine ⟨hheld, hbusy, ?_, fillSlot_regs c img i⟩
  unfold Chip.snapOf at hnone ⊢
  dsimp only
  rw [fillSlot_snaps, List.find?_append, hnone]
  simp

theorem checkpoint_captures (c : Chip) (n : Nat) (hon : c.pdOn 18 = true) (h6 : c.rxState n = 6) (hnone : c.snapOf n 1 = none)
    (hwritten : (c.snapOf n 0).all (fun x => x.written) = true) : c.checkpoint n = c.capture n 1 := by
  unfold Chip.checkpoint Chip.locked
  rw [if_pos (by simp [hon, h6, hnone, hwritten, rxLocked])]

theorem snapshot_captures (c : Chip) (n : Nat) (hon : c.pdOn 18 = true) (hgood : c.flag (LRX_STATUS.GOOD n) = true) (hnone : c.snapOf n 0 = none) :
    c.snapshot n = c.capture n 0 := by
  unfold Chip.snapshot
  rw [if_pos (by simp [hon, hgood, hnone])]

/-! ### Pins (R175) -/

theorem lastGood_congr {c d : Chip} {n : Nat} (hvalid : d.flag (HNK_LANE_STATUS.LG_VALID n) = c.flag (HNK_LANE_STATUS.LG_VALID n))
    (hslot : d.fld (HNK_LANE_STATUS.LAST_GOOD n) = c.fld (HNK_LANE_STATUS.LAST_GOOD n)) : d.lastGood n = c.lastGood n := by
  unfold Chip.lastGood
  rw [hvalid, hslot]

theorem activeHank_congr {c d : Chip} {n : Nat} (hvalid : d.flag (HNK_LANE_STATUS.ACT_VALID n) = c.flag (HNK_LANE_STATUS.ACT_VALID n))
    (hslot : d.fld (HNK_LANE_STATUS.ACTIVE n) = c.fld (HNK_LANE_STATUS.ACTIVE n)) : d.activeHank n = c.activeHank n := by
  unfold Chip.activeHank
  rw [hvalid, hslot]

theorem lastGood_of_regs {c d : Chip} (h : d.regs = c.regs) (n : Nat) : d.lastGood n = c.lastGood n :=
  lastGood_congr (congrArg (· == 1) (Chip.fld_congr h _)) (Chip.fld_congr h _)

theorem activeHank_of_regs {c d : Chip} (h : d.regs = c.regs) (n : Nat) : d.activeHank n = c.activeHank n :=
  activeHank_congr (congrArg (· == 1) (Chip.fld_congr h _)) (Chip.fld_congr h _)

/-- A field of the lane's status apart from those that show its ACTIVE hank. -/
theorem activeHank_setFld (c : Chip) (n : Nat) (f : Fld) (v : Nat) (hvalid : f.apart (HNK_LANE_STATUS.ACT_VALID n) = true)
    (hslot : f.apart (HNK_LANE_STATUS.ACTIVE n) = true) : (c.setFld f v).activeHank n = c.activeHank n :=
  activeHank_congr (Chip.flag_setFld_other c f _ v hvalid) (Chip.fld_setFld_other c f _ v hslot)

theorem lastGood_setFld (c : Chip) (n : Nat) (f : Fld) (v : Nat) (hvalid : f.apart (HNK_LANE_STATUS.LG_VALID n) = true)
    (hslot : f.apart (HNK_LANE_STATUS.LAST_GOOD n) = true) : (c.setFld f v).lastGood n = c.lastGood n :=
  lastGood_congr (Chip.flag_setFld_other c f _ v hvalid) (Chip.fld_setFld_other c f _ v hslot)

theorem dropLastGood_activeHank (c : Chip) (n : Nat) : (c.dropLastGood n).activeHank n = c.activeHank n := by
  unfold Chip.dropLastGood
  split
  · rfl
  · exact (activeHank_setFld _ n _ _ rfl rfl).trans (activeHank_setFld _ n (HNK_LANE_STATUS.LG_VALID n) (b2n false) rfl rfl)

theorem dropActive_lastGood (c : Chip) (n : Nat) : (c.dropActive n).lastGood n = c.lastGood n := by
  unfold Chip.dropActive
  split
  · rfl
  · exact (lastGood_setFld _ n _ _ rfl rfl).trans (lastGood_setFld _ n (HNK_LANE_STATUS.ACT_VALID n) (b2n false) rfl rfl)

theorem dropLastGood_lastGood (c : Chip) (n : Nat) : (c.dropLastGood n).lastGood n = none := by
  unfold Chip.dropLastGood
  split
  · next h => exact h
  · unfold Chip.lastGood
    rw [Chip.flag_setFld_other _ _ _ _ rfl, Chip.flag_setFlag _ _ _ rfl rfl]
    rfl

theorem dropActive_activeHank (c : Chip) (n : Nat) : (c.dropActive n).activeHank n = none := by
  unfold Chip.dropActive
  split
  · next h => exact h
  · unfold Chip.activeHank
    rw [Chip.flag_setFld_other _ _ _ _ rfl, Chip.flag_setFlag _ _ _ rfl rfl]
    rfl

theorem pinLastGood_spec (c : Chip) (n i : Nat) (hi : i < 2048) :
    (c.pinLastGood n i).lastGood n = some i ∧ ((c.pinLastGood n i).hankSlot i).lastGood = true ∧
      (c.pinLastGood n i).activeHank n = c.activeHank n := by
  unfold Chip.pinLastGood
  refine ⟨?_, ?_, ?_⟩
  · unfold Chip.lastGood
    rw [Chip.flag_setFld_other _ _ _ _ rfl, Chip.flag_setFlag _ _ _ rfl rfl, if_pos rfl, Chip.fld_setFld _ _ _ rfl]
    exact congrArg some (Nat.mod_eq_of_lt hi)
  · rw [hankSlot_setFld, hankSlot_setFlag, hankSlot_hankSlotMod]
  · refine (activeHank_setFld _ n _ _ rfl rfl).trans ((activeHank_setFld _ n (HNK_LANE_STATUS.LG_VALID n) (b2n true) rfl rfl).trans ?_)
    exact dropLastGood_activeHank c n

theorem pinActive_spec (c : Chip) (n i : Nat) (hi : i < 2048) :
    (c.pinActive n i).activeHank n = some i ∧ ((c.pinActive n i).hankSlot i).active = true ∧
      (c.pinActive n i).lastGood n = c.lastGood n := by
  unfold Chip.pinActive
  refine ⟨?_, ?_, ?_⟩
  · unfold Chip.activeHank
    rw [Chip.flag_setFld_other _ _ _ _ rfl, Chip.flag_setFlag _ _ _ rfl rfl, if_pos rfl, Chip.fld_setFld _ _ _ rfl]
    exact congrArg some (Nat.mod_eq_of_lt hi)
  · rw [hankSlot_setFld, hankSlot_setFlag, hankSlot_hankSlotMod]
  · refine (lastGood_setFld _ n _ _ rfl rfl).trans ((lastGood_setFld _ n (HNK_LANE_STATUS.ACT_VALID n) (b2n true) rfl rfl).trans ?_)
    exact dropActive_lastGood c n

/-! ### Commits (R177 to R179) -/

/-- The hank in slot `i` copied into lane `n`'s record of the config shadow (R179). -/
def Chip.recordHank (c : Chip) (n i : Nat) : Chip :=
  match (c.readHank i).2 with
  | none => (c.readHank i).1
  | some l => (c.readHank i).1.writeBytes .shadow (shadowRecOff n) l

/-- The lane's last restores and the change of its far end are forgotten (R183, R184). -/
def Chip.clearLimits (c : Chip) (n : Nat) : Chip :=
  (c.setFlag (HNK_LANE_STATUS.LIMITED n) false).setFlag (HNK_LANE_STATUS.FAR_CHANGED n) false

theorem clearLimits_hankSlot (c : Chip) (n i : Nat) : (c.clearLimits n).hankSlot i = c.hankSlot i := rfl

theorem commitSnapshot_eq (c : Chip) (n : Nat) (x : Snap) (h : c.snapOf n 0 = some x) :
    c.commitSnapshot n = ((((c.dropSnap x).unbusy x.slot).pinLastGood n x.slot).clearLimits n).recordHank n x.slot := by
  unfold Chip.commitSnapshot
  rw [h]
  rfl

theorem commitCheckpoint_eq (c : Chip) (n : Nat) (x : Snap) (h : c.snapOf n 1 = some x) :
    c.commitCheckpoint n = ((c.dropSnap x).unbusy x.slot).pinActive n x.slot := by
  unfold Chip.commitCheckpoint
  rw [h]

theorem recordHank_calm (c : Chip) (n i : Nat) : Calm eccReg c (c.recordHank n i) := by
  have hread : Calm eccReg c (c.readHank i).1 := by
    unfold Chip.readHank
    dsimp only
    exact Calm.readBytes c .hankStore _ _ (fun _ _ h => MemId.noConfusion h)
  unfold Chip.recordHank
  split
  · exact hread
  · exact hread.trans (Calm.writeBytes _ _ .shadow _ _ (fun _ _ h => MemId.noConfusion h))

theorem eccReg_hnk (n : Nat) : eccReg (HNK_LANE_STATUS.addr n) = false := by
  have hbeyond : ¬ HNK_LANE_STATUS.addr n < 0xC0000 := by
    unfold HNK_LANE_STATUS.addr
    omega
  exact Bool.and_eq_false_iff.2 (.inr (decide_eq_false hbeyond))

/-- A change of nothing but the ECC registers leaves the slots and what shows the pins. -/
theorem Calm.hankStatus {c d : Chip} (h : Calm eccReg c d) (n : Nat) :
    d.lastGood n = c.lastGood n ∧ d.activeHank n = c.activeHank n ∧
      d.flag (HNK_LANE_STATUS.LIMITED n) = c.flag (HNK_LANE_STATUS.LIMITED n) ∧
      d.flag (HNK_LANE_STATUS.FAR_CHANGED n) = c.flag (HNK_LANE_STATUS.FAR_CHANGED n) ∧ ∀ i, d.hankSlot i = c.hankSlot i :=
  ⟨lastGood_congr (h.flag _ (eccReg_hnk n)) (h.fld _ (eccReg_hnk n)), activeHank_congr (h.flag _ (eccReg_hnk n)) (h.fld _ (eccReg_hnk n)),
    h.flag _ (eccReg_hnk n), h.flag _ (eccReg_hnk n), hankSlot_congr (congrArg Hnk.slots h.hnk)⟩

theorem clearLimits_spec (c : Chip) (n : Nat) :
    (c.clearLimits n).lastGood n = c.lastGood n ∧ (c.clearLimits n).activeHank n = c.activeHank n ∧
      (c.clearLimits n).flag (HNK_LANE_STATUS.LIMITED n) = false ∧ (c.clearLimits n).flag (HNK_LANE_STATUS.FAR_CHANGED n) = false := by
  unfold Chip.clearLimits
  refine ⟨?_, ?_, ?_, Chip.flag_setFlag _ _ _ rfl rfl⟩
  · exact (lastGood_setFld _ n (HNK_LANE_STATUS.FAR_CHANGED n) (b2n false) rfl rfl).trans
      (lastGood_setFld _ n (HNK_LANE_STATUS.LIMITED n) (b2n false) rfl rfl)
  · exact (activeHank_setFld _ n (HNK_LANE_STATUS.FAR_CHANGED n) (b2n false) rfl rfl).trans
      (activeHank_setFld _ n (HNK_LANE_STATUS.LIMITED n) (b2n false) rfl rfl)
  · rw [Chip.flag_setFlag_other _ _ _ _ rfl, Chip.flag_setFlag _ _ _ rfl rfl]

/-- R177, R179, R183, R184: the pin moves onto a snapshot that commits. -/
theorem commitSnapshot_spec (c : Chip) (n : Nat) (x : Snap) (h : c.snapOf n 0 = some x) (hslot : x.slot < 2048) :
    (c.commitSnapshot n).lastGood n = some x.slot ∧ ((c.commitSnapshot n).hankSlot x.slot).lastGood = true ∧
      (c.commitSnapshot n).flag (HNK_LANE_STATUS.LIMITED n) = false ∧ (c.commitSnapshot n).flag (HNK_LANE_STATUS.FAR_CHANGED n) = false ∧
      (c.commitSnapshot n).activeHank n = c.activeHank n := by
  rw [commitSnapshot_eq c n x h]
  obtain ⟨hpinned, hmark, hactive⟩ := pinLastGood_spec ((c.dropSnap x).unbusy x.slot) n x.slot hslot
  obtain ⟨hgood, hkept, hlimited, hfar⟩ := clearLimits_spec (((c.dropSnap x).unbusy x.slot).pinLastGood n x.slot) n
  obtain ⟨hgood', hkept', hlimited', hfar', hslots⟩ :=
    (recordHank_calm ((((c.dropSnap x).unbusy x.slot).pinLastGood n x.slot).clearLimits n) n x.slot).hankStatus n
  rw [hgood', hgood, hslots, clearLimits_hankSlot, hlimited', hfar', hkept', hkept]
  exact ⟨hpinned, hmark, hlimited, hfar, hactive.trans (activeHank_of_regs rfl n)⟩

/-! ### A page-in that starts (R180, R183) -/

/-- The page-in `r` has taken a channel. -/
def Chip.takeChannel (c : Chip) (r : PageReq) : Chip :=
  { c with hnk := { c.hnk with queue := c.hnk.queue.erase r, chans := c.hnk.chans ++ [r] } }

/-- Slot `i` has one user more, which uses a hank that is held now. -/
def Chip.useSlot (c : Chip) (i : Nat) : Chip :=
  let c := c.hankSlotMod i (fun x => { x with busy := x.busy + 1 })
  if (c.hankSlot i).st = .held then c.touchSlot i else c

theorem startPage_eq (c : Chip) (r : PageReq) (hon : c.pdOn 18 = true) (hroom : c.hnk.chans.length < 3)
    (h : c.hnk.queue.find? (fun q => c.pageMayStart q.lane) = some r) :
    c.startPage = if r.why = .restore then ((c.takeChannel r).useSlot r.slot).countRestore r.lane else (c.takeChannel r).useSlot r.slot := by
  unfold Chip.startPage
  rw [if_pos (by simp [hon, hroom]), h]
  rfl

theorem useSlot_spec (c : Chip) (i : Nat) :
    (c.useSlot i).hnk.chans = c.hnk.chans ∧ (c.useSlot i).hnk.queue = c.hnk.queue ∧
      ((c.useSlot i).hankSlot i).busy = (c.hankSlot i).busy + 1 := by
  have hbusy : ((c.hankSlotMod i (fun x => { x with busy := x.busy + 1 })).hankSlot i).busy = (c.hankSlot i).busy + 1 :=
    congrArg HankSlot.busy (hankSlot_hankSlotMod c i _)
  unfold Chip.useSlot
  dsimp only
  split
  · exact ⟨rfl, rfl, (congrArg HankSlot.busy (hankSlot_touchSlot _ i)).trans hbusy⟩
  · exact ⟨rfl, rfl, hbusy⟩

theorem countRestore_kept (c : Chip) (n : Nat) :
    (c.countRestore n).hnk.chans = c.hnk.chans ∧ (c.countRestore n).hnk.queue = c.hnk.queue ∧ (c.countRestore n).hnk.slots = c.hnk.slots := by
  unfold Chip.countRestore
  dsimp only
  split <;> exact ⟨rfl, rfl, rfl⟩

/-- R180, R183: the oldest request whose lane may have one takes a channel, and its source is BUSY. -/
theorem startPage_spec (c : Chip) (r : PageReq) (hon : c.pdOn 18 = true) (hroom : c.hnk.chans.length < 3)
    (h : c.hnk.queue.find? (fun q => c.pageMayStart q.lane) = some r) :
    c.startPage.hnk.chans = c.hnk.chans ++ [r] ∧ c.startPage.hnk.queue = c.hnk.queue.erase r ∧
      (c.startPage.hankSlot r.slot).busy = (c.hankSlot r.slot).busy + 1 := by
  have hused := useSlot_spec (c.takeChannel r) r.slot
  obtain ⟨hchans, hqueue, hslots⟩ := countRestore_kept ((c.takeChannel r).useSlot r.slot) r.lane
  rw [startPage_eq c r hon hroom h]
  split
  · rw [hchans, hqueue, hankSlot_congr hslots]
    exact hused
  · exact hused

/-! ### The settling theorem -/

/-- Settles O28, a lemma for each step. -/
theorem hankEngineSteps : Obligations.HankEngineSteps := by
  intro s n
  refine ⟨fun i hon hgood hnone hpick => ?_, fun x hx hslot => ⟨_, rfl, commitSnapshot_spec s.chip n.1 x hx hslot⟩,
    fun i hon h6 hnone hwritten hpick => ?_, fun x hx hslot => ?_, fun r hon hroom hfind => ⟨_, rfl, startPage_spec s.chip r hon hroom hfind⟩,
    fun r hexec hr => ⟨_, pageInDone_next s n r hexec hr, pageDone_chans s.chip n.1 r hr⟩⟩
  · refine ⟨_, rfl, ?_⟩
    obtain ⟨hheld, hbusy, hsnap, hregs⟩ := capture_spec s.chip n.1 0 i hnone hpick
    rw [show (s.onChip (fun c => c.snapshot n.1)).chip = s.chip.capture n.1 0 from snapshot_captures s.chip n.1 hon hgood hnone]
    exact ⟨hheld, hbusy, hsnap, lastGood_of_regs hregs n.1, hregs⟩
  · refine ⟨_, rfl, ?_⟩
    rw [show (s.onChip (fun c => c.checkpoint n.1)).chip = s.chip.capture n.1 1 from checkpoint_captures s.chip n.1 hon h6 hnone hwritten]
    exact capture_spec s.chip n.1 1 i hnone hpick
  · refine ⟨_, rfl, ?_⟩
    rw [show (s.onChip (fun c => c.commitCheckpoint n.1)).chip = _ from commitCheckpoint_eq s.chip n.1 x hx]
    obtain ⟨hpinned, hmark, hkept⟩ := pinActive_spec ((s.chip.dropSnap x).unbusy x.slot) n.1 x.slot hslot
    exact ⟨hpinned, hmark, hkept.trans (lastGood_of_regs rfl n.1)⟩

end Sys2Proof.Machine
end

section
/-! PROOFS. The hank commands. -/

namespace Sys2Proof.Machine

/-! ### HANK_POLICY and HANK_STATUS (R190, R191) -/

/-- A register written by command is kept in the config shadow, and shown where its domain is ON. -/
theorem fwWrite_spec (c : Chip) (d a : Nat) (v : Word) :
    tabGet resetWord (c.fwWrite d a v).shadowNow.fwRegs a = v ∧ (c.fwWrite d a v).reg a = (if c.pdOn d then v else c.reg a) ∧
      (∀ x, x ≠ a → (c.fwWrite d a v).reg x = c.reg x) ∧ (c.fwWrite d a v).mem = c.mem ∧ (c.fwWrite d a v).hnk = c.hnk := by
  cases h : c.pdOn d with
  | false =>
    rw [fwWrite_off c d a v h]
    exact ⟨keepWritten_shadow c a v, rfl, fun _ _ => rfl, rfl, rfl⟩
  | true =>
    rw [fwWrite_on c d a v h]
    exact ⟨keepWritten_shadow c a v, Chip.reg_setReg (c.keepWritten a v) a v,
      fun x hx => Chip.reg_setReg_other (c.keepWritten a v) a x v hx, rfl, rfl⟩

theorem hankPolicy_answers (s : State) (src : CmdSrc) (c : Chip) (r : Req) (h : s.takes src 0x0501 c r) :
    let b := byteAt r.payload
    let v := arg32 r.payload 4
    let ends := fun (d : Chip) (y : Reply) => exec (.hankPolicy src) s = .next { s with chip := d.conclude r (.done y) }
    (8 < b 0 → b 0 ≠ 0xFF → ends c (.fail .badArg)) ∧
      (b 0 ≤ 8 ∨ b 0 = 0xFF →
        let a := if b 0 = 0xFF then HNK_CFG.addr else HNK_LANE_CFG.addr (b 0)
        let w := BitVec.ofNat 32 (if b 0 = 0xFF then v else v % 32)
        ∃ d : Chip, ends d (.okR []) ∧ tabGet resetWord d.shadowNow.fwRegs a = w ∧
          d.reg a = (if c.pdOn 18 then w else c.reg a) ∧ (∀ x, x ≠ a → d.reg x = c.reg x) ∧ d.mem = c.mem ∧ d.hnk = c.hnk) := by
  intro b v ends
  refine ⟨fun hn hall => ?_, fun hn => ⟨_, ?_, fwWrite_spec c 18 _ _⟩⟩
  · exact chipNext_takes s src _ c r _ _ _ h ((if_neg hall).trans (if_pos hn))
  · refine chipNext_takes s src _ c r _ _ _ h ?_
    dsimp only
    by_cases hall : b 0 = 0xFF
    · rw [if_pos hall, if_pos hall, if_pos hall]
    · rw [if_neg hall, if_neg hall, if_neg hall, if_neg (show ¬ 8 < b 0 by omega)]

theorem hankStatus_answers (s : State) (src : CmdSrc) (c : Chip) (r : Req) (h : s.takes src 0x0502 c r) :
    let n := byteAt r.payload 0
    exec (.hankStatus src) s =
      .next { s with chip := c.conclude r (.done (if 8 < n then .fail .badArg else .okR (wordBytes [c.hankStoreWord, c.hankLaneWord n]))) } :=
  chipNext_takes s src _ c r _ _ _ h rfl

/-! ### HANK_READ (R174, R181, R310) -/

theorem hankReadArgs_good {i a : Nat} (hi : i < 2048) (hcap : capOk a 2048 = true) : ¬ (hankSlots ≤ i ∨ capOk a 2048 = false) := by
  rw [hcap]
  simpa [hankSlots] using hi

theorem hankRead_notThere (c : Chip) (i a : Nat) (hi : i < 2048) (hcap : capOk a 2048 = true)
    (hoff : c.pdOn 19 = false ∨ c.pdOn 18 = false ∨ (c.hankSlot i).st ≠ .held) : c.hankReadCmd i a = (c, .done (.fail .badState)) := by
  unfold Chip.hankReadCmd
  rw [if_neg (hankReadArgs_good hi hcap), if_pos]
  rcases hoff with h | h | h <;> simp [h]

/-- HANK_READ of a slot that is held, whose strong code fails. -/
theorem hankRead_bad (c : Chip) (i a : Nat) (hi : i < 2048) (hcap : capOk a 2048 = true) (hmem : c.pdOn 19 = true) (hon : c.pdOn 18 = true)
    (hheld : (c.hankSlot i).st = .held) (hl : (c.readHank i).2 = none) :
    c.hankReadCmd i a = ((c.readHank i).1.markBad i, .done (.fail .badState)) := by
  unfold Chip.hankReadCmd
  rw [if_neg (hankReadArgs_good hi hcap), if_neg (by simp [hmem, hon, hheld])]
  dsimp only
  rw [hl]

/-- HANK_READ of a slot that is held and can be read. -/
theorem hankRead_good (c : Chip) (i a : Nat) (hi : i < 2048) (hcap : capOk a 2048 = true) (hmem : c.pdOn 19 = true) (hon : c.pdOn 18 = true)
    (hheld : (c.hankSlot i).st = .held) (l : List Byte) (hl : (c.readHank i).2 = some l) :
    c.hankReadCmd i a = (((c.readHank i).1.touchSlot i).writeBytes .capture a l, .done (.okR [])) := by
  unfold Chip.hankReadCmd
  rw [if_neg (hankReadArgs_good hi hcap), if_neg (by simp [hmem, hon, hheld])]
  dsimp only
  rw [hl]

theorem hankRead_answers (s : State) (src : CmdSrc) (c : Chip) (r : Req) (h : s.takes src 0x0503 c r) :
    let v := arg32 r.payload 4
    let i := arg16 r.payload 0
    let ends := fun (d : Chip) (y : Reply) => exec (.hankRead src) s = .next { s with chip := d.conclude r (.done y) }
    (2048 ≤ i ∨ capOk v 2048 = false → ends c (.fail .badArg)) ∧
      (i < 2048 → capOk v 2048 = true →
        (c.pdOn 19 = false ∨ c.pdOn 18 = false ∨ (c.hankSlot i).st ≠ .held → ends c (.fail .badState)) ∧
        (c.pdOn 19 = true → c.pdOn 18 = true → (c.hankSlot i).st = .held →
          ((c.readHank i).2 = none → ends ((c.readHank i).1.markBad i) (.fail .badState)) ∧
          ∀ l, (c.readHank i).2 = some l → ends (((c.readHank i).1.touchSlot i).writeBytes .capture v l) (.okR []))) := by
  intro v i ends
  have hends : ∀ (d : Chip) (y : Reply), c.hankReadCmd i v = (d, .done y) → ends d y := fun d y hd => chipNext_takes s src _ c r _ d _ h hd
  refine ⟨fun hbad => hends _ _ (if_pos hbad), fun hi hcap => ⟨fun hoff => hends _ _ (hankRead_notThere c i v hi hcap hoff),
    fun hmem hon hheld => ⟨fun hl => hends _ _ (hankRead_bad c i v hi hcap hmem hon hheld hl),
      fun l hl => hends _ _ (hankRead_good c i v hi hcap hmem hon hheld l hl)⟩⟩⟩

/-! ### HANK_WRITE (R189, R192, R311, R318) -/

/-- May the hank `l` be written into a slot: sound, and of a lane, a logical lane and a rate that there are? -/
def HankGood (l : List Byte) : Prop := hankSound l = true ∧ hankPhys l ≤ 8 ∧ hankLogical l ≤ 7 ∧ hankRate l ≤ 1

theorem not_hankGood_iff (l : List Byte) :
    ¬ HankGood l ↔ ((!(hankSound l)) = true ∨ 8 < hankPhys l ∨ 7 < hankLogical l ∨ 1 < hankRate l) := by
  rw [HankGood, not_and_or, not_and_or, not_and_or, not_le, not_le, not_le, Bool.not_eq_true', Bool.not_eq_true]

/-- The hank `img` written by command into slot `i`, with a KEEP pin or without. -/
def Chip.placeHank (c : Chip) (img : List Byte) (keep : Bool) (i : Nat) : Chip :=
  ((c.fillSlot img i).unbusy i).hankSlotMod i (fun x => { x with keep := keep })

/-- HANK_WRITE of the hank `l`. -/
def Chip.storeHank (c : Chip) (keep : Bool) (l : List Byte) : Chip × Verdict :=
  if !(hankSound l) ∨ 8 < hankPhys l ∨ 7 < hankLogical l ∨ 1 < hankRate l then (c, .done (.fail .badArg))
  else if keep = true ∧ c.keepMax (hankPhys l) ≤ c.keeps (hankPhys l) then (c, .done (.fail .badState))
  else match c.pickSlot with
    | none => (c, .done (.fail .badState))
    | some i => (c.placeHank (rekind l) keep i, .done (.okR (leBytes 2 i)))

theorem hankWriteCmd_eq (c : Chip) (keep : Bool) (a : Nat) (l : List Byte) (hcap : capOk a 2048 = true) (hmem : c.pdOn 19 = true)
    (hon : c.pdOn 18 = true) (hl : (c.readBytes .capture a 2048).2 = some l) :
    c.hankWriteCmd keep a = (c.readBytes .capture a 2048).1.storeHank keep l := by
  unfold Chip.hankWriteCmd
  rw [if_neg (by rw [hcap]; exact Bool.noConfusion), if_neg (by simp [hmem, hon])]
  dsimp only
  rw [hl]
  generalize (c.readBytes .capture a 2048).1 = d
  dsimp only
  unfold Chip.storeHank
  cases hpick : d.pickSlot with
  | none => rw [writeHank_none d _ hpick]
  | some i =>
    rw [writeHank_some d _ i hpick]
    rfl

theorem storeHank_bad (c : Chip) (keep : Bool) (l : List Byte) (h : ¬ HankGood l) : c.storeHank keep l = (c, .done (.fail .badArg)) :=
  if_pos ((not_hankGood_iff l).1 h)

theorem storeHank_full (c : Chip) (keep : Bool) (l : List Byte) (h : HankGood l) (hkeep : keep = true)
    (hfull : c.keepMax (hankPhys l) ≤ c.keeps (hankPhys l)) : c.storeHank keep l = (c, .done (.fail .badState)) :=
  (if_neg (fun hbad => (not_hankGood_iff l).2 hbad h)).trans (if_pos ⟨hkeep, hfull⟩)

theorem storeHank_noSlot (c : Chip) (keep : Bool) (l : List Byte) (h : HankGood l)
    (hroom : keep = true → ¬ c.keepMax (hankPhys l) ≤ c.keeps (hankPhys l)) (hpick : c.pickSlot = none) :
    c.storeHank keep l = (c, .done (.fail .badState)) := by
  unfold Chip.storeHank
  rw [if_neg (fun hbad => (not_hankGood_iff l).2 hbad h), if_neg (fun hno => hroom hno.1 hno.2), hpick]

theorem storeHank_slot (c : Chip) (keep : Bool) (l : List Byte) (h : HankGood l)
    (hroom : keep = true → ¬ c.keepMax (hankPhys l) ≤ c.keeps (hankPhys l)) (i : Nat) (hpick : c.pickSlot = some i) :
    c.storeHank keep l = (c.placeHank (rekind l) keep i, .done (.okR (leBytes 2 i))) := by
  unfold Chip.storeHank
  rw [if_neg (fun hbad => (not_hankGood_iff l).2 hbad h), if_neg (fun hno => hroom hno.1 hno.2), hpick]

theorem placeHank_slot (c : Chip) (img : List Byte) (keep : Bool) (i : Nat) :
    ((c.placeHank img keep i).hankSlot i).st = .held ∧ ((c.placeHank img keep i).hankSlot i).busy = 0 ∧
      ((c.placeHank img keep i).hankSlot i).keep = keep := by
  obtain ⟨hheld, hbusy⟩ := fillSlot_slot c img i
  unfold Chip.placeHank Chip.unbusy
  rw [hankSlot_hankSlotMod, hankSlot_hankSlotMod]
  exact ⟨hheld, by rw [hbusy], rfl⟩

theorem hankWrite_answers (s : State) (src : CmdSrc) (c : Chip) (r : Req) (h : s.takes src 0x0504 c r) :
    let b := byteAt r.payload
    let v := arg32 r.payload 4
    let ends := fun (d : Chip) (y : Reply) => exec (.hankWrite src) s = .next { s with chip := d.conclude r (.done y) }
    (capOk v 2048 = false → ends c (.fail .badArg)) ∧
      (capOk v 2048 = true → c.pdOn 19 = false ∨ c.pdOn 18 = false → ends c (.fail .badState)) ∧
      (capOk v 2048 = true → c.pdOn 19 = true → c.pdOn 18 = true →
        let d := (c.readBytes .capture v 2048).1
        ∀ l, (c.readBytes .capture v 2048).2 = some l →
          let full := d.keepMax (hankPhys l) ≤ d.keeps (hankPhys l)
          (¬HankGood l → ends d (.fail .badArg)) ∧
          (HankGood l → bit (b 0) 0 = true → full → ends d (.fail .badState)) ∧
          (HankGood l → (bit (b 0) 0 = true → ¬full) →
            (d.pickSlot = none → ends d (.fail .badState)) ∧
            ∀ k, d.pickSlot = some k →
              ∃ e : Chip, ends e (.okR (leBytes 2 k)) ∧ (e.hankSlot k).st = .held ∧ (e.hankSlot k).busy = 0 ∧
                (e.hankSlot k).keep = bit (b 0) 0)) := by
  intro b v ends
  have hends : ∀ (d : Chip) (y : Reply), c.hankWriteCmd (bit (b 0) 0) v = (d, .done y) → ends d y :=
    fun d y hd => chipNext_takes s src _ c r _ d _ h hd
  refine ⟨fun hcap => hends _ _ (if_pos hcap), fun hcap hoff => hends _ _ ?_, fun hcap hmem hon => ?_⟩
  · unfold Chip.hankWriteCmd
    rw [if_neg (by rw [hcap]; exact Bool.noConfusion), if_pos]
    rcases hoff with h | h <;> simp [h]
  · intro d l hl full
    have hwrite := hankWriteCmd_eq c (bit (b 0) 0) v l hcap hmem hon hl
    refine ⟨fun hbad => hends _ _ (hwrite.trans (storeHank_bad _ _ l hbad)),
      fun hgood hkeep hfull => hends _ _ (hwrite.trans (storeHank_full _ _ l hgood hkeep hfull)), fun hgood hroom => ?_⟩
    exact ⟨fun hnone => hends _ _ (hwrite.trans (storeHank_noSlot _ _ l hgood hroom hnone)),
      fun k hpick => ⟨_, hends _ _ (hwrite.trans (storeHank_slot _ _ l hgood hroom k hpick)), placeHank_slot d _ _ k⟩⟩

/-! ### HANK_PIN and HANK_UNPIN (R189, R192) -/

theorem hankPin_held (c : Chip) (i : Nat) (hi : i < 2048) (hon : c.pdOn 18 = true) (hheld : (c.hankSlot i).st = .held) :
    c.hankPinCmd i =
      if (c.hankSlot i).keep then (c, .done (.okR []))
      else if c.keepMax (c.hankSlot i).lane ≤ c.keeps (c.hankSlot i).lane then (c, .done (.fail .badState))
      else (c.hankSlotMod i (fun x => { x with keep := true }), .done (.okR [])) := by
  unfold Chip.hankPinCmd
  dsimp only
  rw [if_neg (show ¬ hankSlots ≤ i from Nat.not_le.2 hi), if_neg (by simp [hon, hheld])]

theorem hankPin_answers (s : State) (src : CmdSrc) (c : Chip) (r : Req) (h : s.takes src 0x0505 c r) :
    let i := arg16 r.payload 0
    let ends := fun (d : Chip) (y : Reply) => exec (.hankPin src) s = .next { s with chip := d.conclude r (.done y) }
    (2048 ≤ i → ends c (.fail .badArg)) ∧
      (i < 2048 → c.pdOn 18 = false ∨ (c.hankSlot i).st ≠ .held → ends c (.fail .badState)) ∧
      (i < 2048 → c.pdOn 18 = true → (c.hankSlot i).st = .held →
        ((c.hankSlot i).keep = true → ends c (.okR [])) ∧
        ((c.hankSlot i).keep = false → c.keepMax (c.hankSlot i).lane ≤ c.keeps (c.hankSlot i).lane → ends c (.fail .badState)) ∧
        ((c.hankSlot i).keep = false → c.keeps (c.hankSlot i).lane < c.keepMax (c.hankSlot i).lane →
          ends (c.hankSlotMod i (fun x => { x with keep := true })) (.okR []))) := by
  intro i ends
  have hends : ∀ (d : Chip) (y : Reply), c.hankPinCmd i = (d, .done y) → ends d y := fun d y hd => chipNext_takes s src _ c r _ d _ h hd
  refine ⟨fun hi => hends _ _ (if_pos hi), fun hi hoff => hends _ _ ?_, fun hi hon hheld => ?_⟩
  · unfold Chip.hankPinCmd
    dsimp only
    rw [if_neg (show ¬ hankSlots ≤ i from Nat.not_le.2 hi), if_pos]
    rcases hoff with h | h <;> simp [h]
  · have hpin := hankPin_held c i hi hon hheld
    refine ⟨fun hkeep => hends _ _ (hpin.trans (if_pos hkeep)), fun hkeep hfull => hends _ _ ?_, fun hkeep hroom => hends _ _ ?_⟩
    · exact hpin.trans ((if_neg (ne_true_of_eq_false hkeep)).trans (if_pos hfull))
    · exact hpin.trans ((if_neg (ne_true_of_eq_false hkeep)).trans (if_neg (Nat.not_le.2 hroom)))

theorem hankUnpin_answers (s : State) (src : CmdSrc) (c : Chip) (r : Req) (h : s.takes src 0x0506 c r) :
    let i := arg16 r.payload 0
    let ends := fun (d : Chip) (y : Reply) => exec (.hankUnpin src) s = .next { s with chip := d.conclude r (.done y) }
    (2048 ≤ i → ends c (.fail .badArg)) ∧
      (i < 2048 → (c.hankSlot i).keep = false → ends c (.fail .badState)) ∧
      (i < 2048 → (c.hankSlot i).keep = true → ends (c.hankSlotMod i (fun x => { x with keep := false })) (.okR [])) := by
  intro i ends
  have hends : ∀ (d : Chip) (y : Reply), c.hankUnpinCmd i = (d, .done y) → ends d y := fun d y hd => chipNext_takes s src _ c r _ d _ h hd
  refine ⟨fun hi => hends _ _ (if_pos hi), fun hi hkeep => hends _ _ ?_, fun hi hkeep => hends _ _ ?_⟩
  · exact (if_neg (Nat.not_le.2 hi)).trans (if_pos (by rw [hkeep]; rfl))
  · exact (if_neg (Nat.not_le.2 hi)).trans (if_neg (by rw [hkeep]; decide))

/-! ### HANK_LOAD (R180, R189) -/

/-- The bytes of slot `i` that a HANK_LOAD compares. -/
def Chip.slotBytes (c : Chip) (i : Nat) : List Byte := ((c.hankSlot i).own).getD (c.bytesAt (MemId.hankStore.base + hankOff i) 2048)

/-- May slot `k` be loaded into lane `n`: the engine powered, a hank in the slot, and a lane that carries a port and is not failed? -/
def Chip.LoadReady (c : Chip) (n k : Nat) : Prop :=
  c.pdOn 18 = true ∧ (c.hankSlot k).st = .held ∧ c.carriesPort n = true ∧ c.laneFailed n = false

/-- Is the hank `l` one of lane `n` as it is set up? -/
def Chip.HankFits (c : Chip) (n : Nat) (l : List Byte) : Prop :=
  hankPhys l = n ∧ hankMode l = c.carriedMode n ∧ hankRate l = c.fld (LRX_STATUS.RATE n)

/-- HANK_LOAD with its lane and slot in range. -/
theorem hankLoadCmd_eq (c : Chip) (n : Nat) (force : Bool) (k : Nat) (hn : n ≤ 8) (hk : k < 2048) :
    c.hankLoadCmd n force k =
      if !(c.pdOn 18) || decide ((c.hankSlot k).st ≠ .held) || !(c.carriesPort n) || c.laneFailed n then (c, .done (.fail .badState))
      else if hankPhys (c.slotBytes k) ≠ n ∨ hankMode (c.slotBytes k) ≠ c.carriedMode n ∨
          hankRate (c.slotBytes k) ≠ c.fld (LRX_STATUS.RATE n) then
        (c, .done (.fail .badArg))
      else if c.laneUp n = true ∧ force = false then (c, .done (.fail .badState))
      else (c.queuePage ⟨n, k, .load⟩, .runs (.hankLoad n)) := by
  have hrange : ¬ (8 < n ∨ hankSlots ≤ k) := by
    unfold hankSlots
    omega
  unfold Chip.hankLoadCmd Chip.slotBytes
  rw [if_neg hrange]
  generalize c.bytesAt (MemId.hankStore.base + hankOff k) 2048 = l
  cases (c.hankSlot k).own <;> rfl

theorem loadReady_iff (c : Chip) (n k : Nat) :
    c.LoadReady n k ↔ ¬ (!(c.pdOn 18) || decide ((c.hankSlot k).st ≠ .held) || !(c.carriesPort n) || c.laneFailed n) = true := by
  simp [Chip.LoadReady, and_assoc]

theorem hankFits_iff (c : Chip) (n : Nat) (l : List Byte) :
    c.HankFits n l ↔ ¬ (hankPhys l ≠ n ∨ hankMode l ≠ c.carriedMode n ∨ hankRate l ≠ c.fld (LRX_STATUS.RATE n)) := by
  simp [Chip.HankFits]

theorem hankLoad_answers (s : State) (src : CmdSrc) (c : Chip) (r : Req) (h : s.takes src 0x0507 c r) :
    let b := byteAt r.payload
    let k := arg16 r.payload 2
    let ends := fun (d : Chip) (y : Reply) => exec (.hankLoad src) s = .next { s with chip := d.conclude r (.done y) }
    let ready := c.LoadReady (b 0) k
    let fits := c.HankFits (b 0) (c.slotBytes k)
    (8 < b 0 ∨ 2048 ≤ k → ends c (.fail .badArg)) ∧
      (b 0 ≤ 8 → k < 2048 →
        (¬ready → ends c (.fail .badState)) ∧
        (ready → ¬fits → ends c (.fail .badArg)) ∧
        (ready → fits → c.laneUp (b 0) = true → bit (b 1) 0 = false → ends c (.fail .badState)) ∧
        (ready → fits → c.laneUp (b 0) = false ∨ bit (b 1) 0 = true →
          exec (.hankLoad src) s = .next { s with chip := (c.queuePage ⟨b 0, k, .load⟩).conclude r (.runs (.hankLoad (b 0))) })) := by
  intro b k ends ready fits
  have hends : ∀ (d : Chip) (v : Verdict), c.hankLoadCmd (b 0) (bit (b 1) 0) k = (d, v) →
      exec (.hankLoad src) s = .next { s with chip := d.conclude r v } := fun d v hd => chipNext_takes s src _ c r _ d v h hd
  refine ⟨fun hbad => hends _ _ (if_pos hbad), fun hn hk => ?_⟩
  have hload := hankLoadCmd_eq c (b 0) (bit (b 1) 0) k hn hk
  have hready : ready ↔ _ := loadReady_iff c (b 0) k
  have hfits : fits ↔ _ := hankFits_iff c (b 0) (c.slotBytes k)
  refine ⟨fun hno => hends _ _ ?_, fun hok hno => hends _ _ ?_, fun hok hfit hup hforce => hends _ _ ?_, fun hok hfit hmay => hends _ _ ?_⟩
  · rw [hload, if_pos (Decidable.not_not.1 (mt hready.2 hno))]
  · rw [hload, if_neg (hready.1 hok), if_pos (Decidable.not_not.1 (mt hfits.2 hno))]
  · rw [hload, if_neg (hready.1 hok), if_neg (hfits.1 hfit), if_pos ⟨hup, hforce⟩]
  · have hnot : ¬ (c.laneUp (b 0) = true ∧ bit (b 1) 0 = false) := by
      rintro ⟨hup, hforce⟩
      rw [hup, hforce] at hmay
      simp at hmay
    rw [hload, if_neg (hready.1 hok), if_neg (hfits.1 hfit), if_neg hnot]

/-! ### HANK_FLUSH (R175, R187) -/

/-- A flush leaves the lane without pins. -/
theorem flushLane_pins (c : Chip) (n : Nat) : (c.flushLane n).1.lastGood n = none ∧ (c.flushLane n).1.activeHank n = none := by
  have hfree : ∀ (l : List Nat) (d : Chip), (d.forAll l Chip.freeHank).regs = d.regs := by
    intro l
    induction l with
    | nil => exact fun _ => rfl
    | cons i l ih => exact fun d => ih (d.freeHank i)
  have hregs : (c.flushLane n).1.regs = (c.dropPins n).regs := hfree _ _
  rw [lastGood_of_regs hregs, activeHank_of_regs hregs]
  unfold Chip.dropPins
  exact ⟨(dropActive_lastGood _ n).trans (dropLastGood_lastGood c n), dropActive_activeHank _ n⟩

theorem hankFlush_answers (s : State) (src : CmdSrc) (c : Chip) (r : Req) (h : s.takes src 0x0508 c r) :
    let b := byteAt r.payload
    let ends := fun (d : Chip) (y : Reply) => exec (.hankFlush src) s = .next { s with chip := d.conclude r (.done y) }
    (8 < b 0 → ends c (.fail .badArg)) ∧
      (b 0 ≤ 8 → c.pdOn 18 = false → ends c (.fail .badState)) ∧
      (b 0 ≤ 8 → c.pdOn 18 = true → c.restoring (b 0) = true →
        let d := { c with hnk := { c.hnk with flushWait := c.hnk.flushWait ++ [b 0] } }
        exec (.hankFlush src) s = .next { s with chip := d.conclude r (.runs (.hankFlush (b 0))) }) ∧
      (b 0 ≤ 8 → c.pdOn 18 = true → c.restoring (b 0) = false →
        ∃ d : Chip, ends d (.okR (leBytes 2 (c.flushLane (b 0)).2)) ∧ d.lastGood (b 0) = none ∧ d.activeHank (b 0) = none) := by
  intro b ends
  have hends : ∀ (d : Chip) (v : Verdict), c.hankFlushCmd (b 0) = (d, v) → exec (.hankFlush src) s = .next { s with chip := d.conclude r v } :=
    fun d v hd => chipNext_takes s src _ c r _ d v h hd
  refine ⟨fun hbad => hends _ _ (if_pos hbad), fun hn hoff => hends _ _ ?_, fun hn hon hbusy => hends _ _ ?_,
    fun hn hon hidle => ⟨_, hends _ _ ?_, flushLane_pins c (b 0)⟩⟩ <;> unfold Chip.hankFlushCmd
  · rw [if_neg (Nat.not_lt.2 hn), if_pos (by rw [hoff]; rfl)]
  · rw [if_neg (Nat.not_lt.2 hn), if_neg (by rw [hon]; decide), if_pos hbusy]
  · rw [if_neg (Nat.not_lt.2 hn), if_neg (by rw [hon]; decide), if_neg (ne_true_of_eq_false hidle)]

/-! ### The settling theorem -/

/-- Settles O29: each command by its own lemma. -/
theorem hankCommands : Obligations.HankCommands := by
  intro s src c r
  exact ⟨hankPolicy_answers s src c r, hankStatus_answers s src c r, hankRead_answers s src c r, hankWrite_answers s src c r,
    hankPin_answers s src c r, hankUnpin_answers s src c r, hankLoad_answers s src c r, hankFlush_answers s src c r⟩

end Sys2Proof.Machine
end

section
/-! PROOFS. Registers written by command and the creel's slots. -/

namespace Sys2Proof.Machine

/-! ### Registers written by command -/

theorem fwWrite_pdOn (c : Chip) (d a : Nat) (v : Word) (e : Nat) : (c.fwWrite d a v).pdOn e = c.pdOn e := by
  cases h : c.pdOn d with
  | false => rw [fwWrite_off c d a v h]; rfl
  | true => rw [fwWrite_on c d a v h]; rfl

/-- What the config shadow holds for another register stays. -/
theorem fwWrite_shadow_other (c : Chip) (d a : Nat) (v : Word) {x : Nat} (hx : x ≠ a) :
    tabGet resetWord (c.fwWrite d a v).shadowNow.fwRegs x = tabGet resetWord c.shadowNow.fwRegs x := by
  cases h : c.pdOn d with
  | false => rw [fwWrite_off c d a v h]; exact tabGet_tabSet_other _ _ _ _ _ hx
  | true => rw [fwWrite_on c d a v h]; exact tabGet_tabSet_other _ _ _ _ _ hx

theorem fwWrite_shadow (c : Chip) (d a : Nat) (v : Word) : tabGet resetWord (c.fwWrite d a v).shadowNow.fwRegs a = v :=
  (fwWrite_spec c d a v).1

theorem fwWrite_reg (c : Chip) (d a : Nat) (v : Word) (h : c.pdOn d = true) : (c.fwWrite d a v).reg a = v := by
  rw [(fwWrite_spec c d a v).2.1, if_pos h]

theorem fwWrite_reg_other (c : Chip) (d a : Nat) (v : Word) {x : Nat} (hx : x ≠ a) : (c.fwWrite d a v).reg x = c.reg x :=
  (fwWrite_spec c d a v).2.2.1 x hx

theorem fwWrite_crl (c : Chip) (d a : Nat) (v : Word) : (c.fwWrite d a v).crl = c.crl := by
  cases h : c.pdOn d with
  | false => rw [fwWrite_off c d a v h]; rfl
  | true => rw [fwWrite_on c d a v h]; rfl

theorem fwWrite_regs_off (c : Chip) (d a : Nat) (v : Word) (h : c.pdOn d = false) : (c.fwWrite d a v).regs = c.regs := by
  rw [fwWrite_off c d a v h]
  rfl

/-! ### Refreshing the creel's slots (R237, R244) -/

/-- The registers that a refresh of the slots may touch. -/
def slotsReg (a : Nat) : Bool :=
  a == CRL_STATUS.addr || a == CRL_BUF_STATUS.addr || (decide (0x400100 ≤ a) && decide (a < 0x400400) && a % 0x20 == 4)

theorem slotsReg_laneStatus {n : Nat} (hn : n < 9) : slotsReg (CRL_LANE_STATUS.addr n) = true := by
  have h1 : decide (0x400100 ≤ CRL_LANE_STATUS.addr n) = true := decide_eq_true (by simp only [CRL_LANE_STATUS.addr]; omega)
  have h2 : decide (CRL_LANE_STATUS.addr n < 0x400400) = true := decide_eq_true (by simp only [CRL_LANE_STATUS.addr]; omega)
  have h3 : CRL_LANE_STATUS.addr n % 0x20 = 4 := by simp only [CRL_LANE_STATUS.addr]; omega
  simp [slotsReg, h1, h2, h3]

theorem slotsReg_eq_false {a : Nat} (h0 : a ≠ CRL_STATUS.addr) (h1 : a ≠ CRL_BUF_STATUS.addr) (h : 0x400400 ≤ a ∨ a % 0x20 ≠ 4) :
    slotsReg a = false := by
  rw [Bool.eq_false_iff]
  simp only [slotsReg, Ne, Bool.or_eq_true, Bool.and_eq_true, decide_eq_true_eq, beq_iff_eq, h0, h1, false_or]
  omega

theorem RegsKept.crlStart (P : Nat → Bool) (c : Chip) (n : Nat) : RegsKept P c (c.crlStart n) :=
  .ofRegs P (Chip.crlMod_regs ..)

theorem RegsKept.setLevel (P : Nat → Bool) (c : Chip) (src : Nat) (b : Bool) (pay : Nat) : RegsKept P c (c.setLevel src b pay) :=
  .ofRegs P (by simp)

theorem RegsKept.crlStop {n : Nat} (hn : n < 9) (c : Chip) : RegsKept slotsReg c (c.crlStop n) :=
  ((RegsKept.ofRegs slotsReg rfl).trans (.setFlag _ (CRL_LANE_STATUS.SLUB n) false (slotsReg_laneStatus hn))).trans (RegsKept.setLevel _ _ _ _ _)

theorem RegsKept.crlRefresh (c : Chip) : RegsKept slotsReg c c.crlRefresh := by
  unfold Chip.crlRefresh
  refine .ite (.refl _ c) ?_
  refine .trans ?_ (RegsKept.setLevel _ _ _ _ _)
  refine .trans ?_ (.setFlag _ CRL_STATUS.GUAR_SHORT _ rfl)
  refine .trans ?_ (.setFld _ CRL_STATUS.RESERVE _ rfl)
  refine .trans ?_ (.setFld _ CRL_BUF_STATUS.ALLOC _ rfl)
  refine .trans ?_ (.forAll _ _ (fun d n hn => .setFld d _ _ (slotsReg_laneStatus (List.mem_range.1 hn))) _)
  refine .trans ?_ (.ofRegs _ rfl)
  refine .trans ?_ (.forAll _ _ (fun d n hn => .crlStop (List.mem_range.1 (List.mem_filter.1 hn).1) d) _)
  exact .forAll _ _ (fun d n _ => .crlStart _ d n) c

/-- The creel's state without its lanes, its codewords and the lanes that were active. -/
def Creel.frame (x : Creel) : Creel := { x with cws := [], lanes := Vector.replicate 9 {}, active := 0 }

theorem Chip.crlMod_cws (c : Chip) (n : Nat) (f : CrlLane → CrlLane) : (c.crlMod n f).crl.cws = c.crl.cws := by
  unfold Chip.crlMod
  split <;> rfl

theorem Chip.crlMod_frame (c : Chip) (n : Nat) (f : CrlLane → CrlLane) : (c.crlMod n f).crl.frame = c.crl.frame := by
  unfold Chip.crlMod
  split <;> rfl

theorem Chip.crlStart_cws (c : Chip) (n : Nat) : (c.crlStart n).crl.cws = c.crl.cws := Chip.crlMod_cws _ n _

theorem Chip.crlStart_frame (c : Chip) (n : Nat) : (c.crlStart n).crl.frame = c.crl.frame := Chip.crlMod_frame _ n _

theorem Chip.crlStop_crl (c : Chip) (n : Nat) : (c.crlStop n).crl = { c.crl with cws := c.crl.cws.filter (fun w => w.lane != n) } := by
  simp [Chip.crlStop]

/-- Codewords that each operation leaves or takes away are left or taken away by them all. -/
theorem forAll_cws_sublist {α : Type} (l : List α) (f : Chip → α → Chip) (h : ∀ c x, (f c x).crl.cws.Sublist c.crl.cws) (c : Chip) :
    (c.forAll l f).crl.cws.Sublist c.crl.cws := by
  unfold Chip.forAll
  induction l generalizing c with
  | nil => exact .refl _
  | cons x l ih => exact (ih (f c x)).trans (h c x)

/-- The lanes that became active take up their slots, and the slots of those that carry nothing any more are taken back. -/
def Chip.turnover (c : Chip) : Chip :=
  let s := c.forAll ((List.range 9).filter (fun n => bit (maskOf 9 c.crlActive) n && !(bit c.crl.active n))) Chip.crlStart
  s.forAll ((List.range 9).filter (fun n => !(bit (maskOf 9 c.crlActive) n) && bit c.crl.active n && !(decide (n < 8) && s.onL8 n))) Chip.crlStop

/-- A refresh of the slots leaves the codewords of the lanes that go on, and shows the slots. -/
theorem Chip.crlRefresh_crl (c : Chip) (hon : c.pdOn 16 = true) :
    c.crlRefresh.crl = { c.turnover.crl with active := maskOf 9 c.crlActive } := by
  unfold Chip.crlRefresh Chip.turnover
  rw [if_neg (by simp [hon])]
  dsimp only
  rw [Chip.setLevel_crl, Chip.setFlag_crl, Chip.setFld_crl, Chip.setFld_crl]
  exact forAll_keeps Chip.crl _ _ (fun d n _ => Chip.setFld_crl d _ _) _

theorem Chip.turnover_cws (c : Chip) : c.turnover.crl.cws.Sublist c.crl.cws := by
  unfold Chip.turnover
  refine .trans (forAll_cws_sublist _ _ (fun d n => ?_) _) (forAll_cws_sublist _ _ (fun d n => ?_) _)
  · rw [Chip.crlStop_crl]
    exact List.filter_sublist
  · rw [Chip.crlStart_cws]

theorem Chip.turnover_frame (c : Chip) : c.turnover.crl.frame = c.crl.frame := by
  unfold Chip.turnover
  refine (forAll_keeps (fun d => d.crl.frame) _ _ (fun d n _ => ?_) _).trans (forAll_keeps (fun d => d.crl.frame) _ _ (fun d n _ => ?_) c)
  · rw [Chip.crlStop_crl]
    rfl
  · exact Chip.crlStart_frame d n

theorem Chip.crlRefresh_cws (c : Chip) : c.crlRefresh.crl.cws.Sublist c.crl.cws := by
  cases hon : c.pdOn 16 with
  | false =>
    unfold Chip.crlRefresh
    rw [if_pos (by simp [hon])]
  | true =>
    rw [c.crlRefresh_crl hon]
    exact c.turnover_cws

end Sys2Proof.Machine
end

section
/-! PROOFS. The creel commands. -/

namespace Sys2Proof.Machine

/-! ### CREEL_CFG (R243, R253, R319) -/

theorem creelLaneCfg_inj {m n : Nat} (h : CRL_LANE_CFG.addr m = CRL_LANE_CFG.addr n) : m = n := by
  simp only [CRL_LANE_CFG.addr] at h
  omega

theorem slotsReg_laneCfg (n : Nat) : slotsReg (CRL_LANE_CFG.addr n) = false :=
  slotsReg_eq_false (by simp only [CRL_LANE_CFG.addr, CRL_STATUS.addr]; omega)
    (by simp only [CRL_LANE_CFG.addr, CRL_BUF_STATUS.addr]; omega) (.inr (by simp only [CRL_LANE_CFG.addr]; omega))

/-- The deadlines of several lanes written by one command. -/
theorem writeDeadlines_reg (c : Chip) (l : List Nat) (d : Word) (hon : c.pdOn 16 = true) :
    ∀ n ∈ l, (c.forAll l (fun s n => s.fwWrite 16 (CRL_LANE_CFG.addr n) d)).reg (CRL_LANE_CFG.addr n) = d := by
  intro n hn
  have hkept : (c.forAll l (fun s n => s.fwWrite 16 (CRL_LANE_CFG.addr n) d)).pdOn 16 = true :=
    (forAll_keeps (fun s => s.pdOn 16) l _ (fun s n _ => fwWrite_pdOn ..) c).trans hon
  refine forAll_brings (fun s n => s.pdOn 16 = true → s.reg (CRL_LANE_CFG.addr n) = d) l _ (fun s m h => ?_) (fun s m k hk h => ?_) c n hn hkept
  · rw [fwWrite_pdOn] at h
    exact fwWrite_reg s 16 _ d h
  · rw [fwWrite_pdOn] at h
    by_cases hmk : k = m
    · rw [hmk]
      exact fwWrite_reg s 16 _ d h
    · rw [fwWrite_reg_other s 16 _ d (fun heq => hmk (creelLaneCfg_inj heq))]
      exact hk h

theorem newDeadline_lanes (c : Chip) (p d : Nat) (hon : c.pdOn 16 = true) :
    ∀ n ∈ (c.port p).lineLanes, (c.newDeadline p d).reg (CRL_LANE_CFG.addr n) = BitVec.ofNat 32 d ∧
      ∀ w ∈ (c.newDeadline p d).crl.cws, w.lane ≠ n := by
  intro n hn
  unfold Chip.newDeadline
  dsimp only
  generalize (if (c.port p).lineLanes.any _ = true then [8] else []) = l8
  have hmem : n ∈ (c.port p).lineLanes ++ l8 := List.mem_append_left _ hn
  constructor
  · rw [RegsKept.crlRefresh _ _ (slotsReg_laneCfg n)]
    exact writeDeadlines_reg c _ _ hon n hmem
  · intro w hw heq
    have hleft := (List.mem_filter.1 ((Chip.crlRefresh_cws _).subset hw)).2
    simp [heq, hmem] at hleft

theorem creelCfg_pool (c : Chip) (l : List Byte) (h0 : byteAt l 0 = 0)
    (h : ¬ (22 < bitsOf (arg32 l 4) 0 5 ∨ bitsOf (arg32 l 4) 12 4 < 2 ∨ 8 < bitsOf (arg32 l 4) 12 4 ∨ 8 < bitsOf (arg32 l 4) 8 4)) :
    c.creelCfg l = ((c.fwWrite 16 CRL_FLOAT_CFG.addr (BitVec.ofNat 32 (arg32 l 4) &&& 0x01FFFF1F)).fwWrite 16 CRL_SLUB_CFG.addr
      (BitVec.ofNat 32 (arg32 l 8) &&& 0x00FF0FFF), .done (.okR [])) :=
  (if_pos h0).trans (if_neg h)

theorem creelCfg_port (c : Chip) (l : List Byte) (h0 : byteAt l 0 = 1) (h : ¬ (15 < byteAt l 1 ∨ byteAt l 2 < 8 ∨ 32 < byteAt l 2)) :
    c.creelCfg l =
      let x := c.port (byteAt l 1)
      if x.st ≠ .ready ∨ x.twist = false ∨ x.lineLanes.any (fun n => (c.portsOn n).any (fun q => decide ((c.port q).st = .up))) = true then
        (c, .done (.fail .badState))
      else (c.newDeadline (byteAt l 1) (byteAt l 2), .done (.okR [])) :=
  (if_neg (by omega)).trans (if_neg (by omega))

theorem creelCfg_answers (s : State) (src : CmdSrc) (c : Chip) (r : Req) (h : s.takes src 0x0601 c r) :
    let b := byteAt r.payload
    let f := arg32 r.payload 4
    let ends := fun (d : Chip) (y : Reply) => exec (.creelCfg src) s = .next { s with chip := d.conclude r (.done y) }
    (b 0 = 0 → 22 < bitsOf f 0 5 ∨ bitsOf f 12 4 < 2 ∨ 8 < bitsOf f 12 4 ∨ 8 < bitsOf f 8 4 → ends c (.fail .badArg)) ∧
      (b 0 = 0 → bitsOf f 0 5 ≤ 22 → 2 ≤ bitsOf f 12 4 → bitsOf f 12 4 ≤ 8 → bitsOf f 8 4 ≤ 8 → c.pdOn 16 = true →
        ∃ d : Chip, ends d (.okR []) ∧ d.reg CRL_FLOAT_CFG.addr = BitVec.ofNat 32 f &&& 0x01FFFF1F ∧
          d.reg CRL_SLUB_CFG.addr = BitVec.ofNat 32 (arg32 r.payload 8) &&& 0x00FF0FFF ∧
          ∀ a, a ≠ CRL_FLOAT_CFG.addr → a ≠ CRL_SLUB_CFG.addr → d.reg a = c.reg a) ∧
      (b 0 = 0 → bitsOf f 0 5 ≤ 22 → 2 ≤ bitsOf f 12 4 → bitsOf f 12 4 ≤ 8 → bitsOf f 8 4 ≤ 8 → c.pdOn 16 = false →
        ∃ d : Chip, ends d (.okR []) ∧ d.regs = c.regs ∧
          tabGet resetWord d.shadowNow.fwRegs CRL_FLOAT_CFG.addr = BitVec.ofNat 32 f &&& 0x01FFFF1F ∧
          tabGet resetWord d.shadowNow.fwRegs CRL_SLUB_CFG.addr = BitVec.ofNat 32 (arg32 r.payload 8) &&& 0x00FF0FFF) ∧
      (1 < b 0 ∨ (b 0 = 1 ∧ (15 < b 1 ∨ b 2 < 8 ∨ 32 < b 2)) → ends c (.fail .badArg)) ∧
      (b 0 = 1 → b 1 ≤ 15 → 8 ≤ b 2 → b 2 ≤ 32 →
        let shared := (c.port (b 1)).lineLanes.any (fun n => (c.portsOn n).any (fun q => decide ((c.port q).st = .up)))
        ((c.port (b 1)).st ≠ .ready ∨ (c.port (b 1)).twist = false ∨ shared = true → ends c (.fail .badState)) ∧
        ((c.port (b 1)).st = .ready → (c.port (b 1)).twist = true → c.pdOn 16 = true → shared = false →
          ∃ d : Chip, ends d (.okR []) ∧
            (∀ n ∈ (c.port (b 1)).lineLanes, d.reg (CRL_LANE_CFG.addr n) = BitVec.ofNat 32 (b 2) ∧
              ∀ w ∈ d.crl.cws, w.lane ≠ n))) := by
  intro b f ends
  have hends : ∀ (d : Chip) (y : Reply), c.creelCfg r.payload = (d, .done y) → ends d y := fun d y hd => chipNext_takes s src _ c r _ d _ h hd
  have hapart : CRL_FLOAT_CFG.addr ≠ CRL_SLUB_CFG.addr := by decide
  refine ⟨fun h0 hbad => hends _ _ ((if_pos h0).trans (if_pos hbad)), fun h0 h1 h2 h3 h4 hon => ?_, fun h0 h1 h2 h3 h4 hoff => ?_,
    fun hbad => hends _ _ ?_, fun h0 h1 h2 h3 => ⟨fun hno => hends _ _ ?_, fun hready htwist hon hshared => ?_⟩⟩
  · refine ⟨_, hends _ _ (creelCfg_pool c _ h0 (by simp only [b, f] at *; omega)), ?_, ?_, fun a ha1 ha2 => ?_⟩
    · rw [fwWrite_reg_other _ 16 _ _ hapart, fwWrite_reg _ 16 _ _ hon]
    · exact fwWrite_reg _ 16 _ _ ((fwWrite_pdOn ..).trans hon)
    · rw [fwWrite_reg_other _ 16 _ _ ha2, fwWrite_reg_other _ 16 _ _ ha1]
  · refine ⟨_, hends _ _ (creelCfg_pool c _ h0 (by simp only [b, f] at *; omega)), ?_, ?_, fwWrite_shadow ..⟩
    · rw [fwWrite_regs_off _ 16 _ _ ((fwWrite_pdOn ..).trans hoff), fwWrite_regs_off _ 16 _ _ hoff]
    · rw [fwWrite_shadow_other _ 16 _ _ hapart, fwWrite_shadow]
  · exact (if_neg (show ¬ b 0 = 0 by omega)).trans (if_pos (by simp only [b] at *; omega))
  · exact (creelCfg_port c _ h0 (by simp only [b] at *; omega)).trans (if_pos hno)
  · refine ⟨_, hends _ _ ((creelCfg_port c _ h0 (by simp only [b] at *; omega)).trans (if_neg ?_)), newDeadline_lanes c _ _ hon⟩
    rintro (hst | htw | hsh)
    · exact hst hready
    · exact Bool.false_ne_true (htw.symm.trans htwist)
    · exact Bool.false_ne_true (hshared.symm.trans hsh)

/-! ### CREEL_STATS and CREEL_RS_STATS (R252, R319) -/

theorem creelStats_answers (s : State) (src : CmdSrc) (c : Chip) (r : Req) (h : s.takes src 0x0603 c r) :
    let b := byteAt r.payload
    let ends := fun (d : Chip) (y : Reply) => exec (.creelStats src) s = .next { s with chip := d.conclude r (.done y) }
    let regs := [CRL_LANE_STATUS.addr (b 0), CRL_LANE_ITER.addr (b 0), CRL_LANE_BER.addr (b 0), CRL_LANE_MARGIN.addr (b 0),
      CRL_LANE_MISS.addr (b 0), CRL_LANE_SLUB.addr (b 0)] ++ (List.range 11).map (CRL_HIST.addr (b 0))
    (8 < b 0 → ends c (.fail .badArg)) ∧ (b 0 ≤ 8 → bit (b 1) 0 = true → r.level = 0 → ends c (.fail .denied)) ∧
      (b 0 ≤ 8 → bit (b 1) 0 = false → ends c (.okD (wordBytes (regs.map c.seen)))) ∧
      (b 0 ≤ 8 → bit (b 1) 0 = true → r.level ≠ 0 → ends (c.clearCreelLane (b 0)) (.okD (wordBytes (regs.map c.seen)))) := by
  intro b ends regs
  have hends : ∀ (d : Chip) (y : Reply), c.creelStats r = (d, .done y) → ends d y := fun d y hd => chipNext_takes s src _ c r _ d _ h hd
  refine ⟨fun hn => hends _ _ (if_pos hn), fun hn hclear hlevel => hends _ _ ?_, fun hn hclear => hends _ _ ?_,
    fun hn hclear hlevel => hends _ _ ?_⟩ <;> refine (if_neg (Nat.not_lt.2 hn)).trans ?_
  · exact if_pos (by rw [hclear, hlevel]; rfl)
  · rw [hclear]
    rfl
  · rw [hclear, if_neg (by simpa using hlevel)]
    rfl

theorem creelRsStats_answers (s : State) (src : CmdSrc) (c : Chip) (r : Req) (h : s.takes src 0x0604 c r) :
    let b := byteAt r.payload
    let ends := fun (d : Chip) (y : Reply) => exec (.creelRsStats src) s = .next { s with chip := d.conclude r (.done y) }
    (15 < b 0 → ends c (.fail .badArg)) ∧ (b 0 ≤ 15 → bit (b 1) 0 = true → r.level = 0 → ends c (.fail .denied)) ∧
      (b 0 ≤ 15 → bit (b 1) 0 = false → ends c (.okR (wordBytes ((rsRegs (b 0)).map c.seen)))) ∧
      (b 0 ≤ 15 → bit (b 1) 0 = true → r.level ≠ 0 →
        ends (c.forAll (rsRegs (b 0)) Chip.clearCount) (.okR (wordBytes ((rsRegs (b 0)).map c.seen)))) := by
  intro b ends
  have hends : ∀ (d : Chip) (y : Reply), c.creelRsStats r = (d, .done y) → ends d y := fun d y hd => chipNext_takes s src _ c r _ d _ h hd
  refine ⟨fun hn => hends _ _ (if_pos hn), fun hn hclear hlevel => hends _ _ ?_, fun hn hclear => hends _ _ ?_,
    fun hn hclear hlevel => hends _ _ ?_⟩ <;> refine (if_neg (Nat.not_lt.2 hn)).trans ?_
  · exact if_pos (by rw [hclear, hlevel]; rfl)
  · rw [hclear]
    rfl
  · rw [hclear, if_neg (by simpa using hlevel)]
    rfl

/-! ### The settling theorem -/

/-- Settles O32: each command by its own lemma. -/
theorem creelCommands : Obligations.CreelCommands := by
  intro s src c r
  exact ⟨creelCfg_answers s src c r, fun h => chipNext_takes s src _ c r _ c _ h rfl, creelStats_answers s src c r,
    creelRsStats_answers s src c r⟩

end Sys2Proof.Machine
end

section
/-! PROOFS. The registers that the fault logic keeps while it works on lanes and hanks. -/

namespace Sys2Proof.Machine

/-! ### The hank engine's registers -/

/-- The registers from those of HNK on. -/
def fromHank (a : Nat) : Bool := decide (0x420000 ≤ a)

theorem RegsKept.laneStatus (c : Chip) (n lo w v : Nat) : RegsKept fromHank c (c.setFld ⟨HNK_LANE_STATUS.addr n, lo, w⟩ v) :=
  .setFld c _ v (decide_eq_true (by simp only [HNK_LANE_STATUS.addr]; omega))

theorem dropLastGood_regs (c : Chip) (n : Nat) : RegsKept fromHank c (c.dropLastGood n) := by
  unfold Chip.dropLastGood
  split
  · exact .refl _ c
  · exact .trans (.trans (.ofRegs _ rfl) (.laneStatus _ n _ _ _)) (.laneStatus _ n _ _ _)

theorem dropActive_regs (c : Chip) (n : Nat) : RegsKept fromHank c (c.dropActive n) := by
  unfold Chip.dropActive
  split
  · exact .refl _ c
  · exact .trans (.trans (.ofRegs _ rfl) (.laneStatus _ n _ _ _)) (.laneStatus _ n _ _ _)

theorem dropPins_regs (c : Chip) (n : Nat) : RegsKept fromHank c (c.dropPins n) := (dropLastGood_regs c n).trans (dropActive_regs _ n)

/-- The registers from those of HNK on, and those that serving may touch. -/
def hankServeReg (a : Nat) : Bool := fromHank a || serveReg a

theorem hankServeReg_of_hank (a : Nat) (h : fromHank a = true) : hankServeReg a = true := by simp [hankServeReg, h]

theorem hankServeReg_of_serve (a : Nat) (h : serveReg a = true) : hankServeReg a = true := by simp [hankServeReg, h]

theorem RegsKept.endWait (c : Chip) (p : Wait → Bool) (y : Reply) : RegsKept serveReg c (c.endWait p y) := (Calm.endWait c p y).reg

theorem flushLane_regs (c : Chip) (n : Nat) : RegsKept fromHank c (c.flushLane n).1 :=
  ((dropPins_regs c n).trans (.ofRegs _ rfl)).trans (.forAll _ _ (fun d i _ => .ofRegs (d := d.freeHank i) _ rfl) _)

theorem flushWaiting_regs (c : Chip) (n : Nat) : RegsKept hankServeReg c (c.flushWaiting n) := by
  unfold Chip.flushWaiting
  refine .ite ?_ (.refl _ c)
  refine .trans ?_ ((RegsKept.endWait _ _ _).mono hankServeReg_of_serve)
  exact .trans (.ofRegs _ rfl) ((flushLane_regs _ n).mono hankServeReg_of_hank)

/-! ### The fault logic's own registers (R275) -/

/-- The registers but the status, the marks and the counts of the fault logic. -/
def offPly (a : Nat) : Bool := decide (a < 0x410400) || decide (0x410420 ≤ a)

theorem offPly_eq_true {a : Nat} (h : a < 0x410400 ∨ 0x410420 ≤ a) : offPly a = true := by simp [offPly, h]

theorem serveReg_lt {a : Nat} (h : serveReg a = true) : a < 0x100000 := by
  simp only [serveReg, eccReg, MBX_CPL_PROD.addr, FLY_CNT_DROP.addr, Bool.or_eq_true, Bool.and_eq_true, decide_eq_true_eq, beq_iff_eq] at h
  omega

theorem offPly_of_hankServe (a : Nat) (h : hankServeReg a = true) : offPly a = true := by
  simp only [hankServeReg, fromHank, Bool.or_eq_true, decide_eq_true_eq] at h
  refine offPly_eq_true (h.symm.imp (fun h => ?_) (fun h => ?_))
  · exact Nat.lt_trans (serveReg_lt h) (by decide)
  · omega

theorem settleReg_lt {a : Nat} (h : settleReg a = true) : a < 0x410320 := by
  by_cases hserve : serveReg a = true
  · exact Nat.lt_trans (serveReg_lt hserve) (by decide)
  · simp only [settleReg, lanesReg, hserve, GLB_BOOT_STATUS.addr, GLB_FRAY_STATUS.addr, GLB_FRAY_HIST.addr, Bool.or_eq_true, Bool.and_eq_true,
      decide_eq_true_eq, beq_iff_eq, Bool.false_eq_true, false_or] at h
    omega

theorem offPly_of_settle (a : Nat) (h : settleReg a = true) : offPly a = true :=
  offPly_eq_true (.inl (Nat.lt_trans (settleReg_lt h) (by decide)))

theorem offPly_of_side {n : Nat} (hn : n < 9) (a : Nat) (h : sideReg n a = true) : offPly a = true := by
  by_cases hserve : serveReg a = true
  · exact offPly_eq_true (.inl (Nat.lt_trans (serveReg_lt hserve) (by decide)))
  · simp only [sideReg, hserve, Bool.or_eq_true, Bool.and_eq_true, decide_eq_true_eq, rxReg_eq_true, Bool.false_eq_true, or_false] at h
    exact offPly_eq_true (by omega)

theorem RxStep.plyRegs {T : List Fld} {n : Nat} {c d : Chip} (k : RxStep T n c d) (hn : n < 9) : RegsKept offPly c d :=
  k.reg.mono (offPly_of_side hn)

theorem retrainHeld_plyRegs (c : Chip) {n : Nat} (hn : n < 9) : RegsKept offPly c (c.retrainHeld n) :=
  .ite ((retrain_step c hn).plyRegs hn) (.refl _ c)

theorem settle_plyRegs (c : Chip) : RegsKept offPly c c.settle := (RegsKept.settle c).mono offPly_of_settle

theorem conclude_plyRegs (c : Chip) (r : Req) (v : Verdict) : RegsKept offPly c (c.conclude r v) :=
  RegsKept.mono (Calm.conclude c r v).reg (fun a h => offPly_of_settle a (settleReg_of_serve a h))

theorem commitDone_plyRegs (c : Chip) (n : Nat) : RegsKept offPly c (commitDone c n) := by
  have hports : RegsKept offPly c (c.forAll (c.portsOn n) (fun s p => s.portMod p (fun x => { x with realign := decide (x.st = .fault) }))) :=
    .forAll _ _ (fun d p _ => .ofRegs _ (Chip.portMod_regs ..)) c
  unfold commitDone
  refine .trans ?_ ((RegsKept.endWait _ _ _).mono (fun a h => offPly_of_hankServe a (hankServeReg_of_serve a h)))
  refine .trans ?_ ((flushWaiting_regs _ n).mono offPly_of_hankServe)
  exact hports.trans (.ofRegs _ rfl)

/-! ### The Ply receiver and the marks of lanes -/

/-- Two states with the same status of the Ply receiver. -/
theorem plyRx_of_plyRegs {c d : Chip} (k : RegsKept offPly c d) : d.plyRx = c.plyRx := k.fld TWF_PLY_STATUS.RX_STATE rfl

theorem plyLane_of_plyRegs {c d : Chip} (k : RegsKept offPly c d) : d.plyLane = c.plyLane := k.fld TWF_PLY_STATUS.RX_LANE rfl

theorem request_plyLane (c : Chip) {n : Nat} (hn : n < 16) (ply : Bool) : (c.request n ply).plyLane = n :=
  (Chip.fld_setFld _ TWF_PLY_STATUS.RX_LANE n rfl).trans (Nat.mod_eq_of_lt hn)

theorem setPlyRx_plyLane (c : Chip) (st : Nat) : (c.setPlyRx st).plyLane = c.plyLane :=
  Chip.fld_setFld_other c TWF_PLY_STATUS.RX_STATE TWF_PLY_STATUS.RX_LANE st rfl

/-- A bit of a field that has been set. -/
theorem bit_setFldBit (c : Chip) (f : Fld) {i : Nat} (hf : f.fits = true) (hi : i < f.w) : bit ((c.setFldBit f i true).fld f) i = true := by
  unfold Chip.setFldBit bit
  rw [Chip.fld_setFld c f _ hf, if_pos rfl, Nat.testBit_mod_two_pow, decide_eq_true hi]
  simp [setBitN]

theorem requestNone_plyRx (c : Chip) : c.requestNone.plyRx = if c.locked 8 then plyIdle else plyDown := by
  unfold Chip.requestNone
  exact setPlyRx_plyRx _ (by split <;> decide)

theorem requestNone_plyLane (c : Chip) : c.requestNone.plyLane = noLane := (setPlyRx_plyLane _ _).trans (request_plyLane c (by decide) false)

theorem request_plyCnt (c : Chip) (n : Nat) (ply : Bool) : (c.request n ply).reg TWF_PLY_CNT.addr = c.reg TWF_PLY_CNT.addr := by
  unfold Chip.request
  refine (Chip.reg_setFld_other _ TWF_PLY_STATUS.RX_LANE n TWF_PLY_CNT.addr (by decide)).trans ?_
  exact RegsKept.ite (dropPins_regs c 8) (.refl _ c) _ rfl

theorem requestNone_plyCnt (c : Chip) : c.requestNone.reg TWF_PLY_CNT.addr = c.reg TWF_PLY_CNT.addr :=
  (Chip.reg_setFld_other _ TWF_PLY_STATUS.RX_STATE _ TWF_PLY_CNT.addr (by decide)).trans (request_plyCnt c noLane false)

theorem commitRequested_plyLane (c : Chip) {n : Nat} (hn : n < 8) : (commitRequested c n).plyLane = n := by
  unfold commitRequested
  refine (Chip.fld_setFld_other _ TWF_PLY_CNT.SUBST_CNT TWF_PLY_STATUS.RX_LANE _ (by decide)).trans ?_
  refine (Chip.fld_setFld_other _ TWF_LANE_FAILED.FAILED TWF_PLY_STATUS.RX_LANE _ (by decide)).trans ?_
  exact (setPlyRx_plyLane _ _).trans (request_plyLane _ (by omega) true)

theorem commitRequested_failed (c : Chip) {n : Nat} (hn : n < 8) : bit ((commitRequested c n).fld TWF_LANE_FAILED.FAILED) n = true := by
  unfold commitRequested
  refine Eq.trans (congrArg (bit · n) (Chip.fld_setFld_other _ TWF_PLY_CNT.SUBST_CNT TWF_LANE_FAILED.FAILED _ (by decide))) ?_
  exact bit_setFldBit _ TWF_LANE_FAILED.FAILED rfl hn

/-- A commit's registers stand as its Ply lane's part leaves them. -/
theorem commitSubst_plyRegs (c : Chip) {n : Nat} (hn : n < 9) : RegsKept offPly (commitRequested c n) (c.commitSubst n) := by
  rw [commitSubst_eq]
  exact ((commitHeld_step _ hn).plyRegs hn).trans (commitDone_plyRegs _ n)

end Sys2Proof.Machine
end

section
/-! PROOFS. The Ply timers and commands. -/

namespace Sys2Proof.Machine

/-! ### The timers (R264, R270, R272) -/

theorem evalFray_mem (c : Chip) : c.evalFray.mem = c.mem := by
  have hraise : ∀ (d : Chip) (l : List Nat), (d.forAll l (fun s _ => s.raise 0x1AB 0)).mem = d.mem :=
    fun d l => forAll_keeps Chip.mem l _ (fun e _ _ => Chip.raise_mem e _ _) d
  unfold Chip.evalFray Chip.setFray
  dsimp only
  split <;> simp [hraise]

theorem plyDown_times (s : State) (hfit : s.chip.plyFitted = true) (hlock : s.chip.locked 8 = false) :
    ∃ t, exec .plyDown s = .next t ∧ t.chip.ply = { s.chip.ply with downTimed := true } ∧ t.chip.mem = s.chip.mem := by
  refine ⟨_, congrArg Host.Outcome.next (congrArg (fun c => { s with chip := c }) (if_pos ?_)), ?_, ?_⟩
  · simp [hfit, hlock]
  · exact (Calm.evalFray_frayReg _).ply
  · exact evalFray_mem _

theorem laneLost_marks (s : State) (n : Fin 8) (hbeyond : s.chip.plyBeyond n.1 = true) (hfault : s.chip.twistFault n.1 = true)
    (hnew : s.chip.ply.lost.contains n.1 = false) :
    ∃ t, exec (.laneLost n) s = .next t ∧ t.chip.ply = { s.chip.ply with lost := s.chip.ply.lost ++ [n.1] } ∧ t.chip.mem = s.chip.mem := by
  refine ⟨_, congrArg Host.Outcome.next (congrArg (fun c => { s with chip := c }) (if_pos ?_)), ?_, ?_⟩
  · rw [hbeyond, hfault, hnew]
    rfl
  · exact (Calm.evalFray_frayReg _).ply
  · exact evalFray_mem _

/-- The request withdrawn when SUBST_WAIT ends, and its count. -/
def substGivenUp (c : Chip) : Chip := c.requestNone.plyUnavailable c.plyLane

theorem substTimeout_eq (c : Chip) (hwait : c.plyRx = plySubstWait) :
    c.substTimeout = substGivenUp c ∨ c.substTimeout = (substGivenUp c).retrainHeld c.plyLane := by
  unfold Chip.substTimeout
  rw [if_pos hwait]
  dsimp only
  split
  · exact .inl rfl
  · exact .inr rfl

theorem substTimeout_plyRegs (c : Chip) (hwait : c.plyRx = plySubstWait) (hn : c.plyLane ≤ 7) :
    RegsKept offPly (substGivenUp c) c.substTimeout.settle := by
  refine .trans ?_ (settle_plyRegs _)
  rcases substTimeout_eq c hwait with h | h <;> rw [h]
  · exact .refl _ _
  · exact retrainHeld_plyRegs _ (by omega)

theorem FaultKept.substTimeout (c : Chip) (hwait : c.plyRx = plySubstWait) : FaultKept c c.substTimeout := by
  have hgiven : FaultKept c (substGivenUp c) := (FaultKept.requestNone c).trans (.plyUnavailable _ _)
  rcases substTimeout_eq c hwait with h | h <;> rw [h]
  · exact hgiven
  · exact hgiven.trans (.retrainHeld _ _)

theorem substGivenUp_status (c : Chip) : (substGivenUp c).reg TWF_PLY_STATUS.addr = c.requestNone.reg TWF_PLY_STATUS.addr :=
  (plyUnavailable_quiet (n := 0) (by decide) c.requestNone c.plyLane).status

theorem substGivenUp_plyRx (c : Chip) : (substGivenUp c).plyRx = if c.locked 8 then plyIdle else plyDown :=
  (plyUnavailable_quiet (n := 0) (by decide) c.requestNone c.plyLane).plyRx.trans (requestNone_plyRx c)

theorem substGivenUp_plyLane (c : Chip) : (substGivenUp c).plyLane = noLane := by
  refine Eq.trans ?_ (requestNone_plyLane c)
  unfold Chip.plyLane Chip.fld
  rw [show TWF_PLY_STATUS.RX_LANE.addr = TWF_PLY_STATUS.addr from rfl, substGivenUp_status]

theorem substGivenUp_cnt (c : Chip) :
    (substGivenUp c).fld TWF_PLY_CNT.UNAVAIL_CNT = min 255 (c.fld TWF_PLY_CNT.UNAVAIL_CNT + 1) := by
  refine (fld_satInc c.requestNone TWF_PLY_CNT.UNAVAIL_CNT 1 rfl).trans ?_
  rw [show c.requestNone.fld TWF_PLY_CNT.UNAVAIL_CNT = c.fld TWF_PLY_CNT.UNAVAIL_CNT from
    congrArg (getBits · 8 8) (requestNone_plyCnt c)]
  rfl

/-- SUBST_WAIT ends with nothing requested, counted as unavailable. -/
theorem substTimeout_settled (c : Chip) (hwait : c.plyRx = plySubstWait) (hn : c.plyLane ≤ 7) :
    c.substTimeout.settle.plyRx = (if c.locked 8 then plyIdle else plyDown) ∧ c.substTimeout.settle.plyLane = noLane ∧
      c.substTimeout.settle.fld TWF_PLY_CNT.UNAVAIL_CNT = min 255 (c.fld TWF_PLY_CNT.UNAVAIL_CNT + 1) := by
  have hkept := substTimeout_plyRegs c hwait hn
  refine ⟨(plyRx_of_plyRegs hkept).trans (substGivenUp_plyRx c), (plyLane_of_plyRegs hkept).trans (substGivenUp_plyLane c), ?_⟩
  exact (hkept.fld TWF_PLY_CNT.UNAVAIL_CNT rfl).trans (substGivenUp_cnt c)

theorem substWaitTimeout_ends (s : State) (hwait : s.chip.plyRx = plySubstWait) (hn : s.chip.plyLane ≤ 7) (hidle : s.chip.mbx.exec = []) :
    ∃ t, exec .substWaitTimeout s = .next t ∧ t.chip.plyRx = (if s.chip.locked 8 then plyIdle else plyDown) ∧ t.chip.plyLane = noLane ∧
      t.chip.fld TWF_PLY_CNT.UNAVAIL_CNT = min 255 (s.chip.fld TWF_PLY_CNT.UNAVAIL_CNT + 1) := by
  have hexec : s.chip.substTimeout.settle.mbx.exec = [] := ((FaultKept.substTimeout s.chip hwait).trans (.settle _)).idle hidle
  refine ⟨_, portNext_idle s (fun c => c.substTimeout.settle) hexec, ?_⟩
  dsimp only [State.onChip]
  exact substTimeout_settled s.chip hwait hn

/-! ### PLY_CFG (R270, R274) -/

/-- Does the Ply receiver carry a lane in substitution or wait to? -/
def Chip.plyBusy (c : Chip) : Prop := c.plyRx = plySubst ∨ c.plyRx = plySubstWait

theorem plyCfg_refused (c : Chip) (cfg thr : Nat) (hbusy : c.plyBusy)
    (hclears : (c.plyFitted && !(bit cfg 8) || c.flag TWF_PLY_CFG.SUBST_EN && !(bit cfg 6)) = true) :
    c.plyCfg cfg thr = (c, .done (.fail .badState)) := by
  refine if_pos ?_
  rw [hclears, Bool.and_true, Bool.or_eq_true, decide_eq_true_eq, decide_eq_true_eq]
  exact hbusy

/-- Both registers of PLY_CFG written. -/
def Chip.plyWritten (c : Chip) (cfg thr : Nat) : Chip :=
  (c.fwWrite 17 TWF_PLY_CFG.addr (BitVec.ofNat 32 (cfg % 512))).fwWrite 17 TWF_PLY_THR.addr (BitVec.ofNat 32 thr)

theorem plyCfg_written (c : Chip) (cfg thr : Nat) (hfree : ¬ c.plyBusy) (hon : c.pdOn 17 = true) (hfit : bit cfg 8 = c.plyFitted) :
    c.plyCfg cfg thr = ((c.plyWritten cfg thr).settle, .done (.okR [])) := by
  obtain ⟨hsubst, hwait⟩ := not_or.1 hfree
  have hpd : (c.plyWritten cfg thr).pdOn 17 = true := (fwWrite_pdOn ..).trans ((fwWrite_pdOn ..).trans hon)
  unfold Chip.plyCfg
  dsimp only
  rw [if_neg (by simp [hsubst, hwait])]
  change ((if (!(c.plyWritten cfg thr).pdOn 17) = true then _ else _ : Chip).settle, _) = _
  rw [hfit, if_neg (by simp [hpd]), if_neg (by simp), if_neg (by simp)]
  rfl

theorem plyWritten_regs (c : Chip) (cfg thr : Nat) (hon : c.pdOn 17 = true) :
    (c.plyWritten cfg thr).reg TWF_PLY_CFG.addr = BitVec.ofNat 32 (cfg % 512) ∧
      (c.plyWritten cfg thr).reg TWF_PLY_THR.addr = BitVec.ofNat 32 thr ∧
      ∀ a, a ≠ TWF_PLY_CFG.addr → a ≠ TWF_PLY_THR.addr → (c.plyWritten cfg thr).reg a = c.reg a := by
  refine ⟨?_, fwWrite_reg _ 17 _ _ ((fwWrite_pdOn ..).trans hon), fun a h1 h2 => ?_⟩
  · exact (fwWrite_reg_other _ 17 _ _ (by decide)).trans (fwWrite_reg c 17 _ _ hon)
  · exact (fwWrite_reg_other _ 17 _ _ h2).trans (fwWrite_reg_other c 17 _ _ h1)

theorem plyCfg_answers (s : State) (src : CmdSrc) (c : Chip) (r : Req) (h : s.takes src 0x0701 c r) :
    let cfg := arg32 r.payload 0
    let ends := fun (d : Chip) (y : Reply) => exec (.plyCfg src) s = .next { s with chip := d.conclude r (.done y) }
    (c.plyBusy → c.plyFitted = true → bit cfg 8 = false → ends c (.fail .badState)) ∧
      (c.plyBusy → c.flag TWF_PLY_CFG.SUBST_EN = true → bit cfg 6 = false → ends c (.fail .badState)) ∧
      (¬c.plyBusy → c.pdOn 17 = true → bit cfg 8 = c.plyFitted →
        ∃ d : Chip, ends d (.okR []) ∧ d.reg TWF_PLY_CFG.addr = BitVec.ofNat 32 (cfg % 512) ∧
          d.reg TWF_PLY_THR.addr = BitVec.ofNat 32 (arg32 r.payload 4) ∧
          ∀ a, a ≠ TWF_PLY_CFG.addr → a ≠ TWF_PLY_THR.addr → settleReg a = false → d.reg a = c.reg a) := by
  intro cfg ends
  have hends : ∀ (d : Chip) (y : Reply), c.plyCfg cfg (arg32 r.payload 4) = (d, .done y) → ends d y :=
    fun d y hd => chipNext_takes s src _ c r _ d _ h hd
  refine ⟨fun hbusy hfit hclear => hends _ _ (plyCfg_refused c _ _ hbusy (by simp [hfit, hclear])),
    fun hbusy hen hclear => hends _ _ (plyCfg_refused c _ _ hbusy (by simp [hen, hclear])), fun hfree hon hfit => ?_⟩
  obtain ⟨hcfg, hthr, hrest⟩ := plyWritten_regs c cfg (arg32 r.payload 4) hon
  refine ⟨_, hends _ _ (plyCfg_written c _ _ hfree hon hfit), ?_, ?_, fun a h1 h2 ha => ?_⟩
  · exact (Chip.settle_reg _ _ (by decide)).trans hcfg
  · exact (Chip.settle_reg _ _ (by decide)).trans hthr
  · exact (Chip.settle_reg _ _ ha).trans (hrest a h1 h2)

/-! ### PLY_STATUS (R275, R276) -/

theorem plyStatus_answers (s : State) (src : CmdSrc) (c : Chip) (r : Req) (h : s.takes src 0x0702 c r) :
    let b := byteAt r.payload
    let ends := fun (d : Chip) (y : Reply) => exec (.plyStatus src) s = .next { s with chip := d.conclude r (.done y) }
    let regs := [c.reg TWF_PLY_STATUS.addr, c.laneFailedWord, c.seen TWF_PLY_CNT.addr] ++
        (List.range 8).map (fun n => c.reg (TWF_PLY_RISK.addr n)) ++ [c.reg GLB_FRAY_STATUS.addr, c.reg GLB_FRAY_HIST.addr]
    (bit (b 0) 0 = false → ends c (.okD (wordBytes regs))) ∧
      (bit (b 0) 0 = true → r.level = 0 → ends c (.fail .denied)) ∧
      (bit (b 0) 0 = true → r.level ≠ 0 → ends (c.clearCount TWF_PLY_CNT.addr) (.okD (wordBytes regs))) := by
  intro b ends regs
  have hends : ∀ (d : Chip) (y : Reply), c.plyStatus r = (d, .done y) → ends d y := fun d y hd => chipNext_takes s src _ c r _ d _ h hd
  refine ⟨fun hclear => hends _ _ ?_, fun hclear hlevel => hends _ _ (if_pos (by rw [hclear, hlevel]; rfl)),
    fun hclear hlevel => hends _ _ ?_⟩ <;> unfold Chip.plyStatus
  · rw [hclear]
    rfl
  · rw [hclear, if_neg (by simpa using hlevel)]
    rfl

/-! ### The checks of PLY_MIRROR and PLY_SUBST (R273) -/

theorem plyCheck_runs (c : Chip) (n : Nat) (auto : Bool) (hruns : c.substRuns = true) : c.plyCheck n auto = some .busy := if_pos hruns

theorem plyCheck_range (c : Chip) {n : Nat} {auto : Bool} (hruns : c.substRuns = false) (hn : 7 < n) (hauto : auto = false) :
    c.plyCheck n auto = some .badArg := (if_neg (ne_true_of_eq_false hruns)).trans (if_pos ⟨hn, hauto⟩)

/-- Past the checks of the range and of another PLY_SUBST. -/
theorem plyCheck_named (c : Chip) {n : Nat} {auto : Bool} (hruns : c.substRuns = false) (hn : n ≤ 7 ∨ auto = true) :
    c.plyCheck n auto =
      if c.plyRx = plySubstWait ∨ c.plyRx = plySubst then some .badState
      else if auto = false ∧ c.eligible n = false then some .badArg else none := by
  refine (if_neg (ne_true_of_eq_false hruns)).trans (if_neg ?_)
  rintro ⟨hlarge, hauto⟩
  rcases hn with hn | hn
  · omega
  · exact Bool.false_ne_true (hauto.symm.trans hn)

theorem plyCheck_busy (c : Chip) {n : Nat} {auto : Bool} (hruns : c.substRuns = false) (hn : n ≤ 7 ∨ auto = true) (hbusy : c.plyBusy) :
    c.plyCheck n auto = some .badState := (plyCheck_named c hruns hn).trans (if_pos hbusy.symm)

theorem plyCheck_ineligible (c : Chip) {n : Nat} {auto : Bool} (hruns : c.substRuns = false) (hn : n ≤ 7) (hfree : ¬ c.plyBusy)
    (hauto : auto = false) (hel : c.eligible n = false) : c.plyCheck n auto = some .badArg :=
  (plyCheck_named c hruns (.inl hn)).trans ((if_neg (fun h => hfree h.symm)).trans (if_pos ⟨hauto, hel⟩))

theorem plyCheck_passed (c : Chip) {n : Nat} {auto : Bool} (hruns : c.substRuns = false) (hfree : ¬ c.plyBusy)
    (hn : (n ≤ 7 ∧ c.eligible n = true) ∨ auto = true) : c.plyCheck n auto = none := by
  refine (plyCheck_named c hruns (hn.imp And.left id)).trans ((if_neg (fun h => hfree h.symm)).trans (if_neg ?_))
  rintro ⟨hauto, hel⟩
  rcases hn with ⟨-, hn⟩ | hn
  · exact Bool.false_ne_true (hel.symm.trans hn)
  · exact Bool.false_ne_true (hauto.symm.trans hn)

/-! ### PLY_MIRROR (R273) -/

theorem plyMirror_fails (c : Chip) {n : Nat} {st : Status} (h : c.plyCheck n (n == 0xFF) = some st) :
    c.plyMirrorCmd n = (c, .done (.fail st)) := by
  unfold Chip.plyMirrorCmd
  dsimp only
  rw [h]

/-- TWF_PLY_CFG with lane `n` pinned, or with the automatic choice. -/
def pinWord (v : Word) (n : Nat) : Word := if n == 0xFF then setBits v 4 1 0 else setBits (setBits v 4 1 1) 0 4 n

theorem plyMirror_writes (c : Chip) {n : Nat} (h : c.plyCheck n (n == 0xFF) = none) :
    c.plyMirrorCmd n = (c.fwWrite 17 TWF_PLY_CFG.addr (pinWord (c.reg TWF_PLY_CFG.addr) n), .done (.okR [])) := by
  unfold Chip.plyMirrorCmd
  dsimp only
  rw [h]
  rfl

theorem pinWord_substEn (v : Word) (n : Nat) : getBits (pinWord v n) 6 1 = getBits v 6 1 := by
  unfold pinWord
  split
  · exact getBits_setBits_other v 4 1 0 6 1 (.inl (by decide))
  · exact (getBits_setBits_other _ 0 4 n 6 1 (.inl (by decide))).trans (getBits_setBits_other v 4 1 1 6 1 (.inl (by decide)))

theorem pinWord_auto (v : Word) : getBits (pinWord v 0xFF) 4 1 = 0 := getBits_setBits_same v 4 1 0 (by decide)

theorem pinWord_pin (v : Word) {n : Nat} (hn : n ≤ 7) : getBits (pinWord v n) 4 1 = 1 ∧ getBits (pinWord v n) 0 4 = n := by
  have hword : pinWord v n = setBits (setBits v 4 1 1) 0 4 n := if_neg (by simp; omega)
  rw [hword]
  refine ⟨(getBits_setBits_other _ 0 4 n 4 1 (.inl (by decide))).trans (getBits_setBits_same v 4 1 1 (by decide)), ?_⟩
  exact (getBits_setBits_same _ 0 4 n (by decide)).trans (Nat.mod_eq_of_lt (by omega))

/-- The fields of TWF_PLY_CFG after a PLY_MIRROR with the domain ON. -/
theorem plyMirror_fld (c : Chip) (n : Nat) (hon : c.pdOn 17 = true) (lo w : Nat) :
    (c.fwWrite 17 TWF_PLY_CFG.addr (pinWord (c.reg TWF_PLY_CFG.addr) n)).fld ⟨TWF_PLY_CFG.addr, lo, w⟩ =
      getBits (pinWord (c.reg TWF_PLY_CFG.addr) n) lo w := by
  unfold Chip.fld
  rw [fwWrite_reg _ 17 _ _ hon]

theorem plyMirror_answers (s : State) (src : CmdSrc) (c : Chip) (r : Req) (h : s.takes src 0x0703 c r) :
    let b := byteAt r.payload
    let ends := fun (d : Chip) (y : Reply) => exec (.plyMirror src) s = .next { s with chip := d.conclude r (.done y) }
    (7 < b 0 → b 0 ≠ 0xFF → c.substRuns = false → ends c (.fail .badArg)) ∧
      (c.substRuns = true → ends c (.fail .busy)) ∧
      (b 0 ≤ 7 ∨ b 0 = 0xFF → c.substRuns = false → c.plyBusy → ends c (.fail .badState)) ∧
      (b 0 ≤ 7 → c.substRuns = false → ¬c.plyBusy → c.eligible (b 0) = false → ends c (.fail .badArg)) ∧
      (c.substRuns = false → ¬c.plyBusy → c.pdOn 17 = false → b 0 = 0xFF ∨ (b 0 ≤ 7 ∧ c.eligible (b 0) = true) →
        ∃ d : Chip, ends d (.okR []) ∧ d.regs = c.regs ∧ d.ply = c.ply) ∧
      (c.substRuns = false → ¬c.plyBusy → c.pdOn 17 = true →
        (b 0 = 0xFF → ∃ d : Chip, ends d (.okR []) ∧ d.flag TWF_PLY_CFG.PIN_EN = false ∧
          d.flag TWF_PLY_CFG.SUBST_EN = c.flag TWF_PLY_CFG.SUBST_EN) ∧
        (b 0 ≤ 7 → c.eligible (b 0) = true → ∃ d : Chip, ends d (.okR []) ∧ d.flag TWF_PLY_CFG.PIN_EN = true ∧
          d.fld TWF_PLY_CFG.PIN_LANE = b 0 ∧ d.flag TWF_PLY_CFG.SUBST_EN = c.flag TWF_PLY_CFG.SUBST_EN)) := by
  intro b ends
  have hends : ∀ (d : Chip) (y : Reply), c.plyMirrorCmd (b 0) = (d, .done y) → ends d y := fun d y hd => chipNext_takes s src _ c r _ d _ h hd
  have hlane : ∀ {n : Nat}, n ≤ 7 → (n == 0xFF) = false := fun hn => by simp; omega
  have hauto : ∀ {n : Nat}, n = 0xFF → (n == 0xFF) = true := fun hn => by simp [hn]
  have hsubst : c.pdOn 17 = true → (c.fwWrite 17 TWF_PLY_CFG.addr (pinWord (c.reg TWF_PLY_CFG.addr) (b 0))).flag TWF_PLY_CFG.SUBST_EN =
      c.flag TWF_PLY_CFG.SUBST_EN := fun hon => congrArg (· == 1) ((plyMirror_fld c (b 0) hon 6 1).trans (pinWord_substEn _ _))
  refine ⟨fun hn hff hruns => hends _ _ (plyMirror_fails c (plyCheck_range c hruns hn (by simpa using hff))),
    fun hruns => hends _ _ (plyMirror_fails c (plyCheck_runs c _ _ hruns)),
    fun hn hruns hbusy => hends _ _ (plyMirror_fails c (plyCheck_busy c hruns (hn.imp id hauto) hbusy)),
    fun hn hruns hfree hel => hends _ _ (plyMirror_fails c (plyCheck_ineligible c hruns hn hfree (hlane hn) hel)),
    fun hruns hfree hoff hn => ?_, fun hruns hfree hon => ⟨fun hff => ?_, fun hn hel => ?_⟩⟩
  · refine ⟨_, hends _ _ (plyMirror_writes c (plyCheck_passed c hruns hfree (hn.symm.imp id hauto))), fwWrite_regs_off c 17 _ _ hoff, ?_⟩
    rw [fwWrite_off c 17 _ _ hoff]
    rfl
  · refine ⟨_, hends _ _ (plyMirror_writes c (plyCheck_passed c hruns hfree (.inr (hauto hff)))), ?_, hsubst hon⟩
    rw [hff]
    exact congrArg (· == 1) ((plyMirror_fld c 0xFF hon 4 1).trans (pinWord_auto _))
  · obtain ⟨hen, hpin⟩ := pinWord_pin (c.reg TWF_PLY_CFG.addr) hn
    refine ⟨_, hends _ _ (plyMirror_writes c (plyCheck_passed c hruns hfree (.inl ⟨hn, hel⟩))), ?_, ?_, hsubst hon⟩
    · exact congrArg (· == 1) ((plyMirror_fld c (b 0) hon 4 1).trans hen)
    · exact (plyMirror_fld c (b 0) hon 0 4).trans hpin

/-! ### PLY_SUBST (R273) -/

theorem plySubst_fails (c : Chip) {n : Nat} {st : Status} (h : c.plyCheck n false = some st) : c.plySubstCmd n = (c, .done (.fail st)) := by
  unfold Chip.plySubstCmd
  rw [h]

/-- Lane `n` committed where it is paired, else planned, with the mirror moved to it. -/
def Chip.substStarts (c : Chip) (n : Nat) : Chip :=
  if c.crl.paired = some n ∧ c.flag TWF_PLY_CFG.SUBST_EN = true then c.commitSubst n
  else if c.plyLane = n ∨ c.plyRx = plyDown then { c with ply := { c.ply with planned := some n } }
  else Chip.moveMirror { c with ply := { c.ply with planned := some n } } n

/-- PLY_SUBST completes in SUBST, and executes in any other state. -/
def Chip.substAnswered (d : Chip) (n : Nat) : Chip × Verdict :=
  if d.plyRx = plySubst then (d.settle, .done (.okR (leBytes 4 (d.settle.portMap (d.portOfLane n)).toNat))) else (d, .runs (.plySubst n))

theorem plySubst_passed (c : Chip) {n : Nat} (h : c.plyCheck n false = none) : c.plySubstCmd n = (c.substStarts n).substAnswered n := by
  unfold Chip.plySubstCmd
  rw [h]
  rfl

/-- A lane that is paired already is committed at once. -/
theorem plySubst_commits (c : Chip) {n : Nat} (hn : n < 9) (h : c.plyCheck n false = none) (hpaired : c.crl.paired = some n)
    (hen : c.flag TWF_PLY_CFG.SUBST_EN = true) :
    ∃ y, c.plySubstCmd n = ((c.commitSubst n).settle, .done y) := by
  have hstarts : c.substStarts n = c.commitSubst n := if_pos ⟨hpaired, hen⟩
  rw [plySubst_passed c h, hstarts]
  exact ⟨_, if_pos (commitSubst_plyRx c hn)⟩

/-- Where the mirror stands on the lane already, or L8 is DOWN, the substitution is planned. -/
theorem plySubst_plans (c : Chip) {n : Nat} (h : c.plyCheck n false = none) (hfree : ¬ c.plyBusy)
    (hwait : c.crl.paired ≠ some n ∨ c.flag TWF_PLY_CFG.SUBST_EN = false) (hstays : c.plyLane = n ∨ c.plyRx = plyDown) :
    c.plySubstCmd n = ({ c with ply := { c.ply with planned := some n } }, .runs (.plySubst n)) := by
  have hnot : ¬ (c.crl.paired = some n ∧ c.flag TWF_PLY_CFG.SUBST_EN = true) := by
    rintro ⟨hpaired, hen⟩
    exact hwait.elim (fun h => h hpaired) (fun h => Bool.false_ne_true (h.symm.trans hen))
  have hstarts : c.substStarts n = { c with ply := { c.ply with planned := some n } } := (if_neg hnot).trans (if_pos hstays)
  rw [plySubst_passed c h, hstarts]
  exact if_neg (show ¬ c.plyRx = plySubst from fun h => hfree (.inl h))

/-- The registers with which a committed substitution ends. -/
theorem commitSubst_concluded (c : Chip) (r : Req) (v : Verdict) {n : Nat} (hn : n < 8) :
    let d := (c.commitSubst n).settle.conclude r v
    d.plyRx = plySubst ∧ d.plyLane = n ∧ bit (d.fld TWF_LANE_FAILED.FAILED) n = true := by
  have hkept := ((commitSubst_plyRegs c (n := n) (by omega)).trans (settle_plyRegs _)).trans (conclude_plyRegs _ r v)
  refine ⟨(plyRx_of_plyRegs hkept).trans (commitRequested_plyRx c n), (plyLane_of_plyRegs hkept).trans (commitRequested_plyLane c hn), ?_⟩
  rw [hkept.fld TWF_LANE_FAILED.FAILED rfl]
  exact commitRequested_failed c hn

theorem plySubst_answers (s : State) (src : CmdSrc) (c : Chip) (r : Req) (h : s.takes src 0x0704 c r) :
    let b := byteAt r.payload
    let ends := fun (d : Chip) (y : Reply) => exec (.plySubst src) s = .next { s with chip := d.conclude r (.done y) }
    (7 < b 0 → c.substRuns = false → ends c (.fail .badArg)) ∧
      (c.substRuns = true → ends c (.fail .busy)) ∧
      (b 0 ≤ 7 → c.substRuns = false → c.plyBusy → ends c (.fail .badState)) ∧
      (b 0 ≤ 7 → c.substRuns = false → ¬c.plyBusy → c.eligible (b 0) = false → ends c (.fail .badArg)) ∧
      (b 0 ≤ 7 → c.substRuns = false → ¬c.plyBusy → c.eligible (b 0) = true → c.crl.paired = some (b 0) →
        c.flag TWF_PLY_CFG.SUBST_EN = true →
        ∃ t, exec (.plySubst src) s = .next t ∧ t.chip.plyRx = plySubst ∧ t.chip.plyLane = b 0 ∧
          bit (t.chip.fld TWF_LANE_FAILED.FAILED) (b 0) = true) ∧
      (b 0 ≤ 7 → c.substRuns = false → ¬c.plyBusy → c.eligible (b 0) = true →
        c.crl.paired ≠ some (b 0) ∨ c.flag TWF_PLY_CFG.SUBST_EN = false → c.plyLane = b 0 ∨ c.plyRx = plyDown →
        exec (.plySubst src) s =
          .next { s with chip := (Chip.conclude { c with ply := { c.ply with planned := some (b 0) } } r (.runs (.plySubst (b 0)))) }) := by
  intro b ends
  have hends : ∀ (d : Chip) (v : Verdict), c.plySubstCmd (b 0) = (d, v) → exec (.plySubst src) s = .next { s with chip := d.conclude r v } :=
    fun d v hd => chipNext_takes s src _ c r _ d v h hd
  refine ⟨fun hn hruns => hends _ _ (plySubst_fails c (plyCheck_range c hruns hn rfl)),
    fun hruns => hends _ _ (plySubst_fails c (plyCheck_runs c _ _ hruns)),
    fun hn hruns hbusy => hends _ _ (plySubst_fails c (plyCheck_busy c hruns (.inl hn) hbusy)),
    fun hn hruns hfree hel => hends _ _ (plySubst_fails c (plyCheck_ineligible c hruns hn hfree rfl hel)),
    fun hn hruns hfree hel hpaired hen => ?_, fun hn hruns hfree hel hwait hstays => ?_⟩
  · obtain ⟨y, hcmd⟩ := plySubst_commits c (show b 0 < 9 by omega) (plyCheck_passed c hruns hfree (.inl ⟨hn, hel⟩)) hpaired hen
    exact ⟨_, hends _ _ hcmd, commitSubst_concluded c r _ (show b 0 < 8 by omega)⟩
  · exact hends _ _ (plySubst_plans c (plyCheck_passed c hruns hfree (.inl ⟨hn, hel⟩)) hfree hwait hstays)

/-! ### The settling theorem -/

/-- Settles O33: each timer and each command by its own lemma. -/
theorem plyCommands : Obligations.PlyCommands := by
  intro s src c r
  exact ⟨plyDown_times s, laneLost_marks s, substWaitTimeout_ends s, plyCfg_answers s src c r, plyStatus_answers s src c r,
    plyMirror_answers s src c r, plySubst_answers s src c r⟩

end Sys2Proof.Machine
end

section
/-! PROOFS. The creel's lanes and its codewords. -/

namespace Sys2Proof.Machine

/-! ### One lane of the creel -/

theorem Chip.crlOf_congr {c d : Chip} (h : d.crl.lanes = c.crl.lanes) (k : Nat) : d.crlOf k = c.crlOf k := by
  unfold Chip.crlOf
  rw [h]

theorem Chip.crlOf_crlMod (c : Chip) (n : Nat) (f : CrlLane → CrlLane) (hn : n < 9) : (c.crlMod n f).crlOf n = f (c.crlOf n) := by
  unfold Chip.crlMod Chip.crlOf
  rw [dif_pos hn, vec_get_vmod]
  exact if_pos rfl

theorem Chip.crlOf_crlMod_other (c : Chip) (n k : Nat) (f : CrlLane → CrlLane) (hk : k ≠ n) : (c.crlMod n f).crlOf k = c.crlOf k := by
  unfold Chip.crlMod Chip.crlOf
  split
  · rw [vec_get_vmod]
    exact if_neg hk
  · rfl

/-- Codewords replaced leave the lanes. -/
theorem Chip.crlOf_setCws (c : Chip) (l : List Codeword) (k : Nat) : (c.setCws l).crlOf k = c.crlOf k := rfl

theorem Chip.paired_of_frame {c d : Chip} (h : d.crl.frame = c.crl.frame) : d.crl.paired = c.crl.paired :=
  show d.crl.frame.paired = c.crl.frame.paired by rw [h]

/-! ### Which lanes are active (R237, R244) -/

theorem Chip.onL8_congr {c d : Chip} (h : d.reg TWF_PLY_STATUS.addr = c.reg TWF_PLY_STATUS.addr) (n : Nat) : d.onL8 n = c.onL8 n := by
  unfold Chip.onL8 Chip.plyRx Chip.plyLane Chip.fld
  rw [show TWF_PLY_STATUS.RX_STATE.addr = TWF_PLY_STATUS.addr from rfl, show TWF_PLY_STATUS.RX_LANE.addr = TWF_PLY_STATUS.addr from rfl, h]

/-- Two states with the same ports and the same Ply receiver have the same active lanes. -/
theorem Chip.crlActive_congr {c d : Chip} (hports : d.ports = c.ports) (hply : d.reg TWF_PLY_STATUS.addr = c.reg TWF_PLY_STATUS.addr)
    (hcfg : d.reg TWF_PLY_CFG.addr = c.reg TWF_PLY_CFG.addr) (n : Nat) : d.crlActive n = c.crlActive n := by
  have hport : ∀ p, d.port p = c.port p := Chip.port_congr hports
  have hrx : d.plyRx = c.plyRx := congrArg (getBits · 29 3) hply
  have hlane : d.plyLane = c.plyLane := congrArg (getBits · 25 4) hply
  have hfit : d.plyFitted = c.plyFitted := congrArg (fun w => getBits w 8 1 == 1) hcfg
  have htwist : ∀ k, d.laneTwist k = c.laneTwist k := fun k => by
    unfold Chip.laneTwist Chip.portsOn
    simp only [hport, hfit]
  unfold Chip.crlActive
  rw [hrx, hlane, htwist, htwist, Chip.onL8_congr hply]

/-! ### Arrival (R227, R239, R246, R251) -/

/-- From `c` to `d` what an arrival depends on stays, and so do the window sums. -/
structure ArrivalKept (c d : Chip) : Prop where
  cws : d.crl.cws = c.crl.cws
  paired : d.crl.paired = c.crl.paired
  ports : d.ports = c.ports
  framer : d.framer = c.framer
  status : d.reg TWF_PLY_STATUS.addr = c.reg TWF_PLY_STATUS.addr
  cfg : d.reg TWF_PLY_CFG.addr = c.reg TWF_PLY_CFG.addr
  win : ∀ k, (d.crlOf k).win = (c.crlOf k).win

namespace ArrivalKept

variable {c d e : Chip}

theorem refl (c : Chip) : ArrivalKept c c := ⟨rfl, rfl, rfl, rfl, rfl, rfl, fun _ => rfl⟩

theorem trans (h : ArrivalKept c d) (k : ArrivalKept d e) : ArrivalKept c e :=
  ⟨k.cws.trans h.cws, k.paired.trans h.paired, k.ports.trans h.ports, k.framer.trans h.framer, k.status.trans h.status, k.cfg.trans h.cfg,
    fun n => (k.win n).trans (h.win n)⟩

theorem ite {p : Prop} [Decidable p] (h : ArrivalKept c d) (k : ArrivalKept c e) : ArrivalKept c (if p then d else e) := by
  split
  · exact h
  · exact k

theorem setFld (c : Chip) (f : Fld) (v : Nat) (hf : f.addr < 0x410000) : ArrivalKept c (c.setFld f v) where
  cws := rfl
  paired := rfl
  ports := rfl
  framer := rfl
  status := Chip.reg_setFld_other c f v _ (by simp only [TWF_PLY_STATUS.addr]; omega)
  cfg := Chip.reg_setFld_other c f v _ (by simp only [TWF_PLY_CFG.addr]; omega)
  win _ := rfl

theorem setLevel (c : Chip) (src : Nat) (b : Bool) (pay : Nat) : ArrivalKept c (c.setLevel src b pay) :=
  ⟨by simp, by simp, by simp, by simp, by simp, by simp, fun k => congrArg CrlLane.win (Chip.crlOf_congr (by simp) k)⟩

theorem crlMod (c : Chip) (n : Nat) (f : CrlLane → CrlLane) (hf : ∀ x, (f x).win = x.win) : ArrivalKept c (c.crlMod n f) where
  cws := Chip.crlMod_cws c n f
  paired := Chip.paired_of_frame (Chip.crlMod_frame c n f)
  ports := by simp
  framer := by simp
  status := by simp
  cfg := by simp
  win k := by
    unfold Chip.crlMod
    split
    · unfold Chip.crlOf
      rw [vec_get_vmod]
      split
      · exact hf _
      · rfl
    · rfl

theorem active (k : ArrivalKept c d) (n : Nat) : d.crlActive n = c.crlActive n := Chip.crlActive_congr k.ports k.status k.cfg n

theorem slubStep (c : Chip) {n : Nat} (hn : n < 9) (u : Nat) : ArrivalKept c (c.slubStep n u) := by
  have hslub : (CRL_LANE_SLUB.addr n) < 0x410000 := by simp only [CRL_LANE_SLUB.addr]; omega
  have hstatus : (CRL_LANE_STATUS.addr n) < 0x410000 := by simp only [CRL_LANE_STATUS.addr]; omega
  unfold Chip.slubStep
  dsimp only
  refine .ite ?_ (.ite ?_ (.refl c))
  · refine .trans (d := c.crlMod n _) (.crlMod c n _ ?_) (.ite ?_ (.refl _))
    · exact fun _ => rfl
    refine .trans ?_ (.setFld _ (CRL_LANE_SLUB.SLUB_LONGEST n) _ hslub)
    refine .trans ?_ (.setFld _ (CRL_LANE_SLUB.SLUB_CNT n) _ hslub)
    exact .trans (.setFld _ (CRL_LANE_STATUS.SLUB n) _ hstatus) (.setLevel _ _ _ _)
  · refine .trans ?_ (.setLevel _ _ _ _)
    refine .trans ?_ (.setFld _ (CRL_LANE_STATUS.SLUB n) _ hstatus)
    exact .crlMod c n _ (fun _ => rfl)

end ArrivalKept

/-- What enters the creel changes its codewords alone. -/
theorem enterCreel_setCws (c : Chip) (n : Nat) (w : Codeword) : ∃ l, c.enterCreel n w = c.setCws l := by
  have hsame : ∃ l, c = c.setCws l := ⟨c.crl.cws, rfl⟩
  have hpair : ∀ (i : Nat) (f : Codeword → Codeword),
      ∃ l, (match c.crl.cws[i]? with | none => c | some o => c.setCws (c.crl.cws.set i (f o))) = c.setCws l := fun i f => by
    split
    · exact hsame
    · exact ⟨_, rfl⟩
  unfold Chip.enterCreel
  dsimp only
  split
  · split
    · split
      · exact hpair _ _
      · split <;> exact ⟨_, rfl⟩
    · split
      · split
        · exact hpair _ _
        · exact ⟨_, rfl⟩
      · exact hsame
  · split
    · split
      · exact hpair _ _
      · exact ⟨_, rfl⟩
    · split
      · exact ⟨_, rfl⟩
      · exact hsame

/-- A codeword of an active lane that is not mirrored enters alone. -/
theorem enterCreel_alone (c : Chip) {n : Nat} (w : Codeword) (hn : n < 8) (hpaired : c.crl.paired ≠ some n) (hact : c.crlActive n = true) :
    c.enterCreel n w = c.setCws (c.crl.cws ++ [w]) :=
  (if_neg (by omega)).trans ((if_neg hpaired).trans (if_pos hact))

/-- A codeword of the mirrored lane whose copy is not there waits for it. -/
theorem enterCreel_waits (c : Chip) {n : Nat} (w : Codeword) (hn : n < 8) (hpaired : c.crl.paired = some n)
    (hnone : c.waitingFor 8 w.fn w.arrive = none) : c.enterCreel n w = c.setCws (c.crl.cws ++ [{ w with wait := true }]) := by
  refine (if_neg (by omega)).trans ((if_pos hpaired).trans ?_)
  rw [hnone]

/-- A codeword of the mirrored lane meets the copy that waits for it. -/
theorem enterCreel_meets (c : Chip) {n : Nat} (w o : Codeword) (i : Nat) (hn : n < 8) (hpaired : c.crl.paired = some n)
    (hsome : c.waitingFor 8 w.fn w.arrive = some i) (ho : c.crl.cws[i]? = some o) :
    c.enterCreel n w = c.setCws (c.crl.cws.set i (mergePair w o)) := by
  refine (if_neg (by omega)).trans ((if_pos hpaired).trans ?_)
  rw [hsome]
  dsimp only
  rw [ho]

theorem waitingFor_congr {c d : Chip} (h : d.crl.cws = c.crl.cws) (lane fn at_ : Nat) : d.waitingFor lane fn at_ = c.waitingFor lane fn at_ := by
  unfold Chip.waitingFor
  rw [h]

/-- A codeword taken from the framer of lane `n`. -/
def Chip.taken (c : Chip) (n : Nat) (rest : List CwIn) : Chip := c.framerMod n (fun x => { x with words := rest })

/-- The codeword `w` of lane `n` counted in its window and its slub. -/
def Chip.counted (c : Chip) (n : Nat) (w : Codeword) : Chip :=
  (c.crlMod n (fun x => { x with win := { x.win with arrived := x.win.arrived + 1, unsat := x.win.unsat + w.unsat } })).slubStep n w.unsat

theorem taken_crlActive (c : Chip) (n : Nat) (rest : List CwIn) (k : Nat) : (c.taken n rest).crlActive k = c.crlActive k :=
  Chip.crlActive_congr (by simp [Chip.taken]) (by simp [Chip.taken]) (by simp [Chip.taken]) k

theorem counted_framer (c : Chip) {n : Nat} (hn : n < 9) (w : Codeword) (k : Nat) : (c.counted n w).framerOf k = c.framerOf k :=
  (Chip.framerOf_congr (ArrivalKept.slubStep _ hn _).framer k).trans (by simp)

theorem counted_arrived (c : Chip) {n : Nat} (hn : n < 9) (w : Codeword) :
    ((c.counted n w).crlOf n).win.arrived = (c.crlOf n).win.arrived + 1 := by
  unfold Chip.counted
  rw [(ArrivalKept.slubStep _ hn _).win, Chip.crlOf_crlMod _ _ _ hn]

theorem counted_cws (c : Chip) {n : Nat} (hn : n < 9) (w : Codeword) : (c.counted n w).crl.cws = c.crl.cws :=
  (ArrivalKept.slubStep _ hn _).cws.trans (Chip.crlMod_cws ..)

theorem counted_paired (c : Chip) {n : Nat} (hn : n < 9) (w : Codeword) : (c.counted n w).crl.paired = c.crl.paired :=
  (ArrivalKept.slubStep _ hn _).paired.trans (Chip.paired_of_frame (Chip.crlMod_frame c n _))

theorem counted_crlActive (c : Chip) {n : Nat} (hn : n < 9) (w : Codeword) (k : Nat) : (c.counted n w).crlActive k = c.crlActive k :=
  ((ArrivalKept.slubStep _ hn _).active k).trans (Chip.crlActive_congr (by simp) (by simp) (by simp) k)

/-- An arrival on an active lane. -/
theorem codewordArrival_active (c : Chip) {n : Nat} (at_ : Nat) {w : CwIn} {rest : List CwIn} (hw : (c.framerOf n).words = w :: rest)
    (hon : c.pdOn 16 = true) (hact : c.crlActive n = true) :
    c.codewordArrival n at_ =
      (((c.taken n rest).counted n (c.newCodeword n (c.crl.cyc + at_) w)).enterCreel n (c.newCodeword n (c.crl.cyc + at_) w)) := by
  have hcw : (c.taken n rest).newCodeword n ((c.taken n rest).crl.cyc + at_) w = c.newCodeword n (c.crl.cyc + at_) w := by
    simp [Chip.newCodeword, Chip.taken]
  have hpd : (c.taken n rest).pdOn 16 = true := (pdOn_of_pd (by simp [Chip.taken]) 16).trans hon
  have hlane : (c.taken n rest).crlActive n = true := (taken_crlActive c n rest n).trans hact
  unfold Chip.codewordArrival
  rw [hw]
  change (if ((c.taken n rest).pdOn 16 && ((c.taken n rest).crlActive n || _)) = true then _ else _) = _
  rw [if_pos (by rw [hpd, hlane]; rfl), ← hcw]
  rfl

/-- An arrival takes the codeword from the framer, whatever becomes of it. -/
theorem codewordArrival_words (c : Chip) {n : Nat} (hn : n < 9) (at_ : Nat) {w : CwIn} {rest : List CwIn}
    (hw : (c.framerOf n).words = w :: rest) : ((c.codewordArrival n at_).framerOf n).words = rest := by
  have htaken : ((c.taken n rest).framerOf n).words = rest := congrArg Framer.words (Chip.framerOf_framerMod c n _ hn)
  unfold Chip.codewordArrival
  rw [hw]
  change ((if _ then ((c.taken n rest).counted n _).enterCreel n _ else c.taken n rest : Chip).framerOf n).words = rest
  split
  · obtain ⟨l, hl⟩ := enterCreel_setCws ((c.taken n rest).counted n ((c.taken n rest).newCodeword n ((c.taken n rest).crl.cyc + at_) w)) n
      ((c.taken n rest).newCodeword n ((c.taken n rest).crl.cyc + at_) w)
    refine Eq.trans (congrArg (fun d : Chip => (d.framerOf n).words) hl) ?_
    exact (congrArg Framer.words (counted_framer _ hn _ n)).trans htaken
  · exact htaken

theorem codewordArrival_arrived (c : Chip) {n : Nat} (hn : n < 9) (at_ : Nat) {w : CwIn} {rest : List CwIn}
    (hw : (c.framerOf n).words = w :: rest) (hon : c.pdOn 16 = true) (hact : c.crlActive n = true) :
    ((c.codewordArrival n at_).crlOf n).win.arrived = (c.crlOf n).win.arrived + 1 := by
  rw [codewordArrival_active c at_ hw hon hact]
  obtain ⟨l, hl⟩ := enterCreel_setCws ((c.taken n rest).counted n (c.newCodeword n (c.crl.cyc + at_) w)) n
    (c.newCodeword n (c.crl.cyc + at_) w)
  rw [hl, Chip.crlOf_setCws, counted_arrived _ hn]
  exact congrArg (fun x => CrlWin.arrived (CrlLane.win x) + 1) (Chip.crlOf_congr (by simp [Chip.taken]) n)

/-- The codewords after an arrival on an active lane, as those that stand when it enters. -/
theorem codewordArrival_cws (c : Chip) {n : Nat} (at_ : Nat) {w : CwIn} {rest : List CwIn} (hn : n < 8)
    (hw : (c.framerOf n).words = w :: rest) (hon : c.pdOn 16 = true) (hact : c.crlActive n = true) :
    let x := c.newCodeword n (c.crl.cyc + at_) w
    (c.crl.paired ≠ some n → (c.codewordArrival n at_).crl.cws = c.crl.cws ++ [x]) ∧
      (c.crl.paired = some n → c.waitingFor 8 w.fn x.arrive = none →
        (c.codewordArrival n at_).crl.cws = c.crl.cws ++ [{ x with wait := true }]) ∧
      (∀ i o, c.crl.paired = some n → c.waitingFor 8 w.fn x.arrive = some i → c.crl.cws[i]? = some o →
        (c.codewordArrival n at_).crl.cws = c.crl.cws.set i (mergePair x o)) := by
  intro x
  have hn9 : n < 9 := by omega
  rw [codewordArrival_active c at_ hw hon hact]
  have hcws : ((c.taken n rest).counted n x).crl.cws = c.crl.cws := (counted_cws _ hn9 x).trans (by simp [Chip.taken])
  have hpair : ((c.taken n rest).counted n x).crl.paired = c.crl.paired := (counted_paired _ hn9 x).trans (by simp [Chip.taken])
  have hlane : ((c.taken n rest).counted n x).crlActive n = true :=
    (counted_crlActive _ hn9 x n).trans ((taken_crlActive c n rest n).trans hact)
  rw [← hpair, ← hcws, ← waitingFor_congr hcws]
  refine ⟨fun hp => ?_, fun hp hnone => ?_, fun i o hp hsome ho => ?_⟩
  · exact congrArg (fun d => d.crl.cws) (enterCreel_alone _ x hn hp hlane)
  · exact congrArg (fun d => d.crl.cws) (enterCreel_waits _ x hn hp hnone)
  · exact congrArg (fun d => d.crl.cws) (enterCreel_meets _ x o i hn hp hsome ho)

end Sys2Proof.Machine
end

section
/-! PROOFS. The slot boundary of the creel. -/

namespace Sys2Proof.Machine

/-! ### The registers of the creel's pool -/

/-- From `c` to `d` the fields of the creel's pool stay that share no bit with one of `T`. -/
def PoolKept (T : List Fld) (c d : Chip) : Prop :=
  ∀ f : Fld, 0x400000 ≤ f.addr → f.addr < 0x400100 → T.all (fun g => g.apart f) = true → d.fld f = c.fld f

namespace PoolKept

variable {T U : List Fld} {c d e : Chip}

theorem refl (T : List Fld) (c : Chip) : PoolKept T c c := fun _ _ _ _ => rfl

theorem trans (h : PoolKept T c d) (k : PoolKept T d e) : PoolKept T c e := fun f h1 h2 hT => (k f h1 h2 hT).trans (h f h1 h2 hT)

theorem mono (h : PoolKept T c d) (hTU : T ⊆ U) : PoolKept U c d :=
  fun f h1 h2 hU => h f h1 h2 (List.all_eq_true.2 (fun g hg => List.all_eq_true.1 hU g (hTU hg)))

theorem ite {p : Prop} [Decidable p] (h : PoolKept T c d) (k : PoolKept T c e) : PoolKept T c (if p then d else e) := by
  split
  · exact h
  · exact k

theorem ofRegs (T : List Fld) (h : d.regs = c.regs) : PoolKept T c d := fun f _ _ _ => Chip.fld_congr h f

theorem setFld (c : Chip) (g : Fld) (v : Nat) (hg : g ∈ T) : PoolKept T c (c.setFld g v) :=
  fun f _ _ hT => Chip.fld_setFld_other c g f v (List.all_eq_true.1 hT g hg)

theorem setFlag (c : Chip) (g : Fld) (b : Bool) (hg : g ∈ T) : PoolKept T c (c.setFlag g b) := .setFld c g _ hg

/-- A field of a lane of the creel. -/
theorem setLane (T : List Fld) (c : Chip) (g : Fld) (v : Nat) (hg : 0x400100 ≤ g.addr) : PoolKept T c (c.setFld g v) :=
  fun f _ hf _ => Chip.fld_setFld_other c g f v (Fld.apart_addr (by omega))

theorem ofCalm {P : Nat → Bool} (T : List Fld) (k : Calm P c d) (hP : ∀ a, 0x400000 ≤ a → a < 0x400100 → P a = false) : PoolKept T c d :=
  fun f h1 h2 _ => k.fld f (hP _ h1 h2)

theorem forAll {α : Type} (l : List α) (f : Chip → α → Chip) (h : ∀ c, ∀ x ∈ l, PoolKept T c (f c x)) (c : Chip) : PoolKept T c (c.forAll l f) := by
  unfold Chip.forAll
  induction l generalizing c with
  | nil => exact .refl T c
  | cons x l ih => exact (h c x (by simp)).trans (ih (fun d y hy => h d y (List.mem_cons_of_mem _ hy)) (f c x))

theorem setLevel (T : List Fld) (c : Chip) (src : Nat) (b : Bool) (pay : Nat) : PoolKept T c (c.setLevel src b pay) := .ofRegs T (by simp)

end PoolKept

/-- The fields of the pool that a refresh of the slots writes. -/
def refreshFlds : List Fld := [CRL_STATUS.RESERVE, CRL_STATUS.GUAR_SHORT, CRL_BUF_STATUS.ALLOC]

theorem creelLaneStatus_ge (n : Nat) : 0x400100 ≤ CRL_LANE_STATUS.addr n := by
  simp only [CRL_LANE_STATUS.addr]
  omega

theorem crlStop_pool (c : Chip) (n : Nat) : PoolKept refreshFlds c (c.crlStop n) :=
  ((PoolKept.ofRegs _ rfl).trans (.setLane _ _ (CRL_LANE_STATUS.SLUB n) _ (creelLaneStatus_ge n))).trans (PoolKept.setLevel _ _ _ _ _)

theorem crlStart_pool (c : Chip) (n : Nat) : PoolKept refreshFlds c (c.crlStart n) := .ofRegs _ (Chip.crlMod_regs _ n _)

theorem crlRefresh_pool (c : Chip) : PoolKept refreshFlds c c.crlRefresh := by
  unfold Chip.crlRefresh
  refine .ite (.refl _ c) ?_
  refine .trans ?_ (PoolKept.setLevel _ _ _ _ _)
  refine .trans ?_ (.setFlag _ CRL_STATUS.GUAR_SHORT _ (by decide))
  refine .trans ?_ (.setFld _ CRL_STATUS.RESERVE _ (by decide))
  refine .trans ?_ (.setFld _ CRL_BUF_STATUS.ALLOC _ (by decide))
  refine .trans ?_ (.forAll _ _ (fun d n _ => .setLane _ d (CRL_LANE_STATUS.SLOTS n) _ (creelLaneStatus_ge n)) _)
  refine .trans ?_ (.ofRegs _ rfl)
  refine .trans ?_ (.forAll _ _ (fun d n _ => crlStop_pool d n) _)
  exact .forAll _ _ (fun d n _ => crlStart_pool d n) c

/-! ### Codewords at a boundary -/

/-- `w` stands for the codeword that `v` was: from the same lane and frame, with as many iterations and the same soft values. -/
def SameWork (w v : Codeword) : Prop := w.src = v.src ∧ w.fn = v.fn ∧ w.soft = v.soft ∧ w.iters = v.iters

theorem SameWork.refl (w : Codeword) : SameWork w w := ⟨rfl, rfl, rfl, rfl⟩

theorem SameWork.trans {u v w : Codeword} (h : SameWork w v) (k : SameWork v u) : SameWork w u := by
  obtain ⟨h1, h2, h3, h4⟩ := h
  obtain ⟨k1, k2, k3, k4⟩ := k
  exact ⟨h1.trans k1, h2.trans k2, h3.trans k3, h4.trans k4⟩

/-- Each codeword of `l` stands for one of `m`. -/
def FromWork (l m : List Codeword) : Prop := ∀ w ∈ l, ∃ v ∈ m, SameWork w v

theorem FromWork.ofSublist {l m : List Codeword} (h : l.Sublist m) : FromWork l m := fun w hw => ⟨w, h.subset hw, .refl w⟩

theorem FromWork.trans {k l m : List Codeword} (h : FromWork k l) (j : FromWork l m) : FromWork k m := fun w hw => by
  obtain ⟨v, hv, hwv⟩ := h w hw
  obtain ⟨u, hu, hvu⟩ := j v hv
  exact ⟨u, hu, hwv.trans hvu⟩

theorem settlePairs_cyc (c : Chip) : c.settlePairs.crl.cyc = c.crl.cyc := rfl

theorem settlePairs_regs (c : Chip) : c.settlePairs.regs = c.regs := rfl

theorem settlePairs_work (c : Chip) : FromWork c.settlePairs.crl.cws c.crl.cws := by
  intro w hw
  obtain ⟨v, hv, hkept⟩ := List.mem_filterMap.1 hw
  have hsame : ∀ {lane : Nat}, some { v with lane := lane, wait := false } = some w → ∃ v ∈ c.crl.cws, SameWork w v :=
    fun h => ⟨v, hv, Option.some.inj h ▸ ⟨rfl, rfl, rfl, rfl⟩⟩
  have hself : some v = some w → ∃ v ∈ c.crl.cws, SameWork w v := fun h => ⟨v, hv, Option.some.inj h ▸ .refl v⟩
  split at hkept
  · exact hself hkept
  · split at hkept
    · split at hkept
      · split at hkept
        · exact hsame hkept
        · exact hself hkept
      · split at hkept
        · exact hsame hkept
        · exact absurd hkept (Option.some_ne_none w).symm
    · dsimp only at hkept
      split at hkept
      · exact hself hkept
      · exact hsame hkept

/-- With no copy waiting, nothing changes. -/
theorem settlePairs_none (c : Chip) (h : ∀ w ∈ c.crl.cws, w.wait = false) : c.settlePairs.crl.cws = c.crl.cws := by
  refine (List.filterMap_congr (g := some) (fun w hw => ?_)).trans List.filterMap_some
  rw [if_pos (by rw [h w hw]; rfl)]

/-- The codewords at the places `l` granted an iteration. -/
def grantAll (l : List Nat) (ws : List Codeword) : List Codeword := l.foldl (fun l i => cwMod l i (fun x => { x with granted := true })) ws

theorem cwMod_length (l : List Codeword) (i : Nat) (f : Codeword → Codeword) : (cwMod l i f).length = l.length := by
  unfold cwMod
  split <;> simp

theorem grantAll_length (l : List Nat) (ws : List Codeword) : (grantAll l ws).length = ws.length := by
  unfold grantAll
  induction l generalizing ws with
  | nil => rfl
  | cons i l ih => exact (ih _).trans (cwMod_length ws i _)

theorem cwMod_grant_work (ws : List Codeword) (i : Nat) : FromWork (cwMod ws i (fun x => { x with granted := true })) ws := by
  unfold cwMod
  split
  · exact .ofSublist (.refl ws)
  · next v hv =>
    intro w hw
    rcases List.mem_or_eq_of_mem_set hw with hmem | rfl
    · exact ⟨w, hmem, .refl w⟩
    · exact ⟨v, List.mem_of_getElem? hv, rfl, rfl, rfl, rfl⟩

theorem grantAll_work (l : List Nat) (ws : List Codeword) : FromWork (grantAll l ws) ws := by
  unfold grantAll
  induction l generalizing ws with
  | nil => exact .ofSublist (.refl ws)
  | cons i l ih => exact (ih _).trans (cwMod_grant_work ws i)

/-- The limit written and the grants counted: what a boundary's grants do to the part but for the grants themselves. -/
theorem grantSlot_shown (c : Chip) : ∃ d l, c.grantSlot = d.setCws (grantAll l d.crl.cws) ∧ d.crl = c.crl ∧
    PoolKept [] (c.setFld CRL_STATUS.FLOAT_EFF c.floatLimit) d := by
  unfold Chip.grantSlot
  dsimp only
  refine ⟨_, _, rfl, ?_, ?_⟩
  · refine (forAll_keeps Chip.crl _ _ (fun d i _ => Chip.count_crl d _ _) _).trans ?_
    refine (forAll_keeps Chip.crl _ _ (fun d i _ => Chip.count_crl d _ _) _).trans ?_
    exact forAll_keeps Chip.crl _ _ (fun d n _ => (Chip.setFld_crl _ _ _).trans (Chip.setFld_crl d _ _)) _
  · refine .trans ?_ (.forAll _ _ (fun d i _ => .ofRegs _ (Chip.count_regs d _ _)) _)
    refine .trans ?_ (.forAll _ _ (fun d i _ => .ofRegs _ (Chip.count_regs d _ _)) _)
    refine .forAll _ _ (fun d n _ => ?_) _
    exact (PoolKept.setLane _ d (CRL_LANE_STATUS.FLOAT_NOW n) _ (creelLaneStatus_ge n)).trans
      (.setLane _ _ (CRL_LANE_STATUS.DEMAND n) _ (creelLaneStatus_ge n))

theorem grantSlot_cyc (c : Chip) : c.grantSlot.crl.cyc = c.crl.cyc := by
  obtain ⟨d, l, hd, hcrl, -⟩ := grantSlot_shown c
  rw [hd, ← hcrl]
  rfl

theorem grantSlot_work (c : Chip) : FromWork c.grantSlot.crl.cws c.crl.cws ∧ c.grantSlot.crl.cws.length = c.crl.cws.length := by
  obtain ⟨d, l, hd, hcrl, -⟩ := grantSlot_shown c
  rw [hd, ← hcrl]
  exact ⟨grantAll_work l d.crl.cws, grantAll_length l d.crl.cws⟩

theorem grantSlot_pool (c : Chip) : PoolKept [CRL_STATUS.FLOAT_EFF] c c.grantSlot := by
  obtain ⟨d, l, hd, -, hpool⟩ := grantSlot_shown c
  rw [hd]
  exact ((PoolKept.setFld c CRL_STATUS.FLOAT_EFF _ (by decide)).trans (hpool.mono (by decide))).trans (.ofRegs _ rfl)

/-- The float limit in effect lies within its field. -/
theorem floatLimit_lt (c : Chip) : c.floatLimit < 32 := by
  have hmax : c.fld CRL_FLOAT_CFG.FLOAT_MAX < 32 := getBits_lt _ 0 5
  unfold Chip.floatLimit
  exact Nat.lt_of_le_of_lt ((Nat.min_le_left _ _).trans (Nat.min_le_left _ _)) hmax

theorem floatLimit_of_pool {c d : Chip} (h : PoolKept [CRL_STATUS.FLOAT_EFF] c d) : d.floatLimit = c.floatLimit := by
  unfold Chip.floatLimit
  rw [h CRL_STATUS.THROTTLE (by decide) (by decide) (by decide), h CRL_FLOAT_CFG.FLOAT_MAX (by decide) (by decide) (by decide),
    h CRL_STATUS.IN_SERVICE (by decide) (by decide) (by decide), h CRL_STATUS.RESERVE (by decide) (by decide) (by decide)]

/-- FLOAT_EFF shows the limit in effect (R234). -/
theorem grantSlot_floatEff (c : Chip) : c.grantSlot.fld CRL_STATUS.FLOAT_EFF = c.grantSlot.floatLimit := by
  rw [floatLimit_of_pool (grantSlot_pool c)]
  obtain ⟨d, l, hd, -, hpool⟩ := grantSlot_shown c
  rw [hd]
  refine (hpool CRL_STATUS.FLOAT_EFF (by decide) (by decide) rfl).trans ?_
  exact (Chip.fld_setFld c CRL_STATUS.FLOAT_EFF _ rfl).trans (Nat.mod_eq_of_lt (floatLimit_lt c))

/-! ### The spare's role (R229, R231, R232) -/

theorem nextBobbin_lt (retired fuel b : Nat) : nextBobbin retired (fuel + 1) b < 25 := by
  induction fuel generalizing b with
  | zero =>
    unfold nextBobbin
    dsimp only
    split <;> exact Nat.mod_lt _ (by decide)
  | succ k ih =>
    unfold nextBobbin
    dsimp only
    split
    · exact ih _
    · exact Nat.mod_lt _ (by decide)

theorem rotateSpare_pool (c : Chip) : PoolKept [CRL_STATUS.SPARE] c c.rotateSpare := by
  unfold Chip.rotateSpare
  exact .ite (.trans (.ofRegs _ rfl) (.setFld _ CRL_STATUS.SPARE _ (by decide))) (.refl _ c)

theorem rotateSpare_spare (c : Chip) (h : c.fld CRL_STATUS.SPARE ≠ 31) :
    c.rotateSpare.fld CRL_STATUS.SPARE =
      if c.crl.rotate then nextBobbin (c.fld CRL_BOBBIN_FAIL.RETIRED) 25 (c.fld CRL_STATUS.SPARE) else c.fld CRL_STATUS.SPARE := by
  unfold Chip.rotateSpare
  rw [show (c.fld CRL_STATUS.SPARE != 31) = true from bne_iff_ne.2 h, Bool.and_true]
  split
  · refine (Chip.fld_setFld _ CRL_STATUS.SPARE _ rfl).trans (Nat.mod_eq_of_lt ?_)
    exact Nat.lt_trans (nextBobbin_lt _ 24 _) (by decide)
  · rfl

theorem rotateSpare_idle (c : Chip) (h : c.crl.rotate = false) : c.rotateSpare = c := by
  unfold Chip.rotateSpare
  rw [h]
  rfl

theorem evalFray_crl (c : Chip) : c.evalFray.crl = c.crl := by
  have hraise : ∀ (d : Chip) (l : List Nat), (d.forAll l (fun s _ => s.raise 0x1AB 0)).crl = d.crl :=
    fun d l => forAll_keeps Chip.crl l _ (fun e _ _ => Chip.raise_crl e _ _) d
  unfold Chip.evalFray Chip.setFray
  dsimp only
  split <;> simp [hraise]

theorem evalFray_pool (T : List Fld) (c : Chip) : PoolKept T c c.evalFray :=
  .ofCalm T (Calm.evalFray_frayReg c) (fun a h1 _ => by
    simp only [frayReg, GLB_FRAY_STATUS.addr, GLB_FRAY_HIST.addr, Bool.or_eq_false_iff, beq_eq_false_iff_ne]
    omega)

theorem spareGone_crl (c : Chip) : c.spareGone.crl = { c.crl with rotate := false } := by
  unfold Chip.spareGone
  dsimp only
  rw [evalFray_crl, Chip.setLevel_crl, Chip.setFlag_crl]

theorem spareGone_pool (c : Chip) : PoolKept [CRL_STATUS.SPARE, CRL_STATUS.NO_SPARE] c c.spareGone := by
  unfold Chip.spareGone
  refine .trans ?_ (evalFray_pool _ _)
  refine .trans ?_ (PoolKept.setLevel _ _ _ _ _)
  refine .trans ?_ (.setFlag _ CRL_STATUS.NO_SPARE _ (by decide))
  exact .trans (.setFld c CRL_STATUS.SPARE 31 (by decide)) (.ofRegs _ rfl)

theorem spareGone_status (c : Chip) : c.spareGone.fld CRL_STATUS.SPARE = 31 ∧ c.spareGone.fld CRL_STATUS.NO_SPARE = 1 := by
  have hlevel := fun d : Chip => (PoolKept.setLevel [] d 0x181 true 0).trans (evalFray_pool [] _)
  unfold Chip.spareGone
  constructor
  · refine (hlevel _ CRL_STATUS.SPARE (by decide) (by decide) rfl).trans ?_
    exact (Chip.fld_setFld_other _ CRL_STATUS.NO_SPARE CRL_STATUS.SPARE _ (by decide)).trans (Chip.fld_setFld c CRL_STATUS.SPARE 31 rfl)
  · exact (hlevel _ CRL_STATUS.NO_SPARE (by decide) (by decide) rfl).trans (Chip.fld_setFld _ CRL_STATUS.NO_SPARE _ rfl)

/-- The spare retired (R232): its bobbin is marked, no bobbin has its role any more, and none rotates. -/
theorem retireBobbin_spare (c : Chip) {b : Nat} (hb : b < 25) (hspare : c.fld CRL_STATUS.SPARE = b)
    (hfresh : bit (c.fld CRL_BOBBIN_FAIL.RETIRED) b = false) :
    let d := c.retireBobbin b
    bit (d.fld CRL_BOBBIN_FAIL.RETIRED) b = true ∧ d.fld CRL_STATUS.SPARE = 31 ∧ d.fld CRL_STATUS.NO_SPARE = 1 ∧
      d.fld CRL_STATUS.IN_SERVICE = c.fld CRL_STATUS.IN_SERVICE ∧ d.crl = { c.crl with rotate := false } := by
  let e : Chip := Chip.raise { c with pmu := { c.pmu with retired := setBitN c.pmu.retired b } } 0x180 0
  have hgone : c.retireBobbin b = (e.setFldBit CRL_BOBBIN_FAIL.RETIRED b true).spareGone :=
    (if_neg (ne_true_of_eq_false hfresh)).trans (if_pos hspare.symm)
  obtain ⟨h31, hno⟩ := spareGone_status (e.setFldBit CRL_BOBBIN_FAIL.RETIRED b true)
  have hpool := spareGone_pool (e.setFldBit CRL_BOBBIN_FAIL.RETIRED b true)
  intro d
  rw [show d = _ from hgone]
  refine ⟨?_, h31, hno, ?_, spareGone_crl _⟩
  · rw [hpool CRL_BOBBIN_FAIL.RETIRED (by decide) (by decide) (by decide)]
    exact bit_setFldBit e CRL_BOBBIN_FAIL.RETIRED rfl hb
  · exact (hpool CRL_STATUS.IN_SERVICE (by decide) (by decide) (by decide)).trans
      (Chip.fld_setFld_other e CRL_BOBBIN_FAIL.RETIRED CRL_STATUS.IN_SERVICE _ (by decide))

/-! ### A boundary without errors (R228) -/

/-- The boundary's cycle, with the iterations granted at the last one at their ends. -/
def Chip.iterated (c : Chip) : Chip := { c with crl := { c.crl with cyc := c.crl.cyc + 64, cws := endIterations [] c.crl.cws } }

/-- The bobbins that failed known-answer tests take out of service: the spare alone is tested. -/
def Chip.testedBad (c : Chip) (tests : List Nat) : List Nat :=
  (List.range 25).filter (fun b =>
    decide (b < 25) && !(bit (c.fld CRL_BOBBIN_FAIL.RETIRED) b) && (tests.contains b && b == c.fld CRL_STATUS.SPARE))

/-- What follows the bobbins at a boundary: the spare's role, the slots, the pairs and the grants. -/
def Chip.boundaryRest (c : Chip) : Chip := ((c.rotateSpare.crlRefresh).settlePairs).grantSlot

/-- Operations that each change nothing. -/
theorem forAll_fixed {α : Type} (l : List α) (f : Chip → α → Chip) (c : Chip) (h : ∀ x ∈ l, f c x = c) : c.forAll l f = c := by
  unfold Chip.forAll
  induction l with
  | nil => rfl
  | cons x l ih =>
    rw [List.foldl_cons, h x (by simp)]
    exact ih (fun y hy => h y (List.mem_cons_of_mem _ hy))

theorem badRecords_nil (c : Chip) : c.badRecords [] = c := by
  unfold Chip.badRecords
  simp only [List.filterMap_nil, List.contains_nil, Bool.not_false, List.filter_true]
  exact congrArg c.setCws (List.zipIdx_map_fst ..)

theorem slotBoundary_tests (c : Chip) (tests : List Nat) (hon : c.pdOn 16 = true) :
    c.slotBoundary tests [] [] [] = (c.iterated.forAll (c.testedBad tests) Chip.retireBobbin).boundaryRest := by
  unfold Chip.slotBoundary
  rw [if_neg (by simp [hon]), forAll_fixed _ _ c (fun i _ => ?_)]
  · dsimp only
    rw [badRecords_nil]
    rfl
  · dsimp only
    split
    · rfl
    · exact if_neg (by simp)

theorem Chip.crlRefresh_frame (c : Chip) : c.crlRefresh.crl.frame = c.crl.frame := by
  cases hon : c.pdOn 16 with
  | false =>
    unfold Chip.crlRefresh
    rw [if_pos (by simp [hon])]
  | true =>
    rw [c.crlRefresh_crl hon]
    exact c.turnover_frame

theorem Chip.cyc_of_frame {c d : Chip} (h : d.crl.frame = c.crl.frame) : d.crl.cyc = c.crl.cyc :=
  show d.crl.frame.cyc = c.crl.frame.cyc by rw [h]

theorem rotateSpare_cyc (c : Chip) : c.rotateSpare.crl.cyc = c.crl.cyc := by
  unfold Chip.rotateSpare
  split <;> rfl

theorem rotateSpare_cws (c : Chip) : c.rotateSpare.crl.cws = c.crl.cws := by
  unfold Chip.rotateSpare
  split <;> rfl

theorem rotateSpare_active (c : Chip) : c.rotateSpare.crl.active = c.crl.active := by
  unfold Chip.rotateSpare
  split <;> rfl

theorem boundaryRest_cyc (c : Chip) : c.boundaryRest.crl.cyc = c.crl.cyc :=
  (grantSlot_cyc _).trans ((Chip.cyc_of_frame (Chip.crlRefresh_frame _)).trans (rotateSpare_cyc c))

theorem boundaryRest_work (c : Chip) : FromWork c.boundaryRest.crl.cws c.crl.cws := by
  refine (grantSlot_work _).1.trans ((settlePairs_work _).trans (.ofSublist ?_))
  rw [← rotateSpare_cws c]
  exact Chip.crlRefresh_cws _

/-- The spare's role has moved; the rest writes the slots, the reserve and the limit. -/
theorem boundaryRest_pool (c : Chip) : PoolKept (CRL_STATUS.FLOAT_EFF :: refreshFlds) c.rotateSpare c.boundaryRest :=
  (((crlRefresh_pool _).mono (by decide)).trans (.ofRegs _ (settlePairs_regs _))).trans ((grantSlot_pool _).mono (by decide))

/-! ### The active lanes at a boundary -/

/-- Where the lanes stand as they did, no slot is taken up or back. -/
theorem turnover_steady (c : Chip) (h : c.crl.active = maskOf 9 c.crlActive) : c.turnover = c := by
  have hnone : ∀ (l : List Nat) (p : Nat → Bool), l.filter (fun n => !(bit c.crl.active n) && bit c.crl.active n && p n) = [] :=
    fun l p => List.filter_eq_nil_iff.2 (fun n _ => by cases bit c.crl.active n <;> simp)
  have hstart : (List.range 9).filter (fun n => bit c.crl.active n && !(bit c.crl.active n)) = [] :=
    List.filter_eq_nil_iff.2 (fun n _ => by cases bit c.crl.active n <;> simp)
  unfold Chip.turnover
  rw [← h, hstart]
  dsimp only
  rw [hnone]
  rfl

theorem crlRefresh_steady (c : Chip) (h : c.crl.active = maskOf 9 c.crlActive) : c.crlRefresh.crl.cws = c.crl.cws := by
  cases hon : c.pdOn 16 with
  | false =>
    unfold Chip.crlRefresh
    rw [if_pos (by simp [hon])]
  | true =>
    rw [c.crlRefresh_crl hon, turnover_steady c h]

theorem rotateSpare_ports (c : Chip) : c.rotateSpare.ports = c.ports := by
  unfold Chip.rotateSpare
  split <;> rfl

theorem rotateSpare_reg (c : Chip) {a : Nat} (ha : a ≠ CRL_STATUS.addr) : c.rotateSpare.reg a = c.reg a := by
  unfold Chip.rotateSpare
  split
  · exact Chip.reg_setFld_other _ CRL_STATUS.SPARE _ a ha
  · rfl

theorem rotateSpare_crlActive (c : Chip) (n : Nat) : c.rotateSpare.crlActive n = c.crlActive n :=
  Chip.crlActive_congr (rotateSpare_ports c) (rotateSpare_reg c (by decide)) (rotateSpare_reg c (by decide)) n

theorem boundaryRest_length (c : Chip) (hact : c.crl.active = maskOf 9 c.crlActive) (hwait : ∀ w ∈ c.crl.cws, w.wait = false) :
    c.boundaryRest.crl.cws.length = c.crl.cws.length := by
  have hlanes : c.rotateSpare.crl.active = maskOf 9 c.rotateSpare.crlActive := by
    rw [rotateSpare_active, funext (rotateSpare_crlActive c)]
    exact hact
  have hcws : c.rotateSpare.crlRefresh.crl.cws = c.crl.cws := (crlRefresh_steady _ hlanes).trans (rotateSpare_cws c)
  refine (grantSlot_work _).2.trans (congrArg List.length ((settlePairs_none _ ?_).trans hcws))
  rw [hcws]
  exact hwait

/-! ### The ends of the iterations (R230) -/

/-- `w` is `v` after the boundary that ends the iteration granted to it, if one was. -/
def AfterIteration (w v : Codeword) : Prop :=
  w.src = v.src ∧ w.fn = v.fn ∧ w.soft = (if v.granted then Config.bobbinPass v.soft else v.soft) ∧
    w.iters = (if v.granted then v.iters + 1 else v.iters)

theorem endIterations_after (l : List Codeword) : ∀ w ∈ endIterations [] l, ∃ v ∈ l, AfterIteration w v ∧ w.wait = v.wait := by
  intro w hw
  obtain ⟨⟨v, i⟩, hv, hend⟩ := List.mem_map.1 hw
  refine ⟨v, (List.of_mem_zip hv).1, ?_⟩
  rw [← hend]
  unfold AfterIteration
  cases hgrant : v.granted <;> simp [hgrant]

theorem endIterations_length (l : List Codeword) : (endIterations [] l).length = l.length := by simp [endIterations]

/-! ### The statements about a boundary -/

theorem slotBoundary_plain (c : Chip) (hon : c.pdOn 16 = true) :
    let d := c.slotBoundary [] [] [] []
    d.crl.cyc = c.crl.cyc + 64 ∧ d.fld CRL_STATUS.FLOAT_EFF = d.floatLimit ∧
      (c.fld CRL_STATUS.SPARE ≠ 31 →
        d.fld CRL_STATUS.SPARE = if c.crl.rotate then nextBobbin (c.fld CRL_BOBBIN_FAIL.RETIRED) 25 (c.fld CRL_STATUS.SPARE)
          else c.fld CRL_STATUS.SPARE) ∧
      (∀ w ∈ d.crl.cws, ∃ v ∈ c.crl.cws, AfterIteration w v) ∧
      (c.crl.active = maskOf 9 c.crlActive → (∀ w ∈ c.crl.cws, w.wait = false) → d.crl.cws.length = c.crl.cws.length) := by
  have hnone : c.testedBad [] = [] := List.filter_eq_nil_iff.2 (fun b _ => by simp)
  intro d
  rw [show d = c.iterated.boundaryRest from (slotBoundary_tests c [] hon).trans (by rw [hnone]; rfl)]
  refine ⟨boundaryRest_cyc c.iterated, grantSlot_floatEff _, fun hspare => ?_, fun w hw => ?_, fun hact hwait => ?_⟩
  · exact (boundaryRest_pool c.iterated CRL_STATUS.SPARE (by decide) (by decide) (by decide)).trans (rotateSpare_spare c.iterated hspare)
  · obtain ⟨u, hu, hsrc, hfn, hsoft, hiters⟩ := boundaryRest_work c.iterated w hw
    obtain ⟨v, hv, ⟨ksrc, kfn, ksoft, kiters⟩, -⟩ := endIterations_after c.crl.cws u hu
    exact ⟨v, hv, hsrc.trans ksrc, hfn.trans kfn, hsoft.trans ksoft, hiters.trans kiters⟩
  · refine (boundaryRest_length c.iterated hact (fun w hw => ?_)).trans (endIterations_length _)
    obtain ⟨v, hv, -, hvw⟩ := endIterations_after c.crl.cws w hw
    exact hvw.trans (hwait v hv)

theorem testedBad_spare (c : Chip) {b : Nat} (hb : b < 25) (hspare : c.fld CRL_STATUS.SPARE = b)
    (hfresh : bit (c.fld CRL_BOBBIN_FAIL.RETIRED) b = false) : c.testedBad [b] = [b] := by
  have hsame : c.testedBad [b] = (List.range 25).filter (· == b) := List.filter_congr (fun x hx => by
    by_cases hxb : x = b
    · simp [hxb, hb, hspare, hfresh]
    · simp [hxb])
  rw [hsame, List.filter_beq, List.count_eq_one_of_mem List.nodup_range (List.mem_range.2 hb)]
  rfl

/-- A boundary at which the spare fails its known-answer test. -/
theorem slotBoundary_spareFails (c : Chip) {b : Nat} (hb : b < 25) (hon : c.pdOn 16 = true) (hspare : c.fld CRL_STATUS.SPARE = b)
    (hfresh : bit (c.fld CRL_BOBBIN_FAIL.RETIRED) b = false) :
    let d := c.slotBoundary [b] [] [] []
    d.crl.cyc = c.crl.cyc + 64 ∧ bit (d.fld CRL_BOBBIN_FAIL.RETIRED) b = true ∧ d.fld CRL_STATUS.SPARE = 31 ∧
      d.flag CRL_STATUS.NO_SPARE = true ∧ d.fld CRL_STATUS.IN_SERVICE = c.fld CRL_STATUS.IN_SERVICE := by
  obtain ⟨hmark, h31, hno, hserve, hcrl⟩ := retireBobbin_spare c.iterated hb hspare hfresh
  have hidle : (c.iterated.retireBobbin b).rotateSpare = c.iterated.retireBobbin b := rotateSpare_idle _ (by rw [hcrl])
  have hpool := boundaryRest_pool (c.iterated.retireBobbin b)
  rw [hidle] at hpool
  intro d
  rw [show d = (c.iterated.retireBobbin b).boundaryRest from
    (slotBoundary_tests c [b] hon).trans (by rw [testedBad_spare c hb hspare hfresh]; rfl)]
  refine ⟨?_, ?_, ?_, ?_, ?_⟩
  · rw [boundaryRest_cyc, hcrl]
    rfl
  · rw [hpool CRL_BOBBIN_FAIL.RETIRED (by decide) (by decide) (by decide)]
    exact hmark
  · exact (hpool CRL_STATUS.SPARE (by decide) (by decide) (by decide)).trans h31
  · exact beq_iff_eq.2 ((hpool CRL_STATUS.NO_SPARE (by decide) (by decide) (by decide)).trans hno)
  · exact (hpool CRL_STATUS.IN_SERVICE (by decide) (by decide) (by decide)).trans hserve

end Sys2Proof.Machine
end

section
/-! PROOFS. Serving the mailbox leaves the creel as it is. -/

namespace Sys2Proof.Machine

/-! ### Memory -/

@[simp] theorem Chip.putGran_crl (s : Chip) (m : MemId) (i v : Nat) : (s.putGran m i v).crl = s.crl := by
  cases m with
  | tension n sh => unfold Chip.putGran; dsimp only; split <;> rfl
  | _ => rfl

@[simp] theorem Chip.putBytes_crl (m : MemId) (l : List Nat) (i : Nat) (s : Chip) :
    (Chip.putBytes i m l s).crl = s.crl := by
  induction l generalizing i s with
  | nil => rfl
  | cons v l ih => simp [Chip.putBytes, ih]

@[simp] theorem Chip.writeBytes_crl (s : Chip) (m : MemId) (off : Nat) (l : List Byte) :
    (s.writeBytes m off l).crl = s.crl := Chip.putBytes_crl m _ _ s

@[simp] theorem Chip.logEcc_crl (s : Chip) (q g : Nat) (k : EccKind) (b : Nat) : (s.logEcc q g k b).crl = s.crl := by
  unfold Chip.logEcc Chip.logFullLevel
  dsimp only
  split
  · simp
  · split <;> simp

@[simp] theorem Chip.setBucket_crl (s : Chip) (b : Fin 3) (v : Nat) : (s.setBucket b v).crl = s.crl := rfl

@[simp] theorem Chip.fillBucket_crl (s : Chip) (b : Fin 3) : (s.fillBucket b).crl = s.crl := by
  unfold Chip.fillBucket
  dsimp only
  split <;> simp

@[simp] theorem Chip.readGran_crl (s : Chip) (m : MemId) (i : Nat) : (s.readGran m i).1.crl = s.crl := by
  unfold Chip.readGran
  split
  · rfl
  · dsimp only
    split
    · rfl
    · split
      · split <;> simp
      · simp

@[simp] theorem Chip.readGrans_crl (m : MemId) (n i : Nat) (s : Chip) : (Chip.readGrans n m i s).1.crl = s.crl := by
  induction n generalizing i s with
  | zero => rfl
  | succ n ih => simp [Chip.readGrans, ih]

@[simp] theorem Chip.readBytes_crl (s : Chip) (m : MemId) (off n : Nat) : (s.readBytes m off n).1.crl = s.crl :=
  Chip.readGrans_crl m _ _ s

/-! ### Fleyth answers and completions -/

@[simp] theorem Chip.flyDrop_crl (s : Chip) (r : FlyDrop) : (s.flyDrop r).crl = s.crl := by
  unfold Chip.flyDrop
  dsimp only
  split <;> rfl

@[simp] theorem Chip.flyQueue_crl (s : Chip) (p : Nat) (m : List Byte × Bool) : (s.flyQueue p m).crl = s.crl := by
  unfold Chip.flyQueue
  split <;> simp

@[simp] theorem Chip.flySend_crl (s : Chip) (p : Nat) (m : FlyMsg) : (s.flySend p m).crl = s.crl :=
  Chip.flyQueue_crl s p _

@[simp] theorem Chip.flyForward_crl (s : Chip) (m : FlyMsg) (o : Option Nat) : (s.flyForward m o).crl = s.crl := by
  unfold Chip.flyForward
  split
  · simp
  · split <;> simp

@[simp] theorem Chip.flyOriginate_crl (s : Chip) (m : FlyMsg) : (s.flyOriginate m).crl = s.crl := by
  unfold Chip.flyOriginate
  split <;> simp

@[simp] theorem Chip.setSlot_crl (s : Chip) (i : Nat) (st : SlotState) : (s.setSlot i st).crl = s.crl := by
  unfold Chip.setSlot
  split <;> rfl

@[simp] theorem Chip.signalCpl_crl (s : Chip) : s.signalCpl.crl = s.crl := by
  unfold Chip.signalCpl
  split <;> rfl

@[simp] theorem Chip.postCpl_crl (s : Chip) (c : Completion) : (s.postCpl c).crl = s.crl := by
  unfold Chip.postCpl
  dsimp only
  split <;> simp only [Chip.signalCpl_crl, Chip.setSlot_crl, Chip.setReg_crl,
    Chip.writeBytes_crl]

@[simp] theorem Chip.complete_crl (s : Chip) (c : Completion) : (s.complete c).crl = s.crl := by
  unfold Chip.complete
  split
  · rfl
  · exact Chip.postCpl_crl s c

@[simp] theorem Chip.finish_crl (s : Chip) (src : CmdSrc) (op tag fl : Nat) (y : Reply) :
    (s.finish src op tag fl y).crl = s.crl := by
  unfold Chip.finish Chip.writeResp Chip.flyRespond
  cases src <;> dsimp only <;> split <;> simp

/-! ### Requests -/

@[simp] theorem Chip.slotReq_crl (s : Chip) (i : Fin 16) : (s.slotReq i).1.crl = s.crl := by
  unfold Chip.slotReq
  dsimp only
  split <;> simp

@[simp] theorem Chip.begin_crl (s : Chip) (src : CmdSrc) : (s.begin src).crl = s.crl := by
  cases src with
  | slot i => exact Chip.setSlot_crl _ _ _
  | fleyth k => rfl

@[simp] theorem Chip.finishReq_crl (s : Chip) (r : Req) (y : Reply) : (s.finishReq r y).crl = s.crl :=
  Chip.finish_crl s _ _ _ _ _

theorem Chip.serveFront_crl (n : Nat) (s : Chip) : (Chip.serveFront n s).crl = s.crl := by
  induction n generalizing s with
  | zero => rfl
  | succ n ih =>
    unfold Chip.serveFront
    split
    · rfl
    · dsimp only
      split
      · simp [ih]
      · rfl

theorem Chip.serveFly_crl (n : Nat) (s : Chip) : (Chip.serveFly n s).crl = s.crl := by
  induction n generalizing s with
  | zero => rfl
  | succ n ih =>
    unfold Chip.serveFly
    split
    · rfl
    · split
      · rfl
      · split
        · simp [ih]
        · rfl

@[simp] theorem Chip.serve_crl (s : Chip) : s.serve.crl = s.crl := (Chip.serveFly_crl _ _).trans (Chip.serveFront_crl _ s)

@[simp] theorem Chip.endCmd_crl (s : Chip) (e : ExecCmd) (y : Reply) : (s.endCmd e y).crl = s.crl :=
  (Chip.serve_crl _).trans (Chip.finish_crl _ _ _ _ _ _)

@[simp] theorem Chip.endWait_crl (s : Chip) (p : Wait → Bool) (y : Reply) : (s.endWait p y).crl = s.crl := by
  unfold Chip.endWait
  split
  · rfl
  · exact Chip.endCmd_crl s _ y

end Sys2Proof.Machine
end

section
/-! PROOFS. What the fault logic and settling keep of the creel's counts and averages. -/

namespace Sys2Proof.Machine

/-! ### The registers that count and average -/

/-- The registers but those in which the creel counts and averages. -/
def offTally (a : Nat) : Bool := decide (a < 0x400000) || decide (0x410000 ≤ a) || slotsReg a || a == CRL_LANE_CFG.addr 8

theorem offTally_beyond {a : Nat} (h : a < 0x400000 ∨ 0x410000 ≤ a) : offTally a = true := by
  rcases h with h | h <;> simp [offTally, h]

theorem offTally_slots (a : Nat) (h : slotsReg a = true) : offTally a = true := by simp [offTally, h]

theorem offTally_serve (a : Nat) (h : serveReg a = true) : offTally a = true := offTally_beyond (.inl (Nat.lt_trans (serveReg_lt h) (by decide)))

theorem offTally_rx {n a : Nat} (hn : n < 9) (h : rxReg n a = true) : offTally a = true := by
  rw [rxReg_eq_true] at h
  exact offTally_beyond (.inl (by omega))

/-- From `s` to `t` the creel's counts and averages stay, and which ports' uncorrectable codewords were raised in the window; where no
command executes none begins, and whether a dropped message was raised in the window stays too. -/
structure TallyKept (s t : Chip) : Prop where
  regs : RegsKept offTally s t
  seen : t.crl.uncorrSeen = s.crl.uncorrSeen
  idle : s.mbx.exec = [] → t.mbx.exec = [] ∧ t.fly.dropSeen = s.fly.dropSeen

namespace TallyKept

variable {s t u : Chip}

theorem of (hregs : t.regs = s.regs) (hseen : t.crl.uncorrSeen = s.crl.uncorrSeen) (hexec : t.mbx.exec = s.mbx.exec)
    (hdrop : t.fly.dropSeen = s.fly.dropSeen) : TallyKept s t :=
  ⟨.ofRegs _ hregs, hseen, fun h => ⟨hexec.trans h, hdrop⟩⟩

theorem refl (s : Chip) : TallyKept s s := .of rfl rfl rfl rfl

theorem trans (h : TallyKept s t) (k : TallyKept t u) : TallyKept s u where
  regs := h.regs.trans k.regs
  seen := k.seen.trans h.seen
  idle he := ⟨(k.idle (h.idle he).1).1, (k.idle (h.idle he).1).2.trans (h.idle he).2⟩

theorem ite {p : Prop} [Decidable p] (h : TallyKept s t) (k : TallyKept s u) : TallyKept s (if p then t else u) := by
  split
  · exact h
  · exact k

theorem when {b : Bool} {f : Chip → Chip} (h : TallyKept s (f s)) : TallyKept s (s.when b f) := .ite h (.refl s)

theorem forAll {α : Type} (l : List α) (f : Chip → α → Chip) (h : ∀ s, ∀ x ∈ l, TallyKept s (f s x)) (s : Chip) : TallyKept s (s.forAll l f) := by
  unfold Chip.forAll
  induction l generalizing s with
  | nil => exact .refl s
  | cons x l ih => exact (h s x (by simp)).trans (ih (fun s y hy => h s y (List.mem_cons_of_mem _ hy)) (f s x))

theorem setReg (s : Chip) (a : Nat) (v : Word) (h : offTally a = true) : TallyKept s (s.setReg a v) where
  regs x hx := Chip.reg_setReg_other s a x v (by rintro rfl; rw [h] at hx; exact Bool.noConfusion hx)
  seen := rfl
  idle he := ⟨he, rfl⟩

theorem setFld (s : Chip) (f : Fld) (v : Nat) (h : offTally f.addr = true) : TallyKept s (s.setFld f v) := .setReg s _ _ h

theorem setFlag (s : Chip) (f : Fld) (b : Bool) (h : offTally f.addr = true) : TallyKept s (s.setFlag f b) := .setReg s _ _ h

/-- A field of a receiver's window. -/
theorem setRx (s : Chip) {n k : Nat} (hn : n < 9) (hk : k < 0x10000) (lo w v : Nat) :
    TallyKept s (s.setFld ⟨0x200000 + k + 0x10000 * n, lo, w⟩ v) := .setFld s _ v (offTally_beyond (.inl (by dsimp only; omega)))

theorem hankStatus (s : Chip) (n lo w v : Nat) : TallyKept s (s.setFld ⟨HNK_LANE_STATUS.addr n, lo, w⟩ v) :=
  .setFld s _ v (offTally_beyond (.inr (by simp only [HNK_LANE_STATUS.addr]; omega)))

theorem raise (s : Chip) (src pay : Nat) : TallyKept s (s.raise src pay) := .of rfl rfl rfl rfl

theorem setLevel (s : Chip) (src : Nat) (b : Bool) (pay : Nat) : TallyKept s (s.setLevel src b pay) :=
  .of (by simp) (by simp) (by simp) (by simp)

theorem rxMod (s : Chip) (n : Nat) (f : LineRx → LineRx) : TallyKept s (s.rxMod n f) :=
  .of (Chip.rxMod_regs s n f) (by simp) (by simp) (by simp)

theorem portMod (s : Chip) (p : Nat) (f : Port → Port) : TallyKept s (s.portMod p f) :=
  .of (Chip.portMod_regs s p f) (by simp) (by simp) (by simp)

theorem withPly (s : Chip) (x) : TallyKept s { s with ply := x } := .of rfl rfl rfl rfl

theorem withCrl (s : Chip) (x : Creel) (h : x.uncorrSeen = s.crl.uncorrSeen) : TallyKept s { s with crl := x } := .of rfl h rfl rfl

theorem withHnk (s : Chip) (x) : TallyKept s { s with hnk := x } := .of rfl rfl rfl rfl

theorem withPmu (s : Chip) (x) : TallyKept s { s with pmu := x } := .of rfl rfl rfl rfl

/-! ### Commands that end -/

theorem endCmd (s : Chip) (e : ExecCmd) (y : Reply) (he : e ∈ s.mbx.exec) : TallyKept s (s.endCmd e y) where
  regs := RegsKept.mono (Calm.endCmd s e y).reg offTally_serve
  seen := by rw [Chip.endCmd_crl]
  idle h := by
    rw [h] at he
    exact absurd he List.not_mem_nil

theorem endWait (s : Chip) (p : Wait → Bool) (y : Reply) : TallyKept s (s.endWait p y) := by
  unfold Chip.endWait
  split
  · exact .refl s
  · next e he => exact .endCmd s e y (List.mem_of_find?_eq_some he)

/-! ### The hank engine and the receivers -/

theorem dropLastGood (s : Chip) (n : Nat) : TallyKept s (s.dropLastGood n) := by
  unfold Chip.dropLastGood
  split
  · exact .refl s
  · exact .trans (.trans (.withHnk s _) (.hankStatus _ n _ _ _)) (.hankStatus _ n _ _ _)

theorem dropActive (s : Chip) (n : Nat) : TallyKept s (s.dropActive n) := by
  unfold Chip.dropActive
  split
  · exact .refl s
  · exact .trans (.trans (.withHnk s _) (.hankStatus _ n _ _ _)) (.hankStatus _ n _ _ _)

theorem dropPins (s : Chip) (n : Nat) : TallyKept s (s.dropPins n) := (dropLastGood s n).trans (.dropActive _ n)

theorem flushLane (s : Chip) (n : Nat) : TallyKept s (s.flushLane n).1 :=
  ((dropPins s n).trans (.withHnk _ _)).trans (.forAll _ _ (fun s _ _ => .withHnk s _) _)

theorem flushWaiting (s : Chip) (n : Nat) : TallyKept s (s.flushWaiting n) :=
  .ite (((withHnk s _).trans (.flushLane _ n)).trans (.endWait _ _ _)) (.refl s)

theorem withdrawPages (s : Chip) (n : Nat) : TallyKept s (s.withdrawPages n) := .ite ((withHnk s _).trans (.endWait _ _ _)) (.withHnk s _)

theorem clearGood (s : Chip) {n : Nat} (hn : n < 9) : TallyKept s (s.clearGood n) := by
  have hkill : ∀ s : Chip, TallyKept s (s.killSnapshot n) := fun s => by
    unfold Chip.killSnapshot
    split
    · exact .refl s
    · exact .of rfl rfl rfl rfl
  exact (setRx s (k := 0x40) hn (by decide) 16 1 (b2n false)).trans (hkill _)

theorem toHold (s : Chip) {n : Nat} (hn : n < 9) : TallyKept s (s.toHold n) := by
  unfold Chip.toHold Chip.putHold Chip.setRxState
  refine .trans ?_ (.setLevel _ _ _ _)
  refine .trans ?_ (.setRx _ (k := 0x40) hn (by decide) 21 3 _)
  refine .trans ?_ (.setRx _ (k := 0x40) hn (by decide) 8 3 _)
  exact .when ((setRx s (k := 0x50) hn (by decide) _ _ _).trans (.rxMod _ n _))

/-! ### The Ply lane -/

theorem request (s : Chip) (n : Nat) (ply : Bool) : TallyKept s (s.request n ply) :=
  ((when (dropPins s 8)).trans (.setFld _ TWF_PLY_STATUS.RX_LANE n rfl)).trans (.withPly _ _)

theorem setPlyRx (s : Chip) (st : Nat) : TallyKept s (s.setPlyRx st) := .setFld s _ st rfl

theorem setPaired (s : Chip) (p : Option Nat) : TallyKept s (s.setPaired p) := by
  have hflags := forAll (List.range 8) (fun s n => s.setFlag (CRL_LANE_STATUS.PAIRED n) (decide (p = some n)))
    (fun s n hn => .setFlag s _ _ (offTally_slots _ (slotsReg_laneStatus (Nat.lt_trans (List.mem_range.1 hn) (by decide))))) s
  unfold Chip.setPaired
  cases p with
  | none => exact hflags.trans (.withCrl _ _ rfl)
  | some m => exact (hflags.trans (.setFld _ (CRL_LANE_CFG.DEADLINE 8) _ rfl)).trans (.withCrl _ _ rfl)

theorem commitSubst (s : Chip) {n : Nat} (hn : n < 9) : TallyKept s (s.commitSubst n) := by
  unfold Chip.commitSubst
  refine .trans ?_ (.endWait _ _ _)
  refine .trans ?_ (.flushWaiting _ n)
  refine .trans ?_ (.raise _ _ _)
  refine .trans ?_ (.withPly _ _)
  refine .trans ?_ (.forAll _ _ (fun s p _ => .portMod s p _) _)
  refine .trans ?_ (.ite (.refl _) (.trans (.rxMod _ n _) (.toHold _ hn)))
  refine .trans ?_ (.clearGood _ hn)
  refine .trans ?_ (.withdrawPages _ n)
  refine .trans ?_ (.withHnk _ _)
  refine .trans ?_ (.setFld _ TWF_PLY_CNT.SUBST_CNT _ rfl)
  refine .trans ?_ (.setFld _ TWF_LANE_FAILED.FAILED _ rfl)
  refine .trans ?_ (.withPmu _ _)
  exact ((setPaired s none).trans (.request _ n true)).trans (.setPlyRx _ _)

theorem endPairing (s : Chip) : TallyKept s s.endPairing := by
  unfold Chip.endPairing
  split
  · exact .refl s
  · exact .ite (.refl s) ((setPaired s none).trans (.ite (.setPlyRx _ _) (.refl _)))

theorem startPairing (s : Chip) : TallyKept s s.startPairing := by
  unfold Chip.startPairing
  split
  · next n _ _ =>
    split
    · next hpair =>
      have hn : n < 9 := Nat.lt_trans (mayPair_lt hpair) (by decide)
      exact (setPaired s (some n)).trans (.ite (.commitSubst _ hn) (.ite (.commitSubst _ hn) (.ite (.setPlyRx _ _) (.refl _))))
    · exact .refl s
  · exact .refl s

theorem evalPairing (s : Chip) : TallyKept s s.evalPairing := (endPairing s).trans (.startPairing _)

theorem moveMirror (s : Chip) (n : Nat) : TallyKept s (s.moveMirror n) := by
  unfold Chip.moveMirror
  refine .trans ?_ (.evalPairing _)
  refine .trans ?_ (.raise _ _ _)
  refine .trans ?_ (.setFld _ TWF_PLY_CNT.MIRROR_CNT _ rfl)
  exact (request s n false).trans (.ite (.refl _) (.setPlyRx _ _))

theorem chooseMirror (s : Chip) : TallyKept s s.chooseMirror := by
  unfold Chip.chooseMirror
  exact .ite ((withPly s _).trans (.ite (.moveMirror _ _) (.refl _))) (.refl s)

theorem showRisks (s : Chip) : TallyKept s s.showRisks := by
  have haddr : ∀ n, offTally (TWF_PLY_RISK.addr n) = true := fun n => offTally_beyond (.inr (by simp only [TWF_PLY_RISK.addr]; omega))
  unfold Chip.showRisks
  exact .forAll _ _ (fun s n _ => ((setFlag s (TWF_PLY_RISK.ELIGIBLE n) _ (haddr n)).trans
    (.setFlag _ (TWF_PLY_RISK.ABOVE_FRAY n) _ (haddr n))).trans (.setFld _ (TWF_PLY_RISK.RISK n) _ (haddr n))) s

/-! ### Settling -/

theorem judgeModes (s : Chip) : TallyKept s s.judgeModes := by
  unfold Chip.judgeModes
  refine .trans ?_ (.setLevel _ _ _ _)
  refine .trans ?_ (.forAll _ _ (fun s p _ => .portMod s p _) _)
  exact .forAll _ _ (fun s n _ => .setFlag s _ _ (offTally_beyond (.inr (by simp only [TWF_LANE_STATUS.MISMATCH, TWF_LANE_STATUS.addr]; omega)))) s

theorem refreshPort (s : Chip) (p : Nat) : TallyKept s (s.refreshPort p) := by
  unfold Chip.refreshPort
  split
  · exact .ite (.refl s) (.portMod s p _)
  · exact .ite (.refl s) (.portMod s p _)
  · exact .ite (.portMod s p _) (.refl s)
  · exact .refl s

theorem flyMod (s : Chip) (p : Nat) (f : FlyPort → FlyPort) : TallyKept s (s.flyMod p f) := by
  unfold Chip.flyMod
  split
  · exact .of rfl rfl rfl rfl
  · exact .refl s

theorem flySetLink (s : Chip) (p : Nat) (up : Bool) : TallyKept s (s.flySetLink p up) := by
  have hlink : TallyKept s (s.setFldBit FLY_PORT_STATUS.LINK_UP p up) := .setFld s _ _ rfl
  unfold Chip.flySetLink
  dsimp only
  refine .ite (.refl s) (.trans ?_ (.ite (.refl _) (.of rfl rfl rfl rfl)))
  exact (hlink.trans (.ite (.refl _) (.flyMod _ p _))).trans (.raise _ _ p)

theorem refreshInband (s : Chip) : TallyKept s s.refreshInband :=
  .forAll _ _ (fun s _ _ => .ite ((flyMod s _ _).trans (.flySetLink _ _ _)) (.refl s)) s

theorem crlStart (s : Chip) (n : Nat) : TallyKept s (s.crlStart n) := by
  unfold Chip.crlStart Chip.crlMod
  split <;> exact .of rfl rfl rfl rfl

theorem crlStop (s : Chip) {n : Nat} (hn : n < 9) : TallyKept s (s.crlStop n) := by
  unfold Chip.crlStop
  refine .trans ?_ (.setLevel _ _ _ _)
  refine .trans ?_ (.setFlag _ (CRL_LANE_STATUS.SLUB n) _ (offTally_slots _ (slotsReg_laneStatus hn)))
  exact .withCrl s _ rfl

theorem crlRefresh (s : Chip) : TallyKept s s.crlRefresh := by
  unfold Chip.crlRefresh
  refine .ite (.refl s) ?_
  refine .trans ?_ (.setLevel _ _ _ _)
  refine .trans ?_ (.setFlag _ CRL_STATUS.GUAR_SHORT _ rfl)
  refine .trans ?_ (.setFld _ CRL_STATUS.RESERVE _ rfl)
  refine .trans ?_ (.setFld _ CRL_BUF_STATUS.ALLOC _ rfl)
  refine .trans ?_ (.forAll _ _ (fun s n hn => .setFld s _ _ (offTally_slots _ (slotsReg_laneStatus (List.mem_range.1 hn)))) _)
  refine .trans ?_ (.withCrl _ _ rfl)
  refine .trans ?_ (.forAll _ _ (fun s n hn => .crlStop s (List.mem_range.1 (List.mem_filter.1 hn).1)) _)
  exact .forAll _ _ (fun s n _ => .crlStart s n) s

theorem saveShadow (s : Chip) : TallyKept s s.saveShadow := by
  unfold Chip.saveShadow
  dsimp only
  split <;> exact .of rfl rfl rfl rfl

theorem addPortDone (s : Chip) (e : ExecCmd) (he : e ∈ s.mbx.exec) : TallyKept s (s.addPortDone e) := by
  unfold Chip.addPortDone
  split
  · next p _ _ _ =>
    have hport := ((portMod s p (fun x => { x with st := .ready })).trans (.refreshPort _ p)).trans (.saveShadow _)
    exact .ite (hport.trans (.endCmd _ e _ (by simpa using he))) (.refl s)
  · exact .refl s

/-- The commands that set up ports complete in turn: each still executes when its turn comes. -/
theorem addPortsDone (l : List ExecCmd) (s : Chip) (hl : l.Subperm s.mbx.exec) : TallyKept s (s.forAll l Chip.addPortDone) := by
  unfold Chip.forAll
  induction l generalizing s with
  | nil => exact .refl s
  | cons e l ih =>
    refine (addPortDone s e (hl.subset (by simp))).trans (ih _ ?_)
    rcases s.addPortDone_exec e with h | h <;> rw [h]
    · exact (List.sublist_cons_self e l).subperm.trans hl
    · simpa using hl.erase e

theorem evalFray (s : Chip) : TallyKept s s.evalFray := by
  unfold Chip.evalFray Chip.setFray
  dsimp only
  refine .trans ?_ (.ite (.raise _ _ _) (.refl _))
  refine .trans ?_ (.forAll _ _ (fun s _ _ => .raise s _ _) _)
  exact (setReg s GLB_FRAY_STATUS.addr _ rfl).trans (.setReg _ GLB_FRAY_HIST.addr _ rfl)

theorem settle (s : Chip) : TallyKept s s.settle := by
  unfold Chip.settle Chip.startSteps
  refine .trans ?_ (.evalFray _)
  refine .trans ?_ (.ite (.ite (.setFld _ GLB_BOOT_STATUS.STEP _ rfl) (.refl _)) (.refl _))
  refine .trans ?_ (.addPortsDone _ _ (List.Subperm.refl _))
  refine .trans ?_ (.crlRefresh _)
  refine .trans ?_ (.refreshInband _)
  exact (judgeModes s).trans (.forAll _ _ (fun s p _ => .refreshPort s p) _)

end TallyKept

end Sys2Proof.Machine
end

section
/-! PROOFS. The release of a codeword. -/

namespace Sys2Proof.Machine

/-! ### Parity errors (R245, R376, R377) -/

theorem lightErrors_crl (c : Chip) (w : Codeword) (units : List Nat) : (c.lightErrors w units).crl = c.crl := by
  refine forAll_keeps Chip.crl units _ (fun d u _ => ?_) c
  dsimp only
  unfold Chip.when
  split <;> simp

theorem lightErrors_ports (c : Chip) (w : Codeword) (units : List Nat) : (c.lightErrors w units).ports = c.ports := by
  refine forAll_keeps Chip.ports units _ (fun d u _ => congrArg Prod.fst (a₁ := Chip.portsExec _) (a₂ := d.portsExec) ?_) c
  unfold Chip.when
  split <;> simp

theorem lightErrors_regs (c : Chip) (w : Codeword) (units : List Nat) : RegsKept eccReg c (c.lightErrors w units) := by
  refine .forAll _ _ (fun d u _ => ?_) c
  exact .trans (.ite (Calm.logEcc _ _ _ _ _).reg (.refl _ d)) (Calm.fillBucket _ _).reg

/-- The codewords' part after parity errors `units` of `w`, if there are any. -/
def Chip.parityLogged (c : Chip) (w : Codeword) (units : List Nat) : Chip := if units.isEmpty then c else c.lightErrors w units

/-- A codeword without the units that fail their parity. -/
def Codeword.without (w : Codeword) (units : List Nat) : Codeword := if units.isEmpty then w else w.spoil units

theorem parityLogged_crl (c : Chip) (w : Codeword) (units : List Nat) : (c.parityLogged w units).crl = c.crl := by
  unfold Chip.parityLogged
  split
  · rfl
  · exact lightErrors_crl c w units

theorem parityLogged_ports (c : Chip) (w : Codeword) (units : List Nat) : (c.parityLogged w units).ports = c.ports := by
  unfold Chip.parityLogged
  split
  · rfl
  · exact lightErrors_ports c w units

theorem parityLogged_regs (c : Chip) (w : Codeword) (units : List Nat) : RegsKept eccReg c (c.parityLogged w units) :=
  .ite (.refl _ c) (lightErrors_regs c w units)

theorem without_kept (w : Codeword) (units : List Nat) :
    (w.without units).lane = w.lane ∧ (w.without units).src = w.src ∧ (w.without units).fn = w.fn ∧ (w.without units).other = w.other := by
  unfold Codeword.without
  split <;> exact ⟨rfl, rfl, rfl, rfl⟩

/-! ### The symbols of a released codeword (R239) -/

theorem fromLine_kept (c : Chip) (p : Nat) (l : List Nat) : ((c.fromLine p l).regs, (c.fromLine p l).crl) = (c.regs, c.crl) :=
  Prod.ext (Chip.portMod_regs c p _) (Chip.portMod_crl c p _)

/-- Symbols delivered reach the ports alone. -/
theorem deliver_kept (c : Chip) (n fn : Nat) (l : List Nat) : ((c.deliver n fn l).regs, (c.deliver n fn l).crl) = (c.regs, c.crl) := by
  have hsecond : ∀ (d : Chip) (o : Option Nat) (f : Nat → List Nat),
      ((o.elim d (fun q => d.fromLine q (f q))).regs, (o.elim d (fun q => d.fromLine q (f q))).crl) = (d.regs, d.crl) := fun d o f => by
    cases o with
    | none => rfl
    | some q => exact fromLine_kept d q (f q)
  unfold Chip.deliver
  split
  · next p _ =>
    split
    · exact Prod.ext (Chip.portMod_regs c p _) (Chip.portMod_crl c p _)
    · split
      · exact fromLine_kept c p l
      · exact (hsecond _ _ _).trans (fromLine_kept c p _)
  · exact hsecond c _ _

theorem releaseTo_kept (c : Chip) (w : Codeword) : ((c.releaseTo w).regs, (c.releaseTo w).crl) = (c.regs, c.crl) := by
  unfold Chip.releaseTo
  split
  · rfl
  · exact deliver_kept c _ _ _

theorem releaseTo_regs (c : Chip) (w : Codeword) : (c.releaseTo w).regs = c.regs := congrArg Prod.fst (releaseTo_kept c w)

theorem releaseTo_crl (c : Chip) (w : Codeword) : (c.releaseTo w).crl = c.crl := congrArg Prod.snd (releaseTo_kept c w)

/-- A codeword of a lane that one whole-lane port uses goes to that port. -/
theorem releaseTo_fromLine (c : Chip) (w : Codeword) {q : Nat} (hlane : w.lane < 8) (hq : q < 16) (hport : c.tribPort w.lane 0 = some q)
    (hbundle : (c.port q).bundle = false) (hwhole : c.wholeLane w.lane = true) :
    ((c.releaseTo w).port q).fromLine = (c.port q).fromLine ++ cutSyms 3072 (twHard (w.released.take 30720)) := by
  unfold Chip.releaseTo
  rw [if_pos hlane]
  dsimp only
  unfold Chip.deliver
  rw [hport]
  dsimp only
  rw [if_neg (ne_true_of_eq_false hbundle), if_pos hwhole]
  exact congrArg Port.fromLine (Chip.port_portMod c q _ hq)

/-! ### The counts of a release (R240, R241, R248, R249) -/

/-- A released codeword of lane `n` counted by its outcome. -/
def Chip.outcome (c : Chip) (n : Nat) (w : Codeword) : Chip :=
  if w.void then c.countVoid w.src
  else if w.conv then
    (c.histInc n (min w.iters 8)).crlMod n (fun x => { x with win := { x.win with conv := x.win.conv + 1, bits := x.win.bits + bitsDiffer w.soft w.recv } })
  else c.countMiss n

theorem outcome_cws (c : Chip) (n : Nat) (w : Codeword) : (c.outcome n w).crl.cws = c.crl.cws := by
  unfold Chip.outcome Chip.countVoid Chip.countMiss Chip.histInc
  dsimp only
  split
  · simp
  · split
    · simp [Chip.crlMod_cws]
    · split
      · simp
      · simp [Chip.crlMod_cws]

theorem outcome_ports (c : Chip) (n : Nat) (w : Codeword) : (c.outcome n w).ports = c.ports := by
  unfold Chip.outcome Chip.countVoid Chip.countMiss Chip.histInc
  dsimp only
  split
  · simp
  · split
    · simp
    · split <;> simp

theorem outcome_released (c : Chip) {n : Nat} (hn : n < 9) (w : Codeword) :
    ((c.outcome n w).crlOf n).win.released = (c.crlOf n).win.released := by
  have hcrl : ∀ {d : Chip}, d.crl = c.crl → (d.crlOf n).win.released = (c.crlOf n).win.released := fun h => by
    rw [Chip.crlOf_congr (congrArg Creel.lanes h)]
  unfold Chip.outcome
  split
  · exact hcrl rfl
  · split
    · rw [Chip.crlOf_crlMod _ _ _ hn]
      exact hcrl rfl
    · unfold Chip.countMiss
      dsimp only
      split
      · exact hcrl rfl
      · refine Eq.trans (congrArg (fun x : CrlLane => x.win.released) (Chip.crlOf_crlMod _ n _ hn)) ?_
        exact hcrl rfl

theorem creelMiss_apart_hist {n : Nat} (hn : n < 9) (m b lo w lo' w' : Nat) : (⟨CRL_HIST.addr m b, lo, w⟩ : Fld).apart ⟨CRL_LANE_MISS.addr n, lo', w'⟩ = true :=
  Fld.apart_addr (by simp only [CRL_HIST.addr, CRL_LANE_MISS.addr]; omega)

theorem outcome_conv (c : Chip) {n : Nat} (hn : n < 9) (w : Codeword) (hvoid : w.void = false) (hconv : w.conv = true) :
    (c.outcome n w).fld (CRL_HIST.COUNT n (min w.iters 8)) =
        min (2 ^ (CRL_HIST.COUNT n (min w.iters 8)).w - 1) (c.fld (CRL_HIST.COUNT n (min w.iters 8)) + 1) ∧
      (c.outcome n w).fld (CRL_LANE_MISS.DL_MISS n) = c.fld (CRL_LANE_MISS.DL_MISS n) := by
  unfold Chip.outcome
  rw [if_neg (ne_true_of_eq_false hvoid), if_pos hconv, Chip.crlMod_fld, Chip.crlMod_fld]
  exact ⟨fld_satInc c _ 1 rfl, Chip.fld_setFld_other c _ _ _ (creelMiss_apart_hist hn n _ _ _ _ _)⟩

theorem outcome_miss (c : Chip) {n : Nat} (hn : n < 9) (w : Codeword) (hvoid : w.void = false) (hconv : w.conv = false) :
    (c.outcome n w).fld (CRL_LANE_MISS.DL_MISS n) =
        min (2 ^ (CRL_LANE_MISS.DL_MISS n).w - 1) (c.fld (CRL_LANE_MISS.DL_MISS n) + 1) ∧
      ((c.outcome n w).crlOf n).missSeen = true := by
  have hcount : ((c.satInc (CRL_LANE_MISS.DL_MISS n) 1).histInc n 9).fld (CRL_LANE_MISS.DL_MISS n) =
      min (2 ^ (CRL_LANE_MISS.DL_MISS n).w - 1) (c.fld (CRL_LANE_MISS.DL_MISS n) + 1) :=
    (Chip.fld_setFld_other _ (CRL_HIST.COUNT n 9) _ _ (creelMiss_apart_hist hn n 9 _ _ _ _)).trans (fld_satInc c _ 1 rfl)
  unfold Chip.outcome
  rw [if_neg (ne_true_of_eq_false hvoid), if_neg (ne_true_of_eq_false hconv)]
  unfold Chip.countMiss
  dsimp only
  split
  · next hseen => exact ⟨hcount, hseen⟩
  · refine ⟨?_, ?_⟩
    · rw [Chip.raise_fld, Chip.crlMod_fld]
      exact hcount
    · exact congrArg CrlLane.missSeen (Chip.crlOf_crlMod _ n _ hn)

theorem outcome_void (c : Chip) {n : Nat} (hn : n < 9) (w : Codeword) (hvoid : w.void = true) (hsrc : w.src = n) :
    (c.outcome n w).fld (CRL_LANE_MISS.VOID n) = min (2 ^ (CRL_LANE_MISS.VOID n).w - 1) (c.fld (CRL_LANE_MISS.VOID n) + 1) := by
  unfold Chip.outcome Chip.countVoid
  rw [if_pos hvoid, hsrc]
  exact (Chip.fld_setFld_other _ (CRL_HIST.COUNT n 10) _ _ (creelMiss_apart_hist hn n 10 _ _ _ _)).trans (fld_satInc c _ 1 rfl)

/-- The part when a codeword has left the creel and its symbols have reached the ports, before it is counted. -/
def Chip.handedOn (c : Chip) (i : Nat) (v : Codeword) (units : List Nat) : Chip :=
  ((c.parityLogged v units).setCws ((c.parityLogged v units).crl.cws.eraseIdx i)).releaseTo (v.without units)

theorem handedOn_crl (c : Chip) (i : Nat) (v : Codeword) (units : List Nat) :
    (c.handedOn i v units).crl = { c.crl with cws := c.crl.cws.eraseIdx i } := by
  unfold Chip.handedOn
  rw [releaseTo_crl]
  unfold Chip.setCws
  dsimp only
  rw [parityLogged_crl]

theorem handedOn_crlOf (c : Chip) (i : Nat) (v : Codeword) (units : List Nat) (n : Nat) : (c.handedOn i v units).crlOf n = c.crlOf n :=
  Chip.crlOf_congr (by rw [handedOn_crl]) n

theorem handedOn_regs (c : Chip) (i : Nat) (v : Codeword) (units : List Nat) : RegsKept eccReg c (c.handedOn i v units) :=
  (parityLogged_regs c v units).trans (.trans (.ofRegs _ rfl) (.ofRegs _ (releaseTo_regs _ _)))

/-- Two states with the same ports have the same lanes' ports. -/
theorem tribPort_congr {c d : Chip} (h : d.ports = c.ports) (n t : Nat) : d.tribPort n t = c.tribPort n t ∧ d.wholeLane n = c.wholeLane n := by
  have hport : ∀ p, d.port p = c.port p := Chip.port_congr h
  unfold Chip.tribPort Chip.wholeLane Chip.portsOn
  simp only [hport, and_self]

theorem handedOn_fromLine (c : Chip) (i : Nat) (v : Codeword) (units : List Nat) {q : Nat} (hlane : v.lane < 8) (hq : q < 16)
    (hport : c.tribPort v.lane 0 = some q) (hbundle : (c.port q).bundle = false) (hwhole : c.wholeLane v.lane = true) :
    ((c.handedOn i v units).port q).fromLine =
      (c.port q).fromLine ++ cutSyms 3072 (twHard ((v.without units).released.take 30720)) := by
  have hlaneW : (v.without units).lane = v.lane := (without_kept v units).1
  have hports : ((c.parityLogged v units).setCws ((c.parityLogged v units).crl.cws.eraseIdx i)).ports = c.ports := parityLogged_ports c v units
  obtain ⟨htrib, hall⟩ := tribPort_congr hports v.lane 0
  unfold Chip.handedOn
  rw [releaseTo_fromLine _ _ (by rw [hlaneW]; exact hlane) hq (by rw [hlaneW, htrib]; exact hport)
    (by rw [Chip.port_congr hports]; exact hbundle) (by rw [hlaneW, hall]; exact hwhole), Chip.port_congr hports]

/-- What is counted in the codeword's window. -/
def Chip.windowed (c : Chip) (n : Nat) (w : Codeword) : Chip :=
  c.crlMod n (fun x => { x with win := { x.win with released := x.win.released + 1, iters := x.win.iters + w.iters } })

/-- The registers of the creel stand until a release is counted. -/
theorem windowed_fld (c : Chip) (i n : Nat) (v : Codeword) (units : List Nat) (f : Fld) (hf : 0x400000 ≤ f.addr) :
    ((c.handedOn i v units).windowed n (v.without units)).fld f = c.fld f :=
  (Chip.crlMod_fld ..).trans ((handedOn_regs c i v units).fld f (by simp only [eccReg, Bool.and_eq_false_iff, decide_eq_false_iff_not]; omega))

/-- The release of a codeword that is no chosen copy of a pair. -/
theorem releaseCw_eq (c : Chip) (i : Nat) (v : Codeword) (units : List Nat) (hv : v.other = none) :
    c.releaseCw i v units = ((c.handedOn i v units).windowed v.lane (v.without units)).outcome v.lane (v.without units) := by
  have hother : (v.without units).other = none := (without_kept v units).2.2.2.trans hv
  change (match (v.without units).other with | some (o, true) => _ | _ => _ : Chip) = _
  rw [hother]
  rfl

/-- What a release does: the codeword leaves, is counted once by its outcome, and its bits reach the port. -/
theorem releaseCw_spec (c : Chip) {n : Nat} (hn : n < 9) (i : Nat) (v : Codeword) (units : List Nat) (hlane : v.lane = n) (hv : v.other = none) :
    let w := v.without units
    let d := c.releaseCw i v units
    d.crl.cws = c.crl.cws.eraseIdx i ∧ (d.crlOf n).win.released = (c.crlOf n).win.released + 1 ∧
      (w.void = false → w.conv = true →
        d.fld (CRL_HIST.COUNT n (min w.iters 8)) =
          min (2 ^ (CRL_HIST.COUNT n (min w.iters 8)).w - 1) (c.fld (CRL_HIST.COUNT n (min w.iters 8)) + 1) ∧
        d.fld (CRL_LANE_MISS.DL_MISS n) = c.fld (CRL_LANE_MISS.DL_MISS n)) ∧
      (w.void = false → w.conv = false →
        d.fld (CRL_LANE_MISS.DL_MISS n) = min (2 ^ (CRL_LANE_MISS.DL_MISS n).w - 1) (c.fld (CRL_LANE_MISS.DL_MISS n) + 1) ∧
        (d.crlOf n).missSeen = true) ∧
      (w.void = true → v.src = n →
        d.fld (CRL_LANE_MISS.VOID n) = min (2 ^ (CRL_LANE_MISS.VOID n).w - 1) (c.fld (CRL_LANE_MISS.VOID n) + 1)) ∧
      (∀ q, n < 8 → q < 16 → c.tribPort n 0 = some q → (c.port q).bundle = false → c.wholeLane n = true →
        (d.port q).fromLine = (c.port q).fromLine ++ cutSyms 3072 (twHard (w.released.take 30720))) := by
  intro w d
  subst hlane
  rw [show d = _ from releaseCw_eq c i v units hv]
  have hfld := windowed_fld c i v.lane v units
  have hmiss : 0x400000 ≤ CRL_LANE_MISS.addr v.lane := by simp only [CRL_LANE_MISS.addr]; omega
  have hhist : 0x400000 ≤ CRL_HIST.addr v.lane (min w.iters 8) := by simp only [CRL_HIST.addr]; omega
  refine ⟨?_, ?_, fun hvoid hconv => ?_, fun hvoid hconv => ?_, fun hvoid hsrc => ?_, fun q h8 hq hport hbundle hwhole => ?_⟩
  · rw [outcome_cws, Chip.windowed, Chip.crlMod_cws, handedOn_crl]
  · rw [outcome_released _ hn, Chip.windowed, Chip.crlOf_crlMod _ _ _ hn]
    rw [handedOn_crlOf]
  · obtain ⟨hcount, hkept⟩ := outcome_conv ((c.handedOn i v units).windowed v.lane w) hn w hvoid hconv
    rw [hfld _ hhist] at hcount
    rw [hfld _ hmiss] at hkept
    exact ⟨hcount, hkept⟩
  · obtain ⟨hcount, hseen⟩ := outcome_miss ((c.handedOn i v units).windowed v.lane w) hn w hvoid hconv
    rw [hfld _ hmiss] at hcount
    exact ⟨hcount, hseen⟩
  · have hcount := outcome_void ((c.handedOn i v units).windowed v.lane w) hn w hvoid ((without_kept v units).2.1.trans hsrc)
    rw [hfld _ hmiss] at hcount
    exact hcount
  · have hports : (((c.handedOn i v units).windowed v.lane w).outcome v.lane w).ports = (c.handedOn i v units).ports :=
      (outcome_ports _ _ _).trans (Chip.crlMod_ports ..)
    rw [Chip.port_congr hports]
    exact handedOn_fromLine c i v units h8 hq hport hbundle hwhole

/-- Units that fail their parity, each once, are none where none fails. -/
theorem eraseDups_isEmpty {l : List Nat} : l.eraseDups.isEmpty = l.isEmpty := by
  cases l with
  | nil => rfl
  | cons x l => rw [List.eraseDups_cons]; rfl

theorem without_parity (v : Codeword) (parity : List (Fin 16384)) :
    v.without (parity.map (fun u => u.1)).eraseDups =
      if parity = [] then v else v.spoil (parity.map (fun u => u.1)).eraseDups := by
  unfold Codeword.without
  rw [eraseDups_isEmpty, List.isEmpty_map]
  cases parity <;> rfl

end Sys2Proof.Machine
end

section
/-! PROOFS. The outer RS decoders. -/

namespace Sys2Proof.Machine

/-! ### Settling keeps a port's wait for a new path -/

/-- From `c` to `d` port `q` waits for its first codeword on a new path as before. -/
def RealignKept (q : Nat) (c d : Chip) : Prop := (d.port q).realign = (c.port q).realign

namespace RealignKept

variable {q : Nat} {c d e : Chip}

theorem refl (q : Nat) (c : Chip) : RealignKept q c c := rfl

theorem trans (h : RealignKept q c d) (k : RealignKept q d e) : RealignKept q c e := Eq.trans k h

theorem ite {p : Prop} [Decidable p] (h : RealignKept q c d) (k : RealignKept q c e) : RealignKept q c (if p then d else e) := by
  split
  · exact h
  · exact k

theorem ofPorts (q : Nat) (h : d.ports = c.ports) : RealignKept q c d := congrArg Port.realign (Chip.port_congr h q)

theorem forAll {α : Type} (l : List α) (f : Chip → α → Chip) (h : ∀ c x, RealignKept q c (f c x)) (c : Chip) : RealignKept q c (c.forAll l f) :=
  forAll_keeps (fun d => (d.port q).realign) l f (fun d x _ => h d x) c

theorem portMod (q : Nat) (c : Chip) (p : Nat) (f : Port → Port) (hf : ∀ x, (f x).realign = x.realign) : RealignKept q c (c.portMod p f) := by
  unfold RealignKept
  by_cases hq : q = p
  · subst hq
    by_cases hb : q < 16
    · rw [Chip.port_portMod c q f hb, hf]
    · unfold Chip.portMod
      rw [dif_neg hb]
  · rw [Chip.port_portMod_other c p q f hq]

theorem setReg (q : Nat) (c : Chip) (a : Nat) (v : Word) : RealignKept q c (c.setReg a v) := .ofPorts q rfl

theorem setFld (q : Nat) (c : Chip) (f : Fld) (v : Nat) : RealignKept q c (c.setFld f v) := .ofPorts q rfl

theorem setFlag (q : Nat) (c : Chip) (f : Fld) (b : Bool) : RealignKept q c (c.setFlag f b) := .ofPorts q rfl

theorem setLevel (q : Nat) (c : Chip) (src : Nat) (b : Bool) (pay : Nat) : RealignKept q c (c.setLevel src b pay) := .ofPorts q (by simp)

theorem raise (q : Nat) (c : Chip) (src pay : Nat) : RealignKept q c (c.raise src pay) := .ofPorts q rfl

theorem withCrl (q : Nat) (c : Chip) (x : Creel) : RealignKept q c { c with crl := x } := .ofPorts q rfl

theorem withFly (q : Nat) (c : Chip) (x : Fly) : RealignKept q c { c with fly := x } := .ofPorts q rfl

theorem flyMod (q : Nat) (c : Chip) (p : Nat) (f : FlyPort → FlyPort) : RealignKept q c (c.flyMod p f) := .ofPorts q (by simp)

theorem mismatch (q : Nat) (c : Chip) (p : Nat) (b : Port → Bool) : RealignKept q c (c.portMod p (fun x => { x with mismatch := b x })) :=
  .portMod q c p _ (fun _ => rfl)

theorem status (q : Nat) (c : Chip) (p : Nat) (st : Port → PortSt) : RealignKept q c (c.portMod p (fun x => { x with st := st x })) :=
  .portMod q c p _ (fun _ => rfl)

theorem judgeModes (q : Nat) (c : Chip) : RealignKept q c c.judgeModes := by
  unfold Chip.judgeModes
  refine .trans ?_ (.setLevel q _ _ _ _)
  refine .trans ?_ (.forAll _ _ (fun d p => .mismatch q d p _) _)
  exact .forAll _ _ (fun d n => .setFlag q d _ _) c

theorem refreshPort (q : Nat) (c : Chip) (p : Nat) : RealignKept q c (c.refreshPort p) := by
  unfold Chip.refreshPort
  split
  · exact .ite (.refl q c) (.status q c p _)
  · exact .ite (.refl q c) (.status q c p _)
  · exact .ite (.status q c p _) (.refl q c)
  · exact .refl q c

theorem flySetLink (q : Nat) (c : Chip) (p : Nat) (up : Bool) : RealignKept q c (c.flySetLink p up) := by
  unfold Chip.flySetLink
  dsimp only
  refine .ite (.refl q c) (.trans ?_ (.ite (.refl q _) (.withFly q _ _)))
  exact .trans (.trans (.setFld q c _ _) (.ite (.refl q _) (.flyMod q _ p _))) (.raise q _ _ _)

theorem refreshInband (q : Nat) (c : Chip) : RealignKept q c c.refreshInband :=
  .forAll _ _ (fun d _ => .ite ((flyMod q d _ _).trans (.flySetLink q _ _ _)) (.refl q d)) c

theorem crlStart (q : Nat) (c : Chip) (n : Nat) : RealignKept q c (c.crlStart n) := .ofPorts q (Chip.crlMod_ports _ n _)

theorem crlStop (q : Nat) (c : Chip) (n : Nat) : RealignKept q c (c.crlStop n) :=
  ((withCrl q c _).trans (.setFlag q _ _ _)).trans (.setLevel q _ _ _ _)

theorem crlRefresh (q : Nat) (c : Chip) : RealignKept q c c.crlRefresh := by
  unfold Chip.crlRefresh
  refine .ite (.refl q c) ?_
  refine .trans ?_ (.setLevel q _ _ _ _)
  refine .trans ?_ (.setFlag q _ _ _)
  refine .trans ?_ (.setFld q _ _ _)
  refine .trans ?_ (.setFld q _ _ _)
  refine .trans ?_ (.forAll _ _ (fun d n => .setFld q d _ _) _)
  refine .trans ?_ (.withCrl q _ _)
  exact .trans (.forAll _ _ (fun d n => .crlStart q d n) c) (.forAll _ _ (fun d n => .crlStop q d n) _)

theorem addPortDone (q : Nat) (c : Chip) (e : ExecCmd) : RealignKept q c (c.addPortDone e) := by
  unfold Chip.addPortDone
  split
  · next p _ _ _ =>
    refine .ite (.trans ?_ (.ofPorts q (congrArg Prod.fst (Chip.endCmd_portsExec _ e _)))) (.refl q c)
    refine .trans ?_ (.ofPorts q (congrArg Prod.fst (Chip.saveShadow_portsExec _)))
    refine .trans ?_ (.refreshPort q _ p)
    exact .status q c p _
  · exact .refl q c

theorem evalFray (q : Nat) (c : Chip) : RealignKept q c c.evalFray := by
  unfold Chip.evalFray Chip.setFray
  dsimp only
  refine .trans ?_ (.ite (.raise q _ _ _) (.refl q _))
  refine .trans ?_ (.forAll _ _ (fun d _ => .raise q d _ _) _)
  exact .trans (.setReg q c _ _) (.setReg q _ _ _)

theorem settle (q : Nat) (c : Chip) : RealignKept q c c.settle := by
  unfold Chip.settle Chip.startSteps
  refine .trans ?_ (.evalFray q _)
  refine .trans ?_ (.ite (.ite (.setFld q _ _ _) (.refl q _)) (.refl q _))
  refine .trans ?_ (.forAll _ _ (fun d e => .addPortDone q d e) _)
  refine .trans ?_ (.crlRefresh q _)
  refine .trans ?_ (.refreshInband q _)
  exact .trans (.judgeModes q c) (.forAll _ _ (fun d p => .refreshPort q d p) _)

end RealignKept

/-! ### What follows an RS codeword that is counted -/

/-- The registers outside the creel. -/
def offCreel (a : Nat) : Bool := decide (a < 0x400000) || decide (0x410000 ≤ a)

/-- From `c` to `d` the creel's registers stay, and what port `p` has from the line and waits for. -/
structure StreamKept (p : Nat) (c d : Chip) : Prop where
  regs : RegsKept offCreel c d
  fromLine : (d.port p).fromLine = (c.port p).fromLine
  realign : (d.port p).realign = (c.port p).realign

namespace StreamKept

variable {p : Nat} {c d e : Chip}

theorem of (p : Nat) (hregs : d.regs = c.regs) (hports : d.ports = c.ports) : StreamKept p c d :=
  ⟨.ofRegs _ hregs, by rw [Chip.port_congr hports], by rw [Chip.port_congr hports]⟩

theorem refl (p : Nat) (c : Chip) : StreamKept p c c := .of p rfl rfl

theorem trans (h : StreamKept p c d) (k : StreamKept p d e) : StreamKept p c e :=
  ⟨h.regs.trans k.regs, k.fromLine.trans h.fromLine, k.realign.trans h.realign⟩

theorem ite {q : Prop} [Decidable q] (h : StreamKept p c d) (k : StreamKept p c e) : StreamKept p c (if q then d else e) := by
  split
  · exact h
  · exact k

theorem forAll {α : Type} (l : List α) (f : Chip → α → Chip) (h : ∀ c, ∀ x ∈ l, StreamKept p c (f c x)) (c : Chip) :
    StreamKept p c (c.forAll l f) := by
  unfold Chip.forAll
  induction l generalizing c with
  | nil => exact .refl p c
  | cons x l ih => exact (h c x (by simp)).trans (ih (fun d y hy => h d y (List.mem_cons_of_mem _ hy)) (f c x))

theorem portMod (c : Chip) {p : Nat} (hp : p < 16) (f : Port → Port) (hline : ∀ x, (f x).fromLine = x.fromLine)
    (hwait : ∀ x, (f x).realign = x.realign) : StreamKept p c (c.portMod p f) where
  regs := .ofRegs _ (Chip.portMod_regs c p f)
  fromLine := by rw [Chip.port_portMod c p f hp, hline]
  realign := by rw [Chip.port_portMod c p f hp, hwait]

theorem count (p : Nat) (c : Chip) (sel : Nat → Nat → Bool) (k : Nat) : StreamKept p c (c.count sel k) := .of p (by simp) (by simp)

theorem hostMod (p : Nat) (c : Chip) (h : Nat) (f : HostLane → HostLane) : StreamKept p c (c.hostMod h f) :=
  .of p (Chip.hostMod_regs c h f) (by simp)

theorem countRs (c : Chip) (p kind : Nat) : StreamKept p c (c.countRs p kind) := .ite (.count p c _ _) (.refl p c)

theorem draw (p : Nat) (c : Chip) : StreamKept p c c.draw.2 := .of p rfl rfl

theorem steer (c : Chip) (p : Nat) : StreamKept p c (c.steer p) := by
  have hfollow : ∀ n, offCreel (TWF_RATE.addr n) = true := fun n => by
    have haddr : 0x410000 ≤ TWF_RATE.addr n := by simp only [TWF_RATE.addr]; omega
    simp [offCreel, haddr]
  have hset : ∀ (d : Chip) (n v : Nat), StreamKept p d (d.setFld (TWF_RATE.FOLLOW n) v) := fun d n v =>
    ⟨.setFld d _ v (hfollow n), rfl, rfl⟩
  unfold Chip.steer
  exact .ite (.refl p c) ((draw p c).trans (.forAll _ _ (fun d n _ => hset d n _) _))

theorem outgoing (c : Chip) (p : Nat) (cw : List Nat) : StreamKept p c (c.outgoing p cw).2 := by
  unfold Chip.outgoing Chip.standIn
  split
  · exact .refl p c
  · exact .draw p c

theorem toHost (c : Chip) {p : Nat} (hp : p < 16) (cw : List Nat) : StreamKept p c (c.toHost p cw) := by
  unfold Chip.toHost
  dsimp only
  refine .trans ?_ (.portMod _ hp _ ?_ ?_)
  · exact .forAll _ _ (fun d l _ => .hostMod p d _ _) c
  · exact fun _ => rfl
  · exact fun _ => rfl

theorem toLine (c : Chip) {p : Nat} (hp : p < 16) (cw : List Nat) : StreamKept p c (c.toLine p cw) := .portMod _ hp _ (fun _ => rfl) (fun _ => rfl)

theorem fld (k : StreamKept p c d) (f : Fld) (h1 : 0x400000 ≤ f.addr) (h2 : f.addr < 0x410000) : d.fld f = c.fld f :=
  k.regs.fld f (by simp only [offCreel, Bool.or_eq_false_iff, decide_eq_false_iff_not]; omega)

end StreamKept

/-! ### From the line (R12, R203, R247, R265) -/

/-- A count that nothing is added to stays. -/
theorem satCount_zero (c : Chip) (f : Fld) : min (2 ^ f.w - 1) (c.fld f + 0) = c.fld f :=
  Nat.min_eq_right (Nat.le_sub_one_of_lt (getBits_lt _ f.lo f.w))

/-- What a decoded codeword of port `p` is counted as: corrected symbols, or uncorrectable. -/
def Chip.corrected (c : Chip) (p : Nat) (o : Option Nat) : Chip :=
  match o with
  | some k => c.satInc (CRL_RS_CORR.COUNT p) k
  | none => c.rsUncorrectable p

/-- Fields of two registers of one port's RS counts. -/
theorem rsCount_apart (p j k : Nat) (h : j ≠ k) : (⟨0x400800 + j + 0x10 * p, 0, 32⟩ : Fld).apart ⟨0x400800 + k + 0x10 * p, 0, 32⟩ = true :=
  Fld.apart_addr (by dsimp only; omega)

theorem rsUncorrectable_fld (c : Chip) (p : Nat) (f : Fld) : (c.rsUncorrectable p).fld f = (c.satInc (CRL_RS_UNCORR.COUNT p) 1).fld f := by
  unfold Chip.rsUncorrectable
  dsimp only
  split <;> rfl

theorem rsUncorrectable_ports (c : Chip) (p : Nat) : (c.rsUncorrectable p).ports = c.ports := by
  unfold Chip.rsUncorrectable
  dsimp only
  split <;> rfl

theorem corrected_ports (c : Chip) (p : Nat) (o : Option Nat) : (c.corrected p o).ports = c.ports := by
  cases o with
  | some k => rfl
  | none => exact rsUncorrectable_ports c p

/-- The three counts of a codeword from the line. -/
theorem corrected_counts (c : Chip) (p : Nat) (o : Option Nat) :
    (c.corrected p o).fld (CRL_RS_CW.COUNT p) = c.fld (CRL_RS_CW.COUNT p) ∧
      (c.corrected p o).fld (CRL_RS_UNCORR.COUNT p) = min (2 ^ (CRL_RS_UNCORR.COUNT p).w - 1) (c.fld (CRL_RS_UNCORR.COUNT p) + b2n o.isNone) ∧
      (c.corrected p o).fld (CRL_RS_CORR.COUNT p) = min (2 ^ (CRL_RS_CORR.COUNT p).w - 1) (c.fld (CRL_RS_CORR.COUNT p) + o.getD 0) := by
  cases o with
  | some k =>
    refine ⟨Chip.fld_setFld_other c _ _ _ (rsCount_apart p 4 0 (by decide)), ?_, fld_satInc c _ k rfl⟩
    exact (Chip.fld_setFld_other c _ _ _ (rsCount_apart p 4 8 (by decide))).trans (satCount_zero c (CRL_RS_UNCORR.COUNT p)).symm
  | none =>
    refine ⟨(rsUncorrectable_fld c p _).trans (Chip.fld_setFld_other c _ _ _ (rsCount_apart p 8 0 (by decide))),
      (rsUncorrectable_fld c p _).trans (fld_satInc c _ 1 rfl), (rsUncorrectable_fld c p _).trans ?_⟩
    exact (Chip.fld_setFld_other c _ _ _ (rsCount_apart p 8 4 (by decide))).trans (satCount_zero c (CRL_RS_CORR.COUNT p)).symm

/-- The first codeword on a new path ends the wait for it (R265). -/
def Chip.realigned (c : Chip) (p : Nat) : Chip :=
  c.when (c.port p).realign (fun s => (s.portMod p (fun x => { x with realign := false })).settle)

theorem offTally_eq_false {a : Nat} (h1 : 0x400000 ≤ a) (h2 : a < 0x410000) (hslots : slotsReg a = false) (h8 : a ≠ CRL_LANE_CFG.addr 8) :
    offTally a = false := by
  simp [offTally, hslots, h1, h2, h8]

theorem offTally_rs (p k : Nat) (hp : p < 16) (hk : k < 16) : offTally (0x400800 + k + 0x10 * p) = false := by
  have hslots : slotsReg (0x400800 + k + 0x10 * p) = false :=
    slotsReg_eq_false (by simp only [CRL_STATUS.addr]; omega) (by simp only [CRL_BUF_STATUS.addr]; omega) (.inl (by omega))
  exact offTally_eq_false (by omega) (by omega) hslots (by simp only [CRL_LANE_CFG.addr]; omega)

theorem realigned_fld (c : Chip) {p k : Nat} (hp : p < 16) (hk : k < 16) (lo w : Nat) :
    (c.realigned p).fld ⟨0x400800 + k + 0x10 * p, lo, w⟩ = c.fld ⟨0x400800 + k + 0x10 * p, lo, w⟩ := by
  unfold Chip.realigned Chip.when
  split
  · exact ((TallyKept.portMod c p _).trans (.settle _)).regs.fld _ (offTally_rs p k hp hk)
  · rfl

theorem Port.fromLine_of_frame {x y : Port} (h : x.frame = y.frame) : x.fromLine = y.fromLine :=
  show x.frame.fromLine = y.frame.fromLine from congrArg _ h

theorem realigned_port (c : Chip) {p : Nat} (hp : p < 16) :
    ((c.realigned p).port p).realign = false ∧ ((c.realigned p).port p).fromLine = (c.port p).fromLine := by
  let d := c.portMod p (fun x => { x with realign := false })
  have hport : d.port p = { c.port p with realign := false } := Chip.port_portMod c p _ hp
  have hwait : (d.settle.port p).realign = false := Eq.trans (RealignKept.settle p d) (by rw [hport])
  have hline : (d.settle.port p).fromLine = (c.port p).fromLine := (Port.fromLine_of_frame (Chip.settle_frame d p)).trans (by rw [hport])
  cases h : (c.port p).realign with
  | false =>
    rw [show c.realigned p = c from if_neg (ne_true_of_eq_false h)]
    exact ⟨h, rfl⟩
  | true =>
    rw [show c.realigned p = d.settle from if_pos h]
    exact ⟨hwait, hline⟩

/-- A codeword from the line counted. -/
def Chip.rsCounted (c : Chip) (p : Nat) (o : Option Nat) : Chip :=
  (((c.realigned p).satInc (CRL_RS_CW.COUNT p) 1).countRs p 3).corrected p o

theorem rsFromLine_kept (c : Chip) {p : Nat} (hp : p < 16) (w : List Nat) :
    StreamKept p (c.rsCounted p ((c.port p).decode w).2) (c.rsFromLine p w) :=
  ((StreamKept.steer _ p).trans (.outgoing _ p _)).trans (.toHost _ hp _)

/-- The counts of port `p` from `c` to `d` for a codeword from the line with what its decoder made of it, and the end of the wait. -/
def RsCounted (p : Nat) (y : Option Nat) (c d : Chip) : Prop :=
  d.fld (CRL_RS_CW.COUNT p) = min (2 ^ (CRL_RS_CW.COUNT p).w - 1) (c.fld (CRL_RS_CW.COUNT p) + 1) ∧
    d.fld (CRL_RS_UNCORR.COUNT p) = min (2 ^ (CRL_RS_UNCORR.COUNT p).w - 1) (c.fld (CRL_RS_UNCORR.COUNT p) + b2n y.isNone) ∧
    d.fld (CRL_RS_CORR.COUNT p) = min (2 ^ (CRL_RS_CORR.COUNT p).w - 1) (c.fld (CRL_RS_CORR.COUNT p) + y.getD 0) ∧
    (d.port p).realign = false

theorem RsCounted.congr {p : Nat} {y : Option Nat} {c d e : Chip} (k : RsCounted p y d e) (h : ∀ f, d.fld f = c.fld f) : RsCounted p y c e := by
  unfold RsCounted at k ⊢
  rw [h, h, h] at k
  exact k

/-- A codeword of port `p` from the line: its counts, and the end of the wait for it. -/
theorem rsFromLine_spec (c : Chip) {p : Nat} (hp : p < 16) (w : List Nat) :
    let y := ((c.port p).decode w).2
    let d := c.rsFromLine p w
    RsCounted p y c d ∧ (d.port p).fromLine = (c.port p).fromLine := by
  intro y d
  have hkept : StreamKept p (c.rsCounted p y) d := rsFromLine_kept c hp w
  let b := ((c.realigned p).satInc (CRL_RS_CW.COUNT p) 1).countRs p 3
  have hcount : StreamKept p ((c.realigned p).satInc (CRL_RS_CW.COUNT p) 1) b := .countRs _ p 3
  obtain ⟨hcw, hun, hcorr⟩ := corrected_counts b p y
  obtain ⟨hwait, hline⟩ := realigned_port c hp
  have hports : (c.rsCounted p y).port p = b.port p := Chip.port_congr (corrected_ports b p y) p
  have haddr : ∀ k, k < 16 → 0x400000 ≤ 0x400800 + k + 0x10 * p ∧ 0x400800 + k + 0x10 * p < 0x410000 := fun k hk => by omega
  have hfld : ∀ k, k < 16 → d.fld ⟨0x400800 + k + 0x10 * p, 0, 32⟩ = (b.corrected p y).fld ⟨0x400800 + k + 0x10 * p, 0, 32⟩ :=
    fun k hk => hkept.fld _ (haddr k hk).1 (haddr k hk).2
  have hb : ∀ k, k < 16 → b.fld ⟨0x400800 + k + 0x10 * p, 0, 32⟩ =
      ((c.realigned p).satInc (CRL_RS_CW.COUNT p) 1).fld ⟨0x400800 + k + 0x10 * p, 0, 32⟩ :=
    fun k hk => hcount.fld _ (haddr k hk).1 (haddr k hk).2
  have hbase : ∀ k, k < 16 → 0 ≠ k → b.fld ⟨0x400800 + k + 0x10 * p, 0, 32⟩ = c.fld ⟨0x400800 + k + 0x10 * p, 0, 32⟩ := fun k hk h0 =>
    (hb k hk).trans ((Chip.fld_setFld_other _ (CRL_RS_CW.COUNT p) _ _ (rsCount_apart p 0 k h0)).trans (realigned_fld c hp hk 0 32))
  refine ⟨⟨?_, ?_, ?_, ?_⟩, ?_⟩
  · refine (hfld 0 (by decide)).trans (hcw.trans ((hb 0 (by decide)).trans ((fld_satInc _ (CRL_RS_CW.COUNT p) 1 rfl).trans ?_)))
    rw [show (c.realigned p).fld (CRL_RS_CW.COUNT p) = c.fld (CRL_RS_CW.COUNT p) from realigned_fld c hp (k := 0) (by decide) 0 32]
  · refine (hfld 8 (by decide)).trans (hun.trans ?_)
    rw [show b.fld (CRL_RS_UNCORR.COUNT p) = c.fld (CRL_RS_UNCORR.COUNT p) from hbase 8 (by decide) (by decide)]
  · refine (hfld 4 (by decide)).trans (hcorr.trans ?_)
    rw [show b.fld (CRL_RS_CORR.COUNT p) = c.fld (CRL_RS_CORR.COUNT p) from hbase 4 (by decide) (by decide)]
  · exact hkept.realign.trans ((congrArg Port.realign hports).trans (hcount.realign.trans hwait))
  · exact hkept.fromLine.trans ((congrArg Port.fromLine hports).trans (hcount.fromLine.trans hline))

theorem decode_of_mode {x y : Port} (h : x.mode = y.mode) (w : List Nat) : x.decode w = y.decode w := by
  unfold Port.decode Port.twist
  rw [h]

/-- The symbols of a Twist codeword are taken off the released stream. -/
theorem twistCodeword_spec (c : Chip) {p : Nat} (hp : p < 16) (skip : Nat) (hlen : 540 ≤ ((c.port p).fromLine.drop skip).length) :
    let l := (c.port p).fromLine.drop skip
    RsCounted p ((c.port p).decode (l.take 540 ++ List.replicate 4 0)).2 c (c.twistCodeword p skip) ∧
      ((c.twistCodeword p skip).port p).fromLine = l.drop 540 := by
  intro l
  let d := c.portMod p (fun x => { x with fromLine := l.drop 540 })
  have hport : d.port p = { c.port p with fromLine := l.drop 540 } := Chip.port_portMod c p _ hp
  have hdecode : (d.port p).decode (l.take 540 ++ List.replicate 4 0) = (c.port p).decode (l.take 540 ++ List.replicate 4 0) :=
    decode_of_mode (by rw [hport]) _
  have hfld : ∀ f, d.fld f = c.fld f := Chip.portMod_fld c p _
  obtain ⟨hcounts, hline⟩ := rsFromLine_spec d hp (l.take 540 ++ List.replicate 4 0)
  rw [hdecode] at hcounts
  rw [show c.twistCodeword p skip = d.rsFromLine p (l.take 540 ++ List.replicate 4 0) from if_pos hlen]
  exact ⟨hcounts.congr hfld, hline.trans (by rw [hport])⟩

/-! ### From the host (R12, R60, R247) -/

/-- A codeword from the host with its syndrome counted. -/
def Chip.txChecked (c : Chip) (p : Nat) (cw : List Nat) : Chip := c.when (rsWrong cw) (fun s => s.satInc (CRL_RS_TX_ERR.COUNT p) 1)

theorem txChecked_counts (c : Chip) (p : Nat) (cw : List Nat) :
    (c.txChecked p cw).fld (CRL_RS_TX_ERR.COUNT p) =
        min (2 ^ (CRL_RS_TX_ERR.COUNT p).w - 1) (c.fld (CRL_RS_TX_ERR.COUNT p) + b2n (rsWrong cw)) ∧
      (c.txChecked p cw).fld (CRL_RS_CW.COUNT p) = c.fld (CRL_RS_CW.COUNT p) := by
  unfold Chip.txChecked Chip.when
  cases rsWrong cw with
  | false => exact ⟨(satCount_zero c (CRL_RS_TX_ERR.COUNT p)).symm, rfl⟩
  | true => exact ⟨fld_satInc c _ 1 rfl, Chip.fld_setFld_other c _ _ _ (rsCount_apart p 12 0 (by decide))⟩

theorem rsFromHost_kept (c : Chip) {p : Nat} (hp : p < 16) (cw : List Nat) : StreamKept p (c.txChecked p cw) (c.rsFromHost p cw) := by
  unfold Chip.rsFromHost
  dsimp only
  refine .trans ?_ (.portMod _ hp _ ?_ ?_)
  · refine .trans ?_ (.toLine _ hp _)
    refine .trans ?_ (.outgoing _ p cw)
    exact (StreamKept.countRs _ p 4).trans (.ite (.refl p _) (.steer _ p))
  · exact fun _ => rfl
  · exact fun _ => rfl

/-- A codeword put together from the host lanes. -/
theorem hostCodeword_spec (c : Chip) {p : Nat} (hp : p < 16) (skip : Nat) (lanes : List (Nat × List Nat))
    (hall : (c.port p).hostLanes.zipIdx.all (fun l =>
      decide ((c.port p).muxShare l.2 ≤ (c.hostSyms skip lanes (c.physHost l.1)).length)) = true) :
    (c.hostCodeword p skip lanes).fld (CRL_RS_TX_ERR.COUNT p) = min (2 ^ (CRL_RS_TX_ERR.COUNT p).w - 1)
        (c.fld (CRL_RS_TX_ERR.COUNT p) + b2n (rsWrong (c.muxHost p (c.hostSyms skip lanes)))) ∧
      (c.hostCodeword p skip lanes).fld (CRL_RS_CW.COUNT p) = c.fld (CRL_RS_CW.COUNT p) := by
  let d := c.forAll (c.port p).hostLanes.zipIdx (fun s l =>
    s.hostMod (s.physHost l.1) (fun y => { y with got := y.got.drop (skip + (c.port p).muxShare l.2) }))
  have htaken : StreamKept p c d := .forAll _ _ (fun e l _ => .hostMod p e _ _) c
  have hkept := rsFromHost_kept d hp (c.muxHost p (c.hostSyms skip lanes))
  have haddr : ∀ k, k < 16 → 0x400000 ≤ 0x400800 + k + 0x10 * p ∧ 0x400800 + k + 0x10 * p < 0x410000 := fun k hk => by omega
  obtain ⟨htx, hcw⟩ := txChecked_counts d p (c.muxHost p (c.hostSyms skip lanes))
  rw [show c.hostCodeword p skip lanes = d.rsFromHost p (c.muxHost p (c.hostSyms skip lanes)) from if_pos hall]
  refine ⟨(hkept.fld _ (haddr 12 (by decide)).1 (haddr 12 (by decide)).2).trans (htx.trans ?_),
    (hkept.fld _ (haddr 0 (by decide)).1 (haddr 0 (by decide)).2).trans (hcw.trans ?_)⟩
  · rw [htaken.fld (CRL_RS_TX_ERR.COUNT p) (haddr 12 (by decide)).1 (haddr 12 (by decide)).2]
  · exact htaken.fld (CRL_RS_CW.COUNT p) (haddr 0 (by decide)).1 (haddr 0 (by decide)).2

end Sys2Proof.Machine
end

section
/-! PROOFS. The statistics window. -/

namespace Sys2Proof.Machine

/-! ### One lane's turn -/

/-- In a run over a list without repetitions, what `v` reads stands as it did when the turn of `x` comes, and what `u` reads stands as
that turn leaves it, where the other turns leave both alone. -/
theorem forAll_turn {α β γ : Type} (v : Chip → β) (u : Chip → γ) (l : List α) (f : Chip → α → Chip) (x : α)
    (hv : ∀ c y, y ≠ x → v (f c y) = v c) (hu : ∀ c y, y ≠ x → u (f c y) = u c) (hl : l.Nodup) (hx : x ∈ l) (c : Chip) :
    ∃ d, v d = v c ∧ u (c.forAll l f) = u (f d x) := by
  obtain ⟨a, b, rfl⟩ := List.append_of_mem hx
  obtain ⟨-, hb, hab⟩ := List.nodup_append.1 hl
  have hnot : ∀ y ∈ b, y ≠ x := fun y hy h => (List.nodup_cons.1 hb).1 (h ▸ hy)
  refine ⟨c.forAll a f, forAll_keeps v a f (fun d y hy => hv d y (hab y hy x (by simp))) c, ?_⟩
  unfold Chip.forAll
  rw [List.foldl_append, List.foldl_cons]
  exact forAll_keeps u b f (fun d y hy => hu d y (hnot y hy)) _

/-! ### The end of a window on a lane (R249, R250) -/

theorem windowMean_fst (c : Chip) (a : Nat) {b : Nat} (hb : b ≠ 0) : (c.windowMean a b).1 = roundedDiv a b := by
  unfold Chip.windowMean
  rw [if_neg hb]

theorem windowMean_kept (c : Chip) (a b : Nat) :
    (c.windowMean a b).2.regs = c.regs ∧ (c.windowMean a b).2.crl = c.crl ∧ (c.windowMean a b).2.mbx = c.mbx := by
  unfold Chip.windowMean
  split <;> exact ⟨rfl, rfl, rfl⟩

theorem trend_kept (c : Chip) (n : Nat) : (c.trend n).2.regs = c.regs ∧ (c.trend n).2.crl = c.crl ∧ (c.trend n).2.mbx = c.mbx := by
  unfold Chip.trend
  dsimp only
  split <;> exact ⟨rfl, rfl, rfl⟩

/-- The part when the three means of lane `n`'s window have been taken. -/
def Chip.meansTaken (c : Chip) (n : Nat) : Chip :=
  let w := (c.crlOf n).win
  (((c.windowMean w.unsat w.arrived).2.windowMean (256 * w.iters) w.released).2.windowMean (w.bits * 2 ^ 17) w.conv).2

theorem meansTaken_kept (c : Chip) (n : Nat) : (c.meansTaken n).regs = c.regs ∧ (c.meansTaken n).crl = c.crl ∧ (c.meansTaken n).mbx = c.mbx := by
  obtain ⟨h1, h2, h3⟩ := windowMean_kept c (c.crlOf n).win.unsat (c.crlOf n).win.arrived
  obtain ⟨k1, k2, k3⟩ := windowMean_kept (c.windowMean (c.crlOf n).win.unsat (c.crlOf n).win.arrived).2 (256 * (c.crlOf n).win.iters)
    (c.crlOf n).win.released
  obtain ⟨j1, j2, j3⟩ := windowMean_kept ((c.windowMean (c.crlOf n).win.unsat (c.crlOf n).win.arrived).2.windowMean
    (256 * (c.crlOf n).win.iters) (c.crlOf n).win.released).2 ((c.crlOf n).win.bits * 2 ^ 17) (c.crlOf n).win.conv
  exact ⟨j1.trans (k1.trans h1), j2.trans (k2.trans h2), j3.trans (k3.trans h3)⟩

/-- The end of a window on a lane: its state in the creel, then its registers. -/
theorem windowLane_shape (c : Chip) (n : Nat) : ∃ (f g : CrlLane → CrlLane) (ber slow trend : Nat),
    let w := (c.crlOf n).win
    let u := c.windowMean w.unsat w.arrived
    let i := u.2.windowMean (256 * w.iters) w.released
    let d := (((c.meansTaken n).crlMod n f).trend n).2.crlMod n g
    c.windowLane n =
      ((((d.setFld (CRL_LANE_ITER.UNSAT_AVG n) (u.1 % 65536)).setFld (CRL_LANE_ITER.ITER_AVG n) (i.1 % 65536)).setFld (CRL_LANE_BER.BER n)
        ber).setFld (CRL_LANE_MARGIN.UNSAT_SLOW n) slow).setFld (CRL_LANE_MARGIN.TREND n) trend :=
  ⟨_, _, _, _, _, rfl⟩

theorem windowLane_reg (c : Chip) (n : Nat) {a : Nat} (hi : a ≠ CRL_LANE_ITER.addr n) (hb : a ≠ CRL_LANE_BER.addr n)
    (hm : a ≠ CRL_LANE_MARGIN.addr n) : (c.windowLane n).reg a = c.reg a := by
  obtain ⟨f, g, ber, slow, trend, hshape⟩ := windowLane_shape c n
  rw [hshape]
  refine (Chip.reg_setFld_other _ _ _ a hm).trans ((Chip.reg_setFld_other _ _ _ a hm).trans ((Chip.reg_setFld_other _ _ _ a hb).trans ?_))
  refine (Chip.reg_setFld_other _ _ _ a hi).trans ((Chip.reg_setFld_other _ _ _ a hi).trans ((Chip.crlMod_reg _ n g a).trans ?_))
  exact Chip.reg_congr ((trend_kept _ n).1.trans ((Chip.crlMod_regs _ n f).trans (meansTaken_kept c n).1)) a

theorem windowLane_mbx (c : Chip) (n : Nat) : (c.windowLane n).mbx = c.mbx := by
  obtain ⟨f, g, ber, slow, trend, hshape⟩ := windowLane_shape c n
  rw [hshape]
  exact (Chip.crlMod_mbx _ n g).trans ((trend_kept _ n).2.2.trans ((Chip.crlMod_mbx _ n f).trans (meansTaken_kept c n).2.2))

theorem windowLane_crlOf_other (c : Chip) {n k : Nat} (hk : k ≠ n) : (c.windowLane n).crlOf k = c.crlOf k := by
  obtain ⟨f, g, ber, slow, trend, hshape⟩ := windowLane_shape c n
  rw [hshape]
  refine (Chip.crlOf_crlMod_other _ n k g hk).trans ?_
  refine (Chip.crlOf_congr (congrArg Creel.lanes (trend_kept _ n).2.1) k).trans ?_
  exact (Chip.crlOf_crlMod_other _ n k f hk).trans (Chip.crlOf_congr (congrArg Creel.lanes (meansTaken_kept c n).2.1) k)

/-- The averages of lane `n` after its turn. -/
theorem windowLane_averages (c : Chip) (n : Nat) :
    ((c.crlOf n).win.released ≠ 0 → (c.windowLane n).fld (CRL_LANE_ITER.ITER_AVG n) =
        roundedDiv (256 * (c.crlOf n).win.iters) (c.crlOf n).win.released % 65536) ∧
      ((c.crlOf n).win.arrived ≠ 0 → (c.windowLane n).fld (CRL_LANE_ITER.UNSAT_AVG n) =
        roundedDiv (c.crlOf n).win.unsat (c.crlOf n).win.arrived % 65536) := by
  obtain ⟨f, g, ber, slow, trend, hshape⟩ := windowLane_shape c n
  have hber : ∀ lo w lo' w', (⟨CRL_LANE_BER.addr n, lo, w⟩ : Fld).apart ⟨CRL_LANE_ITER.addr n, lo', w'⟩ = true := fun _ _ _ _ =>
    Fld.apart_addr (by simp only [CRL_LANE_BER.addr, CRL_LANE_ITER.addr]; omega)
  have hmargin : ∀ lo w lo' w', (⟨CRL_LANE_MARGIN.addr n, lo, w⟩ : Fld).apart ⟨CRL_LANE_ITER.addr n, lo', w'⟩ = true := fun _ _ _ _ =>
    Fld.apart_addr (by simp only [CRL_LANE_MARGIN.addr, CRL_LANE_ITER.addr]; omega)
  have hlater : ∀ (d : Chip) lo w, ((((d.setFld (CRL_LANE_BER.BER n) ber).setFld (CRL_LANE_MARGIN.UNSAT_SLOW n) slow).setFld
      (CRL_LANE_MARGIN.TREND n) trend).fld ⟨CRL_LANE_ITER.addr n, lo, w⟩) = d.fld ⟨CRL_LANE_ITER.addr n, lo, w⟩ := fun d lo w =>
    (Chip.fld_setFld_other _ _ _ _ (hmargin _ _ lo w)).trans
      ((Chip.fld_setFld_other _ _ _ _ (hmargin _ _ lo w)).trans (Chip.fld_setFld_other d _ _ _ (hber _ _ lo w)))
  rw [hshape]
  refine ⟨fun hrel => (hlater _ 0 16).trans ?_, fun harr => (hlater _ 16 16).trans ?_⟩
  · refine (Chip.fld_setFld _ (CRL_LANE_ITER.ITER_AVG n) _ rfl).trans ?_
    rw [windowMean_fst _ _ hrel]
    exact Nat.mod_mod _ _
  · refine (Chip.fld_setFld_other _ (CRL_LANE_ITER.ITER_AVG n) (CRL_LANE_ITER.UNSAT_AVG n) _
      (by simp [Fld.apart, CRL_LANE_ITER.ITER_AVG, CRL_LANE_ITER.UNSAT_AVG])).trans ?_
    refine (Chip.fld_setFld _ (CRL_LANE_ITER.UNSAT_AVG n) _ rfl).trans ?_
    rw [windowMean_fst _ _ harr]
    exact Nat.mod_mod _ _

/-! ### The end of the window on the part (R249, R250, R256) -/

/-- The lanes that a window ends on. -/
def Chip.windowLanes (c : Chip) : List Nat := (List.range 9).filter (fun n => c.crlActive n || (n == 8 && c.crl.paired.isSome))

/-- The lanes at the end of a window: those of `windowLanes` have had their turn, and no lane has seen a miss. -/
def Chip.lanesClosed (c : Chip) : Chip :=
  (c.forAll c.windowLanes Chip.windowLane).forAll (List.range 9) (fun s n => s.crlMod n (fun x => { x with missSeen := false }))

/-- The part with the faults that a window collects cleared. -/
def Chip.seenCleared (s : Chip) : Chip :=
  { s with crl := { s.crl with uncorrSeen := 0 }, fly := { s.fly with dropSeen := false }, flt := s.flt.map (fun x => { x with satSeen := false }) }

theorem seenCleared_regs (s : Chip) : s.seenCleared.regs = s.regs := rfl

theorem seenCleared_mbx (s : Chip) : s.seenCleared.mbx = s.mbx := rfl

theorem forAll_none {α : Type} (c : Chip) (f : Chip → α → Chip) : c.forAll [] f = c := rfl

theorem statsWindow_eq (c : Chip) (hon : c.pdOn 16 = true) : c.statsWindow [] = (c.lanesClosed.seenCleared.showRisks.chooseMirror).settle := by
  unfold Chip.statsWindow
  rw [if_neg (by simp [hon])]
  dsimp only [List.filter_nil, forAll_none]
  rfl

theorem lanesClosed_regs (c : Chip) : c.lanesClosed.regs = (c.forAll c.windowLanes Chip.windowLane).regs :=
  forAll_keeps Chip.regs _ _ (fun d n _ => Chip.crlMod_regs d n (fun x => { x with missSeen := false })) _

theorem lanesClosed_mbx (c : Chip) : c.lanesClosed.mbx = c.mbx :=
  (forAll_keeps Chip.mbx _ _ (fun d n _ => Chip.crlMod_mbx d n (fun x => { x with missSeen := false })) _).trans
    (forAll_keeps Chip.mbx _ _ (fun d n _ => windowLane_mbx d n) c)

theorem creelLaneIter_other {n k : Nat} (hk : k ≠ n) :
    CRL_LANE_ITER.addr k ≠ CRL_LANE_ITER.addr n ∧ CRL_LANE_ITER.addr k ≠ CRL_LANE_BER.addr n ∧ CRL_LANE_ITER.addr k ≠ CRL_LANE_MARGIN.addr n := by
  simp only [CRL_LANE_ITER.addr, CRL_LANE_BER.addr, CRL_LANE_MARGIN.addr]
  omega

/-- Each active lane's averages are those of its own window. -/
theorem lanesClosed_averages (c : Chip) {n : Nat} (hn : n < 9) (hact : c.crlActive n = true) :
    ((c.crlOf n).win.released ≠ 0 → c.lanesClosed.seenCleared.fld (CRL_LANE_ITER.ITER_AVG n) =
        roundedDiv (256 * (c.crlOf n).win.iters) (c.crlOf n).win.released % 65536) ∧
      ((c.crlOf n).win.arrived ≠ 0 → c.lanesClosed.seenCleared.fld (CRL_LANE_ITER.UNSAT_AVG n) =
        roundedDiv (c.crlOf n).win.unsat (c.crlOf n).win.arrived % 65536) := by
  have hmem : n ∈ c.windowLanes := List.mem_filter.2 ⟨List.mem_range.2 hn, by rw [hact]; rfl⟩
  obtain ⟨d, hlane, hreg⟩ := forAll_turn (fun d => d.crlOf n) (fun d => d.reg (CRL_LANE_ITER.addr n)) c.windowLanes Chip.windowLane n
    (fun e k hk => windowLane_crlOf_other e hk.symm)
    (fun e k hk => by
      obtain ⟨h1, h2, h3⟩ := creelLaneIter_other hk.symm
      exact windowLane_reg e k h1 h2 h3)
    (List.nodup_range.filter _) hmem c
  have hfld : ∀ lo w, c.lanesClosed.seenCleared.fld ⟨CRL_LANE_ITER.addr n, lo, w⟩ = (d.windowLane n).fld ⟨CRL_LANE_ITER.addr n, lo, w⟩ := fun lo w =>
    congrArg (getBits · lo w) ((Chip.reg_congr ((seenCleared_regs _).trans (lanesClosed_regs c)) _).trans hreg)
  obtain ⟨hiter, hunsat⟩ := windowLane_averages d n
  rw [hlane] at hiter hunsat
  exact ⟨fun h => (hfld 0 16).trans (hiter h), fun h => (hfld 16 16).trans (hunsat h)⟩

theorem offTally_iter {n : Nat} (hn : n < 8) : offTally (CRL_LANE_ITER.addr n) = false := by
  have hslots : slotsReg (CRL_LANE_ITER.addr n) = false :=
    slotsReg_eq_false (by simp only [CRL_LANE_ITER.addr, CRL_STATUS.addr]; omega) (by simp only [CRL_LANE_ITER.addr, CRL_BUF_STATUS.addr]; omega)
      (.inr (by simp only [CRL_LANE_ITER.addr]; omega))
  exact offTally_eq_false (by simp only [CRL_LANE_ITER.addr]; omega) (by simp only [CRL_LANE_ITER.addr]; omega) hslots
    (by simp only [CRL_LANE_ITER.addr, CRL_LANE_CFG.addr]; omega)

theorem statsWindow_step (s : State) (hon : s.chip.pdOn 16 = true) (n : Nat) :
    ∃ d : Chip, exec (.statsWindow []) s = .next { s with chip := d } ∧
      d.crl.uncorrSeen = 0 ∧ (s.chip.mbx.exec = [] → d.fly.dropSeen = false) ∧
      let w := (s.chip.crlOf n).win
      (n < 8 → s.chip.crlActive n = true → w.released ≠ 0 →
        d.fld (CRL_LANE_ITER.ITER_AVG n) = roundedDiv (256 * w.iters) w.released % 65536) ∧
      (n < 8 → s.chip.crlActive n = true → w.arrived ≠ 0 →
        d.fld (CRL_LANE_ITER.UNSAT_AVG n) = roundedDiv w.unsat w.arrived % 65536) := by
  have hkept : TallyKept s.chip.lanesClosed.seenCleared (s.chip.lanesClosed.seenCleared.showRisks.chooseMirror).settle :=
    ((TallyKept.showRisks _).trans (.chooseMirror _)).trans (.settle _)
  refine ⟨(s.chip.lanesClosed.seenCleared.showRisks.chooseMirror).settle,
    congrArg Host.Outcome.next (congrArg (fun c => { s with chip := c }) (statsWindow_eq s.chip hon)),
    hkept.seen, fun hidle => (hkept.idle ?_).2, fun hn hact hrel => ?_, fun hn hact harr => ?_⟩
  · rw [seenCleared_mbx, lanesClosed_mbx]
    exact hidle
  · exact (hkept.regs.fld (CRL_LANE_ITER.ITER_AVG n) (offTally_iter hn)).trans ((lanesClosed_averages s.chip (by omega) hact).1 hrel)
  · exact (hkept.regs.fld (CRL_LANE_ITER.UNSAT_AVG n) (offTally_iter hn)).trans ((lanesClosed_averages s.chip (by omega) hact).2 harr)

end Sys2Proof.Machine
end

section
/-! PROOFS. The steps of the creel. -/

namespace Sys2Proof.Machine

/-! ### Each step on the state -/

theorem codewordArrival_step (s : State) (n : LLane) (at_ : Fin 64) (w : CwIn) (rest : List CwIn) (hw : (s.chip.framerOf n.1).words = w :: rest) :
    let c := s.chip.newCodeword n.1 (s.chip.crl.cyc + at_.1) w
    (∃ t, exec (.codewordArrival n at_) s = .next t ∧ (t.chip.framerOf n.1).words = rest ∧
      (s.chip.pdOn 16 = true → s.chip.crlActive n.1 = true →
        (t.chip.crlOf n.1).win.arrived = (s.chip.crlOf n.1).win.arrived + 1)) ∧
    (s.chip.pdOn 16 = true → s.chip.crlActive n.1 = true → n.1 < 8 →
      (s.chip.crl.paired ≠ some n.1 →
        ∃ t, exec (.codewordArrival n at_) s = .next t ∧ t.chip.crl.cws = s.chip.crl.cws ++ [c]) ∧
      (s.chip.crl.paired = some n.1 → s.chip.waitingFor 8 w.fn c.arrive = none →
        ∃ t, exec (.codewordArrival n at_) s = .next t ∧ t.chip.crl.cws = s.chip.crl.cws ++ [{ c with wait := true }]) ∧
      (∀ i o, s.chip.crl.paired = some n.1 → s.chip.waitingFor 8 w.fn c.arrive = some i → s.chip.crl.cws[i]? = some o →
        ∃ t, exec (.codewordArrival n at_) s = .next t ∧ t.chip.crl.cws = s.chip.crl.cws.set i (mergePair c o))) := by
  refine ⟨⟨_, rfl, codewordArrival_words s.chip n.2 at_.1 hw, codewordArrival_arrived s.chip n.2 at_.1 hw⟩, fun hon hact hn => ?_⟩
  obtain ⟨halone, hwaits, hmeets⟩ := codewordArrival_cws s.chip at_.1 hn hw hon hact
  exact ⟨fun hp => ⟨_, rfl, halone hp⟩, fun hp hnone => ⟨_, rfl, hwaits hp hnone⟩, fun i o hp hsome ho => ⟨_, rfl, hmeets i o hp hsome ho⟩⟩

theorem spareRotation_step (s : State) (hon : s.chip.pdOn 16 = true) (hrot : s.chip.flag CRL_FLOAT_CFG.ROT_EN = true)
    (hspare : s.chip.fld CRL_STATUS.SPARE ≠ 31) :
    exec .spareRotation s = .next { s with chip := { s.chip with crl := { s.chip.crl with rotate := true } } } := by
  refine congrArg Host.Outcome.next (congrArg (fun c => { s with chip := c }) (if_pos ?_))
  rw [hon, hrot, Bool.and_true, Bool.true_and]
  exact bne_iff_ne.2 hspare

/-- The release of lane `n`'s oldest due codeword, which is the one at `i`. -/
theorem codewordRelease_eq (s : State) (n : LLane) (i : Nat) (v : Codeword) (parity : List (Fin 16384)) (hv : s.chip.crl.cws[i]? = some v)
    (hmin : argMin (fun k => (s.chip.crl.cws[k]?).elim 0 (fun x => x.release)) ((List.range s.chip.crl.cws.length).filter (fun k =>
      (s.chip.crl.cws[k]?).elim false (fun x => x.lane == n.1 && decide (x.release < s.chip.crl.cyc + 64)))) = some i) :
    exec (.codewordRelease n parity) s = .next { s with chip := s.chip.releaseCw i v (parity.map (fun u => u.1)).eraseDups } := by
  refine congrArg Host.Outcome.next (congrArg (fun c => { s with chip := c }) ?_)
  dsimp only
  rw [hmin]
  dsimp only
  rw [hv]

theorem rsCodeword_eq (s : State) (p : PortNo) (hrun : s.chip.portRuns p.1 = true) (hon : s.chip.pdOn 16 = true) :
    (∀ skip, (s.chip.port p.1).twist = true →
      exec (.rsCodeword p (.fromTwist skip)) s = .next { s with chip := s.chip.twistCodeword p.1 skip.1 }) ∧
    (∀ w : List (Fin 1024), (s.chip.port p.1).twist = false →
      exec (.rsCodeword p (.fromIeee w)) s = .next { s with chip := s.chip.rsFromLine p.1 (w.map (fun v => v.1)) }) ∧
    (∀ skip (lanes : List (HLane × List (Fin 1024))),
      exec (.rsCodeword p (.fromHost skip lanes)) s =
        .next { s with chip := s.chip.hostCodeword p.1 skip.1 (lanes.map (fun l => (l.1.1, l.2.map (fun v => v.1)))) }) := by
  have hserves : ¬ (!(s.chip.portRuns p.1) || !(s.chip.pdOn 16)) = true := by simp [hrun, hon]
  refine ⟨fun skip htw => ?_, fun w htw => ?_, fun skip lanes => ?_⟩ <;>
    refine congrArg Host.Outcome.next (congrArg (fun c => { s with chip := c }) ((if_neg hserves).trans ?_))
  · exact if_pos htw
  · exact if_neg (by simp [htw])
  · rfl

/-! ### The settling theorem -/

/-- Settles O31, by the lemma about each kind of step: arrival, rotation, slot boundary, release, outer RS decoder, statistics window. -/
theorem creelSteps : Obligations.CreelSteps := by
  unfold Obligations.CreelSteps
  intro s n p
  refine ⟨fun at_ w rest hw => codewordArrival_step s n at_ w rest hw, spareRotation_step s, fun hon => ?boundary,
    fun b hon hspare hfresh => ?spare, fun i v parity hv hlane hother hmin => ?release, fun hrun hon => ?decoder, fun hon => ?window⟩
  case boundary => exact ⟨_, rfl, slotBoundary_plain s.chip hon⟩
  case spare => exact ⟨_, rfl, slotBoundary_spareFails s.chip b.2 hon hspare hfresh⟩
  case release =>
    have hspec := releaseCw_spec s.chip n.2 i v (parity.map (fun u => u.1)).eraseDups hlane hother
    rw [without_parity] at hspec
    exact ⟨_, codewordRelease_eq s n i v parity hv hmin, hspec⟩
  case decoder =>
    obtain ⟨htwist, hieee, hhost⟩ := rsCodeword_eq s p hrun hon
    exact ⟨fun skip htw hlen => ⟨_, htwist skip htw, twistCodeword_spec s.chip p.2 skip.1 hlen⟩,
      fun w htw => ⟨_, hieee w htw, (rsFromLine_spec s.chip p.2 _).1⟩,
      fun skip lanes hall => ⟨_, hhost skip lanes, hostCodeword_spec s.chip p.2 skip.1 _ hall⟩⟩
  case window =>
    obtain ⟨d, hnext, hspec⟩ := statsWindow_step s hon n.1
    exact ⟨_, hnext, hspec⟩

end Sys2Proof.Machine
end
